-- ==== Sys2Proof/Word.lean ====
section
/-! DEFINITION. The word types of the part (spec/00_scope.md R5) and the type of sparse keyed data. -/

namespace Sys2Proof

/-- A register word, an instruction word, a window word. -/
abbrev Word := BitVec 32

/-- A thread register (R299). -/
abbrev DWord := BitVec 64

/-- One byte. -/
abbrev Byte := BitVec 8

/-- Sparse data by key: strictly rising keys, and no entry equal to what an unlisted key reads as. -/
abbrev SMap (α : Type) := List (Nat × α)

/-- Bytes by address, in the same canonical form. -/
abbrev Mem := List (Nat × BitVec 8)

end Sys2Proof
end

