-- ==== Sys2Proof/Types.lean ====
section
/-! DEFINITION. The kinds of operand that the commands take. -/

namespace Sys2Proof

/-- The two external phase inputs (R36). -/
inductive PhInp | a | b
  deriving DecidableEq, Repr

/-- The data window unit and the spaces of R390 are numbers; the tables of R162 are these. -/
inductive Tbl | l2 | flow | lpm
  deriving DecidableEq, Repr

/-- Why a stack leaves the group (R231). -/
inductive StackCause | training | exclusion | controller
  deriving DecidableEq, Repr

/-- Why a die is excluded: the codes of GLB_DIE_CAUSE (R482). -/
inductive DieCause | start | heartbeat | supply | thermal | pilotRam | host
  deriving DecidableEq, Repr

/-- The three sensors of a die (R516). -/
inductive Sensor | compute | island | hbm
  deriving DecidableEq, Repr

/-- What makes a die cease to be healthy by itself, a trip apart (R468). -/
inductive FallCause | heartbeat | supply | pilotRam
  deriving DecidableEq, Repr

/-- A reading that passes its trip level (R517). -/
structure DieTrip where
  die : Fin 8
  sensor : Sensor
  temp : Int
  deriving DecidableEq, Repr

/-- What falls in the same cycle as a loss: dies that cease to be healthy, each with its cause, and trips (R430, R480, R517). -/
structure SameCycle where
  also : List (Fin 8 × FallCause) := []
  trips : List DieTrip := []
  deriving DecidableEq, Repr

/-- A die that ceases to be healthy, and what falls in its cycle. -/
structure DieLoss extends SameCycle where
  die : Fin 8
  deriving DecidableEq, Repr

/-- The temperature of a trip, and what falls in its cycle. -/
structure TripTemp extends SameCycle where
  temp : Int
  deriving DecidableEq, Repr

/-- A condition of R495 of a port's link by its number, as it comes to hold or fails, with the codewords corrected and uncorrectable that came on the port since the last that were counted (R493, R539; log 75). -/
structure LinkCond where
  cond : Nat
  corrected : Nat := 0
  uncorrectable : Nat := 0
  deriving DecidableEq, Repr

/-- A received line frame (R489): its bytes with the FCS, the corrected and uncorrectable codewords that the port's lanes brought since the frame before (R493), whether a codeword of the frame was uncorrectable or a block invalid, whether ingress was open and the link reported up when its first bit arrived (R437, R539), whether it found the island's buffer full during a takeover (R471). -/
structure RxFrame where
  bytes : List Byte
  corrected : Nat
  uncorrectable : Nat
  codeErr : Bool
  openAtFirst : Bool
  linkAtFirst : Bool
  islandFull : Bool
  deriving DecidableEq, Repr

/-- A learn notice from another die (R153). -/
structure Notice where
  domain : BitVec 12
  mac : BitVec 48
  port : BitVec 5
  data : BitVec 24
  deriving DecidableEq, Repr

/-- An operand, and whether the command meets in its cycle the event that a rule of coincidences sets against it (R166, R295, R368, R480). -/
structure Tied (α : Type) where
  val : α
  same : Bool
  deriving DecidableEq, Repr

/-- What a step on the timing lanes tells beside its edge: the time since the phase's previous step in fs, and the dies that do not advance by one with it, each with its number of steps (R44, R536). -/
structure StepLag where
  lag : Nat
  lanes : List (Fin 8 × Nat)
  deriving DecidableEq, Repr

/-- The step that begins a crossing: the time since the input's previous edge and since the phase's previous step in fs, and the dies as above (R42, R44, R46). -/
structure StepEdge where
  period : Nat
  lag : Nat
  lanes : List (Fin 8 × Nat)
  deriving DecidableEq, Repr

/-- The service of a request at a stack: the local time in ns, and the outcome of the check code: 0 good, 1 corrected, more uncorrectable (R212, R221). -/
structure HbmServe where
  now : Nat
  bad : Nat
  deriving DecidableEq, Repr

/-- A word of a program store that a fetch found in error: its address, and whether the error was corrected (R269). -/
structure FetchWord where
  addr : Fin 32768
  corrected : Bool
  deriving DecidableEq, Repr

/-- The link of an attachment: up or down, and its mode, KR4 or KR1 (R371). -/
structure LinkReport where
  up : Bool
  kr4 : Bool
  deriving DecidableEq, Repr

/-- What an ARP request or a neighbour solicitation asks for: the IP version and the address (R372). -/
structure ArpTarget where
  v6 : Bool
  addr : BitVec 128
  deriving DecidableEq, Repr

/-- Arguments of TBL (R392); cut: the dies on which a reset interrupts the insert of an LPM entry, each with the moves made until then (R160; log 73). -/
structure TblArgs where
  table : Nat
  die : Nat
  flags : Nat
  expGen : BitVec 16
  body : List Byte
  cut : List (Fin 8 × Nat) := []
  deriving DecidableEq, Repr

/-- Arguments of LONG (R393). -/
structure LongArgs where
  space : Nat
  unit : Nat
  flags : Nat
  offset : Nat
  length : Nat
  pattern : BitVec 64
  deriving DecidableEq, Repr

/-- Arguments of CLAIM (R384), bytes 273 to 275 as sent among them, the source address of its frame, whether it arrived protected, and whether DNONCE was issued no more than 10 s of local time earlier (R385). In a frame the address and the protection are those of the frame. -/
structure ClaimArgs where
  dnonce : List Byte
  owner : List Byte
  heph : List Byte
  ukey : List Byte
  cipher : Nat
  rsv : List Byte := [0, 0, 0]
  osig : List Byte
  src : BitVec 48
  prot : Bool
  fresh : Bool
  deriving DecidableEq, Repr

/-- Arguments of TASK_INJECT (R398). -/
structure InjectArgs where
  die : Nat
  ready : Nat
  entry : BitVec 16
  delay : Word
  key : DWord
  args : List DWord
  deriving DecidableEq, Repr

/-- Arguments of DBG (R399). -/
structure DbgArgs where
  die : Nat
  op : Nat
  thread : Nat
  expGen : BitVec 16
  reg : Nat
  value : DWord
  deriving DecidableEq, Repr

/-- Arguments of PATCH (R400). -/
structure PatchArgs where
  total : Nat
  offset : Nat
  last : Bool
  data : List Byte
  deriving DecidableEq, Repr

/-- A command inside a Gangway frame (R387); the code is kept of an unknown opcode and of a command whose LENGTH does not suit it. -/
inductive GwOp
  | identify (hnonce : List Byte)
  | claim (a : ClaimArgs)
  | opens (evt : Bool)
  | close
  | rd (addr : Nat) (count : Nat)
  | wr (addr : Nat) (words : List Word)
  | rmw (addr : Nat) (mask value : Word)
  | winSet (space unit : Nat) (offset : Nat)
  | winRd (count : Nat)
  | winWr (data : List Byte)
  | tbl (sub : Nat) (a : TblArgs)
  | long (kind : Nat) (a : LongArgs)
  | abort (opid : BitVec 16)
  | status (opid : BitVec 16) (release : Bool)
  | mode (op target die unit : Nat) (expGen : BitVec 16) (ports : Word)
  | evack (eseq : Word)
  | inject (a : InjectArgs)
  | dbg (a : DbgArgs)
  | patch (a : PatchArgs)
  | badArgs (code : Nat)
  | unknown (code : Nat)
  deriving DecidableEq, Repr

/-- A command with its tag (R376). -/
structure GwCmd where
  tag : BitVec 16
  op : GwOp
  deriving DecidableEq, Repr

/-- How a Gangway frame is carried (R372): its EtherType, or the addresses, ports and checksum field of its UDP datagram. -/
inductive GwEncap
  | ether (etype : BitVec 16)
  | udp4 (src dst : BitVec 32) (sport dport sum : BitVec 16)
  | udp6 (src dst : BitVec 128) (sport dport sum : BitVec 16)
  deriving DecidableEq, Repr

/-- A frame received on the host port (R371 to R376): attachment, Ethernet addresses, how it is carried, its protection (association number, packet number and SCI of its SecTAG, and whether its integrity check value verifies), whether the latest DNONCE was issued no more than 10 s of local time before it (R385), whether it meets the watchdog's expiry in its cycle (R407, R459), and the bytes from the Gangway header on, padding included. -/
structure GwFrame where
  attB : Bool
  dst : BitVec 48
  src : BitVec 48
  encap : GwEncap
  prot : Bool
  an : Fin 4
  pn : Nat
  sci : BitVec 64
  verified : Bool
  fresh : Bool
  tied : Bool := false
  msg : List Byte
  deriving DecidableEq, Repr

/-- A check-code finding of a scrub or a read (R462): memory code, address or index, whether it could be corrected. -/
structure EccFind where
  mem : Nat
  addr : Nat
  corrected : Bool
  deriving DecidableEq, Repr

end Sys2Proof
end

