-- ==== Sys2Proof/Syntax.lean ====
section
/-! DEFINITION. The commands of the block: one constructor for each row of spec/opcode_table.json; the operands are the model's (log 8). -/

namespace Sys2Proof

/-- The commands. A die, thread, port, landing queue, bank, lock or program store address is a number in the range of R1 and R528; port numbers are package ports, die × 4 + first lane. -/
inductive Instr
  /-- PHASE_STEP (R42). A step of the active phase input advances the step number and, at PHI_XLEN, the crossing number. -/
  | phaseStep (inp : PhInp) (mark : Bool) (period : Nat) (lag : StepLag)
  /-- ESTIMATED_STEP (R536). When no edge of the active input has arrived 1.5 measured periods after the previous step, the device places an estimated step. -/
  | estimatedStep
  /-- COASTED_STEP (R51). During HOLDOVER or LOST the phase advances by one step at the frozen measured period. -/
  | coastedStep
  /-- SELF_PHASE_STEP (R59). In self-phase the device generates a step every PHI_SELF_STEP picoseconds from the reference clock. -/
  | selfPhaseStep
  /-- TICK (R43). A tick occurs when the low TICK_SHIFT bits of the step count become zero. -/
  | tick
  /-- CROSSING_BEGIN (R42). Step 0 of a new crossing begins and the crossing number advances modulo 2^32. -/
  | crossingBegin (mark : Bool) (edge : StepEdge)
  /-- PHASE_WORD (R40). A 56-bit phase word on DATA is taken whole and checked for SYNC, CRC and crossing number. -/
  | phaseWord (inp : PhInp) (w : BitVec 56)
  /-- STEP_PRESENCE_FAIL (R46). No STEP edge arrives for 8 measured periods and the input fails at once. -/
  | stepPresenceFail (inp : PhInp)
  /-- PHASE_ADOPT (R52). At the next step 0 of a newly healthy input the device adopts its phase, reporting any jump. -/
  | phaseAdopt
  /-- HOLDOVER_EXPIRY (R49). PHI_HOLDOVER_XINGS crossings have been coasted and the phase enters LOST, closing all windows. -/
  | holdoverExpiry
  /-- PHASE_REVERT (R50). With REVERT set, the device returns to the preferred input at a step 0 once it has been healthy and agreeing. -/
  | phaseRevert
  /-- PHASE_REALIGN (R44). A skewed die realigns its phase at the next step 0 and reopens its windows. -/
  | phaseRealign (d : Fin 8)
  /-- COPY_SELECT (R41). With COPY_SRC set, a good word's COPY_SEL selects the active timetable copy from the next crossing. -/
  | copySelect
  /-- PHI_SOURCE_SELECT (R49). A host write of PHI_CTRL.SRC in PROVISION passes the phase through NONE and selects none, external or self. -/
  | phiSourceSelect (w : Word)
  /-- PHI_NOW_XING_READ (R58). A read of PHI_NOW_XING latches PHI_NOW_STEP and the tick count from the same phase. -/
  | phiNowXingRead
  /-- CTE_SWAP_ARM (R77). A CTE_SWAP write with ARM arms a timetable swap at CTE_SWAP_XING if at least two crossings remain. -/
  | cteSwapArm (exp : BitVec 16)
  /-- CTE_SWAP_CANCEL (R80). A CTE_SWAP write with CANCEL withdraws a pending swap while at least two crossings remain. -/
  | cteSwapCancel (exp : BitVec 16)
  /-- CTE_SWAP_NOW (R81). A CTE_SWAP write with NOW swaps the copies at once in PROVISION. -/
  | cteSwapNow (exp : BitVec 16)
  /-- TIMETABLE_SWAP (R78). An armed swap takes effect at step 0 of its crossing, making the shadow active and reporting EV_TT_SWAP. -/
  | timetableSwap
  /-- DEPARTURE_START (R85). The CTE starts a selected frame on a free port when it fits before the end of the open run. -/
  | departureStart (p : Fin 32)
  /-- PREFETCH_POINT (R90). PREFETCH_LEAD steps before a run, the CTE requests the first PF_DEPTH staged segments of each queue and closes open segments. -/
  | prefetchPoint (b : Fin 8192) (g : Fin 4)
  /-- PREFETCH_LAND (R217). A prefetched segment's reads are committed and its data is in the prefetch area, making staged heads eligible. -/
  | prefetchLand (q : Fin 262144) (seg : Nat)
  /-- PREFETCH_DEADLINE (R92). A requested segment is not present at its deadline and counts in CTE_PF_LATE. -/
  | prefetchDeadline (q : Fin 262144) (seg : Nat)
  /-- DUE_QUEUE_READ (R93). A due queue with unrequested staged segments has them requested through P0 up to PF_DEPTH. -/
  | dueQueueRead (q : Fin 262144)
  /-- PREFETCH_AREA_WAIT (R94). A prefetch request that found the area full proceeds once enough chunks are free. -/
  | prefetchAreaWait (d : Fin 8)
  /-- LINK_STATE_APPLY (R95). A link state report from the LPX takes effect for the port's banks at the next step. -/
  | linkStateApply (p : Fin 32)
  /-- AGE_DROP (R97). Once per tick the CTE drops head frames whose age exceeds AGE_LIMIT and frees fully aged segments. -/
  | ageDrop (q : Fin 262144)
  /-- FRAME_RECEIVE (R489). A whole frame is received by the port island and checked for code errors, length and FCS. -/
  | frameReceive (p : Fin 32) (f : RxFrame)
  /-- PARSE_FRAME (R105). An idle parse engine takes the oldest frame of its region's parse queue and runs the parse program on it. -/
  | parseFrame (d : Fin 8) (e : Fin 16)
  /-- PARSE_END (R113). A parse ends, PCYC and LASTW are written and the frame passes to the classifier. -/
  | parseEnd (d : Fin 8) (e : Fin 16)
  /-- FRAG_HOLD_EXPIRY (R125). FRAG_HOLD ticks pass for a pending entry and its held frames take the default action. -/
  | fragHoldExpiry (d : Fin 8) (i : Fin 4096)
  /-- FRAG_LIFE_EXPIRY (R126). A recorded fragment entry unhit for FRAG_LIFE ticks is freed. -/
  | fragLifeExpiry (d : Fin 8) (i : Fin 4096)
  /-- SEQUENCE_ASSIGN (R128). Once all lower arrival numbers have their flows decided, the frame takes its flow's next sequence number. -/
  | sequenceAssign (d : Fin 8)
  /-- FLOW_CONTEXT_FETCH (R144). A flow context that missed the flow cache arrives through P2 and the waiting frame proceeds. -/
  | flowContextFetch (d : Fin 8) (c : Fin 65536)
  /-- ROB_ENTRY_WAIT (R129). A ticket held for lack of a reorder buffer entry receives one when an entry is freed. -/
  | robEntryWait (d : Fin 8)
  /-- LEARN_APPLY (R148). The learn engine applies a queued insert request to its reserved slot. -/
  | learnApply (d : Fin 8)
  /-- MOVE_APPLY (R150). The learn engine applies a move request, refusing, pinning or moving the entry. -/
  | moveApply (d : Fin 8)
  /-- LEARN_NOTICE (R153). A learn notice from another die arrives and is placed in the learn queue. -/
  | learnNotice (d : Fin 8) (n : Notice)
  /-- LEARN_NOTICE_APPLY (R153). A queued learn notice creates, updates or is refused against a local entry. -/
  | learnNoticeApply (d : Fin 8)
  /-- AGER_VISIT (R154). The ager visits a learned entry, clearing ACT or removing the entry if ACT is still 0. -/
  | agerVisit (d : Fin 8) (t : Tbl) (i : Tied Nat)
  /-- PIN_RELEASE (R150). A pinned entry is released after PIN_TICKS ticks. -/
  | pinRelease (d : Fin 8) (i : Fin 32768)
  /-- HASH_SEED_WRITE (R167). A write of FWT_HASH_SEED changes the hash seed and removes every learned entry. -/
  | hashSeedWrite (d : Fin 8) (w : Word)
  /-- TBL_SEARCH (R162). TBL SEARCH returns the entry that matches a key exactly on one die. -/
  | tblSearch (a : TblArgs)
  /-- TBL_NEXT (R162). TBL NEXT returns the next valid entry above the cursor on one die. -/
  | tblNext (a : TblArgs)
  /-- TBL_INSERT (R162). TBL INSERT writes a static entry on every present die, or fails on all with GW_NOROOM. -/
  | tblInsert (a : TblArgs)
  /-- TBL_DELETE (R162). TBL DELETE removes the entry for a key on one or all dies. -/
  | tblDelete (a : TblArgs)
  /-- TBL_FLUSH_PORT (R162). TBL FLUSH_PORT removes every learned L2 entry of a port on all dies. -/
  | tblFlushPort (a : TblArgs)
  /-- POOL_BASE_WRITE (R169). A write of BPM_POOL_BASE is held until BPM_POOL_CNT of the same pool is written. -/
  | poolBaseWrite (d : Fin 8) (i : Fin 8) (w : Word)
  /-- POOL_COUNT_COMMIT (R169). A write of BPM_POOL_CNT commits the pool's placement or fails on overlap. -/
  | poolCountCommit (d : Fin 8) (i : Fin 8) (w : Word)
  /-- POOL_REBUILD_DONE (R176). A quarantined pool's rebuild completes and the pool leaves quarantine. -/
  | poolRebuildDone (d : Fin 8) (i : Fin 8)
  /-- HOST_FREE (R183). A write of BPM_HOST_FREE_HI performs a BFREE on the host's behalf. -/
  | hostFree (d : Fin 8) (w : Word)
  /-- ADMIT (R186). A frame joins its landing queue on the owning die and is kept in the quay, staged or dropped. -/
  | admitFrame (d : Fin 8) (pick : Nat)
  /-- DWELL_STAGE (R188). Once per tick, quay frames older than QUAY_DWELL in closed banks are staged oldest first. -/
  | dwellStage (q : Fin 262144) (pick : Nat)
  /-- QBA_QSEL_WRITE (R196). A write of QBA_QSEL latches the queue's five QBA_QDATA values. -/
  | qbaQselWrite (d : Fin 8) (w : Word)
  /-- QBA_QDATA_READ (R196). A read of an RC word of QBA_QDATA returns the latched value and subtracts it from the counter. -/
  | qbaQdataRead (d : Fin 8) (i : Fin 5)
  /-- SEG_FLUSH_EXPIRY (R207). SEG_FLUSH ticks after its first frame, an open segment is closed and written. -/
  | segFlushExpiry (seg : Nat)
  /-- SEGMENT_WRITTEN (R206). All chunk writes and both record copies are acknowledged and the segment's frames are staged. -/
  | segmentWritten (seg : Nat)
  /-- HBM_REQUEST_ISSUE (R212). A pseudo-channel serves its next pending request by urgency, row hit, port and age. -/
  | hbmRequestIssue (d : Fin 8) (pc : Fin 32) (now : HbmServe)
  /-- URGENCY_LATE (R211). A request reaches urgency 4 at its target and counts in SSC_LATE. -/
  | urgencyLate (id now : Nat)
  /-- ROW_IDLE_CLOSE (R213). An open HBM row is closed after SSC_PAGE.IDLE ns with no request for it. -/
  | rowIdleClose (d : Fin 8) (pc : Fin 32) (bank : Nat)
  /-- REFRESH_DUE (R215). A per-bank refresh falls due and is issued or postponed. -/
  | refreshDue (d : Fin 8) (pc : Fin 32) (bank : Nat)
  /-- TRAINING_DONE (R219). Stack training completes and failed stacks are left out of the parity group. -/
  | trainingDone (passed : BitVec 8)
  /-- SPARE_REMAP (R221). The 8 KiB unit of an uncorrectable piece is remapped to a spare unit through P5. -/
  | spareRemap (d : Fin 8) (unit : Nat)
  /-- CHANNEL_LOST (R222). A channel's uncorrectable count reaches its limit and the channel is lost. -/
  | channelLost (d : Fin 8) (c : Fin 16)
  /-- STACK_LOST (R223). A stack is lost and leaves the parity group. -/
  | stackLost (d : Fin 8) (cause : StackCause)
  /-- REBUILD_SEGMENT (R225). The rebuild repacks one old-geometry segment into new segments and advances its cursor. -/
  | rebuildSegment (picks : List Nat)
  /-- REBUILD_RESUME (R225). A waiting rebuild resumes once segments are freed. -/
  | rebuildResume
  /-- RSQ_RELEASE (R240). The resequencer releases a flow's ended head entry and frees it. -/
  | rsqRelease (d : Fin 8) (c : Fin 65536)
  /-- GAP_TIMEOUT (R242). A blocked flow's gap timer expires, its pending numbers are skipped and held frames released. -/
  | gapTimeout (d : Fin 8) (c : Fin 65536)
  /-- HANDOFF_ACK (R245). The owning die acknowledges a handoff copy and the ingress buffer is freed. -/
  | handoffAck (id : Nat)
  /-- FRAME_LEAVE_QUAY (R253). The edit engine passes a frame's last byte into the transmit buffer and its buffer and mirror are freed. -/
  | frameLeaveQuay (p : Fin 32)
  /-- EDIT_PROG_WRITE (R250). A write of RSQ_EDIT_PROG that leaves VALID = 1 is checked against the chain rules. -/
  | editProgWrite (d : Fin 8) (n : Fin 256) (w : Word)
  /-- PORT_DATA_COMMIT (R256). A write of word 15 of RSQ_PORT_DATA commits all 16 held words together. -/
  | portDataCommit (d : Fin 8) (l : Fin 4) (w : Word)
  /-- HELPER_REPLY (R262). A helper or quay reply arrives and the thread resumes, or faults on an error with U = 1. -/
  | helperReply (d : Fin 8) (n : Fin 384) (uncorr : Bool)
  /-- HELPER_TIMEOUT (R276). No reply arrives within CRA_HELPER_TMO and the request ends with error 0x01. -/
  | helperTimeout (d : Fin 8) (n : Fin 384)
  /-- PILOT_THREAD_RESTART (R283). With PILOT_RESTART set, the Pilot restarts a thread whose fault record it received. -/
  | pilotThreadRestart (d : Fin 8) (n : Fin 384)
  /-- RUNAWAY (R279). A thread's slot count exceeds CRA_MAX_SLOTS and it faults with TF_RUNAWAY. -/
  | runaway (d : Fin 8) (n : Fin 384)
  /-- BREAKPOINT_HIT (R290). A breakpoint matches a thread about to issue and the thread halts without executing. -/
  | breakpointHit (d : Fin 8) (n : Fin 384)
  /-- THREAD_STOP (R287). CRA_THREAD_CTL OP 1 stops a thread at its next slot. -/
  | threadStop (d : Fin 8) (n : Fin 384) (exp : Tied (BitVec 16))
  /-- THREAD_RESTART (R288). CRA_THREAD_CTL OP 2 restarts a thread, releasing what it holds. -/
  | threadRestart (d : Fin 8) (n : Fin 384) (exp : BitVec 16)
  /-- THREAD_HALT (R291). CRA_THREAD_CTL OP 3 halts a thread at its next slot. -/
  | threadHalt (d : Fin 8) (n : Fin 384) (exp : BitVec 16)
  /-- THREAD_RESUME (R287). CRA_THREAD_CTL OP 4 returns a halted thread to its held state. -/
  | threadResume (d : Fin 8) (n : Fin 384) (exp : BitVec 16)
  /-- THREAD_STEP (R293). CRA_THREAD_CTL OP 5 lets a halted thread issue one instruction and halt again. -/
  | threadStep (d : Fin 8) (n : Fin 384) (exp : BitVec 16)
  /-- PS_CHECK_START (R268). A write of CRA_PS_CHECK.START begins the CRC check of every cluster's program store. -/
  | psCheckStart (d : Fin 8)
  /-- PS_CHECK_DONE (R268). The program store check completes and CRA_PS_CRC and MISMATCH are set. -/
  | psCheckDone (d : Fin 8)
  /-- PS_FETCH_REPAIR (R269). An uncorrectable program store word is rewritten from another copy and the waiting fetch proceeds. -/
  | psFetchRepair (d : Fin 8) (k : Fin 6) (a : FetchWord)
  /-- DBG_REG_READ (R294). A read of CRA_DBG_LO latches both words of the selected register of a stopped thread. -/
  | dbgRegRead (d : Fin 8)
  /-- DBG_REG_WRITE (R294). A write of CRA_DBG_HI commits the selected register of a stopped thread. -/
  | dbgRegWrite (d : Fin 8) (w : Word)
  /-- DEBUG_EN_CLEAR (R289). A write that clears DEBUG_EN resumes every halted thread of the die. -/
  | debugEnClear (d : Fin 8) (w : Word)
  /-- SUPERVISOR_SET (R284). A write of CRA_SUPER changes a cluster's supervisor for later fault records. -/
  | supervisorSet (d : Fin 8) (k : Fin 6) (w : Word)
  /-- ADD (R304). ADD writes ga plus gb or the immediate to gd. -/
  | add (d : Fin 8) (n : Fin 384)
  /-- SUB (R304). SUB writes ga minus gb to gd. -/
  | sub (d : Fin 8) (n : Fin 384)
  /-- AND (R304). AND writes the bitwise AND of its operands to gd. -/
  | andd (d : Fin 8) (n : Fin 384)
  /-- OR (R304). OR writes the bitwise OR of its operands to gd. -/
  | orr (d : Fin 8) (n : Fin 384)
  /-- XOR (R304). XOR writes the bitwise XOR of its operands to gd. -/
  | xorr (d : Fin 8) (n : Fin 384)
  /-- SHL (R304). SHL shifts ga left with zeros in. -/
  | shl (d : Fin 8) (n : Fin 384)
  /-- SHR (R304). SHR shifts ga right with zeros in. -/
  | shr (d : Fin 8) (n : Fin 384)
  /-- SAR (R304). SAR shifts ga right with copies of bit 63 in. -/
  | sar (d : Fin 8) (n : Fin 384)
  /-- ROT (R304). ROT rotates ga left. -/
  | rot (d : Fin 8) (n : Fin 384)
  /-- MIN (R304). MIN writes the smaller signed operand to gd. -/
  | minn (d : Fin 8) (n : Fin 384)
  /-- MAX (R304). MAX writes the larger signed operand to gd. -/
  | maxx (d : Fin 8) (n : Fin 384)
  /-- MUL (R304). MUL writes the low 64 bits of the product to gd. -/
  | mul (d : Fin 8) (n : Fin 384)
  /-- POPC (R304). POPC writes the number of 1 bits of ga to gd. -/
  | popc (d : Fin 8) (n : Fin 384)
  /-- CLZ (R304). CLZ writes the number of leading zero bits of ga to gd. -/
  | clz (d : Fin 8) (n : Fin 384)
  /-- OR_SHIFT_16 (R304). Opcode 0x11 writes ga OR (IMM << 16) to gd. -/
  | orShift16 (d : Fin 8) (n : Fin 384)
  /-- OR_SHIFT_32 (R304). Opcode 0x12 writes ga OR (IMM << 32) to gd. -/
  | orShift32 (d : Fin 8) (n : Fin 384)
  /-- OR_SHIFT_48 (R304). Opcode 0x13 writes ga OR (IMM << 48) to gd. -/
  | orShift48 (d : Fin 8) (n : Fin 384)
  /-- BFX (R305). BFX extracts a bit field of ga into gd, zero-extended. -/
  | bfx (d : Fin 8) (n : Fin 384)
  /-- BFI (R305). BFI inserts the low bits of ga into a bit field of gd. -/
  | bfi (d : Fin 8) (n : Fin 384)
  /-- LD8 (R308). LD8 loads 1 scratchpad byte into gd. -/
  | ld8 (d : Fin 8) (n : Fin 384)
  /-- LD16 (R308). LD16 loads 2 scratchpad bytes into gd. -/
  | ld16 (d : Fin 8) (n : Fin 384)
  /-- LD32 (R308). LD32 loads 4 scratchpad bytes into gd. -/
  | ld32 (d : Fin 8) (n : Fin 384)
  /-- LD64 (R308). LD64 loads 8 scratchpad bytes into gd. -/
  | ld64 (d : Fin 8) (n : Fin 384)
  /-- ST8 (R308). ST8 stores 1 byte to the scratchpad. -/
  | st8 (d : Fin 8) (n : Fin 384)
  /-- ST16 (R308). ST16 stores 2 bytes to the scratchpad. -/
  | st16 (d : Fin 8) (n : Fin 384)
  /-- ST32 (R308). ST32 stores 4 bytes to the scratchpad. -/
  | st32 (d : Fin 8) (n : Fin 384)
  /-- ST64 (R308). ST64 stores 8 bytes to the scratchpad. -/
  | st64 (d : Fin 8) (n : Fin 384)
  /-- FLD (R309). FLD reads 1 to 8 bytes of a quay buffer into gd. -/
  | fld (d : Fin 8) (n : Fin 384)
  /-- FST (R309). FST writes 1 to 8 bytes into a quay buffer's frame. -/
  | fst (d : Fin 8) (n : Fin 384)
  /-- FLEN (R309). FLEN writes the frame length of a quay buffer to gd. -/
  | flen (d : Fin 8) (n : Fin 384)
  /-- BEQ (R306). BEQ branches when ga equals gb. -/
  | beq (d : Fin 8) (n : Fin 384)
  /-- BNE (R306). BNE branches when ga differs from gb. -/
  | bne (d : Fin 8) (n : Fin 384)
  /-- BLT (R306). BLT branches when ga is less than gb, signed. -/
  | blt (d : Fin 8) (n : Fin 384)
  /-- BGE (R306). BGE branches when ga is at least gb, signed. -/
  | bge (d : Fin 8) (n : Fin 384)
  /-- BLTU (R306). BLTU branches when ga is less than gb, unsigned. -/
  | bltu (d : Fin 8) (n : Fin 384)
  /-- BGEU (R306). BGEU branches when ga is at least gb, unsigned. -/
  | bgeu (d : Fin 8) (n : Fin 384)
  /-- BBS (R306). BBS branches when bit n of ga is 1. -/
  | bbs (d : Fin 8) (n : Fin 384)
  /-- BBC (R306). BBC branches when bit n of ga is 0. -/
  | bbc (d : Fin 8) (n : Fin 384)
  /-- J (R307). J continues at TARGET. -/
  | j (d : Fin 8) (n : Fin 384)
  /-- JAL (R307). JAL writes PC + 1 to gd and continues at TARGET. -/
  | jal (d : Fin 8) (n : Fin 384)
  /-- JR (R307). JR writes PC + 1 to gd and continues at the address in ga. -/
  | jr (d : Fin 8) (n : Fin 384)
  /-- CRC32C (R310). CRC32C feeds K bytes of gb into a CRC-32C register starting at ga. -/
  | crc32c (d : Fin 8) (n : Fin 384)
  /-- HASH (R310). HASH computes the table hash or a CRC-64 over 16 bytes. -/
  | hash (d : Fin 8) (n : Fin 384)
  /-- TWAIT (R311). TWAIT places the thread in TWAIT until a task is delivered from its lists. -/
  | twait (d : Fin 8) (n : Fin 384)
  /-- TDONE (R314). TDONE ends the current non-ticket task and restarts the MAX_SLOTS count. -/
  | tdone (d : Fin 8) (n : Fin 384)
  /-- TPOST (R313). TPOST posts a task with six words to a ready list or delay list, locally or on another die. -/
  | tpost (d : Fin 8) (n : Fin 384)
  /-- TDEFER (R314). TDEFER passes the held ticket to a new task on the own die, keeping its sequence number held. -/
  | tdefer (d : Fin 8) (n : Fin 384)
  /-- BALLOC (R315). BALLOC allocates a quay buffer of a class or returns outcome 0x10. -/
  | balloc (d : Fin 8) (n : Fin 384)
  /-- BFREE (R182). BFREE frees a buffer or decrements a shared buffer's references. -/
  | bfree (d : Fin 8) (n : Fin 384)
  /-- BSHARE (R180). BSHARE marks a buffer shared with a reference count and closer, or adds references. -/
  | bshare (d : Fin 8) (n : Fin 384)
  /-- BCHECK (R315). BCHECK checks a handle and returns its state without faulting. -/
  | bcheck (d : Fin 8) (n : Fin 384)
  /-- LKP (R316). LKP reads an L2, flow-key, LPM or context USER table of the own die. -/
  | lkp (d : Fin 8) (n : Fin 384)
  /-- LRN (R316). LRN submits a learn request for an address and port. -/
  | lrn (d : Fin 8) (n : Fin 384)
  /-- LOCK (R352). LOCK takes a lock at once or joins its queue and waits. -/
  | lock (d : Fin 8) (n : Fin 384)
  /-- LOCK_GRANT (R353). A released lock passes to its first waiter, whose LOCK returns. -/
  | lockGrant (d : Fin 8) (l : Fin 16384)
  /-- TRYLOCK (R352). TRYLOCK takes a free lock or returns 0x20 without queueing. -/
  | trylock (d : Fin 8) (n : Fin 384)
  /-- UNLOCK (R352). UNLOCK releases a held lock to its first waiter or makes it free. -/
  | unlock (d : Fin 8) (n : Fin 384)
  /-- LKCLEAN (R352). LKCLEAN clears the abandoned mark of a lock the caller holds. -/
  | lkclean (d : Fin 8) (n : Fin 384)
  /-- LKFORCE (R355). LKFORCE by a supervisor releases a lock from its holder and marks it abandoned. -/
  | lkforce (d : Fin 8) (n : Tied (Fin 384))
  /-- EVWAIT (R356). EVWAIT takes a signal from an event or waits while its counter is 0. -/
  | evwait (d : Fin 8) (n : Fin 384)
  /-- EVSIG (R356). EVSIG signals an event, waking its oldest waiter or raising its counter. -/
  | evsig (d : Fin 8) (n : Fin 384)
  /-- CHPUT (R359). CHPUT appends a word to the thread's private staging area. -/
  | chput (d : Fin 8) (n : Fin 384)
  /-- CHCLOSE (R359). CHCLOSE commits the staged words as one message at the channel's tail. -/
  | chclose (d : Fin 8) (n : Fin 384)
  /-- CHGET (R360). CHGET takes the head message of a channel or waits while it is empty. -/
  | chget (d : Fin 8) (n : Fin 384)
  /-- EMIT (R236). EMIT ends a ticket toward a landing queue or flood set with an edit program. -/
  | emit (d : Fin 8) (n : Fin 384)
  /-- RETIRE (R237). RETIRE ends a ticket, dropping its frame and freeing its buffer. -/
  | retire (d : Fin 8) (n : Fin 384)
  /-- TOHOST (R318). TOHOST ends a ticket by sending its frame to the host. -/
  | tohost (d : Fin 8) (n : Fin 384)
  /-- STAGE (R318). STAGE ends a ticket as EMIT but forces staging at admission. -/
  | stage (d : Fin 8) (n : Fin 384)
  /-- PHASE (R319). PHASE returns the die's phase, tick count, step count or place word. -/
  | phase (d : Fin 8) (n : Fin 384)
  /-- SUPREAD (R285). SUPREAD returns a register, PC, state or fault record of a thread of the cluster. -/
  | supread (d : Fin 8) (n : Fin 384)
  /-- SUPSTOP (R286). SUPSTOP moves a thread of the cluster to STOPPED at its next slot. -/
  | supstop (d : Fin 8) (n : Tied (Fin 384))
  /-- SUPRESTART (R288). SUPRESTART restarts a thread of the cluster. -/
  | suprestart (d : Fin 8) (n : Fin 384)
  /-- TRAP (R320). TRAP raises a TRAP record with its code and stops the thread. -/
  | trap (d : Fin 8) (n : Fin 384)
  /-- NOP (R320). NOP does nothing for one slot. -/
  | nop (d : Fin 8) (n : Fin 384)
  /-- TASK_DELIVER (R328). The TDX delivers a ready task to a waiting thread by priority, round-robin and affinity. -/
  | taskDeliver (d : Fin 8)
  /-- AFFINITY_WAIT_END (R332). A task held for its affinity core ends its wait unserved and takes the fallback core. -/
  | affinityWaitEnd (d : Fin 8) (l : Fin 64)
  /-- DELAY_EXPIRY (R337). A delayed task whose expiry has come moves to its ready list when the task pool has room. -/
  | delayExpiry (d : Fin 8)
  /-- REMOTE_TASK_ARRIVE (R325). A remote TPOST arrives at the target die's TDX and is placed or refused. -/
  | remoteTaskArrive (d : Fin 8)
  /-- AFFINITY_CLEAR (R331). A write of TDX_CFG.AFF_CLR clears the affinity table. -/
  | affinityClear (d : Fin 8) (w : Word)
  /-- TRACE_CONTROL_WRITE (R346). A write of TDX_TRC_CTL sets tracing, and a write of RUN = 1 clears TRIGGERED and STOPPED. -/
  | traceControlWrite (d : Fin 8) (w : Word)
  /-- TRACE_MARK (R343). A write of TDX_TRC_MARK places a marker record while tracing runs. -/
  | traceMark (d : Fin 8) (w : Word)
  /-- TRACE_SPILL (R346). In the spill modes, trace records are copied in order to the spill area through P3. -/
  | traceSpill (d : Fin 8)
  /-- HOST_LOCK_FORCE (R355). A write of SYU_LK_FORCE releases a lock by force through the die's Pilot. -/
  | hostLockForce (d : Fin 8) (w : Tied Word)
  /-- HOST_EVENT_SIGNAL (R357). A write of SYU_EV_HSIG signals an event of a cluster once. -/
  | hostEventSignal (d : Fin 8) (w : Word)
  /-- HOST_CHANNEL_PUT (R361). A write of SYU_CH_HPUT commits the host's staged words as one channel message. -/
  | hostChannelPut (d : Fin 8) (w : Word)
  /-- INSPECT_SELECT (R370). A write of SYU_INSP_SEL latches the state of a lock, event or channel into SYU_INSP_DATA. -/
  | inspectSelect (d : Fin 8) (w : Word)
  /-- CLEAR_ABANDON (R366). A write of SYU_CFG.CLR_ABANDON in PROVISION clears every abandoned mark of the die. -/
  | clearAbandon (d : Fin 8) (w : Word)
  /-- STRANDED_REPORT (R364). A cluster stranded for the confirmation window is reported with a snapshot and event 1,023. -/
  | strandedReport (d : Fin 8) (k : Fin 6)
  /-- COMMAND_FRAME (R377). A Gangway command frame is verified, checked whole and executed command by command, then answered. -/
  | commandFrame (f : GwFrame)
  /-- IDENTIFY (R383). IDENTIFY draws a fresh device nonce and returns the signed identity. -/
  | identify (hnonce : List Byte)
  /-- CLAIM (R385). CLAIM enrols the owner, derives MACsec keys and in LISTEN enters PROVISION. -/
  | claim (a : ClaimArgs)
  /-- OPEN (R380). OPEN opens a session at the frame's sequence number with an empty replay cache. -/
  | openSession (s : Fin 4) (seq : Word) (evt : Bool)
  /-- CLOSE (R380). CLOSE closes the frame's session after its reply is sent. -/
  | close (s : Fin 4)
  /-- RD (R388). RD reads consecutive registers after validating every address. -/
  | rd (a : Word) (count : Nat)
  /-- WR (R388). WR writes consecutive registers in order, stopping at the first failure. -/
  | wr (a : Word) (ws : List Word)
  /-- RMW (R388). RMW reads, masks and writes one register atomically and returns the old value. -/
  | rmw (a mask value : Word)
  /-- WIN_SET (R389). WIN_SET sets the session's data window space, unit and offset. -/
  | winSet (s : Fin 4) (space unit : Nat) (off : BitVec 64)
  /-- WIN_RD (R389). WIN_RD reads bytes through the data window and advances its offset. -/
  | winRd (s : Fin 4) (count : Nat)
  /-- WIN_WR (R389). WIN_WR writes bytes through the data window and advances its offset. -/
  | winWr (s : Fin 4) (data : List Byte)
  /-- LONG_FILL (R393). LONG with KIND FILL starts a fill of a space region by the lead Pilot. -/
  | longFill (a : LongArgs)
  /-- LONG_CRC (R393). LONG with KIND CRC starts a CRC-32C over a space region by the lead Pilot. -/
  | longCrc (a : LongArgs)
  /-- LONG_TBL_CLEAR (R393). LONG with KIND TBL_CLEAR starts removing table entries by the lead Pilot. -/
  | longTblClear (a : LongArgs)
  /-- LONG_OP_CHECKPOINT (R416). After each 64 KiB or 1,024 entries the lead mirrors a long operation's checkpoint to every Pilot. -/
  | longOpCheckpoint (slot : Fin 16)
  /-- LONG_OP_COMPLETE (R394). A long operation ends, its completion record is written and EV_LONG_DONE is queued. -/
  | longOpComplete (slot : Fin 16)
  /-- ABORT (R395). ABORT stops a long operation at its next boundary or returns GW_ALREADY_DONE. -/
  | abort (opid : BitVec 16)
  /-- STATUS (R396). STATUS returns a completion record, optionally releasing it, or the package summary. -/
  | status (opid : BitVec 16) (release : Bool)
  /-- MODE_SET (R435). MODE SET moves the package to the target mode if the transition is allowed. -/
  | modeSet (target : Nat) (exp : BitVec 16)
  /-- MODE_WARM (R397). MODE WARM replies and orders a warm reset at least 100 µs later. -/
  | modeWarm (exp : BitVec 16)
  /-- MODE_COLD (R397). MODE COLD replies and orders a cold reset at least 100 µs later. -/
  | modeCold (exp : BitVec 16)
  /-- MODE_UNIT (R457). MODE UNIT restarts a PRS, CLS, FWT, TDX or SYU unit of a die. -/
  | modeUnit (die unit : Nat) (exp : BitVec 16)
  /-- UNIT_RESTART_DONE (R457). A unit restart completes and the unit resumes, delivering any tickets held meanwhile. -/
  | unitRestartDone (d : Fin 8) (u : Fin 16)
  /-- PORT_DRAIN (R444). MODE PORT_DRAIN closes ingress on the named ports and reopens the others. -/
  | portDrain (ports : Word) (exp : BitVec 16)
  /-- EVACK (R403). EVACK acknowledges every event record up to its ESEQ. -/
  | evack (eseq : Word)
  /-- TASK_INJECT (R398). TASK_INJECT places a host task on a die's ready or delay list. -/
  | taskInject (a : InjectArgs)
  /-- DBG (R399). DBG controls a thread or reads or writes a register of a stopped thread. -/
  | dbg (a : DbgArgs)
  /-- PATCH (R400). PATCH delivers a piece of a patch container and starts verification on the last piece. -/
  | patch (a : PatchArgs)
  /-- PATCH_APPLY (R427). A verified container's words are written to every die, read back and logged. -/
  | patchApply
  /-- EVENT_SEND (R402). Queued event records are sent in an EVENT frame to the event session. -/
  | eventSend (n : Nat)
  /-- EVENT_RETRANSMIT (R403). Unacknowledged event records are resent after RETX_US µs. -/
  | eventRetransmit
  /-- EXCEPTION_SEND (R405). A queued exception frame is sent to the event session within the rate limit. -/
  | exceptionSend
  /-- HOST_WDOG_EXPIRY (R406). No verified frame for TIMEOUT_MS and the device enters MOORED with EV_HOST_WDOG. -/
  | hostWdogExpiry
  /-- WDOG_ESCALATION (R406). ESC_S seconds in watchdog MOORED without a verified frame start a warm reset. -/
  | wdogEscalation
  /-- HOST_FAILOVER (R374). The GWE moves to attachment B on die 1 after island loss or FAILOVER_MS of link down. -/
  | hostFailover
  /-- COLD_START (R410). After a cold reset every Pilot runs ROM firmware through to LISTEN. -/
  | coldStart (passed : BitVec 8) (steps : List Nat)
  /-- LEAD_TAKEOVER (R416). A new lead takes over long operations from their checkpoints and queues EV_LEAD_CHANGE. -/
  | leadTakeover
  /-- MCS_SCRUB (R422). The scrubber reads MCS words and corrects or flags errors. -/
  | mcsScrub (d : Fin 8) (a : Fin 16384) (bits : Nat)
  /-- MCS_REPAIR (R422). An uncorrectable MCS word is rewritten from a good copy on another die. -/
  | mcsRepair (d : Fin 8) (a : Fin 16384)
  /-- WARM_RESET (R452). A warm reset closes ingress, stops threads, writes open segments and runs the Pilots' reset. -/
  | warmReset
  /-- WARM_RESET_DONE (R452). The warm reset reaches PROVISION and EV_WARM_DONE is queued. -/
  | warmResetDone
  /-- COLD_RESET (R449). A cold reset returns the part to RESET and then LISTEN, losing its content. -/
  | coldReset (cause : Nat)
  /-- QUAY_FLUSH (R448). A write of GLB_CTRL.QUAY_FLUSH in DRAIN or MOORED offers every quay frame to the staging store. -/
  | quayFlush (w : Word) (picks : List Nat)
  /-- DRAINED (R443). In DRAIN all three occupancy counts reach zero and EV_DRAINED is queued once. -/
  | drained
  /-- SRAM_SCRUB (R465). The scrubber reads the die's SRAM words and corrects what it can. -/
  | sramScrub (d : Fin 8) (f : EccFind)
  /-- HBM_SCRUB (R465). The scrubber reads stack pieces through P4 at the HBM rate. -/
  | hbmScrub (d : Fin 8) (piece : Nat) (bad : Nat)
  /-- TABLE_SHADOW_CHECK (R463). The scrubber compares TCAM and LPM entries with their shadows. -/
  | tableShadowCheck (d : Fin 8) (lpm : Bool) (i : Nat) (differs : Bool)
  /-- TABLE_RESTORE (R463). A failing TCAM or LPM entry is restored from its shadow. -/
  | tableRestore (d : Fin 8) (lpm : Bool) (i : Nat) (good : Bool)
  /-- STATIC_ENTRY_REPAIR (R464). A static table entry with an uncorrectable error is rewritten from another die. -/
  | staticEntryRepair (d : Fin 8) (t : Tbl) (i : Nat)
  /-- TIMETABLE_ENTRY_RESTORE (R462). A timetable entry with an uncorrectable error is restored from its other copy. -/
  | timetableEntryRestore (off : Nat)
  /-- HEARTBEAT (R468). A compute region sends its heartbeat to its PFB every 10 µs. -/
  | heartbeat (d : Fin 8)
  /-- HEARTBEAT_LOSS (R471). No heartbeat arrives within 30 µs and the die is excluded. -/
  | heartbeatLoss (x : DieLoss)
  /-- HOST_DIE_EXCLUDE (R470). A write of GLB_DIE_CTL.EXCLUDE excludes a die. -/
  | hostDieExclude (w : Tied Word)
  /-- DIE_SUPPLY_FAULT (R507). A die's local monitor sees VDD or VDDS out of range for 1 µs and the die is excluded. -/
  | dieSupplyFault (x : DieLoss)
  /-- FLIT_RETRY (R478). A die-link flit that fails its CRC is retried. -/
  | flitRetry (d : Fin 8) (l : Fin 5)
  /-- LANE_FAIL (R478). A die-link lane fails and is replaced by a spare or the link narrows or goes down. -/
  | laneFail (d : Fin 8) (l : Fin 5)
  /-- PORT_CONFIG_WRITE (R488). A write of LPX_PORT_CFG sets a port's mode and enable after its checks. -/
  | portConfigWrite (d : Fin 8) (l : Fin 4) (w : Word)
  /-- LINK_TRAINING_DONE (R495). Auto-negotiation and link training complete on a port. -/
  | linkTrainingDone (p : Fin 32)
  /-- LINK_FAILURE_DETECT (R496). The island detects that a condition of link up has failed. -/
  | linkFailureDetect (p : Fin 32) (cond : LinkCond)
  /-- LINK_DOWN_REPORT (R496). After DOWN_HOLD_US of failure the island reports link down and raises EV_LINK. -/
  | linkDownReport (p : Fin 32)
  /-- LINK_UP_REPORT (R496). After UP_HOLD_US of every condition holding the island reports link up. -/
  | linkUpReport (p : Fin 32)
  /-- FRAME_TRANSMIT_END (R494). A frame completes on the wire and counts in LPX_TX_FRAMES. -/
  | frameTransmitEnd (p : Fin 32)
  /-- SUPPLY_VALID (R506). The last supply rail becomes valid and the cold start begins. -/
  | supplyValid
  /-- SUPPLY_EXCURSION (R507). A rail leaves its range for more than 0.5 µs and a cold reset begins. -/
  | supplyExcursion
  /-- RESET_N_ASSERT (R509). RESET_N held low past its filter begins a cold reset and holds the part in RESET. -/
  | resetNAssert
  /-- RESET_N_RELEASE (R509). RESET_N is released and the start sequence runs. -/
  | resetNRelease
  /-- REFCLK_LOSS (R511). REFCLK_A is lost and the logic switches to REFCLK_B, relocking every SerDes. -/
  | refclkLoss (b : Bool)
  /-- REFCLK_RETURN (R511). A clock returns after both were lost and a cold reset follows. -/
  | refclkReturn (b : Bool)
  /-- THERM_WARN (R516). A sensor reading first reaches WARN_C and EV_THERM_WARN is reported. -/
  | thermWarn (d : Fin 8) (s : Sensor) (temp : Int)
  /-- THERMTRIP (R517). A sensor passes its trip level for 1 µs, THERMTRIP_N asserts and the region acts. -/
  | thermtrip (d : Fin 8) (s : Sensor) (temp : TripTemp)
  /-- EXTEST (R520). TAP instruction EXTEST holds the part in RESET while current. -/
  | extest
  /-- IDCODE (R520). TAP instruction IDCODE selects the IDCODE register. -/
  | idcode
  /-- SAMPLE_PRELOAD (R520). TAP instruction SAMPLE/PRELOAD samples the boundary cells. -/
  | samplePreload
  /-- CLAMP (R520). TAP instruction CLAMP holds the part in RESET as EXTEST does. -/
  | clamp
  /-- HIGHZ (R520). TAP instruction HIGHZ holds the part in RESET as EXTEST does. -/
  | highz
  /-- EXTEST_PULSE (R520). TAP instruction EXTEST_PULSE holds the part in RESET as EXTEST does. -/
  | extestPulse
  /-- EXTEST_TRAIN (R520). TAP instruction EXTEST_TRAIN holds the part in RESET as EXTEST does. -/
  | extestTrain
  /-- BYPASS (R520). TAP instruction BYPASS selects the bypass register. -/
  | bypass
  /-- TAP_HOLD_END (R520). An instruction that held the part in RESET ceases to be current and a cold reset follows. -/
  | tapHoldEnd
  /-- TAP_RESET (R519). TRST_N held low or the power-on reset resets the TAP. -/
  | tapReset
  /-- BROADCAST_WRITE (R529). A write to the broadcast block is checked on every die and then applied to all in one cycle. -/
  | broadcastWrite (off : Nat) (w : Word)
  /-- REGISTER_WRITE (R6). A host write to a register with no row of its own sets its fields under their access codes. -/
  | registerWrite (a w : Word)
  /-- HOST_ATTACHMENT_LINK (R374). A host port attachment gains or loses its link, updating GWE_STATE.LINK_A or LINK_B and starting or stopping the FAILOVER_MS count. -/
  | hostAttachmentLink (b : Bool) (up : LinkReport)
  /-- ARP_REQUEST (R372). In UDP encapsulation mode an ARP request or IPv6 neighbour solicitation for the device's address arrives on the host port and is answered. -/
  | arpRequest (b : Bool) (target : ArpTarget)
  /-- PORT_ISLAND_LOST (R479). A port island or its power domain is lost, its ports and buffered frames are lost and their banks count as link down. -/
  | portIslandLost (d : Fin 8)
  /-- PILOT_RAM_ERROR (R468). A Pilot's own RAM shows an uncorrectable error and its die is excluded with GLB_DIE_CAUSE 5. -/
  | pilotRamError (x : DieLoss)
  /-- STACK_TEMP_HOT (R215). A stack's temperature crosses 85 °C, SSC_STACK.HOT changes and the refresh interval is halved or restored. -/
  | stackTempHot (d : Fin 8) (hot : Bool)
  /-- LINK_CONDITIONS_MET (R496). The last failing condition of R495 (alignment or FEC lock, or a cleared local or remote fault) comes to hold and the up hold starts. -/
  | linkConditionsMet (p : Fin 32) (cond : LinkCond)
  deriving DecidableEq, Repr

end Sys2Proof
end

