-- ==== Sys2Proof/Config.lean ====
section
/-! DEFINITION. What an implementation fixes and the spec does not give: each constant is opaque, so nothing can be proved of its value. -/

namespace Sys2Proof.Config

/-- DESIGN CHOICE (log 6). Free values by the counter of the state: a value the spec leaves open after a step that goes on. -/
opaque freeWord : Nat → BitVec 64

/-- DESIGN CHOICE (log 3). Vendor microwords of the mask ROM image: the spec states what the vendor parse program does (R538), not its words. -/
opaque romWord : Nat → BitVec 128

/-- DESIGN CHOICE (log 3). Address of a vendor word behind the first, by the path of words that leads to it: R538 gives none. -/
opaque vendorAddr : List Nat → BitVec 14

/-- DESIGN CHOICE (log 33). How the cycles of a row of the vendor program fall on its words, by the path to the word: R538 gives the row's sum. -/
opaque vendorCycles : List Nat → Nat

/-- DESIGN CHOICE (log 33). The word of a row of the vendor program that reads past the frame's end first, by the path to the row. -/
opaque vendorStop : List Nat → Nat

/-- DESIGN CHOICE (log 33). Whether the words of a path have made part n of the effects of a row of which they are the first: R538 does not tell which word makes it. -/
opaque vendorPart : List Nat → Nat → Bool

/-- DESIGN CHOICE (log 3). ROM firmware version of PLT_ROM (R432: per ROM). -/
opaque romVersion : BitVec 16

/-- DESIGN CHOICE (log 3). The fused factory Ethernet address (R372, R532). -/
opaque factoryAddress : BitVec 48

/-- DESIGN CHOICE (log 3). The internal 16-bit code of a stored microword (R417). -/
opaque mcsCode : BitVec 128 → BitVec 16

/-- DESIGN CHOICE (log 11). SHA-384 of a byte string. -/
opaque sha384 : List (BitVec 8) → List (BitVec 8)

/-- DESIGN CHOICE (log 11). The 32-byte nonce of the n-th draw of the random number generator. -/
opaque nonce : Nat → List (BitVec 8)

/-- DESIGN CHOICE (log 11). The ephemeral public key of the n-th draw, 96 bytes. -/
opaque ephemeralKey : Nat → List (BitVec 8)

/-- DESIGN CHOICE (log 11). The identity public key, 96 bytes. -/
opaque identityKey : List (BitVec 8)

/-- DESIGN CHOICE (log 11). ECDSA signature by the identity key over a message. -/
opaque identitySign : List (BitVec 8) → List (BitVec 8)

/-- DESIGN CHOICE (log 11). Mbastra's signature over identity key, factory address and part. -/
opaque vendorSign : List (BitVec 8) → List (BitVec 8)

/-- DESIGN CHOICE (log 11). ECDSA verification: key, message, signature. -/
opaque verifySig : List (BitVec 8) → List (BitVec 8) → List (BitVec 8) → Bool

/-- DESIGN CHOICE (log 11). The 88 key bytes that ECDH and HKDF give: draw number, host ephemeral key, salt, info. -/
opaque deriveKeys : Nat → List (BitVec 8) → List (BitVec 8) → List (BitVec 8) → List (BitVec 8)

/-- DESIGN CHOICE (log 11). The fused vendor key hash (R409, R426). -/
opaque vendorKeyHash : List (BitVec 8)

/-- DESIGN CHOICE (log 11). AES-256-GCM under the fused patch key: initialisation vector, associated data, ciphertext, tag; none when the tag fails. -/
opaque patchDecrypt : List (BitVec 8) → List (BitVec 8) → List (BitVec 8) → List (BitVec 8) → Option (List (BitVec 8))

/-- DESIGN CHOICE (log 12). Bank of an HBM piece: die, piece number. -/
opaque hbmBank : Nat → Nat → Nat

/-- DESIGN CHOICE (log 12). Row of an HBM piece: die, piece number. -/
opaque hbmRow : Nat → Nat → Nat

/-- DESIGN CHOICE (log 74). A staged byte that neither its piece nor the parity gives any more, by its place in space 0x05. -/
opaque lostByte : Nat → BitVec 8

/-- DESIGN CHOICE (log 77). The fields of the IPv4 headers that R372 does not give: type of service, identification, flags and offset, time to live. -/
opaque ip4Fields : BitVec 48

/-- DESIGN CHOICE (log 77). The fields of the IPv6 headers that R372 does not give: traffic class and flow label, hop limit. -/
opaque ip6Fields : BitVec 36

/-- DESIGN CHOICE (log 3). A byte of the Pilot's space that the spec does not describe. -/
opaque reservedByte : Nat → BitVec 8

end Sys2Proof.Config
end

