-- ==== Sys2Proof/Machine/Map.lean ====
section
/-! DEFINITION. Sparse data by key in one canonical form: keys strictly rising, no entry equal to what an unlisted key reads as. -/

namespace Sys2Proof.Machine

/-- The entry at a key, if one is listed. -/
def mfind {α : Type} : SMap α → Nat → Option α
  | [], _ => none
  | (k, v) :: r, key => if k = key then some v else if key < k then none else mfind r key

/-- A map with an entry listed at its place. -/
def minsert {α : Type} (key : Nat) (v : α) : SMap α → SMap α
  | [] => [(key, v)]
  | (k, x) :: r => if k = key then (key, v) :: r else if key < k then (key, v) :: (k, x) :: r else (k, x) :: minsert key v r

/-- A map without the entry at a key. -/
def mremove {α : Type} (key : Nat) : SMap α → SMap α
  | [] => []
  | (k, x) :: r => if k = key then r else if key < k then (k, x) :: r else (k, x) :: mremove key r

/-- What a key reads as, d where it is not listed. -/
def mget {α : Type} (d : α) (m : SMap α) (key : Nat) : α := (mfind m key).getD d

/-- A write at a key; writing what an unlisted key reads as removes the entry. -/
def mset {α : Type} [DecidableEq α] (d : α) (m : SMap α) (key : Nat) (v : α) : SMap α :=
  if v = d then mremove key m else minsert key v m

/-- A change of the value at a key. -/
def mmod {α : Type} [DecidableEq α] (d : α) (m : SMap α) (key : Nat) (f : α → α) : SMap α :=
  mset d m key (f (mget d m key))

/-- The canonical form: keys strictly rising from lo, no default entry. -/
def mwfFrom {α : Type} [DecidableEq α] (d : Nat → α) : Nat → SMap α → Bool
  | _, [] => true
  | lo, (k, v) :: r => decide (lo ≤ k) && decide (v ≠ d k) && mwfFrom d (k + 1) r

/-- The canonical form of a map whose unlisted keys read as d. -/
def mwf {α : Type} [DecidableEq α] (d : α) (m : SMap α) : Bool := mwfFrom (fun _ => d) 0 m

/-- Keys strictly rising from lo. -/
def mrise {α : Type} : Nat → SMap α → Bool
  | _, [] => true
  | lo, (k, _) :: r => decide (lo ≤ k) && mrise (k + 1) r

/-- A map without the entries in a range of keys. -/
def mdrop {α : Type} (p : Nat → Bool) (m : SMap α) : SMap α := m.filter (fun e => !p e.1)

/-- The entries whose key satisfies p. -/
def mpick {α : Type} (p : Nat → Bool) (m : SMap α) : List (Nat × α) := m.filter (fun e => p e.1)

/-- n bytes from an address on; unlisted bytes read 0. -/
def bytesAt (m : Mem) (a n : Nat) : List Byte := (List.range n).map (fun i => mget 0 m (a + i))

/-- Bytes written from an address on. -/
def putBytes (m : Mem) (a : Nat) : List Byte → Mem
  | [] => m
  | b :: r => putBytes (mset 0 m a b) (a + 1) r

/-- The big-endian number of n bytes from an address on. -/
def natAt (m : Mem) (a n : Nat) : Nat := (bytesAt m a n).foldl (fun x b => x * 256 + b.toNat) 0

/-- The numbers of a list with one removed (first occurrence). -/
def lrem {α : Type} [DecidableEq α] (x : α) : List α → List α
  | [] => []
  | y :: r => if y = x then r else y :: lrem x r

/-- A number added to a list without repeats. -/
def ladd {α : Type} [DecidableEq α] (x : α) (l : List α) : List α := if x ∈ l then l else l ++ [x]

end Sys2Proof.Machine
end

