-- ==== Sys2Proof/Machine/Bits.lean ====
section
/-! DEFINITION. Bit fields, byte order and check codes (spec/00_scope.md R5, spec/02 R39, spec/05 R135). -/

namespace Sys2Proof.Machine

/-- The value of bits [hi:lo] of a number (R5). -/
def bitsOf (v hi lo : Nat) : Nat := (v / 2 ^ lo) % 2 ^ (hi + 1 - lo)

/-- The value of bits [hi:lo] of a word (R5). -/
def fld (w : Word) (hi lo : Nat) : Nat := bitsOf w.toNat hi lo

/-- Bit n of a word. -/
def bit (w : Word) (n : Nat) : Bool := w.getLsbD n

/-- A number with bits [hi:lo] replaced by the low bits of v. -/
def setBitsOf (x hi lo v : Nat) : Nat :=
  x - bitsOf x hi lo * 2 ^ lo + (v % 2 ^ (hi + 1 - lo)) * 2 ^ lo

/-- A word with bits [hi:lo] replaced by the low bits of v. -/
def setFld (w : Word) (hi lo v : Nat) : Word := BitVec.ofNat 32 (setBitsOf w.toNat hi lo v)

/-- One bit as a number. -/
def b2n (b : Bool) : Nat := if b then 1 else 0

/-- A word made of parts: each part is its low bit number and its value. -/
def packWord (l : List (Nat × Nat)) : Word := BitVec.ofNat 32 (l.foldl (fun a p => a + p.2 * 2 ^ p.1) 0)

/-- The number that bytes spell, most significant byte first (R5). -/
def beNat (l : List Byte) : Nat := l.foldl (fun a b => a * 256 + b.toNat) 0

/-- The n bytes of a number, most significant byte first (R5). -/
def beBytes : Nat → Nat → List Byte
  | 0, _ => []
  | n + 1, v => BitVec.ofNat 8 (v / 256 ^ n) :: beBytes n v

/-- A list brought to length n by zeros at its end. -/
def padTo (n : Nat) (l : List Byte) : List Byte := (l ++ List.replicate (n - l.length) 0).take n

/-- The mask of the low n bits as a number. -/
def ones (n : Nat) : Nat := 2 ^ n - 1

/-- a is at least b, compared modulo 2^32 within a half range (R53, R381). -/
def geHalf (a b : Nat) : Bool := (a + 2 ^ 32 - b % 2 ^ 32) % 2 ^ 32 < 2 ^ 31

/-- Distance from b up to a modulo 2^32. -/
def sub32 (a b : Nat) : Nat := (a % 2 ^ 32 + 2 ^ 32 - b % 2 ^ 32) % 2 ^ 32

/-- The bits of a byte, most significant first. -/
def byteBits (b : Byte) : List Bool := (List.range 8).map (fun i => b.getLsbD (7 - i))

/-- The bits of a byte, least significant first. -/
def byteBitsLsb (b : Byte) : List Bool := (List.range 8).map (fun i => b.getLsbD i)

/-- One bit of a CRC that shifts left: width, polynomial without its top term. -/
def crcStepL (w poly crc : Nat) (b : Bool) : Nat :=
  let top := (crc / 2 ^ (w - 1)) % 2 = 1
  let sh := (crc * 2) % 2 ^ w
  if top != b then Nat.xor sh poly else sh

/-- One bit of a reflected CRC: reflected polynomial. -/
def crcStepR (poly crc : Nat) (b : Bool) : Nat :=
  let low := crc % 2 = 1
  if low != b then Nat.xor (crc / 2) poly else crc / 2

/-- CRC-8 of R39 over bits in transmission order. -/
def crc8 (bits : List Bool) : Nat := bits.foldl (crcStepL 8 0x07) 0

/-- A reflected CRC-32 register fed with bytes. -/
def crc32Feed (poly init : Nat) (l : List Byte) : Nat :=
  l.foldl (fun c b => (byteBitsLsb b).foldl (crcStepR poly) c) init

/-- CRC-32C register fed with bytes, reflected polynomial 0x82F63B78 (R135). -/
def crc32cFeed (init : Nat) (l : List Byte) : Nat := crc32Feed 0x82F63B78 init l

/-- The Ethernet FCS of a frame's bytes: CRC-32, reflected polynomial 0xEDB88320 (R489). -/
def fcsOf (l : List Byte) : Nat := Nat.xor (crc32Feed 0xEDB88320 0xFFFFFFFF l) 0xFFFFFFFF

/-- Number of true entries. -/
def countP' {α : Type} (p : α → Bool) (l : List α) : Nat := (l.filter p).length

/-- The members of a list without repeats of the die numbers below n that satisfy p. -/
def diesWhere (n : Nat) (p : Nat → Bool) : List Nat := (List.range n).filter p

/-- A bit mask of numbers. -/
def maskOf (l : List Nat) : Nat := l.foldl (fun a n => Nat.lor a (2 ^ n)) 0

/-- Bit n of a number. -/
def nbit (v n : Nat) : Bool := v.testBit n

/-- The numbers whose bits are set, below n. -/
def maskList (n v : Nat) : List Nat := (List.range n).filter (fun i => v.testBit i)

/-- The entry of a list at an index, with a value for an index past its end. -/
def nth {α : Type} (l : List α) (i : Nat) (d : α) : α := l.getD i d

/-- A list with the entry at an index replaced. -/
def setNth {α : Type} (l : List α) (i : Nat) (v : α) : List α := l.set i v

end Sys2Proof.Machine
end

