-- ==== Sys2Proof/Machine/RegTable.lean ====
section
/-! DEFINITION. Every register of the spec: block, offset formula, reset domain, fields with access code and reset value (R6, R10, R525 to R528). -/

namespace Sys2Proof.Machine

/-- Field access codes of R6. -/
inductive Acc | rw | ro | wo | rc | rwp
  deriving DecidableEq, Repr

/-- Reset domains of R10. -/
inductive Dom | cold | warm | thread
  deriving DecidableEq, Repr

/-- A field: bits [hi:lo], access code, reset value. -/
structure Fld where
  hi : Nat
  lo : Nat
  acc : Acc
  rst : Nat
  deriving DecidableEq, Repr

/-- A register: in the package space (glob) or in the die blocks; base address or die offset; strides and counts; domain; fields. -/
structure RegDef where
  glob : Bool
  base : Nat
  dims : List (Nat × Nat)
  dom : Dom
  fields : List Fld
  deriving DecidableEq, Repr

/-- The registers by name; arrays and split layouts have one name each. -/
inductive Reg
  | PHI_STATE | PHI_CTRL | PHI_XLEN | PHI_TICK | PHI_HOLD | PHI_TOL | PHI_SELF_STEP | PHI_SELF_START | PHI_NOW_XING | PHI_NOW_STEP | PHI_TICKS_LO
  | PHI_TICKS_HI | PHI_PERIOD | PHI_IN | PHI_ERR | PHI_JUMP | PHI_SKEW_CNT | CTE_STATE | CTE_SWAP | CTE_SWAP_XING | CTE_LAST_SWAP | CTE_GUARD
  | CTE_PF | CTE_SWAP_CNT | CTE_SLICE_STAT | CTE_PF_AREA | CTE_PF_USE | CTE_PF_LATE_CNT | CTE_PF_WAIT_CNT | CTE_PORT_STAT | PRS_PORT_CFG | PRS_QDEPTH
  | PRS_BUSY | PRS_MAX_SEEN | PRS_XREGION | PRS_FRAMES | PRS_CYCLES | PRS_FAIL | PRS_ERR | CLS_DEF_ACT | CLS_DEF_ARG | CLS_FRAG_CFG | CLS_FRAG_STAT
  | CLS_FKEY_LO | CLS_FKEY_HI | CLS_DEFAULT | CLS_FRAG_EXPIRED | CLS_FRAG_FULL | CLS_FRAG_HIT | CLS_FLOW_FALLBACK | CLS_ROB_WAIT | FWT_STATE
  | FWT_CFG | FWT_HASH_SEED | FWT_L2_AGE | FWT_FLOW_AGE | FWT_MOVE | FWT_PIN | FWT_PORT_CFG | FWT_PORT_FLOOD | FWT_L2_USED | FWT_FLOW_USED | FWT_CTX
  | FWT_LPM_USED | FWT_LEARN_FULL | FWT_FLOW_FULL | FWT_LQ_DROP | FWT_LEARNS | FWT_MOVES | FWT_MOVE_REFUSED | FWT_STATIC_CONFLICT
  | FWT_NOTICE_REFUSED | FWT_AGED_L2 | FWT_AGED_FLOW | FWT_FCACHE_MISS | FWT_LPM_MOVES | FWT_LPM_DUP_FIXED | FWT_FLOOD_PORTS | FWT_FLOOD_CFG
  | BPM_STATE | BPM_POOL_BASE | BPM_POOL_CNT | BPM_POOL_FREE | BPM_ALLOC_FAIL | BPM_QUAR_FAIL | BPM_BADHANDLE | BPM_DOUBLE_FREE | BPM_SHARE_FULL
  | BPM_ORPHAN_CLOSE | BPM_REBUILDS | BPM_SHARE_USED | BPM_HOST_FREE_LO | BPM_HOST_FREE_HI | QBA_ALPHA | QBA_PORT_CFG | QBA_PORT_STAT | QBA_TWIN_FAIL
  | QBA_FREE | QBA_KEPT | QBA_STAGED | QBA_DWELL_STAGED | QBA_DWELL_REFUSED | QBA_STAGE_REFUSED | QBA_UNMIRRORED | QBA_QSEL | QBA_QDATA | SSC_STATE
  | SSC_CFG | SSC_SEG_FLUSH | SSC_SLOTS | SSC_PORT_TGT | SSC_REF | SSC_PAGE | SSC_SEG_FREE | SSC_SEG_TOTAL | SSC_STACK | SSC_SPARE | SSC_REB_CUR
  | SSC_REB_DONE | SSC_LATE | SSC_SEG_WRITTEN | SSC_SEG_PARTIAL | SSC_SLOT_EVICT | SSC_NOFREE | SSC_RAW_WAIT | SSC_REF_POSTPONED | SSC_REF_FORCED
  | SSC_ECC_CORR | SSC_PARITY_READS | SSC_SEG_LOST | SSC_FRAMES_LOST | SSC_OPEN_LOST | SSC_AGED_FREE | RSQ_STATE | RSQ_CFG | RSQ_ROB | RSQ_EDIT_BUSY
  | RSQ_RELEASED | RSQ_RETIRED | RSQ_TOHOST | RSQ_GAP_SKIP | RSQ_REORDER_RISK | RSQ_LATE_DROP | RSQ_HANDOFF | RSQ_HANDOFF_RETRY | RSQ_FLOOD_COPIES
  | RSQ_EDIT_ERR | RSQ_DEST_ERR | RSQ_EDIT_PROG | RSQ_PORT_DATA | CRA_STATE | CRA_CFG | CRA_ENTRY | CRA_MAX_SLOTS | CRA_HELPER_TMO | CRA_PS_CHECK
  | CRA_PS_CRC | CRA_SUPER | CRA_THREAD_EN | CRA_THREAD_CTL | CRA_DBG_SEL | CRA_DBG_LO | CRA_DBG_HI | CRA_FAULT_RETIRE | CRA_RESTARTS
  | CRA_HELPER_TMO_CNT | CRA_ESCALATED | CRA_PS_ECC_CORR | CRA_PS_REPAIR | CRA_BP_HITS | CRA_FAULT_OVER | CRA_FAULTS | CRA_FAULT_Q | CRA_SLOTS
  | CRA_BP | CRA_THREAD_STAT | TDX_STATE | TDX_CFG | TDX_RL_CFG | TDX_RL_DEPTH | TDX_CORE_LISTS_LO | TDX_CORE_LISTS_HI | TDX_DL_LIMIT | TDX_DL_DEPTH
  | TDX_DL_NEXT | TDX_DELIVERED | TDX_AFF_HIT | TDX_AFF_FALLBACK | TDX_POSTED | TDX_REMOTE_IN | TDX_RL_FULL | TDX_DL_FULL | TDX_DL_LATE
  | TDX_INJECTED | TDX_RESTART_RETIRE | TDX_RESTART_DISCARD | TDX_TRC_LOST | TDX_TRC_CTL | TDX_TRC_FILT | TDX_TRC_FLOW | TDX_TRC_FLOWM
  | TDX_TRC_CORES | TDX_TRC_TRIG | TDX_TRC_WR | TDX_TRC_SPILL | TDX_TRC_MARK | SYU_STATE | SYU_CFG | SYU_WATCH | SYU_LK_FORCE | SYU_EV_HSIG
  | SYU_CH_HPUT | SYU_CH_HPUT_W | SYU_INSP_SEL | SYU_INSP_DATA | SYU_LK_CONTEND | SYU_LK_ABANDON | SYU_LK_FORCED | SYU_EV_SAT | SYU_CH_FULL
  | SYU_CH_DISCARD | SYU_STRANDED | SYU_EV_EXT | SYU_CH_CFG | GWE_STATE | GWE_PORT_CFG | GWE_ETYPE | GWE_ENCAP | GWE_IP4 | GWE_IP6 | GWE_WDOG
  | GWE_EVT_CFG | GWE_EVT_NEXT | GWE_EVT_PEND | GWE_EXC_CFG | GWE_HOST_MAC_LO | GWE_HOST_MAC_HI | GWE_RX_FRAMES | GWE_TX_FRAMES | GWE_DUP
  | GWE_BADSEQ | GWE_AUTH_FAIL | GWE_MACSEC_DROP | GWE_MALFORMED | GWE_EVT_RETX | GWE_EVT_LOST | GWE_EXC_SENT | GWE_EXC_DROP | GWE_STANDBY_DROP
  | PLT_STATE | PLT_ROM | PLT_START | PLT_HANDOVERS | PLT_DIE_STAT | MCS_CTRL | MCS_PATCH_LOG_VER | MCS_PATCH_LOG_INFO | MCS_PATCH_CNT | MCS_DIGEST
  | MCS_ECC1 | MCS_ECC2 | MCS_UNCORR | MCS_REPAIR | MCS_LAST_ERR | GLB_MODE | GLB_RESET_CAUSE | GLB_CTRL | GLB_INGRESS | GLB_OCC_INFLIGHT
  | GLB_OCC_QUAY | GLB_OCC_STAGED | GLB_WARM_LOST | GLB_CLOSED_DROP | DIE_PRESENT | DIE_HEALTH | GLB_DIE_CTL | GLB_DIE_CAUSE | ICU_STATE | ICU_SCRUB
  | ICU_LIMIT | ICU_CHAN_UE | ICU_LAST_UE | ICU_SRAM_CORR | ICU_SRAM_UNCORR | ICU_FRAME_DROP | ICU_CTRL_LOST | ICU_REPAIRED | ICU_TABLE_RESTORE
  | ICU_SCRUB_PASSES | ICU_HBM_PASSES | PFB_STATE | PFB_LINK_STAT | PFB_FLIT_RETRY | PFB_TAKEOVER_DROP | PFB_FENCE_RX | PFB_HANDOFF_DISCARD
  | PFB_ROUTE_DROP | PFB_TWIN_RECOVERED | PFB_REINJECT | PFB_TASKS_REHOMED | LPX_STATE | LPX_PORT_CFG | LPX_LINK_CFG | LPX_PORT_STAT | LPX_STEER_LO
  | LPX_STEER_HI | LPX_RX_FRAMES | LPX_RX_KB | LPX_RX_ERR | LPX_RX_CODE | LPX_RX_OVERSIZE | LPX_RX_RUNT | LPX_RX_FCS | LPX_RX_CTRL | LPX_TX_FRAMES
  | LPX_TX_KB | LPX_FEC_CORR | LPX_FEC_UNCORR | LPX_LINK_DOWNS | GLB_CLK_STAT | GLB_THERM_CFG | GLB_THERM_STAT | GLB_TEMP | GLB_PART | GLB_FMAC_LO
  | GLB_FMAC_HI | GLB_SPACE_VER | DIE_ID
  deriving DecidableEq, Repr

/-- The definition of each register (the register tables of the chapters). -/
def Reg.info : Reg → RegDef
  -- 02_phase_timebase.md R61
  | .PHI_STATE => ⟨true, 0x30000, [], .cold, [⟨31, 16, .ro, 0x0⟩, ⟨7, 7, .ro, 0x0⟩, ⟨6, 6, .ro, 0x0⟩, ⟨5, 4, .ro, 0x0⟩, ⟨2, 0, .ro, 0x0⟩]⟩
  | .PHI_CTRL => ⟨true, 0x30004, [], .cold, [⟨31, 16, .wo, 0x0⟩, ⟨5, 5, .rwp, 0x0⟩, ⟨4, 4, .rwp, 0x0⟩, ⟨3, 3, .rwp, 0x0⟩, ⟨1, 0, .rwp, 0x0⟩]⟩
  | .PHI_XLEN => ⟨true, 0x30008, [], .cold, [⟨24, 0, .rwp, 0x9c40⟩]⟩
  | .PHI_TICK => ⟨true, 0x3000c, [], .cold, [⟨4, 0, .rwp, 0xa⟩]⟩
  | .PHI_HOLD => ⟨true, 0x30010, [], .cold, [⟨19, 16, .rw, 0x2⟩, ⟨15, 0, .rw, 0x4⟩]⟩
  | .PHI_TOL => ⟨true, 0x30014, [], .cold, [⟨15, 0, .rw, 0xc8⟩]⟩
  | .PHI_SELF_STEP => ⟨true, 0x30018, [], .cold, [⟨15, 0, .rwp, 0x1900⟩]⟩
  | .PHI_SELF_START => ⟨true, 0x3001c, [], .cold, [⟨31, 0, .rwp, 0x0⟩]⟩
  | .PHI_NOW_XING => ⟨true, 0x30020, [], .cold, [⟨31, 0, .ro, 0x0⟩]⟩
  | .PHI_NOW_STEP => ⟨true, 0x30024, [], .cold, [⟨24, 0, .ro, 0x0⟩]⟩
  | .PHI_TICKS_LO => ⟨true, 0x30028, [], .cold, [⟨31, 0, .ro, 0x0⟩]⟩
  | .PHI_TICKS_HI => ⟨true, 0x3002c, [], .cold, [⟨31, 0, .ro, 0x0⟩]⟩
  | .PHI_PERIOD => ⟨true, 0x30030, [], .cold, [⟨31, 0, .ro, 0x0⟩]⟩
  | .PHI_IN => ⟨true, 0x30034, [(4, 2)], .cold, [⟨31, 24, .ro, 0x0⟩, ⟨4, 4, .ro, 0x0⟩, ⟨3, 3, .ro, 0x0⟩, ⟨2, 2, .ro, 0x0⟩, ⟨1, 1, .ro, 0x0⟩, ⟨0, 0, .ro, 0x0⟩]⟩
  | .PHI_ERR => ⟨true, 0x3003c, [(4, 2)], .warm, [⟨31, 16, .rc, 0x0⟩, ⟨15, 0, .rc, 0x0⟩]⟩
  | .PHI_JUMP => ⟨true, 0x30044, [], .warm, [⟨31, 0, .ro, 0x0⟩]⟩
  | .PHI_SKEW_CNT => ⟨true, 0x30048, [], .warm, [⟨31, 24, .ro, 0x0⟩, ⟨23, 0, .rc, 0x0⟩]⟩
  -- 03_crossing_timetable.md R101
  | .CTE_STATE => ⟨true, 0x40000, [], .cold, [⟨31, 16, .ro, 0x0⟩, ⟨1, 1, .ro, 0x0⟩, ⟨0, 0, .ro, 0x0⟩]⟩
  | .CTE_SWAP => ⟨true, 0x40004, [], .cold, [⟨31, 16, .wo, 0x0⟩, ⟨2, 2, .wo, 0x0⟩, ⟨1, 1, .wo, 0x0⟩, ⟨0, 0, .wo, 0x0⟩]⟩
  | .CTE_SWAP_XING => ⟨true, 0x40008, [], .cold, [⟨31, 0, .rw, 0x0⟩]⟩
  | .CTE_LAST_SWAP => ⟨true, 0x4000c, [], .cold, [⟨31, 0, .ro, 0x0⟩]⟩
  | .CTE_GUARD => ⟨true, 0x40010, [], .cold, [⟨9, 0, .rw, 0x10⟩]⟩
  | .CTE_PF => ⟨true, 0x40014, [], .cold, [⟨26, 24, .rw, 0x2⟩, ⟨23, 0, .rw, 0x400⟩]⟩
  | .CTE_SWAP_CNT => ⟨true, 0x40018, [], .warm, [⟨31, 16, .rc, 0x0⟩, ⟨15, 0, .rc, 0x0⟩]⟩
  | .CTE_SLICE_STAT => ⟨false, 0xc0000, [], .warm, [⟨31, 31, .ro, 0x0⟩, ⟨10, 0, .ro, 0x0⟩]⟩
  | .CTE_PF_AREA => ⟨false, 0xc0004, [], .cold, [⟨6, 0, .rwp, 0x20⟩]⟩
  | .CTE_PF_USE => ⟨false, 0xc0008, [], .warm, [⟨22, 0, .ro, 0x0⟩]⟩
  | .CTE_PF_LATE_CNT => ⟨false, 0xc000c, [], .warm, [⟨31, 0, .rc, 0x0⟩]⟩
  | .CTE_PF_WAIT_CNT => ⟨false, 0xc0010, [], .warm, [⟨31, 0, .rc, 0x0⟩]⟩
  | .CTE_PORT_STAT => ⟨false, 0xc0020, [(4, 4)], .warm, [⟨31, 31, .ro, 0x0⟩, ⟨26, 16, .ro, 0x0⟩, ⟨15, 0, .ro, 0x0⟩]⟩
  -- 04_parse_classify.md R132
  | .PRS_PORT_CFG => ⟨false, 0x20000, [(4, 4)], .cold, [⟨29, 16, .rwp, 0x0⟩, ⟨9, 0, .rw, 0x100⟩]⟩
  | .PRS_QDEPTH => ⟨false, 0x20010, [], .warm, [⟨31, 16, .ro, 0x0⟩, ⟨15, 0, .ro, 0x0⟩]⟩
  | .PRS_BUSY => ⟨false, 0x20014, [], .warm, [⟨15, 0, .ro, 0x0⟩]⟩
  | .PRS_MAX_SEEN => ⟨false, 0x20018, [], .warm, [⟨15, 0, .rc, 0x0⟩]⟩
  | .PRS_XREGION => ⟨false, 0x2001c, [], .warm, [⟨31, 0, .rc, 0x0⟩]⟩
  | .PRS_FRAMES => ⟨false, 0x20020, [(4, 4)], .warm, [⟨31, 0, .rc, 0x0⟩]⟩
  | .PRS_CYCLES => ⟨false, 0x20030, [(4, 4)], .warm, [⟨31, 0, .rc, 0x0⟩]⟩
  | .PRS_FAIL => ⟨false, 0x20040, [(4, 4)], .warm, [⟨31, 0, .rc, 0x0⟩]⟩
  | .PRS_ERR => ⟨false, 0x20050, [], .warm, [⟨31, 24, .rc, 0x0⟩, ⟨23, 16, .rc, 0x0⟩, ⟨15, 8, .rc, 0x0⟩, ⟨7, 0, .rc, 0x0⟩]⟩
  -- 04_parse_classify.md R133
  | .CLS_DEF_ACT => ⟨false, 0x30000, [(8, 4)], .cold, [⟨31, 29, .rw, 0x0⟩, ⟨28, 23, .rw, 0x0⟩, ⟨17, 0, .rw, 0x0⟩]⟩
  | .CLS_DEF_ARG => ⟨false, 0x30004, [(8, 4)], .cold, [⟨30, 16, .rw, 0x0⟩, ⟨15, 8, .rw, 0x0⟩]⟩
  | .CLS_FRAG_CFG => ⟨false, 0x30020, [], .cold, [⟨31, 16, .rw, 0x400⟩, ⟨15, 0, .rw, 0x10⟩]⟩
  | .CLS_FRAG_STAT => ⟨false, 0x30024, [], .warm, [⟨28, 16, .ro, 0x0⟩, ⟨12, 0, .ro, 0x0⟩]⟩
  | .CLS_FKEY_LO => ⟨false, 0x30100, [(8, 16)], .cold, [⟨31, 0, .rwp, 0x0⟩]⟩
  | .CLS_FKEY_HI => ⟨false, 0x30104, [(8, 16)], .cold, [⟨31, 0, .rwp, 0x0⟩]⟩
  | .CLS_DEFAULT => ⟨false, 0x30200, [(32, 4), (4, 5)], .warm, [⟨31, 0, .rc, 0x0⟩]⟩
  | .CLS_FRAG_EXPIRED => ⟨false, 0x30300, [], .warm, [⟨31, 0, .rc, 0x0⟩]⟩
  | .CLS_FRAG_FULL => ⟨false, 0x30304, [], .warm, [⟨31, 0, .rc, 0x0⟩]⟩
  | .CLS_FRAG_HIT => ⟨false, 0x30308, [], .warm, [⟨31, 0, .rc, 0x0⟩]⟩
  | .CLS_FLOW_FALLBACK => ⟨false, 0x30310, [(4, 4)], .warm, [⟨31, 0, .rc, 0x0⟩]⟩
  | .CLS_ROB_WAIT => ⟨false, 0x30320, [], .warm, [⟨31, 0, .rc, 0x0⟩]⟩
  -- 05_forwarding_tables.md R167
  | .FWT_STATE => ⟨false, 0x40000, [], .warm, [⟨31, 16, .ro, 0x0⟩, ⟨0, 0, .ro, 0x0⟩]⟩
  | .FWT_CFG => ⟨false, 0x40004, [], .cold, [⟨31, 31, .rw, 0x1⟩, ⟨30, 30, .rw, 0x1⟩, ⟨15, 0, .rwp, 0x400⟩]⟩
  | .FWT_HASH_SEED => ⟨false, 0x40008, [], .cold, [⟨31, 0, .rwp, 0xffffffff⟩]⟩
  | .FWT_L2_AGE => ⟨false, 0x4000c, [], .cold, [⟨31, 0, .rw, 0x2000000⟩]⟩
  | .FWT_FLOW_AGE => ⟨false, 0x40010, [], .cold, [⟨31, 0, .rw, 0x100000⟩]⟩
  | .FWT_MOVE => ⟨false, 0x40014, [], .cold, [⟨31, 24, .rw, 0x4⟩, ⟨23, 0, .rw, 0x4000⟩]⟩
  | .FWT_PIN => ⟨false, 0x40018, [], .cold, [⟨31, 0, .rw, 0x40000⟩]⟩
  | .FWT_PORT_CFG => ⟨false, 0x40020, [(4, 4)], .cold, [⟨31, 31, .rw, 0x1⟩, ⟨23, 0, .rw, 0x0⟩]⟩
  | .FWT_PORT_FLOOD => ⟨false, 0x40030, [(4, 4)], .cold, [⟨9, 0, .rw, 0x0⟩]⟩
  | .FWT_L2_USED => ⟨false, 0x40040, [], .warm, [⟨31, 16, .ro, 0x0⟩, ⟨15, 0, .ro, 0x0⟩]⟩
  | .FWT_FLOW_USED => ⟨false, 0x40044, [], .warm, [⟨17, 0, .ro, 0x0⟩]⟩
  | .FWT_CTX => ⟨false, 0x40048, [], .warm, [⟨31, 16, .ro, 0x0⟩, ⟨15, 0, .ro, 0x0⟩]⟩
  | .FWT_LPM_USED => ⟨false, 0x4004c, [], .cold, [⟨16, 0, .ro, 0x0⟩]⟩
  | .FWT_LEARN_FULL => ⟨false, 0x40100, [], .warm, [⟨31, 0, .rc, 0x0⟩]⟩
  | .FWT_FLOW_FULL => ⟨false, 0x40104, [], .warm, [⟨31, 0, .rc, 0x0⟩]⟩
  | .FWT_LQ_DROP => ⟨false, 0x40108, [], .warm, [⟨31, 0, .rc, 0x0⟩]⟩
  | .FWT_LEARNS => ⟨false, 0x4010c, [], .warm, [⟨31, 0, .rc, 0x0⟩]⟩
  | .FWT_MOVES => ⟨false, 0x40110, [], .warm, [⟨31, 0, .rc, 0x0⟩]⟩
  | .FWT_MOVE_REFUSED => ⟨false, 0x40114, [], .warm, [⟨31, 0, .rc, 0x0⟩]⟩
  | .FWT_STATIC_CONFLICT => ⟨false, 0x40118, [], .warm, [⟨31, 0, .rc, 0x0⟩]⟩
  | .FWT_NOTICE_REFUSED => ⟨false, 0x4011c, [], .warm, [⟨31, 0, .rc, 0x0⟩]⟩
  | .FWT_AGED_L2 => ⟨false, 0x40120, [], .warm, [⟨31, 0, .rc, 0x0⟩]⟩
  | .FWT_AGED_FLOW => ⟨false, 0x40124, [], .warm, [⟨31, 0, .rc, 0x0⟩]⟩
  | .FWT_FCACHE_MISS => ⟨false, 0x40128, [], .warm, [⟨31, 0, .rc, 0x0⟩]⟩
  | .FWT_LPM_MOVES => ⟨false, 0x4012c, [], .warm, [⟨31, 0, .rc, 0x0⟩]⟩
  | .FWT_LPM_DUP_FIXED => ⟨false, 0x40130, [], .warm, [⟨31, 0, .rc, 0x0⟩]⟩
  | .FWT_FLOOD_PORTS => ⟨false, 0x48000, [(8, 4096)], .cold, [⟨31, 0, .rw, 0x0⟩]⟩
  | .FWT_FLOOD_CFG => ⟨false, 0x48004, [(8, 4096)], .cold, [⟨31, 31, .rw, 0x0⟩, ⟨4, 0, .rw, 0x0⟩]⟩
  -- 06_buffers_quay.md R195
  | .BPM_STATE => ⟨false, 0x90000, [], .warm, [⟨31, 16, .ro, 0x0⟩, ⟨7, 0, .ro, 0x0⟩]⟩
  | .BPM_POOL_BASE => ⟨false, 0x90010, [(8, 8)], .cold, [⟨17, 0, .rwp, 0x0⟩]⟩
  | .BPM_POOL_CNT => ⟨false, 0x90014, [(8, 8)], .cold, [⟨15, 0, .rwp, 0x0⟩]⟩
  | .BPM_POOL_FREE => ⟨false, 0x90050, [(4, 8)], .warm, [⟨31, 16, .rc, 0x0⟩, ⟨15, 0, .ro, 0x0⟩]⟩
  | .BPM_ALLOC_FAIL => ⟨false, 0x90070, [(4, 4)], .warm, [⟨31, 0, .rc, 0x0⟩]⟩
  | .BPM_QUAR_FAIL => ⟨false, 0x90080, [], .warm, [⟨31, 0, .rc, 0x0⟩]⟩
  | .BPM_BADHANDLE => ⟨false, 0x90084, [], .warm, [⟨31, 0, .rc, 0x0⟩]⟩
  | .BPM_DOUBLE_FREE => ⟨false, 0x90088, [], .warm, [⟨31, 0, .rc, 0x0⟩]⟩
  | .BPM_SHARE_FULL => ⟨false, 0x9008c, [], .warm, [⟨31, 0, .rc, 0x0⟩]⟩
  | .BPM_ORPHAN_CLOSE => ⟨false, 0x90090, [], .warm, [⟨31, 0, .rc, 0x0⟩]⟩
  | .BPM_REBUILDS => ⟨false, 0x90094, [], .warm, [⟨31, 0, .rc, 0x0⟩]⟩
  | .BPM_SHARE_USED => ⟨false, 0x900a0, [], .warm, [⟨12, 0, .ro, 0x0⟩]⟩
  | .BPM_HOST_FREE_LO => ⟨false, 0x900b0, [], .warm, [⟨31, 0, .wo, 0x0⟩]⟩
  | .BPM_HOST_FREE_HI => ⟨false, 0x900b4, [], .warm, [⟨31, 0, .wo, 0x0⟩]⟩
  -- 06_buffers_quay.md R196
  | .QBA_ALPHA => ⟨false, 0xa0000, [(4, 4)], .cold, [⟨31, 28, .rw, 0x8⟩, ⟨27, 24, .rw, 0x8⟩, ⟨23, 20, .rw, 0x8⟩, ⟨19, 16, .rw, 0x8⟩, ⟨15, 12, .rw, 0x8⟩, ⟨11, 8, .rw, 0x8⟩, ⟨7, 4, .rw, 0x8⟩, ⟨3, 0, .rw, 0x8⟩]⟩
  | .QBA_PORT_CFG => ⟨false, 0xa0010, [(4, 4)], .cold, [⟨0, 0, .rw, 0x0⟩]⟩
  | .QBA_PORT_STAT => ⟨false, 0xa0020, [(4, 4)], .warm, [⟨31, 31, .ro, 0x0⟩]⟩
  | .QBA_TWIN_FAIL => ⟨false, 0xa0030, [(4, 4)], .warm, [⟨31, 0, .rc, 0x0⟩]⟩
  | .QBA_FREE => ⟨false, 0xa0040, [], .warm, [⟨24, 0, .ro, 0x0⟩]⟩
  | .QBA_KEPT => ⟨false, 0xa0050, [], .warm, [⟨31, 0, .rc, 0x0⟩]⟩
  | .QBA_STAGED => ⟨false, 0xa0054, [], .warm, [⟨31, 0, .rc, 0x0⟩]⟩
  | .QBA_DWELL_STAGED => ⟨false, 0xa0058, [], .warm, [⟨31, 0, .rc, 0x0⟩]⟩
  | .QBA_DWELL_REFUSED => ⟨false, 0xa005c, [], .warm, [⟨31, 0, .rc, 0x0⟩]⟩
  | .QBA_STAGE_REFUSED => ⟨false, 0xa0060, [], .warm, [⟨31, 0, .rc, 0x0⟩]⟩
  | .QBA_UNMIRRORED => ⟨false, 0xa0064, [], .warm, [⟨31, 0, .rc, 0x0⟩]⟩
  | .QBA_QSEL => ⟨false, 0xa0100, [], .warm, [⟨14, 0, .rw, 0x0⟩]⟩
  | .QBA_QDATA => ⟨false, 0xa0104, [(4, 5)], .cold, [⟨31, 0, .ro, 0x0⟩]⟩
  -- 07_staging_store.md R232
  | .SSC_STATE => ⟨false, 0xb0000, [], .cold, [⟨31, 16, .ro, 0x0⟩, ⟨15, 8, .ro, 0x0⟩, ⟨7, 7, .ro, 0x0⟩, ⟨6, 6, .ro, 0x0⟩, ⟨5, 5, .ro, 0x0⟩, ⟨4, 4, .ro, 0x0⟩, ⟨3, 0, .ro, 0x0⟩]⟩
  | .SSC_CFG => ⟨false, 0xb0004, [], .cold, [⟨31, 31, .rw, 0x1⟩, ⟨15, 0, .rw, 0x3e8⟩]⟩
  | .SSC_SEG_FLUSH => ⟨false, 0xb0008, [], .cold, [⟨23, 0, .rw, 0x40⟩]⟩
  | .SSC_SLOTS => ⟨false, 0xb000c, [], .warm, [⟨7, 0, .ro, 0x0⟩]⟩
  | .SSC_PORT_TGT => ⟨false, 0xb0010, [(4, 8)], .cold, [⟨19, 0, .rw, 0x0⟩]⟩
  | .SSC_REF => ⟨false, 0xb0040, [], .cold, [⟨27, 16, .rwp, 0xf4⟩, ⟨15, 12, .ro, 0x0⟩, ⟨11, 0, .rwp, 0x50⟩]⟩
  | .SSC_PAGE => ⟨false, 0xb0044, [], .cold, [⟨7, 0, .rw, 0x30⟩]⟩
  | .SSC_SEG_FREE => ⟨false, 0xb0050, [], .warm, [⟨21, 0, .ro, 0x0⟩]⟩
  | .SSC_SEG_TOTAL => ⟨false, 0xb0054, [], .warm, [⟨21, 0, .ro, 0x2cb418⟩]⟩
  | .SSC_STACK => ⟨false, 0xb0060, [], .cold, [⟨31, 31, .ro, 0x0⟩, ⟨30, 30, .ro, 0x0⟩, ⟨29, 29, .ro, 0x0⟩, ⟨15, 0, .ro, 0x0⟩]⟩
  | .SSC_SPARE => ⟨false, 0xb0064, [], .cold, [⟨17, 0, .ro, 0x283e8⟩]⟩
  | .SSC_REB_CUR => ⟨false, 0xb0070, [], .cold, [⟨17, 0, .ro, 0x0⟩]⟩
  | .SSC_REB_DONE => ⟨false, 0xb0074, [], .cold, [⟨31, 0, .ro, 0x0⟩]⟩
  | .SSC_LATE => ⟨false, 0xb0080, [(4, 8)], .warm, [⟨31, 0, .rc, 0x0⟩]⟩
  | .SSC_SEG_WRITTEN => ⟨false, 0xb00c0, [], .warm, [⟨31, 0, .rc, 0x0⟩]⟩
  | .SSC_SEG_PARTIAL => ⟨false, 0xb00c4, [], .warm, [⟨31, 0, .rc, 0x0⟩]⟩
  | .SSC_SLOT_EVICT => ⟨false, 0xb00c8, [], .warm, [⟨31, 0, .rc, 0x0⟩]⟩
  | .SSC_NOFREE => ⟨false, 0xb00cc, [], .warm, [⟨31, 0, .rc, 0x0⟩]⟩
  | .SSC_RAW_WAIT => ⟨false, 0xb00d0, [], .warm, [⟨31, 0, .rc, 0x0⟩]⟩
  | .SSC_REF_POSTPONED => ⟨false, 0xb00d4, [], .warm, [⟨31, 0, .rc, 0x0⟩]⟩
  | .SSC_REF_FORCED => ⟨false, 0xb00d8, [], .warm, [⟨31, 0, .rc, 0x0⟩]⟩
  | .SSC_ECC_CORR => ⟨false, 0xb00dc, [], .warm, [⟨31, 0, .rc, 0x0⟩]⟩
  | .SSC_PARITY_READS => ⟨false, 0xb00e0, [], .warm, [⟨31, 0, .rc, 0x0⟩]⟩
  | .SSC_SEG_LOST => ⟨false, 0xb00e4, [], .warm, [⟨31, 0, .rc, 0x0⟩]⟩
  | .SSC_FRAMES_LOST => ⟨false, 0xb00e8, [], .warm, [⟨31, 0, .rc, 0x0⟩]⟩
  | .SSC_OPEN_LOST => ⟨false, 0xb00ec, [], .warm, [⟨31, 0, .rc, 0x0⟩]⟩
  | .SSC_AGED_FREE => ⟨false, 0xb00f0, [], .warm, [⟨31, 0, .rc, 0x0⟩]⟩
  -- 08_resequencing_departure.md R256
  | .RSQ_STATE => ⟨false, 0xd0000, [], .warm, [⟨31, 16, .ro, 0x0⟩, ⟨0, 0, .ro, 0x0⟩]⟩
  | .RSQ_CFG => ⟨false, 0xd0004, [], .cold, [⟨15, 0, .rw, 0x4⟩]⟩
  | .RSQ_ROB => ⟨false, 0xd0008, [], .warm, [⟨31, 16, .rc, 0x0⟩, ⟨13, 0, .ro, 0x0⟩]⟩
  | .RSQ_EDIT_BUSY => ⟨false, 0xd000c, [], .warm, [⟨3, 0, .ro, 0x0⟩]⟩
  | .RSQ_RELEASED => ⟨false, 0xd0040, [], .warm, [⟨31, 0, .rc, 0x0⟩]⟩
  | .RSQ_RETIRED => ⟨false, 0xd0044, [], .warm, [⟨31, 0, .rc, 0x0⟩]⟩
  | .RSQ_TOHOST => ⟨false, 0xd0048, [], .warm, [⟨31, 0, .rc, 0x0⟩]⟩
  | .RSQ_GAP_SKIP => ⟨false, 0xd004c, [], .warm, [⟨31, 0, .rc, 0x0⟩]⟩
  | .RSQ_REORDER_RISK => ⟨false, 0xd0050, [], .warm, [⟨31, 0, .rc, 0x0⟩]⟩
  | .RSQ_LATE_DROP => ⟨false, 0xd0054, [], .warm, [⟨31, 0, .rc, 0x0⟩]⟩
  | .RSQ_HANDOFF => ⟨false, 0xd0058, [], .warm, [⟨31, 0, .rc, 0x0⟩]⟩
  | .RSQ_HANDOFF_RETRY => ⟨false, 0xd005c, [], .warm, [⟨31, 0, .rc, 0x0⟩]⟩
  | .RSQ_FLOOD_COPIES => ⟨false, 0xd0060, [], .warm, [⟨31, 0, .rc, 0x0⟩]⟩
  | .RSQ_EDIT_ERR => ⟨false, 0xd0064, [], .warm, [⟨31, 0, .rc, 0x0⟩]⟩
  | .RSQ_DEST_ERR => ⟨false, 0xd0068, [], .warm, [⟨31, 0, .rc, 0x0⟩]⟩
  | .RSQ_EDIT_PROG => ⟨false, 0xd0400, [(4, 256)], .cold, [⟨31, 31, .rwp, 0x0⟩, ⟨29, 16, .rwp, 0x0⟩, ⟨7, 0, .rwp, 0x0⟩]⟩
  | .RSQ_PORT_DATA => ⟨false, 0xd0800, [(64, 4), (4, 16)], .cold, [⟨31, 0, .rw, 0x0⟩]⟩
  -- 09_cores_threads.md R296
  | .CRA_STATE => ⟨false, 0x60000, [], .warm, [⟨31, 16, .ro, 0x0⟩, ⟨8, 0, .ro, 0x0⟩]⟩
  | .CRA_CFG => ⟨false, 0x60004, [], .cold, [⟨31, 31, .rw, 0x0⟩, ⟨30, 30, .rw, 0x1⟩, ⟨29, 29, .rw, 0x1⟩]⟩
  | .CRA_ENTRY => ⟨false, 0x60008, [], .cold, [⟨14, 0, .rwp, 0x0⟩]⟩
  | .CRA_MAX_SLOTS => ⟨false, 0x6000c, [], .cold, [⟨20, 0, .rw, 0x1000⟩]⟩
  | .CRA_HELPER_TMO => ⟨false, 0x60010, [], .cold, [⟨15, 0, .rw, 0x2710⟩]⟩
  | .CRA_PS_CHECK => ⟨false, 0x60014, [], .warm, [⟨31, 31, .wo, 0x0⟩, ⟨30, 30, .ro, 0x0⟩, ⟨5, 0, .ro, 0x0⟩]⟩
  | .CRA_PS_CRC => ⟨false, 0x60018, [], .warm, [⟨31, 0, .ro, 0x0⟩]⟩
  | .CRA_SUPER => ⟨false, 0x60020, [(4, 6)], .cold, [⟨31, 31, .rw, 0x0⟩, ⟨30, 30, .ro, 0x0⟩, ⟨5, 0, .rw, 0x0⟩]⟩
  | .CRA_THREAD_EN => ⟨false, 0x60040, [(4, 24)], .cold, [⟨15, 0, .rw, 0x0⟩]⟩
  | .CRA_THREAD_CTL => ⟨false, 0x600a0, [], .warm, [⟨31, 16, .wo, 0x0⟩, ⟨15, 12, .wo, 0x0⟩, ⟨8, 0, .wo, 0x0⟩]⟩
  | .CRA_DBG_SEL => ⟨false, 0x600a4, [], .warm, [⟨14, 9, .rw, 0x0⟩, ⟨8, 0, .rw, 0x0⟩]⟩
  | .CRA_DBG_LO => ⟨false, 0x600a8, [], .warm, [⟨31, 0, .rw, 0x0⟩]⟩
  | .CRA_DBG_HI => ⟨false, 0x600ac, [], .warm, [⟨31, 0, .rw, 0x0⟩]⟩
  | .CRA_FAULT_RETIRE => ⟨false, 0x600c0, [], .warm, [⟨31, 0, .rc, 0x0⟩]⟩
  | .CRA_RESTARTS => ⟨false, 0x600c4, [], .warm, [⟨31, 0, .rc, 0x0⟩]⟩
  | .CRA_HELPER_TMO_CNT => ⟨false, 0x600c8, [], .warm, [⟨31, 0, .rc, 0x0⟩]⟩
  | .CRA_ESCALATED => ⟨false, 0x600cc, [], .warm, [⟨31, 0, .rc, 0x0⟩]⟩
  | .CRA_PS_ECC_CORR => ⟨false, 0x600d0, [], .warm, [⟨31, 0, .rc, 0x0⟩]⟩
  | .CRA_PS_REPAIR => ⟨false, 0x600d4, [], .warm, [⟨31, 0, .rc, 0x0⟩]⟩
  | .CRA_BP_HITS => ⟨false, 0x600d8, [], .warm, [⟨31, 0, .rc, 0x0⟩]⟩
  | .CRA_FAULT_OVER => ⟨false, 0x600dc, [], .warm, [⟨31, 0, .rc, 0x0⟩]⟩
  | .CRA_FAULTS => ⟨false, 0x600e0, [(4, 10)], .warm, [⟨31, 0, .rc, 0x0⟩]⟩
  | .CRA_FAULT_Q => ⟨false, 0x60120, [(4, 6)], .warm, [⟨6, 0, .ro, 0x0⟩]⟩
  | .CRA_SLOTS => ⟨false, 0x60140, [(8, 6), (4, 2)], .warm, [⟨31, 0, .rc, 0x0⟩]⟩
  | .CRA_BP => ⟨false, 0x60200, [(16, 24), (4, 4)], .cold, [⟨31, 31, .rw, 0x0⟩, ⟨30, 16, .rw, 0x0⟩, ⟨15, 0, .rw, 0x0⟩]⟩
  | .CRA_THREAD_STAT => ⟨false, 0x60400, [(4, 384)], .thread, [⟨31, 29, .ro, 0x0⟩, ⟨28, 28, .ro, 0x0⟩, ⟨27, 27, .ro, 0x0⟩, ⟨26, 19, .ro, 0x0⟩, ⟨14, 0, .ro, 0x0⟩]⟩
  -- 11_task_dispatch.md R349
  | .TDX_STATE => ⟨false, 0x70000, [], .warm, [⟨31, 16, .ro, 0x0⟩, ⟨1, 1, .ro, 0x0⟩, ⟨0, 0, .ro, 0x0⟩]⟩
  | .TDX_CFG => ⟨false, 0x70004, [], .cold, [⟨31, 31, .wo, 0x0⟩, ⟨7, 0, .rw, 0x2⟩]⟩
  | .TDX_RL_CFG => ⟨false, 0x70100, [(4, 64)], .cold, [⟨31, 30, .rw, 0x0⟩, ⟨29, 29, .rw, 0x1⟩, ⟨13, 0, .rw, 0x800⟩]⟩
  | .TDX_RL_DEPTH => ⟨false, 0x70200, [(4, 64)], .warm, [⟨29, 16, .ro, 0x0⟩, ⟨13, 0, .ro, 0x0⟩]⟩
  | .TDX_CORE_LISTS_LO => ⟨false, 0x70300, [(8, 24)], .cold, [⟨31, 0, .rw, 0x1⟩]⟩
  | .TDX_CORE_LISTS_HI => ⟨false, 0x70304, [(8, 24)], .cold, [⟨31, 0, .rw, 0x0⟩]⟩
  | .TDX_DL_LIMIT => ⟨false, 0x70400, [(4, 8)], .cold, [⟨16, 0, .rw, 0x2000⟩]⟩
  | .TDX_DL_DEPTH => ⟨false, 0x70420, [(4, 8)], .warm, [⟨16, 0, .ro, 0x0⟩]⟩
  | .TDX_DL_NEXT => ⟨false, 0x70440, [(4, 8)], .warm, [⟨31, 0, .ro, 0x0⟩]⟩
  | .TDX_DELIVERED => ⟨false, 0x70500, [], .warm, [⟨31, 0, .rc, 0x0⟩]⟩
  | .TDX_AFF_HIT => ⟨false, 0x70504, [], .warm, [⟨31, 0, .rc, 0x0⟩]⟩
  | .TDX_AFF_FALLBACK => ⟨false, 0x70508, [], .warm, [⟨31, 0, .rc, 0x0⟩]⟩
  | .TDX_POSTED => ⟨false, 0x7050c, [], .warm, [⟨31, 0, .rc, 0x0⟩]⟩
  | .TDX_REMOTE_IN => ⟨false, 0x70510, [], .warm, [⟨31, 0, .rc, 0x0⟩]⟩
  | .TDX_RL_FULL => ⟨false, 0x70514, [], .warm, [⟨31, 0, .rc, 0x0⟩]⟩
  | .TDX_DL_FULL => ⟨false, 0x70518, [], .warm, [⟨31, 0, .rc, 0x0⟩]⟩
  | .TDX_DL_LATE => ⟨false, 0x7051c, [], .warm, [⟨31, 0, .rc, 0x0⟩]⟩
  | .TDX_INJECTED => ⟨false, 0x70520, [], .warm, [⟨31, 0, .rc, 0x0⟩]⟩
  | .TDX_RESTART_RETIRE => ⟨false, 0x70524, [], .warm, [⟨31, 0, .rc, 0x0⟩]⟩
  | .TDX_RESTART_DISCARD => ⟨false, 0x70528, [], .warm, [⟨31, 0, .rc, 0x0⟩]⟩
  | .TDX_TRC_LOST => ⟨false, 0x7052c, [], .warm, [⟨31, 0, .rc, 0x0⟩]⟩
  | .TDX_TRC_CTL => ⟨false, 0x70600, [], .cold, [⟨31, 31, .rw, 0x0⟩, ⟨30, 29, .rw, 0x0⟩, ⟨28, 27, .rw, 0x0⟩, ⟨15, 0, .rw, 0x1000⟩]⟩
  | .TDX_TRC_FILT => ⟨false, 0x70604, [], .cold, [⟨16, 16, .rw, 0x0⟩, ⟨15, 0, .rw, 0x3e3⟩]⟩
  | .TDX_TRC_FLOW => ⟨false, 0x70608, [], .cold, [⟨18, 0, .rw, 0x0⟩]⟩
  | .TDX_TRC_FLOWM => ⟨false, 0x7060c, [], .cold, [⟨18, 0, .rw, 0x7ffff⟩]⟩
  | .TDX_TRC_CORES => ⟨false, 0x70610, [], .cold, [⟨23, 0, .rw, 0xffffff⟩]⟩
  | .TDX_TRC_TRIG => ⟨false, 0x70614, [], .cold, [⟨31, 28, .rw, 0x5⟩, ⟨27, 27, .rw, 0x0⟩, ⟨7, 0, .rw, 0x0⟩]⟩
  | .TDX_TRC_WR => ⟨false, 0x70618, [], .cold, [⟨31, 31, .ro, 0x0⟩, ⟨30, 30, .ro, 0x0⟩, ⟨29, 29, .ro, 0x0⟩, ⟨15, 0, .ro, 0x0⟩]⟩
  | .TDX_TRC_SPILL => ⟨false, 0x7061c, [], .cold, [⟨31, 31, .ro, 0x0⟩, ⟨23, 0, .ro, 0x0⟩]⟩
  | .TDX_TRC_MARK => ⟨false, 0x70620, [], .warm, [⟨21, 0, .wo, 0x0⟩]⟩
  -- 12_locks_channels_events.md R369
  | .SYU_STATE => ⟨false, 0x80000, [], .warm, [⟨31, 16, .ro, 0x0⟩, ⟨5, 0, .ro, 0x0⟩]⟩
  | .SYU_CFG => ⟨false, 0x80004, [], .cold, [⟨31, 31, .wo, 0x0⟩]⟩
  | .SYU_WATCH => ⟨false, 0x80008, [], .cold, [⟨31, 31, .rw, 0x1⟩, ⟨30, 30, .rw, 0x1⟩, ⟨29, 29, .rw, 0x1⟩, ⟨17, 0, .rw, 0x3bc00⟩]⟩
  | .SYU_LK_FORCE => ⟨false, 0x80010, [], .warm, [⟨31, 16, .wo, 0x0⟩, ⟨13, 0, .wo, 0x0⟩]⟩
  | .SYU_EV_HSIG => ⟨false, 0x80014, [], .warm, [⟨12, 10, .wo, 0x0⟩, ⟨9, 0, .wo, 0x0⟩]⟩
  | .SYU_CH_HPUT => ⟨false, 0x80018, [], .warm, [⟨18, 16, .wo, 0x0⟩, ⟨11, 8, .wo, 0x0⟩, ⟨7, 0, .wo, 0x0⟩]⟩
  | .SYU_CH_HPUT_W => ⟨false, 0x80020, [(4, 16)], .warm, [⟨31, 0, .rw, 0x0⟩]⟩
  | .SYU_INSP_SEL => ⟨false, 0x80060, [], .warm, [⟨31, 30, .rw, 0x0⟩, ⟨18, 16, .rw, 0x0⟩, ⟨13, 0, .rw, 0x0⟩]⟩
  | .SYU_INSP_DATA => ⟨false, 0x80064, [], .warm, [⟨31, 0, .ro, 0x0⟩]⟩
  -- 12_locks_channels_events.md R370
  | .SYU_LK_CONTEND => ⟨false, 0x80100, [], .warm, [⟨31, 0, .rc, 0x0⟩]⟩
  | .SYU_LK_ABANDON => ⟨false, 0x80104, [], .warm, [⟨31, 0, .rc, 0x0⟩]⟩
  | .SYU_LK_FORCED => ⟨false, 0x80108, [], .warm, [⟨31, 0, .rc, 0x0⟩]⟩
  | .SYU_EV_SAT => ⟨false, 0x8010c, [], .warm, [⟨31, 0, .rc, 0x0⟩]⟩
  | .SYU_CH_FULL => ⟨false, 0x80110, [], .warm, [⟨31, 0, .rc, 0x0⟩]⟩
  | .SYU_CH_DISCARD => ⟨false, 0x80114, [], .warm, [⟨31, 0, .rc, 0x0⟩]⟩
  | .SYU_STRANDED => ⟨false, 0x80118, [], .warm, [⟨31, 0, .rc, 0x0⟩]⟩
  | .SYU_EV_EXT => ⟨false, 0x81000, [(128, 6), (4, 32)], .cold, [⟨31, 0, .rw, 0x0⟩]⟩
  | .SYU_CH_CFG => ⟨false, 0x82000, [(1024, 6), (4, 256)], .cold, [⟨31, 31, .rw, 0x0⟩, ⟨5, 0, .rw, 0x10⟩]⟩
  -- 13_gangway.md R408
  | .GWE_STATE => ⟨true, 0x10000, [], .cold, [⟨31, 16, .ro, 0x0⟩, ⟨15, 12, .ro, 0x0⟩, ⟨11, 10, .ro, 0x0⟩, ⟨9, 9, .ro, 0x0⟩, ⟨7, 7, .ro, 0x0⟩, ⟨6, 6, .ro, 0x0⟩, ⟨5, 5, .ro, 0x0⟩, ⟨4, 4, .ro, 0x0⟩, ⟨3, 3, .ro, 0x0⟩]⟩
  | .GWE_PORT_CFG => ⟨true, 0x10004, [], .cold, [⟨31, 16, .rw, 0x0⟩, ⟨1, 1, .rw, 0x1⟩, ⟨0, 0, .rw, 0x1⟩]⟩
  | .GWE_ETYPE => ⟨true, 0x10008, [], .cold, [⟨15, 0, .rw, 0x88b5⟩]⟩
  | .GWE_ENCAP => ⟨true, 0x1000c, [], .cold, [⟨31, 16, .rw, 0x0⟩, ⟨1, 0, .rw, 0x0⟩]⟩
  | .GWE_IP4 => ⟨true, 0x10010, [], .cold, [⟨31, 0, .rw, 0x0⟩]⟩
  | .GWE_IP6 => ⟨true, 0x10014, [(4, 4)], .cold, [⟨31, 0, .rw, 0x0⟩]⟩
  | .GWE_WDOG => ⟨true, 0x10024, [], .cold, [⟨31, 16, .rw, 0x0⟩, ⟨15, 0, .rw, 0x7d0⟩]⟩
  | .GWE_EVT_CFG => ⟨true, 0x10028, [], .cold, [⟨24, 16, .rw, 0x100⟩, ⟨15, 0, .rw, 0x1f4⟩]⟩
  | .GWE_EVT_NEXT => ⟨true, 0x1002c, [], .cold, [⟨31, 0, .ro, 0x0⟩]⟩
  | .GWE_EVT_PEND => ⟨true, 0x10030, [], .cold, [⟨28, 16, .ro, 0x0⟩, ⟨12, 0, .ro, 0x0⟩]⟩
  | .GWE_EXC_CFG => ⟨true, 0x10034, [], .cold, [⟨22, 16, .rw, 0x28⟩, ⟨12, 0, .rw, 0x400⟩]⟩
  | .GWE_HOST_MAC_LO => ⟨true, 0x10038, [], .cold, [⟨31, 0, .ro, 0x0⟩]⟩
  | .GWE_HOST_MAC_HI => ⟨true, 0x1003c, [], .cold, [⟨31, 0, .ro, 0x0⟩]⟩
  | .GWE_RX_FRAMES => ⟨true, 0x10080, [], .warm, [⟨31, 0, .rc, 0x0⟩]⟩
  | .GWE_TX_FRAMES => ⟨true, 0x10084, [], .warm, [⟨31, 0, .rc, 0x0⟩]⟩
  | .GWE_DUP => ⟨true, 0x10088, [], .warm, [⟨31, 0, .rc, 0x0⟩]⟩
  | .GWE_BADSEQ => ⟨true, 0x1008c, [], .warm, [⟨31, 0, .rc, 0x0⟩]⟩
  | .GWE_AUTH_FAIL => ⟨true, 0x10090, [], .warm, [⟨31, 0, .rc, 0x0⟩]⟩
  | .GWE_MACSEC_DROP => ⟨true, 0x10094, [], .warm, [⟨31, 0, .rc, 0x0⟩]⟩
  | .GWE_MALFORMED => ⟨true, 0x10098, [], .warm, [⟨31, 0, .rc, 0x0⟩]⟩
  | .GWE_EVT_RETX => ⟨true, 0x1009c, [], .warm, [⟨31, 0, .rc, 0x0⟩]⟩
  | .GWE_EVT_LOST => ⟨true, 0x100a0, [], .warm, [⟨31, 0, .rc, 0x0⟩]⟩
  | .GWE_EXC_SENT => ⟨true, 0x100a4, [], .warm, [⟨31, 0, .rc, 0x0⟩]⟩
  | .GWE_EXC_DROP => ⟨true, 0x100a8, [], .warm, [⟨31, 0, .rc, 0x0⟩]⟩
  | .GWE_STANDBY_DROP => ⟨true, 0x100ac, [], .warm, [⟨31, 0, .rc, 0x0⟩]⟩
  -- 14_pilot_microcode.md R432
  | .PLT_STATE => ⟨true, 0x20000, [], .cold, [⟨31, 16, .ro, 0x0⟩, ⟨10, 8, .ro, 0x0⟩, ⟨7, 0, .ro, 0x0⟩]⟩
  | .PLT_ROM => ⟨true, 0x20004, [], .cold, [⟨31, 16, .ro, 0x0⟩, ⟨15, 0, .ro, 0x0⟩]⟩
  | .PLT_START => ⟨true, 0x20008, [], .cold, [⟨31, 30, .ro, 0x0⟩, ⟨19, 0, .ro, 0x0⟩]⟩
  | .PLT_HANDOVERS => ⟨true, 0x2000c, [], .warm, [⟨31, 0, .rc, 0x0⟩]⟩
  | .PLT_DIE_STAT => ⟨true, 0x20010, [(4, 8)], .cold, [⟨7, 4, .ro, 0x0⟩, ⟨2, 0, .ro, 0x0⟩]⟩
  | .MCS_CTRL => ⟨true, 0x20040, [], .cold, [⟨31, 24, .ro, 0x0⟩, ⟨10, 8, .ro, 0x0⟩, ⟨3, 3, .ro, 0x0⟩, ⟨2, 2, .ro, 0x0⟩, ⟨1, 1, .ro, 0x0⟩, ⟨0, 0, .ro, 0x0⟩]⟩
  | .MCS_PATCH_LOG_VER => ⟨true, 0x20050, [(8, 8)], .cold, [⟨31, 0, .ro, 0x0⟩]⟩
  | .MCS_PATCH_LOG_INFO => ⟨true, 0x20054, [(8, 8)], .cold, [⟨31, 30, .ro, 0x0⟩, ⟨16, 16, .ro, 0x0⟩, ⟨15, 0, .ro, 0x0⟩]⟩
  | .MCS_PATCH_CNT => ⟨true, 0x20090, [], .cold, [⟨31, 0, .ro, 0x0⟩]⟩
  | .MCS_DIGEST => ⟨true, 0x200a0, [(4, 12)], .cold, [⟨31, 0, .ro, 0x0⟩]⟩
  -- 14_pilot_microcode.md R433
  | .MCS_ECC1 => ⟨false, 0x50000, [], .warm, [⟨31, 0, .rc, 0x0⟩]⟩
  | .MCS_ECC2 => ⟨false, 0x50004, [], .warm, [⟨31, 0, .rc, 0x0⟩]⟩
  | .MCS_UNCORR => ⟨false, 0x50008, [], .warm, [⟨31, 0, .rc, 0x0⟩]⟩
  | .MCS_REPAIR => ⟨false, 0x5000c, [], .warm, [⟨31, 0, .rc, 0x0⟩]⟩
  | .MCS_LAST_ERR => ⟨false, 0x50010, [], .warm, [⟨15, 14, .ro, 0x0⟩, ⟨13, 0, .ro, 0x0⟩]⟩
  -- 15_modes_reset.md R461
  | .GLB_MODE => ⟨true, 0x100, [], .cold, [⟨31, 16, .ro, 0x0⟩, ⟨10, 8, .ro, 0x0⟩, ⟨7, 4, .ro, 0x0⟩, ⟨2, 0, .ro, 0x0⟩]⟩
  | .GLB_RESET_CAUSE => ⟨true, 0x104, [], .cold, [⟨3, 0, .ro, 0x0⟩]⟩
  | .GLB_CTRL => ⟨true, 0x108, [], .warm, [⟨31, 16, .wo, 0x0⟩, ⟨0, 0, .wo, 0x0⟩]⟩
  | .GLB_INGRESS => ⟨true, 0x10c, [], .cold, [⟨31, 0, .ro, 0x0⟩]⟩
  | .GLB_OCC_INFLIGHT => ⟨true, 0x110, [], .warm, [⟨31, 0, .ro, 0x0⟩]⟩
  | .GLB_OCC_QUAY => ⟨true, 0x114, [], .warm, [⟨31, 0, .ro, 0x0⟩]⟩
  | .GLB_OCC_STAGED => ⟨true, 0x118, [], .cold, [⟨31, 0, .ro, 0x0⟩]⟩
  | .GLB_WARM_LOST => ⟨true, 0x120, [(4, 2)], .cold, [⟨31, 0, .rc, 0x0⟩]⟩
  | .GLB_CLOSED_DROP => ⟨true, 0x200, [(4, 32)], .warm, [⟨31, 0, .rc, 0x0⟩]⟩
  -- 16_containment.md R482
  | .DIE_PRESENT => ⟨true, 0x300, [], .cold, [⟨7, 0, .ro, 0x0⟩]⟩
  | .DIE_HEALTH => ⟨true, 0x304, [], .cold, [⟨31, 16, .ro, 0x0⟩, ⟨15, 8, .ro, 0x0⟩, ⟨7, 0, .ro, 0x0⟩]⟩
  | .GLB_DIE_CTL => ⟨true, 0x308, [], .warm, [⟨31, 16, .wo, 0x0⟩, ⟨3, 3, .wo, 0x0⟩, ⟨2, 0, .wo, 0x0⟩]⟩
  | .GLB_DIE_CAUSE => ⟨true, 0x320, [(4, 8)], .cold, [⟨31, 28, .ro, 0x0⟩]⟩
  -- 16_containment.md R483
  | .ICU_STATE => ⟨false, 0xe0000, [], .warm, [⟨31, 16, .ro, 0x0⟩, ⟨15, 0, .ro, 0x0⟩]⟩
  | .ICU_SCRUB => ⟨false, 0xe0004, [], .cold, [⟨31, 16, .rw, 0x100⟩, ⟨3, 0, .rw, 0xa⟩]⟩
  | .ICU_LIMIT => ⟨false, 0xe0008, [], .cold, [⟨19, 16, .rw, 0x4⟩, ⟨15, 0, .rw, 0x40⟩]⟩
  | .ICU_CHAN_UE => ⟨false, 0xe0010, [(4, 16)], .cold, [⟨15, 0, .ro, 0x0⟩]⟩
  | .ICU_LAST_UE => ⟨false, 0xe0050, [], .warm, [⟨31, 28, .ro, 0x0⟩, ⟨27, 0, .ro, 0x0⟩]⟩
  | .ICU_SRAM_CORR => ⟨false, 0xe0080, [], .warm, [⟨31, 0, .rc, 0x0⟩]⟩
  | .ICU_SRAM_UNCORR => ⟨false, 0xe0084, [], .warm, [⟨31, 0, .rc, 0x0⟩]⟩
  | .ICU_FRAME_DROP => ⟨false, 0xe0088, [], .warm, [⟨31, 0, .rc, 0x0⟩]⟩
  | .ICU_CTRL_LOST => ⟨false, 0xe008c, [], .warm, [⟨31, 0, .rc, 0x0⟩]⟩
  | .ICU_REPAIRED => ⟨false, 0xe0090, [], .warm, [⟨31, 0, .rc, 0x0⟩]⟩
  | .ICU_TABLE_RESTORE => ⟨false, 0xe0094, [], .warm, [⟨31, 0, .rc, 0x0⟩]⟩
  | .ICU_SCRUB_PASSES => ⟨false, 0xe0098, [], .warm, [⟨31, 0, .rc, 0x0⟩]⟩
  | .ICU_HBM_PASSES => ⟨false, 0xe009c, [], .warm, [⟨31, 0, .rc, 0x0⟩]⟩
  -- 16_containment.md R484
  | .PFB_STATE => ⟨false, 0xf0000, [], .warm, [⟨31, 16, .ro, 0x0⟩, ⟨1, 1, .ro, 0x0⟩, ⟨0, 0, .ro, 0x0⟩]⟩
  | .PFB_LINK_STAT => ⟨false, 0xf0010, [(4, 5)], .warm, [⟨21, 16, .ro, 0x0⟩, ⟨1, 0, .ro, 0x0⟩]⟩
  | .PFB_FLIT_RETRY => ⟨false, 0xf0040, [], .warm, [⟨31, 0, .rc, 0x0⟩]⟩
  | .PFB_TAKEOVER_DROP => ⟨false, 0xf0044, [], .warm, [⟨31, 0, .rc, 0x0⟩]⟩
  | .PFB_FENCE_RX => ⟨false, 0xf0048, [], .warm, [⟨31, 0, .rc, 0x0⟩]⟩
  | .PFB_HANDOFF_DISCARD => ⟨false, 0xf004c, [], .warm, [⟨31, 0, .rc, 0x0⟩]⟩
  | .PFB_ROUTE_DROP => ⟨false, 0xf0050, [], .warm, [⟨31, 0, .rc, 0x0⟩]⟩
  | .PFB_TWIN_RECOVERED => ⟨false, 0xf0054, [], .warm, [⟨31, 0, .rc, 0x0⟩]⟩
  | .PFB_REINJECT => ⟨false, 0xf0058, [], .warm, [⟨31, 0, .rc, 0x0⟩]⟩
  | .PFB_TASKS_REHOMED => ⟨false, 0xf005c, [], .warm, [⟨31, 0, .rc, 0x0⟩]⟩
  -- 17_line_ports.md R499
  | .LPX_STATE => ⟨false, 0x10000, [], .warm, [⟨31, 16, .ro, 0x0⟩, ⟨3, 0, .ro, 0x0⟩]⟩
  | .LPX_PORT_CFG => ⟨false, 0x10010, [(4, 4)], .cold, [⟨31, 31, .rw, 0x0⟩, ⟨19, 16, .rwp, 0x0⟩, ⟨13, 0, .rw, 0x2400⟩]⟩
  | .LPX_LINK_CFG => ⟨false, 0x10020, [], .cold, [⟨31, 16, .rw, 0x64⟩, ⟨15, 0, .rw, 0x0⟩]⟩
  | .LPX_PORT_STAT => ⟨false, 0x10030, [(4, 4)], .warm, [⟨31, 31, .ro, 0x0⟩, ⟨30, 30, .ro, 0x0⟩, ⟨29, 29, .ro, 0x0⟩, ⟨28, 28, .ro, 0x0⟩, ⟨27, 27, .ro, 0x0⟩, ⟨26, 26, .ro, 0x0⟩, ⟨5, 4, .ro, 0x0⟩, ⟨3, 0, .ro, 0x0⟩]⟩
  | .LPX_STEER_LO => ⟨false, 0x10040, [], .cold, [⟨31, 0, .rw, 0xfc000000⟩]⟩
  | .LPX_STEER_HI => ⟨false, 0x10044, [], .cold, [⟨31, 0, .rw, 0x3f⟩]⟩
  | .LPX_RX_FRAMES => ⟨false, 0x10100, [(64, 4)], .warm, [⟨31, 0, .rc, 0x0⟩]⟩
  | .LPX_RX_KB => ⟨false, 0x10104, [(64, 4)], .warm, [⟨31, 0, .rc, 0x0⟩]⟩
  | .LPX_RX_ERR => ⟨false, 0x10108, [(64, 4)], .warm, [⟨31, 0, .rc, 0x0⟩]⟩
  | .LPX_RX_CODE => ⟨false, 0x1010c, [(64, 4)], .warm, [⟨31, 0, .rc, 0x0⟩]⟩
  | .LPX_RX_OVERSIZE => ⟨false, 0x10110, [(64, 4)], .warm, [⟨31, 0, .rc, 0x0⟩]⟩
  | .LPX_RX_RUNT => ⟨false, 0x10114, [(64, 4)], .warm, [⟨31, 0, .rc, 0x0⟩]⟩
  | .LPX_RX_FCS => ⟨false, 0x10118, [(64, 4)], .warm, [⟨31, 0, .rc, 0x0⟩]⟩
  | .LPX_RX_CTRL => ⟨false, 0x1011c, [(64, 4)], .warm, [⟨31, 0, .rc, 0x0⟩]⟩
  | .LPX_TX_FRAMES => ⟨false, 0x10120, [(64, 4)], .warm, [⟨31, 0, .rc, 0x0⟩]⟩
  | .LPX_TX_KB => ⟨false, 0x10124, [(64, 4)], .warm, [⟨31, 0, .rc, 0x0⟩]⟩
  | .LPX_FEC_CORR => ⟨false, 0x10128, [(64, 4)], .warm, [⟨31, 0, .rc, 0x0⟩]⟩
  | .LPX_FEC_UNCORR => ⟨false, 0x1012c, [(64, 4)], .warm, [⟨31, 0, .rc, 0x0⟩]⟩
  | .LPX_LINK_DOWNS => ⟨false, 0x10200, [(4, 4)], .warm, [⟨31, 0, .rc, 0x0⟩]⟩
  -- 18_electrical_package.md R524
  | .GLB_CLK_STAT => ⟨true, 0x400, [], .cold, [⟨31, 16, .ro, 0x0⟩, ⟨3, 3, .ro, 0x0⟩, ⟨2, 2, .ro, 0x0⟩, ⟨1, 0, .ro, 0x0⟩]⟩
  | .GLB_THERM_CFG => ⟨true, 0x404, [], .cold, [⟨7, 0, .rw, 0x64⟩]⟩
  | .GLB_THERM_STAT => ⟨true, 0x408, [], .cold, [⟨31, 16, .ro, 0x0⟩, ⟨15, 15, .ro, 0x0⟩, ⟨7, 0, .ro, 0x0⟩]⟩
  | .GLB_TEMP => ⟨true, 0x410, [(4, 8)], .warm, [⟨31, 24, .ro, 0x0⟩, ⟨23, 16, .ro, 0x0⟩, ⟨15, 8, .ro, 0x0⟩, ⟨7, 0, .rc, 0x0⟩]⟩
  -- 19_register_space.md R532
  | .GLB_PART => ⟨true, 0x0, [], .cold, [⟨31, 16, .ro, 0x0⟩, ⟨15, 8, .ro, 0xb0⟩, ⟨3, 0, .ro, 0x0⟩]⟩
  | .GLB_FMAC_LO => ⟨true, 0x4, [], .cold, [⟨31, 0, .ro, 0x0⟩]⟩
  | .GLB_FMAC_HI => ⟨true, 0x8, [], .cold, [⟨31, 0, .ro, 0x0⟩]⟩
  | .GLB_SPACE_VER => ⟨true, 0xc, [], .cold, [⟨31, 16, .ro, 0x1⟩, ⟨15, 0, .ro, 0x0⟩]⟩
  | .DIE_ID => ⟨false, 0x0, [], .cold, [⟨31, 16, .ro, 0x0⟩, ⟨15, 8, .ro, 0xb0⟩, ⟨2, 0, .ro, 0x0⟩]⟩

/-- Registers of the table, part 1. -/
def Reg.part1 : List Reg := [.PHI_STATE, .PHI_CTRL, .PHI_XLEN, .PHI_TICK, .PHI_HOLD, .PHI_TOL, .PHI_SELF_STEP, .PHI_SELF_START, .PHI_NOW_XING, .PHI_NOW_STEP, .PHI_TICKS_LO, .PHI_TICKS_HI, .PHI_PERIOD, .PHI_IN, .PHI_ERR, .PHI_JUMP, .PHI_SKEW_CNT, .CTE_STATE, .CTE_SWAP, .CTE_SWAP_XING, .CTE_LAST_SWAP, .CTE_GUARD, .CTE_PF, .CTE_SWAP_CNT, .CTE_SLICE_STAT, .CTE_PF_AREA, .CTE_PF_USE, .CTE_PF_LATE_CNT, .CTE_PF_WAIT_CNT, .CTE_PORT_STAT, .PRS_PORT_CFG, .PRS_QDEPTH, .PRS_BUSY, .PRS_MAX_SEEN, .PRS_XREGION, .PRS_FRAMES, .PRS_CYCLES, .PRS_FAIL, .PRS_ERR, .CLS_DEF_ACT, .CLS_DEF_ARG]

/-- Registers of the table, part 2. -/
def Reg.part2 : List Reg := [.CLS_FRAG_CFG, .CLS_FRAG_STAT, .CLS_FKEY_LO, .CLS_FKEY_HI, .CLS_DEFAULT, .CLS_FRAG_EXPIRED, .CLS_FRAG_FULL, .CLS_FRAG_HIT, .CLS_FLOW_FALLBACK, .CLS_ROB_WAIT, .FWT_STATE, .FWT_CFG, .FWT_HASH_SEED, .FWT_L2_AGE, .FWT_FLOW_AGE, .FWT_MOVE, .FWT_PIN, .FWT_PORT_CFG, .FWT_PORT_FLOOD, .FWT_L2_USED, .FWT_FLOW_USED, .FWT_CTX, .FWT_LPM_USED, .FWT_LEARN_FULL, .FWT_FLOW_FULL, .FWT_LQ_DROP, .FWT_LEARNS, .FWT_MOVES, .FWT_MOVE_REFUSED, .FWT_STATIC_CONFLICT, .FWT_NOTICE_REFUSED, .FWT_AGED_L2, .FWT_AGED_FLOW, .FWT_FCACHE_MISS, .FWT_LPM_MOVES, .FWT_LPM_DUP_FIXED, .FWT_FLOOD_PORTS, .FWT_FLOOD_CFG, .BPM_STATE, .BPM_POOL_BASE, .BPM_POOL_CNT]

/-- Registers of the table, part 3. -/
def Reg.part3 : List Reg := [.BPM_POOL_FREE, .BPM_ALLOC_FAIL, .BPM_QUAR_FAIL, .BPM_BADHANDLE, .BPM_DOUBLE_FREE, .BPM_SHARE_FULL, .BPM_ORPHAN_CLOSE, .BPM_REBUILDS, .BPM_SHARE_USED, .BPM_HOST_FREE_LO, .BPM_HOST_FREE_HI, .QBA_ALPHA, .QBA_PORT_CFG, .QBA_PORT_STAT, .QBA_TWIN_FAIL, .QBA_FREE, .QBA_KEPT, .QBA_STAGED, .QBA_DWELL_STAGED, .QBA_DWELL_REFUSED, .QBA_STAGE_REFUSED, .QBA_UNMIRRORED, .QBA_QSEL, .QBA_QDATA, .SSC_STATE, .SSC_CFG, .SSC_SEG_FLUSH, .SSC_SLOTS, .SSC_PORT_TGT, .SSC_REF, .SSC_PAGE, .SSC_SEG_FREE, .SSC_SEG_TOTAL, .SSC_STACK, .SSC_SPARE, .SSC_REB_CUR, .SSC_REB_DONE, .SSC_LATE, .SSC_SEG_WRITTEN, .SSC_SEG_PARTIAL, .SSC_SLOT_EVICT]

/-- Registers of the table, part 4. -/
def Reg.part4 : List Reg := [.SSC_NOFREE, .SSC_RAW_WAIT, .SSC_REF_POSTPONED, .SSC_REF_FORCED, .SSC_ECC_CORR, .SSC_PARITY_READS, .SSC_SEG_LOST, .SSC_FRAMES_LOST, .SSC_OPEN_LOST, .SSC_AGED_FREE, .RSQ_STATE, .RSQ_CFG, .RSQ_ROB, .RSQ_EDIT_BUSY, .RSQ_RELEASED, .RSQ_RETIRED, .RSQ_TOHOST, .RSQ_GAP_SKIP, .RSQ_REORDER_RISK, .RSQ_LATE_DROP, .RSQ_HANDOFF, .RSQ_HANDOFF_RETRY, .RSQ_FLOOD_COPIES, .RSQ_EDIT_ERR, .RSQ_DEST_ERR, .RSQ_EDIT_PROG, .RSQ_PORT_DATA, .CRA_STATE, .CRA_CFG, .CRA_ENTRY, .CRA_MAX_SLOTS, .CRA_HELPER_TMO, .CRA_PS_CHECK, .CRA_PS_CRC, .CRA_SUPER, .CRA_THREAD_EN, .CRA_THREAD_CTL, .CRA_DBG_SEL, .CRA_DBG_LO, .CRA_DBG_HI, .CRA_FAULT_RETIRE]

/-- Registers of the table, part 5. -/
def Reg.part5 : List Reg := [.CRA_RESTARTS, .CRA_HELPER_TMO_CNT, .CRA_ESCALATED, .CRA_PS_ECC_CORR, .CRA_PS_REPAIR, .CRA_BP_HITS, .CRA_FAULT_OVER, .CRA_FAULTS, .CRA_FAULT_Q, .CRA_SLOTS, .CRA_BP, .CRA_THREAD_STAT, .TDX_STATE, .TDX_CFG, .TDX_RL_CFG, .TDX_RL_DEPTH, .TDX_CORE_LISTS_LO, .TDX_CORE_LISTS_HI, .TDX_DL_LIMIT, .TDX_DL_DEPTH, .TDX_DL_NEXT, .TDX_DELIVERED, .TDX_AFF_HIT, .TDX_AFF_FALLBACK, .TDX_POSTED, .TDX_REMOTE_IN, .TDX_RL_FULL, .TDX_DL_FULL, .TDX_DL_LATE, .TDX_INJECTED, .TDX_RESTART_RETIRE, .TDX_RESTART_DISCARD, .TDX_TRC_LOST, .TDX_TRC_CTL, .TDX_TRC_FILT, .TDX_TRC_FLOW, .TDX_TRC_FLOWM, .TDX_TRC_CORES, .TDX_TRC_TRIG, .TDX_TRC_WR, .TDX_TRC_SPILL]

/-- Registers of the table, part 6. -/
def Reg.part6 : List Reg := [.TDX_TRC_MARK, .SYU_STATE, .SYU_CFG, .SYU_WATCH, .SYU_LK_FORCE, .SYU_EV_HSIG, .SYU_CH_HPUT, .SYU_CH_HPUT_W, .SYU_INSP_SEL, .SYU_INSP_DATA, .SYU_LK_CONTEND, .SYU_LK_ABANDON, .SYU_LK_FORCED, .SYU_EV_SAT, .SYU_CH_FULL, .SYU_CH_DISCARD, .SYU_STRANDED, .SYU_EV_EXT, .SYU_CH_CFG, .GWE_STATE, .GWE_PORT_CFG, .GWE_ETYPE, .GWE_ENCAP, .GWE_IP4, .GWE_IP6, .GWE_WDOG, .GWE_EVT_CFG, .GWE_EVT_NEXT, .GWE_EVT_PEND, .GWE_EXC_CFG, .GWE_HOST_MAC_LO, .GWE_HOST_MAC_HI, .GWE_RX_FRAMES, .GWE_TX_FRAMES, .GWE_DUP, .GWE_BADSEQ, .GWE_AUTH_FAIL, .GWE_MACSEC_DROP, .GWE_MALFORMED, .GWE_EVT_RETX, .GWE_EVT_LOST]

/-- Registers of the table, part 7. -/
def Reg.part7 : List Reg := [.GWE_EXC_SENT, .GWE_EXC_DROP, .GWE_STANDBY_DROP, .PLT_STATE, .PLT_ROM, .PLT_START, .PLT_HANDOVERS, .PLT_DIE_STAT, .MCS_CTRL, .MCS_PATCH_LOG_VER, .MCS_PATCH_LOG_INFO, .MCS_PATCH_CNT, .MCS_DIGEST, .MCS_ECC1, .MCS_ECC2, .MCS_UNCORR, .MCS_REPAIR, .MCS_LAST_ERR, .GLB_MODE, .GLB_RESET_CAUSE, .GLB_CTRL, .GLB_INGRESS, .GLB_OCC_INFLIGHT, .GLB_OCC_QUAY, .GLB_OCC_STAGED, .GLB_WARM_LOST, .GLB_CLOSED_DROP, .DIE_PRESENT, .DIE_HEALTH, .GLB_DIE_CTL, .GLB_DIE_CAUSE, .ICU_STATE, .ICU_SCRUB, .ICU_LIMIT, .ICU_CHAN_UE, .ICU_LAST_UE, .ICU_SRAM_CORR, .ICU_SRAM_UNCORR, .ICU_FRAME_DROP, .ICU_CTRL_LOST, .ICU_REPAIRED]

/-- Registers of the table, part 8. -/
def Reg.part8 : List Reg := [.ICU_TABLE_RESTORE, .ICU_SCRUB_PASSES, .ICU_HBM_PASSES, .PFB_STATE, .PFB_LINK_STAT, .PFB_FLIT_RETRY, .PFB_TAKEOVER_DROP, .PFB_FENCE_RX, .PFB_HANDOFF_DISCARD, .PFB_ROUTE_DROP, .PFB_TWIN_RECOVERED, .PFB_REINJECT, .PFB_TASKS_REHOMED, .LPX_STATE, .LPX_PORT_CFG, .LPX_LINK_CFG, .LPX_PORT_STAT, .LPX_STEER_LO, .LPX_STEER_HI, .LPX_RX_FRAMES, .LPX_RX_KB, .LPX_RX_ERR, .LPX_RX_CODE, .LPX_RX_OVERSIZE, .LPX_RX_RUNT, .LPX_RX_FCS, .LPX_RX_CTRL, .LPX_TX_FRAMES, .LPX_TX_KB, .LPX_FEC_CORR, .LPX_FEC_UNCORR, .LPX_LINK_DOWNS, .GLB_CLK_STAT, .GLB_THERM_CFG, .GLB_THERM_STAT, .GLB_TEMP, .GLB_PART, .GLB_FMAC_LO, .GLB_FMAC_HI, .GLB_SPACE_VER, .DIE_ID]

/-- Every register. -/
def Reg.all : List Reg := Reg.part1 ++ Reg.part2 ++ Reg.part3 ++ Reg.part4 ++ Reg.part5 ++ Reg.part6 ++ Reg.part7 ++ Reg.part8

/-- Base of die block d (R525). -/
def dieBase (d : Nat) : Nat := 0x10000000 + d * 0x01000000

/-- Sum of stride times index (R528). -/
def dimSum : List (Nat × Nat) → List Nat → Nat
  | (s, _) :: r, i :: t => s * i + dimSum r t
  | _, _ => 0

/-- The address of a register (R528). -/
def Reg.addr (r : Reg) (d : Nat) (idx : List Nat) : Nat :=
  (if r.info.glob then 0 else dieBase d) + r.info.base + dimSum r.info.dims idx

/-- The indices that an offset from the base stands for, when every one is in range (R528). -/
def dimMatch : Nat → List (Nat × Nat) → Option (List Nat)
  | off, [] => if off = 0 then some [] else none
  | off, (s, c) :: r => if off / s < c then (dimMatch (off % s) r).map (fun t => off / s :: t) else none

/-- The register at an offset of a block, with its indices. -/
def regIn (glob : Bool) (off : Nat) : List Reg → Option (Reg × List Nat)
  | [] => none
  | r :: t =>
    if r.info.glob = glob ∧ r.info.base ≤ off then
      match dimMatch (off - r.info.base) r.info.dims with
      | some idx => some (r, idx)
      | none => regIn glob off t
    else regIn glob off t

/-- A register with its die and indices. -/
structure RegRef where
  reg : Reg
  die : Nat
  idx : List Nat
  deriving DecidableEq, Repr

/-- The register at an address of the package space or of a die block (R525, R527). -/
def locate (a : Nat) : Option RegRef :=
  if a % 4 ≠ 0 then none
  else if a < 0x10000000 then (regIn true a Reg.all).map (fun p => ⟨p.1, 0, p.2⟩)
  else if a < 0x18000000 then
    (regIn false (a % 0x01000000) Reg.all).map (fun p => ⟨p.1, (a - 0x10000000) / 0x01000000, p.2⟩)
  else none

/-- The offset in a broadcast block address (R529). -/
def bcastOffset (a : Nat) : Option Nat := if 0x1F000000 ≤ a ∧ a < 0x1F100000 then some (a - 0x1F000000) else none

/-- Reset values of SSC_PORT_TGT by requestor port (R210). -/
def portTargetReset (i : Nat) : Nat := [1600, 10000, 80, 50000, 1000000, 100000, 20000, 2000].getD i 0

/-- The reset word that the tables give (R10); the arrays whose entries differ are named here. -/
def Reg.resetWord (r : Reg) (idx : List Nat) : Word :=
  match r, idx with
  | .SSC_PORT_TGT, i :: _ => BitVec.ofNat 32 (portTargetReset i)
  | .RSQ_EDIT_PROG, 0 :: _ => 0x80000000
  | r, _ => packWord (r.info.fields.map (fun f => (f.lo, f.rst)))

/-- The mask of the bits whose field satisfies p. -/
def Reg.maskWhere (r : Reg) (p : Acc → Bool) : Nat :=
  r.info.fields.foldl (fun a f => if p f.acc then a + ones (f.hi + 1 - f.lo) * 2 ^ f.lo else a) 0

/-- The unit of a die register: its offset divided by 0x10000 (R526). -/
def Reg.unit (r : Reg) : Nat := r.info.base / 0x10000

end Sys2Proof.Machine
end

