-- ==== Sys2Proof/Machine/StateTypes.lean ====
section
/-! DEFINITION. The parts of the machine's state, chapter by chapter; plain data only. -/

namespace Sys2Proof.Machine

/-- The parts of the family (spec/00_scope.md R1). -/
inductive Part | hx1620 | hx1640 | hx1680
  deriving DecidableEq, Repr

/-- Dies of a part (R1). -/
def Part.dies : Part → Nat
  | .hx1620 => 2
  | .hx1640 => 4
  | .hx1680 => 8

/-- Package modes (spec/15 R434, spec/13 R397). -/
inductive Mode | reset | listen | provision | run | drain | moored
  deriving DecidableEq, Repr

/-- Mode codes (R397). -/
def Mode.code : Mode → Nat
  | .reset => 0
  | .listen => 1
  | .provision => 2
  | .run => 3
  | .drain => 4
  | .moored => 5

/-- Phase states (spec/02 R48). -/
inductive PhSt | none | acquire | locked | holdover | lost | self
  deriving DecidableEq, Repr

/-- Phase state codes (R48). -/
def PhSt.code : PhSt → Nat
  | .none => 0
  | .acquire => 1
  | .locked => 2
  | .holdover => 3
  | .lost => 4
  | .self => 5

/-- The phase source in use (R61, PHI_STATE.INPUT). -/
inductive PhSrc | none | a | b | self
  deriving DecidableEq, Repr

/-- Codes of PHI_STATE.INPUT (R61). -/
def PhSrc.code : PhSrc → Nat
  | .none => 0
  | .a => 1
  | .b => 2
  | .self => 3

/-- What the receiver keeps of one input (R40, R46, R535): edges seen since the last restart, own step number, crossing count, good words, words, good or bad, since it became healthy (R50), failed words and crossings in a row, check results, measured periods in fs with the newest first, and of the phase word in progress its bits taken so far, the crossing count at its first bit, and whether its last bit has come and the word is still to be checked. -/
structure PhIn where
  seen : Bool := false
  stepNo : Option Nat := none
  xing : Nat := 0
  seeded : Bool := false
  healthy : Bool := false
  good : Nat := 0
  badWords : Nat := 0
  badMarks : Nat := 0
  markErr : Bool := false
  markOk : Bool := false
  wordOk : Bool := false
  stepOk : Bool := false
  words : Nat := 0
  periods : List Nat := []
  bits : Nat := 0
  wstart : Nat := 0
  whole : Bool := false
  deriving DecidableEq, Repr

/-- The phase (spec/02) as the receiver die holds it; off: the steps by which the phase of another die is ahead of it; cnt: the same for the die's step count, which realigning does not correct (R43, R44); skewed: the dies found off by more than one step, with the step count at which each was found (R44); wordIn: a word of the active input has ended in the present crossing (R74). -/
structure Phi where
  st : PhSt := .none
  src : PhSrc := .none
  ever : Bool := false
  rxDie : Bool := false
  xing : Nat := 0
  step : Nat := 0
  stepCnt : Nat := 0
  tickDone : Nat := 0
  coasted : Nat := 0
  estimated : Bool := false
  period : Nat := 0
  adopt : Option PhInp := none
  inA : PhIn := {}
  inB : PhIn := {}
  off : SMap Int := []
  cnt : SMap Int := []
  skewed : List (Nat × Nat) := []
  wordIn : Bool := false
  deriving DecidableEq, Repr

/-- Counters and run state of a bank (spec/03 R100, R73). -/
structure BankSt where
  runs : Nat := 0
  nofit : Nat := 0
  pfLate : Nat := 0
  openG : Nat := 0
  deriving DecidableEq, Repr

/-- A frame in its landing queue (R18, spec/06 R185 to R193, spec/07 R205); src: the handoff whose copy it is (R471). -/
structure LQItem where
  staged : Bool
  handle : Nat
  seg : Nat
  off : Nat
  len : Nat
  edit : Nat
  flow : Nat
  eage : Nat
  tick : Nat
  flood : Bool
  mirror : Option Nat
  offer : Nat
  src : Option Nat := none
  deriving DecidableEq, Repr

/-- A landing queue's frames, segments and metadata (R88, R100, R190, R196, R208). -/
structure LQ where
  items : List LQItem := []
  segs : List Nat := []
  opened : Option Nat := none
  deficit : Nat := 0
  nofit : Bool := false
  admitDrop : Nat := 0
  qStaged : Nat := 0
  qDwell : Nat := 0
  linkAbort : Nat := 0
  ageDrop : Nat := 0
  depFrames : Nat := 0
  depKb : Nat := 0
  depRem : Nat := 0
  deriving DecidableEq, Repr

/-- A frame that the CTE has started on a port (R96, R252, R537). -/
structure WireFrame where
  q : Nat
  item : LQItem
  bytes : List Byte
  left : Bool
  engine : Option Nat
  deriving DecidableEq, Repr

/-- Transmission state of a port (R87, R95, R96, R537); weight: WEIGHT of the bank whose turn it is, as it stood when the turn began; held: the first words of the bank's entry and of its queues' entries that were written during the turn, as they stood before (R98). -/
structure PortTx where
  link : Bool := false
  backlog : Nat := 0
  turn : Option Nat := none
  started : Nat := 0
  weight : Nat := 1
  round : List Nat := []
  served : List Nat := []
  held : List (Nat × Word) := []
  wire : List WireFrame := []
  deriving DecidableEq, Repr

/-- Where a prefetch stands (R90 to R94, R217). -/
inductive PfSt | waiting | requested | landed
  deriving DecidableEq, Repr

/-- A prefetched segment (R90 to R94): deadline in the step count, whether lateness counts, and run: the step count at which the run begins that it was requested for, or of the request within a run. -/
structure Pf where
  q : Nat
  seg : Nat
  chunks : Nat
  deadline : Nat
  counts : Bool
  late : Bool
  begun : Bool
  run : Nat
  st : PfSt
  deriving DecidableEq, Repr

/-- The crossing timetable engine (spec/03); nextCopy: the copy that the last good word selected, with the crossing that began after the word once one has begun (R41); prevCopy: the copy of the previous crossing at its end; guard: WIN_GUARD as it stood at the present step (R101). -/
structure Cte where
  active : Nat := 0
  swap : Option Nat := none
  nextCopy : Option (Nat × Option Nat) := none
  prevCopy : Nat := 0
  guard : Nat := 16
  tt : SMap Word := []
  held : SMap Word := []
  bad : List Nat := []
  bank : SMap BankSt := []
  port : SMap PortTx := []
  linkRep : List (Nat × Bool) := []
  pf : List Pf := []
  deriving DecidableEq, Repr

/-- Link conditions and reported state of a port (spec/17 R495, R496, R499). -/
structure LinkSt where
  anDone : Bool := false
  align : Bool := false
  fecLock : Bool := false
  lfault : Bool := false
  rfault : Bool := false
  up : Bool := false
  upHold : Bool := false
  downHold : Bool := false
  turned : Bool := false
  txOpen : Bool := false
  rxKb : Nat := 0
  txKb : Nat := 0
  deriving DecidableEq, Repr

/-- The line port complex (spec/17). -/
structure Lpx where
  port : SMap LinkSt := []
  lost : List Nat := []
  tail : List Nat := []
  deriving DecidableEq, Repr

/-- A received frame on its way to its landing queue (spec/04 R103 to R106). -/
structure Frame where
  handle : Nat
  len : Nat
  port : Nat
  arr : Nat
  mirror : Option Nat
  deriving DecidableEq, Repr

/-- A frame in a parse engine with the outcome of its parse; turn: its place in the order in which the engines of the die took their frames (R105, R113, R457). -/
structure Parsing where
  frame : Frame
  vec : List Byte
  cross : Bool
  turn : Nat := 0
  deriving DecidableEq, Repr

/-- The parse engines of the dies (spec/04). -/
structure Prs where
  arr : SMap Nat := []
  queue : SMap (List Frame) := []
  eng : SMap Parsing := []
  deriving DecidableEq, Repr

/-- What the classifier decided for a frame (R117, R120 to R127). -/
structure Decision where
  rule : Nat
  hit : Bool
  dflt : Bool
  kind : Nat
  ready : Nat
  entry : Nat
  queue : Nat
  domain : Nat
  edit : Nat
  actdata : Nat
  action : BitVec 128
  flow : Nat
  fallback : Bool
  deriving DecidableEq, Repr

/-- A frame whose flow is decided and that waits for its sequence number (R106, R128, R129). -/
structure CFrame where
  frame : Frame
  vec : List Byte
  dec : Decision
  fragd : Bool
  l2res : Word
  lpmres : Word
  flowres : Word
  fetching : Bool
  robWait : Bool
  after : Nat
  sub : Nat
  deriving DecidableEq, Repr

/-- A fragment table entry (R122 to R126); dec is none while it is pending. -/
structure Frag where
  digest : Nat
  fragId : Nat
  proto : Nat
  dec : Option Decision
  tick : Nat
  held : List (Frame × List Byte)
  deriving DecidableEq, Repr

/-- A frame whose TCAM search is done and whose lookups wait for a restarting FWT (R457): the rule that matched. -/
structure Late where
  frame : Frame
  vec : List Byte
  rule : Option (Nat × BitVec 128)
  deriving DecidableEq, Repr

/-- The classifier and fragment table (spec/04). -/
structure Cls where
  wait : SMap (List CFrame) := []
  late : SMap (List Late) := []
  frag : SMap Frag := []
  tcam : SMap Word := []
  deriving DecidableEq, Repr

/-- An L2 entry (spec/05 R137) with its move window and pin ticks (R150). -/
structure L2Ent where
  word : BitVec 128
  winTick : Nat
  pinTick : Nat
  deriving DecidableEq, Repr

/-- A flow-key entry (R139). -/
structure FlowEnt where
  profile : Nat
  key : List Byte
  isStatic : Bool
  act : Bool
  data : BitVec 24
  ctx : Nat
  deriving DecidableEq, Repr

/-- A flow context (R141, R143). -/
structure FCtx where
  nextSeq : Nat := 0
  rsqNext : Nat := 0
  refs : Nat := 0
  quar : Bool := false
  user : List Byte := []
  deriving DecidableEq, Repr

/-- An LPM entry (R157). -/
structure LpmEnt where
  key : BitVec 160 := 0
  result : Word := 0
  deriving DecidableEq, Repr

/-- A request in a learn queue (R146, R153). -/
inductive LearnReq
  | insert (slot : Nat) (domain : BitVec 12) (mac : BitVec 48) (port : BitVec 5)
  | move (domain : BitVec 12) (mac : BitVec 48) (port : BitVec 5)
  | notice (n : Notice)
  deriving DecidableEq, Repr

/-- The forwarding tables (spec/05); bound: the hardware context bound as the fallback flow of an excluded die's port (R473); flight: learn notices on their way, each with its receiving die (R153); ripple: dies whose LPM insert was interrupted (R160); fetch: the contexts being fetched into the flow cache of their die (R144). -/
structure Fwt where
  l2 : SMap L2Ent := []
  flow : SMap FlowEnt := []
  lpm : SMap LpmEnt := []
  ctx : SMap FCtx := []
  cache : SMap (List Nat) := []
  learnq : SMap (List LearnReq) := []
  agePos : SMap Nat := []
  bound : SMap Nat := []
  flight : List (Nat × Notice) := []
  ripple : List Nat := []
  fetch : List (Nat × Nat) := []
  deriving DecidableEq, Repr

/-- A share table entry (spec/06 R180). -/
structure Share where
  refs : Nat
  closer : BitVec 16
  deriving DecidableEq, Repr

/-- The buffer pool manager (spec/06); bad: 8-byte quay words with an uncorrectable error (R462). -/
structure Bpm where
  quay : Mem := []
  bad : List Nat := []
  alloc : SMap Bool := []
  head : SMap Nat := []
  quar : List Nat := []
  baseHeld : SMap Nat := []
  low : SMap Nat := []
  share : SMap Share := []
  deriving DecidableEq, Repr

/-- A released frame on its way to admission on its owning die (R185, R245, R246); hand: the handoff that brings it; src: the handoff whose copy, already taken, it is (R471); arr: its arrival number (R476). -/
structure Admit where
  die : Nat
  hand : Option Nat
  q : Nat
  handle : Nat
  len : Nat
  edit : Nat
  flow : Nat
  force : Bool
  flood : Bool
  mirror : Option Nat
  tick : Nat := 0
  arr : Nat := 0
  src : Option Nat := none
  deriving DecidableEq, Repr

/-- Quay and admission (spec/06). -/
structure Qba where
  lq : SMap LQ := []
  admitQ : List Admit := []
  nextId : Nat := 0
  deriving DecidableEq, Repr

/-- State of a segment that is not free (spec/07 R202, R206); closing: closed and not every write acknowledged. -/
inductive SegSt | opened | closing | written
  deriving DecidableEq, Repr

/-- A segment record and what the SSC keeps of it (R202, R206, R208): aged says that the last of its frames left it by age. -/
structure Seg where
  st : SegSt
  smask : Nat
  q : Nat
  frames : Nat
  left : Nat
  fill : Nat
  lastTick : Nat
  firstTick : Nat
  owner : Nat
  aged : Bool := false
  deriving DecidableEq, Repr

/-- What a request at a stack moves (R210): a chunk, pieces of a chunk read to rebuild another's, a record, a flow context, trace records, a scrubbed piece, a unit copied to its spare (R221). -/
inductive ReqWhat
  | chunk (seg member : Nat)
  | parity (seg member : Nat)
  | record (seg : Nat)
  | ctx (die idx : Nat)
  | spill (idx : Nat)
  | scrub (piece : Nat)
  | unit (unit : Nat)
  deriving DecidableEq, Repr

/-- A request pending at a stack (R210 to R214): pseudo-channels still to serve, local time of issue and target in ns, deadline of a P0 read. -/
structure HbmReq where
  id : Nat
  die : Nat
  port : Nat
  write : Bool
  what : ReqWhat
  mask : Nat
  issued : Nat
  target : Nat
  deadline : Option Nat
  late : Bool
  raw : Bool
  deriving DecidableEq, Repr

/-- A rebuild (R225): whether it waits, the segment it fills, the old segment whose reads it has issued. -/
structure Rebuild where
  wait : Bool
  seg : Option Nat
  reads : Option Nat := none
  deriving DecidableEq, Repr

/-- The staging store and its controllers (spec/07): data space of the segments, parity of each segment (the accumulator while it is open, the parity chunk once it is closed, R206), segments that are not free, the two copies of each record (R202), packing slots (die, segment), pieces with an uncorrectable error (die, piece). -/
structure Ssc where
  data : Mem := []
  par : Mem := []
  recs : SMap (List Byte) := []
  seg : SMap Seg := []
  slots : List (Nat × Nat) := []
  borrowed : List (Nat × Nat) := []
  req : List HbmReq := []
  nextReq : Nat := 0
  now : Nat := 0
  rows : SMap Nat := []
  credit : SMap Nat := []
  smask : Nat := 0
  lost : Nat := 0
  begun : Bool := false
  busy : Bool := false
  rebuild : Option Rebuild := none
  remap : List (Nat × Nat) := []
  bad : List (Nat × Nat) := []
  deriving DecidableEq, Repr

/-- States of a reorder buffer entry other than FREE (spec/08 R234). -/
inductive RobSt | pending | emitted | retired | hosted | skipped
  deriving DecidableEq, Repr

/-- A reorder buffer entry (R233, R234, R254). -/
structure Rob where
  st : RobSt
  seq : Nat
  flow : Nat
  frame : Frame
  dest : Word
  edit : Nat
  force : Bool
  reason : Nat
  code : Nat
  rule : Nat
  profile : Nat
  pflags : Word
  deriving DecidableEq, Repr

/-- A handoff that is not yet acknowledged (R245): copied says that the owning die has taken it; flood: it is the part of a flood on one die, the ingress die itself where copies wait there for the ingress buffer (R246); arr: the arrival number of its frame; force: STAGE of its release (R318). -/
structure Hand where
  id : Nat
  src : Nat
  dst : Nat
  handle : Nat
  mirror : Option Nat
  copied : Bool
  flood : Bool := false
  arr : Nat := 0
  force : Bool := false
  deriving DecidableEq, Repr

/-- The resequencer (spec/08); gapWas: the tick of the last write of a die's GAP_TICKS and the value before it (R255). -/
structure Rsq where
  rob : SMap Rob := []
  gap : SMap Nat := []
  gapWas : SMap (Nat × Nat) := []
  hand : List Hand := []
  pdHeld : SMap Word := []
  deriving DecidableEq, Repr

/-- Thread states (spec/09 R265). -/
inductive ThSt | idle | twait | run | helper | sync | halted | faulted | stopped
  deriving DecidableEq, Repr

/-- Codes of R265. -/
def ThSt.code : ThSt → Nat
  | .idle => 0
  | .twait => 1
  | .run => 2
  | .helper => 3
  | .sync => 4
  | .halted => 5
  | .faulted => 6
  | .stopped => 7

/-- What a thread in SYNC waits for (R352, R356, R360). -/
inductive WaitOn
  | lock (l : Nat)
  | event (e : Nat)
  | channel (c : Nat)
  deriving DecidableEq, Repr

/-- An LKP or LRN with its operands as read at issue (R299, R316): K, 0 for an LRN. -/
structure LkpReq where
  k : Nat
  a : DWord
  b : DWord
  c : DWord
  key : List Byte
  deriving DecidableEq, Repr

/-- What the reply is about: what a discarded reply must undo (R277), which requests a restart of the TDX or the SYU fails (R276, R341), and which replies are not ready yet: LKP and LRN during an FWT restart (R276), a remote TPOST (R325). -/
inductive PendKind
  | other
  | balloc (handle : Nat)
  | grant (lock : Nat)
  | message (channel : Nat) (words : List DWord)
  | tdx
  | syu
  | tdefer (ticket : Nat)
  | fwt (q : LkpReq)
  | remote (id : Nat)
  deriving DecidableEq, Repr

/-- An outstanding request and the reply it will get (R262, R276, R277): err is the error code, 0 for none; arrived: an error that came while the thread was halted (R291). -/
structure Pend where
  rd : Nat
  value : DWord
  err : Nat
  u : Bool
  kind : PendKind
  arrived : Bool
  deriving DecidableEq, Repr

/-- What a thread holds and what is held for it (R258, R259, R265). was: the state held before a halt; step: 0 no step, 1 a step is to issue, 2 a step has issued (R293); slots: slots counted toward MAX_SLOTS, helped: slots in HELPER, whose number the model does not keep, have been counted too (R279); since, waited: the same for the slot count of R25; hadFault: it has faulted since its last start (R288). -/
structure Thr where
  g : SMap DWord := []
  pc : Nat := 0
  st : ThSt := .idle
  was : ThSt := .idle
  step : Nat := 0
  ticket : Option Nat := none
  task : Bool := false
  list : Nat := 0
  mask : DWord := 0
  pend : Option Pend := none
  wait : Option WaitOn := none
  rd : Nat := 0
  staged : List DWord := []
  stagedCh : Nat := 0
  slots : Nat := 0
  helped : Bool := false
  since : Nat := 0
  waited : Bool := false
  hadFault : Bool := false
  deriving DecidableEq, Repr

/-- A fault record (R281) with its cluster-local thread. -/
structure FaultRec where
  thread : Nat
  bits : BitVec 128
  deriving DecidableEq, Repr

/-- The cores and their stores (spec/09); esc: threads whose records the Pilot received and has not yet restarted (R283); waitMark: clusters of which a thread has been in HELPER or SYNC since CRA_SLOTS was last read (R296); late: table requests, with their die, that wait for the FWT and whose thread waits no more (R277). -/
structure Cra where
  thr : SMap Thr := []
  ps : SMap Word := []
  psBad : List Nat := []
  pad : Mem := []
  padBad : List Nat := []
  faultQ : SMap (List FaultRec) := []
  esc : List Nat := []
  slotRem : SMap Nat := []
  waitMark : List Nat := []
  late : List (Nat × LkpReq) := []
  deriving DecidableEq, Repr

/-- A task (spec/11 R322): held until its affinity wait ends (R332), and the slots it has been ready. -/
structure Task where
  args : List DWord
  entry : Nat
  list : Nat
  key : DWord
  ticket : Option Nat
  held : Option Nat
  waited : Bool
  deriving DecidableEq, Repr

/-- A delayed task (R335, R336). -/
structure DTask where
  e : Nat
  task : Task
  deriving DecidableEq, Repr

/-- A remote TPOST on its way (R325): its number, the posting thread's package number. -/
structure Flight where
  id : Nat
  src : Nat
  dst : Nat
  delay : Nat
  task : Task
  deriving DecidableEq, Repr

/-- Trace state of a die that no register shows (R345, R346). -/
structure Trc where
  lost : Nat := 0
  post : Option Nat := none
  nextSpill : Nat := 0
  count : Nat := 0
  deriving DecidableEq, Repr

/-- The task dispatcher (spec/11). -/
structure Tdx where
  ready : SMap (List Task) := []
  delay : SMap (List DTask) := []
  aff : SMap (Nat × Nat) := []
  rr : SMap Nat := []
  ring : SMap (BitVec 128) := []
  spill : SMap (BitVec 128) := []
  trc : SMap Trc := []
  flight : List Flight := []
  nextId : Nat := 0
  deriving DecidableEq, Repr

/-- A lock (spec/12 R351). -/
structure Lock where
  holder : Option Nat := none
  abandoned : Bool := false
  waiters : List Nat := []
  deriving DecidableEq, Repr

/-- An event (R356). -/
structure Ev where
  count : Nat := 0
  waiters : List Nat := []
  deriving DecidableEq, Repr

/-- A channel (R358 to R360). -/
structure Chan where
  msgs : List (List DWord) := []
  waiters : List Nat := []
  deriving DecidableEq, Repr

/-- The watch of a cluster (R364): report sequence number, and whether the present condition has been reported. -/
structure Watch where
  seq : Nat := 0
  reported : Bool := false
  deriving DecidableEq, Repr

/-- The synchronisation unit (spec/12). lock lists the locks that differ from a free lock whose mark is that of marked, the dies whose unlisted locks are abandoned since a warm reset or a unit restart (R366). -/
structure Syu where
  lock : SMap Lock := []
  marked : List Nat := []
  ev : SMap Ev := []
  ch : SMap Chan := []
  watch : SMap Watch := []
  deriving DecidableEq, Repr

/-- Status codes of R378. -/
inductive Status
  | ok | alreadyDone | aborted | busy | stale | badaddr | denied | noroom | badseq | mode | auth
  deriving DecidableEq, Repr

/-- Codes of R378. -/
def Status.code : Status → Nat
  | .ok => 0
  | .alreadyDone => 1
  | .aborted => 2
  | .busy => 3
  | .stale => 4
  | .badaddr => 5
  | .denied => 6
  | .noroom => 7
  | .badseq => 8
  | .mode => 9
  | .auth => 10

/-- The result of a command in a frame (R376). -/
structure GwResult where
  opcode : Nat
  tag : BitVec 16
  status : Status
  data : List Byte
  deriving DecidableEq, Repr

/-- The form in which a Gangway frame leaves (R372): GWE_ENCAP.MODE, the EtherType, and for a UDP datagram the device's and the peer's port and address. -/
structure GwForm where
  encap : Nat
  etype : Nat
  port : Nat := 0
  addr : Nat := 0
  peerPort : Nat := 0
  peer : Nat := 0
  deriving DecidableEq, Repr

/-- The SecTAG of a protected frame, and under XPN the device's SSCI (R373). -/
structure SecTag where
  sci : Nat
  an : Nat
  pn : Nat
  ssci : Option Nat
  deriving DecidableEq, Repr

/-- A frame that the device sent on the host port (R375): type, session or 0, sequence field, COUNT, status, results, or records or frame bytes, protection, form, destination address; and what its sending settled: attachment B (R371), SecTAG (R373), the frame's bytes from the destination address on, before protection and without the FCS. -/
structure GwTx where
  typ : Nat
  session : Nat
  seq : Nat
  count : Nat
  status : Status
  results : List GwResult
  body : List Byte
  prot : Bool
  form : GwForm
  dst : BitVec 48
  attB : Bool := false
  tag : Option SecTag := none
  wire : List Byte := []
  deriving DecidableEq, Repr

/-- A cached reply (R381): sequence number, whether the frame began with OPEN, the reply. -/
structure Cached where
  seq : Nat
  opened : Bool
  reply : GwTx
  deriving DecidableEq, Repr

/-- A session (R380, R381, R389). -/
structure Sess where
  opened : Bool := false
  evt : Bool := false
  kept : Bool := false
  h : Nat := 0
  cache : List Cached := []
  space : Nat := 0
  unit : Nat := 4
  off : Nat := 0
  deriving DecidableEq, Repr

/-- An event record (R402): arguments as 32-bit words; whether it has been sent. -/
structure EvRec where
  eseq : Nat
  code : Nat
  die : Nat
  gen : Nat
  xing : Nat
  step : Nat
  args : List Nat
  sent : Bool
  deriving DecidableEq, Repr

/-- An exception frame that waits (R254, R405). -/
structure Exc where
  die : Nat
  handle : Nat
  mirror : Option Nat
  info : List Byte
  arr : Nat := 0
  deriving DecidableEq, Repr

/-- The sending side of the association that was in force before a rekey: it protects the reply to a repetition of the CLAIM (R385). -/
structure PriorTx where
  keys : List Byte
  xpn : Bool
  an : Nat
  pn : Nat
  deriving DecidableEq, Repr

/-- The MACsec associations (R373, R385, R386): keys, XPN, association number, the last packet number sent, the next one expected, and the association number and expectation of the previous association while it is still accepted; the host's SCI under each; prior: what the previous one still sends, while it is accepted. -/
structure Assoc where
  keys : List Byte
  xpn : Bool
  an : Nat
  pn : Nat
  rxNext : Nat
  old : Option (Nat × Nat)
  sci : Nat := 0
  oldSci : Nat := 0
  prior : Option PriorTx := none
  deriving DecidableEq, Repr

/-- The Gangway engine (spec/13); hostUdp: address and port from which the host last sent its UDP datagrams (R372; log 77); kr4A, kr4B: the mode each attachment negotiated (R371); evSent: ESEQ of the last record sent (R403); answers: the ARP requests and neighbour solicitations answered (R372); heard: the last verified frame met the watchdog's expiry in its cycle (R407). -/
structure Gwe where
  sess : List Sess := [{}, {}, {}, {}]
  evq : List EvRec := []
  evNext : Nat := 0
  evLost : Nat := 0
  excq : List Exc := []
  excCnt : Nat := 0
  owner : Option (List Byte) := none
  ukey : List Byte := []
  assoc : Option Assoc := none
  hostMac : BitVec 48 := 0
  hostUdp : Option (Nat × Nat) := none
  dnonce : Option (List Byte) := none
  draws : Nat := 0
  heard : Bool := false
  lastClaim : Option (ClaimArgs × List Byte) := none
  active : Bool := false
  linkA : Bool := false
  linkB : Bool := false
  kr4A : Bool := false
  kr4B : Bool := false
  evSent : Option Nat := none
  answers : List (Bool × BitVec 128) := []
  results : List GwResult := []
  tx : List GwTx := []
  held : List GwFrame := []
  deriving DecidableEq, Repr

/-- Kinds of long operation (R393, R394). -/
inductive OpKind
  | fill (a : LongArgs)
  | crc (a : LongArgs)
  | tblClear (a : LongArgs)
  | patch
  deriving DecidableEq, Repr

/-- A completion record and its operation (R394, R416); mark: where a TBL_CLEAR goes on; acc: the partial CRC. -/
structure OpRec where
  opid : Nat
  ended : Bool
  status : Status
  kind : OpKind
  progress : Nat
  result : Nat
  xing : Nat
  step : Nat
  mark : Nat
  acc : Nat
  deriving DecidableEq, Repr

/-- The Pilots and the microcode store (spec/14); overlay: the overlay RAM of the Pilots by 4-byte words, the same on every die (R425); leadMove: the old lead while a takeover is due (R416); vendor: the vendor words that a patch has written; patchKey: the microcode signing key that was enrolled when the running patch operation began (R429); lastPver: one more than the highest PVER of an applied vendor container, 0 before any; custDigest: the digest expected of the customer region once a signing key has been enrolled (R423, R429). -/
structure Plt where
  mcs : SMap (BitVec 128) := []
  mcsBad : List (Nat × Nat) := []
  mcsHeld : SMap Word := []
  overlay : SMap Word := []
  vendor : List Nat := []
  lead : Nat := 0
  leadMove : Option Nat := none
  ops : List (Option OpRec) := List.replicate 16 none
  nextOpid : Nat := 0
  patchTotal : Nat := 0
  patchBuf : SMap Byte := []
  patchLast : Bool := false
  verified : Bool := false
  patchKey : Option (List Byte) := none
  lastPver : Nat := 0
  custDigest : Option (List Byte) := none
  deriving DecidableEq, Repr

/-- A die link (spec/16 R478): its lanes lost and its spares used; the state it reports follows from them. -/
structure DieLink where
  lost : Nat := 0
  spares : Nat := 0
  deriving DecidableEq, Repr

/-- Integrity, containment and the package fabric (spec/16). excl: the excluded dies as a mask; unit: the units in a restart; sinceBeat: frames received on a die's ports since its last heartbeat (R471). -/
structure Icu where
  excl : Nat := 0
  link : SMap DieLink := []
  stuck : List (Nat × Nat) := []
  restoring : List (Nat × Nat) := []
  staticBad : List (Nat × Nat) := []
  passUe : List (Nat × Nat) := []
  unit : List (Nat × Nat) := []
  sinceBeat : SMap Nat := []
  deriving DecidableEq, Repr

/-- The instructions of the test access port (spec/18 R520). -/
inductive TapIns | idcode | bypass | sample | extest | clamp | highz | extestPulse | extestTrain
  deriving DecidableEq, Repr

/-- What the package as a whole holds (spec/15, spec/18); shift: the TAP is in the Shift-DR or Shift-IR state (R508, R519). -/
structure Glb where
  mode : Mode := .reset
  ageCnt : Nat := 0
  wdogMoored : Bool := false
  drainedSent : Bool := false
  warm : Option Nat := none
  ordered : Option Nat := none
  lostQuay : Nat := 0
  lostFlight : Nat := 0
  started : Bool := false
  rstLow : Bool := false
  supplyBad : Bool := false
  clkA : Bool := true
  clkB : Bool := true
  clocksLost : Bool := false
  ir : BitVec 8 := 0x01
  dr : Option Word := none
  shift : Bool := false
  tripPin : Bool := false
  warned : List Nat := []
  temps : SMap Int := []
  deriving DecidableEq, Repr

/-- A frame sent on a line port (spec/17 R494). -/
structure LineTx where
  port : Nat
  bytes : List Byte
  deriving DecidableEq, Repr

end Sys2Proof.Machine
end

