-- ==== Sys2Proof/Machine/State.lean ====
section
/-! DEFINITION. The state of the block, plain data, and the state after reset. -/

namespace Sys2Proof.Machine

/-- Why the model stops: it never does, no rule of the spec stops the block, so there is no constructor. -/
inductive Fault
  deriving DecidableEq, Repr

/-- Why a command has no meaning in the model. -/
inductive Refusal
  /-- Raised by an arm of exec whose command is not modelled. Safe: no step is taken. -/
  | notModelled (mnemonic : String)
  deriving DecidableEq, Repr

/-- The state of the block: one field for each group of units, the register words by address, the model's records of what left on the lines, the counter of free values (log 6), and the queue of commands that wait, first in, first out. -/
structure State where
  part : Part
  regs : SMap Word
  glb : Glb
  phi : Phi
  cte : Cte
  lpx : Lpx
  prs : Prs
  cls : Cls
  fwt : Fwt
  bpm : Bpm
  qba : Qba
  ssc : Ssc
  rsq : Rsq
  cra : Cra
  tdx : Tdx
  syu : Syu
  gwe : Gwe
  plt : Plt
  icu : Icu
  lineTx : List LineTx
  free : Nat
  pending : List Instr
  deriving DecidableEq, Repr

/-- The block right after reset: an HX1680 (log 1) in RESET with every register at its reset value and no command waiting (R435, R439, R451). Reset values of registers are those of Reg.resetWord, which an address without an entry reads as; the words of GLB_PART, DIE_ID and the factory address, PLT_ROM and GLB_RESET_CAUSE are read through the part, the fuses, the ROM and the cause (R461, R532; logs 1, 2, 3). -/
def State.reset : State where
  part := .hx1680
  regs := [(0x104, 1)]
  glb := { dr := some 0x11680D57 }
  phi := {}
  cte := {}
  lpx := {}
  prs := {}
  cls := {}
  fwt := {}
  bpm := {}
  qba := {}
  ssc := {}
  rsq := {}
  cra := {}
  tdx := {}
  syu := {}
  gwe := {}
  plt := {}
  icu := {}
  lineTx := []
  free := 0
  pending := []

end Sys2Proof.Machine
end

