-- ==== Sys2Proof/Machine/Ops.lean ====
section
/-! DEFINITION. The shared operations: stored register words, generations, counters, events, dies, ticks and ages. -/

namespace Sys2Proof.Machine

open Host (Outcome)

/-- Outcome of a step. -/
abbrev Res := Outcome State Fault Refusal

/-- Dies of the part (R1). -/
def State.dies (s : State) : Nat := s.part.dies

/-- A happening on a die: one that names a die which the part lacks does not occur, so the state stays (R1, R3; log 26). -/
def onDie (s : State) (d : Nat) (t : State) : Res := .next (if d < s.dies then t else s)

/-- The partner of a die (R4, R30). -/
def partner (d : Nat) : Nat := Nat.xor d 1

/-- A die is excluded (R471). -/
def State.excluded (s : State) (d : Nat) : Bool := nbit s.icu.excl d

/-- Present dies, ascending. -/
def State.allDies (s : State) : List Nat := List.range s.dies

/-- Present dies that are not excluded, ascending. -/
def State.liveDies (s : State) : List Nat := (List.range s.dies).filter (fun d => !s.excluded d)

/-- The die that serves a die's banks, island and queues: itself, or its partner when it is excluded (R33, R471). -/
def State.server (s : State) (d : Nat) : Nat := if s.excluded d then partner d else d

/-- The stored word of a register. -/
def State.reg (s : State) (r : Reg) (d : Nat) (idx : List Nat) : Word :=
  mget (r.resetWord idx) s.regs (r.addr d idx)

/-- A store of a register's word. -/
def State.setReg (s : State) (r : Reg) (d : Nat) (idx : List Nat) (w : Word) : State :=
  { s with regs := mset (r.resetWord idx) s.regs (r.addr d idx) w }

/-- A field of a stored register. -/
def State.rf (s : State) (r : Reg) (d : Nat) (idx : List Nat) (hi lo : Nat) : Nat := fld (s.reg r d idx) hi lo

/-- A store of one field of a register. -/
def State.setRf (s : State) (r : Reg) (d : Nat) (idx : List Nat) (hi lo v : Nat) : State :=
  s.setReg r d idx (setFld (s.reg r d idx) hi lo v)

/-- The generation in bits [31:16] of a STATE register (R401). -/
def State.gen (s : State) (r : Reg) (d : Nat) : Nat := s.rf r d [] 31 16

/-- A change of generation (R401). -/
def State.bumpGen (s : State) (r : Reg) (d : Nat) : State := s.setRf r d [] 31 16 (s.gen r d + 1)

/-- An expected generation matches: equal, or 0xFFFF (R401). -/
def genOk (exp gen : Nat) : Bool := exp = 0xFFFF || exp = gen

/-- A counter field raised by n; it saturates (R100, R132, R133, R167 and the other register rules). DESIGN CHOICE: so do those for which the spec does not say what they do at their maximum, CTE_SWAP_CNT.LATE and DONE, CTE_PF_LATE_CNT and CTE_PF_WAIT_CNT among them (R101; log 82). -/
def State.bumpF (s : State) (r : Reg) (d : Nat) (idx : List Nat) (hi lo n : Nat) : State :=
  s.setRf r d idx hi lo (min (ones (hi + 1 - lo)) (s.rf r d idx hi lo + n))

/-- A 32-bit counter raised by n; it saturates. -/
def State.bumpN (s : State) (r : Reg) (d : Nat) (idx : List Nat) (n : Nat) : State := s.bumpF r d idx 31 0 n

/-- A 32-bit counter of a die raised by one. -/
def State.bump (s : State) (r : Reg) (d : Nat) (idx : List Nat := []) : State := s.bumpN r d idx 1

/-- A counter of a bounded width raised by n. -/
def satAdd (w x n : Nat) : Nat := min (ones w) (x + n)

/-- TICK_SHIFT (R43). -/
def State.tickShift (s : State) : Nat := s.rf .PHI_TICK 0 [] 4 0

/-- The tick count: the step count shifted right by TICK_SHIFT (R43). -/
def State.ticks (s : State) : Nat := s.phi.stepCnt / 2 ^ s.tickShift

/-- The 64-bit step count of a die (R43). -/
def State.cntOn (s : State) (d : Nat) : Nat := (((s.phi.stepCnt : Int) + mget 0 s.phi.cnt d) % 2 ^ 64).toNat

/-- The tick count of a die (R43). -/
def State.ticksOn (s : State) (d : Nat) : Nat := s.cntOn d / 2 ^ s.tickShift

/-- PHI_XLEN (R54, R61). -/
def State.xlen (s : State) : Nat := s.rf .PHI_XLEN 0 [] 24 0

/-- The phase of a die counted in steps from step 0 of the present crossing: negative for a die that is still in the crossing before (R44). -/
def State.stepsOn (s : State) (d : Nat) : Int := (s.phi.step : Int) + mget 0 s.phi.off d

/-- The crossing number that a die holds (R44). -/
def State.xingOn (s : State) (d : Nat) : Nat :=
  if mget 0 s.phi.off d = 0 then s.phi.xing else (((s.phi.xing : Int) + s.stepsOn d / (s.xlen : Int)) % 2 ^ 32).toNat

/-- The step number that a die holds (R44). -/
def State.stepOn (s : State) (d : Nat) : Nat :=
  if mget 0 s.phi.off d = 0 then s.phi.step else (s.stepsOn d % (s.xlen : Int)).toNat

/-- Bits [31:0] of the age count (R446). -/
def State.age32 (s : State) : Nat := s.glb.ageCnt % 2 ^ 32

/-- An event record joins the queue, stamped with the phase at a die, for 0xFF that of the receiver die (R415), or is dropped and counted when the queue is full (R402, R403). -/
def State.queueEv (s : State) (at_ code die gen : Nat) (args : List Nat) : State :=
  if s.gwe.evq.length < 4096 then
    let r : EvRec := { eseq := s.gwe.evNext, code := code, die := die, gen := gen, xing := s.xingOn at_, step := s.stepOn at_, args := args, sent := false }
    { s with gwe := { s.gwe with evq := s.gwe.evq ++ [r], evNext := (s.gwe.evNext + 1) % 2 ^ 32 } }
  else
    let t := s.bump .GWE_EVT_LOST 0
    { t with gwe := { t.gwe with evLost := t.gwe.evLost + 1 } }

/-- An event is reported by the Pilot of a die; when records were lost before it, EV_EVT_LOST (0x8105) is queued first with their number (R403, R415). -/
def State.raiseAt (s : State) (at_ code die gen : Nat) (args : List Nat) : State :=
  if s.gwe.evLost = 0 ∨ 4096 ≤ s.gwe.evq.length then s.queueEv at_ code die gen args
  else
    let n := s.gwe.evLost
    let t := { s with gwe := { s.gwe with evLost := 0 } }
    (t.queueEv 0xFF 0x8105 0xFF (t.gen .GWE_STATE 0) [n]).queueEv at_ code die gen args

/-- An event of a die, or of the package. -/
def State.raiseEv (s : State) (code die gen : Nat) (args : List Nat) : State := s.raiseAt die code die gen args

/-- The package events have 0xFF in their DIE field (R402). -/
def pkg : Nat := 0xFF

/-- A 64-bit argument of an event as two words. -/
def w64 (v : Nat) : List Nat := [v / 2 ^ 32 % 2 ^ 32, v % 2 ^ 32]

/-- A free value and the state that has used it (log 6). -/
def State.takeFree (s : State) : BitVec 64 × State := (Config.freeWord s.free, { s with free := s.free + 1 })

/-- A list of dies acted on in turn. -/
def overDies (f : Nat → State → State) (l : List Nat) (s : State) : State := l.foldl (fun t d => f d t) s

/-- Ingress of a package port is closed (R441, R442, R444, R445). -/
def State.ingressClosed (s : State) (p : Nat) : Bool := s.glb.mode ≠ .run || bit (s.reg .GLB_INGRESS 0 []) p

/-- The ports at which a frame that began before the closing may still arrive: those that have closed since a former state, and those at which it had not come yet (R437; log 75). -/
def State.closeTails (before s : State) : State :=
  { s with lpx := { s.lpx with tail := (List.range 32).filter (fun p => s.ingressClosed p && (!before.ingressClosed p || s.lpx.tail.contains p)) } }

/-- A change of the package mode: GLB_MODE records the previous mode and the cause, its generation increments, EV_MODE is queued (R438, R460). -/
def State.setMode (s : State) (m : Mode) (cause : Nat) : State :=
  let old := s.glb.mode
  let t := State.closeTails s { s with glb := { s.glb with mode := m, drainedSent := false, wdogMoored := false } }
  let t := (t.setRf .GLB_MODE 0 [] 10 8 old.code).setRf .GLB_MODE 0 [] 7 4 cause
  let t := t.bumpGen .GLB_MODE 0
  t.raiseEv 0x8001 pkg (t.gen .GLB_MODE 0) [old.code, m.code, cause]

/-- Modes in which threads run (R260). -/
def Mode.threads (m : Mode) : Bool := m == .run || m == .drain || m == .moored

/-- The claimed modes, "Any" of R387. -/
def Mode.any (m : Mode) : Bool := m == .provision || m.threads

/-- The column for RESET of R508: unpowered, held in RESET or in the RESET of a cold reset, not in that of a warm one. -/
def State.pinsReset (s : State) : Bool := decide (s.glb.mode = .reset) && s.glb.warm.isNone

/-- The answer of a host write: its status and the state. -/
abbrev Ans := Status × State

/-- A register write by the host, as a row of its own: its status is the result (R376, R388). -/
def wrResult (a : Ans) : State :=
  { a.2 with gwe := { a.2.gwe with results := [{ opcode := 0x11, tag := 0, status := a.1, data := [] }] } }

/-- A host write to a register of a die block: the claimed modes accept it (R387); a die that the part lacks, and an excluded die unless the register is port-scoped, refuse it (R469, R527). -/
def hostDieWr (s : State) (d : Nat) (portScoped : Bool) (f : State → Ans) : Res :=
  .next (wrResult
    (if ¬ s.glb.mode.any then (.mode, s)
     else if s.dies ≤ d ∨ (s.excluded d ∧ ¬ portScoped) then (.badaddr, s)
     else f s))

/-- A host write to a package register: the claimed modes accept it (R387). -/
def hostWr (s : State) (f : State → Ans) : Res :=
  .next (wrResult (if s.glb.mode.any then f s else (.mode, s)))

/-- A unit of a die is restarting (R457). -/
def State.unitDown (s : State) (d u : Nat) : Bool := decide ((d, u) ∈ s.icu.unit)

/-- Modes in which the data path runs with windows (R72). -/
def Mode.departs (m : Mode) : Bool := m == .run || m == .drain

end Sys2Proof.Machine
end

