-- ==== Sys2Proof/Machine/Bpm.lean ====
section
/-! DEFINITION. Buffer pools, handles, free lists, quarantine and shared buffers (spec/06 R168 to R184). -/

namespace Sys2Proof.Machine

/-- Bytes of a class (R168). -/
def classSize (c : Nat) : Nat := [256, 1152, 2304, 9472].getD c 0

/-- The smallest class that holds a frame of n bytes behind its header (R103); none above 9,344. -/
def classFor (n : Nat) : Option Nat :=
  if n ≤ 128 then some 0 else if n ≤ 1024 then some 1 else if n ≤ 2176 then some 2 else if n ≤ 9344 then some 3 else none

/-- The key of a quay byte: die and offset, as in space 0x04 (R390). -/
def quayKey (d off : Nat) : Nat := d * 0x2000000 + off

/-- A quay handle (R178). -/
def mkHandle (d c off : Nat) : Nat := 1 * 2 ^ 37 + d * 2 ^ 34 + c * 2 ^ 32 + off

/-- SPACE of a handle. -/
def hSpace (h : Nat) : Nat := bitsOf h 39 37
/-- DIE of a handle. -/
def hDie (h : Nat) : Nat := bitsOf h 36 34
/-- CLASS of a handle. -/
def hClass (h : Nat) : Nat := bitsOf h 33 32
/-- OFFSET of a handle. -/
def hOff (h : Nat) : Nat := bitsOf h 31 0
/-- The quay key of a handle's buffer. -/
def hKey (h : Nat) : Nat := quayKey (hDie h) (hOff h)

/-- Placed base of pool i in bytes (R169). -/
def State.poolBase (s : State) (d i : Nat) : Nat := s.rf .BPM_POOL_BASE d [i] 17 0 * 128
/-- Count of pool i. -/
def State.poolCount (s : State) (d i : Nat) : Nat := s.rf .BPM_POOL_CNT d [i] 15 0
/-- Pool i is quarantined (R175). -/
def State.quarantined (s : State) (d i : Nat) : Bool := decide (d * 8 + i ∈ s.bpm.quar)

/-- A buffer of pool i starts at this offset. -/
def State.inPool (s : State) (d i off : Nat) : Bool :=
  let b := s.poolBase d i
  let c := classSize (i % 4)
  decide (b ≤ off) && decide (off < b + s.poolCount d i * c) && decide ((off - b) % c = 0)

/-- The pool of a handle's buffer (R178). -/
def State.poolOf (s : State) (h : Nat) : Option Nat :=
  let c := hClass h
  if hSpace h = 1 ∧ hDie h < s.dies then
    if s.inPool (hDie h) c (hOff h) then some c
    else if s.inPool (hDie h) (4 + c) (hOff h) then some (4 + c) else none
  else none

/-- The bitmap bit of a handle's buffer (R174). -/
def State.allocated (s : State) (h : Nat) : Bool := mget false s.bpm.alloc (hKey h)

/-- Free buffers of pool i: those whose bit is clear. -/
def State.poolFree (s : State) (d i : Nat) : Nat :=
  s.poolCount d i - (mpick (fun k => k / 0x2000000 = d ∧ s.inPool d i (k % 0x2000000)) s.bpm.alloc).length

/-- F of R185: free bytes of the pools that are not quarantined. -/
def State.freeBytes (s : State) (d : Nat) : Nat :=
  (List.range 8).foldl (fun a i => if s.quarantined d i then a else a + s.poolFree d i * classSize (i % 4)) 0

/-- The quay bytes of a buffer from an offset on. -/
def State.quayBytes (s : State) (h o n : Nat) : List Byte := bytesAt s.bpm.quay (hKey h + o) n

/-- Quay words without those that lie wholly in n bytes from a key on: a whole word written is good again. -/
def clearWords (bad : List Nat) (key n : Nat) : List Nat := bad.filter (fun k => !(decide (key ≤ 8 * k) && decide (8 * k + 8 ≤ key + n)))

/-- Bytes written into a buffer from an offset on. -/
def State.putQuay (s : State) (h o : Nat) (l : List Byte) : State :=
  { s with bpm := { s.bpm with quay := putBytes s.bpm.quay (hKey h + o) l, bad := clearWords s.bpm.bad (hKey h + o) l.length } }

/-- A word of n bytes of a buffer from an offset on has an uncorrectable error (R462). -/
def State.quayBad (s : State) (h o n : Nat) : Bool := s.bpm.bad.any (fun k => decide (hKey h + o < 8 * k + 8) && decide (8 * k < hKey h + o + n))

/-- The link in the first 8 bytes of a free buffer (R174). -/
def State.link (s : State) (h : Nat) : Nat := natAt s.bpm.quay (hKey h) 8

/-- The head of a pool's free list; 0 for an empty list. -/
def State.poolHead (s : State) (d i : Nat) : Nat := mget 0 s.bpm.head (d * 8 + i)

/-- A new head of a pool's free list. -/
def State.setHead (s : State) (d i h : Nat) : State := { s with bpm := { s.bpm with head := mset 0 s.bpm.head (d * 8 + i) h } }

/-- A bitmap bit set or cleared. -/
def State.setAlloc (s : State) (h : Nat) (b : Bool) : State :=
  { s with bpm := { s.bpm with alloc := mset false s.bpm.alloc (hKey h) b } }

/-- A link of the free list: zero, or a handle of the same pool whose bit is clear (R175). -/
def State.linkGood (s : State) (d i l : Nat) : Bool :=
  l = 0 || (hDie l = d && decide (s.poolOf l = some i) && !s.allocated l)

/-- BPM_POOL_FREE.LOW: the lowest free count since its last read. -/
def State.noteLow (s : State) (d i : Nat) : State :=
  let f := s.poolFree d i
  let v := match mfind s.bpm.low (d * 8 + i) with
    | some x => min x f
    | none => f
  { s with bpm := { s.bpm with low := minsert (d * 8 + i) v s.bpm.low } }

/-- Quarantine of a pool with EV_POOL_REBUILD start (R175, R176). -/
def State.quarantine (s : State) (d i badLink : Nat) : State :=
  let t := { s with bpm := { s.bpm with quar := ladd (d * 8 + i) s.bpm.quar } }
  let t := (t.bumpGen .BPM_STATE d).bump .BPM_REBUILDS d
  t.raiseEv 0x0901 d (t.gen .BPM_STATE d) ([0, i] ++ w64 (badLink % 2 ^ 40) ++ [0])

/-- An allocation from the pool of class c in region r of a die (R171 to R175): the handle, or none with the failure counted. -/
def allocBuf (s : State) (d r c : Nat) : Option Nat × State :=
  let i := r * 4 + c
  let failed := s.bump .BPM_ALLOC_FAIL d [c]
  if s.quarantined d i then (none, failed.bump .BPM_QUAR_FAIL d)
  else
    let h := s.poolHead d i
    if s.poolCount d i = 0 ∨ h = 0 then (none, failed)
    else
      let l := bitsOf (s.link h) 39 0
      if s.allocated h ∨ ¬ s.linkGood d i l then (none, failed.quarantine d i l)
      else (some h, ((s.setHead d i l).setAlloc h true).noteLow d i)

/-- A buffer goes back to its pool: its bit clears, and unless the pool is quarantined it is pushed on the head of the list (R174, R175). -/
def freeBuf (s : State) (h : Nat) : State :=
  match s.poolOf h with
  | none => s
  | some i =>
    let t := s.setAlloc h false
    let t : State := { t with bpm := { t.bpm with bad := clearWords t.bpm.bad (hKey h) (classSize (i % 4)) } }
    if s.quarantined (hDie h) i then t
    else (t.putQuay h 0 (beBytes 8 (s.poolHead (hDie h) i))).setHead (hDie h) i h

/-- The handles of a pool whose bit is clear, ascending. -/
def State.clearBuffers (s : State) (d i : Nat) : List Nat :=
  ((List.range (s.poolCount d i)).map (fun j => mkHandle d (i % 4) (s.poolBase d i + j * classSize (i % 4)))).filter (fun h => !s.allocated h)

/-- A free list threaded through buffers in their order (R174, R176). -/
def threadList (s : State) (d i : Nat) : List Nat → State
  | [] => s.setHead d i 0
  | h :: r => ((threadList s d i r).putQuay h 0 (beBytes 8 (r.headD 0))).setHead d i h

/-- The free list of a pool rebuilt from its bitmap, every link word written anew (R176). -/
def rebuildPool (s : State) (d i : Nat) : State :=
  let free := s.clearBuffers d i
  threadList { s with bpm := { s.bpm with bad := s.bpm.bad.filter (fun k => !free.any (fun h => decide (hKey h / 8 = k))) } } d i free

/-- Every buffer of a pool free, its list in ascending order (R169, R177). -/
def clearPool (s : State) (d i : Nat) : State :=
  let t := { s with bpm := { s.bpm with alloc := mdrop (fun k => k / 0x2000000 = d ∧ s.inPool d i (k % 0x2000000)) s.bpm.alloc, quar := s.bpm.quar.filter (fun q => q ≠ d * 8 + i) } }
  rebuildPool t d i

/-- The share table entry of a buffer (R180). -/
def State.shareOf (s : State) (h : Nat) : Option Share := mfind s.bpm.share (hKey h)

/-- Share table entries in use on a die. -/
def State.shareUsed (s : State) (d : Nat) : Nat := (mpick (fun k => k / 0x2000000 = d) s.bpm.share).length

/-- A share table entry written. -/
def State.setShare (s : State) (h : Nat) (x : Share) : State := { s with bpm := { s.bpm with share := minsert (hKey h) x s.bpm.share } }

/-- A share table entry released. -/
def State.dropShare (s : State) (h : Nat) : State := { s with bpm := { s.bpm with share := mremove (hKey h) s.bpm.share } }

/-- The closer value of a unit: 1 edit engines, 2 GWE, 3 CTE, 4 BPM (R180). -/
def unitCloser (u : Nat) : BitVec 16 := BitVec.ofNat 16 (0x4000 + u)
/-- The closer value of a die-local thread. -/
def threadCloser (n : Nat) : BitVec 16 := BitVec.ofNat 16 n
/-- The closer value of the host. -/
def hostCloser : BitVec 16 := 0x8000

/-- How a BFREE ends (R179, R182). -/
inductive FreeRes | done | bad | double | notCloser | early
  deriving DecidableEq, Repr

/-- BFREE of a handle by a party (R179, R182, R184): how it ends, and the state; a failure changes only its counter. -/
def bfree (s : State) (d h : Nat) (by_ : BitVec 16) : FreeRes × State :=
  if s.poolOf h = none ∨ hDie h ≠ d then (.bad, s.bump .BPM_BADHANDLE d)
  else if ¬ s.allocated h then (.double, s.bump .BPM_DOUBLE_FREE d)
  else match s.shareOf h with
    | none => (.done, freeBuf s h)
    | some x =>
      if x.closer = by_ then
        if x.refs ≤ 1 then (.done, freeBuf (s.dropShare h) h) else (.early, s)
      else if 2 ≤ x.refs then (.done, s.setShare h { x with refs := x.refs - 1 })
      else if x.closer = unitCloser 4 then (.done, (freeBuf (s.dropShare h) h).bump .BPM_ORPHAN_CLOSE d)
      else (.notCloser, s)

/-- A reference of a unit that is the closer is released; the last one frees the buffer (R183, R246). -/
def releaseShared (s : State) (h : Nat) : State :=
  match s.shareOf h with
  | none => freeBuf s h
  | some x => if x.refs ≤ 1 then freeBuf (s.dropShare h) h else s.setShare h { x with refs := x.refs - 1 }

/-- A mirror, if there is one, is freed (R192). -/
def freeMirror (s : State) : Option Nat → State
  | some m => freeBuf s m
  | none => s

/-- A frame's buffer and mirror are freed; a buffer already free stays free (R184, R192). -/
def freeBoth (s : State) (h : Nat) (m : Option Nat) : State := freeMirror (if s.allocated h then freeBuf s h else s) m

/-- First byte of the prefetch area of region r: it lies at the top SIZE × 32 KiB of the half (R168). -/
def areaStart (size r : Nat) : Nat := (r + 1) * 0xC00000 - size * 0x8000

/-- CTE_PF_AREA.SIZE (R94). -/
def State.pfSize (s : State) (d : Nat) : Nat := s.rf .CTE_PF_AREA d [] 6 0

/-- A placement of pool i passes the checks of R169. -/
def State.placeGood (s : State) (d i base cnt : Nat) : Bool :=
  let r := i / 4
  let e := base + cnt * classSize (i % 4)
  cnt = 0 || (decide (r * 0xC00000 ≤ base) && decide (e ≤ areaStart (s.pfSize d) r) &&
    (List.range 8).all (fun j =>
      let b := s.poolBase d j
      let f := b + s.poolCount d j * classSize (j % 4)
      j = i || s.poolCount d j = 0 || decide (e ≤ b) || decide (f ≤ base)))

/-- A write of BPM_POOL_BASE: held until BPM_POOL_CNT of the pool is written (R169, R195); RWP (R6). -/
def wrPoolBase (s : State) (d i : Nat) (w : Word) : Ans :=
  let v := fld w 17 0
  if s.glb.mode = .provision then (.ok, { s with bpm := { s.bpm with baseHeld := minsert (d * 8 + i) v s.bpm.baseHeld } })
  else if v = s.rf .BPM_POOL_BASE d [i] 17 0 then (.ok, s) else (.mode, s)

/-- A write of BPM_POOL_CNT: it commits the pool's placement, or fails with GW_BADADDR (R169, R195); RWP (R6). -/
def wrPoolCount (s : State) (d i : Nat) (w : Word) : Ans :=
  let v := fld w 15 0
  if s.glb.mode = .provision then
    let b := (mfind s.bpm.baseHeld (d * 8 + i)).getD (s.rf .BPM_POOL_BASE d [i] 17 0)
    if s.placeGood d i (b * 128) v then
      let t := clearPool s d i
      let t := { t with bpm := { t.bpm with baseHeld := mremove (d * 8 + i) t.bpm.baseHeld, low := mremove (d * 8 + i) t.bpm.low } }
      let t := (t.setRf .BPM_POOL_BASE d [i] 17 0 b).setRf .BPM_POOL_CNT d [i] 15 0 v
      (.ok, clearPool t d i)
    else (.badaddr, s)
  else if v = s.poolCount d i then (.ok, s) else (.mode, s)

/-- A write of CTE_PF_AREA: 1 to 64, and no pool may lie in the area (R94, R101, R169); RWP (R6). -/
def wrPfArea (s : State) (d : Nat) (w : Word) : Ans :=
  let v := fld w 6 0
  if v = 0 ∨ 64 < v then (.badaddr, s)
  else if s.glb.mode = .provision then
    if (List.range 8).any (fun i => s.poolCount d i ≠ 0 && decide (areaStart v (i / 4) < s.poolBase d i + s.poolCount d i * classSize (i % 4))) then (.badaddr, s)
    else (.ok, s.setRf .CTE_PF_AREA d [] 6 0 v)
  else if v = s.pfSize d then (.ok, s) else (.mode, s)

/-- A write of BPM_HOST_FREE_HI: a BFREE by the host of the handle that it and BPM_HOST_FREE_LO name (R183). -/
def wrHostFree (s : State) (d : Nat) (w : Word) : Ans :=
  let h := fld w 7 0 * 2 ^ 32 + (s.reg .BPM_HOST_FREE_LO d []).toNat
  match bfree s d h hostCloser with
  | (.done, t) => (.ok, t)
  | (.bad, _) => (.badaddr, s)
  | (.double, _) => (.badaddr, s)
  | (.notCloser, _) => (.denied, s)
  | (.early, _) => (.denied, s)

/-- POOL_BASE_WRITE (R169). -/
def execPoolBaseWrite (d : Fin 8) (i : Fin 8) (w : Word) (s : State) : Res :=
  hostDieWr s d false (fun s => wrPoolBase s d i w)

/-- POOL_COUNT_COMMIT (R169). -/
def execPoolCountCommit (d : Fin 8) (i : Fin 8) (w : Word) (s : State) : Res :=
  hostDieWr s d false (fun s => wrPoolCount s d i w)

/-- POOL_REBUILD_DONE: the rebuild of a quarantined pool completes (R176). -/
def execPoolRebuildDone (d : Fin 8) (i : Fin 8) (s : State) : Res :=
  onDie s d
    (if s.quarantined d i then
      let t := rebuildPool s d i
      let t := { t with bpm := { t.bpm with quar := lrem (d * 8 + i : Nat) t.bpm.quar } }
      let t := t.bumpGen .BPM_STATE d
      t.raiseEv 0x0901 d (t.gen .BPM_STATE d) [1, i, 0, 0, t.poolFree d i]
    else s)

/-- HOST_FREE (R183). -/
def execHostFree (d : Fin 8) (w : Word) (s : State) : Res :=
  hostDieWr s d false (fun s => wrHostFree s d w)

end Sys2Proof.Machine
end

