-- ==== Sys2Proof/Machine/Tt.lean ====
section
/-! DEFINITION. The timetable: window entries, bank entries, landing queue entries, coverage and open banks (spec/03 R62 to R82, R99, R100). -/

namespace Sys2Proof.Machine

/-- Global bank of a queue, class of a queue (R63). -/
def bankOf (q : Nat) : Nat := q / 32
/-- Class of a queue. -/
def classOf (q : Nat) : Nat := q % 32
/-- Owning die of a bank (R62). -/
def bankDie (b : Nat) : Nat := b / 1024
/-- Owning die of a queue. -/
def queueDie (q : Nat) : Nat := q / 32768

/-- Space 0x07 offset of word i of window w of bank b in a copy (R99). -/
def winOff (copy b w i : Nat) : Nat := bankDie b * 0x1000000 + copy * 0x20000 + (b % 1024) * 0x80 + w * 0x10 + i * 4
/-- Space 0x07 offset of word i of a bank entry. -/
def bankOff (b i : Nat) : Nat := bankDie b * 0x1000000 + 0x40000 + (b % 1024) * 0x10 + i * 4
/-- Space 0x07 offset of word i of a landing queue entry. -/
def lqOff (q i : Nat) : Nat := queueDie q * 0x1000000 + 0x80000 + (q % 32768) * 0x10 + i * 4

/-- Reset value of a timetable word by its offset (R100, R190). -/
def ttDefault (off : Nat) : Word :=
  let o := off % 0x1000000
  if 0x40000 ≤ o ∧ o < 0x44000 ∧ o % 16 = 0 then 0x00000100
  else if 0x80000 ≤ o ∧ o < 0x100000 then
    (if o % 16 = 0 then 0x80003018 else if o % 16 = 12 then 0xFFFFFF00 else 0)
  else 0

/-- A timetable word. -/
def State.tt (s : State) (off : Nat) : Word := mget (ttDefault off) s.cte.tt off
/-- A timetable word written. -/
def State.setTt (s : State) (off : Nat) (w : Word) : State := { s with cte := { s.cte with tt := mset (ttDefault off) s.cte.tt off w } }

/-- A window entry read (R66). -/
structure Window where
  valid : Bool
  span : Bool
  nopf : Bool
  gmask : Nat
  modm1 : Nat
  residue : Nat
  start : Nat
  stop : Nat
  deriving DecidableEq, Repr

/-- The entry that four words spell (R66). -/
def Window.ofWords (w0 w1 w2 w3 : Word) : Window where
  valid := bit w3 31
  span := bit w3 30
  nopf := bit w3 29
  gmask := fld w3 27 24
  modm1 := fld w3 23 0
  residue := fld w2 23 0
  start := fld w1 23 0
  stop := fld w0 23 0

/-- Window slot w of bank b in a copy. An entry that waits for its restore takes no part (R462). -/
def State.window (s : State) (copy b w : Nat) : Window :=
  let v := Window.ofWords (s.tt (winOff copy b w 0)) (s.tt (winOff copy b w 1)) (s.tt (winOff copy b w 2)) (s.tt (winOff copy b w 3))
  if winOff copy b w 0 ∈ s.cte.bad then { v with valid := false } else v

/-- The checks of a write of word 3 (R67). -/
def Window.good (v : Window) : Bool :=
  decide (v.start ≤ v.stop) && (if v.span then decide (v.stop ≤ v.modm1) else decide (v.residue ≤ v.modm1))

/-- A window covers step st of crossing n (R68, R69). -/
def Window.covers (v : Window) (xlen n st : Nat) : Bool :=
  v.valid &&
    (if v.span then decide (v.start ≤ n % (v.modm1 + 1)) && decide (n % (v.modm1 + 1) ≤ v.stop)
     else decide (n % (v.modm1 + 1) = v.residue) && decide (v.start ≤ st) && decide (st ≤ min v.stop (xlen - 1)))

/-- A step window of modulus 1 or a span window: the last step from st on in crossing n up to which it covers. -/
def Window.lastIn (v : Window) (xlen : Nat) : Nat := if v.span then xlen - 1 else min v.stop (xlen - 1)

/-- The windows of bank b in a copy. -/
def State.windows (s : State) (copy b : Nat) : List Window := (List.range 8).map (fun w => s.window copy b w)

/-- Some window of the bank covers the step for group g in a copy (R71). -/
def State.coveredIn (s : State) (copy b g n st : Nat) : Bool :=
  (s.windows copy b).any (fun v => v.covers s.xlen n st && nbit v.gmask g)

/-- COPY_SRC: the phase word selects the copy; treated as 0 in self-phase (R41, R59). -/
def State.copySrc (s : State) : Bool := bit (s.reg .PHI_CTRL 0 []) 5 && s.phi.src ≠ .self

/-- A crossing number n at or after N, modulo 2^32 within a half range (R53). -/
def reaches (n N : Nat) : Bool := geHalf n N

/-- The copy active in crossing n: that of the previous crossing for the one before the present; for the present and later ones the pending swap, and above it the copy selected by the last good word, is taken into account (R41, R73, R78, R79, R81; log 21). -/
def State.copyAt (s : State) (n : Nat) : Nat :=
  let base := match s.cte.swap with
    | some t => if reaches n t then 1 - s.cte.active else s.cte.active
    | none => s.cte.active
  if (n + 1) % 2 ^ 32 = s.phi.xing then s.cte.prevCopy
  else if s.copySrc then
    match s.cte.nextCopy with
    | some (c, some _) => c
    | some (c, none) => if n = s.phi.xing then base else c
    | none => base
  else base

/-- What the receiver keeps of the active input (R49). -/
def State.activeIn (s : State) : PhIn :=
  match s.phi.src with
  | .b => s.phi.inB
  | _ => s.phi.inA

/-- The copy of crossing n is known (R74): without COPY_SRC or an active input always; else for the present crossing; for the next one once the word that selects it has passed, or when no word ends within the present one; and for every crossing that begins before the word in progress ends, which keeps the copy (R41; log 21). -/
def State.copyKnown (s : State) (n : Nat) : Bool :=
  let k := sub32 n s.phi.xing
  let x := s.activeIn
  !s.copySrc || s.phi.src = .none || decide (k = 0) || decide (2 ^ 31 ≤ k) ||
    (decide (k = 1) && (match s.cte.nextCopy with
      | some (_, none) => true
      | _ => !s.phi.wordIn && decide (x.bits = 0))) ||
    (!s.phi.wordIn && decide (x.bits ≠ 0) && decide (k * s.xlen - s.phi.step ≤ 56 - x.bits))

/-- Port of a bank: package port number of its entry's first lane (R62, R100). -/
def State.bankPort (s : State) (b : Nat) : Nat := bankDie b * 4 + fld (s.tt (bankOff b 0)) 1 0
/-- A port's transmission state. -/
def State.ptx (s : State) (p : Nat) : PortTx := mget {} s.cte.port p
/-- The word of bank b's entry, or of an entry of its queues, that the bank's service goes by: a write during its turn applies behind the turn (R98; log 30). -/
def State.ttServed (s : State) (b off : Nat) : Word := (mfind (s.ptx (s.bankPort b)).held off).getD (s.tt off)
/-- ENABLE of a bank; an entry that waits for its restore counts as 0 (R462). -/
def State.bankEn (s : State) (b : Nat) : Bool := bit (s.ttServed b (bankOff b 0)) 31 && decide (bankOff b 0 ∉ s.cte.bad)
/-- WEIGHT of a bank; 0 acts as 1. -/
def State.bankWeight (s : State) (b : Nat) : Nat := max 1 (fld (s.tt (bankOff b 0)) 15 8)

/-- ENABLE of a landing queue; an entry that waits for its restore counts as 0 (R462). -/
def State.lqEn (s : State) (q : Nat) : Bool := bit (s.ttServed (bankOf q) (lqOff q 0)) 31 && decide (lqOff q 0 ∉ s.cte.bad)
/-- GROUP of a landing queue. -/
def State.lqGroup (s : State) (q : Nat) : Nat := fld (s.ttServed (bankOf q) (lqOff q 0)) 13 12
/-- QUANTUM in bytes; 0 acts as 1 unit. -/
def State.lqQuantum (s : State) (q : Nat) : Nat := max 1 (fld (s.tt (lqOff q 0)) 11 0) * 64
/-- AGE_LIMIT in ticks. -/
def State.lqAge (s : State) (q : Nat) : Nat := (s.tt (lqOff q 1)).toNat
/-- QUAY_DWELL in ticks. -/
def State.lqDwell (s : State) (q : Nat) : Nat := fld (s.tt (lqOff q 2)) 31 16
/-- STQ in segments. -/
def State.lqStq (s : State) (q : Nat) : Nat := fld (s.tt (lqOff q 3)) 31 8

/-- A landing queue. -/
def State.lq (s : State) (q : Nat) : LQ := mget {} s.qba.lq q
/-- A landing queue written. -/
def State.setLq (s : State) (q : Nat) (x : LQ) : State := { s with qba := { s.qba with lq := mset {} s.qba.lq q x } }
/-- The frames of a landing queue changed; the deficit is zero once it is empty (R88). -/
def LQ.keep (l : LQ) (f : List LQItem → List LQItem) : LQ :=
  { l with items := f l.items, deficit := if f l.items = [] then 0 else l.deficit }
/-- A landing queue changed. -/
def State.modLq (s : State) (q : Nat) (f : LQ → LQ) : State := s.setLq q (f (s.lq q))

/-- A bank's counters and run state. -/
def State.bank (s : State) (b : Nat) : BankSt := mget {} s.cte.bank b
/-- A bank's counters and run state changed. -/
def State.modBank (s : State) (b : Nat) (f : BankSt → BankSt) : State :=
  { s with cte := { s.cte with bank := mmod {} s.cte.bank b f } }

/-- A port's transmission state changed. -/
def State.modPtx (s : State) (p : Nat) (f : PortTx → PortTx) : State :=
  { s with cte := { s.cte with port := mmod {} s.cte.port p f } }

/-- The phase state evaluates windows (R48). -/
def PhSt.evaluates (p : PhSt) : Bool := p == .locked || p == .holdover || p == .self

/-- A die treats its windows as closed until it realigns (R44). -/
def State.isSkewed (s : State) (d : Nat) : Bool := s.phi.skewed.any (fun e => e.1 = d)

/-- The conditions of R72 other than the coverage. -/
def State.bankMayOpen (s : State) (b : Nat) : Bool :=
  s.phi.st.evaluates && !s.isSkewed (s.server (bankDie b)) && (s.ptx (s.bankPort b)).link && s.bankEn b && s.glb.mode.departs

/-- The die whose CTE slice evaluates a bank (R62, R65). -/
def State.bankServer (s : State) (b : Nat) : Nat := s.server (bankDie b)

/-- Bank b is open for group g at the present step of its die (R72). -/
def State.bankOpen (s : State) (b g : Nat) : Bool :=
  let n := s.xingOn (s.bankServer b)
  s.bankMayOpen b && s.coveredIn (s.copyAt n) b g n (s.stepOn (s.bankServer b))

/-- The groups for which a bank is open, as a mask. -/
def State.openMask (s : State) (b : Nat) : Nat := maskOf ((List.range 4).filter (fun g => s.bankOpen b g))

/-- The banks whose entry has ENABLE set: those with a listed word, or with one held for the bank's turn (R98). -/
def State.enabledBanks (s : State) : List Nat :=
  let held := s.cte.port.flatMap (fun e => e.2.held)
  let m := held.foldl (fun m e => minsert e.1 e.2 m) s.cte.tt
  ((mpick (fun k => 0x40000 ≤ k % 0x1000000 ∧ k % 0x1000000 < 0x44000 ∧ k % 16 = 0) m).filter (fun e => bit e.2 31)).map
    (fun e => e.1 / 0x1000000 * 1024 + (e.1 % 0x1000000 - 0x40000) / 16)

/-- The furthest step that windows cover without a gap from step st of one crossing on, going through the windows up to eight times (R71). -/
def reachIn (ws : List Window) (xlen n : Nat) : Nat → Nat → Nat
  | 0, st => st
  | fuel + 1, st =>
    let m := ws.foldl (fun a v => if v.covers xlen n st then max a (v.lastIn xlen) else a) st
    if m + 1 < xlen ∧ ws.any (fun v => v.covers xlen n (m + 1)) then reachIn ws xlen n fuel (m + 1) else m

/-- Steps from the present step to the last step of the run that holds it, looking no further than 4,096 steps ahead (R73, R74): crossings left to look at, crossing, step, steps gone. -/
def State.runAhead (s : State) (b g : Nat) : Nat → Nat → Nat → Nat → Nat
  | 0, _, _, acc => acc
  | fuel + 1, n, st, acc =>
    let ws := (s.windows (s.copyAt n) b).filter (fun v => nbit v.gmask g)
    let m := reachIn ws s.xlen n 9 st
    let acc' := acc + (m - st)
    if m + 1 < s.xlen ∨ 4096 ≤ acc' then acc'
    else
      let n' := (n + 1) % 2 ^ 32
      if s.copyKnown n' ∧ s.coveredIn (s.copyAt n') b g n' 0 then s.runAhead b g fuel n' 0 (acc' + 1) else acc'

/-- Steps that remain after the present one in the open run of bank b for group g (R73, R74); 4,096 or more stands for a run that outlasts every frame. -/
def State.runLeft (s : State) (b g : Nat) : Nat := s.runAhead b g 4097 (s.xingOn (s.bankServer b)) (s.stepOn (s.bankServer b)) 0

end Sys2Proof.Machine
end

