-- ==== Sys2Proof/Machine/Ssc.lean ====
section
/-! DEFINITION. Segments, the parity group, packing and the requests at the stacks (spec/07 R197 to R231). -/

namespace Sys2Proof.Machine

/-- Segments of the store (R201). -/
def segTotal : Nat := 2929688

/-- Members of a parity group, ascending die (R200). -/
def members (smask : Nat) : List Nat := maskList 8 smask

/-- Data chunks of a segment: S - 1, or 1 for an unprotected group of one stack (R200, R228; log 22). -/
def dataChunks (smask : Nat) : Nat :=
  let n := (members smask).length
  if n = 1 then 1 else n - 1

/-- Data bytes of a segment (R200). -/
def dataSize (smask : Nat) : Nat := dataChunks smask * 8192

/-- Die whose stack holds data chunk k of segment j (R200). -/
def chunkDie (smask j k : Nat) : Nat :=
  let m := members smask
  if m.length ≤ 1 then m.headD 0 else m.getD ((j + 1 + k) % m.length) 0

/-- Die whose stack holds the parity chunk of segment j; none for an unprotected group (R200, R228). -/
def parityDie (smask j : Nat) : Option Nat :=
  let m := members smask
  if m.length ≤ 1 then none else m[j % m.length]?

/-- Home die of a segment (R202). -/
def State.homeDie (s : State) (j : Nat) : Nat := j % s.dies

/-- A segment handle (R203). -/
def segHandle (s : State) (j : Nat) : Nat := 2 * 2 ^ 37 + s.homeDie j * 2 ^ 34 + j * 32

/-- The segment that a handle of SPACE 2 names, when it is valid (R203). -/
def State.segOf (s : State) (h : Nat) : Option Nat :=
  let j := hOff h / 32
  if hSpace h = 2 ∧ hOff h % 32 = 0 ∧ j < segTotal ∧ hDie h = s.homeDie j ∧ hClass h = 0 ∧ (mfind s.ssc.seg j).isSome then some j else none

/-- A segment's record. -/
def State.seg (s : State) (j : Nat) : Option Seg := mfind s.ssc.seg j
/-- A segment's record written. -/
def State.setSeg (s : State) (j : Nat) (x : Seg) : State := { s with ssc := { s.ssc with seg := minsert j x s.ssc.seg } }

/-- A key of space 0x05: segment and byte (R209). -/
def segKey (j b : Nat) : Nat := j * 0x10000 + b

/-- A piece of a stack is served from parity: its stack or its channel is lost, or it has an uncorrectable error (R221 to R223). -/
def State.pieceGone (s : State) (d piece : Nat) : Bool :=
  nbit s.ssc.lost d || bit (s.reg .SSC_STACK d []) (piece % 32 / 2) || s.ssc.bad.contains (d, piece)

/-- Data chunks of a segment that its stacks hold: those filled, and once it is closed the last one too (R206). -/
def Seg.chunks (x : Seg) : Nat := if x.st = .opened then x.fill / 8192 else (x.fill + 8191) / 8192

/-- A byte rebuilt from the same byte of the segment's other chunks (R201, R221). A second piece gone beside it, or a group without parity, leaves its value open (log 74). -/
def State.rebuilt (s : State) (j : Nat) (x : Seg) (b : Nat) : Byte :=
  let others := (List.range x.chunks).filter (fun k => k ≠ b / 8192)
  let piece := j * 32 + b % 8192 / 256
  match parityDie x.smask j with
  | none => Config.lostByte (segKey j b)
  | some p =>
    if s.pieceGone p piece || others.any (fun k => s.pieceGone (chunkDie x.smask j k) piece) then Config.lostByte (segKey j b)
    else others.foldl (fun a k => a ^^^ mget 0 s.ssc.data (segKey j (k * 8192 + b % 8192))) (mget 0 s.ssc.par (segKey j (b % 8192)))

/-- A byte of a segment's chunk lies on a piece that is served from parity. -/
def State.byteGone (s : State) (j : Nat) (x : Seg) (b : Nat) : Bool :=
  decide (b / 8192 < x.chunks) && s.pieceGone (chunkDie x.smask j (b / 8192)) (j * 32 + b % 8192 / 256)

/-- The offsets at which n bytes from b on touch pieces: one offset in each. -/
def piecesOf (b n : Nat) : List Nat := if n = 0 then [] else (List.range ((b + n - 1) / 256 - b / 256 + 1)).map (fun i => (b / 256 + i) * 256)

/-- Staged bytes, pieces served from parity rebuilt (R209, R221). -/
def State.segBytes (s : State) (j b n : Nat) : List Byte :=
  match s.seg j with
  | none => bytesAt s.ssc.data (segKey j b) n
  | some x =>
    if (piecesOf b n).any (s.byteGone j x) then
      (List.range n).map (fun i => if s.byteGone j x (b + i) then s.rebuilt j x (b + i) else mget 0 s.ssc.data (segKey j (b + i)))
    else bytesAt s.ssc.data (segKey j b) n

/-- Data chunk k of segment j is XORed into its parity (R201, R206). -/
def xorChunk (data par : Mem) (j k : Nat) : Mem :=
  (mpick (fun a => decide (segKey j (k * 8192) ≤ a) && decide (a < segKey j (k * 8192) + 8192)) data).foldl
    (fun m c => let a := segKey j (c.1 - segKey j (k * 8192)); mset 0 m a (mget 0 m a ^^^ c.2)) par

/-- Chunks XORed into the accumulator of an open segment (R206). -/
def addParity (s : State) (j : Nat) (ks : List Nat) : State :=
  { s with ssc := { s.ssc with par := ks.foldl (xorChunk s.ssc.data · j ·) s.ssc.par } }

/-- The accumulator of a segment starts at zero (R206). -/
def emptyParity (s : State) (j : Nat) : State :=
  { s with ssc := { s.ssc with par := mdrop (fun a => decide (segKey j 0 ≤ a) && decide (a < segKey j 8192)) s.ssc.par } }

/-- Staged bytes written. -/
def State.putSeg (s : State) (j b : Nat) (l : List Byte) : State := { s with ssc := { s.ssc with data := putBytes s.ssc.data (segKey j b) l } }

/-- A segment is free: it has no record and no die has borrowed it (R204). -/
def State.segFree (s : State) (j : Nat) : Bool := (s.seg j).isNone && !s.ssc.borrowed.any (fun e => e.2 = j)

/-- The dies whose home lists a die keeps: its own, and its excluded partner's (R204). -/
def State.keptHomes (s : State) (d : Nat) : List Nat := if s.excluded (partner d) ∧ partner d < s.dies then [d, partner d] else [d]

/-- Segments on the home list of h. -/
def State.homeFree (s : State) (h : Nat) : Nat :=
  (segTotal - h + s.dies - 1) / s.dies
    - (mpick (fun j => j % s.dies = h) s.ssc.seg).length - (s.ssc.borrowed.filter (fun e => e.2 % s.dies = h)).length

/-- Segments on the lists that a die keeps (SSC_SEG_FREE). -/
def State.segFreeCount (s : State) (d : Nat) : Nat := ((s.keptHomes d).map s.homeFree).foldl (· + ·) 0

/-- The lowest free segments of home h from j on: candidates left to look at, number wanted. -/
def State.lowestFree (s : State) : Nat → Nat → Nat → List Nat
  | 0, _, _ => []
  | _ + 1, _, 0 => []
  | fuel + 1, j, n + 1 =>
    if segTotal ≤ j then []
    else if s.segFree j then j :: s.lowestFree fuel (j + s.dies) n
    else s.lowestFree fuel (j + s.dies) (n + 1)

/-- The first n free segments of home h. -/
def State.firstFree (s : State) (h n : Nat) : List Nat :=
  s.lowestFree (s.ssc.seg.length + s.ssc.borrowed.length + n + 1) h n

/-- The order in which a die tries the lists of other dies: partner first, then ascending (R204). -/
def State.lenders (s : State) (d : Nat) : List Nat :=
  (partner d :: (s.allDies.filter (fun e => e ≠ d ∧ e ≠ partner d))).filter (fun e => e < s.dies ∧ !(s.keptHomes d).contains e)

/-- Segments that a die has borrowed and not used. -/
def State.borrowedBy (s : State) (d : Nat) : List Nat := (s.ssc.borrowed.filter (fun e => e.1 = d)).map (·.2)

/-- The first 64 free segments of a die's list: those of the homes that it keeps, then those that it has borrowed (R204; log 23). -/
def State.batchOf (s : State) (e : Nat) : List Nat := ((s.keptHomes e).flatMap (fun h => s.firstFree h 64) ++ s.borrowedBy e).take 64

/-- A die with an empty list takes a batch of 64 free segments from the first die whose list has any (R204). -/
def borrowBatch (s : State) (d : Nat) : State :=
  match (s.lenders d).find? (fun e => decide (0 < s.segFreeCount e) || !(s.borrowedBy e).isEmpty) with
  | none => s
  | some e =>
    let b := s.batchOf e
    { s with ssc := { s.ssc with borrowed := s.ssc.borrowed.filter (fun x => !b.contains x.2) ++ b.map (fun j => (d, j)) } }

/-- The segment that a die takes from its own list: the one the command picks if it is on the list, else the lowest (R204; log 23). -/
def ownSegment (s : State) (d pick : Nat) : Option Nat :=
  if pick < segTotal ∧ ((s.segFree pick ∧ (s.keptHomes d).contains (s.homeDie pick)) ∨ (d, pick) ∈ s.ssc.borrowed) then some pick
  else match ((s.keptHomes d).filterMap (fun h => (s.firstFree h 1).head?)).head? with
    | some j => some j
    | none => (s.borrowedBy d).head?

/-- A die takes a free segment, borrowing a batch when its own list is empty (R204). -/
def takeSegment (s : State) (d pick : Nat) : Option Nat × State :=
  let t := if s.segFreeCount d = 0 ∧ s.borrowedBy d = [] then borrowBatch s d else s
  match ownSegment t d pick with
  | none => (none, t)
  | some j => (some j, { t with ssc := { t.ssc with borrowed := t.ssc.borrowed.filter (fun e => e.2 ≠ j) } })

/-- A request joins those pending at a stack, issued at the last local time told (log 9); a stack out of the package takes none. -/
def pushReq (s : State) (d port : Nat) (write : Bool) (what : ReqWhat) (mask target : Nat) (deadline : Option Nat) : State :=
  if nbit s.ssc.lost d then s
  else
    let r : HbmReq := { id := s.ssc.nextReq, die := d, port := port, write := write, what := what, mask := mask, issued := s.ssc.now, target := target, deadline := deadline, late := false, raw := false }
    { s with ssc := { s.ssc with req := s.ssc.req ++ [r], nextReq := s.ssc.nextReq + 1 } }

/-- All 32 pseudo-channels: a chunk has one piece on each (R198). -/
def allPc : Nat := 0xFFFFFFFF

/-- Latency target of a requestor port in ns; 0 acts as 1 (R210, R232). -/
def State.portTarget (s : State) (d port : Nat) : Nat := max 1 (s.rf .SSC_PORT_TGT d [port] 19 0)

/-- A request with the target of its port. -/
def pushPort (s : State) (d port : Nat) (write : Bool) (what : ReqWhat) (mask : Nat) : State :=
  pushReq s d port write what mask (s.portTarget d port) none

/-- The pseudo-channel mask of one piece (R198). -/
def pieceMask (piece : Nat) : Nat := 2 ^ (piece % 32)

/-- Piece of segment j's record on its home stack, and on the stack of the other copy (R197, R202). -/
def recordPiece (s : State) (j : Nat) (second : Bool) : Nat :=
  (24000004096 + (if second then 0x4000000 else 0) + j / s.dies * 32) / 256

/-- Key of a record's copy on a stack. -/
def recKey (d j : Nat) : Nat := d * 0x400000 + j

/-- The segment behind another in its queue's list (R202, R208). -/
def State.nextSeg (s : State) (q j : Nat) : Option Nat := (((s.lq q).segs.dropWhile (fun k => k ≠ j)).drop 1).head?

/-- The segment in front of another in its queue's list. -/
def State.prevSeg (s : State) (q j : Nat) : Option Nat := ((s.lq q).segs.takeWhile (fun k => k ≠ j)).getLast?

/-- The 32 bytes of a segment's record (R202); a free segment's has STATE 0 and nothing else. -/
def State.recordBytes (s : State) (j : Nat) : List Byte :=
  let body := match s.seg j with
    | none => List.replicate 28 0
    | some x =>
      beBytes 4 ((if x.st = .opened then 1 else 2) * 2 ^ 30 + x.smask % 256 * 2 ^ 18 + x.q % 2 ^ 18) ++ beBytes 4 ((s.nextSeg x.q j).getD 0xFFFFFFFF)
        ++ beBytes 2 x.frames ++ [0, 0] ++ beBytes 4 x.fill ++ beBytes 4 x.lastTick ++ List.replicate 8 0
  body ++ beBytes 4 (Nat.xor (crc32cFeed 0xFFFFFFFF body) 0xFFFFFFFF)

/-- Both copies of a record are written together, through a requestor port (R202). -/
def writeRecord (s : State) (port j : Nat) : State :=
  let h := s.homeDie j
  let l := s.recordBytes j
  let t := pushPort s h port true (.record j) (pieceMask (recordPiece s j false))
  let t := pushPort t (partner h) port true (.record j) (pieceMask (recordPiece s j true))
  { t with ssc := { t.ssc with recs := minsert (recKey (partner h) j) l (minsert (recKey h j) l t.ssc.recs) } }

/-- The record of the segment in front of another is written again when its NEXT changes (R202, R208). -/
def relink (s : State) (port q : Nat) (before : Option Nat) : State :=
  match before with
  | some j => match s.seg j with
    | some x => if x.q = q then writeRecord s port j else s
    | none => s
  | none => s

/-- Data chunks of a segment that are full, or last, are written through a requestor port and XORed into its parity (R206). -/
def writeChunks (s : State) (port j smask : Nat) (ks : List Nat) : State :=
  ks.foldl (fun t k => pushPort t (chunkDie smask j k) port true (.chunk j (chunkDie smask j k)) allPc) (addParity s j ks)

/-- Bytes enter an open segment behind those it holds; each chunk that fills is written (R205, R206). Every other field of the record is the caller's. -/
def appendTo (s : State) (port j : Nat) (x : Seg) (l : List Byte) : State :=
  let fill := x.fill + l.length
  writeChunks ((s.putSeg j x.fill l).setSeg j { x with fill := fill }) port j x.smask ((List.range (fill / 8192)).filter (fun k => x.fill / 8192 ≤ k))

/-- A segment takes no more: its last chunk is zero-padded and written, then its parity chunk and its record (R206). -/
def finishSegment (s : State) (port j : Nat) (x : Seg) : State :=
  let tail := (8192 - x.fill % 8192) % 8192
  let t := s.putSeg j x.fill (List.replicate tail 0)
  let t := if tail = 0 then t else writeChunks t port j x.smask [x.fill / 8192]
  let t := match parityDie x.smask j with
    | some d => pushPort t d port true (.chunk j d) allPc
    | none => t
  writeRecord (t.setSeg j { x with st := .closing }) port j

/-- An open segment is closed: it is finished through P1, and its slot is free (R206, R207). -/
def closeSegment (s : State) (j : Nat) (part : Bool) : State :=
  match s.seg j with
  | none => s
  | some x =>
    if x.st ≠ .opened then s
    else
      let t := finishSegment s 1 j x
      let t := { t with ssc := { t.ssc with slots := t.ssc.slots.filter (fun e => e.2 ≠ j) } }
      let t := t.modLq x.q (fun l => { l with opened := if l.opened = some j then none else l.opened })
      let t := t.bump .SSC_SEG_WRITTEN x.owner
      if part then t.bump .SSC_SEG_PARTIAL x.owner else t

/-- The segment whose chunk or record a request moves. -/
def ReqWhat.seg : ReqWhat → Option Nat
  | .chunk j _ => some j
  | .parity j _ => some j
  | .record j => some j
  | _ => none

/-- A segment without frames goes back to its home die's list, its slot is free, its record and its predecessor's NEXT follow (R202, R204, R208). -/
def freeSegment (s : State) (j : Nat) : State :=
  match s.seg j with
  | none => s
  | some x =>
    let before := s.prevSeg x.q j
    let t := { s with
      ssc := { s.ssc with seg := mremove j s.ssc.seg, req := s.ssc.req.filter (fun r => r.what.seg ≠ some j), slots := s.ssc.slots.filter (fun e => e.2 ≠ j) }
      cte := { s.cte with pf := s.cte.pf.filter (fun p => p.seg ≠ j) } }
    let t := t.modLq x.q (fun l => { l with segs := l.segs.filter (· ≠ j), opened := if l.opened = some j then none else l.opened })
    relink (writeRecord t 1 j) 1 x.q before

/-- A frame of a segment has departed or aged; the segment is freed after its last one, and counts in SSC_AGED_FREE when that one aged (R208). -/
def leaveSegment (s : State) (j : Nat) (aged : Bool) : State :=
  match s.seg j with
  | none => s
  | some x =>
    let t := s.setSeg j { x with left := x.left - 1, aged := aged }
    if x.left ≤ 1 ∧ x.st = .written then
      if aged then (freeSegment t j).bump .SSC_AGED_FREE (s.server (queueDie x.q)) else freeSegment t j
    else t

/-- Data bytes that a frame takes: packing header, data padded to 16 bytes (R205). -/
def packSize (len : Nat) : Nat := 16 + (len + 15) / 16 * 16

/-- The packing header (R205). -/
def packHeader (len edit etick flow : Nat) (frame : List Byte) : List Byte :=
  beBytes 2 len ++ beBytes 1 edit ++ [0] ++ beBytes 4 etick ++ beBytes 4 flow
    ++ beBytes 4 (Nat.xor (crc32cFeed 0xFFFFFFFF frame) 0xFFFFFFFF)

/-- Staging is possible: training has completed and a group exists (R219). -/
def State.stagingUp (s : State) : Bool := s.ssc.begun && !s.ssc.busy && decide (s.ssc.smask ≠ 0)

/-- The queue's open segment takes n more bytes. -/
def State.fitsOpen (s : State) (q n : Nat) : Option Nat :=
  match (s.lq q).opened with
  | none => none
  | some j => match s.seg j with
    | some x => if x.st = .opened ∧ x.fill + n ≤ dataSize x.smask then some j else none
    | none => none

/-- The segments charged to a queue: those that hold a frame, and the open one given, if any (R189). -/
def State.charged (s : State) (q : Nat) (open_ : Option Nat) : Nat :=
  countP' (fun j => decide (open_ = some j) || decide (0 < ((s.seg j).map (·.left)).getD 0)) (s.lq q).segs

/-- The conditions of R189 on quota and size (the second condition is found while packing). -/
def State.stageAllowed (s : State) (q len : Nat) : Bool :=
  let n := packSize len
  let stq := s.lqStq q
  let charged := s.charged q (s.fitsOpen q n) + (if (s.fitsOpen q n).isSome then 0 else 1)
  s.stagingUp && decide (stq ≠ 0) && (stq = 0xFFFFFF || decide (charged ≤ stq)) && decide (n ≤ dataSize s.ssc.smask)

/-- A slot for a new open segment of die d: with 128 in use the least recently packed one is closed (R206, R207). -/
def claimSlot (s : State) (d : Nat) : State :=
  let mine := s.ssc.slots.filter (fun e => e.1 = d)
  if mine.length < 128 then s
  else match mine.head? with
    | some e => (closeSegment s e.2 true).bump .SSC_SLOT_EVICT d
    | none => s

/-- A new segment of the current geometry is opened for a queue on die d, its accumulator empty (R202, R205, R206). -/
def openSegment (s : State) (d q j : Nat) : State :=
  let t := claimSlot s d
  let x : Seg := { st := .opened, smask := t.ssc.smask, q := q, frames := 0, left := 0, fill := 0, lastTick := 0, firstTick := t.ticksOn d, owner := d }
  let t := t.setSeg j x
  let t := emptyParity { t with ssc := { t.ssc with slots := t.ssc.slots ++ [(d, j)] } } j
  let t := t.modLq q (fun l => { l with opened := some j, segs := l.segs ++ [j] })
  relink (writeRecord t 1 j) 1 q (t.prevSeg q j)

/-- LAST_TICK behind one more frame: the age count at which the newest frame entered its queue (R202). -/
def Seg.newest (x : Seg) (etick : Nat) : Nat := if x.frames = 0 ∨ geHalf etick x.lastTick then etick else x.lastTick

/-- A frame is packed into open segment j: header, data, padding; filled chunks are written; a segment with fewer than 80 bytes left is closed (R205 to R207). etick is the age count at which the frame entered its landing queue. Returns the offset of its header. -/
def packInto (s : State) (j len edit flow etick : Nat) (frame : List Byte) : Nat × State :=
  match s.seg j with
  | none => (0, s)
  | some x =>
    let n := packSize len
    let t := appendTo s 1 j { x with frames := x.frames + 1, left := x.left + 1, lastTick := x.newest etick, aged := false } (padTo n (packHeader len edit etick flow frame ++ frame))
    let t := { t with ssc := { t.ssc with slots := t.ssc.slots.filter (fun e => e.2 ≠ j) ++ t.ssc.slots.filter (fun e => e.2 = j) } }
    (x.fill, if dataSize x.smask < x.fill + n + 80 then closeSegment t j false else t)

/-- The staging store packs a frame for a queue, or refuses it (R189, R205, R207): the segment and offset it lies at. -/
def packFrame (s : State) (d q len edit flow etick pick : Nat) (frame : List Byte) : Option (Nat × Nat) × State :=
  if ¬ s.stageAllowed q len then (none, s)
  else match s.fitsOpen q (packSize len) with
    | some j =>
      let (o, t) := packInto s j len edit flow etick frame
      (some (j, o), t)
    | none =>
      let (r, t) := takeSegment s d pick
      match r with
      | none => (none, t.bump .SSC_NOFREE d)
      | some j =>
        let t := match (t.lq q).opened with
          | some k => closeSegment t k false
          | none => t
        let (o, t) := packInto (openSegment t d q j) j len edit flow etick frame
        (some (j, o), t)

/-- The frame bytes of a staged item. -/
def State.stagedFrame (s : State) (j off len : Nat) : List Byte := s.segBytes j (off + 16) len

/-- SSC_STATE.GEN increments; the group fields read the same on every die (R232), so every die's word changes. -/
def bumpSsc (s : State) : State := overDies (fun d t => t.bumpGen .SSC_STATE d) s.allDies s

/-- SSC_STATE.GEN. -/
def State.sscGen (s : State) : Nat := s.gen .SSC_STATE 0

/-- A field of SSC_STATE set on every die. -/
def setSsc (s : State) (hi lo v : Nat) : State := overDies (fun d t => t.setRf .SSC_STATE d [] hi lo v) s.allDies s

/-- Stages of EV_REBUILD: 0 start, 1 wait, 2 resume, 3 done (R231; log 24). -/
def evRebuild (s : State) (stage : Nat) : State :=
  s.raiseEv 0x0B03 pkg s.sscGen [stage, (s.reg .SSC_REB_CUR 0 []).toNat, (s.reg .SSC_REB_DONE 0 []).toNat]

/-- A rebuild starts: its cursor and count restart (R224, R225). -/
def startRebuild (s : State) : State :=
  let t := overDies (fun d t => (t.setReg .SSC_REB_CUR d [] 0).setReg .SSC_REB_DONE d [] 0) s.allDies s
  let t := bumpSsc { t with ssc := { t.ssc with rebuild := some { wait := false, seg := none } } }
  evRebuild t 0

/-- The frames of a segment leave their queue, mirrors that their admission left with it (R192). -/
def State.takeStaged (s : State) (q j : Nat) : State :=
  let hit (i : LQItem) : Bool := i.staged && decide (i.seg = j)
  let t := ((s.lq q).items.filter hit).foldl (fun t i => freeMirror t i.mirror) s
  t.modLq q (fun l => l.keep (fun l => l.filter (fun i => !hit i)))

/-- Segments are lost with their frames; EV_STAGE_LOSS tells their number (R202, R227, R231). -/
def dropSegments (s : State) (gone : List Nat) : State :=
  let frames := gone.foldl (fun a j => a + ((s.seg j).map (·.left)).getD 0) 0
  if gone = [] then s
  else
    let t := gone.foldl (fun t j =>
      match t.seg j with
      | none => t
      | some x =>
        let d := t.server (queueDie x.q)
        let t := (t.bump .SSC_SEG_LOST d).bumpN .SSC_FRAMES_LOST d [] x.left
        freeSegment (t.takeStaged x.q j) j) s
    t.raiseEv 0x0B04 pkg t.sscGen [gone.length, frames]

/-- Segments that contain both a stack lost before the rebuild completed and the stack lost now, and unprotected segments of the stack lost now, are lost (R227, R228). -/
def stageLoss (s : State) (now : Nat) : State :=
  let hit := fun (m : Nat) => ((maskList 8 s.ssc.lost).filter (fun k => nbit m k)).length
  dropSegments s ((s.ssc.seg.filter (fun e => nbit e.2.smask now && decide (min 2 (members e.2.smask).length ≤ hit e.2.smask))).map (·.1))

/-- The copy of a record on a stack cannot be read or does not pass its CRC: the stack or the channel is lost, its piece has an uncorrectable error, or its bytes fail (R202, R222, R462). -/
def State.recordBad (s : State) (j : Nat) (second : Bool) : Bool :=
  let d := if second then partner (s.homeDie j) else s.homeDie j
  s.pieceGone d (recordPiece s j second) || (match mfind s.ssc.recs (recKey d j) with
    | some l => decide (l.drop 28 ≠ beBytes 4 (Nat.xor (crc32cFeed 0xFFFFFFFF (l.take 28)) 0xFFFFFFFF))
    | none => false)

/-- The record of a segment fails on both copies (R202); one whose two stacks have both left the group is not held to it, since what was repacked survives (R227, R479; log 74). -/
def State.recordGone (s : State) (j : Nat) : Bool :=
  s.recordBad j false && s.recordBad j true && !(nbit s.ssc.lost (s.homeDie j) && nbit s.ssc.lost (partner (s.homeDie j)))

/-- Segments among those given whose record fails on both copies are lost, under a new generation (R202, R231, R232). -/
def checkRecords (s : State) (js : List Nat) : State :=
  let gone := js.filter s.recordGone
  if gone = [] then s else dropSegments (bumpSsc s) gone

/-- The segments whose records lie on the stacks of die d and its partner (R202). -/
def State.homeOf (s : State) (d : Nat) : List Nat := (s.ssc.seg.map (·.1)).filter (fun j => decide (s.homeDie j = d) || decide (s.homeDie j = partner d))

/-- Causes of EV_STACK_LOST, in the order of R231: 0 training, 1 exclusion, 2 controller (log 24). -/
def stackCode : StackCause → Nat
  | .training => 0
  | .exclusion => 1
  | .controller => 2

/-- Bits of the parity group below the present one. -/
def removeBit (m d : Nat) : Nat := if nbit m d then m - 2 ^ d else m

/-- A change of the rebuild's own state. -/
def State.setRebuild (s : State) (r : Option Rebuild) : State := { s with ssc := { s.ssc with rebuild := r } }

/-- The segment that the rebuild fills is finished through P5 and counted as a segment closed, part: before it was full (R207, R225). -/
def closeFresh (s : State) (part : Bool) : State :=
  match s.ssc.rebuild with
  | none => s
  | some r => match r.seg with
    | none => s
    | some j =>
      let t := s.setRebuild (some { r with seg := none })
      match s.seg j with
      | some x =>
        if x.st = .opened then
          let u := (finishSegment t 5 j x).bump .SSC_SEG_WRITTEN x.owner
          if part then u.bump .SSC_SEG_PARTIAL x.owner else u
        else t
      | none => t

/-- The segment that the rebuild fills, if it is one of queue q. -/
def State.freshOf (s : State) (q : Nat) : Bool :=
  match s.ssc.rebuild with
  | some r => match r.seg with
    | some j => ((s.seg j).map (fun x => decide (x.q = q))).getD false
    | none => false
  | none => false

/-- The stacks whose pieces rebuild those of member m of a segment: those of its other chunks that are written and of its parity (R201, R221). -/
def parityDies (x : Seg) (j m : Nat) : List Nat :=
  ((List.range x.chunks).map (chunkDie x.smask j) ++ (parityDie x.smask j).toList).filter (fun k => k ≠ m)

/-- Pieces that a mask of pseudo-channels names. -/
def maskPieces (mask : Nat) : Nat := (maskList 32 mask).length

/-- Reads of the other chunks in the place of a read of member m; each of its pieces counts in SSC_PARITY_READS of the die that reads (R221, R223). -/
def readParity (s : State) (by_ j m port mask target : Nat) (deadline : Option Nat) : State :=
  match s.seg j with
  | none => s
  | some x => (parityDies x j m).foldl (fun t k => pushReq t k port false (.parity j k) mask target deadline) (s.bumpN .SSC_PARITY_READS by_ [] (maskPieces mask))

/-- A read that was pending at a lost stack: chunks are read from parity, a flow context from the partner's mirror (R199, R223). -/
def moveRead (s : State) (r : HbmReq) : State :=
  match r.what with
  | .chunk j m => readParity s (s.server r.die) j m r.port r.mask r.target r.deadline
  | .ctx d c => if r.die = d then pushReq s (partner d) r.port false (.ctx d c) r.mask r.target r.deadline else s
  | _ => s

/-- Trace state of a die. -/
def State.trc (s : State) (d : Nat) : Trc := mget {} s.tdx.trc d

/-- Trace state of a die changed. -/
def State.modTrc (s : State) (d : Nat) (f : Trc → Trc) : State := { s with tdx := { s.tdx with trc := mmod {} s.tdx.trc d f } }

/-- TDX_TRC_CTL.MODE (R346). -/
def State.trcMode (s : State) (d : Nat) : Nat := s.rf .TDX_TRC_CTL d [] 30 29

/-- RUN clears. -/
def stopTrace (s : State) (d : Nat) : State := (s.setRf .TDX_TRC_CTL d [] 31 31 0).modTrc d (fun t => { t with post := none })

/-- Writing stops: RUN clears and STOPPED is set (R346). -/
def stopWriting (s : State) (d : Nat) : State := (stopTrace s d).setRf .TDX_TRC_WR d [] 30 30 1

/-- The trace records spilled to a stack are lost with it; in the spill modes writing stops (R346). -/
def loseSpill (s : State) (d : Nat) : State :=
  let t : State := { s with tdx := { s.tdx with spill := mdrop (fun k => decide (k / 0x1000000 = d)) s.tdx.spill } }
  if 2 ≤ t.trcMode d then stopWriting t d else t

/-- A stack leaves the group (R223, R224, R227, R228): the group narrows, reads pending at the stack go elsewhere, segments that span two lost stacks are lost, a segment that a rebuild was filling is finished in its old geometry, and a rebuild starts when at least two stacks remain; with one it ends. -/
def loseStack (s : State) (d : Nat) (cause : StackCause) : State :=
  if nbit s.ssc.lost d then s
  else
    let t := { s with ssc := { s.ssc with smask := removeBit s.ssc.smask d, lost := Nat.lor s.ssc.lost (2 ^ d), req := s.ssc.req.filter (fun r => r.die ≠ d) } }
    let t := t.setRf .SSC_STACK d [] 30 30 1
    let t := bumpSsc t
    let t := t.raiseEv 0x0B02 d t.sscGen [d, stackCode cause, t.ssc.smask]
    let t := stageLoss t d
    let t := loseSpill (checkRecords t (t.homeOf d)) d
    let t := (s.ssc.req.filter (fun r => decide (r.die = d) && !r.write)).foldl moveRead t
    let n := (members t.ssc.smask).length
    let t := setSsc (setSsc t 15 8 t.ssc.smask) 3 0 (n - 1)
    let t := setSsc t 4 4 (if n = 1 then 1 else 0)
    let t := if t.ssc.seg.any (fun e => nbit e.2.smask d) then setSsc t 5 5 1 else t
    let t := closeFresh t true
    if 2 ≤ n ∧ t.ssc.begun ∧ !t.ssc.busy then startRebuild t else t.setRebuild none

end Sys2Proof.Machine
end

