-- ==== Sys2Proof/Machine/Admission.lean ====
section
/-! DEFINITION. Admission to a landing queue, dwell staging, twin-quay and the per-queue values (spec/06 R185 to R196). -/

namespace Sys2Proof.Machine

/-- OCC(q): class sizes of the quay buffers that a queue holds (R185). -/
def LQ.occ (l : LQ) : Nat := l.items.foldl (fun a i => if i.staged then a else a + classSize (hClass i.handle)) 0

/-- The code of QBA_ALPHA for a class: 0 for α = 0, n for α = 2^(n - 8) (R196). -/
def State.alpha (s : State) (d c : Nat) : Nat := s.rf .QBA_ALPHA d [c / 8] (4 * (c % 8) + 3) (4 * (c % 8))

/-- The first condition of R186 on the threshold: α is not zero and OCC(q) + B is at most T(q) = α × F. -/
def State.underThreshold (s : State) (d q b : Nat) : Bool :=
  let n := s.alpha d (classOf q)
  decide (n ≠ 0) && decide (((s.lq q).occ + b) * 256 ≤ 2 ^ n * s.freeBytes d)

/-- Region of a port's lane (R104). -/
def portRegion (p : Nat) : Nat := (p % 4) / 2

/-- TWIN of a package port (R191). -/
def State.twin (s : State) (p : Nat) : Bool := bit (s.reg .QBA_PORT_CFG (p / 4) [p % 4]) 0

/-- The partner link of a die is down: no lane of 32 and 2 spares works (R478). -/
def State.partnerDown (s : State) (d : Nat) : Bool := decide (34 ≤ (mget {} s.icu.link (min d (partner d) * 8)).lost)

/-- A port with TWIN runs unmirrored: its partner die is excluded, or the partner link is down (R193, R478). -/
def State.unmirrored (s : State) (p : Nat) : Bool :=
  s.excluded (partner (p / 4)) || s.excluded (p / 4) || s.partnerDown (p / 4)

/-- A mirror of a buffer in the partner's quay: a buffer of the same class in the same region number as the buffer, with a copy of its bytes (R170, R191). -/
def makeMirror (s : State) (h : Nat) : Option Nat × State :=
  match allocBuf s (partner (hDie h)) ((s.poolOf h).getD 0 / 4) (hClass h) with
  | (some m, t) => (some m, t.putQuay m 0 (t.quayBytes h 0 (classSize (hClass h))))
  | (none, t) => (none, t)

/-- A frame takes its place in its queue (R18). -/
def enqueue (s : State) (q : Nat) (i : LQItem) : State := s.modLq q (fun l => { l with items := l.items ++ [i] })

/-- The item of a frame kept in the quay. -/
def quayItem (s : State) (a : Admit) (h : Nat) (m : Option Nat) : LQItem :=
  { staged := false, handle := h, seg := 0, off := 0, len := a.len, edit := a.edit, flow := a.flow, eage := s.age32, tick := s.ticksOn a.die, flood := a.flood, mirror := m, offer := 0, src := a.hand <|> a.src }

/-- The item of a staged frame. -/
def stagedItem (s : State) (a : Admit) (j o : Nat) : LQItem :=
  { staged := true, handle := 0, seg := j, off := o, len := a.len, edit := a.edit, flow := a.flow, eage := s.age32, tick := s.ticksOn a.die, flood := false, mirror := none, offer := 0 }

/-- The buffer that a copy awaiting admission holds on its owning die is released: a shared flood buffer loses one reference (R246). A handoff's buffer stays with the ingress die until it is acknowledged (R245). -/
def releaseCopy (s : State) (a : Admit) : State :=
  if a.hand.isSome then s else if a.flood then releaseShared s a.handle else freeBuf s a.handle

/-- Rows 2 and 3 of R186: staged, or dropped and counted. -/
def admitStaged (s : State) (a : Admit) (pick : Nat) : State :=
  let frame := s.quayBytes a.handle 128 a.len
  match packFrame s a.die a.q a.len a.edit a.flow s.age32 pick frame with
  | (some (j, o), t) =>
    let t := freeMirror (releaseCopy t a) a.mirror
    let t := enqueue t a.q (stagedItem s a j o)
    (t.modLq a.q (fun l => { l with qStaged := satAdd 32 l.qStaged 1 })).bump .QBA_STAGED a.die
  | (none, t) =>
    let t := freeMirror (releaseCopy t a) a.mirror
    (t.modLq a.q (fun l => { l with admitDrop := satAdd 32 l.admitDrop 1 })).bump .QBA_STAGE_REFUSED a.die

/-- The buffer of the owning die in which a frame would stay: its own, or for a handoff one of the same class in the region of the bank's port with the frame copied into it (R15, R170). -/
def landBuffer (s : State) (a : Admit) : Option Nat × State :=
  match a.hand with
  | none => (some a.handle, s)
  | some _ =>
    match allocBuf s a.die (portRegion (s.bankPort (bankOf a.q))) (hClass a.handle) with
    | (some h, t) => (some h, t.putQuay h 0 (t.quayBytes a.handle 0 (128 + a.len)))
    | (none, t) => (none, t)

/-- The admission mirror of a frame that would stay in buffer h: kept from receipt, made now, not wanted, or impossible (R191 to R193). The first part is false when a mirror was wanted and the partner had no buffer. -/
def landMirror (s : State) (a : Admit) (h : Nat) : Bool × Option Nat × State :=
  let p := s.bankPort (bankOf a.q)
  if ¬ s.twin p then (true, none, freeMirror s a.mirror)
  else if s.unmirrored p then (true, none, (freeMirror s a.mirror).bump .QBA_UNMIRRORED a.die)
  else match a.mirror.filter (fun m => !s.excluded (hDie m)) with
    | some m => (true, some m, s)
    | none => match makeMirror s h with
      | (some m, t) => (true, some m, t)
      | (none, t) => (false, none, t.bump .QBA_TWIN_FAIL (p / 4) [p % 4])

/-- The ingress buffer is freed once no copy of it is outstanding (R245, R246). -/
def settleSource (s : State) (h : Nat) (m : Option Nat) : State :=
  if s.rsq.hand.any (fun x => x.handle = h) then s else freeBoth s h m

/-- Copies of a handoff still wait for admission. -/
def State.handWaits (s : State) (id : Nat) : Bool := s.qba.admitQ.any (fun a => decide (a.hand = some id))

/-- A handoff of a die to itself needs no acknowledgement: it is over once nothing waits for it (R246, R255). -/
def settleLocal (s : State) (id : Nat) : State :=
  match s.rsq.hand.find? (fun h => decide (h.id = id) && decide (h.src = h.dst)) with
  | some h => if s.handWaits id then s else settleSource { s with rsq := { s.rsq with hand := lrem h s.rsq.hand } } h.handle h.mirror
  | none => s

/-- The handoff of an admitted copy is complete: only its acknowledgement is left (R245). -/
def markCopied (s : State) (hand : Option Nat) : State :=
  match hand with
  | none => s
  | some id => settleLocal { s with rsq := { s.rsq with hand := s.rsq.hand.map (fun h => if h.id = id then { h with copied := true } else h) } } id

/-- One frame is admitted by the first row of R186 that holds; with the STAGE flag row 1 does not apply (R16, R186, R193, R318). -/
def admitOne (s : State) (a : Admit) (pick : Nat) : State :=
  let keep := !a.force && s.underThreshold a.die a.q (classSize (hClass a.handle))
  if s.quayBad a.handle 0 (128 + a.len) ∧ (a.hand.isSome ∨ ¬ keep) then
    markCopied ((freeMirror (releaseCopy s a) a.mirror).bump .ICU_FRAME_DROP a.die) a.hand
  else if keep then
    match landBuffer s a with
    | (none, t) => markCopied (admitStaged t a pick) a.hand
    | (some h, t) =>
      match landMirror t a h with
      | (true, m, u) => markCopied ((enqueue u a.q (quayItem s a h m)).bump .QBA_KEPT a.die) a.hand
      | (false, _, u) => markCopied (admitStaged u { a with handle := h, hand := none } pick) a.hand
  else markCopied (admitStaged s a pick) a.hand

/-- The open group of a queue's bank. -/
def State.queueOpen (s : State) (q : Nat) : Bool := s.bankOpen (bankOf q) (s.lqGroup q)

/-- The quay frames of a queue are offered to the staging store: the frame at a place of the queue moves to a segment, or stays and the refusal counts (R188, R448). -/
def offerItem (s : State) (q pick : Nat) (i : LQItem) : State :=
  let d := s.server (queueDie q)
  let repl (j : LQItem) (t : State) := t.modLq q (fun l => { l with items := l.items.map (fun x => if x = i then j else x) })
  let lost (t : State) := t.modLq q (fun l => l.keep (lrem i))
  if s.quayBad i.handle 128 i.len then (lost (freeMirror (if i.flood then releaseShared s i.handle else freeBuf s i.handle) i.mirror)).bump .ICU_FRAME_DROP d
  else match packFrame s d q i.len i.edit i.flow i.eage pick (s.quayBytes i.handle 128 i.len) with
  | (some (j, o), t) =>
    let t := repl { i with staged := true, handle := 0, seg := j, off := o, flood := false } t
    let t := if i.flood then releaseShared t i.handle else freeBuf t i.handle
    (t.modLq q (fun l => { l with qDwell := satAdd 32 l.qDwell 1 })).bump .QBA_DWELL_STAGED d
  | (none, t) => (repl { i with offer := s.ticksOn d + 1 } t).bump .QBA_DWELL_REFUSED d

/-- The oldest quay frame of a queue whose dwell limit has passed and that has not been offered at this tick (R188). -/
def State.dwellCandidate (s : State) (q : Nat) : Option LQItem :=
  (s.lq q).items.find? (fun i => !i.staged && decide (s.lqDwell q < s.ticksOn (s.server (queueDie q)) - i.tick) && decide (i.offer ≠ s.ticksOn (s.server (queueDie q)) + 1))

/-- A frame that the fabric cannot carry: on an HX1620 with its partner link down (R478). -/
def State.noRoute (s : State) (a b : Nat) : Bool := decide (a ≠ b) && decide (s.dies = 2) && s.partnerDown a

/-- The handoff of a waiting frame that the fabric cannot carry (R478). -/
def State.cutOff (s : State) (a : Admit) : Option Hand :=
  match a.hand with
  | none => none
  | some id => s.rsq.hand.find? (fun h => decide (h.id = id) && s.noRoute h.src a.die)

/-- A waiting frame is admitted, or dropped where the fabric cannot carry it to its die (R186, R478); the handoff of a flood goes on for its other copies. -/
def admitNext (s : State) (a : Admit) (pick : Nat) : State :=
  match s.cutOff a with
  | none => admitOne s a pick
  | some h => (if h.flood then s else settleSource { s with rsq := { s.rsq with hand := lrem h s.rsq.hand } } h.handle h.mirror).bump .PFB_ROUTE_DROP h.src

/-- ADMIT: the oldest frame on its way to a landing queue of the die is admitted (R16, R185, R186, R245). -/
def execAdmitFrame (d : Fin 8) (pick : Nat) (s : State) : Res :=
  onDie s d
    (match s.qba.admitQ.find? (fun a => a.die == d.val) with
     | none => s
     | some a => admitNext { s with qba := { s.qba with admitQ := lrem a s.qba.admitQ } } a pick)

/-- DWELL_STAGE: one quay frame of a queue past its dwell limit is offered to the staging store (R188). -/
def execDwellStage (q : Fin 262144) (pick : Nat) (s : State) : Res :=
  onDie s (queueDie q)
    (if s.lqDwell q = 0 ∨ s.queueOpen q then s
     else match s.dwellCandidate q with
       | none => s
       | some i => offerItem s q pick i)

/-- A write of QBA_QSEL latches the five values of the queue (R196). -/
def wrQsel (s : State) (d : Nat) (w : Word) : Ans :=
  let q := d * 32768 + fld w 14 0
  let l := s.lq q
  let t := s.setReg .QBA_QSEL d [] (BitVec.ofNat 32 (fld w 14 0))
  let v := [l.occ, s.charged q l.opened, l.admitDrop, l.qStaged, l.qDwell]
  (.ok, (List.range 5).foldl (fun t i => t.setReg .QBA_QDATA d [i] (BitVec.ofNat 32 (v.getD i 0))) t)

/-- A read of QBA_QDATA: the latched value; words 2 to 4 are cleared and subtracted from the queue's counter (R196). -/
def rdQdata (s : State) (d i : Nat) : Word × State :=
  let v := s.reg .QBA_QDATA d [i]
  if i < 2 then (v, s)
  else
    let q := d * 32768 + s.rf .QBA_QSEL d [] 14 0
    let t := s.setReg .QBA_QDATA d [i] 0
    (v, t.modLq q (fun l =>
      if i = 2 then { l with admitDrop := l.admitDrop - v.toNat }
      else if i = 3 then { l with qStaged := l.qStaged - v.toNat }
      else { l with qDwell := l.qDwell - v.toNat }))

/-- The answer of a register read by the host as a row of its own (R388). -/
def rdResult (s : State) (a : Word × State) : State :=
  if s.glb.mode.any then
    { a.2 with gwe := { a.2.gwe with results := [{ opcode := 0x10, tag := 0, status := .ok, data := beBytes 4 a.1.toNat }] } }
  else { s with gwe := { s.gwe with results := [{ opcode := 0x10, tag := 0, status := .mode, data := [] }] } }

/-- A host read of a register of a die block: an excluded die refuses it (R469). -/
def hostDieRd (s : State) (d : Nat) (f : State → Word × State) : Res :=
  .next
    (if s.dies ≤ d ∨ s.excluded d then { s with gwe := { s.gwe with results := [{ opcode := 0x10, tag := 0, status := if s.glb.mode.any then .badaddr else .mode, data := [] }] } }
     else rdResult s (f s))

/-- QBA_QSEL_WRITE (R196). -/
def execQbaQselWrite (d : Fin 8) (w : Word) (s : State) : Res := hostDieWr s d false (fun s => wrQsel s d w)

/-- QBA_QDATA_READ (R196). -/
def execQbaQdataRead (d : Fin 8) (i : Fin 5) (s : State) : Res := hostDieRd s d (fun s => rdQdata s d i)

end Sys2Proof.Machine
end

