-- ==== Sys2Proof/Machine/Mcs.lean ====
section
/-! DEFINITION. The microcode control store and the edit programs: words, edit operations, chain checks (spec/14 R417 to R421, spec/08 R247 to R251). -/

namespace Sys2Proof.Machine

/-- Bits [hi:lo] of a microword. -/
def mfld (w : BitVec 128) (hi lo : Nat) : Nat := bitsOf w.toNat hi lo

/-- The exit words of the vendor program after a cold reset: CYC = 1 and END = 1 (R421). -/
def mcsExit : BitVec 128 := 0x14000000000000000000000000000000
/-- Every other customer word after a cold reset: CYC = 1 and FAIL = 1 (R421). -/
def mcsFail : BitVec 128 := 0x12000000000000000000000000000000

/-- A microword as it is stored: the reserved bits of a parse word, or of an edit word, are zero (R9, R109, R248). -/
def mwStored (v : BitVec 128) : BitVec 128 :=
  if v.getLsbD 123 then v &&& 0xFFFFFFFFFFF00000FFFFFFFFFFFFFFFF else v &&& 0xFFFFFFFFFFFFFFFFFFFFFFFFFFFFF800

/-- What an MCS word holds after a cold start: the ROM image in the vendor region, with its reserved bits zero, and the fill of R421 in the customer region (R9, R410, R418). -/
def mcsDefault (w : Nat) : BitVec 128 :=
  if w < 0x3000 then mwStored (Config.romWord w) else if w < 0x3010 then mcsExit else mcsFail

/-- A stored microword; every die holds the same (R417). -/
def State.mcsWord (s : State) (w : Nat) : BitVec 128 := (mfind s.plt.mcs w).getD (mcsDefault w)

/-- A microword stored on every die (R419, R427). A vendor word that a patch wrote stays listed. -/
def State.setMcs (s : State) (w : Nat) (v : BitVec 128) : State :=
  { s with plt := { s.plt with mcs := if w < 0x3000 then minsert w (mwStored v) s.plt.mcs else mset (mcsDefault w) s.plt.mcs w (mwStored v) } }

/-- The word has an uncorrectable error on a die (R422). -/
def State.mcsIsBad (s : State) (d w : Nat) : Bool := decide ((d, w) ∈ s.plt.mcsBad)

/-- KIND of a microword (R417). -/
def mwKind (w : BitVec 128) : Nat := mfld w 123 123
/-- CYC of a microword (R417). -/
def mwCyc (w : BitVec 128) : Nat := mfld w 127 124

/-- END of an edit word (R248). -/
def edEnd (w : BitVec 128) : Bool := mfld w 122 122 = 1
/-- OP of an edit word. -/
def edOp (w : BitVec 128) : Nat := mfld w 121 118
/-- OFF of an edit word. -/
def edOff (w : BitVec 128) : Nat := mfld w 117 110
/-- Length of an edit word: LENM1 + 1. -/
def edLen (w : BitVec 128) : Nat := mfld w 109 104 + 1
/-- PDOFF of an edit word. -/
def edPd (w : BitVec 128) : Nat := mfld w 103 98
/-- NEXT of an edit word. -/
def edNext (w : BitVec 128) : Nat := mfld w 97 84
/-- The immediate bytes of an edit word, most significant first. -/
def edImm (w : BitVec 128) : List Byte := beBytes 8 (mfld w 63 0)

/-- Least cycles of an edit operation (R249). -/
def edMin (w : BitVec 128) : Nat :=
  if edOp w = 3 ∨ edOp w = 4 ∨ edOp w = 5 then 2
  else if edOp w = 7 then 1 + (edLen w + 15) / 16
  else 1

/-- An edit word on its own is good (R250, R420): its operation, its cycles, its lengths. -/
def edGood (w : BitVec 128) : Bool :=
  decide (edOp w ≤ 8) && decide (edMin w ≤ mwCyc w + 1)
    && !((edOp w = 1 ∨ edOp w = 3) && decide (8 < edLen w))
    && !((edOp w = 2 ∨ edOp w = 4) && decide (64 < edPd w + edLen w))

/-- Bytes that an edit word inserts. -/
def edGrow (w : BitVec 128) : Nat := if edOp w = 3 ∨ edOp w = 4 then edLen w else 0

/-- The chain from an address passes R250: words left, cycles spent, bytes inserted, growth bound. -/
def State.chainFrom (s : State) (grow : Nat) : Nat → Nat → Nat → Nat → Bool
  | 0, _, _, _ => false
  | fuel + 1, a, cyc, ins =>
    let w := s.mcsWord a
    let cyc := cyc + mwCyc w + 1
    let ins := ins + edGrow w
    decide (mwKind w = 1) && edGood w && decide (cyc ≤ 24) && decide (ins ≤ grow)
      && (edEnd w || s.chainFrom grow fuel (edNext w) cyc ins)

/-- A value of RSQ_EDIT_PROG passes R250. -/
def State.editProgGood (s : State) (w : Word) : Bool :=
  !bit w 31 || s.chainFrom (fld w 7 0) 16 (fld w 29 16) 0 0

/-- VALID of an edit program on a die; program 0 is always valid (R247). -/
def State.editValid (s : State) (d n : Nat) : Bool := bit (s.reg .RSQ_EDIT_PROG d [n]) 31

/-- GROW of an edit program on a die (R247). -/
def State.editGrow (s : State) (d n : Nat) : Nat := if n = 0 then 0 else s.rf .RSQ_EDIT_PROG d [n] 7 0

/-- The 64 port data bytes of a port (R249, R256). -/
def State.portData (s : State) (p : Nat) : List Byte :=
  (List.range 16).flatMap (fun w => beBytes 4 (s.reg .RSQ_PORT_DATA (p / 4) [p % 4, w]).toNat)

/-- Bytes at an offset replaced. -/
def replaceAt (l : List Byte) (o : Nat) (b : List Byte) : List Byte := l.take o ++ b ++ l.drop (o + b.length)

/-- The ones' complement sum of 16-bit pieces; an odd length is padded with a zero byte (R249). -/
def sum16 : List Byte → Nat → Nat
  | [], acc => acc
  | [a], acc => fold16 (acc + a.toNat * 256)
  | a :: b :: r, acc => sum16 r (fold16 (acc + a.toNat * 256 + b.toNat))
where
  /-- The carry added back in. -/
  fold16 (x : Nat) : Nat := x % 65536 + x / 65536

/-- Bytes o to o + n - 1 lie in the frame before the FCS and within the first 256 bytes (R251). -/
def edReach (l : List Byte) (o n : Nat) : Bool := decide (o + n ≤ 256) && decide (o + n ≤ l.length)

/-- An insertion lies at or before the FCS position and within the first 256 bytes (R251; log 31). -/
def edInsReach (l : List Byte) (o n : Nat) : Bool := decide (o + n ≤ 256) && decide (o ≤ l.length)

/-- Bytes from an offset on. -/
def sliceOf (l : List Byte) (o n : Nat) : List Byte := (l.drop o).take n

/-- The checksum that CSUM writes: the field itself counts as zero (R249). -/
def edCsum (l : List Byte) (o n f : Nat) : List Byte :=
  beBytes 2 (65535 - sum16 (sliceOf (replaceAt l f [0, 0]) o n) 0)

/-- The effect of one edit word on the frame without its FCS, or failure (R249, R251): port data, crossing, step. -/
def editWord (pd : List Byte) (xing step : Nat) (w : BitVec 128) (l : List Byte) : Option (List Byte) :=
  let o := edOff w
  let n := edLen w
  let imm := (edImm w).take n
  let pdb := sliceOf pd (edPd w) n
  match edOp w with
  | 1 => if edReach l o n then some (replaceAt l o imm) else none
  | 2 => if edReach l o n then some (replaceAt l o pdb) else none
  | 3 => if edInsReach l o n then some (l.take o ++ imm ++ l.drop o) else none
  | 4 => if edInsReach l o n then some (l.take o ++ pdb ++ l.drop o) else none
  | 5 => if edReach l o n then some (l.take o ++ l.drop (o + n)) else none
  | 6 => if edReach l o 1 then some (replaceAt l o [BitVec.ofNat 8 ((l.getD o 0).toNat - 1)]) else none
  | 7 =>
    let f := mfld w 7 0
    if edReach l o n ∧ edReach l f 2 then some (replaceAt l f (edCsum l o n f)) else none
  | 8 => if edReach l o 8 then some (replaceAt l o (beBytes 4 xing ++ beBytes 4 step)) else none
  | _ => some l

/-- The chain of an edit program run on a frame: words left, address (R248, R251). -/
def State.editChain (s : State) (d : Nat) (pd : List Byte) : Nat → Nat → List Byte → Option (List Byte)
  | 0, _, l => some l
  | fuel + 1, a, l =>
    if s.mcsIsBad d a then none
    else match editWord pd (s.xingOn d) (s.stepOn d) (s.mcsWord a) l with
      | none => none
      | some m => if edEnd (s.mcsWord a) then some m else s.editChain d pd fuel (edNext (s.mcsWord a)) m

/-- An edit program of die d run on the bytes of a frame departing on port p, the received FCS dropped; none when the edit fails (R247, R249, R251). -/
def State.runEdit (s : State) (d p n : Nat) (l : List Byte) : Option (List Byte) :=
  if n = 0 then some l
  else if ¬ s.editValid d n then none
  else match s.editChain d (s.portData p) 16 (s.rf .RSQ_EDIT_PROG d [n] 29 16) l with
    | some m => if m.length ≤ 9212 then some m else none
    | none => none

/-- The frame as the MAC sends it: padded to 60 bytes, with a new FCS (R251, R494). -/
def macFrame (l : List Byte) : List Byte :=
  let m := padTo (max 60 l.length) l
  m ++ (beBytes 4 (fcsOf m)).reverse

/-- A write of RSQ_EDIT_PROG: RWP, program 0 read-only, and a write that leaves VALID = 1 is checked (R250, R256). -/
def wrEditProg (s : State) (d n : Nat) (w : Word) : Ans :=
  if n = 0 then (.ok, s)
  else
    let v := BitVec.ofNat 32 (w.toNat &&& 0xBFFF00FF)
    if s.glb.mode = .provision then
      if s.editProgGood v then (.ok, s.setReg .RSQ_EDIT_PROG d [n] v) else (.badaddr, s)
    else if v = s.reg .RSQ_EDIT_PROG d [n] then (.ok, s) else (.mode, s)

/-- A write of RSQ_PORT_DATA: words 0 to 14 are held, word 15 changes all 16 together (R256). -/
def wrPortData (s : State) (d l w : Nat) (v : Word) : Ans :=
  let k := (d * 4 + l) * 16
  if w < 15 then (.ok, { s with rsq := { s.rsq with pdHeld := minsert (k + w) v s.rsq.pdHeld } })
  else
    let t := (List.range 15).foldl (fun t i =>
      match mfind s.rsq.pdHeld (k + i) with
      | some x => t.setReg .RSQ_PORT_DATA d [l, i] x
      | none => t) s
    let t := t.setReg .RSQ_PORT_DATA d [l, 15] v
    (.ok, { t with rsq := { t.rsq with pdHeld := mdrop (fun x => k ≤ x ∧ x < k + 16) t.rsq.pdHeld } })

/-- EDIT_PROG_WRITE (R250). -/
def execEditProgWrite (d : Fin 8) (n : Fin 256) (w : Word) (s : State) : Res :=
  hostDieWr s d false (fun s => wrEditProg s d n w)

/-- PORT_DATA_COMMIT: a write of word 15 of a port's data (R256). -/
def execPortDataCommit (d : Fin 8) (l : Fin 4) (w : Word) (s : State) : Res :=
  hostDieWr s d true (fun s => wrPortData s d l 15 w)

end Sys2Proof.Machine
end

