-- ==== Sys2Proof/Machine/Cte.lean ====
section
/-! DEFINITION. The crossing timetable engine at work: runs, prefetch, the choice of frames, departure, age limits and swaps (spec/03 R72 to R98). -/

namespace Sys2Proof.Machine

/-- MODE of the port whose first lane a package port number names (R485, R499). -/
def State.portMode (s : State) (p : Nat) : Nat := s.rf .LPX_PORT_CFG (p / 4) [p % 4] 19 16

/-- Lanes of a port; 0 where no port has its first lane (R485). -/
def State.portLanes (s : State) (p : Nat) : Nat := if s.portMode p % 4 = 0 then 0 else 2 ^ (s.portMode p / 4)

/-- EN of a port whose first lane a number names. -/
def State.portEn (s : State) (p : Nat) : Bool := bit (s.reg .LPX_PORT_CFG (p / 4) [p % 4]) 31 && decide (s.portMode p % 4 ≠ 0)

/-- The line lanes work: neither LISTEN nor the RESET of a cold reset (R439, R453, R488). -/
def State.linesOn (s : State) : Bool := s.glb.mode.any || s.glb.warm.isSome

/-- A die's port island is served: by the die, or after its exclusion by its partner (R33, R471, R479). -/
def State.islandServed (s : State) (d : Nat) : Bool := !s.excluded d || bit (s.reg .DIE_HEALTH 0 []) (8 + d)

/-- A port works: enabled, its lanes on, its island not lost and served (R479, R488). -/
def State.portOn (s : State) (p : Nat) : Bool := s.linesOn && s.portEn p && decide (p / 4 ∉ s.lpx.lost) && s.islandServed (p / 4)

/-- The step period in fs: PHI_PERIOD, or the self-phase period (R83). -/
def State.stepPeriod (s : State) : Nat :=
  if s.phi.src = .self then s.rf .PHI_SELF_STEP 0 [] 15 0 * 1000 else s.phi.period

/-- BPS of a port: floor(rate × step period / 8), 100 Gbit/s for each lane (R83, R485). -/
def State.bpsOf (s : State) (p : Nat) : Nat := s.portLanes p * 100 * s.stepPeriod / 8000000

/-- CTE_PORT_STAT.BPS, as computed at the last step 0 (R83). -/
def State.bps (s : State) (p : Nat) : Nat := s.rf .CTE_PORT_STAT (p / 4) [p % 4] 15 0

/-- BPS of every port computed anew (R83). -/
def recomputeBps (s : State) : State :=
  (List.range (s.dies * 4)).foldl (fun t p => t.setRf .CTE_PORT_STAT (p / 4) [p % 4] 15 0 (t.bpsOf p)) s

/-- Data chunks of a segment that hold bytes of its FILL (R94, R202). -/
def State.pfChunks (s : State) (j : Nat) : Nat :=
  match s.seg j with
  | some x => (x.fill + 8191) / 8192
  | none => 0

/-- Chunks of the prefetch area of a die in use or awaited (R94). -/
def State.pfUsed (s : State) (d : Nat) : Nat :=
  s.cte.pf.foldl (fun a p => if p.st ≠ .waiting ∧ s.server (queueDie p.q) = d then a + p.chunks else a) 0

/-- A chunk read of a segment: at its own stack, or, where that stack is lost, at the other members for reconstruction (R221, R224). -/
def readChunk (s : State) (j smask k port target : Nat) (deadline : Option Nat) : State :=
  let d := chunkDie smask j k
  if nbit s.ssc.lost d then readParity s (s.server d) j d port allPc target deadline
  else pushReq s d port false (.chunk j d) allPc target deadline

/-- Local time in ns of a number of steps. -/
def State.stepsNs (s : State) (n : Nat) : Nat := n * s.stepPeriod / 1000000

/-- The P0 reads of a prefetched segment (R90 to R94, R211): target and deadline. -/
def issuePf (s : State) (p : Pf) : State :=
  match s.seg p.seg with
  | none => s
  | some x =>
    let lead := s.stepsNs (p.deadline - s.phi.stepCnt)
    let target := if p.counts then max 1 lead else s.portTarget (s.server (queueDie p.q)) 0
    (List.range p.chunks).foldl (fun t k => readChunk t p.seg x.smask k 0 target (some (t.ssc.now + lead))) s

/-- A segment is requested, for the run that begins at a step count, or waits for room in the prefetch area (R94). A request whose chunks fit proceeds even while an older one waits (log 68). -/
def requestSeg (s : State) (q j deadline run : Nat) (counts : Bool) : State :=
  let d := s.server (queueDie q)
  let c := s.pfChunks j
  let p : Pf := { q := q, seg := j, chunks := c, deadline := deadline, counts := counts, late := false, begun := false, run := run, st := .requested }
  if s.pfUsed d + c ≤ 8 * s.pfSize d then
    issuePf { s with cte := { s.cte with pf := s.cte.pf ++ [p] } } p
  else
    { s with cte := { s.cte with pf := s.cte.pf ++ [{ p with st := .waiting }] } }.bump .CTE_PF_WAIT_CNT d

/-- The prefetch of a segment. -/
def State.pfOf (s : State) (q j : Nat) : Option Pf := s.cte.pf.find? (fun p => p.q = q ∧ p.seg = j)

/-- A change of the prefetch of a segment. -/
def State.modPf (s : State) (q j : Nat) (f : Pf → Pf) : State :=
  { s with cte := { s.cte with pf := s.cte.pf.map (fun p => if p.q = q ∧ p.seg = j then f p else p) } }

/-- The prefetch of a segment is over: its place in the area is free and its reads are withdrawn (R94). -/
def dropPf (s : State) (q j : Nat) : State :=
  { s with
    cte := { s.cte with pf := s.cte.pf.filter (fun p => !(p.q = q ∧ p.seg = j)) }
    ssc := { s.ssc with req := s.ssc.req.filter (fun r => !(r.port = 0 && !r.write && decide (r.what.seg = some j))) } }

/-- Segments of a queue that hold frames still in it, in queue order, that satisfy p (R208). -/
def State.heldSegs (s : State) (q : Nat) (p : Seg → Bool) : List Nat :=
  let l := s.lq q
  l.segs.filter (fun j => l.items.any (fun i => i.staged && i.seg = j) && (match s.seg j with
    | some x => p x
    | none => false))

/-- PF_DEPTH: above 4 acts as 4, 0 as 1 (R101). -/
def State.pfDepth (s : State) : Nat := max 1 (min 4 (s.rf .CTE_PF 0 [] 26 24))

/-- PREFETCH_LEAD: above PHI_XLEN acts as PHI_XLEN (R101). -/
def State.pfLead (s : State) : Nat := min s.xlen (s.rf .CTE_PF 0 [] 23 0)

/-- The queues of bank b in group g. -/
def State.groupQueues (s : State) (b g : Nat) : List Nat :=
  ((List.range 32).map (fun c => b * 32 + c)).filter (fun q => s.lqGroup q = g)

/-- The crossing and step that lie n steps after the present one of a die, n at most one crossing. -/
def State.stepAhead (s : State) (d n : Nat) : Nat × Nat :=
  if s.stepOn d + n < s.xlen then (s.xingOn d, s.stepOn d + n) else ((s.xingOn d + 1) % 2 ^ 32, s.stepOn d + n - s.xlen)

/-- Coverage of bank b for group g at a step (R71). -/
def State.coveredAt (s : State) (b g n st : Nat) : Bool := s.coveredIn (s.copyAt n) b g n st

/-- Coverage at the step before one. -/
def State.coveredBefore (s : State) (b g n st : Nat) : Bool :=
  if st = 0 then s.coveredAt b g ((n + (2 ^ 32 - 1)) % 2 ^ 32) (s.xlen - 1) else s.coveredAt b g n (st - 1)

/-- Some window of bank b for group g covers a step from the present one up to PREFETCH_LEAD steps ahead (R93). -/
def State.runWithin (s : State) (b g : Nat) : Bool :=
  let hits (n lo hi : Nat) : Bool := (s.windows (s.copyAt n) b).any (fun v =>
    nbit v.gmask g && v.valid &&
      (if v.span then decide (v.start ≤ n % (v.modm1 + 1)) && decide (n % (v.modm1 + 1) ≤ v.stop)
       else decide (n % (v.modm1 + 1) = v.residue) && decide (v.start ≤ hi) && decide (lo ≤ min v.stop (s.xlen - 1)) && decide (v.start ≤ s.xlen - 1)))
  let n := s.xingOn (s.bankServer b)
  let st := s.stepOn (s.bankServer b)
  let e := st + s.pfLead
  hits n st (min e (s.xlen - 1)) || (decide (s.xlen ≤ e) && hits ((n + 1) % 2 ^ 32) 0 (e - s.xlen))

/-- A landing queue is due (R93): its bank may open, and it is open for the queue's group or a run has passed its prefetch point. -/
def State.dueQueue (s : State) (q : Nat) : Bool :=
  s.bankMayOpen (bankOf q) && s.runWithin (bankOf q) (s.lqGroup q)

/-- The first segments of a list that are not requested, as many as PF_DEPTH leaves room for (R90, R93). -/
def requestSome (s : State) (q deadline run : Nat) (counts : Bool) (js : List Nat) : State :=
  let have_ := (s.cte.pf.filter (fun p => p.q = q)).length
  ((js.filter (fun j => (s.pfOf q j).isNone)).take (s.pfDepth - have_)).foldl (fun t j => requestSeg t q j deadline run counts) s

/-- Of the first PF_DEPTH segments of a queue, those that are requested already stay for the run that begins at a step count (R94; log 68). -/
def keepForRun (s : State) (q run : Nat) (js : List Nat) : State :=
  { s with cte := { s.cte with pf := s.cte.pf.map (fun p => if p.q = q ∧ (js.take s.pfDepth).contains p.seg then { p with run := run } else p) } }

/-- The prefetch point of a run of bank b for group g: open segments of the queues are closed, and the first PF_DEPTH staged segments are requested (R90, R207). In a crossing whose copy is not known yet the copy last selected stands (log 21). -/
def prefetchAt (s : State) (b g : Nat) : State :=
  let (n, st) := s.stepAhead (s.bankServer b) s.pfLead
  if s.bankMayOpen b ∧ s.coveredAt b g n st ∧ ¬ s.coveredBefore b g n st then
    let opening := (s.windows (s.copyAt n) b).filter (fun v => v.covers s.xlen n st && nbit v.gmask g)
    (s.groupQueues b g).foldl (fun t q =>
      let t := match (t.lq q).opened with
        | some j => closeSegment t j true
        | none => t
      let t := if t.freshOf q then closeFresh t true else t
      if opening.any (fun v => !v.nopf) then
        let run := t.phi.stepCnt + t.pfLead
        let js := t.heldSegs q (fun x => x.st ≠ .opened)
        requestSome (keepForRun t q run js) q run run true js
      else t) s
  else s

/-- A due queue has its next staged segments requested, with the present step as the deadline (R93). -/
def dueRead (s : State) (q : Nat) : State :=
  if s.dueQueue q then requestSome s q s.phi.stepCnt s.phi.stepCnt false (s.heldSegs q (fun x => x.st = .written)) else s

/-- Every chunk read of a prefetched segment has been committed (R217). -/
def State.pfReads (s : State) (j : Nat) : Bool :=
  s.ssc.req.all (fun r => !(r.port = 0 && !r.write && decide (r.what.seg = some j)))

/-- The frame's data can be sent at once: it lies in the quay, or its segment is in the prefetch area (R92). -/
def State.headReady (s : State) (q : Nat) (i : LQItem) : Bool :=
  !i.staged || (match s.pfOf q i.seg with
    | some p => p.st = .landed
    | none => false)

/-- Transmit time in steps (R84): length, growth bound, BPS. -/
def txSteps (len grow bps : Nat) : Nat := (len + grow + 20 + bps - 1) / bps

/-- Growth bound of the edit program of an item on the die that serves its queue (R84, R247). -/
def State.itemGrow (s : State) (q : Nat) (i : LQItem) : Nat := s.editGrow (s.server (queueDie q)) i.edit

/-- A frame fits the open run when it starts at the present step (R85), or behind a frame that ends in it, off = 1 (R537). -/
def State.fitsRun (s : State) (b g q off bps : Nat) (i : LQItem) : Bool :=
  let left := s.runLeft b g
  decide (4096 ≤ left) || decide (off + txSteps i.len (s.itemGrow q i) bps + s.cte.guard ≤ left + 1)

/-- A queue takes part in the selection: enabled, not skipped, its head ready (R88, R92, R100). -/
def State.queueReady (s : State) (q : Nat) : Bool :=
  let l := s.lq q
  s.lqEn q && !l.nofit && (match l.items with
    | [] => false
    | i :: _ => s.headReady q i)

/-- Heads that do not fit are skipped until the run ends, and counted (R89). -/
def skipHeads (s : State) (b : Nat) (qs : List Nat) : State :=
  qs.foldl (fun t q => (t.modLq q (fun l => { l with nofit := true })).modBank b (fun x => { x with nofit := satAdd 32 x.nofit 1 })) s

/-- Length of the head of a queue. -/
def State.headLen (s : State) (q : Nat) : Nat := ((s.lq q).items.head?.map (·.len)).getD 0

/-- Deficit round-robin over the queues of a group, whose ready and fitting heads are those of qs: rounds are added until one departs (R88). The number tells how many rounds were added. -/
def drrPick (s : State) (b g : Nat) (qs : List Nat) : Option Nat × Nat × State :=
  match qs with
  | [] => (none, 1, s)
  | q0 :: _ =>
    let need (q : Nat) : Nat := (s.headLen q - (s.lq q).deficit + s.lqQuantum q - 1) / s.lqQuantum q
    let k := qs.foldl (fun a q => min a (need q)) (need q0)
    let t := (s.groupQueues b g).foldl (fun t q =>
      if (t.lq q).items = [] then t else t.modLq q (fun l => { l with deficit := l.deficit + k * t.lqQuantum q })) s
    (qs.find? (fun q => t.headLen q ≤ (t.lq q).deficit), k, t)

/-- The selection of R88 in the groups of a list: the queue whose head departs. The ready heads that do not fit and that the selection passes before it are skipped: those of lower queues when no round had to be added, otherwise all. -/
def selectGroups (s : State) (b off bps : Nat) : List Nat → Option Nat × State
  | [] => (none, s)
  | g :: r =>
    if s.bankOpen b g then
      let ready := (s.groupQueues b g).filter (fun q => s.queueReady q)
      let fits (q : Nat) : Bool := match (s.lq q).items with
        | i :: _ => s.fitsRun b g q off bps i
        | [] => false
      match drrPick s b g (ready.filter fits) with
      | (some q, k, u) => (some q, skipHeads u b (ready.filter (fun x => !fits x && (decide (x < q) || decide (k ≠ 0)))))
      | (none, _, u) => selectGroups (skipHeads u b (ready.filter (fun x => !fits x))) b off bps r
    else selectGroups s b off bps r

/-- The open banks of a port, ascending (R87). -/
def State.openBanks (s : State) (p : Nat) : List Nat :=
  s.enabledBanks.filter (fun b => s.bankPort b = p && s.openMask b ≠ 0)

/-- The round of a port: banks that closed leave it, banks that opened join at its end (R87). -/
def updateRound (x : PortTx) (open_ : List Nat) : PortTx :=
  let served := x.served.filter (fun b => open_.contains b)
  let round := x.round.filter (fun b => open_.contains b)
  let turn := match x.turn with
    | some b => if open_.contains b then some b else none
    | none => none
  let fresh := open_.filter (fun b => !(served.contains b || round.contains b || decide (turn = some b)))
  { x with served := served, round := round ++ fresh, turn := turn, weight := if turn.isSome then x.weight else 1, held := if turn.isSome then x.held else [] }

/-- Banks of a port that have closed leave its round and banks that have opened join it; a bank that closes in its turn is served no longer (R87, R98). -/
def settleRound (s : State) (p : Nat) : State := s.modPtx p (fun x => updateRound x (s.openBanks p))

/-- The rounds of every port that has one. -/
def settleRounds (s : State) : State :=
  ((s.cte.port.filter (fun e => e.2.turn.isSome || e.2.round ≠ [] || e.2.served ≠ [] || e.2.held ≠ [])).map (·.1)).foldl settleRound s

/-- Weighted round-robin over the open banks of a port (R87): the queue whose head departs. A bank's WEIGHT is taken as its turn begins, and ENABLE and GROUP stay until it ends, so a change applies from the next round (R98; log 30). The Bool tells that a new round has begun in this search. -/
def portPick (p off bps : Nat) : Nat → Bool → State → Option Nat × State
  | 0, _, s => (none, s)
  | fuel + 1, again, s =>
    let x := s.ptx p
    match x.turn with
    | some b =>
      let pass (t : State) : State := t.modPtx p (fun x => { x with turn := none, started := 0, weight := 1, held := [], served := x.served ++ [b] })
      if x.started < x.weight then
        match selectGroups s b off bps [0, 1, 2, 3] with
        | (some q, t) => (some q, t.modPtx p (fun x => { x with started := x.started + 1 }))
        | (none, t) => portPick p off bps fuel again (pass t)
      else portPick p off bps fuel again (pass s)
    | none =>
      match x.round with
      | b :: r => portPick p off bps fuel again (s.modPtx p (fun x => { x with turn := some b, started := 0, weight := s.bankWeight b, round := r }))
      | [] =>
        if again ∨ x.served = [] then (none, s)
        else portPick p off bps fuel true (s.modPtx p (fun x => { x with round := s.openBanks p, served := [] }))

/-- Frames on a port that an edit engine is still passing on. -/
def State.editing (s : State) : List Nat :=
  s.cte.port.flatMap (fun e => e.2.wire.filterMap (fun w => if w.left then none else w.engine))

/-- The edit engines that may serve a port, in the order of R252: its region's, the other region's, and for an 800 Gbit/s port the partner's. -/
def State.enginesFor (s : State) (p : Nat) : List Nat :=
  let d := s.server (p / 4)
  let r := portRegion p
  let own := [d * 4 + 2 * r, d * 4 + 2 * r + 1, d * 4 + 2 * (1 - r), d * 4 + 2 * (1 - r) + 1]
  if s.portLanes p = 8 ∧ ¬ s.excluded (partner d) then own ++ (List.range 4).map (fun i => partner d * 4 + i) else own

/-- A free edit engine for a port (R252). -/
def State.freeEngine (s : State) (p : Nat) : Option Nat := (s.enginesFor p).find? (fun e => !s.editing.contains e)

/-- Frames that wait for an engine take those that are free, in port order (R252; log 32). -/
def assignEngines (s : State) : State :=
  (s.cte.port.map (·.1)).foldl (fun t p =>
    match (t.ptx p).wire.find? (fun w => !w.left && w.engine.isNone), t.freeEngine p with
    | some w, some e => t.modPtx p (fun x => { x with wire := x.wire.map (fun y => if y = w then { y with engine := some e } else y) })
    | _, _ => t) s

/-- A frame's place is released as it departs, ages or is lost: its buffer, its flood reference, its mirror, its segment and the prefetched data (R192, R208, R246, R253). -/
def releaseItem (s : State) (q : Nat) (i : LQItem) (aged : Bool := false) : State :=
  if i.staged then
    let t := freeMirror (leaveSegment s i.seg aged) i.mirror
    if (t.lq q).items.any (fun x => x.staged && x.seg = i.seg) then t else dropPf t q i.seg
  else freeMirror (if i.flood then releaseShared s i.handle else freeBuf s i.handle) i.mirror

/-- The bytes of a frame in its landing queue, without the received FCS. -/
def State.itemBytes (s : State) (i : LQItem) : List Byte :=
  if i.staged then s.stagedFrame i.seg i.off (i.len - 4) else s.quayBytes i.handle 128 (i.len - 4)

/-- When a prefetched segment starts to depart, the queue's next unrequested staged segment is requested, with the step at which the bytes ahead of it would have been sent as its deadline (R91). -/
def requestNext (s : State) (q : Nat) (i : LQItem) (bps : Nat) : State :=
  if ¬ i.staged then s
  else match s.pfOf q i.seg with
    | none => s
    | some p =>
      if p.begun then s
      else
        let t := s.modPf q i.seg (fun p => { p with begun := true })
        match (t.heldSegs q (fun x => x.st = .written)).find? (fun j => (t.pfOf q j).isNone) with
        | none => t
        | some j =>
          let ahead := (t.lq q).items.takeWhile (fun x => !(x.staged && x.seg = j))
          let bytes := ahead.foldl (fun a x => a + x.len + 20) (i.len + 20)
          requestSeg t q j (t.phi.stepCnt + (bytes + bps - 1) / bps) p.run true

/-- The head of a queue starts on a port (R84, R88, R248, R251, R537); a frame that would have to cross to the other die of an HX1620 whose link is down is lost (R478, R479). -/
def startFrame (s : State) (p q bps : Nat) : State :=
  let l := s.lq q
  match l.items with
  | [] => s
  | i :: rest =>
    let d := s.server (queueDie q)
    let bytes := s.runEdit d p i.edit (s.itemBytes i)
    let t := s.setLq q { l with items := rest, deficit := if rest = [] then 0 else l.deficit - i.len }
    let t := requestNext t q i bps
    let t := t.modPtx p (fun x => { x with backlog := x.backlog + i.len + s.itemGrow q i + 20 })
    if s.noRoute d (p / 4) then (releaseItem t q i).bump .PFB_ROUTE_DROP d
    else if ¬ i.staged ∧ s.quayBad i.handle 128 i.len then (releaseItem t q i).bump .ICU_FRAME_DROP d
    else match bytes with
    | none => (releaseItem t q i).bump .RSQ_EDIT_ERR d
    | some b => t.modPtx p (fun x => { x with wire := x.wire ++ [{ q := q, item := i, bytes := b, left := false, engine := t.freeEngine p }] })

/-- The port can start a frame in the present step: it works, its link is up, and its previous frame ends within the step or earlier (R72, R98, R488, R537). -/
def State.portFree (s : State) (p : Nat) : Bool :=
  s.portOn p && (s.ptx p).link && (mget {} s.lpx.port p).up && decide (0 < s.bps p) && decide ((s.ptx p).backlog ≤ s.bps p)

/-- The CTE starts the next frame of a port, if one is eligible (R85, R87, R88, R537). -/
def startOn (s : State) (p : Nat) : State :=
  if s.portFree p then
    let off := if (s.ptx p).backlog = 0 then 0 else 1
    match portPick p off (s.bps p) (4 * (s.openBanks p).length + 8) false (settleRound s p) with
    | (some q, t) => startFrame t p q (s.bps p)
    | (none, t) => t
  else s

/-- The run of bank b for group g has ended: deficits reset, skipped heads wait no longer, data prefetched for it is released, that for a later run stays (R88, R89, R94). -/
def endRun (s : State) (b g : Nat) : State :=
  let qs := ((mpick (fun q => bankOf q = b) s.qba.lq).map (·.1)).filter (fun q => s.lqGroup q = g)
  let t := qs.foldl (fun t q => t.modLq q (fun l => { l with deficit := 0, nofit := false })) s
  let gone := s.cte.pf.filter (fun p => bankOf p.q = b && s.lqGroup p.q = g && decide (p.run ≤ s.phi.stepCnt))
  gone.foldl (fun t p => dropPf t p.q p.seg) t

/-- One bank at a new step: openings are counted, and the runs that ended are ended (R73, R88, R100). -/
def stepBank (s : State) (b : Nat) : State :=
  let was := (s.bank b).openG
  let now := s.openMask b
  let t := if was = 0 ∧ now ≠ 0 then s.modBank b (fun x => { x with runs := satAdd 32 x.runs 1 }) else s
  let t := [0, 1, 2, 3].foldl (fun t g => if nbit was g ∧ ¬ nbit now g then endRun t b g else t) t
  if was = now then t else t.modBank b (fun x => { x with openG := now })

/-- Every bank at a new step, from which the present WIN_GUARD holds (R101). -/
def stepBanks (s : State) : State :=
  let s := { s with cte := { s.cte with guard := s.rf .CTE_GUARD 0 [] 9 0 } }
  let bs := s.enabledBanks ++ ((s.cte.bank.filter (fun e => e.2.openG ≠ 0)).map (·.1)).filter (fun b => !s.enabledBanks.contains b)
  settleRounds (bs.foldl stepBank s)

/-- A step has passed on every port: BPS bytes of its transmission are gone (R537). -/
def drainPorts (s : State) : State :=
  { s with cte := { s.cte with port := (s.cte.port.map (fun e => (e.1, { e.2 with backlog := e.2.backlog - s.bps e.1 }))).filter (fun e => e.2 ≠ {}) } }

/-- Frames started on a port and not completed are lost (R96); with its link down none of its banks is served, so a write to their entries applies at once (R72, R98). -/
def abortPort (s : State) (p : Nat) : State :=
  let t := (s.ptx p).wire.foldl (fun t w =>
    let t := t.modLq w.q (fun l => { l with linkAbort := satAdd 32 l.linkAbort 1 })
    if w.left then t else releaseItem t w.q w.item) s
  assignEngines (t.modPtx p (fun x => updateRound { x with wire := [], backlog := 0 } []))

/-- Age of a frame in its queue (R97, R446). -/
def State.ageOf (s : State) (i : LQItem) : Nat := sub32 s.age32 i.eage

/-- Head frames past the age limit are dropped until the head is within it; segments whose frames have all aged are freed unread (R97, R208). -/
def ageDrop (s : State) (q : Nat) : State :=
  let lim := s.lqAge q
  let l := s.lq q
  if lim = 0 then s
  else
    let old := l.items.takeWhile (fun i => decide (lim < s.ageOf i))
    let t := s.setLq q { l.keep (fun l => l.drop old.length) with ageDrop := satAdd 32 l.ageDrop old.length }
    old.foldl (fun t i => releaseItem t q i true) t

/-- A swap of the copies: CTE_LAST_SWAP and CTE_SWAP_CNT.DONE record it (R78, R81). -/
def swapTo (s : State) (copy xing : Nat) : State :=
  let t := { s with cte := { s.cte with active := copy } }
  (t.setReg .CTE_LAST_SWAP 0 [] (BitVec.ofNat 32 xing)).bumpF .CTE_SWAP_CNT 0 [] 15 0 1

/-- A swap by the host: the generation increments and EV_TT_SWAP is reported (R78, R81, R102). -/
def hostSwap (s : State) (xing : Nat) : State :=
  let t := swapTo s (1 - s.cte.active) xing
  let t := { t with cte := { t.cte with swap := none } }
  let t := t.bumpGen .CTE_STATE 0
  t.raiseEv 0x8401 pkg (t.gen .CTE_STATE 0) [xing, t.cte.active, t.gen .CTE_STATE 0]

/-- The current crossing precedes N by at least 2, modulo 2^32 within a half range (R77, R80). -/
def State.earlyFor (s : State) (n : Nat) : Bool :=
  let d := (n + 2 ^ 32 - s.phi.xing % 2 ^ 32) % 2 ^ 32
  decide (2 ≤ d) && decide (d < 2 ^ 31)

/-- A write of CTE_SWAP (R77, R80, R81, R101): the generation, then one of ARM, CANCEL and NOW. -/
def wrSwap (s : State) (w : Word) : Ans :=
  let arm := bit w 0
  let cancel := bit w 1
  let now := bit w 2
  let src := s.copySrc
  if ¬ genOk (fld w 31 16) (s.gen .CTE_STATE 0) then (.stale, s)
  else if 1 < b2n arm + b2n cancel + b2n now then (.badaddr, s)
  else if arm then
    if src then (.denied, s)
    else if s.cte.swap.isSome then (.busy, s)
    else
      let n := (s.reg .CTE_SWAP_XING 0 []).toNat
      if s.earlyFor n then (.ok, ({ s with cte := { s.cte with swap := some n } }).bumpGen .CTE_STATE 0)
      else (.denied, s.bumpF .CTE_SWAP_CNT 0 [] 31 16 1)
  else if cancel then
    match s.cte.swap with
    | none => (.ok, s)
    | some n => if s.earlyFor n then (.ok, ({ s with cte := { s.cte with swap := none } }).bumpGen .CTE_STATE 0) else (.denied, s)
  else if now then
    if s.glb.mode ≠ .provision then (.mode, s)
    else if src then (.denied, s)
    else if s.cte.swap.isSome then (.busy, s)
    else (.ok, hostSwap s s.phi.xing)
  else (.ok, s)

/-- A write of CTE_SWAP_XING (R101). -/
def wrSwapXing (s : State) (w : Word) : Ans :=
  if s.cte.swap.isSome then (.busy, s) else (.ok, s.setReg .CTE_SWAP_XING 0 [] w)

/-- CTE_SWAP_ARM (R77). -/
def execCteSwapArm (exp : BitVec 16) (s : State) : Res :=
  hostWr s (fun s => wrSwap s (packWord [(16, exp.toNat), (0, 1)]))

/-- CTE_SWAP_CANCEL (R80). -/
def execCteSwapCancel (exp : BitVec 16) (s : State) : Res :=
  hostWr s (fun s => wrSwap s (packWord [(16, exp.toNat), (1, 1)]))

/-- CTE_SWAP_NOW (R81). -/
def execCteSwapNow (exp : BitVec 16) (s : State) : Res :=
  hostWr s (fun s => wrSwap s (packWord [(16, exp.toNat), (2, 1)]))

/-- An armed swap whose crossing has come takes effect (R53, R78). -/
def dueSwap (s : State) : State :=
  match s.cte.swap with
  | some n => if reaches s.phi.xing n then hostSwap s s.phi.xing else s
  | none => s

/-- TIMETABLE_SWAP: an armed swap takes effect at step 0 of its crossing, or of the first crossing at or after it (R53, R78). -/
def execTimetableSwap (s : State) : Res := .next (dueSwap s)

/-- The copy that a word selected becomes active once a crossing has begun after the word (R41, R81), after a swap that falls in the same crossing (log 21). -/
def settleCopy (s : State) : State :=
  match s.cte.nextCopy with
  | some (c, some x) =>
    if s.copySrc then
      let t := dueSwap s
      let t := { t with cte := { t.cte with nextCopy := none } }
      if c = t.cte.active then t else swapTo t c x
    else s
  | _ => s

/-- COPY_SELECT: the copy that a phase word selected becomes active in the first crossing after the word (R41, R81). -/
def execCopySelect (s : State) : Res := .next (settleCopy s)

/-- DEPARTURE_START (R85). -/
def execDepartureStart (p : Fin 32) (s : State) : Res := onDie s (p / 4) (startOn s p)

/-- PREFETCH_POINT (R90). -/
def execPrefetchPoint (b : Fin 8192) (g : Fin 4) (s : State) : Res := onDie s (bankDie b) (prefetchAt s b g)

/-- PREFETCH_LAND: the reads of a requested segment are committed, so it is in the prefetch area (R92, R217). -/
def execPrefetchLand (q : Fin 262144) (seg : Nat) (s : State) : Res :=
  onDie s (queueDie q)
    (match s.pfOf q seg with
     | some p => if p.st = .requested ∧ s.pfReads seg then s.modPf q seg (fun p => { p with st := .landed }) else s
     | none => s)

/-- PREFETCH_DEADLINE: a segment not present at its deadline counts as late (R92, R93). -/
def execPrefetchDeadline (q : Fin 262144) (seg : Nat) (s : State) : Res :=
  onDie s (queueDie q)
    (match s.pfOf q seg with
     | some p =>
       if p.st ≠ .landed ∧ p.counts ∧ ¬ p.late ∧ p.deadline ≤ s.phi.stepCnt then
         ((s.modPf q seg (fun p => { p with late := true })).modBank (bankOf q) (fun x => { x with pfLate := satAdd 16 x.pfLate 1 })).bump .CTE_PF_LATE_CNT (s.server (queueDie q))
       else s
     | none => s)

/-- DUE_QUEUE_READ (R93). -/
def execDueQueueRead (q : Fin 262144) (s : State) : Res := onDie s (queueDie q) (dueRead s q)

/-- PREFETCH_AREA_WAIT: the oldest request that waits for room proceeds once its chunks fit (R94), where prefetch is issued at all (R72, R445). -/
def execPrefetchAreaWait (d : Fin 8) (s : State) : Res :=
  onDie s d
    (match s.cte.pf.find? (fun p => p.st = .waiting && s.server (queueDie p.q) = d.val) with
     | some p =>
       if s.glb.mode.departs ∧ s.pfUsed d + p.chunks ≤ 8 * s.pfSize d then issuePf (s.modPf p.q p.seg (fun p => { p with st := .requested })) p else s
     | none => s)

/-- LINK_STATE_APPLY: the oldest link report of the port takes effect (R95). -/
def execLinkStateApply (p : Fin 32) (s : State) : Res :=
  onDie s (p / 4)
    (match s.cte.linkRep.find? (fun e => e.1 == p.val) with
     | some e => ({ s with cte := { s.cte with linkRep := lrem e s.cte.linkRep } }).modPtx p (fun x => if e.2 then { x with link := true } else updateRound { x with link := false } [])
     | none => s)

/-- AGE_DROP (R97). -/
def execAgeDrop (q : Fin 262144) (s : State) : Res := onDie s (queueDie q) (ageDrop s q)

/-- FRAME_LEAVE_QUAY: the next started frame of a port has passed its edit engine; its place is released and counted (R253). -/
def execFrameLeaveQuay (p : Fin 32) (s : State) : Res :=
  onDie s (p / 4)
    (match (s.ptx p).wire.find? (fun w => !w.left) with
     | some w =>
       if w.engine.isNone then s
       else
         let n := (macFrame w.bytes).length
         let t := s.modPtx p (fun x => { x with wire := (x.wire.takeWhile (fun y => y.left)) ++ [{ w with left := true }] ++ (x.wire.dropWhile (fun y => y.left)).drop 1 })
         let t := t.modLq w.q (fun l => { l with depFrames := satAdd 32 l.depFrames 1, depKb := satAdd 32 l.depKb ((l.depRem + n) / 1024), depRem := (l.depRem + n) % 1024 })
         assignEngines (releaseItem t w.q w.item)
     | none => s)

/-- Bytes that a started frame occupies its port for (R84, R537). -/
def State.wireLen (s : State) (w : WireFrame) : Nat := w.item.len + s.itemGrow w.q w.item + 20

/-- FRAME_TRANSMIT_END: the first started frame of a port has completed on the wire (R494), which a port whose transmitter is idle does not (R488). -/
def execFrameTransmitEnd (p : Fin 32) (s : State) : Res :=
  onDie s (p / 4)
    (match (s.ptx p).wire with
     | w :: rest =>
       let behind := rest.foldl (fun a x => a + s.wireLen x) 0
       if s.portOn p ∧ w.left ∧ (s.ptx p).backlog ≤ behind + s.bps p then
         let b := macFrame w.bytes
         let k := mget {} s.lpx.port p
         let t := { s with lineTx := s.lineTx ++ [LineTx.mk p b] }
         let t := t.modPtx p (fun x => { x with wire := rest })
         let t := t.bump .LPX_TX_FRAMES (p / 4) [p % 4]
         let t := t.bumpN .LPX_TX_KB (p / 4) [p % 4] ((k.txKb + b.length) / 1024)
         { t with lpx := { t.lpx with port := mmod {} t.lpx.port p (fun x => { x with txKb := (x.txKb + b.length) % 1024 }) } }
       else s
     | [] => s)

end Sys2Proof.Machine
end

