-- ==== Sys2Proof/Machine/Hbm.lean ====
section
/-! DEFINITION. The controllers of the stacks at work: requests, refresh, training, spare units, lost channels and stacks, the rebuild (spec/07 R206 to R231). -/

namespace Sys2Proof.Machine

/-- Local time as last told (log 9); it never moves back. -/
def State.at_ (s : State) (now : Nat) : State := { s with ssc := { s.ssc with now := max s.ssc.now now } }

/-- Piece number on its stack that a request moves on a pseudo-channel (R197, R198). -/
def pieceOf (s : State) (r : HbmReq) (pc : Nat) : Nat :=
  match r.what with
  | .chunk j _ => j * 32 + pc
  | .parity j _ => j * 32 + pc
  | .record j => recordPiece s j (r.die ≠ s.homeDie j)
  | .ctx d i => (0x59E830000 + (if d = r.die then 0 else 0x800000) + i * 128) / 256
  | .spill i => (0x59F830000 + i * 16) / 256
  | .scrub p => p
  | .unit u => u * 32 + pc

/-- The requests that wait at a pseudo-channel. -/
def State.pcReqs (s : State) (d pc : Nat) : List HbmReq := s.ssc.req.filter (fun r => r.die = d && nbit r.mask pc)

/-- Urgency of a request at a local time (R211). -/
def urgency (now : Nat) (r : HbmReq) : Nat :=
  let p := (now - r.issued) * 100
  if 100 * r.target ≤ p then 4 else if 90 * r.target ≤ p then 3 else if 75 * r.target ≤ p then 2 else if 50 * r.target ≤ p then 1 else 0

/-- A read that a pending write of the same piece holds up (R214). -/
def State.heldUp (s : State) (d pc : Nat) (r : HbmReq) : Bool :=
  !r.write && (s.pcReqs d pc).any (fun w => w.write && decide (pieceOf s w pc = pieceOf s r pc))

/-- Urgency with which a request is served: a write takes that of the reads it holds up (R214). -/
def State.urgencyAt (s : State) (d pc : Nat) (r : HbmReq) : Nat :=
  if r.write then
    ((s.pcReqs d pc).filter (fun x => !x.write && decide (pieceOf s x pc = pieceOf s r pc))).foldl (fun a x => max a (urgency s.ssc.now x)) (urgency s.ssc.now r)
  else urgency s.ssc.now r

/-- Key of a bank's open row. -/
def rowKey (d pc bank : Nat) : Nat := (d * 32 + pc) * 65536 + bank % 65536

/-- The request hits an open row of its bank (R212). -/
def State.rowHit (s : State) (d pc : Nat) (r : HbmReq) : Bool :=
  let n := pieceOf s r pc
  decide (mfind s.ssc.rows (rowKey d pc (Config.hbmBank d n)) = some (Config.hbmRow d n))

/-- Order of R212: urgency, row hit, port, age. -/
def State.before (s : State) (d pc : Nat) (a b : HbmReq) : Bool :=
  let ua := s.urgencyAt d pc a
  let ub := s.urgencyAt d pc b
  let ha := s.rowHit d pc a
  let hb := s.rowHit d pc b
  if ua ≠ ub then decide (ub < ua)
  else if ha ≠ hb then ha
  else if a.port ≠ b.port then decide (a.port < b.port)
  else decide (a.id < b.id)

/-- The request that a pseudo-channel serves next (R212, R214). -/
def State.nextReq (s : State) (d pc : Nat) : Option HbmReq :=
  match (s.pcReqs d pc).filter (fun r => !s.heldUp d pc r) with
  | [] => none
  | r :: rest => some (rest.foldl (fun a b => if s.before d pc b a then b else a) r)

/-- Reads held up by a write count once each (R214). -/
def countRaw (s : State) (d pc : Nat) : State :=
  let held := (s.pcReqs d pc).filter (fun r => !r.raw && s.heldUp d pc r)
  let t := s.bumpN .SSC_RAW_WAIT d [] held.length
  { t with ssc := { t.ssc with req := t.ssc.req.map (fun r => if held.contains r then { r with raw := true } else r) } }

/-- A pseudo-channel of a request is served; a request with none left is gone. -/
def servePc (s : State) (id pc : Nat) : State :=
  { s with ssc := { s.ssc with req := (s.ssc.req.map (fun r => if r.id = id ∧ nbit r.mask pc then { r with mask := r.mask - 2 ^ pc } else r)).filter (fun r => r.mask ≠ 0) } }

/-- URGENCY_LATE: a pending request whose target has passed counts once (R211). -/
def execUrgencyLate (id now : Nat) (s : State) : Res :=
  let t := s.at_ now
  .next (match t.ssc.req.find? (fun r => r.id = id) with
    | some r =>
      if ¬ r.late ∧ urgency t.ssc.now r = 4 then
        ({ t with ssc := { t.ssc with req := t.ssc.req.map (fun (x : HbmReq) => if x.id = id then { x with late := true } else x) } }).bump .SSC_LATE r.die [r.port]
      else t
    | none => t)

/-- A request waits for the open row of a bank. -/
def State.rowWanted (s : State) (d pc bank : Nat) : Bool :=
  (s.pcReqs d pc).any (fun r => rowKey d pc (Config.hbmBank d (pieceOf s r pc)) = rowKey d pc bank && s.rowHit d pc r)

/-- A bank's open row is closed. -/
def closeRow (s : State) (d pc bank : Nat) : State :=
  { s with ssc := { s.ssc with rows := mremove (rowKey d pc bank) s.ssc.rows } }

/-- ROW_IDLE_CLOSE: the idle time has passed with no request for the open row (R213). -/
def execRowIdleClose (d : Fin 8) (pc : Fin 32) (bank : Nat) (s : State) : Res :=
  onDie s d (if s.rowWanted d pc bank then s else closeRow s d pc bank)

/-- A P0 request with an unexpired deadline is in progress on a pseudo-channel (R216). -/
def State.p0Active (s : State) (d pc : Nat) : Bool :=
  (s.pcReqs d pc).any (fun r => r.port = 0 && (match r.deadline with
    | some t => decide (s.ssc.now < t)
    | none => false))

/-- Postponement credit of a pseudo-channel (R215). -/
def State.credit (s : State) (d pc : Nat) : Nat := mget 0 s.ssc.credit (d * 32 + pc)

/-- A new postponement credit. -/
def State.setCredit (s : State) (d pc v : Nat) : State :=
  { s with ssc := { s.ssc with credit := mset 0 s.ssc.credit (d * 32 + pc) v } }

/-- REFRESH_DUE (R215, R216): postponed under a P0 request with a credit below eight, forced with a credit of eight, else issued, repaying one postponed refresh. -/
def execRefreshDue (d : Fin 8) (pc : Fin 32) (bank : Nat) (s : State) : Res :=
  onDie s d
    (let c := s.credit d pc
     if s.p0Active d pc then
       if c < 8 then (s.setCredit d pc (c + 1)).bump .SSC_REF_POSTPONED d
       else (closeRow s d pc bank).bump .SSC_REF_FORCED d
     else (closeRow s d pc bank).setCredit d pc (c - 1))

/-- STACK_TEMP_HOT (R215). -/
def execStackTempHot (d : Fin 8) (hot : Bool) (s : State) : Res :=
  onDie s d (s.setRf .SSC_STACK d [] 29 29 (b2n hot))

/-- The group's fields on every die (R200, R232). -/
def setGroup (s : State) (smask : Nat) : State :=
  let n := (members smask).length
  let t := { s with ssc := { s.ssc with smask := smask } }
  setSsc (setSsc (setSsc t 15 8 smask) 3 0 (n - 1)) 4 4 (if n = 1 then 1 else 0)

/-- TRAINING_DONE: the stacks that pass are trained and form the parity group; a stack that fails is lost (R219). -/
def execTrainingDone (passed : BitVec 8) (s : State) : Res :=
  .next (if ¬ (s.ssc.begun ∧ s.ssc.busy) then s
    else
      let cand := s.allDies.filter (fun d => !nbit s.ssc.lost d)
      let good := cand.filter (fun d => passed.getLsbD d)
      let bad := cand.filter (fun d => !passed.getLsbD d)
      let t := { s with ssc := { s.ssc with busy := false, lost := Nat.lor s.ssc.lost (maskOf bad) } }
      let t := overDies (fun d t => t.setRf .SSC_STACK d [] 31 31 1) good t
      let t := bumpSsc (setGroup t (maskOf good))
      overDies (fun d t => (t.setRf .SSC_STACK d [] 30 30 1).raiseEv 0x0B02 d t.sscGen [d, stackCode .training, t.ssc.smask]) bad t)

/-- SPARE_REMAP: the 8 KiB unit of an uncorrectable piece is rebuilt and moves to a spare unit through P5; with none left the stack is marked DEGRADED (R221, R231). -/
def spareRemap (s : State) (d unit : Nat) : State :=
  let hit := s.ssc.bad.filter (fun x => decide (x.1 = d) && decide (x.2 / 32 = unit))
  let n := s.rf .SSC_SPARE d [] 17 0
  if hit = [] then s
  else if n = 0 then setSsc s 5 5 1
  else
    let mask := maskOf (hit.map (fun x => x.2 % 32))
    let t := match s.seg unit with
      | some x => (parityDies x unit d).foldl (fun t k => pushPort t k 5 false (.parity unit k) mask) s
      | none => s
    let t := pushPort t d 5 true (.unit unit) allPc
    let t := { t with ssc := { t.ssc with bad := t.ssc.bad.filter (fun x => !hit.contains x), remap := t.ssc.remap ++ [(d, unit)] } }
    let t := t.setRf .SSC_SPARE d [] 17 0 (n - 1)
    if n = 1 then t.raiseEv 0x0B05 d t.sscGen [d] else t

/-- SPARE_REMAP (R221). -/
def execSpareRemap (d : Fin 8) (unit : Nat) (s : State) : Res := onDie s d (spareRemap s d unit)

/-- Lost channels of a stack. -/
def State.lostChannels (s : State) (d : Nat) : Nat := (maskList 16 (fld (s.reg .SSC_STACK d []) 15 0)).length

/-- A channel is lost (R222): its bit, EV_HBM_CHANNEL, and its stack with it when AUTO_NARROW is 1, or once ICU_LIMIT.STACK_CH of its channels are lost (R467). -/
def loseChannel (s : State) (d c : Nat) : State :=
  if bit (s.reg .SSC_STACK d []) c then s
  else
    let t := s.setRf .SSC_STACK d [] c c 1
    let t := bumpSsc (setSsc t 5 5 1)
    let t := t.raiseEv 0x0B01 d t.sscGen [d, c]
    let t := checkRecords t (t.homeOf d)
    if bit (t.reg .SSC_CFG d []) 31 ∨ max 1 (t.rf .ICU_LIMIT d [] 19 16) ≤ t.lostChannels d then loseStack t d .controller else t

/-- The record of an uncorrectable error (R462, R483). -/
def eccNote (s : State) (d mem a : Nat) : State := (s.setReg .ICU_LAST_UE d [] (packWord [(28, mem), (0, a % 2 ^ 28)])).bumpGen .ICU_STATE d

/-- The record and the report of an uncorrectable error (R462, R481). -/
def eccReport (s : State) (d mem a outcome : Nat) : State :=
  let t := eccNote s d mem a
  t.raiseEv 0x0E01 d (t.gen .ICU_STATE d) [d, mem, a, outcome]

/-- First record of a piece of a record area, and the segments whose records a piece of stack d holds (R197, R202). -/
def State.recordsOf (s : State) (d piece : Nat) : List Nat :=
  let o := piece * 256 - 24000004096
  let h := if o < 0x4000000 then d else partner d
  ((List.range 8).map (fun i => (o % 0x4000000 / 32 + i) * s.dies + h)).filter (fun j => (s.seg j).isSome)

/-- Group by which the pieces of a segment lie: its own, or the present one. -/
def State.segMask (s : State) (j : Nat) : Nat := ((s.seg j).map (·.smask)).getD s.ssc.smask

/-- Parity serves a piece of a staging chunk: its segment has parity, and none of the other pieces of its stripe is gone (R201, R221); a stack outside the segment's group holds nothing of it. -/
def State.parityServes (s : State) (d piece : Nat) : Bool :=
  let j := piece / 32
  let m := members (s.segMask j)
  !m.contains d || match s.seg j with
    | some x => (parityDie x.smask j).isSome && (parityDies x j d).all (fun k => !s.pieceGone k piece)
    | none => decide (2 ≤ m.length) && m.all (fun k => k == d || !s.pieceGone k piece)

/-- What an uncorrectable piece holds is lost, or comes from another copy (R199, R202, R221, R462): a chunk that parity serves raises no event, a record from its other copy unless that fails too, a flow context from the mirror, trace records read as zero. -/
def pieceLost (s : State) (d piece : Nat) : State :=
  let marked : State := { s with ssc := { s.ssc with bad := ladd (d, piece) s.ssc.bad } }
  if piece < segTotal * 32 then (if s.parityServes d piece then eccNote marked d 15 piece else eccReport marked d 15 piece 1)
  else if 0x59F830000 / 256 ≤ piece ∧ piece < 0x5AF830000 / 256 then
    let r := (piece - 0x59F830000 / 256) * 16
    eccReport { marked with tdx := { s.tdx with spill := mdrop (fun k => decide (d * 0x1000000 + r ≤ k) && decide (k < d * 0x1000000 + r + 16)) s.tdx.spill } } d 15 piece 1
  else if 24000004096 / 256 ≤ piece ∧ piece < (24000004096 + 0x8000000) / 256 then checkRecords (eccReport marked d 15 piece 0) (marked.recordsOf d piece)
  else eccReport marked d 15 piece 0

/-- An uncorrectable piece, found by a read or by the scrubber, counted once (R466): its channel is lost when the count reaches ICU_LIMIT.CHAN_UE (R222, R467). -/
def pieceError (s : State) (d piece : Nat) : State :=
  let c := piece % 32 / 2
  if s.ssc.bad.contains (d, piece) then s
  else
    let t := pieceLost (s.bumpF .ICU_CHAN_UE d [c] 15 0 1) d piece
    if max 1 (t.rf .ICU_LIMIT d [] 15 0) ≤ t.rf .ICU_CHAN_UE d [c] 15 0 then loseChannel t d c else t

/-- The outcome of the check code when a piece is read: 0 good, 1 corrected, otherwise uncorrectable (R221, R462). -/
def readOutcome (s : State) (d piece bad : Nat) : State :=
  if bad = 0 then s else if bad = 1 then s.bump .SSC_ECC_CORR d else pieceError s d piece

/-- A read of a piece that its stack does not give: of a chunk, the same piece of the segment's other chunks is read; of a flow context, its mirror (R199, R221, R222). -/
def reconstruct (s : State) (r : HbmReq) (pc : Nat) : State :=
  if r.write ∨ ¬ s.pieceGone r.die (pieceOf s r pc) then s
  else match r.what with
    | .chunk j m => readParity s r.die j m r.port (2 ^ pc) r.target r.deadline
    | .ctx d c => if r.die = d then pushReq s (partner d) r.port false (.ctx d c) (2 ^ pc) r.target r.deadline else s
    | _ => s

/-- An access of a piece leaves its row open, unless the idle timer is 0 (R213). -/
def useRow (s : State) (d piece : Nat) : State :=
  let k := rowKey d (piece % 32) (Config.hbmBank d piece)
  { s with ssc := { s.ssc with rows := if s.rf .SSC_PAGE d [] 7 0 = 0 then mremove k s.ssc.rows else minsert k (Config.hbmRow d piece) s.ssc.rows } }

/-- A pseudo-channel serves its next request (R212 to R214): the row of its piece stays open, unless the idle timer is 0 (R213). A read has the outcome of its check code (R221). -/
def issueNext (s : State) (d pc bad : Nat) : State :=
  let t := countRaw s d pc
  match t.nextReq d pc with
  | none => t
  | some r =>
    let n := pieceOf t r pc
    let u := useRow (servePc t r.id pc) d n
    reconstruct (if r.write then u else readOutcome u d n bad) r pc

/-- HBM_REQUEST_ISSUE (R212); the command tells the local time in ns and the outcome of the check code. -/
def execHbmRequestIssue (d : Fin 8) (pc : Fin 32) (now : HbmServe) (s : State) : Res :=
  onDie s d (issueNext (s.at_ now.now) d pc now.bad)

/-- CHANNEL_LOST (R222). -/
def execChannelLost (d : Fin 8) (c : Fin 16) (s : State) : Res := onDie s d (loseChannel s d c)

/-- STACK_LOST (R223). -/
def execStackLost (d : Fin 8) (cause : StackCause) (s : State) : Res := onDie s d (loseStack s d cause)

/-- SEG_FLUSH_EXPIRY: SEG_FLUSH ticks have passed since the open segment's first frame (R207). -/
def execSegFlushExpiry (seg : Nat) (s : State) : Res :=
  .next (match s.seg seg with
    | some x =>
      let f := s.rf .SSC_SEG_FLUSH x.owner [] 23 0
      if x.st = .opened ∧ f ≠ 0 ∧ 0 < x.frames ∧ x.firstTick + f ≤ s.ticksOn x.owner then closeSegment s seg true else s
    | none => s)

/-! The host's data window (R209, R210, R214). -/

/-- A read of a piece through P6 joins the requests at its stack, at a lost stack at those of the other chunks (R209, R210, R221); the bytes are what the stacks hold behind every write already pending (R214; log 63). -/
def windowPiece (s : State) (j b : Nat) : State :=
  let d := chunkDie (s.segMask j) j (b / 8192)
  let mask := pieceMask (b % 8192 / 256)
  if nbit s.ssc.lost d then readParity s (s.server d) j d 6 mask (s.portTarget (s.server d) 6) none
  else pushPort s d 6 false (.chunk j d) mask

/-- A read of trace records of the spill area through P6 (R197, R210, R347; log 63). -/
def windowSpill (s : State) (d i : Nat) : State := pushPort s d 6 false (.spill i) (pieceMask ((0x59F830000 + i * 16) / 256))

/-- A byte of a segment as a read returns it. -/
def State.segByte (s : State) (j b : Nat) : Byte :=
  match s.seg j with
  | some x => if s.byteGone j x b then s.rebuilt j x b else mget 0 s.ssc.data (segKey j b)
  | none => mget 0 s.ssc.data (segKey j b)

/-- A byte lies in a chunk that the segment's parity covers: one that is written, or any chunk of a free segment (R209; log 74). -/
def State.covered (s : State) (j b : Nat) : Bool := ((s.seg j).map (fun x => decide (b / 8192 < x.chunks))).getD true

/-- Bytes written through the window, with the parity that covers them (R209). -/
def putStaged (s : State) (j : Nat) : Nat → List Byte → State
  | _, [] => s
  | b, v :: r =>
    let k := segKey j (b % 8192)
    let par := if s.covered j b then mset 0 s.ssc.par k (mget 0 s.ssc.par k ^^^ s.segByte j b ^^^ v) else s.ssc.par
    putStaged { s with ssc := { s.ssc with data := mset 0 s.ssc.data (segKey j b) v, par := par } } j (b + 1) r

/-- The writes of a window access through P6: the pieces of the data and, where the parity covers them, of the parity chunk (R209, R210). -/
def windowWrite (s : State) (j b : Nat) (l : List Byte) : State :=
  (piecesOf b l.length).foldl (fun t o =>
    let d := chunkDie (s.segMask j) j (o / 8192)
    let mask := pieceMask (o % 8192 / 256)
    let u := pushPort t d 6 true (.chunk j d) mask
    match parityDie (s.segMask j) j with
    | some p => if s.covered j o then pushPort u p 6 true (.chunk j p) mask else u
    | none => u) (putStaged s j b l)

/-- Every write of a segment and of its records has been acknowledged (R206). -/
def State.writesDone (s : State) (j : Nat) : Bool :=
  s.ssc.req.all (fun r => !(r.write && decide (r.what.seg = some j)))

/-- The admission mirrors of frames whose segment is written are freed (R192). -/
def dropStagedMirrors (s : State) (q j : Nat) : State :=
  let hit (i : LQItem) : Bool := i.staged && i.seg = j && i.mirror.isSome
  let t := ((s.lq q).items.filter hit).foldl (fun t i => freeMirror t i.mirror) s
  t.modLq q (fun l => { l with items := l.items.map (fun i => if hit i then { i with mirror := none } else i) })

/-- SEGMENT_WRITTEN: its frames are staged; a segment that holds none any more is freed (R206, R208). -/
def execSegmentWritten (seg : Nat) (s : State) : Res :=
  .next (match s.seg seg with
    | some x =>
      if x.st = .closing ∧ s.writesDone seg then
        let t := dropStagedMirrors (s.setSeg seg { x with st := .written }) x.q seg
        if x.left = 0 then
          if x.aged then (freeSegment t seg).bump .SSC_AGED_FREE (s.server (queueDie x.q)) else freeSegment t seg
        else t
      else s
    | none => s)

/-- A frame of a segment does not fit a segment of the present group: the segment keeps its geometry (R205, R225; log 78). -/
def State.tooWide (s : State) (q j : Nat) : Bool :=
  (s.lq q).items.any (fun i => i.staged && decide (i.seg = j) && decide (dataSize s.ssc.smask < packSize i.len))

/-- Written segments of a queue whose geometry is not the group's, in list order (R225). -/
def State.oldSegs (s : State) (q : Nat) : List Nat :=
  (s.lq q).segs.filter (fun j => !s.tooWide q j && (match s.seg j with
    | some x => x.st = .written && x.smask ≠ s.ssc.smask
    | none => false))

/-- The rebuild passes over a queue whose bank is open, or within PREFETCH_LEAD of a run, for its group (R226). -/
def State.passedOver (s : State) (q : Nat) : Bool := s.dueQueue q

/-- Queues with old segments, ascending. -/
def State.oldQueues (s : State) : List Nat := (s.qba.lq.map (·.1)).filter (fun q => s.oldSegs q ≠ [])

/-- The next queue of the rebuild: from the cursor on, then those passed over (R225, R226). -/
def State.rebuildQueue (s : State) : Option Nat :=
  let cur := s.rf .SSC_REB_CUR 0 [] 17 0
  let ok := s.oldQueues.filter (fun q => !s.passedOver q)
  match ok.find? (fun q => cur ≤ q) with
  | some q => some q
  | none => ok.head?

/-- The segment in which the rebuild has room for n bytes of queue q, taking a new one where it must: it enters the list in front of the old segment (R225). -/
def freshRoom (s : State) (q old n pick : Nat) : Option Nat × State :=
  let room : Option Nat := match s.ssc.rebuild with
    | some r => match r.seg with
      | some j => match s.seg j with
        | some x => if x.q = q ∧ x.st = .opened ∧ x.fill + n ≤ dataSize x.smask then some j else none
        | none => none
      | none => none
    | none => none
  match room with
  | some j => (some j, s)
  | none =>
    let t := closeFresh s false
    let d := t.server (queueDie q)
    match takeSegment t d pick with
    | (none, u) => (none, u)
    | (some j, u) =>
      let x : Seg := { st := .opened, smask := u.ssc.smask, q := q, frames := 0, left := 0, fill := 0, lastTick := 0, firstTick := u.ticksOn d, owner := d }
      let u := emptyParity (u.setSeg j x) j
      let u := u.modLq q (fun l => { l with segs := l.segs.flatMap (fun k => if k = old then [j, k] else [k]) })
      let u := relink (writeRecord u 5 j) 5 q (u.prevSeg q j)
      (some j, u.setRebuild (u.ssc.rebuild.map (fun r => { r with seg := some j })))

/-- Frames of an old segment are copied one after the other, headers unchanged, and a new segment with fewer than 80 bytes left is full (R207, R225); false when no segment is free, and then nothing of it is kept. -/
def copyFrames (q old : Nat) : List LQItem → List Nat → State → Bool × State
  | [], _, s => (true, s)
  | i :: r, picks, s =>
    let n := packSize i.len
    match freshRoom s q old n (picks.headD segTotal) with
    | (none, t) => (false, t)
    | (some j, t) =>
      match t.seg j with
      | none => (false, t)
      | some x =>
        let t := appendTo t 5 j { x with frames := x.frames + 1, left := x.left + 1, lastTick := x.newest i.eage } (t.segBytes old i.off n)
        let t := t.modLq q (fun l => { l with items := l.items.map (fun y => if y = i then { y with seg := j, off := x.fill } else y) })
        let t := match t.seg old with
          | some o => t.setSeg old { o with left := o.left - 1 }
          | none => t
        let t := if dataSize x.smask < x.fill + n + 80 then closeFresh t false else t
        copyFrames q old r (if x.frames = 0 then picks.drop 1 else picks) t

/-- REBUILD_WAIT (R225). -/
def rebuildWait (s : State) : State :=
  evRebuild (bumpSsc (s.setRebuild (s.ssc.rebuild.map (fun r => { r with wait := true })))) 1

/-- Some segment is not of the group's geometry: it still is to be repacked, if only once it is written, or waits for its frames to depart (R224, R225; log 78). -/
def State.oldGeometry (s : State) : Bool := s.ssc.seg.any (fun e => decide (e.2.smask ≠ s.ssc.smask))

/-- The rebuild is complete: DEGRADED clears (R225). -/
def rebuildDone (s : State) : State := evRebuild (bumpSsc (setSsc (s.setRebuild none) 5 5 0)) 3

/-- One old segment of a queue repacked, the cursor and the count advanced (R225). Where a free segment is wanting nothing is linked and nothing taken: the old segment stays, to be repacked from its first frame (R455; log 54). -/
def rebuildOne (s : State) (q j : Nat) (picks : List Nat) : State :=
  let items := (s.lq q).items.filter (fun i => i.staged && i.seg = j)
  let s := s.setRebuild (s.ssc.rebuild.map (fun r => { r with reads := none }))
  match copyFrames q j items picks s with
  | (false, _) => rebuildWait s
  | (true, t) =>
    let t := freeSegment t j
    let t := overDies (fun d t => t.bump .SSC_REB_DONE d) t.allDies t
    if t.oldSegs q = [] then closeFresh t true else t

/-- The chunks of an old segment are read through P5, the cursor at its queue (R225). -/
def rebuildReads (s : State) (q j : Nat) : State :=
  let t := overDies (fun d t => t.setRf .SSC_REB_CUR d [] 17 0 q) s.allDies s
  let t := t.setRebuild (t.ssc.rebuild.map (fun r => { r with reads := some j }))
  match t.seg j with
  | some x => (List.range x.chunks).foldl (fun u k => readChunk u j x.smask k 5 (u.portTarget (chunkDie x.smask j k) 5) none) t
  | none => t

/-- The rebuild's reads of a segment are still pending. -/
def State.readsWait (s : State) (j : Nat) : Bool := s.ssc.req.any (fun r => r.port = 5 && !r.write && decide (r.what.seg = some j))

/-- The segment that the rebuild fills belongs to a queue that it must leave (R226). -/
def State.freshLeft (s : State) (q : Option Nat) : Bool :=
  match s.ssc.rebuild with
  | some r => match r.seg with
    | some j => match s.seg j with
      | some x => decide (some x.q ≠ q)
      | none => true
    | none => false
  | none => false

/-- The rebuild proceeds in PROVISION and in every later mode (R452, R455). -/
def State.rebuilds (s : State) : Bool := s.glb.mode.any

/-- REBUILD_SEGMENT (R225, R226, R455): the reads of the next old segment are issued, and once they are served its frames are copied; the command picks the new segments among those free (log 23). -/
def execRebuildSegment (picks : List Nat) (s : State) : Res :=
  .next (match s.ssc.rebuild with
    | none => s
    | some r =>
      if r.wait ∨ ¬ s.rebuilds then s
      else
        let t := if s.freshLeft s.rebuildQueue then closeFresh s true else s
        match t.rebuildQueue with
        | none => if t.oldGeometry then t else rebuildDone t
        | some q =>
          if t.rf .SSC_CFG (t.server (queueDie q)) [] 15 0 = 0 then t
          else match t.oldSegs q with
            | [] => t
            | j :: _ =>
              if r.reads ≠ some j then rebuildReads t q j
              else if t.readsWait j then t
              else rebuildOne t q j picks)

/-- Some segment of the store is free (R225). -/
def State.anySegFree (s : State) : Bool := s.ssc.borrowed ≠ [] || s.allDies.any (fun h => decide (0 < s.homeFree h))

/-- REBUILD_RESUME (R225, R455). -/
def execRebuildResume (s : State) : Res :=
  .next (match s.ssc.rebuild with
    | some r => if r.wait ∧ s.anySegFree ∧ s.rebuilds then evRebuild (bumpSsc (s.setRebuild (some { r with wait := false }))) 2 else s
    | none => s)

end Sys2Proof.Machine
end

