-- ==== Sys2Proof/Machine/Operands.lean ====
section
/-! DEFINITION. Rolk instruction words: formats, operand fields, opcodes, reserved fields (spec/10 R297, R298). -/

namespace Sys2Proof.Machine

/-- The instructions of R298; the names of ALU operations end in x. -/
inductive ROp
  | addx | subx | andx | orx | xorx | shlx | shrx | sarx | rotx | minx | maxx | mulx | popcx | clzx | or16x | or32x | or48x | bfxx | bfix | ld8x | ld16x | ld32x | ld64x | st8x | st16x | st32x | st64x | fldx | fstx | flenx | beqx | bnex | bltx | bgex | bltux | bgeux | bbsx | bbcx | jx | jalx | jrx | crc32cx | hashx | twaitx | tdonex | tpostx | tdeferx | ballocx | bfreex | bsharex | bcheckx | lkpx | lrnx | lockx | trylockx | unlockx | lkcleanx | lkforcex | evwaitx | evsigx | chputx | chclosex | chgetx | emitx | retirex | tohostx | stagex | phasex | supreadx | supstopx | suprestartx | trapx | nopx
  deriving DecidableEq, Repr

/-- A decoded instruction: registers D, A, B, C (or K), the U bit, whether an immediate takes the place of gb, and the immediate, offset, size or target. -/
structure RIns where
  op : ROp
  d : Nat
  a : Nat
  b : Nat
  c : Nat
  u : Bool
  immForm : Bool
  imm : Nat
  size : Nat := 0
  deriving DecidableEq, Repr

/-- ALU functions of opcode 0x01 (R304). -/
def aluOps : List ROp := [.addx, .subx, .andx, .orx, .xorx, .shlx, .shrx, .sarx, .rotx, .minx, .maxx, .mulx, .popcx, .clzx]
/-- ALU operations of opcodes 0x04 to 0x0E (R298). -/
def immOps : List ROp := [.addx, .andx, .orx, .xorx, .shlx, .shrx, .sarx, .rotx, .minx, .maxx, .mulx]
/-- Opcodes 0x11 to 0x1B (R298). -/
def memOps : List ROp := [.or16x, .or32x, .or48x, .ld8x, .ld16x, .ld32x, .ld64x, .st8x, .st16x, .st32x, .st64x]
/-- Opcodes 0x20 to 0x29 (R298); BBS and BBC have two each. -/
def brOps : List ROp := [.beqx, .bnex, .bltx, .bgex, .bltux, .bgeux, .bbsx, .bbsx, .bbcx, .bbcx]
/-- The groups of format E by FN (R310, R314 to R320). -/
def unitOps : Nat → List ROp
  | 0x30 => [.crc32cx, .hashx]
  | 0x31 => [.twaitx, .tdonex, .tpostx, .tdeferx]
  | 0x32 => [.ballocx, .bfreex, .bsharex, .bcheckx]
  | 0x33 => [.lkpx, .lrnx]
  | 0x34 => [.lockx, .trylockx, .unlockx, .lkcleanx, .lkforcex]
  | 0x35 => [.evwaitx, .evsigx, .chputx, .chclosex, .chgetx]
  | 0x36 => [.emitx, .retirex, .tohostx, .stagex]
  | 0x37 => [.phasex]
  | 0x38 => [.supreadx, .supstopx, .suprestartx]
  | _ => []

/-- A shift or rotate: its immediate has bits [15:6] zero (R304). -/
def ROp.isShift : ROp → Bool
  | .shlx => true
  | .shrx => true
  | .sarx => true
  | .rotx => true
  | _ => false

/-- What the spec requires of the fields of a format E instruction: whether field D must be zero, whether U must be, and the least and largest value of field C, which holds K or must be zero where the instruction says so (R297, R310 to R320). A field that an instruction does not use and that no rule calls zero is not looked at (log 46). -/
def unitFields : ROp → Bool × Bool × Nat × Nat
  | .crc32cx => (false, false, 1, 8)
  | .hashx => (false, false, 0, 1)
  | .twaitx => (true, true, 0, 31)
  | .ballocx => (false, false, 0, 3)
  | .lkpx => (false, false, 1, 6)
  | .lrnx => (false, false, 0, 0)
  | .lockx => (false, true, 0, 31)
  | .evwaitx => (false, true, 0, 31)
  | .chgetx => (false, true, 0, 31)
  | .retirex => (false, false, 0, 0)
  | .phasex => (false, false, 0, 3)
  | _ => (false, false, 0, 31)

/-- A format E word (R297, R298). -/
def decodeUnit (w : Word) : Option RIns :=
  let d := fld w 25 21
  let a := fld w 20 16
  let b := fld w 15 11
  let c := fld w 10 6
  let u := bit w 5
  match (unitOps (fld w 31 26))[fld w 4 0]? with
  | none => none
  | some op =>
    let (zd, zu, lo, hi) := unitFields op
    if (zd ∧ d ≠ 0) ∨ (zu ∧ u = true) ∨ c < lo ∨ hi < c then none
    else some { op := op, d := d, a := a, b := b, c := c, u := u, immForm := false, imm := 0 }

/-- Opcode 0x01: the ALU in register form; POPC and CLZ have field B zero (R304). -/
def decodeAlu (w : Word) : Option RIns :=
  if fld w 10 4 ≠ 0 then none
  else match aluOps[fld w 3 0]? with
    | none => none
    | some op =>
      if (op = .popcx ∨ op = .clzx) ∧ fld w 15 11 ≠ 0 then none
      else some { op := op, d := fld w 25 21, a := fld w 20 16, b := fld w 15 11, c := 0, u := false, immForm := false, imm := 0 }

/-- Opcode 0x03: FLD, FST and FLEN in register-offset form (R309). -/
def decodeFrame (w : Word) : Option RIns :=
  if fld w 10 4 ≠ 0 then none
  else
    let i : RIns := { op := .fldx, d := fld w 25 21, a := fld w 20 16, b := fld w 15 11, c := 0, u := true, immForm := false, imm := 0, size := 2 ^ fld w 1 0 }
    match fld w 3 2 with
    | 0 => some i
    | 1 => some { i with op := .fstx }
    | 2 => if i.b = 0 ∧ fld w 1 0 = 0 then some { i with op := .flenx } else none
    | _ => none

/-- Formats B of the ALU, the bit fields, the constants, the scratchpad and the frame accesses (R304, R305, R308, R309). -/
def decodeImm (w : Word) : Option RIns :=
  let o := fld w 31 26
  let m := fld w 15 0
  let i : RIns := { op := .nopx, d := fld w 25 21, a := fld w 20 16, b := 0, c := 0, u := false, immForm := true, imm := m }
  if o ≤ 0x0E then
    match immOps[o - 4]? with
    | some op => if op.isShift ∧ 63 < m then none else some { i with op := op }
    | none => none
  else if o = 0x0F then (if m < 4096 then some { i with op := .bfxx } else none)
  else if o = 0x10 then (if m < 4096 then some { i with op := .bfix } else none)
  else if o ≤ 0x1B then (memOps[o - 0x11]?).map (fun op => { i with op := op })
  else if o = 0x1C then some { i with op := .fldx, u := true, imm := m % 2 ^ 14, size := 2 ^ (m / 2 ^ 14) }
  else some { i with op := .fstx, u := true, imm := m % 2 ^ 14, size := 2 ^ (m / 2 ^ 14) }

/-- Format C (R297, R306): imm is OFF, size the bit number of BBS and BBC. -/
def decodeBranch (w : Word) : Option RIns :=
  let o := fld w 31 26
  (brOps[o - 0x20]?).map (fun op => { op := op, d := 0, a := fld w 25 21, b := fld w 20 16, c := 0, u := false, immForm := false, imm := fld w 15 0, size := fld w 20 16 + (if o = 0x27 ∨ o = 0x29 then 32 else 0) })

/-- Formats A and D of JR, J, JAL, TRAP and NOP (R297, R298, R307, R320). -/
def decodeJump (w : Word) : Option RIns :=
  let o := fld w 31 26
  let i : RIns := { op := .jx, d := fld w 25 21, a := 0, b := 0, c := 0, u := false, immForm := false, imm := fld w 14 0 }
  if o = 0x02 then (if fld w 15 0 = 0 then some { i with op := .jrx, a := fld w 20 16, imm := 0 } else none)
  else if o = 0x2A then (if fld w 25 15 = 0 then some i else none)
  else if o = 0x2B then (if fld w 20 15 = 0 then some { i with op := .jalx } else none)
  else if o = 0x3E then (if i.d = 0 then some { i with op := .trapx, imm := fld w 20 0 } else none)
  else if w = 0xFC000000 then some { i with op := .nopx } else none

/-- The instruction of a word; none for a word that faults with TF_ILLEGAL (R298). -/
def decodeRolk (w : Word) : Option RIns :=
  let o := fld w 31 26
  if o = 0x01 then decodeAlu w
  else if o = 0x02 ∨ o = 0x2A ∨ o = 0x2B ∨ 0x3E ≤ o then decodeJump w
  else if o = 0x03 then decodeFrame w
  else if 0x04 ≤ o ∧ o ≤ 0x1D then decodeImm w
  else if 0x20 ≤ o ∧ o ≤ 0x29 then decodeBranch w
  else if 0x30 ≤ o ∧ o ≤ 0x38 then decodeUnit w
  else none

/-- A 16-bit immediate or offset, sign-extended to 64 bits (R297, R304, R308). -/
def sext16 (m : Nat) : DWord := (BitVec.ofNat 16 m).signExtend 64

end Sys2Proof.Machine
end

