-- ==== Sys2Proof/Machine/Flags.lean ====
section
/-! DEFINITION. Conditions and result codes of Rolk: the core keeps no flags (R299), so branches compare registers (R306) and replies carry codes in their result word (R302). -/

namespace Sys2Proof.Machine

/-- The compare-and-branch conditions (R306); n is the bit number of BBS and BBC. -/
def branchTaken (op : ROp) (x y : DWord) (n : Nat) : Bool :=
  match op with
  | .beqx => decide (x = y)
  | .bnex => decide (x ≠ y)
  | .bltx => x.slt y
  | .bgex => !x.slt y
  | .bltux => x.ult y
  | .bgeux => !x.ult y
  | .bbsx => x.getLsbD n
  | .bbcx => !x.getLsbD n
  | _ => false

/-- Outcome codes of R302. -/
def outEmpty : Nat := 0x10
def outShareFull : Nat := 0x11
def outSpace : Nat := 0x12
def outOffset : Nat := 0x13
def outMultiple : Nat := 0x14
def outNotAlloc : Nat := 0x15
def outOtherDie : Nat := 0x16
def outNoRoom : Nat := 0x18
def outLearnFull : Nat := 0x19
def outLearnOff : Nat := 0x1A
def outHeld : Nat := 0x20
def outWasFree : Nat := 0x21
def outChFull : Nat := 0x28

/-- Error codes of R302. -/
def errRestart : Nat := 0x02
def errUncorr : Nat := 0x03
def errNoDie : Nat := 0x82
def errNotHeld : Nat := 0x88
def errStaging : Nat := 0x90
def errOtherCh : Nat := 0x91
def errNoWords : Nat := 0x92

/-- The number of leading zero bits (R304). -/
def clz64 (x : DWord) : Nat := if x = 0 then 64 else 63 - Nat.log2 x.toNat

/-- The number of 1 bits (R304). -/
def popc64 (x : DWord) : Nat := ((List.range 64).filter (fun i => x.getLsbD i)).length

end Sys2Proof.Machine
end

