-- ==== Sys2Proof/Machine/Phase.lean ====
section
/-! DEFINITION. The phase: inputs and their health, steps, crossings, ticks, phase states and re-acquisition (spec/02). -/

namespace Sys2Proof.Machine

/-- What is kept of an input. -/
def State.phIn (s : State) : PhInp → PhIn
  | .a => s.phi.inA
  | .b => s.phi.inB

/-- What is kept of an input, changed. -/
def State.setPhIn (s : State) (i : PhInp) (x : PhIn) : State :=
  match i with
  | .a => { s with phi := { s.phi with inA := x } }
  | .b => { s with phi := { s.phi with inB := x } }

/-- The other input. -/
def otherInp : PhInp → PhInp
  | .a => .b
  | .b => .a

/-- Number of an input: 0 A, 1 B (R60). -/
def inpNo : PhInp → Nat
  | .a => 0
  | .b => 1

/-- An input as the source in use. -/
def inpSrc : PhInp → PhSrc
  | .a => .a
  | .b => .b

/-- The input is the active one (R48, R49). -/
def State.isActive (s : State) (i : PhInp) : Bool := s.phi.st = .locked && s.phi.src = inpSrc i

/-- Mean of a list of periods, in whole fs. DESIGN CHOICE: R46 and R61 state no rounding of a mean, which is floored here, before the PHI_TOL test and in PHI_PERIOD (log 82). -/
def meanOf (l : List Nat) : Nat := if l = [] then 0 else l.foldl (· + ·) 0 / l.length

/-- The measured period: mean of the last 4,096 periods (R46). -/
def PhIn.measured (x : PhIn) : Nat := meanOf x.periods

/-- The step-rate check fails: a single period outside 5 ns to 40 ns, or with 1,024 periods measured the mean of the last 1,024 departs from the measured period by more than PHI_TOL ppm (R46, R535). -/
def rateFails (tol : Nat) (periods : List Nat) : Bool :=
  match periods with
  | [] => false
  | p :: _ =>
    decide (p < 5000000) || decide (40000000 < p) ||
      (decide (1024 ≤ periods.length) &&
        (let m := meanOf periods
         let r := meanOf (periods.take 1024)
         decide (m * tol < (max m r - min m r) * 1000000)))

/-- Signed difference of two crossing numbers modulo 2^32. -/
def sdiff (a b : Nat) : Int :=
  let d := sub32 a b
  if d < 2 ^ 31 then (d : Int) else (d : Int) - 2 ^ 32

/-- Steps of an input minus steps of the phase (R47, R60). -/
def State.phDiff (s : State) (i : PhInp) : Int :=
  let x := s.phIn i
  sdiff x.xing s.phi.xing * (s.xlen : Int) + ((x.stepNo.getD 0 : Nat) : Int) - (s.phi.step : Int)

/-- The input agrees with the phase (R47). -/
def State.agrees (s : State) (i : PhInp) : Bool :=
  let x := s.phIn i
  s.phi.ever && x.seeded && x.stepNo.isSome && decide (-1 ≤ s.phDiff i) && decide (s.phDiff i ≤ 1)

/-- An input that was healthy and has failed: it is to be seeded and to show good words anew (R40, R46). -/
def failIn (x : PhIn) : PhIn := { x with healthy := false, good := 0, words := 0, seeded := false }

/-- The step numbering of an input restarts at its next MARK (R535; log 72). -/
def unnumber (x : PhIn) : PhIn := { x with stepNo := none, markErr := false, markOk := false, badMarks := 0 }

/-- A phase event with the PHI_STATE generation (R60). -/
def phEvent (s : State) (code : Nat) (args : List Nat) : State := s.raiseEv code pkg (s.gen .PHI_STATE 0) args

/-- A signed number as a 32-bit argument. -/
def arg32 (i : Int) : Nat := (i % 2 ^ 32).toNat

/-- A step on the timing lanes: the phase and the step count of every die advance by one, those of the dies in the list by the number that stands there (R43, R44; log 7). The receiver die has the step itself. -/
def laneStep (s : State) (lanes : List (Fin 8 × Nat)) : State :=
  lanes.foldl (fun t e =>
    let d := e.1.val
    let more : Int := (e.2 : Int) - 1
    if d < t.dies ∧ d ≠ b2n t.phi.rxDie then
      { t with phi := { t.phi with off := mmod 0 t.phi.off d (· + more), cnt := mmod 0 t.phi.cnt d (· + more) } }
    else t) s

/-- Die d compares its phase with the receiver die's: one that is off by more than a step is reported, as the die concerned (R402; log 69), and its windows stay closed until it realigns (R44). -/
def skewDie (d : Nat) (s : State) : State :=
  let o := mget 0 s.phi.off d
  if (1 < o ∨ o < -1) ∧ d ≠ b2n s.phi.rxDie ∧ ¬ s.isSkewed d then
    let t := s.bumpF .PHI_SKEW_CNT 0 [] 23 0 1
    let t := { t with phi := { t.phi with skewed := t.phi.skewed ++ [(d, t.phi.stepCnt)] } }
    t.raiseEv 0x8306 d (t.gen .PHI_STATE 0) [d, arg32 o]
  else s

/-- Step 0 of a crossing has begun: the copy that the last word selected is due (R41), no word has ended in the crossing yet (R74), BPS is computed anew (R83), every die compares its phase (R44); was: the copy active until then. -/
def beginCrossing (s : State) (was : Nat) : State :=
  let t := { s with
    phi := { s.phi with wordIn := false }
    cte := { s.cte with prevCopy := was, nextCopy := match s.cte.nextCopy with
      | some (c, none) => some (c, some s.phi.xing)
      | x => x } }
  overDies skewDie t.allDies (recomputeBps t)

/-- One step of the phase: the step number, at PHI_XLEN the crossing number, and the 64-bit step count advance (R42, R43); step 0 begins a crossing; runs open and end (R73, R88). -/
def advance (s : State) (lanes : List (Fin 8 × Nat)) : State :=
  let p := s.phi
  let wrap : Bool := decide (s.xlen ≤ p.step + 1)
  let t := laneStep (drainPorts s) lanes
  let t := { t with phi := { t.phi with
    step := if wrap then 0 else p.step + 1
    xing := if wrap then (p.xing + 1) % 2 ^ 32 else p.xing
    stepCnt := (p.stepCnt + 1) % 2 ^ 64 } }
  stepBanks (if wrap then beginCrossing t (s.copyAt p.xing) else t)

/-- A new phase state and source; the generation increments on every change of either (R61). Banks that close with the old state leave their rounds (R72, R87). -/
def setPhase (s : State) (st : PhSt) (src : PhSrc) : State :=
  if s.phi.st = st ∧ s.phi.src = src then s
  else settleRounds <| ({ s with phi := { s.phi with st := st, src := src, ever := s.phi.ever || decide (st = PhSt.locked ∨ st = PhSt.self) } }).bumpGen .PHI_STATE 0

/-- The preferred input (R61). -/
def State.prefInp (s : State) : PhInp := if bit (s.reg .PHI_CTRL 0 []) 3 then .b else .a

/-- In ACQUIRE: the preferred input, or the other if it is unhealthy, is to be adopted (R49); one that is healthy already counts as becoming so (log 69). -/
def consider (s : State) : State :=
  let p := s.prefInp
  { s with phi := { s.phi with adopt :=
      if (s.phIn p).healthy then some p
      else if (s.phIn (otherInp p)).healthy then some (otherInp p) else none } }

/-- The phase is lost (R49). -/
def toLost (s : State) : State :=
  let t := setPhase s .lost .none
  phEvent t 0x8304 [t.phi.xing, t.phi.step]

/-- The active input has failed and no other agrees: holdover, or at once LOST when HOLDOVER_XINGS is 0 (R49, R61). -/
def toHoldover (s : State) : State :=
  if s.rf .PHI_HOLD 0 [] 15 0 = 0 then toLost s
  else
    let t := setPhase { s with phi := { s.phi with coasted := 0 } } .holdover .none
    phEvent t 0x8303 [t.phi.xing, t.phi.step]

/-- The period of the active input is the device's period until it fails (R51, R61); without an active input it keeps its last value in every state (log 69). -/
def takePeriod (s : State) (i : PhInp) : State :=
  let m := (s.phIn i).measured
  if m = 0 then s else { s with phi := { s.phi with period := m } }

/-- The other input becomes active while the state stays LOCKED (R49, R50, R60). The events name inputs by the codes of PHI_STATE.INPUT (log 69). DESIGN CHOICE: the step offset of EV_PHASE_SWITCH, whose sign R60 does not state, is that of the new input minus that of the phase, so that an input ahead reports 1 (log 82). -/
def switchTo (s : State) (i : PhInp) : State :=
  let old := s.phi.src.code
  let off := s.phDiff i
  let t := setPhase (takePeriod s i) .locked (inpSrc i)
  phEvent t 0x8302 [old, (inpSrc i).code, arg32 (max (-1) (min 1 off))]

/-- An input has become healthy (R49, R60). One that waits for adoption keeps its place when the other becomes healthy too (log 69). -/
def becameHealthy (s : State) (i : PhInp) : State :=
  match s.phi.st with
  | .locked => if s.isActive i then s else phEvent s 0x8307 [inpNo i, 0]
  | .acquire => consider s
  | .holdover =>
    if s.agrees i then
      let t := setPhase (takePeriod { s with phi := { s.phi with adopt := none } } i) .locked (inpSrc i)
      let t := phEvent t 0x8301 [(inpSrc i).code, t.phi.xing]
      t.setReg .PHI_JUMP 0 [] 0
    else if s.phi.adopt = none then { s with phi := { s.phi with adopt := some i } } else s
  | .lost => if s.phi.adopt = none then { s with phi := { s.phi with adopt := some i } } else s
  | _ => s

/-- A healthy input has failed a check (R49, R60); check: 1 step presence, 2 step rate, 3 mark, 4 word. When the input that waits for adoption fails in HOLDOVER or LOST, the other counts as becoming healthy if it is healthy already (log 69). -/
def inputFailed (s : State) (i : PhInp) (check : Nat) : State :=
  let was := s.phi.adopt = some i
  let t := if was then { s with phi := { s.phi with adopt := none } } else s
  match s.phi.st with
  | .acquire => consider t
  | .locked =>
    if s.isActive i then
      if (t.phIn (otherInp i)).healthy ∧ t.agrees (otherInp i) then switchTo t (otherInp i) else toHoldover t
    else phEvent t 0x8307 [inpNo i, check]
  | .holdover => if was ∧ (t.phIn (otherInp i)).healthy then becameHealthy t (otherInp i) else t
  | .lost => if was ∧ (t.phIn (otherInp i)).healthy then becameHealthy t (otherInp i) else t
  | _ => t

/-- A failed check of an input takes effect on one that was healthy; after failed marks its numbering restarts (R46, R49; log 72). Where the active input fails at its step 0, that step counts as an estimated one (R55, R536). -/
def failCheck (s : State) (i : PhInp) (check : Nat) : State :=
  let x := s.phIn i
  let guess : Bool := s.isActive i && decide (x.stepNo = some 0)
  let t := s.setPhIn i (if check = 3 then unnumber (failIn x) else failIn x)
  if x.healthy then inputFailed { t with phi := { t.phi with estimated := t.phi.estimated || guess } } i check else s

/-- The period measurement of an input at an edge; none is taken at the first edge after a restart (R46, R535). -/
def measure (x : PhIn) (period : Nat) : PhIn :=
  if x.seen then { x with periods := (period :: x.periods).take 4096 } else { x with seen := true, periods := [] }

/-- The step numbering of an input and its mark check at an edge (R37, R40, R46, R535; log 72). A healthy input numbers its own steps modulo PHI_XLEN; one that is not healthy numbers them anew from a MARK that it does not expect. The crossing count advances at each marked step 0; a crossing with an error counts once toward the failed crossings in a row. The Bool tells a failed mark check. -/
def numberStep (xlen : Nat) (mark : Bool) (x : PhIn) : Bool × PhIn :=
  let up (x : PhIn) : PhIn := { x with xing := (x.xing + 1) % 2 ^ 32 }
  match x.stepNo with
  | none => (false, if mark then up { x with stepNo := some 0, markErr := false, markOk := false, badMarks := 0 } else x)
  | some n =>
    let e := (n + 1) % xlen
    let err : Bool := mark != decide (e = 0)
    let fresh : Nat := if x.markErr then 0 else 1
    if e = 0 then
      let y := { x with stepNo := some 0, markOk := !x.markErr, badMarks := if x.markErr then x.badMarks else 0, markErr := false }
      if err then (true, { y with markErr := true, badMarks := y.badMarks + 1, good := 0 }) else (false, up y)
    else if err then
      if x.healthy then (true, { x with stepNo := some e, markErr := true, badMarks := x.badMarks + fresh, good := 0 })
      else (true, up { x with stepNo := some 0, markErr := false, markOk := false, badMarks := x.badMarks + fresh, good := 0 })
    else (false, { x with stepNo := some e })

/-- One more bit of the phase word in progress; a word begins at the first marked step 0 after the last one has ended (R38, R40). -/
def takeBit (mark : Bool) (x : PhIn) : PhIn :=
  if x.bits = 0 then
    (if mark ∧ x.stepNo = some 0 then { x with bits := 1, wstart := x.xing, whole := false } else x)
  else if x.bits = 55 then { x with bits := 0, whole := true }
  else { x with bits := x.bits + 1 }

/-- An edge of an input: its measurement, numbering, word and checks, and the check that it fails, if one. -/
def trackEdge (s : State) (i : PhInp) (mark : Bool) (period : Nat) : Option Nat × State :=
  let x := measure (s.phIn i) period
  let rate := rateFails (s.rf .PHI_TOL 0 [] 15 0) x.periods
  let (err, y) := numberStep s.xlen mark { x with stepOk := !rate }
  let y := takeBit mark y
  let t := s.setPhIn i y
  let t := if err then t.bumpF .PHI_ERR 0 [inpNo i] 31 16 1 else t
  (if rate then some 2 else if 2 ≤ y.badMarks then some 3 else none, t)

/-- A STEP edge of an input (R36, R42, R46, R536): MARK as sampled, the time since the input's previous edge, the time since the phase's previous step, both in fs, and the dies that do not follow the step. An edge of the active input no later than half a period after an estimated step adds no step. A failure takes effect after the step (R55). In RESET the CPH inputs are high-impedance, and no edge is seen (R508). -/
def stepEdge (s : State) (i : PhInp) (mark : Bool) (period lag : Nat) (lanes : List (Fin 8 × Nat)) : State :=
  if s.phi.st = .self ∨ s.pinsReset then s
  else
    let active := s.isActive i
    let (bad, t) := trackEdge s i mark period
    let t :=
      if ¬ active then t
      else
        let t := if bad.isNone then takePeriod t i else t
        let late : Bool := s.phi.estimated && decide (2 * lag ≤ s.phi.period)
        let t := { t with phi := { t.phi with estimated := false } }
        let t := if late then t else advance t lanes
        if (t.phIn i).whole then { t with phi := { t.phi with wordIn := true } } else t
    match bad with
    | some c => failCheck t i c
    | none => t

/-- The phase coasts: in HOLDOVER and LOST, and in NONE and ACQUIRE once it has been established (R48, R51). -/
def State.coasts (s : State) : Bool :=
  s.phi.st == .holdover || s.phi.st == .lost || ((s.phi.st == .none || s.phi.st == .acquire) && s.phi.ever)

/-- A coasted step; HOLDOVER counts them (R49, R51). -/
def coast (s : State) (lanes : List (Fin 8 × Nat)) : State :=
  let t := advance s lanes
  if s.phi.st = .holdover then { t with phi := { t.phi with coasted := t.phi.coasted + 1 } } else t

/-- PHASE_STEP (R42). -/
def execPhaseStep (inp : PhInp) (mark : Bool) (period : Nat) (lag : StepLag) (s : State) : Res :=
  .next (stepEdge s inp mark period lag.lag lag.lanes)

/-- ESTIMATED_STEP: an edge of the active input is missing (R536). -/
def execEstimatedStep (s : State) : Res :=
  .next (if s.phi.st = .locked then
    let t := advance s []
    { t with phi := { t.phi with estimated := true } } else s)

/-- COASTED_STEP (R51). -/
def execCoastedStep (s : State) : Res := .next (if s.coasts then coast s [] else s)

/-- SELF_PHASE_STEP (R59). -/
def execSelfPhaseStep (s : State) : Res := .next (if s.phi.st = .self then advance s [] else s)

/-- TICK: the step count has passed a tick; outside MOORED the age count advances with it (R43, R446). -/
def execTick (s : State) : Res :=
  .next (if s.phi.tickDone ≠ s.ticks then
    { s with
      phi := { s.phi with tickDone := (s.phi.tickDone + 1) % (2 ^ 64 / 2 ^ s.tickShift) }
      glb := { s.glb with ageCnt := if s.glb.mode = .moored then s.glb.ageCnt else s.glb.ageCnt + 1 } }
  else s)

/-- CROSSING_BEGIN: the step that begins a crossing, with the mark check of the active input and the skew check of every die (R42, R44, R46, R83). -/
def execCrossingBegin (mark : Bool) (edge : StepEdge) (s : State) : Res :=
  .next (if s.phi.step + 1 < s.xlen then s
    else match s.phi.st, s.phi.src with
      | .locked, .a => stepEdge s .a mark edge.period edge.lag edge.lanes
      | .locked, .b => stepEdge s .b mark edge.period edge.lag edge.lanes
      | .self, _ => advance s edge.lanes
      | _, _ => if s.coasts then coast s edge.lanes else s)

/-- The phase word's CRC and SYNC are good (R38, R39). -/
def wordGood (w : BitVec 56) : Bool :=
  let v := w.toNat
  decide (bitsOf v 55 48 = 0xB2)
    && decide (crc8 ((List.range 48).map (fun i => v.testBit (55 - i))) = bitsOf v 7 0)

/-- A good word of the active input selects the copy of the first crossing after it (R41). DESIGN CHOICE: the input is asked for after the word has had its effect on the phase state, so the very word that makes an input active again out of HOLDOVER selects the copy; R41 does not say (log 82). -/
def selectCopy (s : State) (i : PhInp) (w : BitVec 56) : State :=
  if s.isActive i ∧ s.copySrc then
    let t := settleCopy s
    { t with cte := { t.cte with nextCopy := some (bitsOf w.toNat 8 8, none) } }
  else s

/-- A word that fails its check (R40, R46). One that leaves its input healthy is a word for which the input has been healthy (R50). -/
def badWord (s : State) (i : PhInp) : State :=
  let x := s.phIn i
  let y := { x with wordOk := false, badWords := x.badWords + 1, good := 0, seeded := x.seeded && x.healthy, words := if x.healthy then x.words + 1 else 0 }
  let t := (s.setPhIn i y).bumpF .PHI_ERR 0 [inpNo i] 15 0 1
  if x.healthy ∧ 2 ≤ y.badWords then failCheck t i 4 else t

/-- An input becomes healthy with this word: PHI_ACQ_WORDS good words with correct marks, the last crossing among them, and 4,096 periods measured (R46, R54, R535). One whose words were good before its 4,096th period becomes healthy at the first good word after it (log 69). -/
def State.nowHealthy (s : State) (x : PhIn) : Bool :=
  !x.healthy && decide (s.rf .PHI_HOLD 0 [] 19 16 ≤ x.good) && x.stepOk && x.markOk && decide (x.badMarks = 0) && decide (4096 ≤ x.periods.length)

/-- A word that passes its check (R40, R46): the first of an input that is not healthy seeds the crossing count with its CROSSING and the crossings begun since. -/
def goodWord (s : State) (i : PhInp) (w : BitVec 56) : State :=
  let x := s.phIn i
  let c := bitsOf w.toNat 47 16
  let y := { x with wordOk := true, badWords := 0, seeded := true, good := if x.healthy then x.good else x.good + 1,
                    words := if x.healthy then x.words + 1 else 0,
                    xing := if x.seeded then x.xing else (c + sub32 x.xing x.wstart) % 2 ^ 32 }
  if s.nowHealthy y then becameHealthy (s.setPhIn i { y with healthy := true }) i else s.setPhIn i y

/-- PHASE_WORD: a whole phase word of an input, whose last bit has come (R38 to R41, R46); none comes through an input that is high-impedance (R508). -/
def execPhaseWord (inp : PhInp) (w : BitVec 56) (s : State) : Res :=
  let x := s.phIn inp
  .next (if s.phi.st = .self ∨ s.pinsReset ∨ ¬ x.whole then s
    else
      let t := s.setPhIn inp { x with whole := false }
      if wordGood w ∧ (¬ x.seeded ∨ bitsOf w.toNat 47 16 = x.wstart) then selectCopy (goodWord t inp w) inp w
      else badWord t inp)

/-- STEP_PRESENCE_FAIL: no edge for 8 measured periods; the input's measurement, numbering and seeding restart at its next edge (R46, R535). -/
def execStepPresenceFail (inp : PhInp) (s : State) : Res :=
  let x := s.phIn inp
  .next (if s.phi.st = .self ∨ s.pinsReset ∨ ¬ x.seen then s
    else failCheck (s.setPhIn inp { unnumber x with seen := false, periods := [], stepOk := false, seeded := false, good := 0, bits := 0, whole := false }) inp 1)

/-- A re-acquisition reports the difference in crossing number (R52). -/
def reportJump (s : State) (had : Bool) (held : Nat) : State :=
  if had then
    let j := sdiff s.phi.xing held
    let t := s.setReg .PHI_JUMP 0 [] (BitVec.ofNat 32 (arg32 j))
    if j = 0 then t else phEvent t 0x8305 [arg32 j]
  else s

/-- The crossing number that the phase held for this step. -/
def State.heldXing (s : State) : Nat := if s.xlen ≤ s.phi.step + 1 then (s.phi.xing + 1) % 2 ^ 32 else s.phi.xing

/-- The input's crossing number and step 0 are adopted (R49, R52). The received step 0 counts as one step of the phase (log 69). -/
def adoptPhase (s : State) (i : PhInp) : State :=
  let x := s.phIn i
  let had := s.phi.ever
  let held := s.heldXing
  let t := drainPorts s
  let t := { t with phi := { t.phi with xing := x.xing, step := 0, stepCnt := (t.phi.stepCnt + 1) % 2 ^ 64, adopt := none, estimated := false, coasted := 0 } }
  let t := setPhase (takePeriod t i) .locked (inpSrc i)
  let t := phEvent t 0x8301 [(inpSrc i).code, t.phi.xing]
  stepBanks (beginCrossing (reportJump t had held) (s.copyAt s.phi.xing))

/-- PHASE_ADOPT: the input to be adopted is at its step 0 (R49, R52). -/
def execPhaseAdopt (s : State) : Res :=
  .next (match s.phi.adopt with
    | some i => if (s.phIn i).healthy ∧ (s.phIn i).stepNo = some 0 ∧ (s.phi.st = .acquire ∨ s.phi.st = .holdover ∨ s.phi.st = .lost) then adoptPhase s i else s
    | none => s)

/-- HOLDOVER_EXPIRY (R49, R57). -/
def execHoldoverExpiry (s : State) : Res :=
  .next (if s.phi.st = .holdover ∧ s.rf .PHI_HOLD 0 [] 15 0 * s.xlen ≤ s.phi.coasted then toLost s else s)

/-- PHASE_REVERT: with REVERT = 1 the device returns at a step 0 to the preferred input once it has been healthy for PHI_ACQ_WORDS words and agrees (R50). -/
def execPhaseRevert (s : State) : Res :=
  let i := s.prefInp
  .next (if s.phi.st = .locked ∧ ¬ s.isActive i ∧ bit (s.reg .PHI_CTRL 0 []) 4 ∧ s.phi.step = 0 ∧ (s.phIn i).healthy
      ∧ s.rf .PHI_HOLD 0 [] 19 16 ≤ (s.phIn i).words ∧ s.agrees i then switchTo s i else s)

/-- PHASE_REALIGN: a skewed die realigns at the next step 0; its step count is not corrected (R43, R44, R61). -/
def execPhaseRealign (d : Fin 8) (s : State) : Res :=
  onDie s d (if s.phi.step = 0 ∧ s.phi.skewed.any (fun e => e.1 = d && decide (e.2 ≠ s.phi.stepCnt)) then
    ({ s with phi := { s.phi with skewed := s.phi.skewed.filter (fun e => e.1 ≠ d), off := mset 0 s.phi.off d 0 } }).setRf .PHI_SKEW_CNT 0 [] 31 24 d
  else s)

/-- The source of PHI_CTRL has changed (R49, R52, R59). The start of self-phase counts no step, and what was kept of the inputs, which are not monitored from then on, is dropped with a copy that a word selected (log 69). -/
def applySource (s : State) (src : Nat) : State :=
  let t := setPhase { s with phi := { s.phi with adopt := none } } .none .none
  match src with
  | 1 => consider (setPhase t .acquire .none)
  | 2 =>
    let start := (s.reg .PHI_SELF_START 0 []).toNat
    let u := { t with
      phi := { t.phi with xing := start, step := 0, estimated := false, inA := {}, inB := {} }
      cte := { t.cte with nextCopy := none } }
    let u := setPhase u .self .self
    let u := phEvent u 0x8301 [PhSrc.self.code, start]
    stepBanks (beginCrossing (reportJump u s.phi.ever s.phi.xing) (s.copyAt s.phi.xing))
  | _ => t

/-- A write of PHI_CTRL: generation, reserved source, then RWP (R6, R49, R61, R401). -/
def wrPhiCtrl (s : State) (w : Word) : Ans :=
  let old := s.reg .PHI_CTRL 0 []
  let new := BitVec.ofNat 32 (w.toNat &&& 0x3B)
  if ¬ genOk (fld w 31 16) (s.gen .PHI_STATE 0) then (.stale, s)
  else if fld w 1 0 = 3 then (.badaddr, s)
  else if new = old then (.ok, s)
  else if s.glb.mode ≠ .provision then (.mode, s)
  else
    let t := settleCopy s
    let t := { t with cte := { t.cte with nextCopy := if bit new 5 then t.cte.nextCopy else none } }
    let t := t.setReg .PHI_CTRL 0 [] new
    (.ok, if fld new 1 0 = fld old 1 0 then t else applySource t (fld new 1 0))

/-- PHI_SOURCE_SELECT: a write of PHI_CTRL (R49, R61). -/
def execPhiSourceSelect (w : Word) (s : State) : Res := hostWr s (fun s => wrPhiCtrl s w)

/-- A read of PHI_NOW_XING latches the step and the tick count (R58, R61). -/
def rdNowXing (s : State) : Word × State :=
  let x : Word := BitVec.ofNat 32 s.phi.xing
  let t := s.setReg .PHI_NOW_XING 0 [] x
  let t := t.setReg .PHI_NOW_STEP 0 [] (BitVec.ofNat 32 s.phi.step)
  let t := t.setReg .PHI_TICKS_LO 0 [] (BitVec.ofNat 32 s.ticks)
  (x, t.setReg .PHI_TICKS_HI 0 [] (BitVec.ofNat 32 (s.ticks / 2 ^ 32)))

/-- PHI_NOW_XING_READ (R58). -/
def execPhiNowXingRead (s : State) : Res := .next (rdResult s (rdNowXing s))

end Sys2Proof.Machine
end

