-- ==== Sys2Proof/Machine/Ports.lean ====
section
/-! DEFINITION. The line ports: configuration, link state, received frames (spec/17), and the receive buffer with its twin-quay mirror (spec/04 R103 to R106, spec/06 R192). -/

namespace Sys2Proof.Machine

/-- What the island keeps of a port's link. -/
def State.lnk (s : State) (p : Nat) : LinkSt := mget {} s.lpx.port p
/-- A change of it. -/
def State.modLnk (s : State) (p : Nat) (f : LinkSt → LinkSt) : State :=
  { s with lpx := { s.lpx with port := mmod {} s.lpx.port p f } }

/-- Every condition of R495 holds: training in KR and CR modes, alignment, FEC lock, no fault. -/
def State.linkGoodNow (s : State) (p : Nat) : Bool :=
  let x := s.lnk p
  s.portOn p && (x.anDone || s.portMode p % 4 == 3) && x.align && x.fecLock && !x.lfault && !x.rfault

/-- The first lane of the port that holds lane l of die d, as a package port number; the lane itself where no port holds it (R485, R486, R499). -/
def State.portOfLane (s : State) (d l : Nat) : Nat :=
  let even := 2 * (d / 2) * 4
  if s.portLanes even = 8 then even
  else ((List.range 4).map (fun k => d * 4 + k)).find? (fun p => p % 4 ≤ l && decide (l < p % 4 + s.portLanes p)) |>.getD (d * 4 + l)

/-- The LPX_PORT_STAT word of lane l; FIRST of a lane that no port holds reads its reset value (R499). -/
def State.portStat (s : State) (d l : Nat) : Word :=
  let p := s.portOfLane d l
  let x := s.lnk p
  packWord [(31, b2n x.up), (30, b2n x.anDone), (29, b2n x.align), (28, b2n x.fecLock), (27, b2n x.lfault), (26, b2n x.rfault), (4, if s.portLanes p = 0 then 0 else p % 4), (0, s.portMode p)]

/-- The LINK field of LPX_STATE: the ports of a die whose link is reported up (R499). -/
def State.linkMask (s : State) (d : Nat) : Nat := maskOf ((List.range 4).filter (fun l => (s.lnk (d * 4 + l)).up))

/-- A link report: LPX_STATE, EV_LINK, and the report to the CTE slice (R496, R497, R500). -/
def reportLink (s : State) (p : Nat) (up : Bool) : State :=
  let d := p / 4
  let t := s.modLnk p (fun x => { x with up := up, upHold := false, downHold := false, turned := true })
  let t := t.bumpGen .LPX_STATE d
  let t := if up then t else t.bump .LPX_LINK_DOWNS d [p % 4]
  let t := t.raiseEv 0x0101 d (t.gen .LPX_STATE d) [p, b2n up, (t.portStat d (p % 4)).toNat]
  let t := { t with cte := { t.cte with linkRep := t.cte.linkRep ++ [(p, up)] } }
  if up then t else abortPort t p

/-- The holds after a change of the conditions (R496). -/
def holdsAfter (s : State) (p : Nat) : State :=
  let ok := s.linkGoodNow p
  s.modLnk p (fun x => { x with upHold := ok && !x.up, downHold := !ok && x.up })

/-- A condition of R495 by number: 0 training, 1 alignment, 2 FEC lock, 3 local fault, 4 remote fault; it holds or fails. -/
def setCond (c : Nat) (ok : Bool) (x : LinkSt) : LinkSt :=
  match c with
  | 0 => { x with anDone := ok }
  | 1 => { x with align := ok }
  | 2 => { x with fecLock := ok }
  | 3 => { x with lfault := !ok }
  | _ => { x with rfault := !ok }

/-- LINK_TRAINING_DONE (R495). -/
def execLinkTrainingDone (p : Fin 32) (s : State) : Res :=
  onDie s (p / 4) (if s.portOn p then holdsAfter (s.modLnk p (setCond 0 true)) p else s)

/-- Codewords of a port that came since the last were counted are counted if its lanes held FEC lock, whether or not the link is up (R493, R539): the commands that bring them are FRAME_RECEIVE and the reports of a condition, the latter also of one that stands as it was (log 75). -/
def countFec (s : State) (p corrected uncorrectable : Nat) : State :=
  if (s.lnk p).fecLock then (s.bumpN .LPX_FEC_CORR (p / 4) [p % 4] corrected).bumpN .LPX_FEC_UNCORR (p / 4) [p % 4] uncorrectable else s

/-- LINK_CONDITIONS_MET: a condition comes to hold, and with the last one the up hold starts (R496). -/
def execLinkConditionsMet (p : Fin 32) (cond : LinkCond) (s : State) : Res :=
  onDie s (p / 4) (if s.portOn p then holdsAfter ((countFec s p cond.corrected cond.uncorrectable).modLnk p (setCond cond.cond true)) p else s)

/-- LINK_FAILURE_DETECT (R496). -/
def execLinkFailureDetect (p : Fin 32) (cond : LinkCond) (s : State) : Res :=
  onDie s (p / 4) (if s.portEn p then holdsAfter ((countFec s p cond.corrected cond.uncorrectable).modLnk p (setCond cond.cond false)) p else s)

/-- LINK_DOWN_REPORT: the failure has lasted DOWN_HOLD_US (R96, R496). -/
def execLinkDownReport (p : Fin 32) (s : State) : Res :=
  onDie s (p / 4) (if (s.lnk p).up ∧ (s.lnk p).downHold then reportLink s p false else s)

/-- LINK_UP_REPORT: every condition has held for UP_HOLD_US (R496, R498). -/
def execLinkUpReport (p : Fin 32) (s : State) : Res :=
  onDie s (p / 4) (if (s.lnk p).upHold ∧ s.linkGoodNow p then reportLink s p true else s)

/-- Lanes of die d that a MODE takes from first lane l (R485, R486). -/
def modeLanes (mode l : Nat) : List Nat :=
  if mode % 4 = 0 then [] else (List.range (min 4 (2 ^ (mode / 4)))).map (fun i => l + i)

/-- The lane is an allowed first lane for a MODE's width (R485, R488). -/
def State.laneAllowed (s : State) (d l mode : Nat) : Bool :=
  match mode / 4 with
  | 0 => true
  | 1 => l % 2 == 0
  | 2 => l == 0
  | _ => l == 0 && d % 2 == 0 && decide (d + 1 < s.dies)

/-- Lanes of die d held by ports other than the one at lane l of that die. -/
def State.heldLanes (s : State) (d l : Nat) : List Nat :=
  let own := ((List.range 4).filter (fun k => k ≠ l)).flatMap (fun k => modeLanes (s.portMode (d * 4 + k)) k)
  if d % 2 = 1 ∧ s.portLanes ((d - 1) * 4) = 8 then [0, 1, 2, 3] ++ own else own

/-- The port would share a lane with another (R488). -/
def State.laneClash (s : State) (d l mode : Nat) : Bool :=
  (modeLanes mode l).any (fun x => (s.heldLanes d l).contains x) ||
    (decide (mode % 4 ≠ 0) && decide (mode / 4 = 3) && (List.range 4).any (fun k => decide (s.portMode ((d + 1) * 4 + k) % 4 ≠ 0)))

/-- A port whose mode or enable changed starts its link anew, which cuts the frames that it has started and not completed (R96, R488; log 75). -/
def restartLink (s : State) (p : Nat) : State :=
  abortPort (holdsAfter (s.modLnk p (fun x => { x with anDone := false, align := false, fecLock := false, lfault := false, rfault := false })) p) p

/-- A write of LPX_PORT_CFG (R6, R488, R490, R499): the width is checked against the lane in a MODE of medium off too, whose port holds no lane that another could share. -/
def wrPortCfg (s : State) (d l : Nat) (w : Word) : Ans :=
  let mode := fld w 19 16
  let max := fld w 13 0
  let old := s.reg .LPX_PORT_CFG d [l]
  if (s.heldLanes d l).contains l then (.busy, s)
  else if max < 64 ∨ 9216 < max then (.badaddr, s)
  else if ¬ s.laneAllowed d l mode ∨ s.laneClash d l mode then (.badaddr, s)
  else if mode ≠ fld old 19 16 ∧ s.glb.mode ≠ .provision then (.mode, s)
  else
    let new := packWord [(31, b2n (bit w 31)), (16, mode), (0, max)]
    let t := s.setReg .LPX_PORT_CFG d [l] new
    let t := if mode % 4 = 0 then t.setRf .CTE_PORT_STAT d [l] 15 0 0 else t
    (.ok, if mode ≠ fld old 19 16 ∨ bit w 31 ≠ bit old 31 then restartLink t (d * 4 + l) else t)

/-- PORT_CONFIG_WRITE (R488). -/
def execPortConfigWrite (d : Fin 8) (l : Fin 4) (w : Word) (s : State) : Res :=
  hostDieWr s d true (fun s => wrPortCfg s d l w)

/-- Bytes of a frame that the steering mask selects, ascending; bytes beyond the frame count as zero (R487). -/
def steerBytes (lo hi : Word) (l : List Byte) : List Byte :=
  ((List.range 64).filter (fun i => if i < 32 then lo.getLsbD i else hi.getLsbD (i - 32))).map (fun i => l.getD i 0)

/-- The die and the region that receive a frame of port p: on an 800 Gbit/s port, bits 0 and 1 of the CRC-32C of R135, its final inversion with it (R104, R471, R487). -/
def State.ingressOf (s : State) (p : Nat) (l : List Byte) : Nat × Nat :=
  let d := p / 4
  if s.portLanes p = 8 then
    let c := Nat.xor (crc32cFeed 0xFFFFFFFF (steerBytes (s.reg .LPX_STEER_LO d []) (s.reg .LPX_STEER_HI d []) l)) 0xFFFFFFFF
    let want := if c % 2 = 0 then d else partner d
    (s.server want, c / 2 % 2)
  else (s.server d, portRegion p)

/-- An arrival number of a die (R106). -/
def nextArrival (s : State) (d : Nat) : Nat × State :=
  let n := mget 0 s.prs.arr d
  (n, { s with prs := { s.prs with arr := mset 0 s.prs.arr d (n + 1) } })

/-- A frame joins a parse queue (R104). -/
def joinParse (s : State) (d region : Nat) (f : Frame) : State :=
  { s with prs := { s.prs with queue := mmod [] s.prs.queue (d * 2 + region) (fun l => l ++ [f]) } }

/-- Frames received on a die's ports since its last heartbeat (R479). -/
def noteRx (s : State) (d : Nat) : State :=
  if s.excluded d then s else { s with icu := { s.icu with sinceBeat := mmod 0 s.icu.sinceBeat d (· + 1) } }

/-- Stage 2 of R20: a buffer of the frame's class, its twin-quay mirror, its place in the parse queue; without a buffer, or without its mirror, the frame is dropped (R104, R106, R171, R191 to R193). A frame that would have to cross to the other die of an HX1620 whose link is down is lost, and counts at the die of its port (R478, R479; log 84). -/
def receiveFrame (s : State) (p : Nat) (l : List Byte) : State :=
  let (d, region) := s.ingressOf p l
  if s.noRoute (p / 4) d then s.bump .PFB_ROUTE_DROP (p / 4)
  else
  let (n, t) := nextArrival s d
  match classFor l.length with
  | none => t
  | some c =>
    match allocBuf t d region c with
    | (none, t) => t
    | (some h, t) =>
      let t := t.putQuay h 128 l
      let f : Frame := { handle := h, len := l.length, port := p, arr := n, mirror := none }
      if ¬ t.twin p ∨ t.unmirrored p then joinParse t d region f
      else match makeMirror t h with
        | (some m, t) => joinParse t d region { f with mirror := some m }
        | (none, t) => (freeBuf t h).bump .QBA_TWIN_FAIL (p / 4) [p % 4]

/-- One counter of a port and the LPX_RX_ERR count (R489). -/
def rxError (s : State) (p : Nat) (r : Reg) : State := (s.bump .LPX_RX_ERR (p / 4) [p % 4]).bump r (p / 4) [p % 4]

/-- A frame that passed R489 is counted (R499). -/
def countRx (s : State) (p n : Nat) : State :=
  let k := (s.lnk p).rxKb
  let t := (s.bump .LPX_RX_FRAMES (p / 4) [p % 4]).bumpN .LPX_RX_KB (p / 4) [p % 4] ((k + n) / 1024)
  t.modLnk p (fun x => { x with rxKb := (k + n) % 1024 })

/-- The received FCS is that of the bytes before it (R489). -/
def fcsGood (l : List Byte) : Bool :=
  decide ((beBytes 4 (fcsOf (l.take (l.length - 4)))).reverse = l.drop (l.length - 4))

/-- Ingress was open to a frame when its first bit arrived: of the frames that arrive at a closed port only the first can have begun before the closing (R437; log 75). -/
def State.admits (s : State) (p : Nat) (f : RxFrame) : Bool := f.openAtFirst && (!s.ingressClosed p || s.lpx.tail.contains p)

/-- A frame that arrives at a closed port is the last that can have begun before the closing (R437). -/
def noteTail (s : State) (p : Nat) : State := if s.ingressClosed p then { s with lpx := { s.lpx with tail := lrem p s.lpx.tail } } else s

/-- A port whose link is not up, by the conditions and not by its report, sends remote fault to its link partner (R495). -/
def State.sendsRemoteFault (s : State) (p : Nat) : Bool := s.portOn p && !s.linkGoodNow p

/-- The link was reported up when the first bit of a frame arrived: only the first frame that ends after a report can have begun before it, and the command tells which; every other began under the present report (R539; log 75). -/
def State.upAtFirst (s : State) (p : Nat) (f : RxFrame) : Bool := if (s.lnk p).turned then f.linkAtFirst else (s.lnk p).up

/-- The checks of R489 and what follows them (R491, R492); a failure of the link during reception, the down hold included, counts as a code error (R496, R539; log 75). -/
def checkFrame (s : State) (p : Nat) (f : RxFrame) : State :=
  let n := f.bytes.length
  if f.codeErr ∨ ¬ s.linkGoodNow p ∨ ¬ (s.lnk p).up then rxError s p .LPX_RX_CODE
  else if s.rf .LPX_PORT_CFG (p / 4) [p % 4] 13 0 < n then rxError s p .LPX_RX_OVERSIZE
  else if n < 64 then rxError s p .LPX_RX_RUNT
  else if ¬ fcsGood f.bytes then rxError s p .LPX_RX_FCS
  else
    let t := countRx s p n
    if beNat ((f.bytes.drop 12).take 2) = 0x8808 then t.bump .LPX_RX_CTRL (p / 4) [p % 4]
    else if ¬ s.admits p f then t.bump .GLB_CLOSED_DROP 0 [p]
    else if s.glb.warm.isSome then { t.bump .GLB_WARM_LOST 0 [1] with glb := { t.glb with lostFlight := t.glb.lostFlight + 1 } }
    else if f.islandFull ∧ s.excluded (p / 4) then t.bump .PFB_TAKEOVER_DROP (p / 4)
    else receiveFrame (noteRx t (p / 4)) p f.bytes

/-- FRAME_RECEIVE (R489, R539): the command brings the codewords that came since the last one and tells whether ingress was open and the link reported up when the first bit arrived (R437, R493). A frame in reception as a warm reset begins is lost with those in flight, one that finds the island's buffer full in a takeover is dropped (R454, R471). -/
def execFrameReceive (p : Fin 32) (f : RxFrame) (s : State) : Res :=
  onDie s (p / 4) (
    if s.portOn p then
      let t := (countFec s p f.corrected f.uncorrectable).modLnk p (fun x => { x with turned := false })
      if s.upAtFirst p f then noteTail (checkFrame t p f) p else t
    else s)

end Sys2Proof.Machine
end

