-- ==== Sys2Proof/Machine/Parse.lean ====
section
/-! DEFINITION. The parse engines: parse words, the vendor parse program, the parse vector (spec/04 R104 to R114, R538). -/

namespace Sys2Proof.Machine

/-- What an engine holds while it parses (R107, R108); next: the word at which the parse goes on; path: the rows of the vendor program whose words have been executed, one entry for each word. -/
structure PSt where
  cur : Nat := 0
  fields : List Byte := List.replicate 64 0
  pflags : Nat := 0
  proto : Byte := 0
  profile : Nat := 0
  digest : Nat := 0
  hoff : List Nat := 0 :: List.replicate 15 255
  fragId : Nat := 0
  pcyc : Nat := 0
  lastw : Nat := 0
  next : Option Nat := none
  path : List Nat := []
  deriving DecidableEq, Repr

/-- The bits of the failure flags (R114). -/
def pfShort : Nat := 30
def pfDepth : Nat := 29
def pfLimit : Nat := 28
def pfUcode : Nat := 27
def pfProg : Nat := 26
def pfLater : Nat := 25
def pfFirst : Nat := 24

/-- A flag of PFLAGS set (R114). -/
def PSt.flag (p : PSt) (n : Nat) : PSt := { p with pflags := Nat.lor p.pflags (2 ^ n) }

/-- A flag set under a condition. -/
def PSt.flagIf (p : PSt) (b : Bool) (n : Nat) : PSt := if b then p.flag n else p

/-- One of bits [30:26] is set (R114). -/
def PSt.failed (p : PSt) : Bool := decide (bitsOf p.pflags 30 26 ≠ 0)

/-- Bytes of a frame that an engine reads; those at or past FLEN - 4, or beyond byte 255, read as zero (R112). -/
def engineRead (l : List Byte) (o n : Nat) : List Byte :=
  (List.range n).map (fun i => if o + i < min 256 (l.length - 4) then l.getD (o + i) 0 else 0)

/-- A read of n bytes flags ERR_SHORT and ERR_DEPTH (R112). -/
def PSt.reads (p : PSt) (l : List Byte) (o n : Nat) : PSt :=
  (p.flagIf (decide (l.length - 4 < o + n)) pfShort).flagIf (decide (256 < o + n)) pfDepth

/-- The extracted bytes written into FIELDS from a byte on; what passes byte 63 is discarded (R110). -/
def PSt.extract (p : PSt) (o : Nat) (b : List Byte) : PSt := { p with fields := (replaceAt p.fields o (b.take (64 - o))).take 64 }

/-- One bit of the CRC-64 of DIGEST (R110). -/
def digestFeed (c : Nat) (b : List Byte) : Nat := (b.flatMap byteBits).foldl (crcStepL 64 0x42F0E1EBA9EA3693) c

/-- Header offset i set (R107, R110); a cursor past 255, with which the parse fails, is kept modulo 256 (log 61). -/
def PSt.setHoff (p : PSt) (i v : Nat) : PSt := { p with hoff := setNth p.hoff i (v % 256) }

/-- Least cycles of a parse word (R111). -/
def parseMin (w : BitVec 128) : Nat := if mfld w 25 25 = 1 ∧ 16 < mfld w 35 31 + 1 then 3 else 2

/-- A parse word is accepted by the Pilot (R111, R420). -/
def parseGood (w : BitVec 128) : Bool := decide (parseMin w ≤ mwCyc w + 1) && decide (mfld w 19 15 ≤ 25)

/-- A word is accepted for loading (R420). -/
def mcsGood (w : BitVec 128) : Bool := if mwKind w = 0 then parseGood w else edGood w

/-- The effects of one parse word (R110, R112): address, frame. DIGEST takes every extracted byte, those that FIELDS have no room for among them (log 61). -/
def parseWord (l : List Byte) (a : Nat) (w : BitVec 128) (p : PSt) : PSt :=
  let c := p.cur
  let k := c + mfld w 59 52
  let key := engineRead l k 2
  let p := p.reads l k 2
  let ex := mfld w 25 25 = 1
  let eo := c + mfld w 43 36
  let en := mfld w 35 31 + 1
  let eb := engineRead l eo en
  let p := if ex then (p.reads l eo en).extract (2 * mfld w 30 26) eb else p
  let p := if mfld w 120 120 = 1 ∧ ex then { p with digest := digestFeed p.digest eb } else p
  let p := if mfld w 12 12 = 1 then { (p.reads l k 4) with fragId := beNat (engineRead l k 4) } else p
  let p := if mfld w 11 11 = 1 then { (p.reads l (k + 1) 1) with proto := (engineRead l (k + 1) 1).headD 0 } else p
  let p := p.flagIf (mfld w 14 14 = 1) (mfld w 19 15)
  let p := if mfld w 13 13 = 1 then { p with profile := mfld w 91 76 } else p
  let c' := c + mfld w 51 44
  let p := { p with cur := c', pcyc := p.pcyc + mwCyc w + 1, lastw := a }
  let p := p.flagIf (decide (255 < c')) pfDepth
  let p := if mfld w 20 20 = 1 then p.setHoff (mfld w 24 21) c' else p
  let p := p.flagIf (mfld w 121 121 = 1) pfProg
  let hit : Bool := decide (Nat.land (beNat key) (mfld w 75 60) = Nat.land (mfld w 91 76) (mfld w 75 60)) && decide (mfld w 13 13 = 0)
  { p with next := if mfld w 122 122 = 1 then none else some (if hit then mfld w 105 92 else mfld w 119 106) }

/-- What a run of the vendor program knows besides the frame: MAX_CYC of the port, the words of the die with an uncorrectable error, and DIGEST at its start. -/
structure VRun where
  maxc : Nat
  bad : List Nat
  base : Nat
  deriving DecidableEq, Repr

/-- Address of the vendor word at the end of a path of words: the first is word 0x0000; the spec gives no other (R538; log 3). -/
def vendorAt (path : List Nat) : Nat := if path.length ≤ 1 then 0 else (Config.vendorAddr path).toNat % 0x3000

/-- The words of a row, each after those before it. -/
def rowPath (path : List Nat) (row : Nat) : Nat → List (List Nat)
  | 0 => []
  | n + 1 => (path ++ [row]) :: rowPath (path ++ [row]) row n

/-- The cycles of a word: at least 2 (R111); left: words of its row from it on, which take extra cycles beyond 2 each (R538; log 33). -/
def wordCycles (path : List Nat) (left extra : Nat) : Nat :=
  if left ≤ 1 ∨ extra = 0 then 2 + extra else 2 + Config.vendorCycles path % (extra + 1)

/-- The words of a row run one after the other up to one, until one has an uncorrectable error or would pass MAX_CYC (R112, R422): words to run, words left in the row, extra cycles, path, PCYC. Gives the path and PCYC reached and the flag of the failure. -/
def rowRun (m : VRun) (row : Nat) : Nat → Nat → Nat → List Nat → Nat → List Nat × Nat × Option Nat
  | 0, _, _, path, cyc => (path, cyc, none)
  | n + 1, left, extra, path, cyc =>
    let here := path ++ [row]
    let c := wordCycles here left extra
    if m.bad.contains (vendorAt here) then (path, cyc, some pfUcode)
    else if m.maxc < cyc + c then (path, cyc, some pfLimit)
    else rowRun m row n (left - 1) (extra - (c - 2)) here (cyc + c)

/-- A row of which only the first words were executed, from the parse before it and that behind the whole row: which of its effects they have made is free (log 33). -/
def PSt.partly (p r : PSt) (path : List Nat) : PSt :=
  let got (n : Nat) : Bool := Config.vendorPart path n
  let byte (i : Nat) : Byte := if got i then r.fields.getD i 0 else p.fields.getD i 0
  let bits := (List.range 32).filter (fun i => if got (64 + i) then r.pflags.testBit i else p.pflags.testBit i)
  { p with
    fields := (List.range 64).map byte
    pflags := maskOf (bits.filter (fun i => decide (i < 26)))
    hoff := (List.range 16).map (fun i => if got (96 + i) then r.hoff.getD i 255 else p.hoff.getD i 255)
    digest := if got 112 then r.digest else p.digest
    fragId := if got 113 then r.fragId else p.fragId
    proto := if got 114 then r.proto else p.proto }

/-- PCYC, LASTW and the path behind the words of a row. -/
def PSt.ran (p : PSt) (path : List Nat) (cyc : Nat) : PSt :=
  { p with pcyc := cyc, path := path, lastw := if path = [] then p.lastw else vendorAt path }

/-- A row of the vendor program: its number, words and cycles, and its effect, unless the parse has failed. It ends before the word that has an uncorrectable error, with ERR_UCODE, or would pass MAX_CYC, with ERR_LIMIT, and behind the word that reads past the frame's end or byte 255 (R112, R422, R538; log 33). The model's choices (log 33): a row of one word has all its effects also when it fails; a row that reads past both limits sets ERR_SHORT and ERR_DEPTH, whichever of its words ends it; a row whose cursor ends just behind byte 255 does not fail by that, the next row does, and it runs and counts. -/
def PSt.row (p : PSt) (m : VRun) (row words cyc : Nat) (f : PSt → PSt) : PSt :=
  let ws := rowPath p.path row words
  let r := f p
  if p.failed then p
  else if (words = 1 ∨ ¬ r.failed) ∧ p.pcyc + cyc ≤ m.maxc ∧ ¬ ws.any (fun w => m.bad.contains (vendorAt w)) then
    r.ran (ws.getLastD p.path) (p.pcyc + cyc)
  else
    let n := if words = 1 ∨ ¬ r.failed then words else 1 + Config.vendorStop (p.path ++ [row]) % words
    let (path, c, why) := rowRun m row n words (cyc - 2 * words) p.path p.pcyc
    let q := (if path.length = p.path.length then p else if path.length = p.path.length + words then r else p.partly r path).ran path c
    match why with
    | some x => q.flag x
    | none => (q.flagIf (r.pflags.testBit pfShort) pfShort).flagIf (r.pflags.testBit pfDepth) pfDepth

/-- n more rows of four-byte or eight-byte pieces of a header. -/
def PSt.pieces (l : List Byte) (m : VRun) (row size : Nat) : Nat → PSt → PSt
  | 0, p => p
  | n + 1, p => PSt.pieces l m row size n (p.row m row 1 2 (fun q => { (q.reads l q.cur size) with cur := q.cur + size }))

/-- DIGEST takes the L3 addresses that FIELDS hold, addr bytes each (R538). -/
def PSt.digestL3 (p : PSt) (m : VRun) (addr : Nat) : PSt :=
  { p with digest := digestFeed (digestFeed m.base ((p.fields.drop 16).take addr)) ((p.fields.drop 32).take addr) }

/-- The vendor program leaves at an exit (R538); the payload starts behind the last header parsed (log 61). -/
def PSt.leave (p : PSt) (exit : Nat) (payload : Bool) : PSt :=
  if p.failed then p
  else
    let q := { p with next := some (0x3000 + exit) }
    (if payload then q.setHoff 6 q.cur else q).flagIf (decide (255 < p.cur)) pfDepth

/-- The Ethernet header at the cursor, with its addresses and EtherType in FIELDS (R538). -/
def vendorEther (l : List Byte) (p : PSt) : PSt :=
  let c := p.cur
  { ((p.reads l c 14).extract 0 (engineRead l c 12)).extract 12 (engineRead l (c + 12) 2) with cur := c + 14 }

/-- EtherType in FIELDS. -/
def PSt.etype (p : PSt) : Nat := beNat ((p.fields.drop 12).take 2)

/-- A VLAN tag, if one stands at the cursor: the first one's TCI goes into FIELDS (R538). -/
def vendorTag (l : List Byte) (m : VRun) (second : Bool) (p : PSt) : PSt :=
  if p.failed ∨ ¬ (p.etype = 0x8100 ∨ p.etype = 0x88A8) then p
  else p.row m (if second then 3 else 2) 1 2 (fun q =>
    let c := q.cur
    let r := (q.reads l c 4).extract 12 (engineRead l (c + 2) 2)
    let r := if second then r.flag 1 else (r.extract 14 (engineRead l c 2)).flag 0
    { r with cur := c + 4 })

/-- ARP (R538): its header counts as the L3 header of 28 bytes in HOFF and for the cursor at the exit (log 61). -/
def vendorArp (l : List Byte) (m : VRun) (l3 : Nat) (p : PSt) : PSt :=
  (p.row m 4 1 2 (fun q =>
    let c := q.cur
    let r := (((q.reads l c 28).extract 16 (engineRead l (c + 14) 4)).extract 32 (engineRead l (c + 24) 4)).flag 9
    { r.setHoff l3 c with cur := c + 28 })).leave 1 false

/-- A fragment's flags, identifier and protocol (R538). -/
def PSt.fragment (p : PSt) (later : Bool) (ident : Nat) (proto : Byte) : PSt :=
  { p.flag (if later then pfLater else pfFirst) with fragId := ident, proto := proto }

/-- The L4 header at the cursor (R538): TCP, UDP, ICMP or ICMPv6, or another; the exit is that of its family, base 2 for IPv4 and 6 for IPv6. A TCP header of less than 20 bytes counts as 20, and an ICMP header as 8; of the header the word reads 13 bytes of TCP, 8 of UDP, 2 of ICMP, on which ERR_SHORT and ERR_DEPTH hang (log 61). -/
def vendorL4 (l : List Byte) (m : VRun) (l4 base proto : Nat) (p : PSt) : PSt :=
  let c := p.cur
  let icmp : Bool := decide (proto = (if base = 2 then 1 else 58))
  let q := p.row m (if proto = 6 then 9 else if proto = 17 then 10 else if icmp then 11 else 12) 1 2 (fun q =>
    let q := q.setHoff l4 c
    if proto = 6 then
      let n := (beNat (engineRead l (c + 12) 1) / 16) * 4
      { ((q.reads l c 13).extract 48 (engineRead l c 4)).flag 6 with cur := c + max 20 n }
    else if proto = 17 then { ((q.reads l c 8).extract 48 (engineRead l c 4)).flag 7 with cur := c + 8 }
    else if icmp then { ((q.reads l c 2).extract 48 (engineRead l c 2)).flag 8 with cur := c + 8 }
    else q)
  q.leave (base + (if proto = 6 then 0 else if proto = 17 then 1 else 2)) true

/-- A later fragment takes the place of an L4 header (R538). -/
def vendorLater (m : VRun) (exit : Nat) (p : PSt) : PSt := (p.row m 13 1 2 (fun q => q)).leave exit true

/-- The IPv4 header with its options (R538): the protocol, whether the packet is a later fragment, and the state behind it. -/
def vendorIp4 (l : List Byte) (m : VRun) (l3 : Nat) (p : PSt) : Nat × Bool × PSt :=
  let c := p.cur
  let h := engineRead l c 20
  let ff := beNat ((h.drop 6).take 2)
  let proto := h.getD 9 0
  let opts := (h.getD 0 0).toNat % 16 - 5
  let q := p.row m 5 2 5 (fun q =>
    let r := (((q.reads l c 20).extract 16 ((h.drop 12).take 4)).extract 32 ((h.drop 16).take 4)).extract 52 [h.getD 1 0]
    let r := ((r.flag 2).setHoff l3 c).digestL3 m 4
    let r := r.flagIf (decide (0 < opts)) 4
    let r := if ff % 16384 = 0 then r else r.fragment (ff % 8192 ≠ 0) (beNat ((h.drop 4).take 2)) proto
    { r with cur := c + 20 })
  (proto.toNat, decide (ff % 8192 ≠ 0), PSt.pieces l m 6 4 opts q)

/-- IPv6 extension headers at the cursor, at most four (R538): headers left, next header. Those are hop-by-hop options 0, routing 43, fragment 44 and destination options 60; a fifth counts as another next header (log 61). The row of a fragment header sets FRAG_ID, PROTO and the fragment flag, also where the frame's end cuts the header (log 33). -/
def vendorExt (l : List Byte) (m : VRun) : Nat → Nat → PSt → Nat × Bool × PSt
  | 0, nh, p => (nh, false, p)
  | fuel + 1, nh, p =>
    if p.failed ∨ ¬ (nh = 0 ∨ nh = 43 ∨ nh = 44 ∨ nh = 60) then (nh, false, p)
    else
      let c := p.cur
      let h := engineRead l c 8
      let off := beNat ((h.drop 2).take 2)
      let later : Bool := decide (nh = 44 ∧ 8 ≤ off)
      let q := p.row m 8 1 2 (fun q =>
        let r := { ((q.reads l c 8).flag 5) with cur := c + 8 }
        if nh = 44 ∧ (8 ≤ off ∨ off % 2 = 1) then r.fragment later (beNat (h.drop 4)) (h.getD 0 0) else r)
      let q := if nh = 44 then q else PSt.pieces l m 8 8 (h.getD 1 0).toNat q
      if later then ((h.getD 0 0).toNat, true, q) else vendorExt l m fuel (h.getD 0 0).toNat q

/-- The IPv6 header with its extension headers (R538). -/
def vendorIp6 (l : List Byte) (m : VRun) (l3 : Nat) (p : PSt) : Nat × Bool × PSt :=
  let c := p.cur
  let h := engineRead l c 40
  let q := p.row m 7 3 8 (fun q =>
    let tc := beNat (h.take 2) / 16 % 256
    let r := (((q.reads l c 40).extract 16 ((h.drop 8).take 32)).extract 52 [BitVec.ofNat 8 tc]).flag 3
    { (r.setHoff l3 c).digestL3 m 16 with cur := c + 40 })
  vendorExt l m 4 (h.getD 6 0).toNat q

/-- Everything from the EtherType on (R538): outer headers, or those behind VXLAN, whose addresses DIGEST then takes alone; an outer first fragment with that UDP port goes on behind VXLAN too (log 61). Fuel 2: one inner level. -/
def vendorFrom (l : List Byte) (m : VRun) : Nat → Bool → PSt → PSt
  | 0, _, p => p
  | fuel + 1, inner, p =>
    let p := vendorTag l m true (vendorTag l m false p)
    let l3 := if inner then 4 else 1
    if p.failed then p
    else if p.etype = 0x0806 then vendorArp l m l3 p
    else if p.etype = 0x0800 ∨ p.etype = 0x86DD then
      let v4 : Bool := decide (p.etype = 0x0800)
      let (proto, later, q) := if v4 then vendorIp4 l m l3 p else vendorIp6 l m l3 p
      let base := if v4 then 2 else 6
      if q.failed then q
      else if later then vendorLater m (base + 3) q
      else
        let r := vendorL4 l m (l3 + 1) base proto q
        if proto = 17 ∧ ¬ inner ∧ ¬ r.failed ∧ beNat ((r.fields.drop 50).take 2) = 4789 then
          let u := { r with next := none, hoff := setNth r.hoff 6 255 }
          let u := u.row m 14 3 6 (fun u =>
            let u := (u.reads l u.cur 8).flag 10
            vendorEther l { u.setHoff 3 (u.cur + 8) with cur := u.cur + 8, digest := m.base, fields := List.replicate 53 0 ++ u.fields.drop 53 })
          vendorFrom l m fuel true u
        else r
    else p.leave 0 true

/-- The vendor parse program of the ROM image (R538), entered at word 0x0000 by ENTRY or by a jump: it parses from the cursor and zeroes FIELDS bytes 0 to 52 before it fills them. -/
def vendorProgram (l : List Byte) (maxc : Nat) (bad : List Nat) (p : PSt) : PSt :=
  let m : VRun := { maxc := maxc, bad := bad, base := p.digest }
  let p := { p with next := none, path := [] }
  vendorFrom l m 2 false (p.row m 1 3 6 (fun q => vendorEther l { q with fields := List.replicate 53 0 ++ q.fields.drop 53 }))

/-- The vendor words are those of the ROM image (R427, R538). -/
def State.romProgram (s : State) : Bool := (mpick (fun w => w < 0x3000) s.plt.mcs).isEmpty

/-- The words of a die with an uncorrectable error (R422). -/
def State.badWords (s : State) (d : Nat) : List Nat := (s.plt.mcsBad.filter (fun x => x.1 = d)).map (·.2)

/-- A parse from an address on (R110 to R113, R538), words left; LASTW stays 0 where the first word itself fails with ERR_UCODE (log 61): the vendor program of the ROM image at word 0x0000, else word by word. -/
def State.parseFrom (s : State) (d maxc : Nat) (l : List Byte) : Nat → Nat → PSt → PSt
  | 0, _, p => p
  | fuel + 1, a, p =>
    let w := s.mcsWord a
    if a = 0 ∧ s.romProgram then
      let v := vendorProgram l maxc (s.badWords d) p
      match v.next with
      | some b => if v.failed then v else s.parseFrom d maxc l fuel b v
      | none => v
    else if s.mcsIsBad d a ∨ mwKind w = 1 then p.flag pfUcode
    else if maxc < p.pcyc + mwCyc w + 1 then p.flag pfLimit
    else
      let q := parseWord l a w p
      if q.failed then q
      else match q.next with
        | some b => s.parseFrom d maxc l fuel b q
        | none => q

/-- MAX_CYC of a port: values below 16 act as 16 (R132). -/
def State.maxCyc (s : State) (p : Nat) : Nat := max 16 (s.rf .PRS_PORT_CFG (p / 4) [p % 4] 9 0)

/-- The parse of a frame on die d, from ENTRY of its port on (R108 to R114, R538). -/
def State.parse (s : State) (d p : Nat) (l : List Byte) : PSt :=
  let q := s.parseFrom d (s.maxCyc p) l 1024 (s.rf .PRS_PORT_CFG (p / 4) [p % 4] 29 16) {}
  let q := q.flagIf (q.pflags.testBit pfFirst && q.pflags.testBit pfLater) pfProg
  q.flagIf q.failed 31

/-- The 128 bytes of a parse vector (R107). -/
def vectorOf (p port flen : Nat) (q : PSt) : List Byte :=
  padTo 128 (q.fields ++ beBytes 4 q.pflags ++ beBytes 1 port ++ [q.proto] ++ beBytes 2 q.profile ++ beBytes 8 q.digest
    ++ q.hoff.map (fun v => BitVec.ofNat 8 v) ++ beBytes 4 q.fragId ++ beBytes 2 flen ++ beBytes 2 (min 0xFFFF q.pcyc) ++ beBytes 2 p)

/-- Bytes o to o + n - 1 of a vector as a number. -/
def vecNat (v : List Byte) (o n : Nat) : Nat := beNat (sliceOf v o n)

/-- PFLAGS of a vector. -/
def vecFlags (v : List Byte) : Nat := vecNat v 64 4

/-- Unit numbers (R526). -/
def unitPrs : Nat := 2
def unitCls : Nat := 3
def unitFwt : Nat := 4

/-- The frame that an idle engine of a region takes: the oldest of its own parse queue, else of the other's (R105). -/
def State.takeParse (s : State) (d r : Nat) : Option (Nat × Frame) :=
  match mget [] s.prs.queue (d * 2 + r) with
  | f :: _ => some (r, f)
  | [] => match mget [] s.prs.queue (d * 2 + (1 - r)) with
    | f :: _ => some (1 - r, f)
    | [] => none

/-- A frame's buffer and mirror go. -/
def loseFrame (s : State) (f : Frame) : State := freeBoth s f.handle f.mirror

/-- The place of the next frame in the order in which the engines of a die take theirs. -/
def State.nextTurn (s : State) (d : Nat) : Nat := (mpick (fun k => k / 16 = d) s.prs.eng).foldl (fun a x => max a x.2.turn) 0 + 1

/-- A parse starts and runs on an idle engine (R105, R108); a frame whose words cannot be read is dropped (R462). -/
def startParse (s : State) (d e : Nat) : State :=
  if (mfind s.prs.eng (d * 16 + e)).isSome ∨ s.unitDown d unitPrs then s
  else
    let r := e / 8
    match s.takeParse d r with
    | none => s
    | some (from_, f) =>
      if s.quayBad f.handle 128 (min 256 f.len) then
        (loseFrame { s with prs := { s.prs with queue := mmod [] s.prs.queue (d * 2 + from_) (fun l => l.drop 1) } } f).bump .ICU_FRAME_DROP d
      else
      let l := s.quayBytes f.handle 128 f.len
      let q := s.parse d f.port l
      let v := vectorOf q.lastw f.port f.len q
      let t := { s with prs := { s.prs with
        queue := mmod [] s.prs.queue (d * 2 + from_) (fun l => l.drop 1)
        eng := minsert (d * 16 + e) { frame := f, vec := v, cross := from_ ≠ r, turn := s.nextTurn d } s.prs.eng } }
      if from_ = r then t else t.bump .PRS_XREGION d

/-- PARSE_FRAME (R105). -/
def execParseFrame (d : Fin 8) (e : Fin 16) (s : State) : Res := onDie s d (startParse s d e)

/-- The counters of a parse that has ended (R132): port p, its cycles, its flags. -/
def countParse (s : State) (d p : Nat) (v : List Byte) : State :=
  let cyc := vecNat v 102 2
  let fl := vecFlags v
  let t := (s.bump .PRS_FRAMES d [p % 4]).bumpN .PRS_CYCLES d [p % 4] cyc
  let t := if fl.testBit 31 then t.bump .PRS_FAIL d [p % 4] else t
  let t := t.setRf .PRS_MAX_SEEN d [] 15 0 (max cyc (t.rf .PRS_MAX_SEEN d [] 15 0))
  let t := if fl.testBit pfShort then t.bumpF .PRS_ERR d [] 31 24 1 else t
  let t := if fl.testBit pfDepth then t.bumpF .PRS_ERR d [] 23 16 1 else t
  let t := if fl.testBit pfLimit then t.bumpF .PRS_ERR d [] 15 8 1 else t
  if fl.testBit pfUcode then t.bumpF .PRS_ERR d [] 7 0 1 else t

end Sys2Proof.Machine
end

