-- ==== Sys2Proof/Machine/Fwt.lean ====
section
/-! DEFINITION. Forwarding tables: lookups, learning, moves, notices, aging, flow contexts, LPM and the table commands (spec/05). -/

namespace Sys2Proof.Machine

/-- A 128-bit word with bits [hi:lo] replaced. -/
def setM (w : BitVec 128) (hi lo v : Nat) : BitVec 128 := BitVec.ofNat 128 (setBitsOf w.toNat hi lo v)

/-- An L2 entry's word with only its key and PORT, DATA and flags STATIC, NOTICE, PENDING as given; VALID = 1 unless pending (R137). -/
def l2Make (dom mac port data : Nat) (isStatic act notice pend : Bool) : BitVec 128 :=
  BitVec.ofNat 128 (b2n (!pend) * 2 ^ 127 + b2n isStatic * 2 ^ 126 + b2n act * 2 ^ 124 + b2n notice * 2 ^ 123 + b2n pend * 2 ^ 122
    + port % 32 * 2 ^ 117 + dom % 4096 * 2 ^ 96 + mac % 2 ^ 48 * 2 ^ 48 + data % 2 ^ 24 * 2 ^ 24)

/-- VALID of an L2 entry. -/
def L2Ent.valid (e : L2Ent) : Bool := e.word.getLsbD 127
/-- STATIC. -/
def L2Ent.isStatic (e : L2Ent) : Bool := e.word.getLsbD 126
/-- PINNED. -/
def L2Ent.pinned (e : L2Ent) : Bool := e.word.getLsbD 125
/-- ACT. -/
def L2Ent.act (e : L2Ent) : Bool := e.word.getLsbD 124
/-- NOTICE. -/
def L2Ent.notice (e : L2Ent) : Bool := e.word.getLsbD 123
/-- PENDING. -/
def L2Ent.pend (e : L2Ent) : Bool := e.word.getLsbD 122
/-- PORT. -/
def L2Ent.port (e : L2Ent) : Nat := mfld e.word 121 117
/-- MOVES. -/
def L2Ent.moves (e : L2Ent) : Nat := mfld e.word 116 112
/-- DATA. -/
def L2Ent.data (e : L2Ent) : Nat := mfld e.word 47 24
/-- The entry holds this key. -/
def L2Ent.keyIs (e : L2Ent) (dom mac : Nat) : Bool := decide (mfld e.word 107 96 = dom) && decide (mfld e.word 95 48 = mac)

/-- Key of an L2 slot of a die. -/
def l2Key (d slot : Nat) : Nat := d * 32768 + slot
/-- Key of a flow-key slot of a die. -/
def flowKey (d slot : Nat) : Nat := d * 229376 + slot
/-- Key of an LPM entry of a die. -/
def lpmKey (d i : Nat) : Nat := d * 65536 + i
/-- Key of a flow context of a die. -/
def ctxKey (d c : Nat) : Nat := d * 65536 + c

/-- The L2 entry of a slot. -/
def State.l2At (s : State) (d slot : Nat) : Option L2Ent := mfind s.fwt.l2 (l2Key d slot)
/-- An L2 entry written. -/
def State.setL2 (s : State) (d slot : Nat) (e : L2Ent) : State := { s with fwt := { s.fwt with l2 := minsert (l2Key d slot) e s.fwt.l2 } }
/-- An L2 entry removed; an error in it goes with it. -/
def State.dropL2 (s : State) (d slot : Nat) : State :=
  { s with fwt := { s.fwt with l2 := mremove (l2Key d slot) s.fwt.l2 }, icu := { s.icu with staticBad := lrem (d, slot) s.icu.staticBad } }
/-- The flow-key entry of a slot. -/
def State.flowAt (s : State) (d slot : Nat) : Option FlowEnt := mfind s.fwt.flow (flowKey d slot)
/-- A flow-key entry written. -/
def State.setFlow (s : State) (d slot : Nat) (e : FlowEnt) : State := { s with fwt := { s.fwt with flow := minsert (flowKey d slot) e s.fwt.flow } }
/-- A flow context. -/
def State.ctx (s : State) (d c : Nat) : FCtx := mget {} s.fwt.ctx (ctxKey d c)
/-- A flow context changed. -/
def State.modCtx (s : State) (d c : Nat) (f : FCtx → FCtx) : State := { s with fwt := { s.fwt with ctx := mmod {} s.fwt.ctx (ctxKey d c) f } }
/-- FWT_STATE.GEN increments (R165). -/
def bumpFwt (s : State) (d : Nat) : State := s.bumpGen .FWT_STATE d

/-- H of R135 over a key's bytes. -/
def State.fwtHash (s : State) (d : Nat) (l : List Byte) : Nat :=
  Nat.xor (crc32cFeed (s.reg .FWT_HASH_SEED d []).toNat l) 0xFFFFFFFF

/-- The bytes that H covers for an L2 key (R135). -/
def l2Bytes (dom mac : Nat) : List Byte := beBytes 2 dom ++ beBytes 6 mac

/-- The first slots of the two candidate buckets of an L2 key (R135). -/
def State.l2Buckets (s : State) (d dom mac : Nat) : Nat × Nat :=
  let h := s.fwtHash d (l2Bytes dom mac)
  (bitsOf h 10 0 * 8, 16384 + bitsOf h 26 16 * 8)

/-- The first slots of the two candidate buckets of a flow key (R135). -/
def State.flowBuckets (s : State) (d prof : Nat) (key : List Byte) : Nat × Nat :=
  let h := s.fwtHash d (beBytes 1 prof ++ padTo 40 key)
  (bitsOf h 15 0 * 14336 / 65536 * 8, 114688 + bitsOf h 31 16 * 14336 / 65536 * 8)

/-- The slot of R136 in two buckets: the bucket with fewer occupied entries, half 0 on a tie, its lowest free way; none when both are full. -/
def placeIn (occ : Nat → Bool) (b : Nat × Nat) : Option Nat :=
  let ways (x : Nat) := (List.range 8).map (fun i => x + i)
  let n0 := countP' occ (ways b.1)
  let n1 := countP' occ (ways b.2)
  (ways (if n1 < n0 then b.2 else b.1)).find? (fun x => !occ x)

/-- The free slot for an L2 key. -/
def State.l2Place (s : State) (d dom mac : Nat) : Option Nat := placeIn (fun x => (s.l2At d x).isSome) (s.l2Buckets d dom mac)
/-- The free slot for a flow key. -/
def State.flowPlace (s : State) (d prof : Nat) (key : List Byte) : Option Nat := placeIn (fun x => (s.flowAt d x).isSome) (s.flowBuckets d prof key)

/-- The slot that holds an L2 key, valid or pending (R146, R162). The model's choice (log 83): a key is found in whichever slot it stands, so also a static entry whose bucket a new FWT_HASH_SEED has made no candidate of its key. -/
def State.l2Slot (s : State) (d dom mac : Nat) : Option (Nat × L2Ent) :=
  ((mpick (fun k => k / 32768 = d) s.fwt.l2).find? (fun x => x.2.keyIs dom mac)).map (fun x => (x.1 % 32768, x.2))

/-- The slot that holds a flow key, in whichever bucket it stands (the model's choice after a change of FWT_HASH_SEED, log 83). -/
def State.flowSlot (s : State) (d prof : Nat) (key : List Byte) : Option (Nat × FlowEnt) :=
  ((mpick (fun k => k / 229376 = d) s.fwt.flow).find? (fun x => decide (x.2.profile = prof) && decide (x.2.key = key))).map (fun x => (x.1 % 229376, x.2))

/-- The L2 entry that takes part in matching for a key: one that awaits its repair does not (R464). Where a repair leaves a key in two slots the lower slot matches (log 83). -/
def State.l2Match (s : State) (d dom mac : Nat) : Option (Nat × L2Ent) :=
  ((mpick (fun k => k / 32768 = d) s.fwt.l2).find? (fun x => x.2.keyIs dom mac && decide ((d, x.1 % 32768) ∉ s.icu.staticBad))).map (fun x => (x.1 % 32768, x.2))

/-- The flow-key entry that takes part in matching for a key (R464; log 83). -/
def State.flowMatch (s : State) (d prof : Nat) (key : List Byte) : Option (Nat × FlowEnt) :=
  ((mpick (fun k => k / 229376 = d) s.fwt.flow).find? (fun x => decide (x.2.profile = prof) && decide (x.2.key = key) && decide ((d, 32768 + x.1 % 229376) ∉ s.icu.staticBad))).map
    (fun x => (x.1 % 229376, x.2))

/-- L2RES of a hit (R138). -/
def l2Res (e : L2Ent) : Word := packWord [(31, 1), (30, b2n e.isStatic), (29, b2n e.pinned), (24, e.port), (0, e.data)]

/-- An L2 lookup: a valid entry sets its ACT; an entry that awaits its repair matches nothing (R138, R155, R464). -/
def l2Lookup (s : State) (d dom mac : Nat) : Word × State :=
  match s.l2Match d dom mac with
  | some (slot, e) => if e.valid ∧ ¬ e.pend then (l2Res e, s.setL2 d slot { e with word := setM e.word 124 124 1 }) else (0, s)
  | none => (0, s)

/-- FLOWRES of a hit (R140). -/
def flowRes (e : FlowEnt) : Word := packWord [(31, 1), (30, b2n e.isStatic), (0, e.data.toNat)]

/-- A flow-key lookup that inserts nothing: it sets ACT of the entry it hits; an entry that awaits its repair matches nothing (R155, R316, R464). -/
def flowLookup (s : State) (d prof : Nat) (key : List Byte) : Option FlowEnt × State :=
  match s.flowMatch d prof key with
  | some (slot, e) => (some e, s.setFlow d slot { e with act := true })
  | none => (none, s)

/-- An LPM entry. -/
def State.lpmAt (s : State) (d i : Nat) : LpmEnt := mget {} s.fwt.lpm (lpmKey d i)
/-- An LPM entry written. -/
def State.setLpm (s : State) (d i : Nat) (e : LpmEnt) : State := { s with fwt := { s.fwt with lpm := mset {} s.fwt.lpm (lpmKey d i) e } }
/-- VALID of an LPM entry (R157). -/
def LpmEnt.valid (e : LpmEnt) : Bool := e.key.getLsbD 159
/-- V6. -/
def LpmEnt.v6 (e : LpmEnt) : Bool := e.key.getLsbD 158
/-- PLEN. -/
def LpmEnt.plen (e : LpmEnt) : Nat := bitsOf e.key.toNat 157 150
/-- VRF. -/
def LpmEnt.vrf (e : LpmEnt) : Nat := bitsOf e.key.toNat 143 128
/-- The entry matches an address, given with an IPv4 address in bits [127:96] (R157). -/
def LpmEnt.matches (e : LpmEnt) (v6 : Bool) (vrf addr : Nat) : Bool :=
  e.valid && (e.v6 == v6) && decide (e.vrf = vrf) && decide (bitsOf e.key.toNat 127 0 / 2 ^ (128 - min 128 e.plen) = addr / 2 ^ (128 - min 128 e.plen))

/-- The valid LPM entries of a die with their indices, ascending. -/
def State.lpmList (s : State) (d : Nat) : List (Nat × LpmEnt) :=
  ((mpick (fun k => k / 65536 = d) s.fwt.lpm).filter (fun x => x.2.valid)).map (fun x => (x.1 % 65536, x.2))

/-- LPMRES: the lowest matching entry wins; an entry that is stuck or being restored matches nothing (R157, R463). -/
def State.lpmLookup (s : State) (d : Nat) (v6 : Bool) (vrf addr : Nat) : Word :=
  match (s.lpmList d).find? (fun x => x.2.matches v6 vrf addr && decide ((d, 8192 + x.1) ∉ s.icu.stuck) && decide ((d, 8192 + x.1) ∉ s.icu.restoring)) with
  | some (_, e) => packWord [(31, 1), (0, fld e.result 23 0)]
  | none => 0

/-- CTX_SPLIT of a die (R142). -/
def State.ctxSplit (s : State) (d : Nat) : Nat := s.rf .FWT_CFG d [] 15 0

/-- A hardware context is free (R142, R143). -/
def State.ctxFree (s : State) (d c : Nat) : Bool :=
  let x := s.ctx d c
  decide (x.refs = 0) && !x.quar && !(mpick (fun _ => true) s.fwt.bound).any (fun e => s.server (e.1 / 4) = d && decide (e.2 = c))

/-- The lowest free context from c on: number of candidates left (log 37). -/
def State.freeCtxFrom (s : State) (d : Nat) : Nat → Nat → Option Nat
  | 0, _ => none
  | n + 1, c => if s.ctxFree d c then some c else s.freeCtxFrom d n (c + 1)

/-- The lowest free hardware context of a die. -/
def State.freeCtx (s : State) (d : Nat) : Option Nat := s.freeCtxFrom d (65532 - s.ctxSplit d) (s.ctxSplit d)

/-- Piece mask of a flow context in a stack (R197). -/
def ctxMask (c : Nat) : Nat := pieceMask ((0x59E830000 + c * 128) / 256)

/-- The flow cache of a die, most recently used first (R144). -/
def State.cached (s : State) (d : Nat) : List Nat := mget [] s.fwt.cache d

/-- A write-back of an evicted context to the own stack and the partner's mirror (R199); after the partner's exclusion, or without a partner link, to the own stack only (R473). -/
def writeBack (s : State) (d c : Nat) : State :=
  let t := pushPort s d 2 true (.ctx d c) (ctxMask c)
  if s.excluded (partner d) then t else pushPort t (partner d) 2 true (.ctx d c) (ctxMask c)

/-- A context becomes the most recently used one of the cache; the least recently used one is written back when the cache is full (R144). -/
def cacheIn (s : State) (d c : Nat) : State :=
  let l := c :: lrem c (s.cached d)
  let t := { s with fwt := { s.fwt with cache := mset [] s.fwt.cache d (l.take 8192) } }
  match (l.drop 8192).head? with
  | some e => writeBack t d e
  | none => t

/-- The read of a context through P2, from the own stack, or from the partner's mirror when the own stack is lost (R144, R199). -/
def fetchCtx (s : State) (d c : Nat) : State := pushPort s (if nbit s.ssc.lost d then partner d else d) 2 false (.ctx d c) (ctxMask c)

/-- A use of a context through the cache: whether it is there; a miss counts, and the context is fetched and enters the cache with FLOW_CONTEXT_FETCH (R144, R199). -/
def touchCtx (s : State) (d c : Nat) : Bool × State :=
  if c ∈ s.cached d then (true, cacheIn s d c)
  else
    let t := s.bump .FWT_FCACHE_MISS d
    if (d, c) ∈ s.fwt.fetch then (false, t)
    else (false, fetchCtx { t with fwt := { t.fwt with fetch := t.fwt.fetch ++ [(d, c)] } } d c)

/-- A hardware context is zeroed and bound (R143). -/
def bindCtx (s : State) (d c : Nat) : State := cacheIn (s.modCtx d c (fun _ => { refs := 1 })) d c

/-- An entry lets go of its context: a hardware context without entries is free, or quarantined until RSQ_NEXT equals NEXT_SEQ (R143). DESIGN CHOICE: a frame of the flow that still waits for its number does not hold the context, and takes its number from the context as it then is (log 83). -/
def unbindCtx (s : State) (d c : Nat) : State :=
  s.modCtx d c (fun x =>
    let y := { x with refs := x.refs - 1 }
    if s.ctxSplit d ≤ c ∧ y.refs = 0 ∧ y.nextSeq ≠ y.rsqNext then { y with quar := true } else y)

/-- A flow-key entry removed, with its context (R143). -/
def dropFlow (s : State) (d slot : Nat) : State :=
  match s.flowAt d slot with
  | some e => unbindCtx { s with fwt := { s.fwt with flow := mremove (flowKey d slot) s.fwt.flow }, icu := { s.icu with staticBad := lrem (d, 32768 + slot) s.icu.staticBad } } d e.ctx
  | none => s

/-- The insert of a flow key on a miss (R127, R140, R142): the context bound, or none for lack of room, counted in FWT_FLOW_FULL. The entry's DATA is a free value (log 38); ACT starts at 1 (log 39). -/
def flowInsert (s : State) (d prof : Nat) (key : List Byte) : Option Nat × State :=
  match s.flowPlace d prof key, s.freeCtx d with
  | some slot, some c =>
    let (v, t) := s.takeFree
    let e : FlowEnt := { profile := prof, key := key, isStatic := false, act := true, data := v.truncate 24, ctx := c }
    (some c, bumpFwt (bindCtx (t.setFlow d slot e) d c) d)
  | _, _ => (none, s.bump .FWT_FLOW_FULL d)

/-- FWT_PORT_CFG.LDATA of a package port (R138). -/
def State.ldata (s : State) (p : Nat) : Nat := s.rf .FWT_PORT_CFG (p / 4) [p % 4] 23 0

/-- Learning is enabled on a die for a port (R146). -/
def State.learnOn (s : State) (d p : Nat) : Bool := bit (s.reg .FWT_CFG d []) 31 && bit (s.reg .FWT_PORT_CFG (p / 4) [p % 4]) 31

/-- The learn queue of a die. -/
def State.learnQ (s : State) (d : Nat) : List LearnReq := mget [] s.fwt.learnq d
/-- The learn queue of a die replaced. -/
def State.setLearnQ (s : State) (d : Nat) (l : List LearnReq) : State := { s with fwt := { s.fwt with learnq := mset [] s.fwt.learnq d l } }

/-- How a learn request ends (R146, R316). -/
inductive LearnRes | done | noRoom | full
  deriving DecidableEq, Repr

/-- A learn request of a source address on a port, by the table of R146; a source lookup that hits sets ACT (R146, R149, R155, R165), and an entry that awaits its repair matches nothing (R464). -/
def learnRequest (s : State) (d dom mac p : Nat) : LearnRes × State :=
  let full := decide (1024 ≤ (s.learnQ d).length)
  match s.l2Match d dom mac with
  | some (slot, e) =>
    let s := if e.pend then s else s.setL2 d slot { e with word := setM e.word 124 124 1 }
    if e.port = p then (.done, s)
    else if full then (.full, s.bump .FWT_LQ_DROP d)
    else (.done, s.setLearnQ d (s.learnQ d ++ [.move (BitVec.ofNat 12 dom) (BitVec.ofNat 48 mac) (BitVec.ofNat 5 p)]))
  | none =>
    match s.l2Place d dom mac with
    | none => (.noRoom, s.bump .FWT_LEARN_FULL d)
    | some slot =>
      if full then (.full, s.bump .FWT_LQ_DROP d)
      else
        let t := s.setL2 d slot { word := l2Make dom mac p 0 false false false true, winTick := 0, pinTick := 0 }
        (.done, bumpFwt (t.setLearnQ d (t.learnQ d ++ [.insert slot (BitVec.ofNat 12 dom) (BitVec.ofNat 48 mac) (BitVec.ofNat 5 p)])) d)

/-- A learn notice is sent to every other present die when NOTICE_EN is 1 (R153). -/
def sendNotice (s : State) (d dom mac p : Nat) : State :=
  if bit (s.reg .FWT_CFG d []) 30 then
    let n : Notice := { domain := BitVec.ofNat 12 dom, mac := BitVec.ofNat 48 mac, port := BitVec.ofNat 5 p, data := BitVec.ofNat 24 (s.ldata p) }
    { s with fwt := { s.fwt with flight := s.fwt.flight ++ (s.liveDies.filter (fun e => e ≠ d)).map (fun e => (e, n)) } }
  else s

/-- An insert request is applied to its reserved slot (R148); a slot that is no longer reserved for the key leaves nothing to do. -/
def applyInsert (s : State) (d slot dom mac p : Nat) : State :=
  match s.l2At d slot with
  | some e =>
    if e.pend ∧ e.keyIs dom mac then
      let t := s.setL2 d slot { word := l2Make dom mac p (s.ldata p) false true false false, winTick := 0, pinTick := 0 }
      sendNotice (bumpFwt (t.bump .FWT_LEARNS d) d) d dom mac p
    else s
  | none => s

/-- FWT_MOVE.MOVE_LIMIT (R150). -/
def State.moveLimit (s : State) (d : Nat) : Nat := s.rf .FWT_MOVE d [] 31 24

/-- A move request is applied by the table of R150; an address that is no longer in the table leaves nothing to move (log 40). -/
def applyMove (s : State) (d dom mac p : Nat) : State :=
  match s.l2Match d dom mac with
  | none => s
  | some (slot, e) =>
    let fresh := decide (e.moves = 0) || decide (s.rf .FWT_MOVE d [] 23 0 ≤ s.ticksOn d - e.winTick)
    let n := if fresh then 0 else e.moves
    if e.pend then s
    else if e.isStatic then s.bump .FWT_STATIC_CONFLICT d
    else if e.pinned then s.bump .FWT_MOVE_REFUSED d
    else if s.moveLimit d ≠ 0 ∧ n = s.moveLimit d then
      let t := bumpFwt (s.setL2 d slot { e with word := setM e.word 125 125 1, pinTick := s.ticksOn d }) d
      (t.bump .FWT_MOVE_REFUSED d).raiseEv 0x0401 d (t.gen .FWT_STATE d) ([d, dom] ++ w64 mac ++ [e.port, p, t.gen .FWT_STATE d])
    else
      let w := setM (setM (setM (setM (setM e.word 121 117 p) 47 24 (s.ldata p)) 116 112 (min 31 (n + 1))) 124 124 1) 123 123 0
      let t := s.setL2 d slot { e with word := w, winTick := if fresh then s.ticksOn d else e.winTick }
      sendNotice (bumpFwt (t.bump .FWT_MOVES d) d) d dom mac p

/-- A learn notice is applied (R153). A created entry starts with ACT = 1 as an applied learn (R155; log 39). One that finds its slot reserved for a queued learn of its key finds an entry with NOTICE = 0 and is refused (log 81). -/
def applyNotice (s : State) (d : Nat) (n : Notice) : State :=
  match s.l2Match d n.domain.toNat n.mac.toNat with
  | some (slot, e) =>
    if e.notice then
      bumpFwt (s.setL2 d slot { e with word := setM (setM e.word 121 117 n.port.toNat) 47 24 n.data.toNat }) d
    else s.bump .FWT_NOTICE_REFUSED d
  | none =>
    match s.l2Place d n.domain.toNat n.mac.toNat with
    | some slot => bumpFwt (s.setL2 d slot { word := l2Make n.domain.toNat n.mac.toNat n.port.toNat n.data.toNat false true true false, winTick := 0, pinTick := 0 }) d
    | none => s.bump .FWT_NOTICE_REFUSED d

/-- The head of the learn queue leaves it, unless the FWT restarts (R146, R457). -/
def popLearn (s : State) (d : Nat) : Option LearnReq × State :=
  if s.unitDown d unitFwt then (none, s)
  else match s.learnQ d with
    | [] => (none, s)
    | r :: l => (some r, s.setLearnQ d l)

/-- LEARN_APPLY: the learn engine applies the insert request at the head of its queue (R148). -/
def execLearnApply (d : Fin 8) (s : State) : Res :=
  onDie s d (match popLearn s d with
    | (some (.insert slot dom mac p), t) => applyInsert t d slot dom.toNat mac.toNat p.toNat
    | _ => s)

/-- MOVE_APPLY: the learn engine applies the move request at the head of its queue (R150). -/
def execMoveApply (d : Fin 8) (s : State) : Res :=
  onDie s d (match popLearn s d with
    | (some (.move dom mac p), t) => applyMove t d dom.toNat mac.toNat p.toNat
    | _ => s)

/-- LEARN_NOTICE_APPLY: the learn engine applies the notice at the head of its queue (R153). -/
def execLearnNoticeApply (d : Fin 8) (s : State) : Res :=
  onDie s d (match popLearn s d with
    | (some (.notice n), t) => applyNotice t d n
    | _ => s)

/-- LEARN_NOTICE: a notice on its way arrives and joins the learn queue, or is dropped and counted when the queue is full (R146, R153). -/
def execLearnNotice (d : Fin 8) (n : Notice) (s : State) : Res :=
  onDie s d
    (if (d.val, n) ∈ s.fwt.flight then
      let t := { s with fwt := { s.fwt with flight := lrem (d.val, n) s.fwt.flight } }
      if (t.learnQ d).length < 1024 then t.setLearnQ d (t.learnQ d ++ [.notice n]) else t.bump .FWT_LQ_DROP d
    else s)

/-- Age period of a table (R154). -/
def State.agePeriod (s : State) (d : Nat) : Tbl → Nat
  | .l2 => (s.reg .FWT_L2_AGE d []).toNat
  | .flow => (s.reg .FWT_FLOW_AGE d []).toNat
  | .lpm => 0

/-- Key of the ager's record of its last visit to a slot. -/
def ageKey (d : Nat) (t : Tbl) (i : Nat) : Nat :=
  match t with
  | .l2 => d * 262144 + i
  | _ => d * 262144 + 32768 + i

/-- Slots of a table that ages (R135). -/
def tblSlots : Tbl → Nat
  | .l2 => 32768
  | .flow => 229376
  | .lpm => 0

/-- The ager may visit a slot of the table: aging is on and the slot has not been visited in this period (R154). -/
def State.visitDue (s : State) (d : Nat) (t : Tbl) (i : Nat) : Bool :=
  decide (i < tblSlots t) && decide (s.agePeriod d t ≠ 0) && !s.unitDown d unitFwt &&
    match mfind s.fwt.agePos (ageKey d t i) with
    | some n => decide (n + s.agePeriod d t ≤ s.ticksOn d)
    | none => true

/-- One visit of the ager (R154, R165); hit: a lookup hits the entry in the same cycle, so it lives with ACT set (R155, R166). -/
def ageVisit (s : State) (d : Nat) (t : Tbl) (i : Nat) (hit : Bool) : State :=
  let v := { s with fwt := { s.fwt with agePos := minsert (ageKey d t i) (s.ticksOn d) s.fwt.agePos } }
  match t with
  | .l2 => match s.l2At d i with
    | some e =>
      if e.isStatic ∨ e.pend then s
      else if e.act ∨ hit then v.setL2 d i { e with word := setM e.word 124 124 (b2n hit) }
      else bumpFwt ((v.dropL2 d i).bump .FWT_AGED_L2 d) d
    | none => s
  | .flow => match s.flowAt d i with
    | some e =>
      if e.isStatic then s
      else if e.act ∨ hit then v.setFlow d i { e with act := hit }
      else bumpFwt ((dropFlow v d i).bump .FWT_AGED_FLOW d) d
    | none => s
  | .lpm => s

/-- AGER_VISIT; same: a lookup hits the entry in the cycle of the visit (R154, R166). -/
def execAgerVisit (d : Fin 8) (t : Tbl) (i : Tied Nat) (s : State) : Res :=
  onDie s d (if s.visitDue d t i.val then ageVisit s d t i.val i.same else s)

/-- PIN_RELEASE: a pinned entry is released after PIN_TICKS ticks (R150, R165). -/
def execPinRelease (d : Fin 8) (i : Fin 32768) (s : State) : Res :=
  onDie s d (match s.l2At d i with
    | some e =>
      if e.pinned ∧ e.pinTick + (s.reg .FWT_PIN d []).toNat ≤ s.ticksOn d then
        bumpFwt (s.setL2 d i { e with word := setM (setM e.word 125 125 0) 116 112 0 }) d
      else s
    | none => s)

/-- Every learned entry of a die is removed, pending ones included (R145, R167). -/
def dropLearned (s : State) (d : Nat) : State :=
  let t := { s with fwt := { s.fwt with l2 := s.fwt.l2.filter (fun x => decide (x.1 / 32768 ≠ d) || x.2.isStatic) } }
  ((mpick (fun k => k / 229376 = d) s.fwt.flow).filter (fun x => !x.2.isStatic)).foldl (fun t x => dropFlow t d (x.1 % 229376)) t

/-- A write of FWT_HASH_SEED: RWP; a change removes every learned entry (R6, R167). -/
def wrHashSeed (s : State) (d : Nat) (w : Word) : Ans :=
  let same := decide (w = s.reg .FWT_HASH_SEED d [])
  if same then (.ok, s)
  else if s.glb.mode = .provision then (.ok, dropLearned (s.setReg .FWT_HASH_SEED d [] w) d)
  else (.mode, s)

/-- HASH_SEED_WRITE (R167). -/
def execHashSeedWrite (d : Fin 8) (w : Word) (s : State) : Res := hostDieWr s d false (fun s => wrHashSeed s d w)

/-! Table commands (R162 to R165, R392). -/

/-- Length of a body that carries an entry (R392). -/
def bodyLen (table : Nat) : Nat := if table = 1 then 16 else if table = 2 then 64 else 24

/-- A flow-key entry in the layout of R139. -/
def flowBytes (e : FlowEnt) : List Byte :=
  padTo 40 e.key ++ beBytes 1 e.profile ++ [0, 0, 0] ++ beBytes 4 (2 ^ 31 + b2n e.isStatic * 2 ^ 30 + b2n e.act * 2 ^ 29)
    ++ beBytes 4 e.data.toNat ++ beBytes 2 e.ctx ++ List.replicate 10 0

/-- An LPM entry in the layout of R157. -/
def lpmBytes (e : LpmEnt) : List Byte := beBytes 20 e.key.toNat ++ beBytes 4 e.result.toNat

/-- The result bytes of TBL (R392). -/
def tblResult (gen flags mask index : Nat) (entry : List Byte) : List Byte :=
  beBytes 2 gen ++ beBytes 1 flags ++ beBytes 1 mask ++ beBytes 4 index ++ entry

/-- The valid, non-pending entries of a table with their indices, ascending. -/
def State.tblList (s : State) (d table : Nat) : List (Nat × List Byte) :=
  if table = 1 then ((mpick (fun k => k / 32768 = d) s.fwt.l2).filter (fun x => x.2.valid && !x.2.pend)).map (fun x => (x.1 % 32768, beBytes 16 x.2.word.toNat))
  else if table = 2 then (mpick (fun k => k / 229376 = d) s.fwt.flow).map (fun x => (x.1 % 229376, flowBytes x.2))
  else (s.lpmList d).map (fun x => (x.1, lpmBytes x.2))

/-- The key fields of an entry in its layout: L2 DOMAIN and MAC, flow-key KEY and PROFILE, LPM V6, PLEN, VRF and ADDR. -/
def tblKey (table : Nat) (b : List Byte) : Nat :=
  if table = 1 then beNat b / 2 ^ 48 % 2 ^ 60
  else if table = 2 then beNat (b.take 41)
  else
    let k := beNat (b.take 20)
    k % 2 ^ 159 / 2 ^ 150 * 2 ^ 150 + k % 2 ^ 144

/-- A flow-key body whose PROFILE byte breaks its layout. -/
def badProfile (table : Nat) (b : List Byte) : Bool := decide (table = 2) && decide (15 < vecNat b 40 1)

/-- The entry of a table that matches a body's key. -/
def State.tblFind (s : State) (d table : Nat) (body : List Byte) : Option (Nat × List Byte) :=
  (s.tblList d table).find? (fun x => tblKey table x.2 = tblKey table body)

/-- An entry of a table takes part in matching: it is not stuck, being restored or awaiting its repair (R463, R464). -/
def State.tblServes (s : State) (d table i : Nat) : Bool :=
  if table = 1 then decide ((d, i) ∉ s.icu.staticBad)
  else if table = 2 then decide ((d, 32768 + i) ∉ s.icu.staticBad)
  else decide ((d, 8192 + i) ∉ s.icu.stuck) && decide ((d, 8192 + i) ∉ s.icu.restoring)

/-- The entry that a search finds for a body's key. -/
def State.tblSeen (s : State) (d table : Nat) (body : List Byte) : Option (Nat × List Byte) :=
  (s.tblList d table).find? (fun x => decide (tblKey table x.2 = tblKey table body) && s.tblServes d table x.1)

/-- The answer of a table command: status, result bytes, state. -/
abbrev TblAns := Status × List Byte × State

/-- A command that names one die: the die is present, and EXP_GEN matches (R162, R165). -/
def oneDie (s : State) (a : TblArgs) (f : TblAns) : TblAns :=
  if a.die ∉ s.liveDies then (.badaddr, [], s)
  else if ¬ genOk a.expGen.toNat (s.gen .FWT_STATE a.die) then (.stale, [], s)
  else f

/-- TBL SEARCH (R162, R392): an entry that takes no part in matching is not found (R463, R464; log 52). -/
def tblSearch (s : State) (a : TblArgs) : TblAns :=
  if a.table < 1 ∨ 3 < a.table ∨ a.body.length ≠ bodyLen a.table ∨ a.flags ≠ 0 ∨ badProfile a.table a.body then (.badaddr, [], s)
  else oneDie s a
    (match s.tblSeen a.die a.table a.body with
     | some (i, e) => (.ok, tblResult (s.gen .FWT_STATE a.die) 1 0 i e, s)
     | none => (.ok, tblResult (s.gen .FWT_STATE a.die) 0 0 0 [], s))

/-- TBL NEXT (R162, R392). -/
def tblNext (s : State) (a : TblArgs) : TblAns :=
  if a.table < 1 ∨ 3 < a.table ∨ a.body.length ≠ 4 ∨ a.flags ≠ 0 then (.badaddr, [], s)
  else oneDie s a
    (let c := beNat a.body
     let from_ := if c = 0xFFFFFFFF then 0 else c + 1
     match (s.tblList a.die a.table).find? (fun x => decide (from_ ≤ x.1)) with
     | some (i, e) => (.ok, tblResult (s.gen .FWT_STATE a.die) 1 0 i e, s)
     | none => (.ok, tblResult (s.gen .FWT_STATE a.die) 2 0 0 [], s))

/-- A static L2 entry from a body on one die: where its key stands, else in a free slot (R136, R162). -/
def l2Write (s : State) (d : Nat) (body : List Byte) : Option State :=
  let w := BitVec.ofNat 128 (beNat body)
  let dom := mfld w 107 96
  let mac := mfld w 95 48
  let e : L2Ent := { word := l2Make dom mac (mfld w 121 117) (mfld w 47 24) true false false false, winTick := 0, pinTick := 0 }
  match s.l2Slot d dom mac with
  | some (slot, _) => some ((s.dropL2 d slot).setL2 d slot e)
  | none => (s.l2Place d dom mac).map (fun slot => s.setL2 d slot e)

/-- A static flow-key entry from a body on one die; a replaced entry lets go of its context (R142, R143, R162). -/
def flowWrite (s : State) (d : Nat) (body : List Byte) : Option State :=
  let key := body.take 40
  let prof := vecNat body 40 1
  let c := vecNat body 52 2
  let e : FlowEnt := { profile := prof, key := key, isStatic := true, act := false, data := BitVec.ofNat 24 (vecNat body 48 4), ctx := c }
  let put (t : State) (slot : Nat) := (t.setFlow d slot e).modCtx d c (fun x => { x with refs := x.refs + 1 })
  match s.flowSlot d prof key with
  | some (slot, _) => some (put (dropFlow s d slot) slot)
  | none => (s.flowPlace d prof key).map (put s)

/-- The index just after the last valid entry with PLEN at least L (R159). -/
def State.insertPoint (s : State) (d l : Nat) : Nat :=
  (s.lpmList d).foldl (fun a x => if l ≤ x.2.plen then x.1 + 1 else a) 0

/-- The lowest hole at or above an index: candidates left (R158). -/
def State.holeFrom (s : State) (d : Nat) : Nat → Nat → Option Nat
  | 0, _ => none
  | n + 1, i => if (s.lpmAt d i).valid then s.holeFrom d n (i + 1) else some i

/-- First indices of the runs of equal PLEN in a list of valid entries, ascending (R159). -/
def runStarts : Option Nat → List (Nat × LpmEnt) → List Nat
  | _, [] => []
  | p, (i, e) :: r => if p = some e.plen then runStarts p r else i :: runStarts (some e.plen) r

/-- The ripple: run leaders move up, the run nearest the hole first; the copy gets VALID last, then VALID clears at the source (R159). -/
def ripple (s : State) (d hole : Nat) : List Nat → Nat × State
  | [] => (hole, s)
  | i :: r =>
    let e := s.lpmAt d i
    let t := (s.setLpm d hole e).setLpm d i { e with key := BitVec.ofNat 160 (e.key.toNat % 2 ^ 159) }
    ripple (t.bump .FWT_LPM_MOVES d) d i r

/-- A ripple that a reset interrupts after n whole moves, with the next leader copied and VALID not yet cleared at its source (R159, R160). -/
def rippleTorn (s : State) (d hole : Nat) : Nat → List Nat → State
  | _, [] => s
  | 0, i :: _ => s.setLpm d hole (s.lpmAt d i)
  | n + 1, i :: r => rippleTorn (ripple s d hole [i]).2 d i n r

/-- The key word of an LPM body with VALID set, reserved bits and the bits below the prefix zero (R157; log 41). -/
def lpmNorm (body : List Byte) : BitVec 160 :=
  let k := beNat (body.take 20)
  let n := 128 - min 128 (bitsOf k 157 150)
  BitVec.ofNat 160 (2 ^ 159 + bitsOf k 158 150 * 2 ^ 150 + bitsOf k 143 128 * 2 ^ 128 + bitsOf k 127 0 / 2 ^ n * 2 ^ n)

/-- An LPM insert on one die (R159, R162). -/
def lpmWrite (s : State) (d : Nat) (body : List Byte) : Option State :=
  let e : LpmEnt := { key := lpmNorm body, result := BitVec.ofNat 32 (vecNat body 20 4 % 2 ^ 24) }
  match (s.lpmList d).find? (fun x => decide (tblKey 3 (beBytes 20 x.2.key.toNat) = tblKey 3 (beBytes 20 e.key.toNat))) with
  | some (i, x) => some (s.setLpm d i { x with result := e.result })
  | none =>
    let p := s.insertPoint d e.plen
    match s.holeFrom d (65536 - p) p with
    | none => none
    | some h =>
      let before := (s.lpmList d).filter (fun x => decide (p ≤ x.1) && decide (x.1 < h))
      if before.isEmpty then some (s.setLpm d p e)
      else
        let (i, t) := ripple s d h (runStarts none before).reverse
        some (t.setLpm d i e)

/-- The indices that an LPM insert writes on one die: the entry with its key, or the insert point, or the hole and the run leaders of the ripple (R159). -/
def State.lpmPlaces (s : State) (d : Nat) (body : List Byte) : List Nat :=
  let key := lpmNorm body
  match (s.lpmList d).find? (fun x => decide (tblKey 3 (beBytes 20 x.2.key.toNat) = tblKey 3 (beBytes 20 key.toNat))) with
  | some (i, _) => [i]
  | none =>
    let p := s.insertPoint d ({ key := key } : LpmEnt).plen
    match s.holeFrom d (65536 - p) p with
    | none => []
    | some h => h :: runStarts none ((s.lpmList d).filter (fun x => decide (p ≤ x.1) && decide (x.1 < h)))

/-- An LPM entry is stuck (R463). -/
def State.lpmStuck (s : State) (d i : Nat) : Bool := decide ((d, 8192 + i) ∈ s.icu.stuck)

/-- An LPM insert on die d is interrupted by a reset after n moves of its ripple, and the Pilot has to scan the memory; a key that is there already takes its result in one step (R160, R162; log 73). -/
def lpmTorn (s : State) (d : Nat) (body : List Byte) (n : Nat) : State :=
  let e : LpmEnt := { key := lpmNorm body, result := 0 }
  let p := s.insertPoint d e.plen
  if (s.lpmList d).any (fun x => decide (tblKey 3 (beBytes 20 x.2.key.toNat) = tblKey 3 (beBytes 20 e.key.toNat))) then s
  else match s.holeFrom d (65536 - p) p with
  | none => s
  | some h =>
    let before := (s.lpmList d).filter (fun x => decide (p ≤ x.1) && decide (x.1 < h))
    let t := rippleTorn s d h n (runStarts none before).reverse
    { t with fwt := { t.fwt with ripple := ladd d t.fwt.ripple } }

/-- One die's part of an insert. -/
def tblWrite (s : State) (table d : Nat) (body : List Byte) : Option State :=
  if table = 1 then l2Write s d body else if table = 2 then flowWrite s d body else lpmWrite s d body

/-- The body of an insert breaks a rule: its PLEN, its PROFILE, or a CTX not below CTX_SPLIT (R142, R162). -/
def State.badInsert (s : State) (table : Nat) (body : List Byte) : Bool :=
  if table = 1 then false
  else if table = 2 then badProfile table body || s.liveDies.any (fun d => decide (s.ctxSplit d ≤ vecNat body 52 2))
  else
    let k := beNat (body.take 20)
    decide ((if k.testBit 158 then 128 else 32) < bitsOf k 157 150)

/-- TBL INSERT: on every present die, or on none (R162, R163, R165, R392); one that would write a stuck LPM entry is denied (R463; log 52). -/
def tblInsert (s : State) (a : TblArgs) : TblAns :=
  if a.table < 1 ∨ 3 < a.table ∨ a.die ≠ 0xFF ∨ a.expGen ≠ 0xFFFF ∨ a.flags ≠ 0 ∨ a.body.length ≠ bodyLen a.table ∨ s.badInsert a.table a.body then (.badaddr, [], s)
  else
    let lack := s.liveDies.filter (fun d => (tblWrite s a.table d a.body).isNone)
    if lack ≠ [] then (.noroom, tblResult 0xFFFF 0 (maskOf lack) 0 [], s)
    else if a.table = 3 ∧ s.liveDies.any (fun d => (s.lpmPlaces d a.body).any (s.lpmStuck d)) then (.denied, [], s)
    else (.ok, tblResult 0xFFFF 0 0 0 [], overDies (fun d t => (tblWrite t a.table d a.body).getD t) s.liveDies s)

/-- One entry removed from a die's table; an LPM entry leaves a hole (R162). -/
def tblRemove (s : State) (table d i : Nat) : State :=
  if table = 1 then s.dropL2 d i
  else if table = 2 then dropFlow s d i
  else s.setLpm d i { s.lpmAt d i with key := BitVec.ofNat 160 ((s.lpmAt d i).key.toNat % 2 ^ 159) }

/-- TBL DELETE on the dies named (R162, R165, R392); one that would write a stuck LPM entry is denied (R463; log 52). -/
def tblDelete (s : State) (a : TblArgs) : TblAns :=
  let every := decide (a.die = 0xFF)
  let found := (if every then s.liveDies else [a.die]).filter (fun d => (s.tblFind d a.table a.body).isSome)
  let t := overDies (fun d t => match t.tblFind d a.table a.body with
    | some (i, _) => tblRemove t a.table d i
    | none => t) found s
  if a.table < 1 ∨ 3 < a.table ∨ a.flags ≠ 0 ∨ a.body.length ≠ bodyLen a.table ∨ badProfile a.table a.body then (.badaddr, [], s)
  else if every then
    if a.expGen ≠ 0xFFFF then (.badaddr, [], s)
    else if a.table = 3 ∧ found.any (fun d => (s.tblFind d 3 a.body).any (fun x => s.lpmStuck d x.1)) then (.denied, [], s)
    else (.ok, tblResult 0xFFFF 0 (maskOf found) 0 [], t)
  else if a.table = 3 then (.badaddr, [], s)
  else oneDie s a (.ok, tblResult (s.gen .FWT_STATE a.die) 0 (maskOf found) 0 [], t)

/-- A learned entry that FLUSH_PORT removes (R162). -/
def flushHit (p : Nat) (dom : Option Nat) (e : L2Ent) : Bool :=
  e.valid && !e.pend && !e.isStatic && decide (e.port = p) && (match dom with
    | some x => decide (mfld e.word 107 96 = x)
    | none => true)

/-- TBL FLUSH_PORT (R162, R165, R392). -/
def tblFlush (s : State) (a : TblArgs) : TblAns :=
  let w := beNat a.body
  let dom := if a.flags % 2 = 1 then some (bitsOf w 11 0) else none
  let hit (x : Nat × L2Ent) := decide (x.1 / 32768 ∈ s.liveDies) && flushHit (bitsOf w 28 24) dom x.2
  if a.table ≠ 1 ∨ a.die ≠ 0xFF ∨ a.expGen ≠ 0xFFFF ∨ 1 < a.flags ∨ a.body.length ≠ 4 then (.badaddr, [], s)
  else (.ok, tblResult 0xFFFF 0 0 (countP' hit s.fwt.l2) [], { s with fwt := { s.fwt with l2 := s.fwt.l2.filter (fun x => !hit x) } })

/-- A host operation as a row of its own: accepted in the claimed modes, its result kept (R376, R387). -/
def hostOp (s : State) (op : Nat) (f : TblAns) : State :=
  let put (t : State) (st : Status) (l : List Byte) : State := { t with gwe := { t.gwe with results := [{ opcode := op, tag := 0, status := st, data := l }] } }
  if s.glb.mode.any then put f.2.2 f.1 f.2.1 else put s .mode []

/-- TBL_SEARCH (R162). -/
def execTblSearch (a : TblArgs) (s : State) : Res := .next (hostOp s 0x30 (tblSearch s a))
/-- TBL_NEXT (R162). -/
def execTblNext (a : TblArgs) (s : State) : Res := .next (hostOp s 0x30 (tblNext s a))
/-- A reset interrupts an LPM insert that would succeed: on the dies named after so many moves; it is not completed and not answered (R160; log 73). -/
def tornInsert (s : State) (a : TblArgs) : State :=
  a.cut.foldl (fun t x => if x.1.val < t.dies then lpmTorn t x.1 a.body x.2 else t) { s with gwe := { s.gwe with results := [] } }

/-- TBL_INSERT; one of an LPM entry that a reset interrupts leaves its moves behind (R160, R162). -/
def execTblInsert (a : TblArgs) (s : State) : Res :=
  .next (if a.cut ≠ [] ∧ a.table = 3 ∧ s.glb.mode.any ∧ (tblInsert s a).1 = .ok then tornInsert s a else hostOp s 0x30 (tblInsert s a))
/-- TBL_DELETE (R162). -/
def execTblDelete (a : TblArgs) (s : State) : Res := .next (hostOp s 0x30 (tblDelete s a))
/-- TBL_FLUSH_PORT (R162). -/
def execTblFlushPort (a : TblArgs) (s : State) : Res := .next (hostOp s 0x30 (tblFlush s a))

/-- The Pilot's scan of the LPM memory after a reset that interrupted an insert: of two valid entries with equal keys the lower one is cleared (R160). -/
def lpmScan (s : State) (d : Nat) : State :=
  let dup (x : Nat × LpmEnt) : Bool := (s.lpmList d).any (fun y => decide (x.1 < y.1) && decide (tblKey 3 (beBytes 20 x.2.key.toNat) = tblKey 3 (beBytes 20 y.2.key.toNat)))
  ((s.lpmList d).filter dup).foldl (fun t x => (tblRemove t 3 d x.1).bump .FWT_LPM_DUP_FIXED d) s

/-- FWT part of a warm reset (R145, R160). DESIGN CHOICE: a hardware context that serves as the fallback flow of a port of an excluded die (R473) stays bound to it, and is freed as a hardware context in that its USER bytes go (log 83). -/
def fwtWarm (s : State) (d : Nat) : State :=
  let t := dropLearned s d
  let keep (k : Nat) (x : FCtx) : FCtx := { x with nextSeq := 0, rsqNext := 0, quar := false, refs := if k % 65536 < s.ctxSplit d then x.refs else 0 }
  let ctx := t.fwt.ctx.foldl (fun m e =>
    if e.1 / 65536 = d then
      (if e.1 % 65536 < s.ctxSplit d ∨ 65532 ≤ e.1 % 65536 then mset {} m e.1 (keep e.1 e.2) else m)
    else minsert e.1 e.2 m) []
  let t : State := { t with fwt := { t.fwt with ctx := ctx, learnq := mset [] t.fwt.learnq d [], agePos := mdrop (fun k => k / 262144 = d) t.fwt.agePos, flight := t.fwt.flight.filter (fun x => x.1 ≠ d), fetch := t.fwt.fetch.filter (fun x => x.1 ≠ d) } }
  if d ∈ t.fwt.ripple then lpmScan { t with fwt := { t.fwt with ripple := lrem d t.fwt.ripple } } d else t

end Sys2Proof.Machine
end

