-- ==== Sys2Proof/Machine/Rsq.lean ====
section
/-! DEFINITION. The resequencer: reorder buffer, ends of tickets, release, gap timeout, handoff, flood copies, exception frames (spec/08 R233 to R246, R254). -/

namespace Sys2Proof.Machine

/-- Key of a reorder buffer entry. -/
def robKey (d t : Nat) : Nat := d * 8192 + t
/-- A reorder buffer entry; none when it is FREE. -/
def State.rob (s : State) (d t : Nat) : Option Rob := mfind s.rsq.rob (robKey d t)
/-- A reorder buffer entry written. -/
def State.setRob (s : State) (d t : Nat) (r : Rob) : State := { s with rsq := { s.rsq with rob := minsert (robKey d t) r s.rsq.rob } }
/-- The entries of a die in use, with their TKT. -/
def State.robList (s : State) (d : Nat) : List (Nat × Rob) := (mpick (fun k => k / 8192 = d) s.rsq.rob).map (fun x => (x.1 % 8192, x.2))
/-- Entries of a die not FREE. -/
def State.robUsed (s : State) (d : Nat) : Nat := (s.robList d).length
/-- A flow ID (R127). -/
def flowId (d c : Nat) : Nat := d * 65536 + c

/-- The lowest free entry from t on: candidates left. -/
def State.robFrom (s : State) (d : Nat) : Nat → Nat → Option Nat
  | 0, _ => none
  | n + 1, t => if (s.rob d t).isNone then some t else s.robFrom d n (t + 1)
/-- The free entry that a ticket receives: the lowest (R129; log 42). -/
def State.robFree (s : State) (d : Nat) : Option Nat := s.robFrom d 8192 0

/-- RSQ_STATE and RSQ_ROB after the number of entries in use has changed from n (R256). -/
def noteRob (s : State) (d n : Nat) : State :=
  let m := s.robUsed d
  let t := s.setRf .RSQ_ROB d [] 31 16 (max m (s.rf .RSQ_ROB d [] 31 16))
  if decide (n = 8192) = decide (m = 8192) then t
  else (t.setRf .RSQ_STATE d [] 0 0 (b2n (decide (m = 8192)))).bumpGen .RSQ_STATE d

/-- An entry assigned (R234). -/
def putRob (s : State) (d t : Nat) (r : Rob) : State := noteRob (s.setRob d t r) d (s.robUsed d)
/-- An entry freed. -/
def dropRob (s : State) (d t : Nat) : State :=
  noteRob { s with rsq := { s.rsq with rob := mremove (robKey d t) s.rsq.rob } } d (s.robUsed d)

/-- EMITTED, RETIRED or HOSTED (R239). -/
def RobSt.ended : RobSt → Bool
  | .emitted => true
  | .retired => true
  | .hosted => true
  | _ => false

/-- The nearer of two entries of a flow, counted up from n. -/
def nearer (n : Nat) (x : Nat × Rob) : Option (Nat × Rob) → Option (Nat × Rob)
  | none => some x
  | some y => if sub32 x.2.seq n < sub32 y.2.seq n then some x else some y

/-- The head of a flow: its lowest number that has not been released or skipped, counted up from RSQ_NEXT (R233). -/
def State.flowHead (s : State) (d c : Nat) : Option (Nat × Rob) :=
  ((s.robList d).filter (fun x => decide (x.2.flow = flowId d c) && decide (x.2.st ≠ .skipped))).foldl (fun m x => nearer (s.ctx d c).rsqNext x m) none

/-- The ended entries of a flow. -/
def State.flowEnded (s : State) (d c : Nat) : List (Nat × Rob) :=
  (s.robList d).filter (fun x => decide (x.2.flow = flowId d c) && x.2.st.ended)

/-- A flow is blocked (R239). -/
def State.flowBlocked (s : State) (d c : Nat) : Bool :=
  (match s.flowHead d c with
   | some (_, r) => decide (r.st = .pending)
   | none => false) && !(s.flowEnded d c).isEmpty

/-- The gap timer of a flow after its entries changed; advanced: the head advanced (R242). -/
def regap (s : State) (d c : Nat) (advanced : Bool) : State :=
  let k := ctxKey d c
  if s.flowBlocked d c then
    if advanced ∨ (mfind s.rsq.gap k).isNone then { s with rsq := { s.rsq with gap := minsert k (s.ticksOn d) s.rsq.gap } } else s
  else { s with rsq := { s.rsq with gap := mremove k s.rsq.gap } }

/-- A frame is dropped: its buffer and its mirror are freed; a buffer already free stays free (R184, R192, R234). -/
def dropFrame (s : State) (f : Frame) : State := loseFrame s f

/-- How a ticket ends (R234). -/
inductive Ending
  | emit (dest : Word) (edit : Nat) (force : Bool)
  | retire (freed : Bool)
  | host (reason code : Nat)
  deriving DecidableEq, Repr

/-- No thread holds an ended ticket any longer. -/
def unhold (s : State) (d t : Nat) : State :=
  { s with cra := { s.cra with thr := s.cra.thr.map (fun x => if x.1 / 384 = d ∧ x.2.ticket = some t then (x.1, { x.2 with ticket := none }) else x) } }

/-- A ticket ends by the PENDING and SKIPPED rows of R234; freed: its buffer has been dealt with. -/
def endTicket (s : State) (d t : Nat) (e : Ending) : State :=
  match s.rob d t with
  | none => s
  | some r =>
    let freed := match e with
      | .retire b => b
      | _ => false
    let lose (s : State) : State := if freed then freeMirror s r.frame.mirror else dropFrame s r.frame
    let u := unhold s d t
    match r.st with
    | .skipped => dropRob ((lose u).bump .RSQ_LATE_DROP d) d t
    | .pending =>
      let v := match e with
        | .emit w n f => u.setRob d t { r with st := .emitted, dest := w, edit := n, force := f }
        | .retire _ => ((lose u).bump .RSQ_RETIRED d).setRob d t { r with st := .retired }
        | .host a b => u.setRob d t { r with st := .hosted, reason := a, code := b }
      regap v d (r.flow % 65536) false
    | _ => s

/-- The retire notice: RSQ_NEXT takes the flow's new head, or NEXT_SEQ when no number is left; a quarantine ends when the two are equal; the context is written through the flow cache (R143, R144, R241). -/
def retireNotice (s : State) (d c : Nat) : State :=
  let n := match s.flowHead d c with
    | some (_, r) => r.seq
    | none => (s.ctx d c).nextSeq
  (touchCtx s d c).2.modCtx d c (fun x => { x with rsqNext := n, quar := x.quar && decide (n ≠ x.nextSeq) })

/-- A frame goes on its way to admission. -/
def pushAdmit (s : State) (a : Admit) : State := { s with qba := { s.qba with admitQ := s.qba.admitQ ++ [a] } }

/-- A handoff record: a copy to die b that awaits its acknowledgement (R245); that of a flood's part is taken at once, but for the copies that wait for it. -/
def pushHand (s : State) (a b : Nat) (r : Rob) (flood : Bool) : Nat × State :=
  let f := r.frame
  let id := s.qba.nextId
  (id, { s with qba := { s.qba with nextId := id + 1 }, rsq := { s.rsq with hand := s.rsq.hand ++
    [{ id := id, src := a, dst := b, handle := f.handle, mirror := f.mirror, copied := flood, flood := flood, arr := f.arr, force := r.force }] } })

/-- The die that owns a landing queue now (R65, R245). -/
def State.owner (s : State) (q : Nat) : Nat := s.server (queueDie q)

/-- A released frame for one landing queue: local admission, or a handoff (R15, R245, R478). -/
def sendOne (s : State) (d : Nat) (r : Rob) (q : Nat) : State :=
  let o := s.owner q
  let a : Admit := { die := o, hand := none, q := q, handle := r.frame.handle, len := r.frame.len, edit := r.edit, flow := r.flow, force := r.force, flood := false, mirror := r.frame.mirror, tick := s.ticksOn d, arr := r.frame.arr }
  if o = d then pushAdmit s a
  else if s.noRoute d o then (dropFrame s r.frame).bump .PFB_ROUTE_DROP d
  else
    let (id, t) := pushHand s d o r false
    (pushAdmit t { a with hand := some id, mirror := none }).bump .RSQ_HANDOFF d

/-- First lane of a port: the lane belongs to a port that starts there. -/
def State.isPort (s : State) (p : Nat) : Bool := decide (s.portOfLane (p / 4) (p % 4) = p) && decide (s.portLanes p ≠ 0)

/-- The landing queues of flood set k of a die for a frame of a port (R156). -/
def State.floodQueues (s : State) (d k ingress : Nat) : List Nat :=
  let w := s.reg .FWT_FLOOD_CFG d [k]
  if bit w 31 then
    ((maskList 32 (s.reg .FWT_FLOOD_PORTS d [k]).toNat).filter (fun p => decide (p ≠ ingress) && decide (p / 4 < s.dies) && s.isPort p)).map
      (fun p => (p / 4 * 1024 + s.rf .FWT_PORT_FLOOD (p / 4) [p % 4] 9 0) * 32 + fld w 4 0)
  else []

/-- A copy of a frame in a new buffer of the same class on die o, region r (R15, R170). -/
def copyBuffer (s : State) (o r : Nat) (f : Frame) : Option Nat × State :=
  match allocBuf s o r (hClass f.handle) with
  | (some h, t) => (some h, t.putQuay h 0 (t.quayBytes f.handle 0 (128 + f.len)))
  | (none, t) => (none, t)

/-- A copy of a flood that found no buffer: it is staged under R16, from the ingress buffer, which the handoff of the flood's part holds (R246). -/
def floodStaged (id : Nat) (f : Frame) (a : Admit) (s : State) (q : Nat) : State :=
  pushAdmit s { a with q := q, hand := some id, handle := f.handle, force := true, src := none }

/-- A flood copy for one queue in a buffer of its own, or without a buffer (R246). -/
def floodOne (id : Nat) (f : Frame) (a : Admit) (s : State) (q : Nat) : State :=
  match copyBuffer s a.die (portRegion (s.bankPort (bankOf q))) f with
  | (some h, t) => pushAdmit t { a with q := q, handle := h }
  | (none, t) => floodStaged id f a t q

/-- The copies of a flood on one owning die, by handoff id: one shared buffer with REFS equal to its queues and the edit engines as closer, or, when the share table is full, one buffer for each queue (R246). a carries what every copy has. -/
def floodCopies (s : State) (id : Nat) (f : Frame) (a : Admit) (qs : List Nat) : State :=
  if 4096 ≤ s.shareUsed a.die then qs.foldl (floodOne id f a) (s.bump .BPM_SHARE_FULL a.die)
  else match copyBuffer s a.die (portRegion (s.bankPort (bankOf (qs.headD 0)))) f with
    | (some h, t) => qs.foldl (fun t q => pushAdmit t { a with q := q, handle := h, flood := true }) (t.setShare h { refs := qs.length, closer := unitCloser 1 })
    | (none, t) => qs.foldl (floodStaged id f a) t

/-- The part of a flood on one owning die (R246). On the ingress die itself there is a handoff only while copies wait for the ingress buffer. -/
def floodDie (r : Rob) (d : Nat) (qs : List Nat) (s : State) (o : Nat) : State :=
  let mine := qs.filter (fun q => s.owner q = o)
  if mine = [] then s
  else if s.noRoute d o then s.bumpN .PFB_ROUTE_DROP d [] mine.length
  else
    let a : Admit := { die := o, hand := none, q := 0, handle := r.frame.handle, len := r.frame.len, edit := r.edit, flow := r.flow, force := r.force, flood := false, mirror := none, tick := s.ticksOn d, arr := r.frame.arr }
    let (id, t) := pushHand (s.bumpN .RSQ_FLOOD_COPIES d [] mine.length) d o r true
    if o = d then
      let u := floodCopies t id r.frame a mine
      if u.handWaits id then u else { u with rsq := { u.rsq with hand := u.rsq.hand.filter (fun h => h.id ≠ id) } }
    else (floodCopies t id r.frame { a with src := some id } mine).bump .RSQ_HANDOFF d

/-- A released flood (R156, R246): without a port left the frame is retired. -/
def flood (s : State) (d : Nat) (r : Rob) : State :=
  let qs := s.floodQueues d (fld r.dest 11 0) r.frame.port
  if qs.isEmpty then (dropFrame s r.frame).bump .RSQ_RETIRED d
  else if s.quayBad r.frame.handle 0 (128 + r.frame.len) then (dropFrame s r.frame).bump .ICU_FRAME_DROP d
  else settleSource (s.allDies.foldl (floodDie r d qs) s) r.frame.handle r.frame.mirror

/-- The metadata block of an exception frame (R254). -/
def excInfo (s : State) (r : Rob) : List Byte :=
  beBytes 1 r.reason ++ beBytes 1 r.frame.port ++ beBytes 2 r.code ++ beBytes 4 r.flow ++ beBytes 4 r.seq ++ beBytes 2 r.rule
    ++ beBytes 2 r.profile ++ beBytes 4 r.pflags.toNat ++ beBytes 2 r.frame.len ++ [0, 0] ++ beBytes 4 (s.xingOn (hDie r.frame.handle)) ++ beBytes 4 (s.stepOn (hDie r.frame.handle))

/-- GWE_EXC_CFG.DEPTH, from 1 to 4,096 (R405; log 43). -/
def State.excDepth (s : State) : Nat := max 1 (min 4096 (s.rf .GWE_EXC_CFG 0 [] 12 0))

/-- The event session (R380). -/
def State.evSession (s : State) : Option Nat := (List.range 4).find? (fun i => (s.gwe.sess.getD i {}).opened && (s.gwe.sess.getD i {}).evt)

/-- The die of the attachment in use: die 0 for A, die 1 for B (R371, R374). -/
def State.hostDie (s : State) : Nat := b2n s.gwe.active

/-- A HOSTED release: the frame joins the exception queue, or is dropped and counted (R24, R254, R405), on an HX1620 also where the fabric cannot carry it to the host port's die (R478). -/
def toGwe (s : State) (d : Nat) (r : Rob) : State :=
  if s.noRoute d s.hostDie then (dropFrame s r.frame).bump .PFB_ROUTE_DROP d
  else if s.evSession = none ∨ s.excDepth ≤ s.gwe.excq.length then (dropFrame s r.frame).bump .GWE_EXC_DROP 0
  else { s with gwe := { s.gwe with excq := s.gwe.excq ++ [{ die := d, handle := r.frame.handle, mirror := r.frame.mirror, info := excInfo s r, arr := r.frame.arr }] } }

/-- The head of a flow, ended, is released and its entry freed (R240, R241); risk: in step 2 of a gap timeout (R242). -/
def releaseHead (s : State) (d c t : Nat) (r : Rob) (risk : Bool) : State :=
  let u := retireNotice (dropRob s d t) d c
  let count (reg : Reg) (v : State) : State := if risk then (v.bump reg d).bump .RSQ_REORDER_RISK d else v.bump reg d
  match r.st with
  | .emitted => let v := count .RSQ_RELEASED u
                if bit r.dest 31 then flood v d r else sendOne v d r (fld r.dest 17 0)
  | .hosted => toGwe (count .RSQ_TOHOST u) d r
  | _ => u

/-- RSQ_RELEASE: one ended head of a flow is released (R240). -/
def rsqRelease (s : State) (d c : Nat) : State :=
  match s.flowHead d c with
  | some (t, r) => if r.st.ended then regap (releaseHead s d c t r false) d c true else s
  | none => s

/-- Step 2 of R242: releases until a PENDING entry or the end of the list; entries left to look at. -/
def releaseRun (s : State) (d c : Nat) : Nat → State
  | 0 => s
  | n + 1 => match s.flowHead d c with
    | some (t, r) => if r.st.ended then releaseRun (releaseHead s d c t r true) d c n else s
    | none => s

/-- A sequence number skipped: its PENDING entry becomes SKIPPED, RSQ_NEXT passes it (R234, R241, R242). -/
def skipHead (s : State) (d c : Nat) : State :=
  match s.flowHead d c with
  | some (t, r) => retireNotice ((s.setRob d t { r with st := .skipped }).bump .RSQ_GAP_SKIP d) d c
  | none => s

/-- Step 1 of R242: skips until the head is ended; numbers left to skip. -/
def skipRun (s : State) (d c : Nat) : Nat → State
  | 0 => s
  | n + 1 => match s.flowHead d c with
    | some (_, r) => if r.st.ended then s else skipRun (skipHead s d c) d c n
    | none => s

/-- Steps 1 to 3 of the gap timeout (R242). -/
def skipGap (s : State) (d c : Nat) : State :=
  let n := s.robUsed d + 1
  regap (releaseRun (skipRun s d c n) d c n) d c true

/-- A write of RSQ_CFG: what GAP_TICKS was before the present tick is kept (R255). -/
def wrRsqCfg (s : State) (d : Nat) (w : Word) : Ans :=
  let now := s.ticksOn d
  let was := match mfind s.rsq.gapWas d with
    | some x => if x.1 = now then x.2 else s.rf .RSQ_CFG d [] 15 0
    | none => s.rf .RSQ_CFG d [] 15 0
  let t := { s with rsq := { s.rsq with gapWas := minsert d (now, was) s.rsq.gapWas } }
  (.ok, t.setRf .RSQ_CFG d [] 15 0 (fld w 15 0))

/-- GAP_TICKS as running timers compare with it: a value written in the present tick counts from the next (R242, R255). -/
def State.gapTicks (s : State) (d : Nat) : Nat :=
  match mfind s.rsq.gapWas d with
  | some x => if x.1 = s.ticksOn d then x.2 else s.rf .RSQ_CFG d [] 15 0
  | none => s.rf .RSQ_CFG d [] 15 0

/-- GAP_TIMEOUT: a blocked flow's timer has run GAP_TICKS ticks (R242). -/
def gapTimeout (s : State) (d c : Nat) : State :=
  let g := s.gapTicks d
  match mfind s.rsq.gap (ctxKey d c) with
  | some t0 => if g ≠ 0 ∧ s.flowBlocked d c ∧ t0 + g ≤ s.ticksOn d then skipGap s d c else s
  | none => s

/-- HANDOFF_ACK: a completed copy is acknowledged, for a flood once none of its copies waits; the ingress buffer goes when no copy of it is left (R15, R192, R245, R246). -/
def handAck (s : State) (id : Nat) : State :=
  match s.rsq.hand.find? (fun h => h.id = id) with
  | some h =>
    if h.copied ∧ ¬ s.handWaits id then
      let t := { s with rsq := { s.rsq with hand := lrem h s.rsq.hand } }
      settleSource t h.handle h.mirror
    else s
  | none => s

/-- An uncorrectable error in a reorder buffer entry (R234, R462). -/
def robError (s : State) (d t : Nat) : State :=
  match s.rob d t with
  | none => s
  | some r =>
    let c := r.flow % 65536
    let atHead := decide ((s.ctx d c).rsqNext = r.seq)
    let count := s.bump .RSQ_GAP_SKIP d
    let pass (v : State) : State :=
      if atHead then regap (releaseRun (retireNotice v d c) d c (v.robUsed d + 1)) d c true else regap v d c false
    match r.st with
    | .pending => pass (count.setRob d t { r with st := .skipped })
    | .skipped => s
    | .retired => pass (dropRob count d t)
    | _ => pass (dropRob ((dropFrame count r.frame).bump .ICU_FRAME_DROP d) d t)

/-- RSQ_RELEASE (R240). -/
def execRsqRelease (d : Fin 8) (c : Fin 65536) (s : State) : Res := onDie s d (rsqRelease s d c)
/-- GAP_TIMEOUT (R242). -/
def execGapTimeout (d : Fin 8) (c : Fin 65536) (s : State) : Res := onDie s d (gapTimeout s d c)
/-- HANDOFF_ACK (R245). -/
def execHandoffAck (id : Nat) (s : State) : Res := .next (handAck s id)

end Sys2Proof.Machine
end

