-- ==== Sys2Proof/Machine/Thr.lean ====
section
/-! DEFINITION. Threads: numbering, registers, completion of waits (spec/09 R257 to R265), and the scheduling trace that records what happens to them (spec/11 R342 to R347). -/

namespace Sys2Proof.Machine

/-- Key of a thread: its package number (R257). -/
def thrKey (d n : Nat) : Nat := d * 384 + n
/-- Core of a die-local thread (R257). -/
def coreOf (n : Nat) : Nat := n / 16
/-- Cluster of a die-local thread (R257). -/
def clusterOf (n : Nat) : Nat := n / 64
/-- Region of a die-local thread (R257). -/
def regionOf (n : Nat) : Nat := n / 192

/-- A thread. -/
def State.thr (s : State) (d n : Nat) : Thr := mget {} s.cra.thr (thrKey d n)
/-- A thread changed. -/
def State.modThr (s : State) (d n : Nat) (f : Thr → Thr) : State := { s with cra := { s.cra with thr := mmod {} s.cra.thr (thrKey d n) f } }

/-- A register read; g0 reads as zero (R258). -/
def Thr.get (t : Thr) (r : Nat) : DWord := if r = 0 then 0 else mget 0 t.g r
/-- A register write; a write to g0 is discarded (R258, R299). -/
def Thr.set (t : Thr) (r : Nat) (v : DWord) : Thr := if r = 0 then t else { t with g := mset 0 t.g r v }

/-- CRA_STATE.GEN increments (R296). -/
def bumpCra (s : State) (d : Nat) : State := s.bumpGen .CRA_STATE d

/-- Slots of a cluster pass in HELPER or SYNC; the model does not keep how many (R296; log 9). -/
def markWait (s : State) (d n : Nat) : State := { s with cra := { s.cra with waitMark := ladd (d * 6 + clusterOf n) s.cra.waitMark } }

/-- CRA_THREAD_EN of a thread (R260). -/
def State.thrEn (s : State) (d n : Nat) : Bool := bit (s.reg .CRA_THREAD_EN d [n / 16]) (n % 16)

/-- The supervisor of a cluster as a die-local thread (R282, R284). -/
def State.superOf (s : State) (d k : Nat) : Option Nat :=
  let w := s.reg .CRA_SUPER d [k]
  if bit w 31 then some (k * 64 + fld w 5 0) else none

/-- The supervisor of a cluster with SUP_EXEMPT, whose slots are not counted toward MAX_SLOTS (R279). -/
def State.exempt (s : State) (d n : Nat) : Bool := bit (s.reg .CRA_CFG d []) 29 && decide (s.superOf d (clusterOf n) = some n)

/-- A thread whose instruction has completed: a step that has issued halts it again (R293). -/
def Thr.settle (t : Thr) : Thr := if t.step = 2 ∧ t.st = .run then { t with st := .halted, was := .run, step := 0, waited := true } else t

/-- A reply or a satisfied wait: the result is written, the PC advances, the thread runs, or stays halted (R265, R291, R299). A stopped thread does not change (R286). -/
def Thr.done (t : Thr) (rd : Nat) (v : DWord) : Thr :=
  let u := { (t.set rd v) with pc := (t.pc + 1) % 32768, wait := none, pend := none, waited := true }
  match t.st with
  | .halted => { u with was := .run }
  | .stopped => { t with wait := none }
  | _ => ({ u with st := .run } : Thr).settle

/-! The scheduling trace. -/

/-- What a trace record is about: kind, thread, list, PC, flow and TKT of a ticket, ARG (R342, R343). -/
structure TrIn where
  kind : Nat
  thread : Option Nat := none
  list : Nat := 0
  pc : Nat := 0
  tkt : Option (Nat × Nat) := none
  arg : Nat := 0
  deriving DecidableEq, Repr

/-- TDX_TRC_CTL.RUN. -/
def State.trcRun (s : State) (d : Nat) : Bool := bit (s.reg .TDX_TRC_CTL d []) 31
/-- TDX_TRC_CTL.TMODE; 3 acts as 0 (R345). -/
def State.trcTmode (s : State) (d : Nat) : Nat := s.rf .TDX_TRC_CTL d [] 28 27 % 3

/-- The flow comparison of R344. -/
def State.flowPass (s : State) (d : Nat) (r : TrIn) : Bool :=
  match r.tkt with
  | some (f, _) => decide (Nat.land (Nat.xor f (s.rf .TDX_TRC_FLOW d [] 18 0)) (s.rf .TDX_TRC_FLOWM d [] 18 0) = 0)
  | none => false

/-- The filters of R344. -/
def State.trcPass (s : State) (d : Nat) (r : TrIn) : Bool :=
  decide (r.kind = 8) ||
    (bit (s.reg .TDX_TRC_FILT d []) r.kind
      && (match r.thread with
          | some n => bit (s.reg .TDX_TRC_CORES d []) (coreOf n)
          | none => true)
      && (!bit (s.reg .TDX_TRC_FILT d []) 16 || s.flowPass d r))

/-- The trigger of R345; a marker record passes every filter, so the flow filter too (R344). -/
def State.trcHit (s : State) (d : Nat) (r : TrIn) : Bool :=
  let w := s.reg .TDX_TRC_TRIG d []
  decide (s.trcTmode d ≠ 0) && !bit (s.reg .TDX_TRC_WR d []) 31 && decide (r.kind = fld w 31 28)
    && (!bit w 27 || decide (r.kind = 8) || s.flowPass d r) && (decide (r.kind ≠ 5) || decide (fld w 7 0 = 0) || decide (fld w 7 0 = r.arg % 256))

/-- The 128 bits of a record (R342); SUB, local time since the step, is a free value (log 9). -/
def recBits (s : State) (d : Nat) (r : TrIn) (sub : Nat) : BitVec 128 :=
  let (f, t) := r.tkt.getD (0, 0)
  BitVec.ofNat 128 (r.kind % 16 * 2 ^ 124 + s.cntOn d % 2 ^ 32 * 2 ^ 92 + sub % 256 * 2 ^ 84 + r.thread.getD 0 % 512 * 2 ^ 75
    + r.list % 64 * 2 ^ 69 + r.pc % 32768 * 2 ^ 54 + f % 2 ^ 19 * 2 ^ 35 + t % 8192 * 2 ^ 22 + r.arg % 2 ^ 22)

/-- One record into the ring (R342, R346): the index advances; MODE 1 stops when the ring is full. -/
def ringPut (s : State) (d : Nat) (r : TrIn) : State :=
  let (v, s) := s.takeFree
  let i := s.rf .TDX_TRC_WR d [] 15 0
  let b := recBits s d r v.toNat
  let t : State := { s with tdx := { s.tdx with ring := mset 0 s.tdx.ring (d * 65536 + i) b } }
  let t := t.setRf .TDX_TRC_WR d [] 15 0 (i + 1)
  let t := if i = 65535 then t.setRf .TDX_TRC_WR d [] 29 29 1 else t
  let t := t.modTrc d (fun x => { x with count := x.count + 1 })
  if t.trcMode d = 1 ∧ 65536 ≤ (t.trc d).count then stopWriting t d else t

/-- Records after the trigger in TMODE 2 (R345). -/
def countPost (s : State) (d : Nat) : State :=
  match (s.trc d).post with
  | some n => if n ≤ 1 then stopTrace s d else s.modTrc d (fun x => { x with post := some (n - 1) })
  | none => s

/-- The trigger is met: TRIGGERED, the generation, EV_TRACE_TRIG (R345). -/
def trigger (s : State) (d i : Nat) : State :=
  let t := (s.setRf .TDX_TRC_WR d [] 31 31 1).bumpGen .TDX_STATE d
  let t := t.raiseEv 0x0701 d (t.gen .TDX_STATE d) [d, i, t.gen .TDX_STATE d]
  let n := t.rf .TDX_TRC_CTL d [] 15 0
  if t.trcTmode d = 2 then (if n = 0 then stopTrace t d else t.modTrc d (fun x => { x with post := some n })) else t

/-- One record written: it may meet the trigger, and after the trigger counts toward POST (R345). -/
def putRecord (s : State) (d : Nat) (r : TrIn) : State :=
  let i := s.rf .TDX_TRC_WR d [] 15 0
  let t := ringPut s d r
  if s.trcHit d r then trigger t d i
  else if (s.trc d).post.isSome then countPost t d else t

/-- A record is written: it passes the filters, and with TMODE 1 the trigger has been met or is met by it (R344, R345). -/
def State.trcWrites (s : State) (d : Nat) (r : TrIn) : Bool :=
  s.trcRun d && s.trcPass d r && (decide (s.trcTmode d ≠ 1) || bit (s.reg .TDX_TRC_WR d []) 31 || s.trcHit d r)

/-- The ring is full of records not yet copied (R346). -/
def State.ringFull (s : State) (d : Nat) : Bool := decide (2 ≤ s.trcMode d) && decide (65536 ≤ (s.trc d).count)

/-- The record of KIND 9 with the number of records lost, itself subject to filters and trigger (R344 to R346; log 71). -/
def lostRecord (s : State) (d : Nat) : State :=
  let n := (s.trc d).lost
  let r : TrIn := { kind := 9, arg := min (2 ^ 22 - 1) n }
  if n = 0 then s
  else
    let t := s.modTrc d (fun x => { x with lost := 0 })
    if t.trcWrites d r then putRecord t d r else t

/-- A happening of the kinds of R342 is recorded (R342 to R346): one that finds the ring full of records not yet copied is lost and counted, others follow the record of those lost before. -/
def trace (s : State) (d : Nat) (r : TrIn) : State :=
  let lose (s : State) : State := (s.bump .TDX_TRC_LOST d).modTrc d (fun x => { x with lost := x.lost + 1 })
  if ¬ s.trcWrites d r then s
  else if s.ringFull d then lose s
  else
    let t := lostRecord s d
    if ¬ t.trcWrites d r then t else if t.ringFull d then lose t else putRecord t d r

/-- The flow and TKT of a ticket for the trace. -/
def State.trTkt (s : State) (d : Nat) (t : Option Nat) : Option (Nat × Nat) :=
  match t with
  | some k => (s.rob d k).map (fun r => (r.flow, k))
  | none => none

end Sys2Proof.Machine
end

