-- ==== Sys2Proof/Machine/Syu.lean ====
section
/-! DEFINITION. Locks, events, channels and the wait-deadlock watch (spec/12 R350 to R370). -/

namespace Sys2Proof.Machine

/-- A byte of a cluster's scratchpad, as in space 0x03 (R273). -/
def padKey (d k b : Nat) : Nat := d * 0x1000000 + k * 0x40000 + b
/-- Scratchpad bytes. -/
def State.padBytes (s : State) (d k a n : Nat) : List Byte := bytesAt s.cra.pad (padKey d k a) n
/-- Scratchpad bytes written; a written word is good again. -/
def State.putPad (s : State) (d k a : Nat) (l : List Byte) : State :=
  { s with cra := { s.cra with pad := putBytes s.cra.pad (padKey d k a) l, padBad := s.cra.padBad.filter (fun b => !(decide (padKey d k a ≤ b * 8 + 7) && decide (b * 8 < padKey d k a + l.length) && decide (8 ≤ l.length))) } }

/-- Key of a lock. -/
def lockKey (d l : Nat) : Nat := d * 16384 + l
/-- What an unlisted lock of a die is: free, with the mark of the die's last unit reset (R366). -/
def State.lockDef (s : State) (d : Nat) : Lock := { abandoned := decide (d ∈ s.syu.marked) }
/-- A lock. -/
def State.lock (s : State) (d l : Nat) : Lock := mget (s.lockDef d) s.syu.lock (lockKey d l)
/-- A lock written. -/
def State.setLock (s : State) (d l : Nat) (x : Lock) : State := { s with syu := { s.syu with lock := mset (s.lockDef d) s.syu.lock (lockKey d l) x } }
/-- Key of an event. -/
def evKey (d k e : Nat) : Nat := (d * 6 + k) * 1024 + e
/-- An event. -/
def State.ev (s : State) (d k e : Nat) : Ev := mget {} s.syu.ev (evKey d k e)
/-- An event written. -/
def State.setEv (s : State) (d k e : Nat) (x : Ev) : State := { s with syu := { s.syu with ev := mset {} s.syu.ev (evKey d k e) x } }
/-- Key of a channel. -/
def chKey (d k c : Nat) : Nat := (d * 6 + k) * 256 + c
/-- A channel. -/
def State.chan (s : State) (d k c : Nat) : Chan := mget {} s.syu.ch (chKey d k c)
/-- A channel written. -/
def State.setChan (s : State) (d k c : Nat) (x : Chan) : State := { s with syu := { s.syu with ch := mset {} s.syu.ch (chKey d k c) x } }
/-- SYU_STATE.GEN increments (R369). -/
def bumpSyu (s : State) (d : Nat) : State := s.bumpGen .SYU_STATE d

/-- Unit numbers (R526). -/
def unitTdx : Nat := 7
def unitSyu : Nat := 8

/-- The locks that a thread holds (R259). -/
def State.locksHeld (s : State) (d n : Nat) : List Nat :=
  ((mpick (fun k => k / 16384 = d) s.syu.lock).filter (fun x => x.2.holder = some n)).map (fun x => x.1 % 16384)

/-- A lock is granted to a thread: the result is 1 when the lock carries its abandoned mark at this moment (R352); the waiter's LOCK returns at LOCK_GRANT. -/
def grantTo (s : State) (d n : Nat) (l : Nat) (marked : Bool) : State :=
  s.modThr d n (fun t => { t with pend := some { rd := t.rd, value := BitVec.ofNat 64 (b2n marked), err := 0, u := false, kind := .grant l, arrived := false } })

/-- A held lock leaves its holder: it passes to its first waiter, or becomes free (R352, R353). -/
def passLock (s : State) (d l : Nat) : State :=
  let x := s.lock d l
  match x.waiters with
  | [] => s.setLock d l { x with holder := none }
  | w :: r => grantTo (s.setLock d l { x with holder := some w, waiters := r }) d w l x.abandoned

/-- A lock is released and marked abandoned (R354). -/
def abandonLock (s : State) (d l : Nat) : State :=
  bumpSyu ((passLock (s.setLock d l { s.lock d l with abandoned := true }) d l).bump .SYU_LK_ABANDON d) d

/-- A forced release; on a free lock nothing changes (R355). -/
def forceLock (s : State) (d l : Nat) : State :=
  if (s.lock d l).holder.isSome then bumpSyu ((abandonLock s d l).bump .SYU_LK_FORCED d) d else s

/-- An event is signalled: the oldest waiter takes the signal, or the counter rises, or the signal is lost (R356). -/
def signalEv (s : State) (d k e : Nat) : State :=
  let x := s.ev d k e
  match x.waiters with
  | w :: r => (s.setEv d k e { x with waiters := r }).modThr d w (fun t => t.done t.rd (BitVec.ofNat 64 x.count))
  | [] => if x.count < 65535 then s.setEv d k e { x with count := x.count + 1 } else s.bump .SYU_EV_SAT d

/-- CAP of a channel; 0 acts as 1 (R358, R369). -/
def State.chCap (s : State) (d k c : Nat) : Nat := max 1 (s.rf .SYU_CH_CFG d [k, c] 5 0)
/-- Words of a channel's messages. -/
def Chan.words (x : Chan) : Nat := x.msgs.foldl (fun a m => a + m.length) 0
/-- Words in a cluster's channel store (R358). -/
def State.storeUsed (s : State) (d k : Nat) : Nat := (mpick (fun key => key / 256 = d * 6 + k) s.syu.ch).foldl (fun a x => a + x.2.words) 0
/-- A channel is full for a message of n words (R358). -/
def State.chFull (s : State) (d k c n : Nat) : Bool := decide (s.chCap d k c ≤ (s.chan d k c).msgs.length) || decide (2048 < s.storeUsed d k + n)

/-- A message of words as bytes, most significant byte first (R308, R317). -/
def wordBytes (m : List DWord) : List Byte := m.flatMap (fun w => beBytes 8 w.toNat)

/-- A message reaches the reader that waited for it: written from its address on, with the number of words as the result (R317, R360); a stopped thread holds it until its restart (R277, R286). -/
def giveMessage (s : State) (d n c : Nat) (m : List DWord) : State :=
  let t := s.thr d n
  if t.st = .stopped then
    s.modThr d n (fun t => { t with pend := some { rd := t.rd, value := BitVec.ofNat 64 m.length, err := 0, u := false, kind := .message c m, arrived := false } })
  else (s.putPad d (clusterOf n) t.mask.toNat (wordBytes m)).modThr d n (fun t => t.done t.rd (BitVec.ofNat 64 m.length))

/-- A message is committed: to the oldest waiting reader, else at the tail (R359, R360). -/
def commitMsg (s : State) (d k c : Nat) (m : List DWord) : State :=
  let x := s.chan d k c
  match x.waiters with
  | w :: r => giveMessage (s.setChan d k c { x with waiters := r }) d w c m
  | [] => s.setChan d k c { x with msgs := x.msgs ++ [m] }

/-- A message goes back to the head of its channel (R277). -/
def returnMsg (s : State) (d k c : Nat) (m : List DWord) : State :=
  let x := s.chan d k c
  match x.waiters with
  | w :: r => giveMessage (s.setChan d k c { x with waiters := r }) d w c m
  | [] => s.setChan d k c { x with msgs := m :: x.msgs }

/-- A thread leaves every wait queue (R259). -/
def leaveQueues (s : State) (d n : Nat) : State :=
  match (s.thr d n).wait with
  | some (.lock l) => s.setLock d l { s.lock d l with waiters := lrem n (s.lock d l).waiters }
  | some (.event e) => s.setEv d (clusterOf n) e { s.ev d (clusterOf n) e with waiters := lrem n (s.ev d (clusterOf n) e).waiters }
  | some (.channel c) => s.setChan d (clusterOf n) c { s.chan d (clusterOf n) c with waiters := lrem n (s.chan d (clusterOf n) c).waiters }
  | none => s

/-! The wait-deadlock watch. -/

/-- An event is externally sourced; event 1,023 always is (R362). -/
def State.evExt (s : State) (d k e : Nat) : Bool := decide (e = 1023) || bit (s.reg .SYU_EV_EXT d [k, e / 32]) (e % 32)
/-- A channel is externally sourced (R362). -/
def State.chExt (s : State) (d k c : Nat) : Bool := bit (s.reg .SYU_CH_CFG d [k, c]) 31

/-- How a thread counts for the watch (R363). -/
inductive Counts | idle | blocked | live
  deriving DecidableEq, Repr

/-- The table of R363. -/
def State.countsAs (s : State) (d n : Nat) : Counts :=
  let k := clusterOf n
  let t := s.thr d n
  if bit (s.reg .SYU_WATCH d []) 30 ∧ s.superOf d k = some n then .idle
  else match t.st with
    | .idle => .idle
    | .twait => .idle
    | .faulted => .idle
    | .stopped => .idle
    | .sync => match t.wait with
      | some (.event e) => if s.evExt d k e then .live else .blocked
      | some (.channel c) => if s.chExt d k c then .live else .blocked
      | some (.lock l) => match (s.lock d l).holder with
        | some h => if clusterOf h = k ∧ h ≠ n then .blocked else .live
        | none => .live
      | none => .live
    | _ => .live

/-- The threads of a cluster. -/
def clusterThreads (k : Nat) : List Nat := (List.range 64).map (fun i => k * 64 + i)
/-- Threads of a cluster that count as blocked. -/
def State.blockedIn (s : State) (d k : Nat) : Nat := countP' (fun n => decide (s.countsAs d n = .blocked)) (clusterThreads k)
/-- A cluster is stranded: no live thread and at least one blocked (R364). -/
def State.strandedNow (s : State) (d k : Nat) : Bool :=
  (clusterThreads k).all (fun n => decide (s.countsAs d n ≠ .live)) && decide (s.blockedIn d k ≠ 0)

/-- The watch of a cluster. -/
def State.watch (s : State) (d k : Nat) : Watch := mget {} s.syu.watch (d * 6 + k)
/-- The watch of a cluster written. -/
def State.setWatch (s : State) (d k : Nat) (w : Watch) : State := { s with syu := { s.syu with watch := mset {} s.syu.watch (d * 6 + k) w } }

/-- The condition of a reported cluster has lapsed: its STRANDED bit clears (R364). -/
def lapseOne (d : Nat) (s : State) (k : Nat) : State :=
  if (s.watch d k).reported ∧ ¬ s.strandedNow d k then
    bumpSyu ((s.setWatch d k { s.watch d k with reported := false }).setRf .SYU_STATE d [] k k 0) d
  else s

/-- Lapsed conditions of a die. -/
def lapse (s : State) (d : Nat) : State := (List.range 6).foldl (lapseOne d) s

/-- A command that acts on threads of a die: the watch sees its outcome. -/
def onCra (s : State) (d : Nat) (t : State) : Res := onDie s d (lapse t d)

/-- A thread's word in the snapshot (R365). -/
def snapWord (s : State) (d n : Nat) : DWord :=
  let t := s.thr d n
  let (w, o, h) : Nat × Nat × Nat := match t.wait with
    | some (.event e) => (1, e, 0x1FF)
    | some (.channel c) => (2, c, 0x1FF)
    | some (.lock l) => (3, l, ((s.lock d l).holder).getD 0x1FF)
    | none => (0, 0, 0x1FF)
  BitVec.ofNat 64 (t.st.code * 2 ^ 61 + w * 2 ^ 59 + o * 2 ^ 45 + h * 2 ^ 36 + min 255 (s.locksHeld d n).length * 2 ^ 28 + b2n (!t.staged.isEmpty) * 2 ^ 27 + t.pc * 2 ^ 12)

/-- The snapshot of a cluster (R365). -/
def snapshot (s : State) (d k : Nat) : List Byte :=
  wordBytes (BitVec.ofNat 64 (s.cntOn d % 2 ^ 32 * 2 ^ 32 + (s.watch d k).seq % 65536) :: (clusterThreads k).map (snapWord s d))

/-- A report of the watch (R364); the first report of a cluster has number 0 (log 44). -/
def strandReport (s : State) (d k : Nat) : State :=
  let w := s.watch d k
  let n := s.blockedIn d k
  let t := if bit (s.reg .SYU_WATCH d []) 29 then s.putPad d k (s.rf .SYU_WATCH d [] 17 3 * 8) (snapshot s d k) else s
  let t := signalEv t d k 1023
  let t := bumpSyu (((t.setWatch d k { seq := (w.seq + 1) % 65536, reported := true }).setRf .SYU_STATE d [] k k 1).bump .SYU_STRANDED d) d
  t.raiseEv 0x0801 d (t.gen .SYU_STATE d) [d, k, n, w.seq, t.gen .SYU_STATE d]

/-- STRANDED_REPORT: the condition has held for the confirmation window (R364). -/
def execStrandedReport (d : Fin 8) (k : Fin 6) (s : State) : Res :=
  onCra s d
    (if bit (s.reg .SYU_WATCH d []) 31 ∧ s.strandedNow d k ∧ ¬ (s.watch d k).reported ∧ s.glb.mode.threads then strandReport s d k else s)

/-- The threads of a die that have been granted a lock and whose LOCK has not returned: one from which the lock has been taken since comes before its present holder (R353, R355). -/
def State.grants (s : State) (d l : Nat) : List Nat :=
  let g := ((mpick (fun k => k / 384 = d) s.cra.thr).filter (fun x => decide (x.2.wait = some (.lock l)) && x.2.pend.isSome)).map (fun x => x.1 % 384)
  let past (n : Nat) : Bool := decide ((s.lock d l).holder ≠ some n)
  g.filter past ++ g.filter (fun n => !past n)

/-- The thread whose LOCK returns next. -/
def State.granted (s : State) (d l : Nat) : Option Nat := (s.grants d l).head?

/-- LOCK_GRANT: the LOCK of the granted waiter returns (R353); a stopped waiter holds the lock until its restart (R286). -/
def lockGrant (s : State) (d l : Nat) : State :=
  match s.granted d l with
  | some n => s.modThr d n (fun t => match t.pend with
    | some p => t.done p.rd p.value
    | none => t)
  | none => s

/-- LOCK_GRANT (R353). -/
def execLockGrant (d : Fin 8) (l : Fin 16384) (s : State) : Res := onCra s d (lockGrant s d l)

/-! Host access (R355, R357, R361, R366, R370). -/

/-- A host force, with an UNLOCK of the lock in the same cycle where same says so: the force then does nothing (R355, R368, R369). -/
def hostForce (s : State) (d : Nat) (w : Word) (same : Bool) : Ans :=
  if ¬ genOk (fld w 31 16) (s.gen .SYU_STATE d) then (.stale, s) else (.ok, if same then s else forceLock s d (fld w 13 0))

/-- A write of SYU_LK_FORCE (R355, R369). -/
def wrLkForce (s : State) (d : Nat) (w : Word) : Ans := hostForce s d w false

/-- A write of SYU_EV_HSIG (R357, R369). -/
def wrEvHsig (s : State) (d : Nat) (w : Word) : Ans :=
  if 5 < fld w 12 10 ∨ fld w 9 0 = 1023 then (.badaddr, s) else (.ok, signalEv s d (fld w 12 10) (fld w 9 0))

/-- The host's staged words (R369). -/
def State.hputWords (s : State) (d n : Nat) : List DWord :=
  (List.range n).map (fun i => BitVec.ofNat 64 ((s.reg .SYU_CH_HPUT_W d [2 * i]).toNat * 2 ^ 32 + (s.reg .SYU_CH_HPUT_W d [2 * i + 1]).toNat))

/-- A write of SYU_CH_HPUT (R361, R369). -/
def wrChHput (s : State) (d : Nat) (w : Word) : Ans :=
  let k := fld w 18 16
  let n := fld w 11 8
  let c := fld w 7 0
  if 5 < k ∨ n = 0 ∨ 8 < n then (.badaddr, s)
  else if s.chFull d k c n then (.noroom, s.bump .SYU_CH_FULL d)
  else (.ok, commitMsg s d k c (s.hputWords d n))

/-- The value that SYU_INSP_SEL latches (R370). -/
def inspWord (s : State) (d : Nat) (w : Word) : Word :=
  let k := fld w 18 16
  let i := fld w 13 0
  match fld w 31 30 with
  | 1 => let x := s.lock d i
    packWord [(31, b2n x.holder.isSome), (30, b2n x.abandoned), (21, x.holder.getD 0), (12, x.waiters.length)]
  | 2 => let x := s.ev d k i
    packWord [(16, x.waiters.length), (0, x.count)]
  | 3 => let x := s.chan d k i
    packWord [(31, b2n (s.chExt d k i)), (25, x.msgs.length), (16, x.words % 512), (9, x.waiters.length)]
  | _ => 0

/-- A write of SYU_INSP_SEL: it latches SYU_INSP_DATA; an index out of range fails (R369). -/
def wrInspSel (s : State) (d : Nat) (w : Word) : Ans :=
  let kind := fld w 31 30
  let i := fld w 13 0
  if (kind = 2 ∧ (1023 < i ∨ 5 < fld w 18 16)) ∨ (kind = 3 ∧ (255 < i ∨ 5 < fld w 18 16)) then (.badaddr, s)
  else
    let keep := packWord [(30, kind), (16, fld w 18 16), (0, i)]
    (.ok, (s.setReg .SYU_INSP_SEL d [] keep).setReg .SYU_INSP_DATA d [] (inspWord s d w))

/-- Every abandoned mark of a die is cleared (R366). -/
def clearMarks (s : State) (d : Nat) : State :=
  let keep := s.syu.lock.filterMap (fun x =>
    if x.1 / 16384 = d then (if { x.2 with abandoned := false } = ({} : Lock) then none else some (x.1, { x.2 with abandoned := false })) else some x)
  { s with syu := { s.syu with lock := keep, marked := s.syu.marked.filter (fun e => e ≠ d) } }

/-- A write of SYU_CFG: CLR_ABANDON acts in PROVISION only (R366, R369). -/
def wrSyuCfg (s : State) (d : Nat) (w : Word) : Ans :=
  if ¬ bit w 31 then (.ok, s) else if s.glb.mode = .provision then (.ok, clearMarks s d) else (.mode, s)

/-- A host write that acts on threads: the watch sees its outcome. -/
def hostCraWr (s : State) (d : Nat) (f : State → Ans) : Res :=
  hostDieWr s d false (fun s => ((f s).1, lapse (f s).2 d))

/-- HOST_LOCK_FORCE (R355, R368). -/
def execHostLockForce (d : Fin 8) (w : Tied Word) (s : State) : Res := hostCraWr s d (fun s => hostForce s d w.val w.same)
/-- HOST_EVENT_SIGNAL (R357). -/
def execHostEventSignal (d : Fin 8) (w : Word) (s : State) : Res := hostCraWr s d (fun s => wrEvHsig s d w)
/-- HOST_CHANNEL_PUT (R361). -/
def execHostChannelPut (d : Fin 8) (w : Word) (s : State) : Res := hostCraWr s d (fun s => wrChHput s d w)
/-- INSPECT_SELECT (R370). -/
def execInspectSelect (d : Fin 8) (w : Word) (s : State) : Res := hostDieWr s d false (fun s => wrInspSel s d w)
/-- CLEAR_ABANDON (R366). -/
def execClearAbandon (d : Fin 8) (w : Word) (s : State) : Res := hostDieWr s d false (fun s => wrSyuCfg s d w)

/-- A thread at a reset of the SYU: its staged words go; a request outstanding at the SYU fails with 0x02; a wait whose queue is gone ends, and a halted thread that waited stands at its instruction again (R276, R277, R366; log 50). -/
def Thr.syuLost (t : Thr) : Thr :=
  let u := { t with staged := [], stagedCh := 0 }
  match t.pend with
  | some p => match p.kind with
    | .syu => { u with pend := some { p with err := 2 } }
    | .grant _ => if t.wait.isSome then { u with wait := none, pend := none, was := if t.was = .sync then .run else t.was } else { u with pend := some { p with err := 2, kind := .syu } }
    | .message _ _ => { u with wait := none, pend := none }
    | _ => u
  | none => if t.wait.isSome then { u with wait := none, was := if t.was = .sync then .run else t.was } else u

/-- A unit restart and a warm reset leave the locks free and marked, the counters zero, the channels and staging areas empty (R366). -/
def syuReset (s : State) (d : Nat) : State :=
  let thr := s.cra.thr.map (fun x => if x.1 / 384 = d then (x.1, x.2.syuLost) else x)
  { s with
    cra := { s.cra with thr := thr.filter (fun x => decide (x.2 ≠ {})) }
    syu := { s.syu with
      lock := mdrop (fun k => k / 16384 = d) s.syu.lock
      marked := ladd d s.syu.marked
      ev := mdrop (fun k => k / 6144 = d) s.syu.ev
      ch := mdrop (fun k => k / 1536 = d) s.syu.ch } }

end Sys2Proof.Machine
end

