-- ==== Sys2Proof/Machine/Cra.lean ====
section
/-! DEFINITION. Cores and threads: faults and their records, replies, restart, control, debug, program stores (spec/09 R260 to R294). -/

namespace Sys2Proof.Machine

/-- Key of a program store word (R266). -/
def psKey (d k a : Nat) : Nat := (d * 6 + k) * 32768 + a
/-- A program store word. -/
def State.psWord (s : State) (d k a : Nat) : Word := mget 0 s.cra.ps (psKey d k a)
/-- A word has an uncorrectable error (R269). -/
def State.psIsBad (s : State) (d k a : Nat) : Bool := decide (psKey d k a ∈ s.cra.psBad)
/-- CRA_ENTRY.RESTART. -/
def State.restartPc (s : State) (d : Nat) : Nat := s.rf .CRA_ENTRY d [] 14 0
/-- The fault queue of a cluster (R282). -/
def State.faultQ (s : State) (d k : Nat) : List FaultRec := mget [] s.cra.faultQ (d * 6 + k)
/-- The fault queue of a cluster replaced. -/
def State.setFaultQ (s : State) (d k : Nat) (l : List FaultRec) : State := { s with cra := { s.cra with faultQ := mset [] s.cra.faultQ (d * 6 + k) l } }

/-- Fault codes of R278. -/
def tfIllegal : Nat := 1
def tfAlign : Nat := 2
def tfRange : Nat := 3
def tfBadHandle : Nat := 4
def tfEarlyClose : Nat := 5
def tfNotCloser : Nat := 6
def tfHelper : Nat := 7
def tfRunaway : Nat := 8
def tfPriv : Nat := 9
def tfTrap : Nat := 10

/-- A fault record (R281). -/
def faultBits (s : State) (d n code detail : Nat) : BitVec 128 :=
  let t := s.thr d n
  BitVec.ofNat 128 ((s.psWord d (clusterOf n) t.pc).toNat * 2 ^ 96 + detail % 2 ^ 32 * 2 ^ 64 + t.pc * 2 ^ 49 + t.ticket.getD 0 * 2 ^ 36
    + b2n t.ticket.isSome * 2 ^ 35 + b2n (!t.staged.isEmpty) * 2 ^ 34 + min 255 (s.locksHeld d n).length * 2 ^ 26 + n % 64 * 2 ^ 8 + code)

/-- A record joins its cluster's queue; an unread record of the same thread is replaced in its place with OVER set (R282). -/
def queueRecord (s : State) (d n : Nat) (b : BitVec 128) : State :=
  let k := clusterOf n
  let q := s.faultQ d k
  if q.any (fun r => r.thread = n % 64) then
    (s.setFaultQ d k (q.map (fun r => if r.thread = n % 64 then { r with bits := BitVec.ofNat 128 (setBitsOf b.toNat 25 25 1) } else r))).bump .CRA_FAULT_OVER d
  else s.setFaultQ d k (q ++ [FaultRec.mk (n % 64) b])

/-- A record is delivered: to the supervisor with event 1,023, or to the Pilot with EV_SUPER_FAULT (R282, R283). -/
def deliverRecord (s : State) (d n : Nat) (b : BitVec 128) : State :=
  let k := clusterOf n
  let toSuper : Bool := match s.superOf d k with
    | some m => decide ((s.thr d m).st ≠ .halted) && decide ((s.thr d m).st ≠ .faulted) && decide ((s.thr d m).st ≠ .stopped)
    | none => false
  if toSuper then signalEv (queueRecord s d n b) d k 1023
  else
    let t := s.bump .CRA_ESCALATED d
    let t := t.raiseEv 0x0601 d (t.gen .CRA_STATE d) ([d, k] ++ (List.range 4).map (fun i => b.toNat / 2 ^ (96 - 32 * i) % 2 ^ 32) ++ [t.gen .CRA_STATE d])
    { t with cra := { t.cra with esc := ladd (thrKey d n) t.cra.esc } }

/-- A fault or TRAP: the thread stops at its instruction and keeps what it holds, the fault counts, its record is delivered (R280 to R283). -/
def faultThread (s : State) (d n code detail : Nat) : State :=
  let b := faultBits s d n code detail
  let t := s.thr d n
  let u := s.modThr d n (fun t => { t with st := .faulted, step := 0, pend := none, wait := none, hadFault := true })
  let u := bumpCra (u.bump .CRA_FAULTS d [code - 1]) d
  let u := trace u d { kind := 5, thread := some n, list := t.list, pc := t.pc, tkt := s.trTkt d t.ticket, arg := code }
  deliverRecord u d n b

/-- A result word with a code: bit 63 and the code (R277, R302). -/
def codeWord (c : Nat) : DWord := BitVec.ofNat 64 (2 ^ 63 + c % 256)

/-- The reply to an outstanding request reaches its thread: a result, a written code, or a TF_HELPER fault; while the thread is halted such a fault waits for its resume (R265, R277, R291). -/
def replyThread (s : State) (d n : Nat) (p : Pend) (err : Nat) : State :=
  if err = 0 then s.modThr d n (fun t => t.done p.rd p.value)
  else if ¬ p.u then s.modThr d n (fun t => t.done p.rd (codeWord err))
  else if (s.thr d n).st = .halted then s.modThr d n (fun t => { t with pend := some { p with err := err, arrived := true, kind := .other } })
  else faultThread s d n tfHelper err

/-- The USER bytes of a context (R141). -/
def FCtx.userBytes (x : FCtx) (o : Nat) : List Byte := sliceOf (padTo 64 x.user) o 8

/-- An LKP (R138, R140, R141, R157, R316). -/
def lkpNow (s : State) (d : Nat) (q : LkpReq) : DWord × State :=
  let wide (w : Word) : DWord := BitVec.ofNat 64 w.toNat
  match q.k with
  | 1 => let (w, t) := l2Lookup s d (bitsOf q.a.toNat 59 48) (bitsOf q.a.toNat 47 0)
    (wide w, t)
  | 2 => match flowLookup s d (bitsOf q.a.toNat 3 0) q.key with
    | (some e, t) => (wide (flowRes e), t)
    | (none, t) => (0, t)
  | 3 => (wide (s.lpmLookup d false (bitsOf q.a.toNat 15 0) (bitsOf q.b.toNat 31 0 * 2 ^ 96)), s)
  | 4 => (wide (s.lpmLookup d true (bitsOf q.a.toNat 15 0) (q.b.toNat * 2 ^ 64 + q.c.toNat)), s)
  | 5 => let t := (touchCtx s d (bitsOf q.a.toNat 15 0)).2
    (BitVec.ofNat 64 (beNat ((s.ctx d (bitsOf q.a.toNat 15 0)).userBytes q.b.toNat)), t)
  | _ => let t := (touchCtx s d (bitsOf q.a.toNat 15 0)).2
    (0, t.modCtx d (bitsOf q.a.toNat 15 0) (fun x =>
      let u := replaceAt (padTo 64 x.user) q.b.toNat (beBytes 8 q.c.toNat)
      { x with user := if u = List.replicate 64 0 then [] else u }))

/-- An LRN (R146, R316). -/
def lrnNow (s : State) (d : Nat) (q : LkpReq) : DWord × State :=
  let p := d * 4 + bitsOf q.b.toNat 1 0
  if ¬ s.learnOn d p then (codeWord outLearnOff, s)
  else match learnRequest s d (bitsOf q.a.toNat 59 48) (bitsOf q.a.toNat 47 0) p with
    | (.done, t) => (0, t)
    | (.noRoom, t) => (codeWord outNoRoom, t)
    | (.full, t) => (codeWord outLearnFull, t)

/-- A table request when the FWT serves it. -/
def tableNow (s : State) (d : Nat) (q : LkpReq) : DWord × State := if q.k = 0 then lrnNow s d q else lkpNow s d q

/-- What a discarded reply undoes, and what of its request still comes to pass: a table request that waits for the FWT keeps its effect (R277). -/
def undoPend (s : State) (d n : Nat) (p : Pend) : State :=
  match p.kind with
  | .balloc h => if s.allocated h then freeBuf s h else s
  | .grant l => if (s.lock d l).holder = some n then abandonLock s d l else s
  | .message c m => returnMsg s d (clusterOf n) c m
  | .fwt q => if s.unitDown d unitFwt then { s with cra := { s.cra with late := s.cra.late ++ [(d, q)] } } else (tableNow s d q).2
  | _ => s

/-- HELPER_TIMEOUT: the request ends with error 0x01, and the reply that may still come is discarded (R276, R277). -/
def helperTimeout (s : State) (d n : Nat) : State :=
  let t := s.thr d n
  match t.pend with
  | some p =>
    if (t.st = .helper ∨ (t.st = .halted ∧ t.was = .helper)) ∧ ¬ p.arrived ∧ s.rf .CRA_HELPER_TMO d [] 15 0 ≠ 0 then
      replyThread (undoPend (s.bump .CRA_HELPER_TMO_CNT d) d n p) d n p 1
    else s
  | none => s

/-- A thread that starts in RUN at the restart entry (R260). -/
def startThread (s : State) (d n : Nat) : State :=
  s.modThr d n (fun t => { t with st := .run, pc := s.restartPc d, slots := 0, helped := false, since := 0, waited := false, step := 0 })

/-- Enabled IDLE threads of a die start (R260). -/
def startIdle (s : State) (d : Nat) : State :=
  (List.range 384).foldl (fun t n => if t.thrEn d n ∧ (t.thr d n).st = .idle then startThread t d n else t) s

/-- A closer value that no party has: the free of a restart or of a unit counts as a non-closer BFREE (R184). -/
def noCloser : BitVec 16 := 0xC000

/-- A BFREE that is left undone where it would fault (R184). -/
def bfreeQuiet (s : State) (d h : Nat) : State :=
  match bfree s d h noCloser with
  | (.done, t) => t
  | _ => s

/-- A ticket is retired by a restart: its buffer freed as a non-closer BFREE, its entry ended (R23, R184, R234). -/
def retireTicket (s : State) (d t : Nat) : State :=
  match s.rob d t with
  | some r => if r.st = .pending ∨ r.st = .skipped then endTicket (bfreeQuiet s d r.frame.handle) d t (.retire true) else s
  | none => s

/-- A restarted closer releases its own reference of each shared buffer; the BPM becomes the closer of what remains (R184). -/
def releaseClosed (s : State) (d n : Nat) : State :=
  ((mpick (fun k => k / 0x2000000 = d) s.bpm.share).filter (fun x => x.2.closer = threadCloser n)).foldl
    (fun t x =>
      if x.2.refs ≤ 1 then
        match (List.range 4).find? (fun c => (t.poolOf (mkHandle d c (x.1 % 0x2000000))).isSome) with
        | some c => freeBuf (t.dropShare (mkHandle d c (x.1 % 0x2000000))) (mkHandle d c (x.1 % 0x2000000))
        | none => t
      else { t with bpm := { t.bpm with share := minsert x.1 { refs := x.2.refs - 1, closer := unitCloser 4 } t.bpm.share } }) s

/-- Step 2 of R288: what R259 lists is released in the order of that table. -/
def releaseHeld (s : State) (d n : Nat) : State :=
  let t := s.thr d n
  let u := match t.ticket with
    | some k =>
      let live : Bool := match s.rob d k with
        | some r => decide (r.st = .pending)
        | none => false
      let u := retireTicket s d k
      if live ∧ t.hadFault then u.bump .CRA_FAULT_RETIRE d else u
    | none => s
  let u := releaseClosed u d n
  let u := (u.locksHeld d n).foldl (fun u l => abandonLock u d l) u
  let u := leaveQueues u d n
  let u := if t.staged.isEmpty then u else u.bump .SYU_CH_DISCARD d
  match t.pend with
  | some p => undoPend u d n p
  | none => u

/-- A thread restart (R288); who: 0 supervisor, 1 host, 2 Pilot (R343). An IDLE thread is not restarted (R265). -/
def restartThread (s : State) (d n who : Nat) : State :=
  let t := s.thr d n
  if t.st = .idle then s
  else
    let u := releaseHeld s d n
    let u := u.modThr d n (fun _ => { st := .run, pc := s.restartPc d })
    let u := bumpCra (u.bump .CRA_RESTARTS d) d
    let u := { u with cra := { u.cra with esc := lrem (thrKey d n) u.cra.esc } }
    trace u d { kind := 6, thread := some n, list := t.list, pc := t.pc, tkt := s.trTkt d t.ticket, arg := who }

/-- A stop: states 1 to 6 become STOPPED (R265, R286). -/
def stopThread (s : State) (d n : Nat) : State :=
  let t := s.thr d n
  if t.st = .idle ∨ t.st = .stopped then s
  else bumpCra (s.modThr d n (fun t => { t with st := .stopped, step := 0 })) d

/-- A halt: states 1 to 4 become HALTED (R265, R291). -/
def haltThread (s : State) (d n : Nat) : State :=
  let t := s.thr d n
  match t.st with
  | .idle => s
  | .halted => s
  | .faulted => s
  | .stopped => s
  | st => bumpCra (s.modThr d n (fun t => { t with st := .halted, was := st, step := 0, waited := true })) d

/-- A halted thread takes up the state it held, HELPER and SYNC with the slots that count there (R279, R296): an error that came meanwhile faults it, and a thread in TWAIT that is no longer enabled becomes IDLE (R265, R291). -/
def takeUp (s : State) (d n step : Nat) : State :=
  let u := s.modThr d n (fun t => { t with st := t.was, step := step })
  let u := if (s.thr d n).was = .helper ∨ (s.thr d n).was = .sync then markWait u d n else u
  let u := u.modThr d n (fun t => { t with helped := t.helped || (decide (t.st = .helper) && !s.exempt d n) })
  let t := u.thr d n
  match t.pend with
  | some p => if p.arrived then faultThread u d n tfHelper p.err else u
  | none => if t.st = .twait ∧ ¬ s.thrEn d n then u.modThr d n (fun t => { t with st := .idle, step := 0 }) else u

/-- Resume (R265). -/
def resumeThread (s : State) (d n : Nat) : State :=
  if (s.thr d n).st = .halted then bumpCra (takeUp s d n 0) d else s

/-- Step (R293). -/
def stepThread (s : State) (d n : Nat) : State :=
  if (s.thr d n).st = .halted then takeUp s d n 1 else s

/-- CRA_CFG.DEBUG_EN (R289). -/
def State.debugEn (s : State) (d : Nat) : Bool := bit (s.reg .CRA_CFG d []) 31

/-- A stop that reaches its thread in the cycle in which a fault is raised on it does nothing (R295). -/
def stopUnless (s : State) (d n : Nat) (same : Bool) : State := if same ∧ (s.thr d n).st = .faulted then s else stopThread s d n

/-- The operations of CRA_THREAD_CTL and DBG OP 1 to 5 (R287, R296). -/
def threadCtl (s : State) (d op n : Nat) (exp : Nat) : Ans :=
  if ¬ genOk exp (s.gen .CRA_STATE d) then (.stale, s)
  else if 383 < n ∨ op = 0 ∨ 5 < op then (.badaddr, s)
  else if op = 1 then (.ok, stopThread s d n)
  else if op = 2 then (.ok, restartThread s d n 1)
  else if ¬ s.debugEn d then (.denied, s)
  else if op = 3 then (.ok, haltThread s d n)
  else if op = 4 then (.ok, resumeThread s d n)
  else (.ok, stepThread s d n)

/-- A write of CRA_THREAD_CTL. -/
def wrThreadCtl (s : State) (d : Nat) (w : Word) : Ans := threadCtl s d (fld w 15 12) (fld w 8 0) (fld w 31 16)

/-- THREAD_STOP; same: in the cycle of a fault of the thread (R287, R295). -/
def execThreadStop (d : Fin 8) (n : Fin 384) (exp : Tied (BitVec 16)) (s : State) : Res :=
  hostCraWr s d (fun s => if genOk exp.val.toNat (s.gen .CRA_STATE d) then (.ok, stopUnless s d n exp.same) else (.stale, s))
/-- THREAD_RESTART (R288). -/
def execThreadRestart (d : Fin 8) (n : Fin 384) (exp : BitVec 16) (s : State) : Res := hostCraWr s d (fun s => threadCtl s d 2 n exp.toNat)
/-- THREAD_HALT (R291). -/
def execThreadHalt (d : Fin 8) (n : Fin 384) (exp : BitVec 16) (s : State) : Res := hostCraWr s d (fun s => threadCtl s d 3 n exp.toNat)
/-- THREAD_RESUME (R287). -/
def execThreadResume (d : Fin 8) (n : Fin 384) (exp : BitVec 16) (s : State) : Res := hostCraWr s d (fun s => threadCtl s d 4 n exp.toNat)
/-- THREAD_STEP (R293). -/
def execThreadStep (d : Fin 8) (n : Fin 384) (exp : BitVec 16) (s : State) : Res := hostCraWr s d (fun s => threadCtl s d 5 n exp.toNat)
/-- HELPER_TIMEOUT (R276). -/
def execHelperTimeout (d : Fin 8) (n : Fin 384) (s : State) : Res := onCra s d (helperTimeout s d n)

/-- PILOT_THREAD_RESTART: with PILOT_RESTART = 1 the Pilot restarts a faulted thread whose record it received (R283). -/
def execPilotThreadRestart (d : Fin 8) (n : Fin 384) (s : State) : Res :=
  onCra s d
    (if thrKey d n ∈ s.cra.esc ∧ bit (s.reg .CRA_CFG d []) 30 ∧ (s.thr d n).st = .faulted then restartThread s d n 2 else s)

/-- MAX_SLOTS that applies: none when 0, values from 1 to 63 act as 64; the supervisor is exempt with SUP_EXEMPT (R279, R296). -/
def State.slotLimit (s : State) (d n : Nat) : Option Nat :=
  let m := s.rf .CRA_MAX_SLOTS d [] 20 0
  if m = 0 ∨ s.exempt d n then none else some (max 64 m)

/-- The counted issue slots alone exceed the limit (R279). -/
def State.pastLimit (s : State) (d n : Nat) : Bool :=
  match s.slotLimit d n with
  | some m => decide (m < (s.thr d n).slots)
  | none => false

/-- RUNAWAY: a thread in RUN whose count exceeds the limit faults (R279). The count takes in slots in HELPER and slots that wait for a fetch repair, which the model does not keep: where there were any, the command says that the limit is passed, and DETAIL is a free value (log 9). -/
def runaway (s : State) (d n : Nat) : State :=
  let t := s.thr d n
  let unknown : Bool := t.helped || s.psIsBad d (clusterOf n) t.pc
  if t.st ≠ .run ∨ (s.slotLimit d n).isNone then s
  else if s.pastLimit d n ∧ ¬ unknown then faultThread s d n tfRunaway t.slots
  else if unknown then
    let (v, u) := s.takeFree
    faultThread u d n tfRunaway (v.toNat % 2 ^ 32)
  else s

/-- RUNAWAY (R279). -/
def execRunaway (d : Fin 8) (n : Fin 384) (s : State) : Res := onCra s d (runaway s d n)

/-- A breakpoint of the thread's core matches the instruction it is about to issue; a step issues it all the same (R290, R293; log 45). -/
def State.bpMatch (s : State) (d n : Nat) : Bool :=
  let t := s.thr d n
  decide (t.st = .run) && decide (t.step = 0) &&
    (List.range 4).any (fun b =>
      let w := s.reg .CRA_BP d [n / 16, b]
      bit w 31 && decide (fld w 30 16 = t.pc) && bit w (n % 16))

/-- BREAKPOINT_HIT (R290). -/
def execBreakpointHit (d : Fin 8) (n : Fin 384) (s : State) : Res :=
  onCra s d (if s.bpMatch d n then (haltThread s d n).bump .CRA_BP_HITS d else s)

/-! Program stores. -/

/-- The CRC-32C of a cluster's image (R268). -/
def State.psCrc (s : State) (d k : Nat) : Nat :=
  Nat.xor (crc32cFeed 0xFFFFFFFF ((List.range 32768).flatMap (fun a => beBytes 4 (s.psWord d k a).toNat))) 0xFFFFFFFF

/-- The image of a cluster. -/
def State.psImage (s : State) (d k : Nat) : List (Nat × Word) :=
  (mpick (fun x => x / 32768 = d * 6 + k) s.cra.ps).map (fun x => (x.1 % 32768, x.2))

/-- A write of CRA_PS_CHECK: START begins the check (R268). -/
def wrPsCheck (s : State) (d : Nat) (w : Word) : Ans := if bit w 31 then (.ok, s.setRf .CRA_PS_CHECK d [] 30 30 1) else (.ok, s)

/-- PS_CHECK_START (R268). -/
def execPsCheckStart (d : Fin 8) (s : State) : Res := hostDieWr s d false (fun s => wrPsCheck s d 0x80000000)

/-- PS_CHECK_DONE: the check completes (R268). -/
def execPsCheckDone (d : Fin 8) (s : State) : Res :=
  onDie s d
    (if s.rf .CRA_PS_CHECK d [] 30 30 = 1 then
      let m := maskOf ((List.range 6).filter (fun k => decide (s.psImage d k ≠ s.psImage d 0)))
      ((s.setRf .CRA_PS_CHECK d [] 30 30 0).setRf .CRA_PS_CHECK d [] 5 0 m).setReg .CRA_PS_CRC d [] (BitVec.ofNat 32 (s.psCrc d 0))
    else s)

/-- A good copy of a word: another cluster of the die, else another die (R269). -/
def State.psGood (s : State) (d k a : Nat) : Option Word :=
  let own := (List.range 6).filter (fun j => decide (j ≠ k) && !s.psIsBad d j a)
  match own with
  | j :: _ => some (s.psWord d j a)
  | [] =>
    let far := ((s.liveDies.filter (fun e => e ≠ d)).flatMap (fun e => (List.range 6).map (fun j => (e, j)))).find? (fun x => !s.psIsBad x.1 x.2 a)
    far.map (fun x => s.psWord x.1 x.2 a)

/-- The threads of a cluster whose fetch waits for a word (R269). -/
def State.fetching (s : State) (d k a : Nat) : List Nat := (clusterThreads k).filter (fun n => decide ((s.thr d n).st = .run) && decide ((s.thr d n).pc = a))

/-- A word of the program store repaired, the wait counted in slots that the model does not keep; without a good copy the fetches that wait for it fault (R25, R269; log 9). -/
def psRepair (s : State) (d k a : Nat) : State :=
  if s.psIsBad d k a then
    match s.psGood d k a with
    | some w =>
      let t := (s.fetching d k a).foldl (fun t n => t.modThr d n (fun x => { x with helped := x.helped || !s.exempt d n, waited := true })) s
      ({ t with cra := { t.cra with ps := mset 0 t.cra.ps (psKey d k a) w, psBad := lrem (psKey d k a) t.cra.psBad } } : State).bump .CRA_PS_REPAIR d
    | none => (s.fetching d k a).foldl (fun t n => faultThread t d n tfIllegal 1) s
  else s

/-- PS_FETCH_REPAIR: a fetch has found an error in a word; one that is corrected only counts (R269). -/
def execPsFetchRepair (d : Fin 8) (k : Fin 6) (a : FetchWord) (s : State) : Res :=
  onCra s d (if a.corrected then s.bump .CRA_PS_ECC_CORR d else psRepair s d k a.addr)

/-! The register window and debug enable (R284, R289, R294). -/

/-- A thread whose registers the window reaches (R294). -/
def Thr.open_ (t : Thr) : Bool := decide (t.st = .halted) || decide (t.st = .faulted) || decide (t.st = .stopped)

/-- A register or the PC of a thread: 0 to 31, 32 (R294). -/
def State.dbgValue (s : State) (d n r : Nat) : DWord :=
  let t := s.thr d n
  if r = 32 then BitVec.ofNat 64 t.pc else t.get r

/-- A register or the PC of a thread written; the PC takes effect only on a HALTED thread (R294). -/
def dbgSet (s : State) (d n r : Nat) (v : DWord) : State :=
  s.modThr d n (fun t => if r = 32 then (if t.st = .halted then { t with pc := v.toNat % 32768 } else t) else t.set r v)

/-- A read of CRA_DBG_LO latches both words (R294, R296). -/
def rdDbgLo (s : State) (d : Nat) : Status × Word × State :=
  let w := s.reg .CRA_DBG_SEL d []
  if fld w 8 0 < 384 ∧ (s.thr d (fld w 8 0)).open_ then
    let v := (s.dbgValue d (fld w 8 0) (fld w 14 9)).toNat
    (.ok, BitVec.ofNat 32 v, (s.setReg .CRA_DBG_LO d [] (BitVec.ofNat 32 v)).setReg .CRA_DBG_HI d [] (BitVec.ofNat 32 (v / 2 ^ 32)))
  else (.busy, 0, s)

/-- A write of CRA_DBG_HI commits both words (R289, R294). -/
def wrDbgHi (s : State) (d : Nat) (w : Word) : Ans :=
  let sel := s.reg .CRA_DBG_SEL d []
  if ¬ s.debugEn d then (.denied, s)
  else if ¬ (fld sel 8 0 < 384 ∧ (s.thr d (fld sel 8 0)).open_) then (.busy, s)
  else
    let v : DWord := BitVec.ofNat 64 (w.toNat * 2 ^ 32 + (s.reg .CRA_DBG_LO d []).toNat)
    (.ok, dbgSet (s.setReg .CRA_DBG_HI d [] w) d (fld sel 8 0) (fld sel 14 9) v)

/-- A write of CRA_DBG_LO needs DEBUG_EN and an open thread; it is held until HI is written (R289, R294). -/
def wrDbgLo (s : State) (d : Nat) (w : Word) : Ans :=
  let n := s.rf .CRA_DBG_SEL d [] 8 0
  if ¬ s.debugEn d then (.denied, s)
  else if ¬ (n < 384 ∧ (s.thr d n).open_) then (.busy, s)
  else (.ok, s.setReg .CRA_DBG_LO d [] w)

/-- A host read as a row of its own, with a status (R388). -/
def hostDieRdSt (s : State) (d : Nat) (f : State → Status × Word × State) : Res :=
  .next
    (let (st, w, t) := f s
     let put (t : State) (st : Status) (l : List Byte) : State := { t with gwe := { t.gwe with results := [{ opcode := 0x10, tag := 0, status := st, data := l }] } }
     if ¬ s.glb.mode.any then put s .mode []
     else if s.dies ≤ d ∨ s.excluded d then put s .badaddr []
     else if st = .ok then put t st (beBytes 4 w.toNat) else put t st [])

/-- DBG_REG_READ (R294). -/
def execDbgRegRead (d : Fin 8) (s : State) : Res := hostDieRdSt s d (fun s => rdDbgLo s d)
/-- DBG_REG_WRITE (R294). -/
def execDbgRegWrite (d : Fin 8) (w : Word) (s : State) : Res := hostDieWr s d false (fun s => wrDbgHi s d w)

/-- The exemption of supervisors changes from o to s: a thread in HELPER, or one whose fetch waits for a repair, has slots that count wherever it is not exempt before or after (R279; log 9). -/
def noteHelped (o s : State) (d : Nat) (l : List Nat) : State :=
  l.foldl (fun t n =>
    let x := t.thr d n
    let waits : Bool := decide (x.st = .helper) || (decide (x.st = .run) && t.psIsBad d (clusterOf n) x.pc)
    if waits ∧ ¬ (o.exempt d n ∧ s.exempt d n) then t.modThr d n (fun x => { x with helped := true }) else t) s

/-- A write of CRA_CFG; one that clears DEBUG_EN resumes every HALTED thread of the die (R289, R296). -/
def wrCraCfg (s : State) (d : Nat) (w : Word) : Ans :=
  let keep := packWord [(31, fld w 31 31), (30, fld w 30 30), (29, fld w 29 29)]
  let t := noteHelped s (s.setReg .CRA_CFG d [] keep) d (List.range 384)
  if s.debugEn d ∧ ¬ bit w 31 then (.ok, (List.range 384).foldl (fun t n => resumeThread t d n) t) else (.ok, t)

/-- DEBUG_EN_CLEAR (R289). -/
def execDebugEnClear (d : Fin 8) (w : Word) (s : State) : Res := hostCraWr s d (fun s => wrCraCfg s d w)

/-- A write of CRA_SUPER (R284, R296). -/
def wrSuper (s : State) (d k : Nat) (w : Word) : Ans :=
  let keep := packWord [(31, fld w 31 31), (0, fld w 5 0)]
  if keep = s.reg .CRA_SUPER d [k] then (.ok, s) else (.ok, bumpCra (noteHelped s (s.setReg .CRA_SUPER d [k] keep) d (clusterThreads k)) d)

/-- SUPERVISOR_SET (R284). -/
def execSupervisorSet (d : Fin 8) (k : Fin 6) (w : Word) (s : State) : Res := hostCraWr s d (fun s => wrSuper s d k w)

/-- A write of CRA_THREAD_EN: a newly enabled IDLE thread starts while threads run; a thread in TWAIT that is disabled becomes IDLE (R260, R265). -/
def wrThreadEn (s : State) (d c : Nat) (w : Word) : Ans :=
  let t := s.setReg .CRA_THREAD_EN d [c] (BitVec.ofNat 32 (fld w 15 0))
  (.ok, (List.range 16).foldl (fun t i =>
    let n := c * 16 + i
    if bit w i then (if ¬ s.thrEn d n ∧ (t.thr d n).st = .idle ∧ s.glb.mode.threads then startThread t d n else t)
    else if (t.thr d n).st = .twait then t.modThr d n (fun x => { x with st := .idle, step := 0 }) else t) t)

/-- A write of CRA_BP fails while DEBUG_EN is 0 (R289, R296). -/
def wrBp (s : State) (d c b : Nat) (w : Word) : Ans := if s.debugEn d then (.ok, s.setReg .CRA_BP d [c, b] w) else (.denied, s)

/-- A write of CRA_DBG_SEL: REG above 32 fails, and so does a thread that is not HALTED, FAULTED or STOPPED (R294, R296). -/
def wrDbgSel (s : State) (d : Nat) (w : Word) : Ans :=
  if 32 < fld w 14 9 then (.badaddr, s)
  else if ¬ (fld w 8 0 < 384 ∧ (s.thr d (fld w 8 0)).open_) then (.busy, s)
  else (.ok, s.setReg .CRA_DBG_SEL d [] (packWord [(9, fld w 14 9), (0, fld w 8 0)]))

end Sys2Proof.Machine
end

