-- ==== Sys2Proof/Machine/Tdx.lean ====
section
/-! DEFINITION. The task dispatcher: ready lists, delivery, affinity, delay lists, remote posts, injection, unit restart, trace control (spec/11). -/

namespace Sys2Proof.Machine

/-- A ready list of a die (R323). -/
def State.readyList (s : State) (d l : Nat) : List Task := mget [] s.tdx.ready (d * 64 + l)
/-- A ready list replaced. -/
def State.setReady (s : State) (d l : Nat) (x : List Task) : State := { s with tdx := { s.tdx with ready := mset [] s.tdx.ready (d * 64 + l) x } }
/-- A delay list of a die (R335). -/
def State.delayList (s : State) (d i : Nat) : List DTask := mget [] s.tdx.delay (d * 8 + i)
/-- A delay list replaced. -/
def State.setDelay (s : State) (d i : Nat) (x : List DTask) : State := { s with tdx := { s.tdx with delay := mset [] s.tdx.delay (d * 8 + i) x } }
/-- TDX_RL_CFG of a list. -/
def State.rlCfg (s : State) (d l : Nat) : Word := s.reg .TDX_RL_CFG d [l]

/-- Entries of the task pool in use: tasks on ready lists that are not tickets (R323). -/
def State.taskPool (s : State) (d : Nat) : Nat :=
  (List.range 64).foldl (fun a l => a + countP' (fun t => t.ticket.isNone) (s.readyList d l)) 0
/-- Entries of the delay pool in use (R335). -/
def State.delayPool (s : State) (d : Nat) : Nat := (List.range 8).foldl (fun a i => a + (s.delayList d i).length) 0

/-- A task joins the tail of its ready list (R328). -/
def placeReady (s : State) (d : Nat) (t : Task) : State := s.setReady d t.list (s.readyList d t.list ++ [t])

/-- A delayed task in its place: sorted by E, equal E in order of acceptance (R336). -/
def insertDelay (x : DTask) : List DTask → List DTask
  | [] => [x]
  | y :: r => if y.e ≤ x.e then y :: insertDelay x r else x :: y :: r

/-- A post is judged and placed: 0, or 0x80 or 0x81 (R324, R335, R336). -/
def tryPost (s : State) (d : Nat) (t : Task) (delay : Nat) : Nat × State :=
  if delay = 0 then
    if (s.readyList d t.list).length < fld (s.rlCfg d t.list) 13 0 ∧ (t.ticket.isSome ∨ s.taskPool d < 8192) then (0, placeReady s d t)
    else (0x80, s.bump .TDX_RL_FULL d)
  else
    let i := t.list / 8
    if (s.delayList d i).length < s.rf .TDX_DL_LIMIT d [i] 16 0 ∧ s.delayPool d < 65536 then
      let u := s.setDelay d i (insertDelay { e := s.ticksOn d + delay, task := t } (s.delayList d i))
      (0, trace u d { kind := 3, list := t.list, pc := t.entry, tkt := s.trTkt d t.ticket, arg := i * 2 ^ 19 + min (2 ^ 19 - 1) delay })
    else (0x81, s.bump .TDX_DL_FULL d)

/-- The trace record of a post (R343). -/
def postRec (s : State) (d dst : Nat) (remote : Bool) (n : Option Nat) (t : Task) (delay : Nat) : State :=
  trace s d { kind := 2, thread := n, list := t.list, pc := t.entry, tkt := s.trTkt d t.ticket, arg := dst * 2 ^ 19 + b2n remote * 2 ^ 18 + min (2 ^ 18 - 1) delay }

/-! Delivery. -/

/-- The lists that a thread in TWAIT serves (R327). -/
def State.listMask (s : State) (d n : Nat) : Nat :=
  let m := (s.thr d n).mask.toNat
  if m = 0 then (s.reg .TDX_CORE_LISTS_LO d [n / 16]).toNat + (s.reg .TDX_CORE_LISTS_HI d [n / 16]).toNat * 2 ^ 32 else m

/-- A thread waits for a list (R327). -/
def State.waitsFor (s : State) (d l n : Nat) : Bool :=
  decide ((s.thr d n).st = .twait) && s.thrEn d n && nbit (s.listMask d n) l

/-- The threads of a core that wait for a list. -/
def State.waitersOf (s : State) (d l c : Nat) : List Nat := ((List.range 16).map (fun t => c * 16 + t)).filter (s.waitsFor d l)

/-- The waiting thread of a core whose slot comes first; r is the thread whose slot it is, a free value (R261, R333; log 9). -/
def firstSlot (r : Nat) (l : List Nat) : Option Nat :=
  match l.find? (fun n => decide (r % 16 ≤ n % 16)) with
  | some n => some n
  | none => l.head?

/-- The core with the most threads waiting for a list, the lowest on a tie (R333). -/
def State.fallbackCore (s : State) (d l : Nat) : Option Nat :=
  (List.range 24).foldl (fun m c =>
    let k := (s.waitersOf d l c).length
    match m with
    | some b => if (s.waitersOf d l b).length < k then some c else m
    | none => if 0 < k then some c else none) none

/-- Index in the affinity table (R331). -/
def affIndex (k : Nat) : Nat := (Nat.xor (Nat.xor k (k / 2 ^ 12)) (k / 2 ^ 24)) % 4096
/-- Tag in the affinity table (R331). -/
def affTag (k : Nat) : Nat := k / 2 ^ 12 % 2 ^ 20
/-- Affinity applies to a task (R332). -/
def State.affOn (s : State) (d : Nat) (t : Task) : Bool := bit (s.rlCfg d t.list) 29 && decide (t.key ≠ 0)

/-- The affinity core of a task (R332). -/
def State.affCore (s : State) (d : Nat) (t : Task) : Option Nat :=
  if s.affOn d t then
    match mfind s.tdx.aff (d * 4096 + affIndex t.key.toNat) with
    | some (tag, c) => if tag = affTag t.key.toNat then some c else none
    | none => none
  else none

/-- The task's words in g1 to g6 (R311, R329). -/
def loadArgs (t : Thr) (a : List DWord) : Thr := (List.range 6).foldl (fun t i => t.set (i + 1) (a.getD i 0)) t

/-- A task is delivered to a waiting thread; hit: by its affinity, which counts (R311, R329, R332, R333, R343). -/
def deliver (s : State) (d n : Nat) (t : Task) (hit : Bool) : State :=
  let c := coreOf n
  let on_ : Bool := hit || decide (s.affCore d t = some c)
  let u := s.setReady d t.list (lrem t (s.readyList d t.list))
  let u := u.modThr d n (fun x =>
    (({ loadArgs x t.args with pc := t.entry, st := .run, ticket := t.ticket, task := t.ticket.isNone, list := t.list, slots := 0, helped := false, since := 0, waited := false } : Thr).settle))
  let u := u.bump .TDX_DELIVERED d
  let u := if hit then u.bump .TDX_AFF_HIT d else u
  let u : State := if s.affOn d t then { u with tdx := { u.tdx with aff := minsert (d * 4096 + affIndex t.key.toNat) (affTag t.key.toNat, c) u.tdx.aff } } else u
  let (v, u) := u.takeFree
  trace u d { kind := 0, thread := some n, list := t.list, pc := t.entry, tkt := s.trTkt d t.ticket, arg := c * 2 ^ 17 + b2n on_ * 2 ^ 16 + v.toNat % 2 ^ 14 }

/-- The first of a list that equals t changed in its place. -/
def replaceFirst (t u : Task) : List Task → List Task
  | [] => []
  | x :: r => if x = t then u :: r else x :: replaceFirst t u r

/-- A task of a list changed in its place. -/
def modTask (s : State) (d : Nat) (t u : Task) : State := s.setReady d t.list (replaceFirst t u (s.readyList d t.list))

/-- An affinity wait that ends unserved (R332, R343). -/
def waitUnserved (s : State) (d : Nat) (t : Task) (c : Nat) : State :=
  trace ((modTask s d t { t with held := none, waited := true }).bump .TDX_AFF_FALLBACK d) d { kind := 7, list := t.list, pc := t.entry, tkt := s.trTkt d t.ticket, arg := c * 2 ^ 17 }

/-- A task goes to the core of R333, if any thread waits for its list. -/
def tryFallback (s : State) (d : Nat) (t : Task) : Bool × State :=
  match s.fallbackCore d t.list with
  | some c =>
    let (v, u) := s.takeFree
    match firstSlot v.toNat (u.waitersOf d t.list c) with
    | some n => (true, deliver u d n t false)
    | none => (false, s)
  | none => (false, s)

/-- The core that a task waits for: the one that it is held for, else its affinity core (R332). -/
def State.waitCore (s : State) (d : Nat) (t : Task) : Option Nat :=
  match t.held with
  | some c => some c
  | none => s.affCore d t

/-- One ready task is considered: whether it was delivered (R332, R333). -/
def considerTask (s : State) (d : Nat) (t : Task) : Bool × State :=
  if t.waited then tryFallback s d t
  else match s.waitCore d t with
    | none => tryFallback s d t
    | some c =>
      match s.waitersOf d t.list c with
      | [] =>
        if s.rf .TDX_CFG d [] 7 0 = 0 then tryFallback (waitUnserved s d t c) d { t with held := none, waited := true }
        else (false, if t.held.isSome then s else modTask s d t { t with held := some c })
      | w :: r =>
        let (v, u) := s.takeFree
        match firstSlot v.toNat (w :: r) with
        | some n => (true, deliver u d n t true)
        | none => (false, s)

/-- The tasks of a list are considered, the oldest first, until one is delivered (R328). -/
def considerList (s : State) (d : Nat) : List Task → Bool × State
  | [] => (false, s)
  | t :: r =>
    let (done, u) := considerTask s d t
    if done then (true, u) else considerList u d r

/-- The lists of a priority in their turn: round-robin by list number (R328). -/
def State.turnOrder (s : State) (d prio : Nat) : List Nat :=
  let r := mget 0 s.tdx.rr (d * 4 + prio)
  ((List.range 64).map (fun i => (r + i) % 64)).filter (fun l => decide (fld (s.rlCfg d l) 31 30 = prio) && !(s.readyList d l).isEmpty)

/-- The lists of a priority are tried in turn; the list that delivers passes the turn to the next (R328). -/
def tryLists (s : State) (d prio : Nat) : List Nat → Bool × State
  | [] => (false, s)
  | l :: r =>
    let (done, u) := considerList s d (s.readyList d l)
    if done then (true, { u with tdx := { u.tdx with rr := mset 0 u.tdx.rr (d * 4 + prio) ((l + 1) % 64) } }) else tryLists u d prio r

/-- The priorities are tried in order, 0 first (R328). -/
def tryPrios (s : State) (d : Nat) : List Nat → State
  | [] => s
  | p :: r =>
    let (done, u) := tryLists s d p (s.turnOrder d p)
    if done then u else tryPrios u d r

/-- The dispatcher of a die works: no unit restart, the die is there, threads run (R260, R341). -/
def State.tdxUp (s : State) (d : Nat) : Bool := !s.unitDown d unitTdx && !s.excluded d && s.glb.mode.threads

/-- TASK_DELIVER (R328). -/
def execTaskDeliver (d : Fin 8) (s : State) : Res := onCra s d (if s.tdxUp d then tryPrios s d [0, 1, 2, 3] else s)

/-- AFFINITY_WAIT_END: the oldest held task of a list ends its wait: it goes to its affinity core if a thread of it has come to wait, else it falls back (R332, R348). -/
def affWaitEnd (s : State) (d l : Nat) : State :=
  match (s.readyList d l).find? (fun t => t.held.isSome) with
  | none => s
  | some t => match s.waitCore d t with
    | some c => if (s.waitersOf d l c).isEmpty then (tryFallback (waitUnserved s d t c) d { t with held := none, waited := true }).2 else (considerTask s d t).2
    | none => (considerTask s d t).2

/-- AFFINITY_WAIT_END (R332). -/
def execAffinityWaitEnd (d : Fin 8) (l : Fin 64) (s : State) : Res := onCra s d (if s.tdxUp d then affWaitEnd s d l else s)

/-- The delay list whose expired head moves next: earliest E, lowest list on a tie; a head for which the task pool has no entry stays (R337). -/
def State.expired (s : State) (d : Nat) : Option (Nat × DTask) :=
  (List.range 8).foldl (fun m i =>
    match (s.delayList d i).head? with
    | some x =>
      if x.e ≤ s.ticksOn d ∧ (x.task.ticket.isSome ∨ s.taskPool d < 8192) then
        (match m with
         | some (_, y) => if x.e < y.e then some (i, x) else m
         | none => some (i, x))
      else m
    | none => m) none

/-- DELAY_EXPIRY: one expired task moves to its ready list (R337). -/
def delayExpiry (s : State) (d : Nat) : State :=
  match s.expired d with
  | some (i, x) =>
    let t := placeReady (s.setDelay d i ((s.delayList d i).drop 1)) d x.task
    let t := if x.e < s.ticksOn d then t.bump .TDX_DL_LATE d else t
    trace t d { kind := 4, list := x.task.list, pc := x.task.entry, tkt := s.trTkt d x.task.ticket, arg := i * 2 ^ 19 + min (2 ^ 19 - 1) (s.ticksOn d - x.e) }
  | none => s

/-- DELAY_EXPIRY (R337). -/
def execDelayExpiry (d : Fin 8) (s : State) : Res := onDie s d (if s.tdxUp d then delayExpiry s d else s)

/-- The answer to a remote post reaches the thread that waits for it (R325). -/
def answerPost (s : State) (f : Flight) (code : Nat) : State :=
  s.modThr (f.src / 384) (f.src % 384) (fun t =>
    match t.pend with
    | some p => if p.kind = .remote f.id then { t with pend := some { p with err := code, kind := .tdx } } else t
    | none => t)

/-- REMOTE_TASK_ARRIVE: the oldest remote post to the die is placed or refused (R324, R325, R341). -/
def remoteArrive (s : State) (d : Nat) : State :=
  match s.tdx.flight.find? (fun f => f.dst = d) with
  | none => s
  | some f =>
    let t := { s with tdx := { s.tdx with flight := lrem f s.tdx.flight } }
    if s.unitDown d unitTdx then answerPost t f 2
    else
      let (c, u) := tryPost t d f.task f.delay
      answerPost (if c = 0 then (u.bump .TDX_REMOTE_IN d).bump .TDX_POSTED d else u) f c

/-- REMOTE_TASK_ARRIVE (R325). -/
def execRemoteTaskArrive (d : Fin 8) (s : State) : Res := onCra s d (remoteArrive s d)

/-- TASK_INJECT (R322, R326, R398). -/
def injectTask (s : State) (a : InjectArgs) : TblAns :=
  let t : Task := { args := (List.range 6).map (fun i => a.args.getD i 0), entry := a.entry.toNat % 32768, list := a.ready, key := a.key, ticket := none, held := none, waited := false }
  if a.die ∉ s.liveDies ∨ 63 < a.ready ∨ 32767 < a.entry.toNat ∨ 6 < a.args.length then (.badaddr, [], s)
  else if s.unitDown a.die unitTdx then (.busy, [], s)
  else
    let (c, u) := tryPost s a.die t a.delay.toNat
    if c = 0 then (.ok, [], postRec (u.bump .TDX_INJECTED a.die) a.die a.die false none t a.delay.toNat) else (.noroom, [], u)

/-- A host operation accepted in the modes in which threads run (R326, R387). -/
def hostOpRun (s : State) (op : Nat) (f : TblAns) : State :=
  hostOp s op (if s.glb.mode.threads then f else (.mode, [], s))

/-- TASK_INJECT (R398). -/
def execTaskInject (a : InjectArgs) (s : State) : Res := .next (hostOpRun s 0x60 (injectTask s a))

/-! Unit restart. -/

/-- The tasks on a die's ready lists, then on its delay lists. -/
def State.allTasks (s : State) (d : Nat) : List Task :=
  (List.range 64).flatMap (fun l => s.readyList d l) ++ (List.range 8).flatMap (fun i => (s.delayList d i).map (fun x => x.task))

/-- The lists of a die emptied (R340, R341). -/
def emptyLists (s : State) (d : Nat) : State :=
  { s with tdx := { s.tdx with ready := mdrop (fun k => k / 64 = d) s.tdx.ready, delay := mdrop (fun k => k / 8 = d) s.tdx.delay } }

/-- A request outstanding at the TDX, a remote post among them, fails with 0x02; a ticket whose TDEFER fails is its thread's again (R314, R341). -/
def failRequest (back : List Nat) (t : Thr) : Thr :=
  match t.pend with
  | some p => match p.kind with
    | .tdx => { t with pend := some { p with err := 2 } }
    | .remote _ => { t with pend := some { p with err := 2, kind := .tdx } }
    | .tdefer k => if k ∈ back then { t with pend := some { p with err := 2 }, ticket := some k } else t
    | _ => t
  | none => t

/-- The tickets whose TDEFER has not been answered. -/
def State.deferring (s : State) (d : Nat) : List Nat :=
  (mpick (fun k => k / 384 = d) s.cra.thr).filterMap (fun x => match x.2.pend with
    | some p => (match p.kind with
      | .tdefer k => some k
      | _ => none)
    | none => none)

/-- A unit restart of the TDX (R341). -/
def tdxRestart (s : State) (d : Nat) : State :=
  let tasks := s.allTasks d
  let back := (s.deferring d).filter (fun k => tasks.any (fun t => t.ticket = some k))
  let t := emptyLists s d
  let t := tasks.foldl (fun t x =>
    match x.ticket with
    | some k => if k ∈ back then t else (retireTicket t d k).bump .TDX_RESTART_RETIRE d
    | none => t.bump .TDX_RESTART_DISCARD d) t
  let t : State := { t with cra := { t.cra with thr := t.cra.thr.map (fun x => if x.1 / 384 = d then (x.1, failRequest back x.2) else x) } }
  t.bumpGen .TDX_STATE d

/-! Registers (R331, R346, R349). -/

/-- The affinity table of a die cleared (R331). -/
def clearAff (s : State) (d : Nat) : State := { s with tdx := { s.tdx with aff := mdrop (fun k => k / 4096 = d) s.tdx.aff } }

/-- A write of TDX_CFG (R331, R349). -/
def wrTdxCfg (s : State) (d : Nat) (w : Word) : Ans :=
  let t := s.setRf .TDX_CFG d [] 7 0 (fld w 7 0)
  (.ok, if bit w 31 then clearAff t d else t)

/-- AFFINITY_CLEAR (R331). -/
def execAffinityClear (d : Fin 8) (w : Word) (s : State) : Res := hostDieWr s d false (fun s => wrTdxCfg s d w)

/-- A write of TDX_TRC_CTL; RUN = 1 clears TRIGGERED and STOPPED (R346, R349). Records not yet copied stay to be copied while the ring stays in a spill mode; elsewhere the ring counts anew from here (log 71). -/
def wrTrcCtl (s : State) (d : Nat) (w : Word) : Ans :=
  let t := s.setReg .TDX_TRC_CTL d [] (packWord [(27, fld w 31 27), (0, fld w 15 0)])
  let t := if bit w 31 then t.setRf .TDX_TRC_WR d [] 31 30 0 else t
  let keep : Bool := decide (2 ≤ s.trcMode d) && decide (2 ≤ t.trcMode d)
  (.ok, t.modTrc d (fun x => if keep then { x with post := none } else { x with count := 0, post := none, nextSpill := s.rf .TDX_TRC_WR d [] 15 0 }))

/-- TRACE_CONTROL_WRITE (R346). -/
def execTraceControlWrite (d : Fin 8) (w : Word) (s : State) : Res := hostDieWr s d false (fun s => wrTrcCtl s d w)

/-- A write of TDX_TRC_MARK (R343, R349). -/
def wrTrcMark (s : State) (d : Nat) (w : Word) : Ans := (.ok, trace s d { kind := 8, arg := fld w 21 0 })

/-- TRACE_MARK (R343). -/
def execTraceMark (d : Fin 8) (w : Word) (s : State) : Res := hostDieWr s d false (fun s => wrTrcMark s d w)

/-- Room has returned in the ring: while RUN is 1 the record with the number of records lost follows at once (R346). -/
def roomBack (s : State) (d : Nat) : State := if s.trcRun d then lostRecord s d else s

/-- TRACE_SPILL: the oldest record not yet copied goes to the spill area through P3, which makes room in the ring; nothing is copied once writing has stopped, and with the stack lost it stops (R346). -/
def traceSpill (s : State) (d : Nat) : State :=
  let x := s.trc d
  if s.trcMode d < 2 ∨ x.count = 0 ∨ bit (s.reg .TDX_TRC_WR d []) 30 then s
  else if nbit s.ssc.lost d then stopWriting s d
  else
    let i := s.rf .TDX_TRC_SPILL d [] 23 0
    let b := mget 0 s.tdx.ring (d * 65536 + x.nextSpill)
    let t : State := { s with tdx := { s.tdx with spill := mset 0 s.tdx.spill (d * 0x1000000 + i) b } }
    let t := pushPort t d 3 true (.spill i) (pieceMask ((0x59F830000 + i * 16) / 256))
    let t := (t.setRf .TDX_TRC_SPILL d [] 23 0 (i + 1)).modTrc d (fun x => { x with count := x.count - 1, nextSpill := (x.nextSpill + 1) % 65536 })
    roomBack (if i = 0xFFFFFF then (if s.trcMode d = 3 then stopWriting t d else t.setRf .TDX_TRC_SPILL d [] 31 31 1) else t) d

/-- TRACE_SPILL (R346). -/
def execTraceSpill (d : Fin 8) (s : State) : Res := onDie s d (traceSpill s d)

end Sys2Proof.Machine
end

