-- ==== Sys2Proof/Machine/Classify.lean ====
section
/-! DEFINITION. The classifier: TCAM, actions, default actions, fragments, flows, sequence numbers, tickets (spec/04 R113 to R131). -/

namespace Sys2Proof.Machine

/-- Key of word w of TCAM entry i of a die (R116). -/
def tcKey (d i w : Nat) : Nat := (d * 8192 + i) * 64 + w
/-- A TCAM word (R116): words 0 to 19 key, 20 to 39 mask, 40 to 43 action, 44 control, 45 HITS. -/
def State.tc (s : State) (d i w : Nat) : Word := mget 0 s.cls.tcam (tcKey d i w)
/-- A TCAM word written. -/
def State.setTc (s : State) (d i w : Nat) (v : Word) : State := { s with cls := { s.cls with tcam := mset 0 s.cls.tcam (tcKey d i w) v } }
/-- The valid entries of a die, ascending (R115). -/
def State.tcValid (s : State) (d : Nat) : List Nat :=
  ((mpick (fun k => k / 524288 = d ∧ k % 64 = 44) s.cls.tcam).filter (fun x => bit x.2 31)).map (fun x => x.1 / 64 % 8192)
/-- Word k of a parse vector, key bits [639 - 32k : 608 - 32k] (R115, R116). -/
def vecWord (v : List Byte) (k : Nat) : Word := BitVec.ofNat 32 (vecNat v (4 * k) 4)
/-- An entry matches a parse vector; an entry that is stuck or being restored does not (R115, R463). -/
def State.tcMatch (s : State) (d i : Nat) (v : List Byte) : Bool :=
  decide ((d, i) ∉ s.icu.stuck) && decide ((d, i) ∉ s.icu.restoring) &&
    (List.range 20).all (fun k => decide (vecWord v k &&& s.tc d i (20 + k) = s.tc d i k &&& s.tc d i (20 + k)))
/-- The action of an entry (R117). -/
def State.tcAction (s : State) (d i : Nat) : BitVec 128 :=
  BitVec.ofNat 128 ((List.range 4).foldl (fun a w => a + (s.tc d i (40 + w)).toNat * 2 ^ (32 * w)) 0)

/-- The TCAM search: the lowest matching entry, its action; HITS counts it (R115, R116). -/
def tcSearch (s : State) (d : Nat) (v : List Byte) : Option (Nat × BitVec 128) × State :=
  match (s.tcValid d).find? (fun i => s.tcMatch d i v) with
  | some i => (some (i, s.tcAction d i), s.setTc d i 45 (BitVec.ofNat 32 (satAdd 32 (s.tc d i 45).toNat 1)))
  | none => (none, s)

/-- n FIELDS bytes from a slot on; bytes beyond byte 63 read as zero (R117). -/
def slotBytes (v : List Byte) (slot n : Nat) : List Byte := padTo n (((v.take 64).drop (2 * slot)).take n)

/-- The flow key of a profile: the FIELDS bytes that CLS_FKEY_LO and CLS_FKEY_HI select, ascending, zero-padded to 40 (R127, R139). -/
def State.flowKeyOf (s : State) (d prof : Nat) (v : List Byte) : List Byte :=
  let m := (s.reg .CLS_FKEY_LO d [prof]).toNat + (s.reg .CLS_FKEY_HI d [prof]).toNat * 2 ^ 32
  padTo 40 (((List.range 64).filter (nbit m)).map (fun i => v.getD i 0))

/-- The port fallback flow of an ingress port on die d (R127, R473). -/
def State.fallbackCtx (s : State) (d p : Nat) : Nat :=
  if p / 4 = d then 65532 + p % 4 else (mfind s.fwt.bound p).getD (65532 + p % 4)

/-- What the classifier has decided for a frame, with its lookup results. -/
structure Verdict where
  dec : Decision
  l2 : Word := 0
  lpm : Word := 0
  flow : Word := 0
  fragd : Bool := false
  deriving DecidableEq, Repr

/-- The default action of an ingress port (R121, R133): a reserved KIND acts as DROP; its frames take the port fallback flow (R127). -/
def takeDefault (s : State) (d p : Nat) : Verdict × State :=
  let a := s.reg .CLS_DEF_ACT (p / 4) [p % 4]
  let g := s.reg .CLS_DEF_ARG (p / 4) [p % 4]
  let kind := if 4 < fld a 31 29 then 0 else fld a 31 29
  let dec : Decision := { rule := 0, hit := false, dflt := true, kind := kind, ready := fld a 28 23, entry := fld g 30 16, queue := fld a 17 0, domain := fld a 11 0, edit := fld g 15 8, actdata := 0, action := 0, flow := s.fallbackCtx d p, fallback := true }
  ({ dec := dec }, s.bump .CLS_DEFAULT d [p % 4, kind])

/-- The L2 and LPM lookups that an action names, on a parse vector (R117, R138, R157). -/
def runLookups (s : State) (d : Nat) (a : BitVec 128) (v : List Byte) : Word × Word × State :=
  let (l2, t) := if mfld a 124 124 = 1 then l2Lookup s d (mfld a 77 66) (beNat (slotBytes v (mfld a 39 35) 6)) else (0, s)
  let v6 := decide (mfld a 24 24 = 1)
  let addr := if v6 then beNat (slotBytes v (mfld a 29 25) 16) else beNat (slotBytes v (mfld a 29 25) 4) * 2 ^ 96
  (l2, if mfld a 122 122 = 1 then t.lpmLookup d v6 (mfld a 23 8) addr else 0, t)

/-- The learn request of a rule with LEARN = 1: whether it failed for lack of room (R146, R147). -/
def runLearn (s : State) (d p : Nat) (a : BitVec 128) (v : List Byte) : Bool × State :=
  if mfld a 121 121 = 1 ∧ s.learnOn d p then
    match learnRequest s d (mfld a 77 66) (beNat (slotBytes v (mfld a 34 30) 6)) p with
    | (.noRoom, t) => (true, t)
    | (_, t) => (false, t)
  else (false, s)

/-- A frame whose learn insert found no room is flooded instead, unless its action is DROP or TO_HOST (R147). -/
def floodInstead (noRoom : Bool) (c : Decision) : Decision :=
  if noRoom ∧ c.kind ≠ 0 ∧ c.kind ≠ 2 then { c with kind := 1 } else c

/-- The flow of a rule: the context of its flow key, inserted on a miss, or the port fallback flow (R127, R140). Returns context, fallback, FLOWRES. -/
def runFlow (s : State) (d p : Nat) (a : BitVec 128) (v : List Byte) : Nat × Bool × Word × State :=
  if mfld a 123 123 = 0 then (s.fallbackCtx d p, true, 0, s)
  else
    let prof := mfld a 120 117
    let key := s.flowKeyOf d prof v
    match flowLookup s d prof key with
    | (some e, t) => (e.ctx, false, flowRes e, t)
    | (none, t) =>
      match flowInsert t d prof key with
      | (some c, u) =>
        let data := match u.flowMatch d prof key with
          | some (_, e) => e.data.toNat
          | none => 0
        (c, false, packWord [(29, 1), (0, data)], u)
      | (none, u) => (s.fallbackCtx d p, true, 0, u.bump .CLS_FLOW_FALLBACK d [p % 4])

/-- The outcome of a matched rule (R117, R127, R146). -/
def applyRule (s : State) (d p i : Nat) (a : BitVec 128) (v : List Byte) : Verdict × State :=
  let (l2, lpm, t) := runLookups s d a v
  let (c, fb, fr, t) := runFlow t d p a v
  let (full, t) := runLearn t d p a v
  let dec : Decision := { rule := i, hit := true, dflt := false, kind := mfld a 127 125, ready := mfld a 116 111, entry := mfld a 110 96, queue := mfld a 95 78, domain := mfld a 77 66, edit := mfld a 63 56, actdata := mfld a 55 40, action := a, flow := c, fallback := fb }
  ({ dec := floodInstead full dec, l2 := l2, lpm := lpm, flow := fr }, t)

/-- A later fragment under a recorded decision: the recorded action and flow, lookups on its own vector (R124). -/
def applyRecorded (s : State) (d p : Nat) (dec : Decision) (v : List Byte) : Verdict × State :=
  let t := s.bump .CLS_FRAG_HIT d
  if dec.dflt then ({ dec := dec, fragd := true }, t)
  else
    let (l2, lpm, t) := runLookups t d dec.action v
    let (full, t) := runLearn t d p dec.action v
    ({ dec := floodInstead full dec, l2 := l2, lpm := lpm, fragd := true }, t)

/-- The place of a frame in the order of its die: arrival number, then place after a first fragment (R106, R125). -/
def CFrame.before (x y : CFrame) : Bool := decide (x.after < y.after) || (decide (x.after = y.after) && decide (x.sub < y.sub))
/-- A frame in its place among those that wait for sequence numbers. -/
def insertWait (x : CFrame) : List CFrame → List CFrame
  | [] => [x]
  | y :: r => if x.before y then x :: y :: r else y :: insertWait x r

/-- The frames of a die that wait for their sequence numbers. -/
def State.clsWait (s : State) (d : Nat) : List CFrame := mget [] s.cls.wait d
/-- Those frames replaced. -/
def State.setClsWait (s : State) (d : Nat) (l : List CFrame) : State := { s with cls := { s.cls with wait := mset [] s.cls.wait d l } }

/-- A frame whose flow is decided joins those that wait, after a use of its context through the flow cache (R106, R144). -/
def joinWait (s : State) (d after sub : Nat) (f : Frame) (v : List Byte) (x : Verdict) : State :=
  let (hit, t) := touchCtx s d x.dec.flow
  let c : CFrame := { frame := f, vec := v, dec := x.dec, fragd := x.fragd, l2res := x.l2, lpmres := x.lpm, flowres := x.flow, fetching := !hit, robWait := false, after := after, sub := sub }
  t.setClsWait d (insertWait c (t.clsWait d))

/-- A frame takes its port's default action. -/
def joinDefault (s : State) (d : Nat) (f : Frame) (v : List Byte) : State :=
  let (x, t) := takeDefault s d f.port
  joinWait t d f.arr 0 f v x

/-! Fragments. -/

/-- The entry of the fragment table with a frame's key (R122). -/
def State.fragFind (s : State) (d : Nat) (v : List Byte) : Option (Nat × Frag) :=
  ((mpick (fun k => k / 4096 = d) s.cls.frag).find? (fun x => decide (x.2.digest = vecNat v 72 8) && decide (x.2.fragId = vecNat v 96 4) && decide (x.2.proto = vecNat v 69 1))).map (fun x => (x.1 % 4096, x.2))
/-- A fragment table entry written. -/
def State.setFrag (s : State) (d i : Nat) (x : Frag) : State := { s with cls := { s.cls with frag := minsert (d * 4096 + i) x s.cls.frag } }
/-- A fragment table entry freed. -/
def State.dropFrag (s : State) (d i : Nat) : State := { s with cls := { s.cls with frag := mremove (d * 4096 + i) s.cls.frag } }
/-- The lowest free entry from i on: candidates left. -/
def State.fragFrom (s : State) (d : Nat) : Nat → Nat → Option Nat
  | 0, _ => none
  | n + 1, i => if (mfind s.cls.frag (d * 4096 + i)).isNone then some i else s.fragFrom d n (i + 1)
/-- A new entry for a frame's key (R122). -/
def newFrag (s : State) (d : Nat) (v : List Byte) (dec : Option Decision) (held : List (Frame × List Byte)) : Frag :=
  { digest := vecNat v 72 8, fragId := vecNat v 96 4, proto := vecNat v 69 1, dec := dec, tick := s.ticksOn d, held := held }

/-- Held fragments take a decision, each after the first fragment in their order (R106, R125). -/
def releaseFrags (s : State) (d after : Nat) (dec : Decision) : Nat → List (Frame × List Byte) → State
  | _, [] => s
  | n, (f, v) :: r =>
    let (x, t) := applyRecorded s d f.port dec v
    releaseFrags (joinWait t d after n f v x) d after dec (n + 1) r

/-- A first fragment's decision is recorded (R123), KIND FLOOD with it where its learn insert found no room (R147; log 81). -/
def recordFrag (s : State) (d : Nat) (f : Frame) (v : List Byte) (dec : Decision) : State :=
  match s.fragFind d v with
  | some (i, x) =>
    if x.dec.isSome then s
    else releaseFrags (s.setFrag d i { x with dec := some dec, tick := s.ticksOn d, held := [] }) d f.arr dec 1 x.held
  | none => match s.fragFrom d 4096 0 with
    | some i => s.setFrag d i (newFrag s d v (some dec) [])
    | none => s.bump .CLS_FRAG_FULL d

/-- CLS_FRAG_CFG.FRAG_HOLD (R125). -/
def State.fragHold (s : State) (d : Nat) : Nat := s.rf .CLS_FRAG_CFG d [] 15 0

/-- A later fragment held in an entry: held frames stand in the order of their arrival numbers (R125). -/
def holdFrag (f : Frame) (v : List Byte) : List (Frame × List Byte) → List (Frame × List Byte)
  | [] => [(f, v)]
  | x :: r => if f.arr < x.1.arr then (f, v) :: x :: r else x :: holdFrag f v r

/-- A later fragment (R124, R125). One that finds its decision recorded stands where its own arrival number puts it, also before its first fragment (R106; log 81). -/
def laterFrag (s : State) (d : Nat) (f : Frame) (v : List Byte) : State :=
  match s.fragFind d v with
  | some (i, x) => match x.dec with
    | some dec =>
      let (y, t) := applyRecorded (s.setFrag d i { x with tick := s.ticksOn d }) d f.port dec v
      joinWait t d f.arr 0 f v y
    | none =>
      if s.fragHold d = 0 then joinDefault (s.bump .CLS_FRAG_EXPIRED d) d f v
      else if x.held.length < 16 then s.setFrag d i { x with held := holdFrag f v x.held }
      else joinDefault (s.bump .CLS_FRAG_FULL d) d f v
  | none =>
    if s.fragHold d = 0 then joinDefault (s.bump .CLS_FRAG_EXPIRED d) d f v
    else match s.fragFrom d 4096 0 with
      | some i => s.setFrag d i (newFrag s d v none [(f, v)])
      | none => joinDefault (s.bump .CLS_FRAG_FULL d) d f v

/-- Stage 5 and what follows the TCAM search (R20, R121 to R127). A frame with both fragment flags, which has failed, records no decision (log 81). -/
def classify (s : State) (d : Nat) (f : Frame) (v : List Byte) (m : Option (Nat × BitVec 128)) : State :=
  let fl := vecFlags v
  if ¬ fl.testBit 31 ∧ fl.testBit pfLater then laterFrag s d f v
  else
    let (x, t) := match m with
      | some (i, a) => applyRule s d f.port i a v
      | none => takeDefault s d f.port
    let t := joinWait t d f.arr 0 f v x
    if fl.testBit pfFirst ∧ ¬ fl.testBit pfLater then recordFrag t d f v x.dec else t

/-- The end of a parse: the vector is in the buffer header, the counters count, the TCAM is searched; lookups wait while the FWT restarts (R113, R115, R121, R457). -/
def parseEnd (s : State) (d e : Nat) : State :=
  match mfind s.prs.eng (d * 16 + e) with
  | none => s
  | some x =>
    if s.unitDown d unitPrs ∨ s.unitDown d unitCls then s
    else
      let t : State := { s with prs := { s.prs with eng := mremove (d * 16 + e) s.prs.eng } }
      let t := countParse (t.putQuay x.frame.handle 0 x.vec) d x.frame.port x.vec
      let fl := vecFlags x.vec
      let (m, t) := if fl.testBit 31 ∨ fl.testBit pfLater then (none, t) else tcSearch t d x.vec
      if s.unitDown d unitFwt then
        { t with cls := { t.cls with late := mset [] t.cls.late d (mget [] t.cls.late d ++ [Late.mk x.frame x.vec m]) } }
      else classify t d x.frame x.vec m

/-- PARSE_END (R113). -/
def execParseEnd (d : Fin 8) (e : Fin 16) (s : State) : Res := onDie s d (parseEnd s d e)

/-- Every held frame of an entry takes its port's default action and counts in CLS_FRAG_EXPIRED; the entry is freed (R125). -/
def expireHeld (s : State) (d i : Nat) (x : Frag) : State :=
  x.held.foldl (fun t h => joinDefault (t.bump .CLS_FRAG_EXPIRED d) d h.1 h.2) (s.dropFrag d i)

/-- FRAG_HOLD_EXPIRY (R125). -/
def execFragHoldExpiry (d : Fin 8) (i : Fin 4096) (s : State) : Res :=
  onDie s d (match mfind s.cls.frag (d * 4096 + i) with
    | some x => if x.dec.isNone ∧ x.tick + s.fragHold d ≤ s.ticksOn d then expireHeld s d i x else s
    | none => s)

/-- FRAG_LIFE_EXPIRY; a FRAG_LIFE of 0 acts as 1 (R126, R133). -/
def execFragLifeExpiry (d : Fin 8) (i : Fin 4096) (s : State) : Res :=
  onDie s d (match mfind s.cls.frag (d * 4096 + i) with
    | some x => if x.dec.isSome ∧ x.tick + max 1 (s.rf .CLS_FRAG_CFG d [] 31 16) ≤ s.ticksOn d then s.dropFrag d i else s
    | none => s)

/-! Sequence numbers and tickets. -/

/-- The six words of a ticket (R131). -/
def ticketWords (d : Nat) (c : CFrame) (seq tkt : Nat) : List DWord :=
  let v := c.vec
  [ BitVec.ofNat 64 (c.frame.handle % 2 ^ 40 + c.frame.len % 2 ^ 14 * 2 ^ 40 + c.frame.port * 2 ^ 54),
    BitVec.ofNat 64 (seq + flowId d c.dec.flow * 2 ^ 32 + tkt * 2 ^ 51),
    BitVec.ofNat 64 (c.dec.rule + b2n c.dec.hit * 2 ^ 13 + b2n c.dec.dflt * 2 ^ 14 + b2n c.fragd * 2 ^ 15 + b2n c.dec.fallback * 2 ^ 16 + vecFlags v * 2 ^ 32),
    BitVec.ofNat 64 (vecNat v 70 2 + c.dec.actdata * 2 ^ 16 + vecNat v 81 1 * 2 ^ 32 + vecNat v 82 1 * 2 ^ 40 + vecNat v 83 1 * 2 ^ 48 + vecNat v 69 1 * 2 ^ 56),
    BitVec.ofNat 64 (c.l2res.toNat + c.lpmres.toNat * 2 ^ 32),
    BitVec.ofNat 64 (c.flowres.toNat + vecNat v 76 4 * 2 ^ 32) ]

/-- A landing queue that frames may name: below 32 times the part's banks (R236, R238). -/
def State.queueOk (s : State) (q : Nat) : Bool := decide (q < 32768 * s.dies)

/-- The classifier completes a ticket without a thread (R22, R120, R238). -/
def complete (s : State) (d t : Nat) (c : Decision) : State :=
  let emit (dest : Word) : State :=
    if ¬ s.editValid d c.edit then endTicket (s.bump .RSQ_EDIT_ERR d) d t (.retire false)
    else endTicket s d t (.emit dest c.edit false)
  if c.kind = 1 then emit (BitVec.ofNat 32 (2 ^ 31 + c.domain))
  else if c.kind = 2 then endTicket s d t (.host (if c.dflt then 2 else 1) c.actdata)
  else if c.kind = 3 then
    (if s.editValid d c.edit ∧ ¬ s.queueOk c.queue then endTicket (s.bump .RSQ_DEST_ERR d) d t (.retire false) else emit (BitVec.ofNat 32 c.queue))
  else endTicket s d t (.retire false)

/-- The ticket key of a flow (R331). -/
def ticketKey (flow : Nat) : DWord := BitVec.ofNat 64 (2 ^ 63 + flow)

/-- A frame takes its flow's next sequence number and a reorder buffer entry; its ticket goes to its ready list or is completed (R120, R128, R129, R322). DESIGN CHOICE: where the last entry of its context went while it waited, it takes its number from the context as it is now, free or bound anew (log 83). -/
def giveNumber (s : State) (d : Nat) (c : CFrame) (t : Nat) : State :=
  let x := s.ctx d c.dec.flow
  let u := s.setClsWait d (lrem c (s.clsWait d))
  let u := cacheIn (u.modCtx d c.dec.flow (fun y => { y with nextSeq := (y.nextSeq + 1) % 2 ^ 32 })) d c.dec.flow
  let r : Rob := { st := .pending, seq := x.nextSeq, flow := flowId d c.dec.flow, frame := c.frame, dest := 0, edit := 0, force := false, reason := 0, code := 0, rule := b2n c.dec.hit * 2 ^ 15 + b2n c.dec.dflt * 2 ^ 14 + b2n c.fragd * 2 ^ 13 + c.dec.rule, profile := vecNat c.vec 70 2, pflags := BitVec.ofNat 32 (vecFlags c.vec) }
  let u := putRob u d t r
  if c.dec.kind = 4 then
    placeReady u d { args := ticketWords d c x.nextSeq t, entry := c.dec.entry, list := c.dec.ready, key := ticketKey (flowId d c.dec.flow), ticket := some t, held := none, waited := false }
  else complete u d t c.dec

/-- Arrival numbers of the frames of a die whose flows are not decided (R106). -/
def State.undecided (s : State) (d : Nat) : List Nat :=
  (mget [] s.prs.queue (d * 2)).map (·.arr) ++ (mget [] s.prs.queue (d * 2 + 1)).map (·.arr)
    ++ (mpick (fun k => k / 16 = d) s.prs.eng).map (fun x => x.2.frame.arr) ++ (mget [] s.cls.late d).map (fun x => x.frame.arr)

/-- The first frame that may take its number: no lower arrival undecided, its context there, no earlier frame of its flow waiting (R106, R128). -/
def nextNumbered (und : List Nat) : List Nat → List CFrame → Option CFrame
  | _, [] => none
  | flows, c :: r =>
    if und.any (fun a => decide (a < c.after)) then none
    else if c.fetching ∨ c.dec.flow ∈ flows then nextNumbered und (c.dec.flow :: flows) r
    else some c

/-- The frame of a die that takes its number next. -/
def State.nextFrame (s : State) (d : Nat) : Option CFrame := nextNumbered (s.undecided d) [] (s.clsWait d)

/-- A sequence number is assigned, or the ticket waits for a reorder buffer entry and counts once (R128, R129). -/
def assignNext (s : State) (d : Nat) : State :=
  if s.unitDown d unitFwt then s
  else match s.nextFrame d with
    | none => s
    | some c => match s.robFree d with
      | some t => giveNumber s d c t
      | none =>
        if c.robWait then s
        else (s.setClsWait d ((s.clsWait d).map (fun x => if x = c then { x with robWait := true } else x))).bump .CLS_ROB_WAIT d

/-- SEQUENCE_ASSIGN (R128). -/
def execSequenceAssign (d : Fin 8) (s : State) : Res := onDie s d (assignNext s d)

/-- ROB_ENTRY_WAIT: the ticket that waited receives a freed entry (R129). -/
def execRobEntryWait (d : Fin 8) (s : State) : Res :=
  onDie s d (match s.nextFrame d with
    | some c => if c.robWait then assignNext s d else s
    | none => s)

/-- FLOW_CONTEXT_FETCH: a context has been read and enters the flow cache; the frames that waited for it proceed (R106, R144). -/
def ctxFetched (s : State) (d c : Nat) : State :=
  let waits (x : CFrame) : Bool := x.fetching && decide (x.dec.flow = c)
  if (d, c) ∈ s.fwt.fetch ∧ ¬ s.ssc.req.any (fun r => decide (r.what = .ctx d c) && !r.write) then
    let t := { s with fwt := { s.fwt with fetch := lrem (d, c) s.fwt.fetch } }
    cacheIn (t.setClsWait d ((t.clsWait d).map (fun x => if waits x then { x with fetching := false } else x))) d c
  else s

/-- FLOW_CONTEXT_FETCH (R144). -/
def execFlowContextFetch (d : Fin 8) (c : Fin 65536) (s : State) : Res := onDie s d (ctxFetched s d c)

/-- The FWT restart of a die is over: frames that waited at stage 5 go on in the order of arrival (R106, R457). -/
def resumeLate (s : State) (d : Nat) : State :=
  let l := mget [] s.cls.late d
  l.foldl (fun t x => classify t d x.frame x.vec x.rule) { s with cls := { s.cls with late := mset [] s.cls.late d [] } }

end Sys2Proof.Machine
end

