-- ==== Sys2Proof/Machine/RolkAlu.lean ====
section
/-! DEFINITION. Rolk: issue, arithmetic, bit fields, branches, jumps, TRAP and NOP (spec/10 R297 to R307, R320; spec/09 R262 to R264, R279, R290). -/

namespace Sys2Proof.Machine

/-- The slot of an issued instruction counts toward MAX_SLOTS, the slot count of R25 and CRA_SLOTS; a step has issued (R279, R293, R296). -/
def countSlot (s : State) (d n : Nat) : State :=
  let k := d * 6 + clusterOf n
  let r := mget 0 s.cra.slotRem k + 1
  let t := s.modThr d n (fun t => { t with slots := if s.exempt d n then t.slots else t.slots + 1, since := t.since + 1, step := if t.step = 1 then 2 else t.step })
  if 1024 ≤ r then ({ t with cra := { t.cra with slotRem := mset 0 t.cra.slotRem k 0 } } : State).bump .CRA_SLOTS d [clusterOf n, 0]
  else { t with cra := { t.cra with slotRem := mset 0 t.cra.slotRem k r } }

/-- A thread can use its slot: threads run, the die is there, the thread is in RUN and its fetch does not wait for a repair (R260, R263, R269). -/
def State.canIssue (s : State) (d n : Nat) : Bool :=
  s.glb.mode.threads && !s.excluded d && decide ((s.thr d n).st = .run) && !s.psIsBad d (clusterOf n) (s.thr d n).pc

/-- The instruction at a thread's PC. -/
def State.insn (s : State) (d n : Nat) : Option RIns := decodeRolk (s.psWord d (clusterOf n) (s.thr d n).pc)

/-- Instructions that the runaway check lets issue (R295). -/
def endsCount (op : ROp) : Bool := decide (op = .twaitx) || decide (op = .tdonex)

/-- A thread's slot with the instruction op at its PC: a breakpoint halts it first, an illegal word and a passed slot limit fault, else the instruction has its effect f; where another instruction stands at the PC the command does not apply (R278, R279, R290, R295). -/
def issue (s : State) (d n : Nat) (op : ROp) (f : RIns → State → State) : State :=
  if ¬ s.canIssue d n then s
  else if s.bpMatch d n then (haltThread s d n).bump .CRA_BP_HITS d
  else match s.insn d n with
    | none => if s.pastLimit d n then runaway s d n else faultThread (countSlot s d n) d n tfIllegal 0
    | some i =>
      if i.op ≠ op then s
      else if s.pastLimit d n ∧ ¬ endsCount op then runaway s d n
      else (f i (countSlot s d n)).modThr d n Thr.settle

/-- A Rolk instruction as a command. -/
def rolk (s : State) (d n : Nat) (op : ROp) (f : RIns → State → State) : Res := onCra s d (issue s d n op f)

/-- PC + 1 (R297). -/
def nextPc (p : Nat) : Nat := (p + 1) % 32768

/-- The thread goes on at a PC. -/
def goTo (s : State) (d n p : Nat) : State := s.modThr d n (fun t => { t with pc := p })

/-- A result of the immediate class: written, and the thread continues at PC + 1 (R262, R299). -/
def putResult (s : State) (d n rd : Nat) (v : DWord) : State :=
  s.modThr d n (fun t => { (t.set rd v) with pc := nextPc t.pc })

/-- The second operand of an ALU operation: gb, or the immediate as its instruction extends it (R304). -/
def RIns.second (i : RIns) (t : Thr) : DWord :=
  if i.immForm then
    (match i.op with
     | .addx => sext16 i.imm
     | .minx => sext16 i.imm
     | .maxx => sext16 i.imm
     | .mulx => sext16 i.imm
     | _ => BitVec.ofNat 64 i.imm)
  else t.get i.b

/-- The results of R304. -/
def aluResult (op : ROp) (x y : DWord) : DWord :=
  let n := y.toNat % 64
  match op with
  | .addx => x + y
  | .subx => x - y
  | .andx => x &&& y
  | .orx => x ||| y
  | .xorx => x ^^^ y
  | .shlx => x <<< n
  | .shrx => x >>> n
  | .sarx => x.sshiftRight n
  | .rotx => x.rotateLeft n
  | .minx => if y.slt x then y else x
  | .maxx => if x.slt y then y else x
  | .mulx => x * y
  | .popcx => BitVec.ofNat 64 (popc64 x)
  | .clzx => BitVec.ofNat 64 (clz64 x)
  | .or16x => x ||| (y <<< 16)
  | .or32x => x ||| (y <<< 32)
  | .or48x => x ||| (y <<< 48)
  | _ => 0

/-- An ALU instruction (R304). -/
def aluStep (d n : Nat) (i : RIns) (s : State) : State :=
  let t := s.thr d n
  putResult s d n i.d (aluResult i.op (t.get i.a) (i.second t))

/-- A mask of w ones. -/
def onesD (w : Nat) : DWord := BitVec.ofNat 64 (ones w)

/-- BFX (R305). -/
def bfxResult (m : Nat) (x : DWord) : DWord := (x >>> bitsOf m 11 6) &&& onesD (bitsOf m 5 0 + 1)

/-- BFI; g is gd before it (R305). -/
def bfiResult (m : Nat) (g x : DWord) : DWord :=
  let k := onesD (bitsOf m 5 0 + 1)
  (g &&& ~~~(k <<< bitsOf m 11 6)) ||| ((x &&& k) <<< bitsOf m 11 6)

/-- The effect of BFX. -/
def bfxStep (d n : Nat) (i : RIns) (s : State) : State := putResult s d n i.d (bfxResult i.imm ((s.thr d n).get i.a))
/-- The effect of BFI. -/
def bfiStep (d n : Nat) (i : RIns) (s : State) : State :=
  putResult s d n i.d (bfiResult i.imm ((s.thr d n).get i.d) ((s.thr d n).get i.a))

/-- The target of a branch: (PC + 1 + OFF) modulo 32,768, where a signed 16-bit OFF and its unsigned value agree (R297). -/
def branchTarget (pc off : Nat) : Nat := (pc + 1 + off) % 32768

/-- Compare and branch (R306). -/
def branchStep (d n : Nat) (i : RIns) (s : State) : State :=
  let t := s.thr d n
  goTo s d n (if branchTaken i.op (t.get i.a) (t.get i.b) i.size then branchTarget t.pc i.imm else nextPc t.pc)

/-- J (R307). -/
def jStep (d n : Nat) (i : RIns) (s : State) : State := goTo s d n i.imm
/-- JAL (R307). -/
def jalStep (d n : Nat) (i : RIns) (s : State) : State :=
  s.modThr d n (fun t => { (t.set i.d (BitVec.ofNat 64 (nextPc t.pc))) with pc := i.imm })
/-- JR (R307). -/
def jrStep (d n : Nat) (i : RIns) (s : State) : State :=
  let x := ((s.thr d n).get i.a).toNat
  if 32768 ≤ x then faultThread s d n tfRange (x % 2 ^ 32)
  else s.modThr d n (fun t => { (t.set i.d (BitVec.ofNat 64 (nextPc t.pc))) with pc := x })
/-- TRAP (R320). -/
def trapStep (d n : Nat) (i : RIns) (s : State) : State := faultThread s d n tfTrap i.imm
/-- NOP (R320). -/
def nopStep (d n : Nat) (_ : RIns) (s : State) : State := goTo s d n (nextPc (s.thr d n).pc)

/-- ADD (R304). -/
def execAdd (d : Fin 8) (n : Fin 384) (s : State) : Res := rolk s d n .addx (aluStep d n)
/-- SUB (R304). -/
def execSub (d : Fin 8) (n : Fin 384) (s : State) : Res := rolk s d n .subx (aluStep d n)
/-- AND (R304). -/
def execAndd (d : Fin 8) (n : Fin 384) (s : State) : Res := rolk s d n .andx (aluStep d n)
/-- OR (R304). -/
def execOrr (d : Fin 8) (n : Fin 384) (s : State) : Res := rolk s d n .orx (aluStep d n)
/-- XOR (R304). -/
def execXorr (d : Fin 8) (n : Fin 384) (s : State) : Res := rolk s d n .xorx (aluStep d n)
/-- SHL (R304). -/
def execShl (d : Fin 8) (n : Fin 384) (s : State) : Res := rolk s d n .shlx (aluStep d n)
/-- SHR (R304). -/
def execShr (d : Fin 8) (n : Fin 384) (s : State) : Res := rolk s d n .shrx (aluStep d n)
/-- SAR (R304). -/
def execSar (d : Fin 8) (n : Fin 384) (s : State) : Res := rolk s d n .sarx (aluStep d n)
/-- ROT (R304). -/
def execRot (d : Fin 8) (n : Fin 384) (s : State) : Res := rolk s d n .rotx (aluStep d n)
/-- MIN (R304). -/
def execMinn (d : Fin 8) (n : Fin 384) (s : State) : Res := rolk s d n .minx (aluStep d n)
/-- MAX (R304). -/
def execMaxx (d : Fin 8) (n : Fin 384) (s : State) : Res := rolk s d n .maxx (aluStep d n)
/-- MUL (R304). -/
def execMul (d : Fin 8) (n : Fin 384) (s : State) : Res := rolk s d n .mulx (aluStep d n)
/-- POPC (R304). -/
def execPopc (d : Fin 8) (n : Fin 384) (s : State) : Res := rolk s d n .popcx (aluStep d n)
/-- CLZ (R304). -/
def execClz (d : Fin 8) (n : Fin 384) (s : State) : Res := rolk s d n .clzx (aluStep d n)
/-- OR_SHIFT_16 (R304). -/
def execOrShift16 (d : Fin 8) (n : Fin 384) (s : State) : Res := rolk s d n .or16x (aluStep d n)
/-- OR_SHIFT_32 (R304). -/
def execOrShift32 (d : Fin 8) (n : Fin 384) (s : State) : Res := rolk s d n .or32x (aluStep d n)
/-- OR_SHIFT_48 (R304). -/
def execOrShift48 (d : Fin 8) (n : Fin 384) (s : State) : Res := rolk s d n .or48x (aluStep d n)
/-- BFX (R305). -/
def execBfx (d : Fin 8) (n : Fin 384) (s : State) : Res := rolk s d n .bfxx (bfxStep d n)
/-- BFI (R305). -/
def execBfi (d : Fin 8) (n : Fin 384) (s : State) : Res := rolk s d n .bfix (bfiStep d n)
/-- BEQ (R306). -/
def execBeq (d : Fin 8) (n : Fin 384) (s : State) : Res := rolk s d n .beqx (branchStep d n)
/-- BNE (R306). -/
def execBne (d : Fin 8) (n : Fin 384) (s : State) : Res := rolk s d n .bnex (branchStep d n)
/-- BLT (R306). -/
def execBlt (d : Fin 8) (n : Fin 384) (s : State) : Res := rolk s d n .bltx (branchStep d n)
/-- BGE (R306). -/
def execBge (d : Fin 8) (n : Fin 384) (s : State) : Res := rolk s d n .bgex (branchStep d n)
/-- BLTU (R306). -/
def execBltu (d : Fin 8) (n : Fin 384) (s : State) : Res := rolk s d n .bltux (branchStep d n)
/-- BGEU (R306). -/
def execBgeu (d : Fin 8) (n : Fin 384) (s : State) : Res := rolk s d n .bgeux (branchStep d n)
/-- BBS (R306). -/
def execBbs (d : Fin 8) (n : Fin 384) (s : State) : Res := rolk s d n .bbsx (branchStep d n)
/-- BBC (R306). -/
def execBbc (d : Fin 8) (n : Fin 384) (s : State) : Res := rolk s d n .bbcx (branchStep d n)
/-- J (R307). -/
def execJ (d : Fin 8) (n : Fin 384) (s : State) : Res := rolk s d n .jx (jStep d n)
/-- JAL (R307). -/
def execJal (d : Fin 8) (n : Fin 384) (s : State) : Res := rolk s d n .jalx (jalStep d n)
/-- JR (R307). -/
def execJr (d : Fin 8) (n : Fin 384) (s : State) : Res := rolk s d n .jrx (jrStep d n)
/-- TRAP (R320). -/
def execTrap (d : Fin 8) (n : Fin 384) (s : State) : Res := rolk s d n .trapx (trapStep d n)
/-- NOP (R320). -/
def execNop (d : Fin 8) (n : Fin 384) (s : State) : Res := rolk s d n .nopx (nopStep d n)

end Sys2Proof.Machine
end

