-- ==== Sys2Proof/Machine/RolkMem.lean ====
section
/-! DEFINITION. Rolk: scratchpad and frame access (spec/10 R300, R303, R308, R309; spec/09 R270 to R275). -/

namespace Sys2Proof.Machine

/-- How an access to operands in memory ends before it has an effect. -/
inductive Access
  | good
  | bad (code detail : Nat)
  deriving DecidableEq, Repr

/-- Bytes of a cluster's scratchpad (R270). -/
def padSize : Nat := 0x40000

/-- The 8-byte words that an access touches and that have an uncorrectable error (R272). -/
def State.padErrors (s : State) (d k a n : Nat) : List Nat :=
  (List.range ((a + n - 1) / 8 + 1 - a / 8)).filter (fun j => decide (padKey d k (a / 8 * 8 + 8 * j) / 8 ∈ s.cra.padBad))

/-- A scratchpad access of n bytes with an alignment: the range is checked first (R270, R300). -/
def padAccess (a : DWord) (n align : Nat) : Access :=
  if padSize < a.toNat + n then .bad tfRange (a.toNat % 2 ^ 32)
  else if a.toNat % align ≠ 0 then .bad tfAlign (a.toNat % 2 ^ 32)
  else .good

/-- A read of the scratchpad: an uncorrectable error faults with bit 31 and the address of the access, or for a longer read of its first bad word (R272). -/
def padRead (s : State) (d k : Nat) (a : DWord) (n align : Nat) : Access :=
  match padAccess a n align with
  | .bad c x => .bad c x
  | .good => match s.padErrors d k a.toNat n with
    | [] => .good
    | j :: _ => .bad tfRange (2 ^ 31 + (if n ≤ 8 then a.toNat else a.toNat / 8 * 8 + 8 * j))

/-- The address of a load or store (R308). -/
def padAddr (i : RIns) (t : Thr) : DWord := t.get i.a + sext16 i.imm

/-- LD8 to LD64 (R308). -/
def loadStep (d n size : Nat) (i : RIns) (s : State) : State :=
  let a := padAddr i (s.thr d n)
  match padRead s d (clusterOf n) a size size with
  | .bad c x => faultThread s d n c x
  | .good => putResult s d n i.d (BitVec.ofNat 64 (beNat (s.padBytes d (clusterOf n) a.toNat size)))

/-- ST8 to ST64 (R308). -/
def storeStep (d n size : Nat) (i : RIns) (s : State) : State :=
  let t := s.thr d n
  let a := padAddr i t
  match padAccess a size size with
  | .bad c x => faultThread s d n c x
  | .good => goTo (s.putPad d (clusterOf n) a.toNat (beBytes size (t.get i.d).toNat)) d n (nextPc t.pc)

/-- A request is outstanding: the thread waits for its reply in HELPER (R262, R265). -/
def request (s : State) (d n rd : Nat) (v : DWord) (err : Nat) (u : Bool) (kind : PendKind) : State :=
  (markWait s d n).modThr d n (fun t => { t with st := .helper, pend := some { rd := rd, value := v, err := err, u := u, kind := kind, arrived := false }, helped := t.helped || !s.exempt d n, waited := true })

/-- The handle in a register (R300). -/
def handleOf (x : DWord) : Nat := x.toNat % 2 ^ 40

/-- The handle check of R179 for a use by a thread of die d, allocation state included. -/
def State.handleGood (s : State) (d h : Nat) : Bool := (s.poolOf h).isSome && decide (hDie h = d) && s.allocated h

/-- A failed handle check: TF_BADHANDLE, counted in BPM_BADHANDLE (R179). -/
def badHandle (s : State) (d n h : Nat) : State := faultThread (s.bump .BPM_BADHANDLE d) d n tfBadHandle (h % 2 ^ 32)

/-- LEN: the frame length in the vector's FLEN field (R274). -/
def State.frameLen (s : State) (h : Nat) : Nat := beNat (s.quayBytes h 100 2)

/-- The offset of a frame access: gb, or the immediate (R309). -/
def frameOff (i : RIns) (t : Thr) : Nat := if i.immForm then i.imm else (t.get i.b).toNat

/-- FLD (R274, R309). -/
def fldStep (d n : Nat) (i : RIns) (s : State) : State :=
  let t := s.thr d n
  let h := handleOf (t.get i.a)
  let o := frameOff i t
  if ¬ s.handleGood d h then badHandle s d n h
  else if 128 + s.frameLen h < o + i.size then faultThread s d n tfRange (o % 2 ^ 32)
  else request s d n i.d (BitVec.ofNat 64 (beNat (s.quayBytes h o i.size))) (if s.quayBad h o i.size then errUncorr else 0) true .other

/-- FST (R274, R309). -/
def fstStep (d n : Nat) (i : RIns) (s : State) : State :=
  let t := s.thr d n
  let h := handleOf (t.get i.a)
  let o := frameOff i t
  if ¬ s.handleGood d h then badHandle s d n h
  else if o < 128 ∨ 128 + s.frameLen h < o + i.size then faultThread s d n tfRange (o % 2 ^ 32)
  else request (s.putQuay h o (beBytes i.size (t.get i.d).toNat)) d n 0 0 0 true .other

/-- FLEN (R274, R309). -/
def flenStep (d n : Nat) (i : RIns) (s : State) : State :=
  let h := handleOf ((s.thr d n).get i.a)
  if ¬ s.handleGood d h then badHandle s d n h
  else request s d n i.d (BitVec.ofNat 64 (s.frameLen h)) (if s.quayBad h 100 2 then errUncorr else 0) true .other

/-- LD8 (R308). -/
def execLd8 (d : Fin 8) (n : Fin 384) (s : State) : Res := rolk s d n .ld8x (loadStep d n 1)
/-- LD16 (R308). -/
def execLd16 (d : Fin 8) (n : Fin 384) (s : State) : Res := rolk s d n .ld16x (loadStep d n 2)
/-- LD32 (R308). -/
def execLd32 (d : Fin 8) (n : Fin 384) (s : State) : Res := rolk s d n .ld32x (loadStep d n 4)
/-- LD64 (R308). -/
def execLd64 (d : Fin 8) (n : Fin 384) (s : State) : Res := rolk s d n .ld64x (loadStep d n 8)
/-- ST8 (R308). -/
def execSt8 (d : Fin 8) (n : Fin 384) (s : State) : Res := rolk s d n .st8x (storeStep d n 1)
/-- ST16 (R308). -/
def execSt16 (d : Fin 8) (n : Fin 384) (s : State) : Res := rolk s d n .st16x (storeStep d n 2)
/-- ST32 (R308). -/
def execSt32 (d : Fin 8) (n : Fin 384) (s : State) : Res := rolk s d n .st32x (storeStep d n 4)
/-- ST64 (R308). -/
def execSt64 (d : Fin 8) (n : Fin 384) (s : State) : Res := rolk s d n .st64x (storeStep d n 8)
/-- FLD (R309). -/
def execFld (d : Fin 8) (n : Fin 384) (s : State) : Res := rolk s d n .fldx (fldStep d n)
/-- FST (R309). -/
def execFst (d : Fin 8) (n : Fin 384) (s : State) : Res := rolk s d n .fstx (fstStep d n)
/-- FLEN (R309). -/
def execFlen (d : Fin 8) (n : Fin 384) (s : State) : Res := rolk s d n .flenx (flenStep d n)

end Sys2Proof.Machine
end

