-- ==== Sys2Proof/Machine/RolkUnits.lean ====
section
/-! DEFINITION. Rolk: unit requests, waits, ends of tickets, and the replies (spec/10 R310 to R320; spec/12 R351 to R360; spec/09 R276, R285 to R288). -/

namespace Sys2Proof.Machine

/-- A request of an instruction with a result and no error. -/
def answer (s : State) (d n : Nat) (i : RIns) (v : DWord) : State := request s d n i.d v 0 i.u .other
/-- A request that ends in an outcome of R302. -/
def outcome (s : State) (d n : Nat) (i : RIns) (c : Nat) : State := request s d n i.d (codeWord c) 0 i.u .other
/-- A request at a unit whose restart fails it, with its result, outcome or error (R276, R341). -/
def replyAt (k : PendKind) (s : State) (d n : Nat) (i : RIns) (v : DWord) (err : Nat) : State := request s d n i.d v err i.u k
/-- A request that ends in an error of R302. -/
def errorReply (s : State) (d n : Nat) (i : RIns) (c : Nat) : State := request s d n i.d 0 c i.u .other
/-- A TF_RANGE fault for an operand: DETAIL is its low 32 bits (R278; log 47). -/
def rangeFault (s : State) (d n : Nat) (x : DWord) : State := faultThread s d n tfRange (x.toNat % 2 ^ 32)

/-! Hashing. -/

/-- CRC32C of R310 over the top K bytes of gb. -/
def crcResult (k : Nat) (x y : DWord) : Nat := crc32cFeed (x.toNat % 2 ^ 32) ((beBytes 8 y.toNat).take k)
/-- CRC32C (R310). -/
def crcStep (d n : Nat) (i : RIns) (s : State) : State :=
  let t := s.thr d n
  answer s d n i (BitVec.ofNat 64 (crcResult i.c (t.get i.a) (t.get i.b)))

/-- HASH: K selects the table hash or the CRC-64 that starts at gc; field C holds K and names gc (R297, R310; log 48). -/
def hashStep (d n : Nat) (i : RIns) (s : State) : State :=
  let t := s.thr d n
  let l := beBytes 8 (t.get i.a).toNat ++ beBytes 8 (t.get i.b).toNat
  answer s d n i (BitVec.ofNat 64 (if i.c = 0 then s.fwtHash d l else digestFeed (t.get i.c).toNat l))

/-! Tasks. -/

/-- The slot count of R25 so far; it has slots in HELPER or SYNC, whose number the model does not keep, where the thread has waited (log 9). -/
def slotCount (s : State) (d n : Nat) : Nat × State :=
  if (s.thr d n).waited then
    let (v, t) := s.takeFree
    (v.toNat, t)
  else (min (2 ^ 18 - 1) (s.thr d n).since, s)

/-- The trace record of an end: 0 EMIT, 1 RETIRE, 2 TOHOST, 3 STAGE, 4 TDEFER, 5 TDONE, 6 TWAIT (R343). -/
def endRecord (s : State) (d n code : Nat) (tkt : Option (Nat × Nat)) : State :=
  let (c, u) := slotCount s d n
  let t := s.thr d n
  trace u d { kind := 1, thread := some n, list := t.list, pc := t.pc, tkt := tkt, arg := code * 2 ^ 18 + c % 2 ^ 18 }

/-- TWAIT: a task that is not a ticket ends; the thread waits, or becomes IDLE when it is disabled (R265, R311, R312). -/
def twaitStep (d n : Nat) (i : RIns) (s : State) : State :=
  let t := s.thr d n
  match t.ticket with
  | some k => faultThread s d n tfRange k
  | none =>
    let u := if t.task then endRecord s d n 6 none else s
    u.modThr d n (fun x =>
      if s.thrEn d n then { x with st := .twait, mask := t.get i.a, task := false }
      else { x with st := .idle, task := false, step := 0 })

/-- TDONE: the current task that is not a ticket ends; the MAX_SLOTS count restarts when it issues (R279, R312, R314). -/
def tdoneStep (d n : Nat) (i : RIns) (s : State) : State :=
  let t := s.thr d n
  match t.ticket with
  | some k => faultThread s d n tfRange k
  | none =>
    if s.unitDown d unitTdx then replyAt .tdx (s.modThr d n (fun x => { x with slots := 0, helped := false })) d n i 0 errRestart
    else
      let u := if t.task then endRecord s d n 5 none else s
      replyAt .tdx (u.modThr d n (fun x => { x with task := false, slots := 0, helped := false })) d n i 0 0

/-- The words of a task in the scratchpad (R313). -/
def State.padWords (s : State) (d k a n : Nat) : List DWord :=
  (List.range n).map (fun j => BitVec.ofNat 64 (beNat (s.padBytes d k (a + 8 * j) 8)))

/-- A task as a descriptor names it (R313). -/
def taskOf (desc : Nat) (args : List DWord) (key : DWord) (ticket : Option Nat) : Task :=
  { args := args, entry := bitsOf desc 14 0, list := bitsOf desc 20 15, key := key, ticket := ticket, held := none, waited := false }

/-- A TPOST to another die travels over the package fabric (R325). -/
def postRemote (s : State) (d n : Nat) (i : RIns) (dst delay : Nat) (t : Task) : State :=
  if dst ∉ s.liveDies then replyAt .tdx s d n i 0 errNoDie
  else
    let f : Flight := { id := s.tdx.nextId, src := thrKey d n, dst := dst, delay := delay, task := t }
    let u : State := { s with tdx := { s.tdx with flight := s.tdx.flight ++ [f], nextId := s.tdx.nextId + 1 } }
    request (postRec u d dst true (some n) t delay) d n i.d 0 0 i.u (.remote f.id)

/-- A TPOST to the own die (R314, R324, R335). -/
def postLocal (s : State) (d n : Nat) (i : RIns) (delay : Nat) (t : Task) : State :=
  let (c, u) := tryPost s d t delay
  if c = 0 then request (postRec (u.bump .TDX_POSTED d) d d false (some n) t delay) d n i.d 0 0 i.u .tdx
  else request u d n i.d 0 c i.u .tdx

/-- TPOST (R313, R314, R325). -/
def tpostStep (d n : Nat) (i : RIns) (s : State) : State :=
  let t := s.thr d n
  let desc := (t.get i.a).toNat
  let at_ := t.get i.b
  if bitsOf desc 31 25 ≠ 0 then rangeFault s d n (t.get i.a)
  else match padRead s d (clusterOf n) at_ 48 8 with
    | .bad c x => faultThread s d n c x
    | .good =>
      let task := taskOf desc (s.padWords d (clusterOf n) at_.toNat 6) (t.get i.c) none
      if s.unitDown d unitTdx then errorReply s d n i errRestart
      else if bitsOf desc 24 24 = 1 then postRemote s d n i (bitsOf desc 23 21) (bitsOf desc 63 32) task
      else postLocal s d n i (bitsOf desc 63 32) task

/-- The g1 and g2 of a ticket as first delivered (R131, R311). -/
def firstWords (t : Nat) (r : Rob) : List DWord :=
  [ BitVec.ofNat 64 (r.frame.handle % 2 ^ 40 + r.frame.len % 2 ^ 14 * 2 ^ 40 + r.frame.port * 2 ^ 54),
    BitVec.ofNat 64 (r.seq + r.flow * 2 ^ 32 + t * 2 ^ 51) ]

/-- The ticket of a thread goes to a new task on the own die (R311, R313, R314, R322). -/
def deferTicket (s : State) (d n : Nat) (i : RIns) (k : Nat) (r : Rob) (desc at_ : Nat) (key : DWord) : State :=
  let words := s.padWords d (clusterOf n) at_ 4
  let task := taskOf desc (firstWords k r ++ words) (if key = 0 then ticketKey r.flow else key) (some k)
  let delay := bitsOf desc 63 32
  let (c, u) := tryPost s d task delay
  if c = 0 then
    let v := postRec ((endRecord u d n 4 (some (r.flow, k))).bump .TDX_POSTED d) d d false (some n) task delay
    (request v d n i.d 0 0 i.u (.tdefer k)).modThr d n (fun x => { x with ticket := none })
  else request u d n i.d 0 c i.u .tdx

/-- TDEFER (R313, R314). -/
def tdeferStep (d n : Nat) (i : RIns) (s : State) : State :=
  let t := s.thr d n
  let desc := (t.get i.a).toNat
  match t.ticket with
  | none => faultThread s d n tfRange 0
  | some k =>
    if bitsOf desc 31 24 ≠ 0 then rangeFault s d n (t.get i.a)
    else match padRead s d (clusterOf n) (t.get i.b) 32 8 with
      | .bad c x => faultThread s d n c x
      | .good =>
        if s.unitDown d unitTdx then errorReply s d n i errRestart
        else match s.rob d k with
          | some r => deferTicket s d n i k r desc (t.get i.b).toNat (t.get i.c)
          | none => faultThread s d n tfRange k

/-! Buffers. -/

/-- BALLOC (R170, R315). -/
def ballocStep (d n : Nat) (i : RIns) (s : State) : State :=
  match allocBuf s d (regionOf n) i.c with
  | (some h, t) => request t d n i.d (BitVec.ofNat 64 h) 0 i.u (.balloc h)
  | (none, t) => outcome t d n i outEmpty

/-- A BFREE by a thread and its faults (R179, R182): the state after it, or the fault. -/
def threadFree (s : State) (d n h : Nat) (next : State → State) : State :=
  match bfree s d h (threadCloser n) with
  | (.done, t) => next t
  | (.bad, t) => faultThread t d n tfBadHandle (h % 2 ^ 32)
  | (.double, t) => faultThread t d n tfBadHandle (h % 2 ^ 32)
  | (.notCloser, t) => faultThread t d n tfNotCloser (h % 2 ^ 32)
  | (.early, t) => faultThread t d n tfEarlyClose (h % 2 ^ 32)

/-- BFREE (R182). -/
def bfreeStep (d n : Nat) (i : RIns) (s : State) : State :=
  threadFree s d n (handleOf ((s.thr d n).get i.a)) (fun t => answer t d n i 0)

/-- A closer value keeps its layout (R180). -/
def closerOk (c : Nat) : Bool :=
  decide (bitsOf c 13 9 = 0) &&
    (match bitsOf c 15 14 with
     | 0 => decide (bitsOf c 8 0 ≤ 383)
     | 1 => decide (1 ≤ bitsOf c 8 0) && decide (bitsOf c 8 0 ≤ 3)
     | 2 => decide (bitsOf c 8 0 = 0)
     | _ => false)

/-- BSHARE (R180, R181). -/
def bshareStep (d n : Nat) (i : RIns) (s : State) : State :=
  let t := s.thr d n
  let h := handleOf (t.get i.a)
  let count := (t.get i.b).toNat
  let closer := (t.get i.c).toNat % 65536
  if ¬ s.handleGood d h then badHandle s d n h
  else if count = 0 ∨ 65535 < count then rangeFault s d n (t.get i.b)
  else if ¬ closerOk closer then rangeFault s d n (t.get i.c)
  else match s.shareOf h with
    | some x =>
      if x.closer ≠ threadCloser n then faultThread s d n tfNotCloser (h % 2 ^ 32)
      else if 65535 < x.refs + count then rangeFault s d n (t.get i.b)
      else answer (s.setShare h { x with refs := x.refs + count }) d n i 0
    | none =>
      if 4096 ≤ s.shareUsed d then outcome (s.bump .BPM_SHARE_FULL d) d n i outShareFull
      else answer (s.setShare h { refs := count, closer := BitVec.ofNat 16 closer }) d n i 0

/-- An offset lies in a pool of class c of a die, whether or not it starts a buffer (R178). -/
def State.inAnyPool (s : State) (d c off : Nat) : Bool :=
  [c, 4 + c].any (fun p => decide (s.poolBase d p ≤ off) && decide (off < s.poolBase d p + s.poolCount d p * classSize c))

/-- BCHECK of a quay handle (R178, R179, R315; log 49). -/
def State.checkQuay (s : State) (d h : Nat) : DWord :=
  if s.dies ≤ hDie h then codeWord outSpace
  else if ¬ s.inAnyPool (hDie h) (hClass h) (hOff h) then codeWord outOffset
  else if (s.poolOf h).isNone then codeWord outMultiple
  else if ¬ s.allocated h then codeWord outNotAlloc
  else if hDie h ≠ d then codeWord outOtherDie
  else match s.shareOf h with
    | some x => BitVec.ofNat 64 (2 ^ 48 + x.closer.toNat * 2 ^ 32 + x.refs)
    | none => 1

/-- BCHECK of a staging segment handle by a thread of die d (R179, R203, R315; log 49). -/
def State.checkSeg (s : State) (d h : Nat) : DWord :=
  let j := hOff h / 32
  if s.dies ≤ hDie h then codeWord outSpace
  else if segTotal ≤ j then codeWord outOffset
  else if hOff h % 32 ≠ 0 then codeWord outMultiple
  else if hDie h ≠ j % s.dies then codeWord outSpace
  else if (mfind s.ssc.seg j).isNone then codeWord outNotAlloc
  else if hDie h ≠ d then codeWord outOtherDie
  else 0

/-- BCHECK (R315). -/
def bcheckStep (d n : Nat) (i : RIns) (s : State) : State :=
  let h := handleOf ((s.thr d n).get i.a)
  answer s d n i (if hSpace h = 1 then s.checkQuay d h else if hSpace h = 2 then s.checkSeg d h else codeWord outSpace)

/-! Tables. -/

/-- A table request: during a restart of the FWT it waits until the restart completes (R276, R457). -/
def tableRequest (s : State) (d n : Nat) (i : RIns) (q : LkpReq) : State :=
  if s.unitDown d unitFwt then request s d n i.d 0 0 i.u (.fwt q)
  else
    let (v, t) := tableNow s d q
    answer t d n i v

/-- LKP; field C holds K and names gc (R297, R316; log 48). -/
def lkpStep (d n : Nat) (i : RIns) (s : State) : State :=
  let t := s.thr d n
  let q : LkpReq := { k := i.c, a := t.get i.a, b := t.get i.b, c := t.get i.c, key := [] }
  if i.c = 2 then
    (match padRead s d (clusterOf n) q.b 40 8 with
     | .bad c x => faultThread s d n c x
     | .good => tableRequest s d n i { q with key := s.padBytes d (clusterOf n) q.b.toNat 40 })
  else if 5 ≤ i.c ∧ bitsOf q.a.toNat 18 16 ≠ d then rangeFault s d n q.a
  else if 5 ≤ i.c ∧ (56 < q.b.toNat ∨ q.b.toNat % 8 ≠ 0) then rangeFault s d n q.b
  else tableRequest s d n i q

/-- LRN (R316). -/
def lrnStep (d n : Nat) (i : RIns) (s : State) : State :=
  let t := s.thr d n
  let q : LkpReq := { k := 0, a := t.get i.a, b := t.get i.b, c := 0, key := [] }
  if ¬ s.isPort (d * 4 + bitsOf q.b.toNat 1 0) then rangeFault s d n q.b else tableRequest s d n i q

/-! Locks. -/

/-- A request that the SYU does not answer normally: out of range, or a unit restart (R276, R317). -/
def syuRequest (s : State) (d n : Nat) (i : RIns) (lim : Nat) (f : Nat → State) : State :=
  let x := (s.thr d n).get i.a
  if lim < x.toNat then rangeFault s d n x
  else if s.unitDown d unitSyu then replyAt .syu s d n i 0 errRestart
  else f x.toNat

/-- The thread stays at a wait that the SYU does not serve: a step is still to complete it, and the slots that pass in RUN meanwhile count, their number not kept (R279, R293; logs 9 and 50). -/
def stayAt (s : State) (d n : Nat) : State :=
  s.modThr d n (fun t => { t with step := if t.step = 2 then 1 else t.step, helped := t.helped || !s.exempt d n, waited := true })

/-- A wait on an object of the SYU: during a restart of the unit it is not served, and the thread stays at it (R276, R367; log 50). -/
def syuWait (s : State) (d n : Nat) (i : RIns) (lim : Nat) (f : Nat → State) : State :=
  let x := (s.thr d n).get i.a
  if lim < x.toNat then rangeFault s d n x
  else if s.unitDown d unitSyu then stayAt s d n
  else f x.toNat

/-- A wait that is satisfied at once: the slots of its minimum latency pass in RUN and count toward MAX_SLOTS, their number not kept (R279, R301; log 9). -/
def satisfied (s : State) (d n rd : Nat) (v : DWord) : State :=
  s.modThr d n (fun t => { t with helped := t.helped || !s.exempt d n }.done rd v)

/-- A thread that waits in SYNC (R265). -/
def waitOn (s : State) (d n rd : Nat) (w : WaitOn) (m : DWord) : State :=
  (markWait s d n).modThr d n (fun t => { t with st := .sync, wait := some w, rd := rd, mask := m, waited := true })

/-- LOCK (R352). -/
def lockStep (d n : Nat) (i : RIns) (s : State) : State :=
  syuWait s d n i 16383 (fun l =>
    let x := s.lock d l
    match x.holder with
    | none => satisfied (s.setLock d l { x with holder := some n }) d n i.d (BitVec.ofNat 64 (b2n x.abandoned))
    | some m =>
      if m = n then faultThread s d n tfRange l
      else waitOn ((s.setLock d l { x with waiters := x.waiters ++ [n] }).bump .SYU_LK_CONTEND d) d n i.d (.lock l) 0)

/-- TRYLOCK (R352). -/
def trylockStep (d n : Nat) (i : RIns) (s : State) : State :=
  syuRequest s d n i 16383 (fun l =>
    let x := s.lock d l
    match x.holder with
    | none => request (s.setLock d l { x with holder := some n }) d n i.d (BitVec.ofNat 64 (b2n x.abandoned)) 0 i.u (.grant l)
    | some m => if m = n then faultThread s d n tfRange l else replyAt .syu s d n i (codeWord outHeld) 0)

/-- UNLOCK (R352, R353). -/
def unlockStep (d n : Nat) (i : RIns) (s : State) : State :=
  syuRequest s d n i 16383 (fun l =>
    if (s.lock d l).holder = some n then replyAt .syu (passLock s d l) d n i 0 0 else replyAt .syu s d n i 0 errNotHeld)

/-- LKCLEAN (R352). -/
def lkcleanStep (d n : Nat) (i : RIns) (s : State) : State :=
  syuRequest s d n i 16383 (fun l =>
    let x := s.lock d l
    if x.holder = some n then replyAt .syu (s.setLock d l { x with abandoned := false }) d n i 0 0 else replyAt .syu s d n i 0 errNotHeld)

/-- A supervisor instruction: on any other thread it faults with TF_PRIV (R285). -/
def supervisorOnly (s : State) (d n : Nat) (t : State) : State :=
  if s.superOf d (clusterOf n) = some n then t else faultThread s d n tfPriv 0

/-- LKFORCE; same: with an UNLOCK of the lock in the same cycle, which wins (R317, R355, R368). -/
def lkforceStep (same : Bool) (d n : Nat) (i : RIns) (s : State) : State :=
  supervisorOnly s d n (syuRequest s d n i 16383 (fun l =>
    if (s.lock d l).holder.isSome ∧ ¬ same then replyAt .syu (forceLock s d l) d n i 0 0 else replyAt .syu s d n i (codeWord outWasFree) 0))

/-! Events and channels. -/

/-- EVWAIT (R356). -/
def evwaitStep (d n : Nat) (i : RIns) (s : State) : State :=
  syuWait s d n i 1023 (fun e =>
    let k := clusterOf n
    let x := s.ev d k e
    if x.count = 0 then waitOn (s.setEv d k e { x with waiters := x.waiters ++ [n] }) d n i.d (.event e) 0
    else satisfied (s.setEv d k e { x with count := x.count - 1 }) d n i.d (BitVec.ofNat 64 (x.count - 1)))

/-- EVSIG (R356). -/
def evsigStep (d n : Nat) (i : RIns) (s : State) : State :=
  syuRequest s d n i 1022 (fun e => replyAt .syu (signalEv s d (clusterOf n) e) d n i 0 0)

/-- CHPUT (R359). -/
def chputStep (d n : Nat) (i : RIns) (s : State) : State :=
  syuRequest s d n i 255 (fun c =>
    let t := s.thr d n
    if 8 ≤ t.staged.length then replyAt .syu s d n i 0 errStaging
    else if ¬ t.staged.isEmpty ∧ t.stagedCh ≠ c then replyAt .syu s d n i 0 errOtherCh
    else replyAt .syu (s.modThr d n (fun x => { x with staged := x.staged ++ [t.get i.b], stagedCh := c })) d n i 0 0)

/-- CHCLOSE (R358, R359). -/
def chcloseStep (d n : Nat) (i : RIns) (s : State) : State :=
  syuRequest s d n i 255 (fun c =>
    let t := s.thr d n
    if t.staged.isEmpty ∨ t.stagedCh ≠ c then replyAt .syu s d n i 0 errNoWords
    else if s.chFull d (clusterOf n) c t.staged.length then replyAt .syu (s.bump .SYU_CH_FULL d) d n i (codeWord outChFull) 0
    else replyAt .syu (commitMsg (s.modThr d n (fun x => { x with staged := [], stagedCh := 0 })) d (clusterOf n) c t.staged) d n i 0 0)

/-- CHGET (R360). -/
def chgetStep (d n : Nat) (i : RIns) (s : State) : State :=
  let a := (s.thr d n).get i.b
  match padAccess a 64 8 with
  | .bad c x => faultThread s d n c x
  | .good =>
    syuWait s d n i 255 (fun c =>
      let k := clusterOf n
      let x := s.chan d k c
      match x.msgs with
      | m :: r =>
        satisfied ((s.setChan d k c { x with msgs := r }).putPad d k a.toNat (wordBytes m)) d n i.d (BitVec.ofNat 64 m.length)
      | [] => waitOn (s.setChan d k c { x with waiters := x.waiters ++ [n] }) d n i.d (.channel c) a)

/-! Ends of tickets. -/

/-- The entry that g2 names, when it is PENDING or SKIPPED and holds its SEQ and FLOW (R236). -/
def State.namedEntry (s : State) (d : Nat) (g2 : DWord) : Option (Nat × Rob) :=
  let t := bitsOf g2.toNat 63 51
  match s.rob d t with
  | some r => if (r.st = .pending ∨ r.st = .skipped) ∧ r.seq = bitsOf g2.toNat 31 0 ∧ r.flow = bitsOf g2.toNat 50 32 then some (t, r) else none
  | none => none

/-- A destination word that EMIT or STAGE takes (R235, R236, R318). -/
def State.destOk (s : State) (x : DWord) (staging : Bool) : Bool :=
  let v := x.toNat
  decide (bitsOf v 63 40 = 0) && decide (bitsOf v 30 18 = 0) &&
    (if bitsOf v 31 31 = 1 then !staging && decide (bitsOf v 17 12 = 0) else s.queueOk (bitsOf v 17 0))

/-- The checks that EMIT, RETIRE, TOHOST and STAGE have in common: the entry, the operand, the handle, the ticket's own buffer (R179, R236, R237). -/
def endChecked (s : State) (d n : Nat) (i : RIns) (operandOk shareable : Bool) (next : Nat → Rob → State) : State :=
  let t := s.thr d n
  let h := handleOf (t.get i.a)
  match s.namedEntry d (t.get i.b) with
  | none => rangeFault s d n (t.get i.b)
  | some (k, r) =>
    if ¬ operandOk then rangeFault s d n (t.get i.c)
    else if ¬ s.handleGood d h then badHandle s d n h
    else if ¬ s.allocated r.frame.handle then badHandle s d n r.frame.handle
    else if ¬ shareable ∧ (s.shareOf r.frame.handle).isSome then rangeFault s d n (t.get i.a)
    else next k r

/-- A ticket ended by an instruction: its trace record, its entry, its reply (R234, R318, R343). -/
def endBy (s : State) (d n : Nat) (i : RIns) (code k : Nat) (r : Rob) (e : Ending) : State :=
  answer (endTicket (endRecord s d n code (some (r.flow, k))) d k e) d n i 0

/-- EMIT and STAGE (R236, R318). -/
def emitStep (staging : Bool) (d n : Nat) (i : RIns) (s : State) : State :=
  let x := (s.thr d n).get i.c
  let edit := bitsOf x.toNat 39 32
  endChecked s d n i (s.destOk x staging && s.editValid d edit) false (fun k r =>
    endBy s d n i (if staging then 3 else 0) k r (.emit (BitVec.ofNat 32 x.toNat) edit staging))

/-- RETIRE (R237, R318). -/
def retireStep (d n : Nat) (i : RIns) (s : State) : State :=
  endChecked s d n i true true (fun k r =>
    threadFree s d n r.frame.handle (fun t => endBy t d n i 1 k r (.retire true)))

/-- TOHOST: REASON 0 and CODE (R254, R318). -/
def tohostStep (d n : Nat) (i : RIns) (s : State) : State :=
  let x := ((s.thr d n).get i.c).toNat
  endChecked s d n i (decide (x < 65536)) false (fun k r => endBy s d n i 2 k r (.host 0 x))

/-! Phase and place, supervisor instructions. -/

/-- The values of PHASE (R319): the crossing, step and counts are those of the thread's die (R43, R44). -/
def State.phaseValue (s : State) (d n : Nat) : Nat → Nat
  | 0 => s.phi.st.code * 2 ^ 60 + s.xingOn d * 2 ^ 25 + s.stepOn d
  | 1 => s.ticksOn d
  | 2 => s.cntOn d
  | _ => b2n (decide (s.plt.lead = d)) * 2 ^ 48 + d * 2 ^ 40 + coreOf n * 2 ^ 32 + clusterOf n * 2 ^ 24 + n % 64 * 2 ^ 16 + n

/-- PHASE (R319). -/
def phaseStep (d n : Nat) (i : RIns) (s : State) : State := answer s d n i (BitVec.ofNat 64 (s.phaseValue d n i.c))

/-- CRA_THREAD_STAT of a thread (R296). -/
def State.threadStat (s : State) (d n : Nat) : Word :=
  let t := s.thr d n
  packWord [(29, t.st.code), (28, b2n t.ticket.isSome), (27, b2n (!t.staged.isEmpty)), (19, min 255 (s.locksHeld d n).length), (0, t.pc)]

/-- What SUPREAD returns for a selector, and the state: selector 35 takes the oldest record (R285). -/
def supValue (s : State) (d k m sel : Nat) : DWord × State :=
  let q := s.faultQ d k
  let b : Nat := match q with
    | r :: _ => r.bits.toNat
    | [] => 0
  if sel ≤ 32 then (s.dbgValue d m sel, s)
  else if sel = 33 then (BitVec.ofNat 64 (s.threadStat d m).toNat, s)
  else if sel = 34 then (BitVec.ofNat 64 b, s)
  else (BitVec.ofNat 64 (b / 2 ^ 64), s.setFaultQ d k (q.drop 1))

/-- The target of a supervisor instruction (R320): a cluster-local number. -/
def onTarget (s : State) (d n : Nat) (i : RIns) (own : Bool) (f : Nat → State) : State :=
  let x := (s.thr d n).get i.a
  let m := clusterOf n * 64 + x.toNat
  supervisorOnly s d n (if 63 < x.toNat ∨ (¬ own ∧ m = n) then rangeFault s d n x else f m)

/-- SUPREAD (R285, R320). -/
def supreadStep (d n : Nat) (i : RIns) (s : State) : State :=
  onTarget s d n i true (fun m =>
    let y := (s.thr d n).get i.b
    if 35 < y.toNat then rangeFault s d n y
    else
      let (v, t) := supValue s d (clusterOf n) m y.toNat
      answer t d n i v)

/-- SUPSTOP; same: in the cycle of a fault of its target (R285, R286, R295). -/
def supstopStep (same : Bool) (d n : Nat) (i : RIns) (s : State) : State :=
  onTarget s d n i false (fun m => answer (stopUnless s d m same) d n i 0)

/-- SUPRESTART (R285, R288). -/
def suprestartStep (d n : Nat) (i : RIns) (s : State) : State :=
  onTarget s d n i false (fun m => answer (restartThread s d m 0) d n i 0)

/-! Replies. -/

/-- HELPER_REPLY: the reply of an outstanding request arrives, with an uncorrectable error where uncorr says so; a table request that waited for the FWT is served now, and the answer to a remote TPOST comes from its target die first (R262, R276, R325). -/
def helperReply (s : State) (d n : Nat) (uncorr : Bool) : State :=
  let t := s.thr d n
  match t.pend with
  | none => s
  | some p =>
    if ¬ (t.st = .helper ∨ (t.st = .halted ∧ t.was = .helper)) ∨ p.arrived then s
    else
      let err := if uncorr then errUncorr else p.err
      match p.kind with
      | .remote _ => s
      | .fwt q =>
        if s.unitDown d unitFwt then s
        else
          let (v, u) := tableNow s d q
          replyThread u d n { p with value := v } err
      | _ => replyThread s d n p err

/-- HELPER_REPLY (R262). -/
def execHelperReply (d : Fin 8) (n : Fin 384) (uncorr : Bool) (s : State) : Res := onCra s d (helperReply s d n uncorr)

/-- CRC32C (R310). -/
def execCrc32c (d : Fin 8) (n : Fin 384) (s : State) : Res := rolk s d n .crc32cx (crcStep d n)
/-- HASH (R310). -/
def execHash (d : Fin 8) (n : Fin 384) (s : State) : Res := rolk s d n .hashx (hashStep d n)
/-- TWAIT (R311). -/
def execTwait (d : Fin 8) (n : Fin 384) (s : State) : Res := rolk s d n .twaitx (twaitStep d n)
/-- TDONE (R314). -/
def execTdone (d : Fin 8) (n : Fin 384) (s : State) : Res := rolk s d n .tdonex (tdoneStep d n)
/-- TPOST (R313). -/
def execTpost (d : Fin 8) (n : Fin 384) (s : State) : Res := rolk s d n .tpostx (tpostStep d n)
/-- TDEFER (R314). -/
def execTdefer (d : Fin 8) (n : Fin 384) (s : State) : Res := rolk s d n .tdeferx (tdeferStep d n)
/-- BALLOC (R315). -/
def execBalloc (d : Fin 8) (n : Fin 384) (s : State) : Res := rolk s d n .ballocx (ballocStep d n)
/-- BFREE (R182). -/
def execBfree (d : Fin 8) (n : Fin 384) (s : State) : Res := rolk s d n .bfreex (bfreeStep d n)
/-- BSHARE (R180). -/
def execBshare (d : Fin 8) (n : Fin 384) (s : State) : Res := rolk s d n .bsharex (bshareStep d n)
/-- BCHECK (R315). -/
def execBcheck (d : Fin 8) (n : Fin 384) (s : State) : Res := rolk s d n .bcheckx (bcheckStep d n)
/-- LKP (R316). -/
def execLkp (d : Fin 8) (n : Fin 384) (s : State) : Res := rolk s d n .lkpx (lkpStep d n)
/-- LRN (R316). -/
def execLrn (d : Fin 8) (n : Fin 384) (s : State) : Res := rolk s d n .lrnx (lrnStep d n)
/-- LOCK (R352). -/
def execLock (d : Fin 8) (n : Fin 384) (s : State) : Res := rolk s d n .lockx (lockStep d n)
/-- TRYLOCK (R352). -/
def execTrylock (d : Fin 8) (n : Fin 384) (s : State) : Res := rolk s d n .trylockx (trylockStep d n)
/-- UNLOCK (R352). -/
def execUnlock (d : Fin 8) (n : Fin 384) (s : State) : Res := rolk s d n .unlockx (unlockStep d n)
/-- LKCLEAN (R352). -/
def execLkclean (d : Fin 8) (n : Fin 384) (s : State) : Res := rolk s d n .lkcleanx (lkcleanStep d n)
/-- LKFORCE (R355). -/
def execLkforce (d : Fin 8) (n : Tied (Fin 384)) (s : State) : Res := rolk s d n.val .lkforcex (lkforceStep n.same d n.val)
/-- EVWAIT (R356). -/
def execEvwait (d : Fin 8) (n : Fin 384) (s : State) : Res := rolk s d n .evwaitx (evwaitStep d n)
/-- EVSIG (R356). -/
def execEvsig (d : Fin 8) (n : Fin 384) (s : State) : Res := rolk s d n .evsigx (evsigStep d n)
/-- CHPUT (R359). -/
def execChput (d : Fin 8) (n : Fin 384) (s : State) : Res := rolk s d n .chputx (chputStep d n)
/-- CHCLOSE (R359). -/
def execChclose (d : Fin 8) (n : Fin 384) (s : State) : Res := rolk s d n .chclosex (chcloseStep d n)
/-- CHGET (R360). -/
def execChget (d : Fin 8) (n : Fin 384) (s : State) : Res := rolk s d n .chgetx (chgetStep d n)
/-- EMIT (R236). -/
def execEmit (d : Fin 8) (n : Fin 384) (s : State) : Res := rolk s d n .emitx (emitStep false d n)
/-- RETIRE (R237). -/
def execRetire (d : Fin 8) (n : Fin 384) (s : State) : Res := rolk s d n .retirex (retireStep d n)
/-- TOHOST (R318). -/
def execTohost (d : Fin 8) (n : Fin 384) (s : State) : Res := rolk s d n .tohostx (tohostStep d n)
/-- STAGE (R318). -/
def execStage (d : Fin 8) (n : Fin 384) (s : State) : Res := rolk s d n .stagex (emitStep true d n)
/-- PHASE (R319). -/
def execPhase (d : Fin 8) (n : Fin 384) (s : State) : Res := rolk s d n .phasex (phaseStep d n)
/-- SUPREAD (R285). -/
def execSupread (d : Fin 8) (n : Fin 384) (s : State) : Res := rolk s d n .supreadx (supreadStep d n)
/-- SUPSTOP (R286). -/
def execSupstop (d : Fin 8) (n : Tied (Fin 384)) (s : State) : Res := rolk s d n.val .supstopx (supstopStep n.same d n.val)
/-- SUPRESTART (R288). -/
def execSuprestart (d : Fin 8) (n : Fin 384) (s : State) : Res := rolk s d n .suprestartx (suprestartStep d n)

end Sys2Proof.Machine
end

