-- ==== Sys2Proof/Machine/Exclude.lean ====
section
/-! DEFINITION. Exclusion of a die and what its partner takes over (spec/16 R468 to R476), the die links and the port islands (R478, R479). -/

namespace Sys2Proof.Machine

/-- Codes of GLB_DIE_CAUSE (R482). -/
def causeCode : DieCause → Nat
  | .start => 1
  | .heartbeat => 2
  | .supply => 3
  | .thermal => 4
  | .pilotRam => 5
  | .host => 6

/-! What die d held. -/

/-- A frame as the parse vector in its buffer describes it (R107). -/
def State.vectorFrame (s : State) (h arr : Nat) (m : Option Nat) : Frame :=
  let v := s.quayBytes h 0 128
  { handle := h, len := vecNat v 100 2, port := vecNat v 68 1, arr := arr, mirror := m }

/-- A waiting admission is of a copy that the handoff has already made. -/
def Hand.made (h : Hand) (a : Admit) : Bool := a.hand.isNone && decide (a.src = some h.id)

/-- A quay frame of a landing queue is a copy that the handoff has made. -/
def Hand.kept (h : Hand) (i : LQItem) : Bool := !i.staged && decide (i.src = some h.id)

/-- The admissions that a handoff's copy has made at its die and that still wait. -/
def State.copyWaits (s : State) (h : Hand) : List Admit := s.qba.admitQ.filter h.made

/-- The quay frames of landing queues that a handoff's copy has become. -/
def State.copyItems (s : State) (h : Hand) : List LQItem := s.qba.lq.flatMap (fun e => e.2.items.filter h.kept)

/-- The handoffs of a die to others that are not acknowledged: not yet taken, or copied with a copy still in the other die's quay (R245, R471; log 51). -/
def State.openHands (s : State) (d : Nat) : List Hand :=
  s.rsq.hand.filter (fun h => decide (h.src = d) && decide (h.dst ≠ d) && (!h.copied || s.handWaits h.id || !(s.copyWaits h).isEmpty || !(s.copyItems h).isEmpty))

/-- A copy's buffer and mirror are freed; a flood copy releases its reference (R246). -/
def freeCopy (s : State) (flood : Bool) (h : Nat) (m : Option Nat) : State := freeMirror (if flood then releaseShared s h else freeBuf s h) m

/-- The handoffs of a die to itself, for which flood copies wait (R246). -/
def State.ownHands (s : State) (d : Nat) : List Hand := s.rsq.hand.filter (fun h => decide (h.src = d) && decide (h.dst = d))

/-- The copy of a handoff is discarded where it still lies in the other die's quay: taken out of the waiting admissions and the landing queues, and freed (R471). -/
def dropCopies (s : State) (h : Hand) : State :=
  let p := h.made
  let r := h.kept
  let as := s.qba.admitQ.filter p
  let is := s.qba.lq.flatMap (fun e => e.2.items.filter r)
  let t : State := { s with qba := { s.qba with
    admitQ := s.qba.admitQ.filter (fun a => !p a)
    lq := (s.qba.lq.map (fun e => (e.1, e.2.keep (fun l => l.filter (fun i => !r i))))).filter (fun e => decide (e.2 ≠ {})) } }
  is.foldl (fun t i => freeCopy t i.flood i.handle i.mirror) (as.foldl (fun t a => freeCopy t a.flood a.handle a.mirror) t)

/-- Frames of a die that have been released and not been handed off, or wait for the host, each once (R245, R405). -/
def State.releasedFrames (s : State) (d : Nat) : List Frame :=
  ((s.qba.admitQ.filter (fun a => decide (a.die = d) && a.hand.isNone && a.src.isNone)).map (fun a => s.vectorFrame a.handle a.arr a.mirror)
    ++ (s.openHands d ++ s.ownHands d).map (fun h => s.vectorFrame h.handle h.arr h.mirror)
    ++ (s.gwe.excq.filter (fun e => e.die = d)).map (fun e => s.vectorFrame e.handle e.arr e.mirror)).eraseDups

/-- Frames of a die that hold an arrival number: in the parse queues, the engines, the classifier, the fragment table and the reorder buffer. -/
def State.numberedFrames (s : State) (d : Nat) : List Frame :=
  (mpick (fun k => k / 2 = d) s.prs.queue).flatMap (fun x => x.2)
    ++ (mpick (fun k => k / 16 = d) s.prs.eng).map (fun x => x.2.frame)
    ++ (mget [] s.cls.late d).map (fun x => x.frame)
    ++ (s.clsWait d).map (fun x => x.frame)
    ++ (mpick (fun k => k / 4096 = d) s.cls.frag).flatMap (fun x => x.2.held.map (fun y => y.1))
    ++ ((s.robList d).filter (fun x => decide (x.2.st ≠ .retired))).map (fun x => x.2.frame)

/-- A frame in its place by arrival number. -/
def insertArr (f : Frame) : List Frame → List Frame
  | [] => [f]
  | x :: r => if x.arr ≤ f.arr then x :: insertArr f r else f :: x :: r

/-- Received mirrors that the partner processes again, in arrival order: of frames of the die's own ports, neither handed off, retired nor sent to the host (R476). -/
def State.mirrored (s : State) (d : Nat) : List Frame :=
  ((s.releasedFrames d ++ s.numberedFrames d).foldr insertArr []).filter (fun f => decide (f.port / 4 = d) && f.mirror.isSome)

/-- The mirrors of the frames that a die holds or has handed off. -/
def State.mirrorsOf (s : State) (d : Nat) : List Nat :=
  ((s.releasedFrames d ++ s.numberedFrames d).filterMap (fun f => f.mirror)
    ++ (s.rsq.hand.filter (fun h => h.src = d)).filterMap (fun h => h.mirror)).eraseDups

/-- Landing queues whose quay frames lie on the die. -/
def State.queuesOn (s : State) (d : Nat) : List Nat := (s.qba.lq.map (·.1)).filter (fun q => s.server (queueDie q) = d)

/-! The steps of R471. -/

/-- Frames of the queues that had started and not left their edit engine are in their queues again, at the heads; frames of other queues only lose an engine of the die (R252). -/
def returnStarted (s : State) (d : Nat) (qs : List Nat) : State :=
  let back (w : WireFrame) : Bool := !w.left && qs.contains w.q
  let ws := s.cte.port.flatMap (fun e => e.2.wire.filter back)
  let keep (e : Nat × PortTx) : Nat × PortTx :=
    (e.1, { e.2 with wire := (e.2.wire.filter (fun w => !back w)).map (fun w => { w with engine := w.engine.filter (fun n => n / 4 ≠ d) }) })
  let t : State := { s with cte := { s.cte with port := (s.cte.port.map keep).filter (fun (e : Nat × PortTx) => decide (e.2 ≠ {})) } }
  ws.foldr (fun w t => t.modLq w.q (fun l => { l with items := w.item :: l.items })) t

/-- Handoffs from the die end: those not acknowledged are discarded and counted in PFB_HANDOFF_DISCARD (R471, R480; log 51). -/
def fenceHands (s : State) (d : Nat) : State :=
  let ids := (s.rsq.hand.filter (fun h => h.src = d)).map (fun h => h.id)
  let l := s.openHands d
  let t := (l.foldl dropCopies s).bumpN .PFB_HANDOFF_DISCARD d [] l.length
  { t with
    rsq := { t.rsq with hand := t.rsq.hand.filter (fun h => h.src ≠ d) }
    qba := { t.qba with admitQ := t.qba.admitQ.filter (fun a => !a.hand.any (fun i => ids.contains i)) } }

/-- Step 1 of R471: the fence. -/
def fenceDie (s : State) (d : Nat) (cause : DieCause) : State :=
  let t := fenceHands { s with icu := { s.icu with excl := Nat.lor s.icu.excl (2 ^ d) } } d
  let t := t.bumpN .PFB_FENCE_RX d [] (mget 0 s.icu.sinceBeat d)
  let t := t.setRf .GLB_DIE_CAUSE 0 [d] 31 28 (causeCode cause)
  (t.bumpGen .DIE_HEALTH 0).bumpGen .PFB_STATE d

/-- The quay frames of landing queues that a handoff's copies have become, each with its queue. -/
def State.copyPlaces (s : State) (h : Hand) : List (Nat × LQItem) := s.qba.lq.flatMap (fun e => (e.2.items.filter h.kept).map (fun i => (e.1, i)))

/-- A copy that stood in a landing queue, as an admission again, at die p. -/
def Hand.admitAgain (h : Hand) (p q : Nat) (i : LQItem) : Admit :=
  { die := p, hand := some h.id, q := q, handle := h.handle, len := i.len, edit := i.edit, flow := i.flow, force := h.force, flood := false, mirror := none, tick := i.tick, arr := h.arr }

/-- A copy made again takes the place in its queue that the lost one had, so that the queue keeps its order (R18, R255). -/
def readmit (s : State) (a : Admit) (i : LQItem) : State :=
  let l := (s.lq a.q).items
  let n := (l.takeWhile (fun x => x ≠ i)).length
  let t := admitOne (s.modLq a.q (fun x => { x with items := lrem i x.items })) a segTotal
  let m := (t.lq a.q).items
  if m.length = l.length then t.modLq a.q (fun x => { x with items := m.take n ++ m.drop (l.length - 1) ++ (m.take (l.length - 1)).drop n }) else t

/-- The copies of a flood's part are made again at die p by the rule of its copies (R246, R255): those that stood in landing queues take their places, those that waited wait. -/
def refloodTo (p : Nat) (h : Hand) (places : List (Nat × LQItem)) (ws : List Admit) (s : State) : State :=
  let as := places.map (fun x => h.admitAgain p x.1 x.2) ++ ws
  match as with
  | [] => s
  | a :: _ =>
    let f : Frame := { handle := h.handle, len := a.len, port := 0, arr := h.arr, mirror := h.mirror }
    let n := s.qba.admitQ.length
    let t := floodCopies s h.id f { a with die := p, hand := none, force := h.force, flood := false, src := some h.id } (as.map (·.q))
    let fresh := (t.qba.admitQ.drop n).take places.length
    let t : State := { t with qba := { t.qba with admitQ := t.qba.admitQ.take n ++ (t.qba.admitQ.drop n).drop places.length } }
    (fresh.zip places).foldl (fun t x => readmit t x.1 x.2.2) t

/-- A handoff to an excluded die goes to die p: one that waits, waits there; the copy of one not acknowledged is made again in its place (R255, R471). It counts once, whatever the number of its copies. ws: the admissions that waited at the die. -/
def resend (p : Nat) (ws : List Admit) (s : State) (h : Hand) : State :=
  let places := s.copyPlaces h
  let mine := ws.filter (fun a => decide (a.hand = some h.id) || h.made a)
  if places = [] ∧ mine = [] then s
  else
    let t : State := { s.bump .RSQ_HANDOFF_RETRY h.src with rsq := { s.rsq with hand := s.rsq.hand.map (fun x => if x.id = h.id then { x with dst := p, copied := h.flood } else x) } }
    let t := if h.flood then refloodTo p h places mine t
      else mine.foldl (fun t a => pushAdmit t { a with die := p }) (places.foldl (fun t x => readmit t (h.admitAgain p x.1 x.2) x.2) t)
    settleLocal t h.id

/-- Admissions that wait at the die for a handoff, or as copies of one that is not acknowledged (R245, R246). -/
def State.arriving (s : State) (d : Nat) : List Admit :=
  s.qba.admitQ.filter (fun a => decide (a.die = d) && (a.hand.isSome || s.rsq.hand.any (fun h => h.made a)))

/-- Handoffs to the die that are not acknowledged go to its partner, in the order in which they were made (R17, R18, R255, R471; log 51). ws: the admissions that waited at the die. -/
def redirectHands (s : State) (d : Nat) (ws : List Admit) : State :=
  let t : State := { s with qba := { s.qba with admitQ := s.qba.admitQ.filter (fun a => !(decide (a.die = d) && a.hand.isSome)) } }
  (s.rsq.hand.filter (fun h => decide (h.dst = d))).foldl (resend (partner d) ws) t

/-- Remote TPOSTs to the die return 0x82; its own are gone (R325, R471). -/
def answerPosts (s : State) (d : Nat) : State :=
  let t := (s.tdx.flight.filter (fun f => f.dst = d)).foldl (fun t f => answerPost t f errNoDie) s
  { t with tdx := { t.tdx with flight := t.tdx.flight.filter (fun f => decide (f.dst ≠ d) && decide (f.src / 384 ≠ d)) } }

/-- A frame of a landing queue behind an exclusion: a quay frame's admitted mirror becomes the frame where the partner takes over, one to be sent again keeps its place, or it is lost; a staged frame needs no mirror (R18, R192, R255, R476, R479). -/
def adoptItem (takes : Bool) (again : LQItem → Bool) (i : LQItem) : Option LQItem :=
  if i.staged then some { i with mirror := none }
  else match i.mirror.filter (fun _ => takes) with
    | some m => some { i with handle := m, mirror := none, flood := false, src := none }
    | none => if again i then some { i with mirror := none } else none

/-- The quay frames of the queues: adopted on die p, kept in their places where they are sent again, or lost (R255, R476, R479). Mirrors that become no frame are freed (R192). Returns the adopted. -/
def adoptQueues (s : State) (takes : Bool) (again : LQItem → Bool) (p : Nat) (qs : List Nat) : Nat × State :=
  let all := qs.flatMap (fun q => (s.lq q).items)
  let kept := if takes then countP' (fun i => !i.staged && i.mirror.isSome) all else 0
  let s := (all.filter (fun i => i.staged || !takes)).foldl (fun t i => freeMirror t i.mirror) s
  let t := qs.foldl (fun t q => t.modLq q (fun l => { l with items := l.items.filterMap (adoptItem takes again), deficit := 0 })) s
  (kept, t.bumpN .PFB_TWIN_RECOVERED p [] kept)

/-- Frames in the die's open segments, those not yet written among them, are dropped, counted in SSC_OPEN_LOST of the partner (R206, R229). -/
def dropOpen (s : State) (d p : Nat) : State :=
  let gone := (s.ssc.seg.filter (fun e => decide (e.2.owner = d) && decide (e.2.st ≠ .written))).map (·.1)
  let t := gone.foldl (fun t j =>
    match t.seg j with
    | none => t
    | some x =>
      let u := t.bumpN .SSC_OPEN_LOST p [] x.left
      freeSegment (u.takeStaged x.q j) j) s
  { t with ssc := { t.ssc with
      slots := t.ssc.slots.filter (fun e => e.1 ≠ d)
      borrowed := t.ssc.borrowed.map (fun e => if e.1 = d then (p, e.2) else e)
      seg := t.ssc.seg.map (fun e => if e.2.owner = d then (e.1, { e.2 with owner := p }) else e) } }

/-- Prefetched data of the die's queues is lost, and engines are given anew (R94, R252, R471). -/
def dropPrefetch (s : State) (qs : List Nat) : State :=
  assignEngines ((s.cte.pf.filter (fun x => qs.contains x.q)).foldl (fun (u : State) (x : Pf) => dropPf u x.q x.seg) s)

/-- A received mirror enters the partner's parse queues at their heads, behind those that entered before it: the next arrival number, the region of its lane (R104, R472, R476). -/
def reinject (p : Nat) : List Frame → State → State
  | [], s => s
  | f :: r, s =>
    let (n, t) := nextArrival s p
    let u := reinject p r t
    match f.mirror with
    | some m =>
      let g : Frame := { f with handle := m, mirror := none, arr := n }
      { u with prs := { u.prs with queue := mmod [] u.prs.queue (p * 2 + portRegion f.port) (fun l => g :: l) } }
    | none => u

/-- A mirrored task is adopted by die p, or discarded when its pool or delay list is full (R474). Returns whether it was adopted. -/
def adoptTask (s : State) (p : Nat) (t : Task) (e : Option Nat) : Bool × State :=
  let t : Task := { t with held := none, waited := false }
  let lost := s.bump .TDX_RESTART_DISCARD p
  match e with
  | none => if s.taskPool p < 8192 then (true, placeReady s p t) else (false, lost)
  | some e =>
    let i := t.list / 8
    if (s.delayList p i).length < s.rf .TDX_DL_LIMIT p [i] 16 0 ∧ s.delayPool p < 65536 then
      (true, s.setDelay p i (insertDelay { e := e, task := t } (s.delayList p i)))
    else (false, lost)

/-- The tasks other than tickets of a die, with their expiry. -/
def State.plainTasks (s : State) (d : Nat) : List (Task × Option Nat) :=
  let ready : List (Task × Option Nat) := (List.range 64).flatMap (fun l => (s.readyList d l).map (fun t => (t, none)))
  let late : List (Task × Option Nat) := (List.range 8).flatMap (fun i => (s.delayList d i).map (fun x => (x.task, some x.e)))
  (ready ++ late).filter (fun x => x.1.ticket.isNone)

/-- Tasks re-home to the partner (R474). -/
def rehome (p : Nat) : List (Task × Option Nat) → Nat → State → Nat × State
  | [], n, s => (n, s.bumpN .PFB_TASKS_REHOMED p [] n)
  | x :: r, n, s =>
    let (ok, t) := adoptTask s p x.1 x.2
    rehome p r (if ok then n + 1 else n) t

/-- Die p binds four of its free hardware contexts as the port fallback flows of die d's first lanes (R473). -/
def bindFallback (s : State) (d p : Nat) : State :=
  (List.range 4).foldl (fun t l =>
    match t.freeCtx p with
    | some c =>
      let u := t.modCtx p c (fun _ => {})
      { u with fwt := { u.fwt with bound := minsert (d * 4 + l) c u.fwt.bound } }
    | none => t) s

/-- What the die's compute region held is gone (R471, R474). -/
def purgeDie (s : State) (d : Nat) : State :=
  let t := emptyLists s d
  { t with
    prs := { t.prs with queue := mdrop (fun k => k / 2 = d) t.prs.queue, eng := mdrop (fun k => k / 16 = d) t.prs.eng }
    cls := { t.cls with wait := mdrop (fun k => k = d) t.cls.wait, late := mdrop (fun k => k = d) t.cls.late, frag := mdrop (fun k => k / 4096 = d) t.cls.frag }
    fwt := { t.fwt with
      l2 := mdrop (fun k => k / 32768 = d) t.fwt.l2, flow := mdrop (fun k => k / 229376 = d) t.fwt.flow, ctx := mdrop (fun k => k / 65536 = d) t.fwt.ctx, lpm := mdrop (fun k => k / 65536 = d) t.fwt.lpm
      cache := mdrop (fun k => k = d) t.fwt.cache, learnq := mdrop (fun k => k = d) t.fwt.learnq, flight := t.fwt.flight.filter (fun x => x.1 ≠ d), fetch := t.fwt.fetch.filter (fun x => x.1 ≠ d) }
    bpm := { t.bpm with quar := t.bpm.quar.filter (fun x => x / 8 ≠ d), share := mdrop (fun k => k / 0x2000000 = d) t.bpm.share }
    qba := { t.qba with admitQ := t.qba.admitQ.filter (fun a => !(decide (a.die = d) && a.hand.isNone)) }
    rsq := { t.rsq with rob := mdrop (fun k => k / 8192 = d) t.rsq.rob, gap := mdrop (fun k => k / 65536 = d) t.rsq.gap }
    cra := { t.cra with late := t.cra.late.filter (fun x => decide (x.1 ≠ d)), thr := mdrop (fun k => k / 384 = d) t.cra.thr, faultQ := mdrop (fun k => k / 6 = d) t.cra.faultQ, esc := t.cra.esc.filter (fun n => n / 384 ≠ d) }
    tdx := { t.tdx with aff := mdrop (fun k => k / 4096 = d) t.tdx.aff }
    syu := { t.syu with lock := mdrop (fun k => k / 16384 = d) t.syu.lock, ev := mdrop (fun k => k / 6144 = d) t.syu.ev, ch := mdrop (fun k => k / 1536 = d) t.syu.ch, watch := mdrop (fun k => k / 6 = d) t.syu.watch, marked := t.syu.marked.filter (fun e => e ≠ d) }
    gwe := { t.gwe with excq := t.gwe.excq.filter (fun e => e.die ≠ d) }
    icu := { t.icu with unit := t.icu.unit.filter (fun x => x.1 ≠ d) } }

/-- An election: the lead Pilot is that of the lowest healthy die; a change of lead is followed by LEAD_TAKEOVER (R413, R416, R432). Leads that follow each other before it are one change (log 51). -/
def elect (s : State) : State :=
  let l := s.liveDies.headD s.plt.lead
  let t := { s with plt := { s.plt with lead := l, leadMove := if l = s.plt.lead then s.plt.leadMove else some (s.plt.leadMove.getD s.plt.lead) } }
  t.bumpGen .PLT_STATE 0

/-- The ports of a die are idle and their banks count as link down (R479). -/
def idlePorts (s : State) (d : Nat) : State :=
  (List.range 4).foldl (fun t l =>
    let p := d * 4 + l
    if (t.lnk p).up then reportLink t p false else t.modPtx p (fun x => updateRound { x with link := false } [])) s

/-- Step 3: the partner serves the die's port island (R471, R482). -/
def takeOver (s : State) (d : Nat) : State :=
  let t := s.setRf .DIE_HEALTH 0 [] (8 + d) (8 + d) 1
  t.bumpGen .DIE_HEALTH 0

/-- The receiver die after the loss of a compute region (R45): the hot standby's phase is that of the inputs, so it is not skewed; the generation counts a change (R61). DESIGN CHOICE: with dies 0 and 1 both excluded, for which R45 names no receiver, die 0 keeps the place and the phase runs on (log 82). -/
def moveReceiver (s : State) (d : Nat) : State :=
  let rx : Bool := if b2n s.phi.rxDie = d then decide (d = 0) && !s.excluded 1 else s.phi.rxDie
  if rx = s.phi.rxDie then s
  else ({ s with phi := { s.phi with rxDie := rx, off := mset 0 s.phi.off (b2n rx) 0, skewed := s.phi.skewed.filter (fun e => e.1 ≠ b2n rx) } }).bumpGen .PHI_STATE 0

/-- A quay frame is the copy of a handoff to the die that goes on (R255, R471). -/
def State.resent (s : State) (d : Nat) (goes : Hand → Bool) (i : LQItem) : Bool := s.rsq.hand.any (fun h => decide (h.dst = d) && goes h && h.kept i)

/-- The same of a copy that waits for admission. -/
def State.resentWait (s : State) (d : Nat) (goes : Hand → Bool) (a : Admit) : Bool := s.rsq.hand.any (fun h => decide (h.dst = d) && goes h && h.made a)

/-- A flood copy of the die's own that waits for the ingress buffer (R246). -/
def State.ownWait (s : State) (d : Nat) (a : Admit) : Bool := (s.ownHands d).any (fun h => decide (a.hand = some h.id))

/-- The frames that a die's quay loses with it: those of its landing queues that are neither adopted nor copies of a handoff that goes on, goes: is sent again or counts as discarded, those that wait for admission, acknowledged flood copies among them, and those before their release or on their way to the host; not the frames processed again, nor handoffs that go on, which count for themselves (R21, R471, R479). -/
def State.quayLoss (s : State) (d : Nat) (takes : Bool) (goes : Hand → Bool) (again : List Frame) : Nat :=
  let lost (h : Nat) : Bool := !again.any (fun f => decide (f.handle = h))
  countP' (fun i => !i.staged && !(takes && i.mirror.isSome) && !s.resent d goes i) ((s.queuesOn d).flatMap (fun q => (s.lq q).items))
    + countP' (fun a => decide (a.die = d) && (a.hand.isNone || s.ownWait d a) && !s.resentWait d goes a && lost a.handle) s.qba.admitQ
    + countP' (fun f => lost f.handle) (s.numberedFrames d)
    + countP' (fun e => decide (e.die = d) && lost e.handle) s.gwe.excq

/-- What a partner that takes the die over goes on with: step 3, the frames processed again and the tasks of steps 4 and 6 (R471 to R476). Returns the tasks re-homed. -/
def adoptDie (s : State) (d : Nat) (again : List Frame) (tasks : List (Task × Option Nat)) : Nat × State :=
  let p := partner d
  let t := (reinject p again (takeOver s d)).bumpN .PFB_REINJECT p [] again.length
  let (n, t) := rehome p tasks 0 t
  (n, bindFallback t d p)

/-- No partner takes the die over: its ports idle, and with the partner excluded too the partner's ports, which it served (R478, R479, R497). -/
def loseDie (s : State) (d : Nat) : State :=
  let p := partner d
  idlePorts (if s.excluded p then idlePorts (s.setRf .DIE_HEALTH 0 [] (8 + p) (8 + p) 0) p else s) d

/-- Steps 2 to 6 of R471 for a die that is fenced; s: the state at the fence, before it. Returns the arguments of EV_DIE_EXCLUDED that count (R481). -/
def settleDie (s t : State) (d : Nat) : List Nat × State :=
  let p := partner d
  let qs := s.queuesOn d
  let live : Bool := !t.excluded p
  let takes : Bool := live && !t.partnerDown d
  let ws := (t.arriving d).filter (fun a => live || a.hand.isSome)
  let goes (h : Hand) : Bool := decide (h.src ≠ d) && (live || t.excluded h.src)
  let again := if takes then s.mirrored d else []
  let free := (s.mirrorsOf d).filter (fun m => !again.any (fun f => decide (f.mirror = some m)))
  let t := free.foldl (fun t m => freeMirror t (some m)) (answerPosts t d)
  let (kept, t) := adoptQueues t takes (t.resent d (fun _ => live)) p qs
  let t := redirectHands (purgeDie (dropPrefetch (dropOpen t d p) qs) d) d ws
  let (n, t) : Nat × State := if takes then adoptDie t d again (s.plainTasks d) else (0, loseDie t d)
  ([s.quayLoss d takes goes again, mget 0 s.icu.sinceBeat d, kept, again.length, n], moveReceiver (loseStack t d .exclusion) d)

/-- The package is up: it has started and is not held in the RESET of a cold reset (R439, R468). -/
def State.isUp (s : State) : Bool := decide (s.glb.mode ≠ .reset) || s.glb.warm.isSome

/-- The exclusion of dies that cease to be healthy in one cycle, steps 1 to 7 of R471, completed within the command (log 51): every fence first, then each die, then one election (R430, R480). -/
def excludeAll (s : State) (l : List (Nat × DieCause)) : State :=
  let s := l.foldl (fun t x => returnStarted t x.1 (t.queuesOn x.1)) s
  let t := l.foldl (fun t x => fenceDie t x.1 x.2) s
  let (evs, t) := l.foldl (fun (a : List (Nat × DieCause × List Nat) × State) x =>
    let (n, u) := settleDie s a.2 x.1
    (a.1 ++ [(x.1, x.2, n)], u)) ([], t)
  evs.foldl (fun t x => t.raiseEv 0x8004 x.1 (t.gen .DIE_HEALTH 0) ([x.1, causeCode x.2.1, partner x.1, t.plt.lead] ++ x.2.2)) (elect t)

/-- The exclusion of one die. -/
def excludeNow (s : State) (d : Nat) (cause : DieCause) : State := excludeAll s [(d, cause)]

/-- A die that ceases to be healthy is excluded, once (R468). -/
def excludeDie (s : State) (d : Nat) (cause : DieCause) : State := if s.excluded d ∨ ¬ s.isUp then s else excludeNow s d cause

/-- The dies of a list that are present and healthy, each with the first cause given for it. -/
def State.falling (s : State) : List (Nat × DieCause) → List (Nat × DieCause)
  | [] => []
  | x :: r => if x.1 < s.dies ∧ ¬ s.excluded x.1 then x :: (s.falling r).filter (fun y => y.1 ≠ x.1) else s.falling r

/-! Temperatures (R516, R517). -/

/-- Codes of the sensors (R523). -/
def sensorCode : Sensor → Nat
  | .compute => 0
  | .island => 1
  | .hbm => 2

/-- Trip levels (R517). -/
def tripLevel : Sensor → Int
  | .compute => 115
  | .island => 120
  | .hbm => 105

/-- A temperature as an 8-bit field. -/
def tempByte (t : Int) : Nat := (t % 256).toNat

/-- An 8-bit field as a temperature. -/
def byteTemp (n : Nat) : Int := if n < 128 then (n : Int) else (n : Int) - 256

/-- A reading is kept; a compute reading raises GLB_TEMP.MAX (R524). -/
def noteTemp (s : State) (d : Nat) (x : Sensor) (temp : Int) : State :=
  let t : State := { s with glb := { s.glb with temps := mset 0 s.glb.temps (d * 3 + sensorCode x) temp } }
  if x = .compute ∧ byteTemp (t.rf .GLB_TEMP 0 [d] 7 0) < temp then t.setRf .GLB_TEMP 0 [d] 7 0 (tempByte temp) else t

/-- The sensors of a die that work: not the compute sensor of an excluded die (R469, R524). -/
def State.senses (s : State) (d : Nat) (x : Sensor) : Bool := s.isUp && !(s.excluded d && x == .compute)

/-- The readings of a list that trip: of dies that are present, sensors that work, and above their levels (R517). -/
def State.tripping (s : State) (l : List DieTrip) : List DieTrip :=
  l.filter (fun x => decide (x.die.val < s.dies) && s.senses x.die x.sensor && decide (tripLevel x.sensor < x.temp))

/-- What every trip does: the reading, THERMTRIP_N, GLB_THERM_STAT, EV_THERMTRIP with the phase at its die (R415, R517). -/
def noteTrip (s : State) (x : DieTrip) : State :=
  let t := noteTemp s x.die x.sensor x.temp
  let t : State := { t with glb := { t.glb with tripPin := true } }
  let t := (t.setRf .GLB_THERM_STAT 0 [] x.die x.die 1).bumpGen .GLB_THERM_STAT 0
  t.raiseAt x.die 0x8007 pkg (t.gen .GLB_THERM_STAT 0) [x.die, sensorCode x.sensor, arg32 x.temp]

/-- The cause code of a fall. -/
def fallCause : FallCause → DieCause
  | .heartbeat => .heartbeat
  | .supply => .supply
  | .pilotRam => .pilotRam

/-- What falls in one cycle: every trip is reported, the dies that cease to be healthy are excluded together with those whose compute regions trip, and a stack that trips is lost (R430, R468, R480, R517). -/
def fallTogether (s : State) (first : List (Nat × DieCause)) (x : SameCycle) : State :=
  let hits := s.tripping x.trips
  let t := hits.foldl noteTrip s
  let l := s.falling (first ++ x.also.map (fun y => (y.1.val, fallCause y.2)) ++ (hits.filter (fun y => y.sensor == .compute)).map (fun y => (y.die.val, .thermal)))
  let t := if l = [] ∨ ¬ s.isUp then t else excludeAll t l
  (hits.filter (fun y => y.sensor == .hbm)).foldl (fun t y => loseStack t y.die .controller) t

/-- Dies that cease to be healthy in one cycle (R430, R468, R480). -/
def loseDies (s : State) (x : DieLoss) (cause : DieCause) : State := fallTogether s [(x.die.val, cause)] x.toSameCycle

/-- HEARTBEAT (R468). -/
def execHeartbeat (d : Fin 8) (s : State) : Res :=
  onDie s d (if s.excluded d then s else { s with icu := { s.icu with sinceBeat := mset 0 s.icu.sinceBeat d 0 } })

/-- HEARTBEAT_LOSS, with what falls in the same cycle (R430, R471). -/
def execHeartbeatLoss (x : DieLoss) (s : State) : Res := onDie s x.die (loseDies s x .heartbeat)

/-- A write of GLB_DIE_CTL (R470, R482); an excluded die stays as it is (R480). -/
def wrDieCtl (s : State) (w : Word) : Ans :=
  let d := fld w 2 0
  if ¬ genOk (fld w 31 16) (s.gen .DIE_HEALTH 0) then (.stale, s)
  else if ¬ bit w 3 then (.ok, s)
  else if s.dies ≤ d then (.badaddr, s)
  else if s.excluded (partner d) ∨ s.liveDies = [d] then (.denied, s)
  else if s.excluded d then (.ok, s)
  else (.ok, excludeDie s d .host)

/-- A host exclusion that meets a missed heartbeat or a trip of the same die does nothing (R480, R522). -/
def hostExclude (s : State) (w : Word) (same : Bool) : Ans := if same ∧ s.excluded (fld w 2 0) then (.ok, s) else wrDieCtl s w

/-- HOST_DIE_EXCLUDE; same: in the cycle in which the die's heartbeat is missed or its compute region trips (R470, R480, R522). -/
def execHostDieExclude (w : Tied Word) (s : State) : Res := hostWr s (fun s => hostExclude s w.val w.same)

/-- DIE_SUPPLY_FAULT (R507). -/
def execDieSupplyFault (x : DieLoss) (s : State) : Res := onDie s x.die (loseDies s x .supply)

/-- PILOT_RAM_ERROR (R468). -/
def execPilotRamError (x : DieLoss) (s : State) : Res := onDie s x.die (loseDies s x .pilotRam)

/-! Die links and port islands. -/

/-- The die at the other end of link l of a die (R30, R484). -/
def State.linkEnd (s : State) (d l : Nat) : Option Nat :=
  if l = 0 then some (partner d)
  else if l ≤ 2 then (if 2 ≤ d then some (d - 2) else none)
  else if d + 2 < s.dies then some (d + 2) else none

/-- Key of a physical die link, as both of its ends name it. -/
def linkKey (d l : Nat) : Nat :=
  if l = 0 then min d (partner d) * 8 else if l ≤ 2 then (d - 2) * 8 + (l + 2) else d * 8 + l

/-- Lanes of a die link that still work, spares included (R478, R484). -/
def State.linkLanes (s : State) (d l : Nat) : Nat := 34 - (mget {} s.icu.link (linkKey d l)).lost

/-- State of a die link: 0 full, 1 narrowed, 2 down, 3 absent (R484). -/
def State.linkState (s : State) (d l : Nat) : Nat :=
  if (s.linkEnd d l).isNone then 3
  else if s.linkLanes d l = 0 then 2 else if s.linkLanes d l < 32 then 1 else 0

/-- LANE_FAIL: a spare takes the lane's place while there is one; a change of the link's state is reported (R478, R481, R484). -/
def laneFail (s : State) (d l : Nat) : State :=
  match s.linkEnd d l with
  | none => s
  | some e =>
    if s.linkLanes d l = 0 then s
    else
      let t := { s with icu := { s.icu with link := mmod {} s.icu.link (linkKey d l) (fun x => { x with lost := x.lost + 1, spares := min 2 (x.spares + 1) }) } }
      if t.linkState d l = s.linkState d l then t
      else
        let t := (t.bumpGen .PFB_STATE d).bumpGen .PFB_STATE e
        t.raiseEv 0x0F01 d (t.gen .PFB_STATE d) [d, l, t.linkState d l, t.linkLanes d l]

/-- LANE_FAIL (R478). -/
def execLaneFail (d : Fin 8) (l : Fin 5) (s : State) : Res := onDie s d (laneFail s d l)

/-- FLIT_RETRY (R478). -/
def execFlitRetry (d : Fin 8) (l : Fin 5) (s : State) : Res :=
  onDie s d (if s.linkState d l < 2 then s.bump .PFB_FLIT_RETRY d else s)

/-- PORT_ISLAND_LOST: the island's ports go down, and its banks wait (R95, R479). -/
def execPortIslandLost (d : Fin 8) (s : State) : Res :=
  onDie s d (idlePorts { s with lpx := { s.lpx with lost := ladd d.val s.lpx.lost } } d)

end Sys2Proof.Machine
end

