-- ==== Sys2Proof/Machine/Icu.lean ====
section
/-! DEFINITION. Check codes, scrubbing and repair (spec/16 R462 to R467, spec/14 R422). -/

namespace Sys2Proof.Machine

/-! Uncorrectable errors by memory code (R462). Each function answers the outcome of EV_ECC_UNCORR (0 repaired, 1 object lost, 2 frame dropped) and the state; the address or index of each memory is the model's (log 52). -/

/-- The buffer of a die that holds a quay offset. -/
def State.bufferAt (s : State) (d off : Nat) : Option (Nat × Nat) :=
  (List.range 8).findSome? (fun i =>
    let b := s.poolBase d i
    let z := classSize (i % 4)
    if b ≤ off ∧ off < b + s.poolCount d i * z then some (i, mkHandle d (i % 4) (b + (off - b) / z * z)) else none)

/-- Code 1, a quay word: a frame's word is bad until the next unit reads it; a free-list link quarantines its pool, and is bad until the pool is rebuilt (R175, R176, R462). -/
def eccQuay (s : State) (d a : Nat) : Nat × State :=
  match s.bufferAt d (a * 8) with
  | some (i, h) =>
    if s.allocated h then (2, { s with bpm := { s.bpm with bad := ladd (d * 0x400000 + a) s.bpm.bad } })
    else if hOff h = a * 8 then
      let t : State := { s with bpm := { s.bpm with bad := ladd (d * 0x400000 + a) s.bpm.bad } }
      (0, if s.quarantined d i then t else t.quarantine d i (s.link h))
    else (0, s)
  | none => (0, s)

/-- Code 2, an 8-byte scratchpad word (R272). -/
def eccPad (s : State) (d a : Nat) : Nat × State :=
  if a / 32768 < 6 then (1, { s with cra := { s.cra with padBad := ladd (padKey d (a / 32768) (a % 32768 * 8) / 8) s.cra.padBad } }) else (0, s)

/-- Code 3, a program store word (R269). -/
def eccPs (s : State) (d a : Nat) : Nat × State :=
  if a / 32768 < 6 then
    (if (s.psGood d (a / 32768) (a % 32768)).isSome then 0 else 1, { s with cra := { s.cra with psBad := ladd (psKey d (a / 32768) (a % 32768)) s.cra.psBad } })
  else (0, s)

/-- Another healthy die's entry with the same key as a static entry (R464). -/
def State.staticCopyL2 (s : State) (d : Nat) (e : L2Ent) : Option L2Ent :=
  (s.liveDies.filter (fun k => k ≠ d)).findSome? (fun k =>
    ((mpick (fun n => n / 32768 = k) s.fwt.l2).find? (fun x => x.2.keyIs (mfld e.word 107 96) (mfld e.word 95 48) && x.2.isStatic && decide ((k, x.1 % 32768) ∉ s.icu.staticBad))).map (·.2))

/-- The same for a flow-key entry. -/
def State.staticCopyFlow (s : State) (d : Nat) (e : FlowEnt) : Option FlowEnt :=
  (s.liveDies.filter (fun k => k ≠ d)).findSome? (fun k =>
    ((mpick (fun n => n / 229376 = k) s.fwt.flow).find? (fun x => decide (x.2.profile = e.profile) && decide (x.2.key = e.key) && x.2.isStatic && decide ((k, 32768 + x.1 % 229376) ∉ s.icu.staticBad))).map (·.2))

/-- Code 5, an entry of the hash SRAM: an L2 slot, or 32,768 and the flow-key slot (R462, R464). -/
def eccHash (s : State) (d a : Nat) : Nat × State :=
  let wait : State := { s with icu := { s.icu with staticBad := ladd (d, a) s.icu.staticBad } }
  if a < 32768 then
    match s.l2At d a with
    | some e => if e.isStatic then (if (s.staticCopyL2 d e).isSome then (0, wait) else (1, s.dropL2 d a)) else (1, bumpFwt (s.dropL2 d a) d)
    | none => (0, s)
  else
    match s.flowAt d (a - 32768) with
    | some e => if e.isStatic ∧ (s.staticCopyFlow d e).isSome then (0, wait) else (1, bumpFwt (dropFlow s d (a - 32768)) d)
    | none => (0, s)

/-- A TCAM or LPM entry takes no part in matching until it is restored (R463). -/
def failEntry (s : State) (d i : Nat) : State :=
  if (d, i) ∈ s.icu.stuck then s else { s with icu := { s.icu with restoring := ladd (d, i) s.icu.restoring } }

/-- Code 8, a timetable word: its entry waits for its restore (R462). -/
def eccTt (s : State) (d a : Nat) : Nat × State := (0, { s with cte := { s.cte with bad := ladd (d * 0x1000000 + a * 4 / 16 * 16) s.cte.bad } })

/-- Code 10, a reorder buffer entry (R234). -/
def eccRob (s : State) (d t : Nat) : Nat × State :=
  match s.rob d t with
  | none => (0, s)
  | some r => (if r.st = .emitted ∨ r.st = .hosted then 2 else 1, robError s d t)

/-- A discarded task: counted, and a ticket retired through its entry (R462). -/
def loseTask (s : State) (d : Nat) (t : Task) : State :=
  let u := s.bump .ICU_CTRL_LOST d
  match t.ticket with
  | some k => retireTicket u d k
  | none => u

/-- Code 11: a ready task in list order, 65,536 and a delayed task in list order, or 131,072 and an affinity entry. -/
def eccTdx (s : State) (d a : Nat) : Nat × State :=
  let ready : List (Nat × Task) := (List.range 64).flatMap (fun l => (s.readyList d l).map (fun t => (l, t)))
  let late : List (Nat × DTask) := (List.range 8).flatMap (fun l => (s.delayList d l).map (fun t => (l, t)))
  if a < 65536 then
    match ready[a]? with
    | some (l, t) => (1, loseTask (s.setReady d l (lrem t (s.readyList d l))) d t)
    | none => (0, s)
  else if a < 131072 then
    match late[a - 65536]? with
    | some (l, t) => (1, loseTask (s.setDelay d l (lrem t (s.delayList d l))) d t.task)
    | none => (0, s)
  else (1, { s with tdx := { s.tdx with aff := mdrop (fun k => k = d * 4096 + (a - 131072) % 4096) s.tdx.aff } })

/-- Code 12: a lock, 16,384 and cluster × 1,024 + event, or 22,528 and place of the message in its channel × 1,536 + cluster × 256 + channel. -/
def eccSyu (s : State) (d a : Nat) : Nat × State :=
  if a < 16384 then (1, abandonLock s d a)
  else if a < 22528 then
    let k := (a - 16384) / 1024
    let e := (a - 16384) % 1024
    (1, s.setEv d k e { s.ev d k e with count := 0 })
  else
    let k := (a - 22528) % 1536 / 256
    let c := (a - 22528) % 256
    let i := (a - 22528) / 1536
    let x := s.chan d k c
    if i < x.msgs.length then (1, (s.setChan d k c { x with msgs := x.msgs.eraseIdx i }).bump .SYU_CH_DISCARD d) else (0, s)

/-- A reserved slot goes with its dropped request (DEDUCED, log 52). -/
def dropLearnReq (s : State) (d : Nat) : LearnReq → State
  | .insert slot dom mac _ =>
    match s.l2At d slot with
    | some e => if e.pend ∧ e.keyIs dom.toNat mac.toNat then s.dropL2 d slot else s
    | none => s
  | _ => s

/-- Code 13: a fragment entry, or 4,096 and a place in the learn queue. -/
def eccFrag (s : State) (d a : Nat) : Nat × State :=
  if a < 4096 then
    match mfind s.cls.frag (d * 4096 + a) with
    | some x => (1, expireHeld s d a x)
    | none => (0, s)
  else
    match (s.learnQ d)[a - 4096]? with
    | some r => (1, ((dropLearnReq s d r).setLearnQ d ((s.learnQ d).eraseIdx (a - 4096))).bump .FWT_LQ_DROP d)
    | none => (0, s)

/-- Number of a TCAM or LPM entry in the lists of entries that match nothing. -/
def entryNo (lpm : Bool) (i : Nat) : Nat := if lpm then 8192 + i % 65536 else i % 8192

/-- The word has been found before and not been repaired: it counts once (R466). -/
def State.eccKnown (s : State) (d mem a : Nat) : Bool :=
  match mem with
  | 1 => decide (d * 0x400000 + a ∈ s.bpm.bad)
  | 2 => decide (padKey d (a / 32768) (a % 32768 * 8) / 8 ∈ s.cra.padBad)
  | 3 => s.psIsBad d (a / 32768) (a % 32768)
  | 5 => decide ((d, a) ∈ s.icu.staticBad)
  | 6 => decide ((d, entryNo false a) ∈ s.icu.restoring) || decide ((d, entryNo false a) ∈ s.icu.stuck)
  | 7 => decide ((d, entryNo true a) ∈ s.icu.restoring) || decide ((d, entryNo true a) ∈ s.icu.stuck)
  | 8 => decide (d * 0x1000000 + a * 4 / 16 * 16 ∈ s.cte.bad)
  | _ => false

/-- The effect of an uncorrectable error in an SRAM. -/
def eccEffect (s : State) (d mem a : Nat) : Nat × State :=
  match mem with
  | 1 => eccQuay s d a
  | 2 => eccPad s d a
  | 3 => eccPs s d a
  | 5 => eccHash s d a
  | 6 => (0, failEntry s d (entryNo false a))
  | 7 => (0, failEntry s d (entryNo true a))
  | 8 => eccTt s d a
  | 10 => eccRob s d a
  | 11 => eccTdx s d a
  | 12 => eccSyu s d a
  | 13 => eccFrag s d a
  | _ => (0, s)

/-- An uncorrectable error in an SRAM of a die (R462). -/
def sramError (s : State) (d mem a : Nat) : State :=
  if s.eccKnown d mem a then s
  else
    let (o, t) := eccEffect s d mem a
    eccReport (t.bump .ICU_SRAM_UNCORR d) d mem a o

/-! The microcode store. -/

/-- MCS_LAST_ERR (R433). -/
def mcsLast (s : State) (d kind a : Nat) : State := s.setReg .MCS_LAST_ERR d [] (packWord [(14, kind), (0, a)])

/-- A good copy of an MCS word exists: on another die, or in the ROM for a vendor word that no patch has changed (R422). -/
def State.mcsCopy (s : State) (d a : Nat) : Bool :=
  (s.liveDies.filter (fun e => e ≠ d)).any (fun e => !s.mcsIsBad e a) || (decide (a < 0x3000) && decide (a ∉ s.plt.vendor))

/-- A scrub of an MCS word that finds so many wrong bits (R422). -/
def mcsFound (s : State) (d a bits : Nat) : State :=
  if bits = 0 ∨ s.mcsIsBad d a then s
  else if bits = 1 then mcsLast (s.bump .MCS_ECC1 d) d 1 a
  else if bits = 2 then mcsLast (s.bump .MCS_ECC2 d) d 2 a
  else
    let t : State := { s with plt := { s.plt with mcsBad := s.plt.mcsBad ++ [(d, a)] } }
    eccReport (mcsLast (t.bump .MCS_UNCORR d) d 3 a) d 4 a (if s.mcsCopy d a then 0 else 1)

/-- MCS_SCRUB (R422). -/
def execMcsScrub (d : Fin 8) (a : Fin 16384) (bits : Nat) (s : State) : Res := onDie s d (if s.excluded d then s else mcsFound s d a bits)

/-- A repair of an MCS word; without a good copy the die's Pilot reports it (R415, R422). -/
def mcsRepair (s : State) (d a : Nat) : State :=
  if s.mcsIsBad d a then
    if s.mcsCopy d a then ({ s with plt := { s.plt with mcsBad := lrem (d, a) s.plt.mcsBad } } : State).bump .MCS_REPAIR d
    else s.raiseAt d 0x8202 pkg (s.gen .PLT_STATE 0) [d, a]
  else s

/-- MCS_REPAIR (R422). -/
def execMcsRepair (d : Fin 8) (a : Fin 16384) (s : State) : Res := onDie s d (if s.excluded d then s else mcsRepair s d a)

/-! The scrubber. -/

/-- What the scrubber of a die finds in an SRAM word; memory 0 stands for the end of a complete pass (R462, R465; log 52). -/
def sramScrub (s : State) (d : Nat) (f : EccFind) : State :=
  if f.mem = 0 then s.bump .ICU_SCRUB_PASSES d
  else if f.mem = 4 then mcsFound s d (f.addr % 16384) (if f.corrected then 1 else 3)
  else if 13 < f.mem then s
  else if f.corrected then s.bump .ICU_SRAM_CORR d
  else sramError s d f.mem f.addr

/-- SRAM_SCRUB (R465). -/
def execSramScrub (d : Fin 8) (f : EccFind) (s : State) : Res := onCra s d (if s.excluded d then s else sramScrub s d f)

/-- Last piece of a 24 GiB stack (R197, R198). -/
def lastPiece : Nat := 100663295

/-- The end of a complete HBM pass lowers the count of every channel in which it found nothing (R465, R467). -/
def passDone (s : State) (d : Nat) : State :=
  let t := ((List.range 16).filter (fun c => (d, c) ∉ s.icu.passUe)).foldl (fun t c => t.setRf .ICU_CHAN_UE d [c] 15 0 (t.rf .ICU_CHAN_UE d [c] 15 0 - 1)) s
  ({ t with icu := { t.icu with passUe := t.icu.passUe.filter (fun x => x.1 ≠ d) } } : State).bump .ICU_HBM_PASSES d

/-- The scrubber reads a piece through P4; an uncorrectable piece, which this pass then has found in its channel, known before or not (R467), is rebuilt, if it is a chunk's, from the other chunks through P4 too (R221, R465). -/
def hbmScrub (s : State) (d piece bad : Nat) : State :=
  let s : State := if bad ≤ 1 then s else { s with icu := { s.icu with passUe := ladd (d, piece % 32 / 2) s.icu.passUe } }
  let t := readOutcome (pushPort s d 4 false (.scrub piece) (pieceMask piece)) d piece bad
  let t := if bad ≤ 1 ∨ segTotal * 32 ≤ piece then t else readParity t d (piece / 32) d 4 (pieceMask piece) (t.portTarget d 4) none
  if piece = lastPiece then passDone t d else t

/-- HBM_SCRUB (R465). -/
def execHbmScrub (d : Fin 8) (piece : Nat) (bad : Nat) (s : State) : Res :=
  onDie s d (if s.excluded d ∨ nbit s.ssc.lost d ∨ lastPiece < piece then s else hbmScrub s d piece bad)

/-- TABLE_SHADOW_CHECK (R463). -/
def execTableShadowCheck (d : Fin 8) (lpm : Bool) (i : Nat) (differs : Bool) (s : State) : Res :=
  onDie s d (if s.excluded d ∨ ¬ differs then s else failEntry s d (entryNo lpm i))

/-- A restore from the shadow; an entry that reads back differently is stuck (R463). -/
def tableRestore (s : State) (d : Nat) (lpm : Bool) (i : Nat) (good : Bool) : State :=
  let n := entryNo lpm i
  if (d, n) ∈ s.icu.restoring then
    let t := ({ s with icu := { s.icu with restoring := lrem (d, n) s.icu.restoring } } : State).bump .ICU_TABLE_RESTORE d
    if good then t
    else
      let t : State := { t with icu := { t.icu with stuck := ladd (d, n) t.icu.stuck } }
      let t := (t.bumpF .ICU_STATE d [] 15 0 1).bumpGen .ICU_STATE d
      t.raiseEv 0x0E02 d (t.gen .ICU_STATE d) [d, if lpm then 7 else 6, if lpm then n - 8192 else n]
  else s

/-- TABLE_RESTORE (R463). -/
def execTableRestore (d : Fin 8) (lpm : Bool) (i : Nat) (good : Bool) (s : State) : Res :=
  onDie s d (if s.excluded d then s else tableRestore s d lpm i good)

/-- A static entry is rewritten from another healthy die, or removed when none holds it (R464). -/
def staticRepair (s : State) (d : Nat) (t : Tbl) (i : Nat) : State :=
  let n := match t with
    | .flow => 32768 + i
    | _ => i
  if (d, n) ∉ s.icu.staticBad then s
  else
    let u : State := { s with icu := { s.icu with staticBad := lrem (d, n) s.icu.staticBad } }
    let gone (v : State) := eccReport (bumpFwt v d) d 5 n 1
    match t with
    | .l2 =>
      match s.l2At d i with
      | some e => match s.staticCopyL2 d e with
        | some x => (u.setL2 d i { e with word := x.word }).bump .ICU_REPAIRED d
        | none => gone (u.dropL2 d i)
      | none => u
    | .flow =>
      match s.flowAt d i with
      | some e => match s.staticCopyFlow d e with
        | some x => (u.setFlow d i { e with data := x.data, ctx := x.ctx }).bump .ICU_REPAIRED d
        | none => gone (dropFlow u d i)
      | none => u
    | .lpm => s

/-- STATIC_ENTRY_REPAIR (R464). -/
def execStaticEntryRepair (d : Fin 8) (t : Tbl) (i : Nat) (s : State) : Res := onDie s d (if s.excluded d then s else staticRepair s d t i)

/-- TIMETABLE_ENTRY_RESTORE: the entry at a timetable offset counts again (R462). -/
def execTimetableEntryRestore (off : Nat) (s : State) : Res :=
  .next { s with cte := { s.cte with bad := s.cte.bad.filter (fun o => o ≠ off / 16 * 16) } }

end Sys2Proof.Machine
end

