-- ==== Sys2Proof/Machine/Modes.lean ====
section
/-! DEFINITION. Package modes, unit restarts, warm and cold resets (spec/15 R434 to R461, spec/14 R410 to R416, R423, spec/13 R374, R397, R406). -/

namespace Sys2Proof.Machine

/-! Occupancy (R443). -/

/-- GLB_OCC_INFLIGHT: frames that hold a quay buffer and have not been admitted. -/
def State.occInflight (s : State) : Nat :=
  (s.allDies.foldl (fun a d => a + (s.numberedFrames d).length) 0) + s.qba.admitQ.length + s.gwe.excq.length

/-- GLB_OCC_QUAY: frames held in landing queues in the quay. -/
def State.occQuay (s : State) : Nat := s.qba.lq.foldl (fun a e => a + countP' (fun i => !i.staged) e.2.items) 0

/-- GLB_OCC_STAGED: frames in open and written segments. -/
def State.occStaged (s : State) : Nat := s.qba.lq.foldl (fun a e => a + countP' (fun i => i.staged) e.2.items) 0

/-- DRAINED: in DRAIN with all three counts zero, EV_DRAINED once (R443). -/
def execDrained (s : State) : Res :=
  .next (if s.glb.mode = .drain ∧ ¬ s.glb.drainedSent ∧ s.occInflight = 0 ∧ s.occQuay = 0 ∧ s.occStaged = 0 then
    ({ s with glb := { s.glb with drainedSent := true } } : State).raiseEv 0x8002 pkg (s.gen .GLB_MODE 0) [s.phi.xing, s.phi.step]
  else s)

/-! The seal (R423). -/

/-- The first live die whose copy of words a to b - 1 cannot be read and that no other die's copy can repair. -/
def State.storeFault (s : State) (a b : Nat) : Option Nat :=
  let bad (d : Nat) : Bool := s.plt.mcsBad.any (fun x => decide (x.1 = d) && decide (a ≤ x.2) && decide (x.2 < b))
  if s.liveDies.all bad then s.liveDies.head? else none

/-- Every die's copy of words a to b - 1 repaired from a copy that passes; MCS_REPAIR counts each word (R422, R423). -/
def repairStore (s : State) (a b : Nat) : State :=
  let here (x : Nat × Nat) : Bool := decide (a ≤ x.2) && decide (x.2 < b)
  (s.plt.mcsBad.filter here).foldl (fun t x => t.bump .MCS_REPAIR x.1) { s with plt := { s.plt with mcsBad := s.plt.mcsBad.filter (fun x => !here x) } }

/-- The first valid edit program that no longer passes R250, by die and number. Program 0 runs no words (R247), so there is nothing of it to fail. -/
def State.progFault (s : State) : Option Nat :=
  s.liveDies.findSome? (fun d => (List.range 256).find? (fun n => decide (n ≠ 0) && !s.editProgGood (s.reg .RSQ_EDIT_PROG d [n])))

/-- The bytes of the whole store, each microword most significant byte first (R423). -/
def State.storeBytes (s : State) (a b : Nat) : List Byte := (List.range (b - a)).flatMap (fun i => beBytes 16 (s.mcsWord (a + i)).toNat)

/-- A digest written into the 12 words of MCS_DIGEST (R432). -/
def putDigest (h : List Byte) (s : State) : State :=
  (List.range 12).foldl (fun t i => t.setReg .MCS_DIGEST 0 [i] (BitVec.ofNat 32 (beNat ((h.drop (4 * i)).take 4)))) s

/-- The seal fails: SEAL_FAIL with the die, or with the edit program (R423). -/
def sealFail (s : State) (hi lo v : Nat) : State := (s.setRf .MCS_CTRL 0 [] 3 3 1).setRf .MCS_CTRL 0 [] hi lo v

/-- The checks of the seal and its writing (R423): true when it passes. -/
def sealStore (s : State) : Bool × State :=
  match s.storeFault 0 0x3000 with
  | some d => (false, sealFail s 10 8 d)
  | none =>
    let t := repairStore s 0 0x3000
    let f := if bit (t.reg .MCS_CTRL 0 []) 1 then t.storeFault 0x3000 0x4000 else none
    match f with
    | some d => (false, sealFail t 10 8 d)
    | none =>
      let t := if bit (t.reg .MCS_CTRL 0 []) 1 then repairStore t 0x3000 0x4000 else t
      if bit (t.reg .MCS_CTRL 0 []) 1 ∧ t.plt.custDigest ≠ none ∧ t.plt.custDigest ≠ some (Config.sha384 (t.storeBytes 0x3000 0x4000)) then (false, sealFail t 10 8 t.plt.lead)
      else match t.progFault with
      | some n => (false, sealFail t 31 24 n)
      | none =>
        let t := putDigest (Config.sha384 (t.storeBytes 0 0x4000)) t
        (true, ((t.setRf .MCS_CTRL 0 [] 3 3 0).setRf .MCS_CTRL 0 [] 0 0 1).bumpGen .PLT_STATE 0)

/-! MODE (R397, R435 to R438, R444, R457). -/

/-- A long operation of a kind is running (R394). -/
def State.opRunning (s : State) (p : OpKind → Bool) : Bool :=
  s.plt.ops.any (fun o => match o with
    | some r => !r.ended && p r.kind
    | none => false)

/-- PATCH operations. -/
def OpKind.isPatch : OpKind → Bool
  | .patch => true
  | _ => false

/-- FILL operations. -/
def OpKind.isFill : OpKind → Bool
  | .fill _ => true
  | _ => false

/-- The result bytes of MODE (R387). -/
def State.modeBytes (s : State) : List Byte := beBytes 2 (s.gen .GLB_MODE 0) ++ beBytes 1 s.glb.mode.code ++ [0]

/-- Enabled IDLE threads of every die start on entry to RUN (R260); banks that close with the old mode leave their rounds (R72, R87). -/
def enterMode (s : State) (m : Mode) (cause : Nat) : State :=
  let t := settleRounds (s.setMode m cause)
  if m = .run then overDies (fun d t => startIdle t d) t.liveDies t else t

/-- The checks of R436 and the entry to RUN from PROVISION. -/
def enterRun (s : State) : Status × State :=
  if s.ssc.busy ∨ s.opRunning OpKind.isPatch ∨ s.opRunning OpKind.isFill then (.busy, s)
  else match sealStore s with
    | (true, t) => (.ok, enterMode t .run 2)
    | (false, t) => (.denied, t)

/-- The transitions of MODE SET other than PROVISION to RUN (R435). -/
def setAllowed : Mode → Mode → Bool
  | .run, .drain => true
  | .run, .moored => true
  | .drain, .run => true
  | .drain, .moored => true
  | .moored, .run => true
  | .moored, .drain => true
  | _, _ => false

/-- The mode of a code (R397). -/
def modeOf : Nat → Option Mode
  | 0 => some .reset
  | 1 => some .listen
  | 2 => some .provision
  | 3 => some .run
  | 4 => some .drain
  | 5 => some .moored
  | _ => none

/-- MODE SET (R435). -/
def modeSet (s : State) (target : Nat) : Status × State :=
  match modeOf target with
  | none => (.mode, s)
  | some m =>
    if m = s.glb.mode then (.ok, s)
    else if s.glb.mode = .provision ∧ m = .run then enterRun s
    else if setAllowed s.glb.mode m then (.ok, enterMode s m 2)
    else (.mode, s)

/-- A reset is ordered by command: it begins after the reply; a cold reset goes before a warm one (R397, R450). -/
def orderReset (s : State) (cause : Nat) : Status × State :=
  (.ok, { s with glb := { s.glb with ordered := some (match s.glb.ordered with
    | some c => min c cause
    | none => cause) } })

/-- PORT_DRAIN (R397, R444): bits of ports that the part lacks are dropped (log 55). -/
def portDrain (s : State) (ports : Word) : Status × State :=
  if s.glb.mode = .run ∨ s.glb.mode = .drain then
    let w := BitVec.ofNat 32 (ports.toNat % 2 ^ (4 * s.dies))
    if w = s.reg .GLB_INGRESS 0 [] then (.ok, s) else (.ok, (State.closeTails s (s.setReg .GLB_INGRESS 0 [] w)).bumpGen .GLB_MODE 0)
  else (.mode, s)

/-- The frame that an engine abandons goes back to the head of its parse queue (R457). -/
def abandonParse (d : Nat) (s : State) (x : Nat × Parsing) : State :=
  let r := x.1 % 16 / 8
  let q := d * 2 + (if x.2.cross then 1 - r else r)
  { s with prs := { s.prs with eng := mremove x.1 s.prs.eng, queue := mmod [] s.prs.queue q (fun l => x.2.frame :: l) } }

/-- An engine in its place, the one that took its frame last first. -/
def insertTurn (x : Nat × Parsing) : List (Nat × Parsing) → List (Nat × Parsing)
  | [] => [x]
  | y :: r => if y.2.turn ≤ x.2.turn then x :: y :: r else y :: insertTurn x r

/-- A unit restart of the PRS: the frames keep the order in which the engines took them (R106, R457). -/
def prsRestart (s : State) (d : Nat) : State := ((mpick (fun k => k / 16 = d) s.prs.eng).foldr insertTurn []).foldl (abandonParse d) s

/-- A unit restart of the CLS: the fragment table is emptied (R457). -/
def clsRestart (s : State) (d : Nat) : State :=
  (mpick (fun k => k / 4096 = d) s.cls.frag).foldl (fun t x => expireHeld t d (x.1 % 4096) x.2) s

/-- A unit restart of the FWT: the learn queue and the pending slots go, the ager starts again (R457). -/
def fwtRestart (s : State) (d : Nat) : State :=
  let t := s.bumpN .FWT_LQ_DROP d [] (s.learnQ d).length
  let t := t.setLearnQ d []
  bumpFwt { t with fwt := { t.fwt with
    l2 := t.fwt.l2.filter (fun x => decide (x.1 / 32768 ≠ d) || !x.2.pend)
    agePos := mdrop (fun k => k / 262144 = d) t.fwt.agePos } } d

/-- A thread of the die is in RUN, HELPER or SYNC (R367). -/
def State.syuInUse (s : State) (d : Nat) : Bool :=
  (mpick (fun k => k / 384 = d) s.cra.thr).any (fun x => x.2.st == .run || x.2.st == .helper || x.2.st == .sync)

/-- A unit restart begins (R457); one in progress begins anew. -/
def unitStart (s : State) (d u : Nat) (t : State) : Status × State :=
  (.ok, { t with icu := { t.icu with unit := ladd (d, u) s.icu.unit } })

/-- MODE UNIT (R457). -/
def modeUnit (s : State) (d u : Nat) : Status × State :=
  if d ∉ s.liveDies then (.badaddr, s)
  else if u = unitPrs then unitStart s d u (prsRestart s d)
  else if u = unitCls then unitStart s d u (clsRestart s d)
  else if u = unitFwt then unitStart s d u (fwtRestart s d)
  else if u = unitTdx then unitStart s d u (tdxRestart s d)
  else if u = unitSyu then (if s.syuInUse d then (.busy, s) else unitStart s d u (bumpSyu (syuReset s d) d))
  else (.badaddr, s)

/-- A MODE command: the generation, then the operation (R397). -/
def modeOp (s : State) (op target die unit : Nat) (exp : Nat) (ports : Word) : TblAns :=
  let (st, t) : Status × State :=
    if 4 < op then (.badaddr, s)
    else if ¬ genOk exp (s.gen .GLB_MODE 0) then (.stale, s)
    else match op with
      | 0 => modeSet s target
      | 1 => orderReset s 4
      | 2 => orderReset s 3
      | 3 => modeUnit s die unit
      | _ => portDrain s ports
  (st, t.modeBytes, t)

/-- MODE_SET (R435). -/
def execModeSet (target : Nat) (exp : BitVec 16) (s : State) : Res := .next (hostOp s 0x50 (modeOp s 0 target 0 0 exp.toNat 0))
/-- MODE_WARM (R397). -/
def execModeWarm (exp : BitVec 16) (s : State) : Res := .next (hostOp s 0x50 (modeOp s 1 0 0 0 exp.toNat 0))
/-- MODE_COLD (R397). -/
def execModeCold (exp : BitVec 16) (s : State) : Res := .next (hostOp s 0x50 (modeOp s 2 0 0 0 exp.toNat 0))
/-- MODE_UNIT (R457). -/
def execModeUnit (die unit : Nat) (exp : BitVec 16) (s : State) : Res := .next (hostOp s 0x50 (modeOp s 3 0 die unit exp.toNat 0))
/-- PORT_DRAIN (R444). -/
def execPortDrain (ports : Word) (exp : BitVec 16) (s : State) : Res := .next (hostOp s 0x50 (modeOp s 4 0 0 0 exp.toNat ports))

/-- The table requests of a die whose threads wait no more have their effect (R277). -/
def serveLate (s : State) (d : Nat) : State :=
  ((s.cra.late.filter (fun x => decide (x.1 = d))).map (fun x => x.2)).foldl (fun t q => (tableNow t d q).2)
    { s with cra := { s.cra with late := s.cra.late.filter (fun x => decide (x.1 ≠ d)) } }

/-- UNIT_RESTART_DONE: the unit resumes; frames and requests that waited for the FWT go on (R277, R457). -/
def unitDone (s : State) (d u : Nat) : State :=
  if s.unitDown d u then
    let t : State := { s with icu := { s.icu with unit := s.icu.unit.filter (fun x => x ≠ (d, u)) } }
    if u = unitFwt then serveLate (resumeLate t d) d else t
  else s

/-- UNIT_RESTART_DONE (R457). -/
def execUnitRestartDone (d : Fin 8) (u : Fin 16) (s : State) : Res := onDie s d (unitDone s d u)

/-! The quay flush (R448). -/

/-- The quay frames of a queue offered oldest first; the command picks the segments. -/
def offerQueue (q : Nat) : List LQItem → List Nat → State → List Nat × State
  | [], picks, s => (picks, s)
  | i :: r, picks, s => offerQueue q r (picks.drop 1) (offerItem s q (picks.headD segTotal) i)

/-- Every quay frame of every landing queue is offered once (R448). -/
def quayFlush (s : State) (picks : List Nat) : State :=
  (s.qba.lq.foldl (fun (a : List Nat × State) e => offerQueue e.1 (e.2.items.filter (fun i => !i.staged)) a.1 a.2) (picks, s)).2

/-- A write of GLB_CTRL (R448, R461): the mode, then the generation, in the order of R448. -/
def wrGlbCtrl (s : State) (w : Word) (picks : List Nat) : Ans :=
  if bit w 0 ∧ s.glb.mode ≠ .drain ∧ s.glb.mode ≠ .moored then (.mode, s)
  else if ¬ genOk (fld w 31 16) (s.gen .GLB_MODE 0) then (.stale, s)
  else if bit w 0 then (.ok, quayFlush s picks) else (.ok, s)

/-- QUAY_FLUSH (R448). -/
def execQuayFlush (w : Word) (picks : List Nat) (s : State) : Res := hostWr s (fun s => wrGlbCtrl s w picks)

/-! Long operations end (R394). -/

/-- An operation ends: its record is written once and EV_LONG_DONE queued (R394). -/
def endOp (s : State) (slot : Nat) (st : Status) : State :=
  match s.plt.ops.getD slot none with
  | some r =>
    if r.ended then s
    else
      let x : OpRec := { r with ended := true, status := st, xing := s.phi.xing, step := s.phi.step }
      let t : State := { s with plt := { s.plt with ops := setNth s.plt.ops slot (some x) } }
      let t : State := if r.kind.isPatch then { t with plt := { t.plt with patchTotal := 0, patchBuf := [], patchLast := false, verified := false, patchKey := none } } else t
      let t := if r.kind.isPatch then t.setRf .MCS_CTRL 0 [] 2 2 0 else t
      t.raiseEv 0x8101 pkg (t.gen .GWE_STATE 0) [r.opid, st.code]
  | none => s

/-- Every running operation ends with GW_ABORTED and its progress; a container that is not yet applied is discarded (R394, R428). -/
def abortOps (s : State) : State := (List.range 16).foldl (fun t i => endOp t i .aborted) s

/-! The warm reset (R412, R451 to R456). -/

/-- A frame in transmission completes: it leaves the quay (R437). -/
def finishWire (s : State) (p : Nat) : State :=
  let t := ((s.ptx p).wire.filter (fun w => !w.left)).foldl (fun t w =>
    let n := (macFrame w.bytes).length
    releaseItem (t.modLq w.q (fun l => { l with depFrames := satAdd 32 l.depFrames 1, depKb := satAdd 32 l.depKb ((l.depRem + n) / 1024), depRem := (l.depRem + n) % 1024 })) w.q w.item) s
  t.modPtx p (fun x => { x with wire := x.wire.map (fun w => { w with left := true, engine := none }), turn := none, started := 0, weight := 1, round := [], served := [], held := [] })

/-- Segments that are being written are written, and every read is withdrawn, those of a rebuild to be issued again when it resumes (R207, R220, R455). -/
def settleWrites (s : State) : State :=
  let js := (s.ssc.seg.filter (fun e => e.2.st = .closing)).map (·.1)
  let t := js.foldl (fun t j => match t.seg j with
    | some x =>
      let u := dropStagedMirrors (t.setSeg j { x with st := .written }) x.q j
      if x.left = 0 then freeSegment u j else u
    | none => t) s
  { t with ssc := { t.ssc with req := [], rows := [], rebuild := t.ssc.rebuild.map (fun r => { r with reads := none }) } }

/-- Every open segment is written (R207, R452). -/
def closeAll (s : State) : State :=
  let t := closeFresh s true
  settleWrites ((t.ssc.seg.filter (fun e => e.2.st = .opened)).foldl (fun t e => closeSegment t e.1 true) t)

/-- The registers of the WARM and THREAD domains return to their reset values (R10), and so does the latch of QBA_QDATA, whose queue QBA_QSEL no longer names (R196; log 76). -/
def keepCold (m : SMap Word) : SMap Word :=
  m.filter (fun e => match locate e.1 with
    | some x => x.reg.info.dom == .cold && x.reg != .QBA_QDATA
    | none => true)

/-- What a warm reset clears on a die (R412, R451). -/
def clearDie (s : State) (d : Nat) : State :=
  let t := (emptyLists (fwtWarm s d) d).modTrc d (fun x => { x with post := none })
  let t := clearAff (syuReset t d) d
  (List.range 8).foldl (fun u i => clearPool u d i) t

/-- What a warm reset clears in the landing queues: the quay frames (R451, R454). -/
def keepStaged (l : LQ) : LQ :=
  { l with items := (l.items.filter (fun i => i.staged)).map (fun i => { i with mirror := none }), deficit := 0, nofit := false }

/-- BPM_POOL_FREE.LOW of every placed pool at its reset value (R195; log 14). -/
def zeroLow (s : State) : SMap Nat :=
  (List.range (8 * s.dies)).foldl (fun m k => if s.poolCount (k / 8) (k % 8) = 0 then m else minsert k 0 m) []

/-- Steps 1 to 4 of R452 and the clearing of R412, for a cause of R461; a cold reset that is ordered stays due (R450). -/
def warmStart (s : State) (cause : Nat) : State :=
  let t := overDies (fun d t => stopTrace t d) s.allDies s
  let t : State := { t with glb := { t.glb with warm := some cause, ordered := t.glb.ordered.filter (fun c => c = 3) } }
  let t := t.setMode .reset cause
  let t := closeAll ((t.cte.port.map (·.1)).foldl finishWire t)
  let quay := t.occQuay
  let flight := t.occInflight
  let t := (t.bumpN .GLB_WARM_LOST 0 [0] quay).bumpN .GLB_WARM_LOST 0 [1] flight
  let t := abortOps t
  let t : State := { t with
    regs := keepCold t.regs
    glb := { t.glb with lostQuay := quay, lostFlight := flight }
    bpm := { t.bpm with quay := [], bad := [], alloc := [], share := [], quar := [], low := zeroLow t }
    prs := {}
    cls := { t.cls with wait := [], late := [], frag := [] }
    fwt := { t.fwt with cache := [], fetch := [] }
    qba := { t.qba with lq := (t.qba.lq.map (fun e => (e.1, keepStaged e.2))).filter (fun (e : Nat × LQ) => decide (e.2 ≠ {})), admitQ := [] }
    rsq := { t.rsq with rob := [], gap := [], gapWas := [], hand := [] }
    cra := { t.cra with thr := [], faultQ := [], esc := [], slotRem := [], waitMark := [], late := [] }
    tdx := { t.tdx with flight := [], rr := [] }
    syu := { t.syu with watch := [] }
    cte := { t.cte with pf := [] }
    gwe := { t.gwe with excq := [] }
    icu := { t.icu with unit := [] }
    ssc := { t.ssc with borrowed := [] } }
  overDies (fun d t => clearDie t d) t.allDies t

/-- WARM_RESET: the warm reset that MODE WARM ordered begins (R397, R452). -/
def execWarmReset (s : State) : Res :=
  .next (if s.glb.mode.any ∧ s.glb.ordered = some 4 then warmStart s 4 else s)

/-- Bytes of the MCS that the Pilots can repair are repaired: the check of R412, step 3. -/
def warmMcs (s : State) : State := s.plt.mcsBad.foldl (fun t x => if s.mcsCopy x.1 x.2 then mcsRepair t x.1 x.2 else t) s

/-- PLT_START and GLB_RESET_CAUSE at the end of a reset; the time is a free value (R432, R450; log 56). -/
def startDone (s : State) (kind cause : Nat) : State :=
  let (v, t) := s.takeFree
  (t.setReg .PLT_START 0 [] (packWord [(30, kind), (0, v.toNat % 2 ^ 20)])).setReg .GLB_RESET_CAUSE 0 [] (packWord [(0, cause)])

/-- Steps 5 and 6 of R452: the Pilots' reset, in which the free lists are rebuilt from the records (R204), and PROVISION. -/
def warmFinish (s : State) : State :=
  match s.glb.warm with
  | none => s
  | some cause =>
    let t := elect (warmMcs (checkRecords s (s.ssc.seg.map (·.1))))
    let t := startDone t 1 cause
    let t : State := { t with glb := { t.glb with warm := none } }
    let t := t.setMode .provision cause
    t.raiseEv 0x8003 pkg (t.gen .GLB_MODE 0) [cause, t.glb.lostQuay, t.glb.lostFlight, b2n t.ssc.rebuild.isSome]

/-! The host watchdog and the attachments (R374, R406). -/

/-- The last verified frame fell in the cycle of the watchdog's expiry (R407; log 28). -/
def State.heardNow (s : State) : Bool := s.gwe.heard

/-- The frame wins: the watchdog starts anew (R407). -/
def useHeard (s : State) : State := { s with gwe := { s.gwe with heard := false } }

/-- HOST_WDOG_EXPIRY (R406); a verified frame in the same cycle restarts the watchdog instead (R407). -/
def execHostWdogExpiry (s : State) : Res :=
  .next (if s.heardNow then useHeard s
  else if s.glb.mode.departs ∧ s.rf .GWE_WDOG 0 [] 15 0 ≠ 0 then
    let t := settleRounds (s.setMode .moored 3)
    let t : State := { t with glb := { t.glb with wdogMoored := true } }
    let t := t.bumpGen .GWE_STATE 0
    t.raiseEv 0x8103 pkg (t.gen .GWE_STATE 0) []
  else s)

/-- WDOG_ESCALATION; a verified frame in the same cycle leaves the part MOORED (R406, R407, R447, R452, R459). -/
def execWdogEscalation (s : State) : Res :=
  .next (if s.heardNow then useHeard s
  else if s.glb.mode = .moored ∧ s.glb.wdogMoored ∧ s.rf .GWE_WDOG 0 [] 31 16 ≠ 0 then warmStart s 5 else s)

/-- The attachments train from LISTEN onward, through a warm reset too (R371, R440, R453). -/
def State.hostPortOn (s : State) : Bool := decide (s.glb.mode ≠ .reset) || s.glb.warm.isSome

/-- HOST_ATTACHMENT_LINK: an attachment has its link in a mode that GWE_PORT_CFG enables, KR4 or KR1, or loses it (R371, R374, R408). -/
def execHostAttachmentLink (b : Bool) (up : LinkReport) (s : State) : Res :=
  .next (if s.hostPortOn then
    let on := up.up && bit (s.reg .GWE_PORT_CFG 0 []) (b2n up.kr4)
    { s with gwe := if b then { s.gwe with linkB := on, kr4B := on && up.kr4 } else { s.gwe with linkA := on, kr4A := on && up.kr4 } }
  else s)

/-- The FAILOVER_MS count runs: it is enabled, attachment A has link down and B link up (R374). -/
def State.failRun (s : State) : Bool := !s.gwe.linkA && s.gwe.linkB && decide (s.rf .GWE_PORT_CFG 0 [] 31 16 ≠ 0)

/-- HOST_FAILOVER: the GWE moves to attachment B for good (R374). -/
def execHostFailover (s : State) : Res :=
  .next (if s.hostPortOn ∧ ¬ s.gwe.active ∧ 1 ∉ s.lpx.lost ∧ (0 ∈ s.lpx.lost ∨ s.failRun) then
    let t : State := { s with gwe := { s.gwe with active := true } }
    let t := t.bumpGen .GWE_STATE 0
    t.raiseEv 0x8104 pkg (t.gen .GWE_STATE 0) []
  else s)

/-! Cold resets (R410, R411, R439, R449 to R451). -/

/-- A cold reset: everything but the fuses, the pins, the sensors and the queue of commands returns to its state after reset (R450, R451). The cause is written at its end, where it first can be read; the clock in use is REFCLK_A if it is present (R511). -/
def coldReset (s : State) (cause : Nat) : State :=
  { State.reset with
    part := s.part
    regs := mset 0 (mset 0 [] 0x400 (if s.glb.clkA then 0 else 1)) 0x104 (BitVec.ofNat 32 cause)
    glb := { ({} : Glb) with
      rstLow := s.glb.rstLow, supplyBad := s.glb.supplyBad, clkA := s.glb.clkA, clkB := s.glb.clkB, clocksLost := s.glb.clocksLost
      ir := s.glb.ir, dr := s.glb.dr, shift := s.glb.shift, tripPin := s.glb.tripPin, temps := s.glb.temps }
    gwe := { ({} : Gwe) with draws := s.gwe.draws, tx := s.gwe.tx, answers := s.gwe.answers }
    ssc := { ({} : Ssc) with now := s.ssc.now }
    lpx := { ({} : Lpx) with lost := s.lpx.lost }
    lineTx := s.lineTx
    free := s.free
    pending := s.pending }

/-- COLD_RESET: the cold reset that MODE COLD ordered begins (R397, R449); the other causes are commands of their own. -/
def execColdReset (cause : Nat) (s : State) : Res :=
  .next (if cause = 3 ∧ s.glb.ordered = some 3 then coldReset s 3 else s)

/-- The instruction that a code of the 8-bit instruction register selects; any code of no row selects BYPASS (R519, R520). -/
def TapIns.ofCode (c : BitVec 8) : TapIns :=
  match c.toNat with
  | 0x00 => .extest
  | 0x01 => .idcode
  | 0x02 => .sample
  | 0x04 => .clamp
  | 0x05 => .highz
  | 0x0A => .extestPulse
  | 0x0B => .extestTrain
  | _ => .bypass

/-- The current TAP instruction. -/
def State.tap (s : State) : TapIns := TapIns.ofCode s.glb.ir

/-- The TAP instructions that hold the part in RESET (R520). -/
def TapIns.holds : TapIns → Bool
  | .extest | .clamp | .highz | .extestPulse | .extestTrain => true
  | _ => false

/-- The part is held in RESET: RESET_N low, a supply out of range, no clock or a TAP instruction (R507, R509, R511, R520). -/
def State.heldInReset (s : State) : Bool := s.glb.rstLow || s.glb.supplyBad || s.glb.clocksLost || s.tap.holds

/-- The step of R410 at which a die failed, 1 to 3, is recorded (R411, R432). -/
def startFail (steps : List Nat) (d : Nat) (s : State) : State := s.setRf .PLT_DIE_STAT 0 [d] 7 4 (max 1 (min 3 (steps.getD d 1)))

/-- The start sequence of R410 up to LISTEN: the dies that pass, and the steps at which the others failed, which are excluded together (R411). -/
def coldStart (s : State) (passed : Nat) (steps : List Nat) : State :=
  let ok := s.allDies.filter (fun d => passed.testBit d)
  let bad := s.allDies.filter (fun d => !passed.testBit d)
  if ok.isEmpty then s
  else
    let cause := fld (s.reg .GLB_RESET_CAUSE 0 []) 3 0
    let t := excludeAll (overDies (startFail steps) bad s) (bad.map (fun d => (d, .start)))
    let t := t.setRf .PLT_STATE 0 [] 7 0 (maskOf ok)
    let t := startDone t 0 cause
    let t : State := { t with glb := { t.glb with started := true }, plt := { t.plt with leadMove := none } }
    t.setMode .listen 0

/-- COLD_START (R410, R411). -/
def execColdStart (passed : BitVec 8) (steps : List Nat) (s : State) : Res :=
  .next (if s.glb.mode = .reset ∧ s.glb.warm.isNone ∧ ¬ s.heldInReset then coldStart s passed.toNat steps else s)

end Sys2Proof.Machine
end

