-- ==== Sys2Proof/Machine/Pins.lean ====
section
/-! DEFINITION. Supplies, RESET_N, reference clocks, temperatures and the test access port (spec/18 R506 to R520). -/

namespace Sys2Proof.Machine

/-! Pin states (R508). -/

/-- How the part holds a group of pins. -/
inductive Pin
  | idle | highZ | training | active | terminated | input | pulledInput | released | asserted
  deriving DecidableEq, Repr

/-- A line lane's transmitters (R488, R508). -/
def State.lineTxPin (s : State) (p : Nat) : Pin := if s.portOn p then .active else .idle
/-- A line lane's receivers (R508). -/
def State.lineRxPin (s : State) (p : Nat) : Pin := if s.portOn p then .terminated else .highZ
/-- The host lanes (R440, R508). -/
def State.hostPin (s : State) : Pin := if s.pinsReset then .highZ else if s.glb.mode = .listen then .training else .active
/-- The reference clock inputs and the CPH inputs (R508, R512). -/
def State.clockPin (s : State) : Pin := if s.pinsReset then .highZ else .terminated
/-- The test access inputs (R519). -/
inductive TestIn
  | tck | tms | tdi | trstN
  deriving DecidableEq, Repr

/-- The test access inputs: they work whenever all rails are valid; from LISTEN on all but TCK have pull-ups (R508, R519; log 80). -/
def State.testPin (s : State) (x : TestIn) : Pin :=
  if s.glb.supplyBad then .highZ else if x = .tck ∨ s.pinsReset then .input else .pulledInput
/-- RESET_N: an input whose pull-up is there while VIO is valid; the model knows the rails together (R508, R509; log 80). -/
def State.resetPin (s : State) : Pin := if s.glb.supplyBad then .input else .pulledInput
/-- TDO: driven only while the TAP is in the Shift-DR or Shift-IR state (R508, R519; log 80). -/
def State.tdoPin (s : State) : Pin := if s.glb.shift && !s.glb.supplyBad then .active else .highZ
/-- THERMTRIP_N (R508, R517, R518; log 80). -/
def State.tripN (s : State) : Pin := if s.glb.tripPin then .asserted else .released

/-! Supplies and RESET_N. -/

/-- THERMTRIP_N is released by a cold reset that supplies or RESET_N cause (R517). -/
def releaseTrip (s : State) : State := { s with glb := { s.glb with tripPin := false } }

/-- The IDCODE register (R519). -/
def State.idcode (s : State) : Word :=
  match s.part with
  | .hx1620 => 0x11620D57
  | .hx1640 => 0x11640D57
  | .hx1680 => 0x11680D57

/-- The data register that the current TAP instruction selects, as it is captured and shifted out: the IDCODE register, the bypass register, whose bit is 0, or none, the boundary cells, which the spec does not list (R519, R520; log 4). -/
def State.captureDr (s : State) : Option Word :=
  match s.tap with
  | .idcode => some s.idcode
  | .bypass | .clamp | .highz => some 0
  | .sample | .extest | .extestPulse | .extestTrain => none

/-- A code enters the instruction register, and the data register that its instruction selects is captured; the TAP is past its Shift states then (R519, R520). -/
def loadIr (s : State) (c : BitVec 8) : State :=
  let t : State := { s with glb := { s.glb with ir := c, shift := false } }
  { t with glb := { t.glb with dr := t.captureDr } }

/-- The internal power-on reset resets the TAP (R519; log 4). -/
def powerTap (s : State) : State := loadIr s 0x01

/-- SUPPLY_VALID: the last rail becomes valid (R506, R410). -/
def execSupplyValid (s : State) : Res :=
  .next (if s.glb.supplyBad then coldReset (powerTap (releaseTrip { s with glb := { s.glb with supplyBad := false } })) 1 else s)

/-- SUPPLY_EXCURSION: a rail leaves its range, and the part is unpowered until it is valid again (R507, R508). -/
def execSupplyExcursion (s : State) : Res :=
  .next (if s.glb.supplyBad then s else coldReset (powerTap (releaseTrip { s with glb := { s.glb with supplyBad := true } })) 1)

/-- RESET_N_ASSERT (R509); a supply out of its range goes first (R522). -/
def execResetNAssert (s : State) : Res :=
  .next (
    let t : State := { s with glb := { s.glb with rstLow := true } }
    if s.glb.supplyBad then t else coldReset (releaseTrip t) 2)

/-- RESET_N_RELEASE: the start sequence may run (R509). -/
def execResetNRelease (s : State) : Res := .next { s with glb := { s.glb with rstLow := false } }

/-! Reference clocks (R511). -/

/-- Every SerDes relocks: alignment and FEC lock are lost on every line port, and both attachments lose their link (R511). -/
def relock (s : State) : State :=
  let t := (List.range (4 * s.dies)).foldl (fun t p => holdsAfter (t.modLnk p (fun x => { x with align := false, fecLock := false })) p) s
  { t with gwe := { t.gwe with linkA := false, linkB := false, kr4A := false, kr4B := false } }

/-- The clock in use: true for REFCLK_B. -/
def State.onB (s : State) : Bool := bit (s.reg .GLB_CLK_STAT 0 []) 0

/-- EV_REFCLK with the new generation (R523). -/
def clockEvent (s : State) (b : Bool) : State :=
  let t := s.bumpGen .GLB_CLK_STAT 0
  t.raiseEv 0x8005 pkg (t.gen .GLB_CLK_STAT 0) [b2n b, b2n t.onB]

/-- No clock is left for more than 10 µs: the part is held in RESET (R511; log 58). -/
def clockHold (s : State) : State := coldReset { s with glb := { s.glb with clocksLost := true } } 1

/-- REFCLK_LOSS (R511). -/
def execRefclkLoss (b : Bool) (s : State) : Res :=
  .next (
    let had := if b then s.glb.clkB else s.glb.clkA
    let t : State := if b then { s with glb := { s.glb with clkB := false } } else { s with glb := { s.glb with clkA := false } }
    if ¬ had ∨ s.glb.clocksLost then t
    else if b ≠ s.onB then (if s.isUp then clockEvent t b else t)
    else if ¬ b ∧ t.glb.clkB then
      let t := t.setRf .GLB_CLK_STAT 0 [] 1 0 1
      if s.isUp then clockEvent (relock t) b else t
    else clockHold t)

/-- REFCLK_RETURN (R511): after the loss of every clock a cold reset follows. -/
def execRefclkReturn (b : Bool) (s : State) : Res :=
  .next (
    let t : State := if b then { s with glb := { s.glb with clkB := true } } else { s with glb := { s.glb with clkA := true } }
    if s.glb.clocksLost then coldReset { t with glb := { t.glb with clocksLost := false } } 1 else t)

/-! Temperatures (R516, R517). -/

/-- THERM_WARN: a reading first reaches WARN_C; the report, with the phase at its die, is armed again 5 °C below it (R415, R516). -/
def thermWarn (s : State) (d : Nat) (x : Sensor) (temp : Int) : State :=
  let t := noteTemp s d x temp
  let k := d * 3 + sensorCode x
  let w : Int := (s.rf .GLB_THERM_CFG 0 [] 7 0 : Nat)
  if w ≤ temp ∧ k ∉ s.glb.warned then
    let t : State := { t with glb := { t.glb with warned := ladd k t.glb.warned } }
    let t := t.bumpGen .GLB_THERM_STAT 0
    t.raiseAt d 0x8006 pkg (t.gen .GLB_THERM_STAT 0) [d, sensorCode x, arg32 temp]
  else if temp ≤ w - 5 then { t with glb := { t.glb with warned := lrem k t.glb.warned } }
  else t

/-- THERM_WARN (R516). -/
def execThermWarn (d : Fin 8) (s : Sensor) (temp : Int) (st : State) : Res := onDie st d (if st.senses d s then thermWarn st d s temp else st)

/-- THERMTRIP, with what falls in the same cycle (R430, R517). -/
def execThermtrip (d : Fin 8) (s : Sensor) (temp : TripTemp) (st : State) : Res :=
  onDie st d (fallTogether st [] { temp.toSameCycle with trips := { die := d, sensor := s, temp := temp.temp } :: temp.trips })

/-! The test access port (R519, R520). -/

/-- A code of the instruction register becomes current, BYPASS for one of no row: one that holds the part begins RESET; when one that held it ceases to be current a cold reset follows (R520, R522). -/
def setTap (s : State) (c : BitVec 8) : State :=
  if s.glb.supplyBad then s
  else
    let t := loadIr s c
    if t.tap.holds != s.tap.holds then coldReset t 1 else t

/-- EXTEST (R520). -/
def execExtest (s : State) : Res := .next (setTap s 0x00)
/-- IDCODE (R520). -/
def execIdcode (s : State) : Res := .next (setTap s 0x01)
/-- SAMPLE/PRELOAD (R520). -/
def execSamplePreload (s : State) : Res := .next (setTap s 0x02)
/-- CLAMP (R520). -/
def execClamp (s : State) : Res := .next (setTap s 0x04)
/-- HIGHZ (R520). -/
def execHighz (s : State) : Res := .next (setTap s 0x05)
/-- EXTEST_PULSE (R520). -/
def execExtestPulse (s : State) : Res := .next (setTap s 0x0A)
/-- EXTEST_TRAIN (R520). -/
def execExtestTrain (s : State) : Res := .next (setTap s 0x0B)
/-- BYPASS (R520). -/
def execBypass (s : State) : Res := .next (setTap s 0xFF)
/-- TAP_HOLD_END: the instruction that held the part ceases to be current; the model makes BYPASS current (log 57). -/
def execTapHoldEnd (s : State) : Res := .next (if s.tap.holds then setTap s 0xFF else s)
/-- TAP_RESET (R519; log 4). -/
def execTapReset (s : State) : Res := .next (setTap s 0x01)

end Sys2Proof.Machine
end

