-- ==== Sys2Proof/Machine/RegView.lean ====
section
/-! DEFINITION. What a register read shows (spec/00 R6 to R10, the register rules of the chapters): the stored word, the fields that follow the state of their unit, and the effects of a read. -/

namespace Sys2Proof.Machine

/-- A fused address as its two registers show it (R408, R532): HI holds bytes 0 and 1, LO bytes 2 to 5. -/
def macHi (a : BitVec 48) : Nat := a.toNat / 2 ^ 32
/-- The LO part of an address. -/
def macLo (a : BitVec 48) : Nat := a.toNat % 2 ^ 32

/-- The part number of GLB_PART and DIE_ID (R532). -/
def Part.number : Part → Nat
  | .hx1620 => 0x1620
  | .hx1640 => 0x1640
  | .hx1680 => 0x1680

/-- PHI_IN.OFFSET: the step number of the input minus that of the phase, taken within half a crossing and saturated at 127, as a signed byte (R61; log 13). -/
def State.inOffset (s : State) (i : PhInp) : Nat :=
  match s.phi.ever, (s.phIn i).stepNo with
  | true, some n =>
    let e := (n + s.xlen - s.phi.step) % s.xlen
    let o : Int := if 2 * e ≤ s.xlen then (e : Int) else (e : Int) - (s.xlen : Int)
    ((max (-127) (min 127 o)) % 256).toNat
  | _, _ => 0

/-- The fields of PHI_IN (R61). -/
def State.inFields (s : State) (i : PhInp) : List (Nat × Nat × Nat) :=
  let x := s.phIn i
  [(31, 24, s.inOffset i), (4, 4, b2n (s.agrees i)), (3, 3, b2n x.wordOk), (2, 2, b2n x.markOk), (1, 1, b2n x.stepOk), (0, 0, b2n x.healthy)]

/-- Banks of a die open at the present step (R101). -/
def State.openOn (s : State) (d : Nat) : Nat := (s.enabledBanks.filter (fun b => bankDie b = d && s.openMask b ≠ 0)).length

/-- Frames in a parse queue; the count saturates (R132). -/
def State.parseDepth (s : State) (d r : Nat) : Nat := min 0xFFFF (mget [] s.prs.queue (d * 2 + r)).length

/-- Parse engines of a die with a frame (R132). -/
def State.parseBusy (s : State) (d : Nat) : Nat := maskOf ((mpick (fun k => k / 16 = d) s.prs.eng).map (fun x => x.1 % 16))

/-- Fragment table entries of a die, and the pending ones (R133). -/
def State.fragList (s : State) (d : Nat) : List (Nat × Frag) := mpick (fun k => k / 4096 = d) s.cls.frag

/-- L2 entries of a die (R167). -/
def State.l2List (s : State) (d : Nat) : List (Nat × L2Ent) := mpick (fun k => k / 32768 = d) s.fwt.l2

/-- Hardware contexts of a die that are not free (R142, R143). -/
def State.ctxTaken (s : State) (d : Nat) : List Nat :=
  let own := ((mpick (fun k => k / 65536 = d ∧ s.ctxSplit d ≤ k % 65536 ∧ k % 65536 < 65532) s.fwt.ctx).map (fun x => x.1 % 65536)).filter (fun c => !s.ctxFree d c)
  (s.fwt.bound.filter (fun e => s.server (e.1 / 4) = d)).foldl (fun l e => ladd e.2 l) own

/-- Quarantined hardware contexts (R143). -/
def State.ctxQuar (s : State) (d : Nat) : Nat := countP' (fun x => x.2.quar) (mpick (fun k => k / 65536 = d) s.fwt.ctx)

/-- BPM_POOL_FREE.LOW: the lowest free count since the last read; it starts at the count at the read (R195; log 14). -/
def State.poolLow (s : State) (d i : Nat) : Nat := (mfind s.bpm.low (d * 8 + i)).getD (s.poolFree d i)

/-- Edit engines of a die that work on a frame (R256). -/
def State.editBusy (s : State) (d : Nat) : Nat := maskOf ((s.editing.filter (fun e => e / 4 = d)).map (· % 4))

/-- FAULTED threads of a die (R296). -/
def State.faultedOn (s : State) (d : Nat) : Nat := countP' (fun x => decide (x.2.st = .faulted)) (mpick (fun k => k / 384 = d) s.cra.thr)

/-- The supervisor of a cluster is HALTED, FAULTED or STOPPED (R296). -/
def State.superDown (s : State) (d k : Nat) : Bool :=
  match s.superOf d k with
  | some n => (s.thr d n).open_
  | none => false

/-- Tickets and other tasks on a ready list (R349). -/
def State.listDepth (s : State) (d l : Nat) (tickets : Bool) : Nat := countP' (fun (t : Task) => t.ticket.isSome == tickets) (s.readyList d l)

/-- The sessions that are open, as a mask (R408). -/
def State.openSessions (s : State) : Nat := maskOf ((List.range 4).filter (fun i => (s.gwe.sess.getD i {}).opened))

/-- The fields of GWE_STATE besides GEN (R408). -/
def State.gweFields (s : State) : List (Nat × Nat × Nat) :=
  [(15, 12, s.openSessions), (11, 10, s.evSession.getD 0), (9, 9, b2n s.evSession.isSome), (7, 7, b2n s.gwe.owner.isSome),
    (6, 6, b2n ((s.gwe.assoc.map (·.xpn)).getD false)), (5, 5, b2n s.gwe.active), (4, 4, b2n s.gwe.linkB), (3, 3, b2n s.gwe.linkA)]

/-- PLT_DIE_STAT.STATE: absent, starting, ready, lead or excluded (R432). -/
def State.dieState (s : State) (d : Nat) : Nat :=
  if s.dies ≤ d then 0 else if s.excluded d then 4 else if ¬ s.glb.started then 1 else if s.plt.lead = d then 3 else 2

/-- The healthy dies as a mask (R468). -/
def State.healthyMask (s : State) : Nat := if s.glb.started then maskOf s.liveDies else 0

/-- A temperature of GLB_TEMP; COMPUTE reads 0 for an excluded die (R524). -/
def State.tempOf (s : State) (d k : Nat) : Nat := if s.dies ≤ d ∨ (k = 0 ∧ s.excluded d) then 0 else tempByte (mget 0 s.glb.temps (d * 3 + k))

/-- The partner serves the port island of a die (R474, R484). -/
def State.served (s : State) (d : Nat) : Bool := bit (s.reg .DIE_HEALTH 0 []) (8 + d)

/-- Highest postponement credit of any pseudo-channel of a die (R232). -/
def State.topCredit (s : State) (d : Nat) : Nat := (List.range 32).foldl (fun a pc => max a (s.credit d pc)) 0

/-- The package registers' fields that follow the state: high bit, low bit, value. -/
def State.liveGlob (s : State) (r : Reg) (i : Nat) : List (Nat × Nat × Nat) :=
  match r with
  | .PHI_STATE => [(7, 7, b2n s.phi.rxDie), (6, 6, b2n s.phi.ever), (5, 4, s.phi.src.code), (2, 0, s.phi.st.code)]
  | .PHI_PERIOD => [(31, 0, s.phi.period)]
  | .PHI_IN => s.inFields (if i = 0 then .a else .b)
  | .CTE_STATE => [(1, 1, b2n s.cte.swap.isSome), (0, 0, s.cte.active)]
  | .GWE_STATE => s.gweFields
  | .GWE_EVT_NEXT => [(31, 0, s.gwe.evNext)]
  | .GWE_EVT_PEND => [(28, 16, countP' (fun (e : EvRec) => e.sent) s.gwe.evq), (12, 0, s.gwe.evq.length)]
  | .GWE_HOST_MAC_LO => [(31, 0, macLo s.gwe.hostMac)]
  | .GWE_HOST_MAC_HI => [(31, 0, macHi s.gwe.hostMac)]
  | .PLT_STATE => [(10, 8, s.plt.lead)]
  | .PLT_ROM => [(31, 16, Config.romVersion.toNat)]
  | .PLT_DIE_STAT => [(2, 0, s.dieState i)]
  | .GLB_MODE => [(2, 0, s.glb.mode.code)]
  | .GLB_OCC_INFLIGHT => [(31, 0, s.occInflight)]
  | .GLB_OCC_QUAY => [(31, 0, s.occQuay)]
  | .GLB_OCC_STAGED => [(31, 0, s.occStaged)]
  | .DIE_PRESENT => [(7, 0, maskOf s.allDies)]
  | .DIE_HEALTH => [(7, 0, s.healthyMask)]
  | .GLB_CLK_STAT => [(3, 3, b2n s.glb.clkB), (2, 2, b2n s.glb.clkA)]
  | .GLB_THERM_STAT => [(15, 15, b2n s.glb.tripPin)]
  | .GLB_TEMP => [(31, 24, s.tempOf i 2), (23, 16, s.tempOf i 1), (15, 8, s.tempOf i 0)]
  | .GLB_PART => [(31, 16, s.part.number), (3, 0, s.dies)]
  | .GLB_FMAC_LO => [(31, 0, macLo Config.factoryAddress)]
  | .GLB_FMAC_HI => [(31, 0, macHi Config.factoryAddress)]
  | _ => []

/-- The die registers' fields that follow the state. DESIGN CHOICE: FWT_CTX.FREE shows the free hardware contexts at all times, also after a reset, for which R167 gives the value 0 (log 83). -/
def State.liveDie (s : State) (r : Reg) (d : Nat) (idx : List Nat) : List (Nat × Nat × Nat) :=
  let i := idx.headD 0
  match r with
  | .DIE_ID => [(31, 16, s.part.number), (2, 0, d)]
  | .CTE_SLICE_STAT => [(31, 31, b2n (s.excluded d)), (10, 0, s.openOn d)]
  | .CTE_PF_USE => [(22, 0, s.pfUsed d * 8192)]
  | .CTE_PORT_STAT => [(31, 31, b2n (s.ptx (d * 4 + i)).link), (26, 16, (s.openBanks (d * 4 + i)).length)]
  | .PRS_QDEPTH => [(31, 16, s.parseDepth d 1), (15, 0, s.parseDepth d 0)]
  | .PRS_BUSY => [(15, 0, s.parseBusy d)]
  | .CLS_FRAG_STAT => [(28, 16, countP' (fun x => x.2.dec.isNone) (s.fragList d)), (12, 0, (s.fragList d).length)]
  | .FWT_STATE => [(0, 0, b2n (decide (1024 ≤ (s.learnQ d).length)))]
  | .FWT_L2_USED => [(31, 16, countP' (fun x => x.2.isStatic) (s.l2List d)), (15, 0, countP' (fun x => !x.2.isStatic) (s.l2List d))]
  | .FWT_FLOW_USED => [(17, 0, (mpick (fun k => k / 229376 = d) s.fwt.flow).length)]
  | .FWT_CTX => [(31, 16, s.ctxQuar d), (15, 0, 65532 - s.ctxSplit d - (s.ctxTaken d).length)]
  | .FWT_LPM_USED => [(16, 0, countP' (fun x => x.2.valid) (s.lpmList d))]
  | .BPM_STATE => [(7, 0, maskOf ((List.range 8).filter (s.quarantined d)))]
  | .BPM_POOL_FREE => [(31, 16, s.poolLow d i), (15, 0, s.poolFree d i)]
  | .BPM_SHARE_USED => [(12, 0, s.shareUsed d)]
  | .QBA_PORT_STAT => [(31, 31, b2n (bit (s.reg .QBA_PORT_CFG d [i]) 0 && s.excluded (partner d)))]
  | .QBA_FREE => [(24, 0, s.freeBytes d)]
  | .SSC_STATE => [(15, 8, s.ssc.smask), (7, 7, b2n s.ssc.rebuild.isSome), (6, 6, b2n ((s.ssc.rebuild.map (·.wait)).getD false))]
  | .SSC_SLOTS => [(7, 0, countP' (fun e => decide (e.1 = d)) s.ssc.slots)]
  | .SSC_REF => [(15, 12, s.topCredit d)]
  | .SSC_SEG_FREE => [(21, 0, if s.ssc.begun && !s.ssc.busy && s.glb.warm.isNone then s.segFreeCount d else 0)]
  | .RSQ_ROB => [(13, 0, s.robUsed d)]
  | .RSQ_EDIT_BUSY => [(3, 0, s.editBusy d)]
  | .CRA_STATE => [(8, 0, s.faultedOn d)]
  | .CRA_SUPER => [(30, 30, b2n (s.superDown d i))]
  | .CRA_FAULT_Q => [(6, 0, (s.faultQ d i).length)]
  | .CRA_THREAD_STAT => [(31, 0, (s.threadStat d i).toNat)]
  | .TDX_STATE => [(1, 1, b2n (decide (65536 ≤ s.delayPool d))), (0, 0, b2n (decide (8192 ≤ s.taskPool d)))]
  | .TDX_RL_DEPTH => [(29, 16, s.listDepth d i true), (13, 0, s.listDepth d i false)]
  | .TDX_DL_DEPTH => [(16, 0, (s.delayList d i).length)]
  | .TDX_DL_NEXT => [(31, 0, ((s.delayList d i).head?.map (·.e)).getD 0)]
  | .SYU_EV_EXT => if idx.getD 1 0 = 31 then [(31, 31, 1)] else []
  | .PFB_STATE => [(1, 1, b2n (s.served d)), (0, 0, b2n (s.excluded d))]
  | .PFB_LINK_STAT => [(21, 16, if (s.linkEnd d i).isNone then 0 else s.linkLanes d i), (1, 0, s.linkState d i)]
  | .LPX_STATE => [(3, 0, s.linkMask d)]
  | .LPX_PORT_STAT => [(31, 0, (s.portStat d i).toNat)]
  | _ => []

/-- The word that a read of a register shows (R6): WO fields and reserved bits read as zero. -/
def State.view (s : State) (r : Reg) (d : Nat) (idx : List Nat) : Word :=
  let live := if r.info.glob then s.liveGlob r (idx.headD 0) else s.liveDie r d idx
  let w := live.foldl (fun w f => setFld w f.1 f.2.1 f.2.2) (s.reg r d idx)
  BitVec.ofNat 32 (Nat.land w.toNat (r.maskWhere (fun a => a != .wo)))

/-- The RC fields of a register clear after a read (R6). -/
def clearRc (s : State) (r : Reg) (d : Nat) (idx : List Nat) : State :=
  let m := r.maskWhere (fun a => a == .rc)
  if m = 0 then s else s.setReg r d idx (BitVec.ofNat 32 (Nat.land (s.reg r d idx).toNat (ones 32 - m)))

/-- The window of the debug registers is closed to a thread that runs, and to a number that no thread has (R294; log 15). -/
def State.dbgClosed (s : State) (d : Nat) : Bool :=
  let n := s.rf .CRA_DBG_SEL d [] 8 0
  !(decide (n < 384) && (s.thr d n).open_)

/-- A read of CRA_SLOTS with i = 1: a free value where a thread of the cluster is in HELPER or SYNC or has been since the last read, else 0; the read clears, and a thread that still waits goes on counting (R296; log 9). -/
def rdWaitSlots (s : State) (d k : Nat) : Status × Word × State :=
  let now : Bool := (clusterThreads k).any (fun n => decide ((s.thr d n).st = .helper) || decide ((s.thr d n).st = .sync))
  if now ∨ d * 6 + k ∈ s.cra.waitMark then
    (.ok, BitVec.ofNat 32 s.takeFree.1.toNat, { s.takeFree.2 with cra := { s.cra with waitMark := if now then ladd (d * 6 + k) s.cra.waitMark else lrem (d * 6 + k) s.cra.waitMark } })
  else (.ok, 0, s)

/-- A read of a register: its status, word and effect. -/
def readReg (s : State) (r : Reg) (d : Nat) (idx : List Nat) : Status × Word × State :=
  match r with
  | .PHI_NOW_XING => (.ok, (rdNowXing s).1, (rdNowXing s).2)
  | .QBA_QDATA => (.ok, (rdQdata s d (idx.headD 0)).1, (rdQdata s d (idx.headD 0)).2)
  | .CRA_DBG_LO => rdDbgLo s d
  | .CRA_DBG_HI => if s.dbgClosed d then (.busy, 0, s) else (.ok, s.reg .CRA_DBG_HI d [], s)
  | .CRA_SLOTS =>
    if idx.getD 1 0 = 1 then rdWaitSlots s d (idx.getD 0 0)
    else (.ok, s.view r d idx, clearRc s r d idx)
  | .BPM_POOL_FREE => (.ok, s.view r d idx, { s with bpm := { s.bpm with low := minsert (d * 8 + idx.headD 0) (s.poolFree d (idx.headD 0)) s.bpm.low } })
  | _ => (.ok, s.view r d idx, clearRc s r d idx)

/-- The port-scoped registers, whose image the partner of an excluded die serves (R469). -/
def Reg.portScoped : Reg → Bool
  | .PRS_PORT_CFG | .CLS_DEF_ACT | .CLS_DEF_ARG | .FWT_PORT_CFG | .FWT_PORT_FLOOD | .QBA_PORT_CFG | .RSQ_PORT_DATA | .CTE_PORT_STAT => true
  | _ => false

/-- A register of an excluded die that stays reachable: port-scoped, LPX or PFB (R469). CTE_SLICE_STAT is none of them, so its SERVED = 1 of R471 cannot be read (log 25). -/
def Reg.survives (r : Reg) : Bool := r.portScoped || decide (r.unit = 1) || decide (r.unit = 15)

/-- The register at an address that a host access reaches (R469, R527). -/
def State.reach (s : State) (a : Nat) : Option RegRef :=
  match locate a with
  | some x => if x.reg.info.glob then some x else if x.die < s.dies ∧ (¬ s.excluded x.die ∨ x.reg.survives) then some x else none
  | none => none

end Sys2Proof.Machine
end

