-- ==== Sys2Proof/Machine/RegWrite.lean ====
section
/-! DEFINITION. Host writes of registers: the checks of the register rules, the access codes of R6, the broadcast block (spec/19 R525 to R531) and the read-modify-write of R388. -/

namespace Sys2Proof.Machine

/-- Bytes that a flow-key profile would select (R133). -/
def keyBytes (lo hi : Word) : Nat := (maskList 32 lo.toNat).length + (maskList 32 hi.toNat).length

/-- A value that the register's rule refuses with GW_BADADDR. -/
def State.badValue (s : State) (r : Reg) (d : Nat) (idx : List Nat) (w : Word) : Bool :=
  match r with
  | .PHI_XLEN => decide (fld w 24 0 < 2) || decide (0x1000000 < fld w 24 0)
  | .PHI_TICK => decide (20 < fld w 4 0)
  | .CLS_FKEY_LO => decide (40 < keyBytes w (s.reg .CLS_FKEY_HI d idx))
  | .CLS_FKEY_HI => decide (40 < keyBytes (s.reg .CLS_FKEY_LO d idx) w)
  | .FWT_CFG => decide (65532 < fld w 15 0)
  | .FWT_MOVE => decide (31 < fld w 31 24)
  | .SYU_WATCH => decide (0x3FDF8 < fld w 17 0)
  | .GWE_ENCAP => decide (fld w 1 0 = 3) || (decide (fld w 1 0 ≠ 0) && decide (fld w 31 16 = 0))
  | .GLB_THERM_CFG => decide (fld w 7 0 < 60) || decide (110 < fld w 7 0)
  | _ => false

/-- What a register holds after a write that its rule shapes: ACQ_WORDS 0 reads back as 1, the low bits of SNAP and the bit of event 1,023 are not stored (R61, R369). -/
def shaped (r : Reg) (idx : List Nat) (w : Word) : Word :=
  match r with
  | .PHI_HOLD => if fld w 19 16 = 0 then setFld w 19 16 1 else w
  | .SYU_WATCH => setFld w 2 0 0
  | .SYU_EV_EXT => if idx.getD 1 0 = 31 then setFld w 31 31 0 else w
  | _ => w

/-- Ticks that have occurred and whose TICK has not run keep their number across a change of TICK_SHIFT (R43). -/
def retick (s : State) (old : Nat) : State := { s with phi := { s.phi with tickDone := (s.ticks + 2 ^ 64 - (old - s.phi.tickDone)) % (2 ^ 64 / 2 ^ s.tickShift) } }

/-- The write of a register by its access codes: RW fields take the written value, RWP fields in PROVISION; a write that would change an RWP field in another mode fails and changes nothing (R6). -/
def wrPlain (s : State) (r : Reg) (d : Nat) (idx : List Nat) (w : Word) : Ans :=
  let old := (s.reg r d idx).toNat
  let new := (shaped r idx w).toNat
  let p := r.maskWhere (fun a => a == .rwp)
  let m := r.maskWhere (fun a => a == .rwp || a == .rw)
  if s.badValue r d idx w then (.badaddr, s)
  else if s.glb.mode ≠ .provision ∧ Nat.land (Nat.xor old new) p ≠ 0 then (.mode, s)
  else if m = 0 then (.ok, s)
  else
    let t := s.setReg r d idx (BitVec.ofNat 32 (Nat.lor (Nat.land new m) (Nat.land old (ones 32 - m))))
    (.ok, if r = .PHI_TICK then retick t s.ticks else t)

/-- The write of a package register (R61, R101, R408, R432, R461, R482). -/
def wrGlob (s : State) (r : Reg) (idx : List Nat) (w : Word) : Ans :=
  match r with
  | .PHI_CTRL => wrPhiCtrl s w
  | .CTE_SWAP => wrSwap s w
  | .CTE_SWAP_XING => wrSwapXing s w
  | .GLB_CTRL => wrGlbCtrl s w []
  | .GLB_DIE_CTL => wrDieCtl s w
  | r => wrPlain s r 0 idx w

/-- The write of a die register. -/
def wrDie (s : State) (r : Reg) (d : Nat) (idx : List Nat) (w : Word) : Ans :=
  let i := idx.headD 0
  match r with
  | .CTE_PF_AREA => wrPfArea s d w
  | .FWT_HASH_SEED => wrHashSeed s d w
  | .BPM_POOL_BASE => wrPoolBase s d i w
  | .BPM_POOL_CNT => wrPoolCount s d i w
  | .BPM_HOST_FREE_LO => (.ok, s.setReg .BPM_HOST_FREE_LO d [] w)
  | .BPM_HOST_FREE_HI => wrHostFree s d w
  | .QBA_QSEL => wrQsel s d w
  | .RSQ_CFG => wrRsqCfg s d w
  | .RSQ_EDIT_PROG => wrEditProg s d i w
  | .RSQ_PORT_DATA => wrPortData s d i (idx.getD 1 0) w
  | .CRA_CFG => wrCraCfg s d w
  | .CRA_SUPER => wrSuper s d i w
  | .CRA_THREAD_EN => wrThreadEn s d i w
  | .CRA_THREAD_CTL => wrThreadCtl s d w
  | .CRA_BP => wrBp s d i (idx.getD 1 0) w
  | .CRA_DBG_SEL => wrDbgSel s d w
  | .CRA_DBG_LO => wrDbgLo s d w
  | .CRA_DBG_HI => wrDbgHi s d w
  | .CRA_PS_CHECK => wrPsCheck s d w
  | .TDX_CFG => wrTdxCfg s d w
  | .TDX_TRC_CTL => wrTrcCtl s d w
  | .TDX_TRC_MARK => wrTrcMark s d w
  | .SYU_CFG => wrSyuCfg s d w
  | .SYU_LK_FORCE => wrLkForce s d w
  | .SYU_EV_HSIG => wrEvHsig s d w
  | .SYU_CH_HPUT => wrChHput s d w
  | .SYU_INSP_SEL => wrInspSel s d w
  | .LPX_PORT_CFG => wrPortCfg s d i w
  | r => wrPlain s r d idx w

/-- A write of a register that the access reaches; the watch of the die sees what it does to threads (R364). -/
def writeReg (s : State) (x : RegRef) (w : Word) : Ans :=
  if x.reg.info.glob then wrGlob s x.reg x.idx w
  else
    let a := wrDie s x.reg x.die x.idx w
    (a.1, if x.reg.unit = 6 ∨ x.reg.unit = 8 then lapse a.2 x.die else a.2)

/-! The broadcast block. -/

/-- A register with an EXP_GEN field in a die block (R530). -/
def Reg.hasGen : Reg → Bool
  | .CRA_THREAD_CTL | .SYU_LK_FORCE => true
  | _ => false

/-- The dies that a broadcast write of a register reaches: the present dies that are not excluded, and the image of a port-scoped register (R529). -/
def State.bcastDies (s : State) (r : Reg) : List Nat := s.allDies.filter (fun d => !s.excluded d || r.portScoped)

/-- A broadcast write: checked on every die before any die changes; the lowest failing die gives the status (R529, R530). -/
def bcastWrite (s : State) (off : Nat) (w : Word) : Ans :=
  if off % 4 ≠ 0 then (.badaddr, s)
  else match regIn false off Reg.all with
    | none => (.badaddr, s)
    | some (r, idx) =>
      if r.hasGen ∧ fld w 31 16 ≠ 0xFFFF then (.badaddr, s)
      else
        let ds := s.bcastDies r
        match (ds.map (fun d => (writeReg s ⟨r, d, idx⟩ w).1)).find? (· ≠ .ok) with
        | some e => (e, s)
        | none => (.ok, overDies (fun d t => (writeReg t ⟨r, d, idx⟩ w).2) ds s)

/-- A write of one word at an address of the register space (R388, R527). -/
def writeAddr (s : State) (a : Nat) (w : Word) : Ans :=
  match bcastOffset a with
  | some off => bcastWrite s off w
  | none =>
    match s.reach a with
    | some x => writeReg s x w
    | none => (.badaddr, s)

/-- REGISTER_WRITE (R6, R388, R527). -/
def execRegisterWrite (a w : Word) (s : State) : Res := hostWr s (fun s => writeAddr s a.toNat w)

/-- BROADCAST_WRITE (R529 to R531): an offset in the block of 16 units. -/
def execBroadcastWrite (off : Nat) (w : Word) (s : State) : Res :=
  hostWr s (fun s => if off < 0x100000 then bcastWrite s off w else (.badaddr, s))

/-! RD, WR and RMW (R387, R388). -/

/-- The registers of n words from an address on; none when one of them cannot be read. -/
def State.reachAll (s : State) (a : Nat) : Nat → Option (List RegRef)
  | 0 => some []
  | n + 1 => match s.reach a, s.reachAll (a + 4) n with
    | some x, some l => some (x :: l)
    | _, _ => none

/-- Reads in ascending order, each with its own effect; a register that refuses ends the command (R388; log 17). -/
def readAll : List RegRef → State → TblAns
  | [], s => (.ok, [], s)
  | x :: l, s =>
    let (e, w, t) := readReg s x.reg x.die x.idx
    if e ≠ .ok then (e, [], s)
    else
      let (e2, b, u) := readAll l t
      if e2 = .ok then (.ok, beBytes 4 w.toNat ++ b, u) else (e2, [], u)

/-- RD (R388): COUNT 1 to 2,048; every address is checked before any register is read. -/
def rdOp (s : State) (a n : Nat) : TblAns :=
  if n = 0 ∨ 2048 < n ∨ a % 4 ≠ 0 then (.badaddr, [], s)
  else match s.reachAll a n with
    | none => (.badaddr, [], s)
    | some l => readAll l s

/-- The identification registers (R532). -/
def Reg.identifies : Reg → Bool
  | .GLB_PART | .GLB_FMAC_LO | .GLB_FMAC_HI | .GLB_SPACE_VER | .DIE_ID => true
  | _ => false

/-- RD is accepted: in the modes of R387, and in LISTEN of identification registers alone (R387, R532; log 17). -/
def State.readsNow (s : State) (a n : Nat) : Bool :=
  s.glb.mode.any || (decide (s.glb.mode = .listen) && decide (0 < n) && decide (n ≤ 2048) && ((s.reachAll a n).map (fun l => l.all (fun x => x.reg.identifies))).getD false)

/-- Writes at ascending addresses up to the first that fails: its status, the number written, the state. -/
def writeAll (a done : Nat) : List Word → State → Status × Nat × State
  | [], s => (.ok, done, s)
  | w :: l, s =>
    match writeAddr s a w with
    | (.ok, t) => writeAll (a + 4) (done + 1) l t
    | (e, t) => (e, done, t)

/-- WR (R388): 1 to 2,047 words; DONE gives the number written. -/
def wrOp (s : State) (a : Nat) (l : List Word) : TblAns :=
  if l = [] ∨ 2047 < l.length then (.badaddr, [], s)
  else
    let (e, n, t) := writeAll a 0 l s
    (e, beBytes 4 n, t)

/-- A register with an RC or WO field, which RMW refuses (R388). -/
def Reg.noRmw (r : Reg) (idx : List Nat) : Bool :=
  r.maskWhere (fun a => a == .rc || a == .wo) ≠ 0 || (decide (r = .QBA_QDATA) && decide (2 ≤ idx.headD 0))

/-- RMW (R388, R530): the old word, and the write of the masked value. -/
def rmwOp (s : State) (a : Nat) (mask value : Word) : TblAns :=
  match s.reach a with
  | none => (.badaddr, [], s)
  | some x =>
    if x.reg.noRmw x.idx then (.denied, [], s)
    else
      match readReg s x.reg x.die x.idx with
      | (.ok, old, t) =>
        let (e, u) := writeReg t x ((old &&& ~~~mask) ||| (value &&& mask))
        if e = .ok then (.ok, beBytes 4 old.toNat, u) else (e, [], u)
      | (e, _, _) => (e, [], s)

end Sys2Proof.Machine
end

