-- ==== Sys2Proof/Machine/Spaces.lean ====
section
/-! DEFINITION. The spaces behind the data window and the accesses of one unit to each (spec/13 R389 to R391 and the rule of each space: R67, R76, R99, R100, R116, R118, R161, R209, R267, R273, R347, R419, R420). -/

namespace Sys2Proof.Machine

/-- The spaces of R390. -/
def spaceOk (space : Nat) : Bool := decide (1 ≤ space) && decide (space ≤ 10)

/-- A space accepts a unit (R390). -/
def unitOk (space unit : Nat) : Bool :=
  spaceOk space && (decide (unit = 4) || (decide (unit = 8) && (decide (space = 3) || decide (space = 4) || decide (space = 5) || decide (space = 10))))

/-- A die whose stores a host access reaches: present and not excluded (R391, R469; log 25). -/
def State.isLive (s : State) (d : Nat) : Bool := decide (d < s.dies) && !s.excluded d

/-- A read that succeeds and changes nothing. -/
def okBytes (s : State) (l : List Byte) : TblAns := (.ok, l, s)

/-- A read of a word whose stored bits are lost: the bytes are a free value (log 6). -/
def freeBytesRead (s : State) (n : Nat) : TblAns := (.ok, beBytes n s.takeFree.1.toNat, s.takeFree.2)

/-- The address is not in the space's regions (R391). -/
def noUnit (s : State) : TblAns := (.badaddr, [], s)

/-! Space 0x01: registers. -/

/-- A register read through the window (R390). -/
def readRegUnit (s : State) (off : Nat) : TblAns :=
  match (if off < 2 ^ 32 then s.reach off else none) with
  | some x =>
    let (e, w, t) := readReg s x.reg x.die x.idx
    if e = .ok then (.ok, beBytes 4 w.toNat, t) else (e, [], s)
  | none => noUnit s

/-! Space 0x02: the microcode store (R419, R420). -/

/-- What an offset of space 0x02 names: a die's copy or the common image, the word, the byte in its block. -/
def State.mcsPlace (s : State) (off : Nat) : Option (Option Nat × Nat × Nat) :=
  let d := off / 0x1000000
  let o := off % 0x1000000
  if off < 0x80000 then some (none, off / 0x20, off % 0x20)
  else if 0x100000 ≤ o ∧ o < 0x180000 ∧ s.isLive d then some (some d, (o - 0x100000) / 0x20, o % 0x20)
  else none

/-- A read of a microword's 32-bit part or of its code; the common image is read from the lead Pilot's die. -/
def readMcs (s : State) (off : Nat) : TblAns :=
  match s.mcsPlace off with
  | some (d, w, k) =>
    if 0x14 ≤ k then noUnit s
    else if s.mcsIsBad (d.getD s.plt.lead) w then freeBytesRead s 4
    else if k = 0x10 then okBytes s (beBytes 4 (Config.mcsCode (s.mcsWord w)).toNat)
    else okBytes s (beBytes 4 (mfld (s.mcsWord w) (8 * k + 31) (8 * k)))
  | none => noUnit s

/-- The words held for a microword are dropped (R419). -/
def dropMcsHeld (s : State) (w : Nat) : State := { s with plt := { s.plt with mcsHeld := mdrop (fun k => k / 4 = w) s.plt.mcsHeld } }

/-- Part i of a microword as a write of +0xC finds it: the word held for it, or its present value (R419). -/
def State.mcsPart (s : State) (w i : Nat) : Nat :=
  match mfind s.plt.mcsHeld (w * 4 + i) with
  | some x => x.toNat
  | none => mfld (s.mcsWord w) (32 * i + 31) (32 * i)

/-- The microword that a write of +0xC would store (R419). -/
def State.mcsNew (s : State) (w : Nat) (v : Word) : BitVec 128 :=
  BitVec.ofNat 128 (s.mcsPart w 0 + s.mcsPart w 1 * 2 ^ 32 + s.mcsPart w 2 * 2 ^ 64 + v.toNat * 2 ^ 96)

/-- A microword stored on every die and every copy of it good again; the store no longer matches the sealed digest (R419, R427, R432). -/
def storeMcs (s : State) (w : Nat) (v : BitVec 128) : State :=
  let t := s.setMcs w v
  ({ t with plt := { t.plt with mcsBad := t.plt.mcsBad.filter (fun x => x.2 ≠ w) } } : State).setRf .MCS_CTRL 0 [] 0 0 0

/-- Why a write of +0xC fails, in the order of R420. -/
def State.mcsRefuses (s : State) (w : Nat) (new : BitVec 128) : Option Status :=
  if s.glb.mode ≠ .provision then some .mode
  else if w < 0x3000 then some .denied
  else if bit (s.reg .MCS_CTRL 0 []) 1 then some .denied
  else if s.opRunning OpKind.isPatch then some .busy
  else if ¬ mcsGood new then some .badaddr
  else none

/-- MCS_WORD_COMMIT: a write of +0xC (R419, R420). -/
def commitMcs (s : State) (w : Nat) (v : Word) : Ans :=
  let t := dropMcsHeld s w
  match s.mcsRefuses w (s.mcsNew w v) with
  | some e => (e, t)
  | none => (.ok, storeMcs t w (s.mcsNew w v))

/-- A write of space 0x02; while a patch operation runs every write fails with GW_BUSY (R419, R427). -/
def writeMcs (s : State) (off : Nat) (v : Word) : Ans :=
  match s.mcsPlace off with
  | some (none, w, k) =>
    if 0x14 ≤ k then (.badaddr, s)
    else if k = 0x10 then (.denied, s)
    else if k = 0xC then commitMcs s w v
    else if s.opRunning OpKind.isPatch then (.busy, s)
    else (.ok, { s with plt := { s.plt with mcsHeld := minsert (w * 4 + k / 4) v s.plt.mcsHeld } })
  | some (some _, _, k) => if 0x14 ≤ k then (.badaddr, s) else (.denied, s)
  | none => (.badaddr, s)

/-! Spaces 0x03 to 0x06: scratchpads, quay, staging store, program stores. -/

/-- The cluster and byte that an offset of space 0x03 names (R273). -/
def State.padPlace (s : State) (off : Nat) : Option (Nat × Nat × Nat) :=
  let d := off / 0x1000000
  let k := off % 0x1000000 / 0x40000
  if s.isLive d ∧ k < 6 then some (d, k, off % 0x40000) else none

/-- A read of a scratchpad. -/
def readPad (s : State) (unit off : Nat) : TblAns :=
  match s.padPlace off with
  | some (d, k, b) => if padKey d k (b / 8 * 8) / 8 ∈ s.cra.padBad then freeBytesRead s unit else okBytes s (s.padBytes d k b unit)
  | none => noUnit s

/-- A write of a scratchpad, in any mode. -/
def writePad (s : State) (off : Nat) (l : List Byte) : Ans :=
  match s.padPlace off with
  | some (d, k, b) => (.ok, s.putPad d k b l)
  | none => (.badaddr, s)

/-- The die and quay byte that an offset of space 0x04 names (R390). -/
def State.quayPlace (s : State) (off : Nat) : Bool := s.isLive (off / 0x2000000) && decide (off % 0x2000000 ≤ 0x17FFFFF)

/-- A read of the quay as it stands (R390). -/
def readQuay (s : State) (unit off : Nat) : TblAns :=
  if s.quayPlace off then
    (if off / 8 ∈ s.bpm.bad then freeBytesRead s unit else okBytes s (bytesAt s.bpm.quay off unit))
  else noUnit s

/-- A write of the quay, in PROVISION (R390). -/
def writeQuay (s : State) (off : Nat) (l : List Byte) : Ans :=
  if ¬ s.quayPlace off then (.badaddr, s)
  else if s.glb.mode ≠ .provision then (.mode, s)
  else (.ok, { s with bpm := { s.bpm with quay := putBytes s.bpm.quay off l, bad := clearWords s.bpm.bad off l.length } })

/-- Data bytes of a segment: by the group that wrote it, or by the present group (R200, R209, R231). -/
def State.segSize (s : State) (j : Nat) : Nat := dataSize ((s.seg j).map (·.smask) |>.getD s.ssc.smask)

/-- An offset of space 0x05 is a byte of a segment's data space (R209). -/
def State.segPlace (s : State) (off : Nat) : Bool := decide (off / 0x10000 < segTotal) && decide (off % 0x10000 < s.segSize (off / 0x10000))

/-- A read of the staging store; pieces served from parity are rebuilt (R209). -/
def readStage (s : State) (unit off : Nat) : TblAns :=
  if s.segPlace off then okBytes (windowPiece s (off / 0x10000) (off % 0x10000)) (s.segBytes (off / 0x10000) (off % 0x10000) unit) else noUnit s

/-- STAGING_STORE_WRITE (R209). -/
def writeStage (s : State) (off : Nat) (l : List Byte) : Ans :=
  if ¬ s.segPlace off then (.badaddr, s)
  else if s.glb.mode ≠ .provision then (.denied, s)
  else (.ok, windowWrite s (off / 0x10000) (off % 0x10000) l)

/-- What an offset of space 0x06 names: the common image or one cluster's, and the instruction (R267). -/
def State.psPlace (s : State) (off : Nat) : Option (Option (Nat × Nat) × Nat) :=
  let d := off / 0x1000000
  let o := off % 0x1000000
  if off < 0x20000 then some (none, off / 4)
  else if 0x100000 ≤ o ∧ o < 0x1C0000 ∧ s.isLive d then some (some (d, (o - 0x100000) / 0x20000), o % 0x20000 / 4)
  else none

/-- A read of an instruction; the common image is read from cluster 0 of the lead's die. -/
def readPs (s : State) (off : Nat) : TblAns :=
  match s.psPlace off with
  | some (c, w) =>
    let (d, k) := c.getD (s.plt.lead, 0)
    if s.psIsBad d k w then freeBytesRead s 4 else okBytes s (beBytes 4 (s.psWord d k w).toNat)
  | none => noUnit s

/-- The clusters of the part. -/
def State.clusters (s : State) : List (Nat × Nat) := s.allDies.flatMap (fun d => (List.range 6).map (fun k => (d, k)))

/-- An instruction stored in every cluster of every present die (R267). -/
def storePs (s : State) (w : Nat) (v : Word) : State :=
  s.clusters.foldl (fun (t : State) c => { t with cra := { t.cra with
    ps := mset 0 t.cra.ps (psKey c.1 c.2 w) v, psBad := t.cra.psBad.filter (fun x => x ≠ psKey c.1 c.2 w) } }) s

/-- A write of a program store (R267). -/
def writePs (s : State) (off : Nat) (v : Word) : Ans :=
  match s.psPlace off with
  | some (c, w) =>
    if s.glb.mode ≠ .provision then (.mode, s)
    else if c.isSome then (.denied, s)
    else (.ok, storePs s w v)
  | none => (.badaddr, s)

/-! Space 0x07: the timetable (R99, R100). -/

/-- What an offset of a slice holds. -/
inductive TtPlace
  | window (copy b w i : Nat)
  | bank (b i : Nat)
  | bankCnt (b i : Nat)
  | queue (q i : Nat)
  | queueCnt (q i : Nat)
  deriving DecidableEq, Repr

/-- The place that an offset of space 0x07 names (R99). -/
def State.ttPlace (s : State) (off : Nat) : Option TtPlace :=
  let d := off / 0x1000000
  let o := off % 0x1000000
  if ¬ s.isLive d then none
  else if o < 0x40000 then some (.window (o / 0x20000) (d * 1024 + o % 0x20000 / 0x80) (o % 0x80 / 0x10) (o % 0x10 / 4))
  else if o < 0x44000 then some (.bank (d * 1024 + (o - 0x40000) / 0x10) (o % 0x10 / 4))
  else if 0x50000 ≤ o ∧ o < 0x58000 then some (.bankCnt (d * 1024 + (o - 0x50000) / 0x20) (o % 0x20 / 4))
  else if 0x80000 ≤ o ∧ o < 0x100000 then some (.queue (d * 32768 + (o - 0x80000) / 0x10) (o % 0x10 / 4))
  else if 0x100000 ≤ o ∧ o < 0x200000 then some (.queueCnt (d * 32768 + (o - 0x100000) / 0x20) (o % 0x20 / 4))
  else none

/-- OPEN_WIN: the lowest window slot that covers the present step in the active copy (R100). -/
def State.openWin (s : State) (b : Nat) : Nat :=
  ((List.range 8).find? (fun w => (s.window (s.copyAt (s.xingOn (s.bankServer b))) b w).covers s.xlen (s.xingOn (s.bankServer b)) (s.stepOn (s.bankServer b)))).getD 0

/-- A read of a bank's counters; the RC fields clear (R100). -/
def readBankCnt (s : State) (b i : Nat) : TblAns :=
  let x := s.bank b
  match i with
  | 0 => (.ok, beBytes 4 (x.pfLate * 65536 + b2n (s.ptx (s.bankPort b)).link * 8 + s.openWin b), s.modBank b (fun x => { x with pfLate := 0 }))
  | 1 => (.ok, beBytes 4 x.nofit, s.modBank b (fun x => { x with nofit := 0 }))
  | 2 => (.ok, beBytes 4 x.runs, s.modBank b (fun x => { x with runs := 0 }))
  | _ => okBytes s (beBytes 4 0)

/-- HEAD_AGE of a queue (R97, R100). -/
def State.headAge (s : State) (q : Nat) : Nat :=
  match (s.lq q).items.head? with
  | some i => s.ageOf i
  | none => 0

/-- A read of a landing queue's counters; CTE_DEP_KB keeps its remainder (R100). -/
def readQueueCnt (s : State) (q i : Nat) : TblAns :=
  let x := s.lq q
  match i with
  | 0 => (.ok, beBytes 4 x.depKb, s.modLq q (fun x => { x with depKb := 0 }))
  | 1 => (.ok, beBytes 4 x.depFrames, s.modLq q (fun x => { x with depFrames := 0 }))
  | 2 => (.ok, beBytes 4 x.ageDrop, s.modLq q (fun x => { x with ageDrop := 0 }))
  | 3 => (.ok, beBytes 4 x.linkAbort, s.modLq q (fun x => { x with linkAbort := 0 }))
  | 4 => okBytes s (beBytes 4 (s.headAge q))
  | _ => okBytes s (beBytes 4 0)

/-- A read of space 0x07. -/
def readTt (s : State) (off : Nat) : TblAns :=
  match s.ttPlace off with
  | some (.bankCnt b i) => readBankCnt s b i
  | some (.queueCnt q i) => readQueueCnt s q i
  | some _ => okBytes s (beBytes 4 (s.tt off).toNat)
  | none => noUnit s

/-- Why a write to a window entry of a copy is refused (R76, R79, R81). -/
def State.windowRefuses (s : State) (copy : Nat) : Option Status :=
  let chosen := s.copySrc && (match s.cte.nextCopy with
    | some (c, _) => decide (c = copy)
    | none => false)
  if s.glb.mode ≠ .provision ∧ (copy = s.cte.active ∨ chosen) then some .denied
  else if s.cte.swap.isSome ∧ copy ≠ s.cte.active then some .busy
  else none

/-- Part i of a window entry as a write of word 3 finds it (R67). -/
def State.winPart (s : State) (copy b w i : Nat) : Word := (mfind s.cte.held (winOff copy b w i)).getD (s.tt (winOff copy b w i))

/-- The words held for a window entry are dropped (R67). -/
def dropWinHeld (s : State) (copy b w : Nat) : State :=
  { s with cte := { s.cte with held := mdrop (fun k => winOff copy b w 0 ≤ k ∧ k < winOff copy b w 0 + 16) s.cte.held } }

/-- A window entry changed whole (R67). -/
def putWindow (s : State) (copy b w : Nat) (w0 w1 w2 w3 : Word) : State :=
  let t := (((s.setTt (winOff copy b w 0) w0).setTt (winOff copy b w 1) w1).setTt (winOff copy b w 2) w2).setTt (winOff copy b w 3) w3
  { t with cte := { t.cte with bad := t.cte.bad.filter (fun o => o ≠ winOff copy b w 0) } }

/-- WINDOW_ENTRY_COMMIT: a write of word 3 (R67, R76). -/
def commitWindow (s : State) (copy b w : Nat) (v : Word) : Ans :=
  let w3 := v &&& 0xEFFFFFFF
  let t := dropWinHeld s copy b w
  match s.windowRefuses copy with
  | some e => (e, t)
  | none =>
    let w0 := s.winPart copy b w 0
    let w1 := s.winPart copy b w 1
    let w2 := s.winPart copy b w 2
    if (Window.ofWords w0 w1 w2 w3).good then (.ok, putWindow t copy b w w0 w1 w2 w3) else (.badaddr, t)

/-- A write of words 0 to 2 of a window entry is held (R67). -/
def holdWindow (s : State) (copy b w i : Nat) (v : Word) : Ans :=
  match s.windowRefuses copy with
  | some e => (e, s)
  | none => (.ok, { s with cte := { s.cte with held := minsert (winOff copy b w i) (v &&& 0x00FFFFFF) s.cte.held } })

/-- One of the bank's queues holds frames (R63, R100). -/
def State.bankHolds (s : State) (b : Nat) : Bool := s.qba.lq.any (fun e => decide (bankOf e.1 = b) && !e.2.items.isEmpty)

/-- The first word of an entry of bank b or of its queues is kept for the bank's turn, if it is its turn and the entry has not changed in it before (R98; log 30). -/
def holdServed (s : State) (b off : Nat) : State :=
  let x := s.ptx (s.bankPort b)
  if x.turn = some b ∧ (mfind x.held off).isNone then s.modPtx (s.bankPort b) (fun x => { x with held := minsert off (s.tt off) x.held }) else s

/-- A write of a timetable word outside the windows; a rewritten entry needs no restore (R462). -/
def putTt (s : State) (off : Nat) (v : Word) : Ans :=
  let t := s.setTt off v
  (.ok, { t with cte := { t.cte with bad := t.cte.bad.filter (fun o => o ≠ off / 16 * 16) } })

/-- A write of word 0 of a bank entry (R100). -/
def writeBank (s : State) (b off : Nat) (v : Word) : Ans :=
  let old := s.tt off
  if fld v 1 0 ≠ fld old 1 0 ∧ (bit old 31 ∨ s.bankHolds b) then (.busy, s) else putTt (holdServed s b off) off (v &&& 0x8000FF03)

/-- The bits of word i of a landing queue entry that a write sets (R100, R196). -/
def lqMask (i : Nat) : Word := ([0x80003FFF, 0xFFFFFFFF, 0xFFFF0000, 0xFFFFFF00] : List Word).getD i 0

/-- A write of space 0x07. -/
def writeTt (s : State) (off : Nat) (v : Word) : Ans :=
  match s.ttPlace off with
  | some (.window c b w i) => if i = 3 then commitWindow s c b w v else holdWindow s c b w i v
  | some (.bank b i) => if i = 0 then writeBank s b off v else (.ok, s)
  | some (.queue q i) => putTt (if i = 0 then holdServed s (bankOf q) off else s) off (v &&& lqMask i)
  | some _ => (.ok, s)
  | none => (.badaddr, s)

/-! Spaces 0x08 and 0x09: TCAM and LPM memory. -/

/-- The die, entry and word that an offset of space 0x08 names (R116). -/
def State.tcPlace (s : State) (off : Nat) : Option (Nat × Nat × Nat) :=
  let d := off / 0x1000000
  let i := off % 0x1000000 / 0x100
  if s.isLive d ∧ i < 8192 then some (d, i, off % 0x100 / 4) else none

/-- A read of space 0x08. -/
def readTc (s : State) (off : Nat) : TblAns :=
  match s.tcPlace off with
  | some (d, i, w) => okBytes s (beBytes 4 (s.tc d i w).toNat)
  | none => noUnit s

/-- A write of an entry's control word: TCAM_VALIDATE and TCAM_INVALIDATE (R116, R118). -/
def writeTcCtl (s : State) (d i : Nat) (v : Word) : Ans :=
  let on := bit (s.tc d i 44) 31
  if bit v 31 then
    (if 4 < mfld (s.tcAction d i) 127 125 then (.badaddr, s)
     else if on then (.ok, s)
     else (.ok, (s.setTc d i 44 0x80000000).setTc d i 45 0))
  else (.ok, s.setTc d i 44 0)

/-- The bits of TCAM word w that hold something: the reserved bits of an action, its bits [65:64] and [7:0], are not stored and read as zero (R9, R117). -/
def tcMask (w : Nat) : Word := if w = 40 then 0xFFFFFF00 else if w = 42 then 0xFFFFFFFC else 0xFFFFFFFF

/-- A write of space 0x08 (R116 to R118, R463). -/
def writeTc (s : State) (off : Nat) (v : Word) : Ans :=
  match s.tcPlace off with
  | some (d, i, w) =>
    if (d, i) ∈ s.icu.stuck then (.denied, s)
    else if w < 44 then (if bit (s.tc d i 44) 31 then (.busy, s) else (.ok, s.setTc d i w (v &&& tcMask w)))
    else if w = 44 then writeTcCtl s d i v
    else (.ok, s)
  | none => (.badaddr, s)

/-- The die, entry and word that an offset of space 0x09 names (R161). -/
def State.lpmPlace (s : State) (off : Nat) : Option (Nat × Nat × Nat) :=
  let d := off / 0x1000000
  let o := off % 0x1000000
  if s.isLive d ∧ o < 0x200000 then some (d, o / 0x20, o % 0x20 / 4) else none

/-- Word w of an LPM entry (R161). -/
def LpmEnt.word (e : LpmEnt) (w : Nat) : Word :=
  if w < 5 then BitVec.ofNat 32 (bitsOf e.key.toNat (159 - 32 * w) (128 - 32 * w)) else if w = 5 then e.result else 0

/-- An LPM entry with word w written; reserved bits stay zero (R157, R161). -/
def LpmEnt.put (e : LpmEnt) (w : Nat) (v : Word) : LpmEnt :=
  if w < 5 then
    let x := if w = 0 then v &&& 0xFFC0FFFF else v
    { e with key := BitVec.ofNat 160 (setBitsOf e.key.toNat (159 - 32 * w) (128 - 32 * w) x.toNat) }
  else if w = 5 then { e with result := v &&& 0x00FFFFFF }
  else e

/-- A read of space 0x09. -/
def readLpm (s : State) (off : Nat) : TblAns :=
  match s.lpmPlace off with
  | some (d, i, w) => okBytes s (beBytes 4 ((s.lpmAt d i).word w).toNat)
  | none => noUnit s

/-- A write of space 0x09 (R161, R463). -/
def writeLpm (s : State) (off : Nat) (v : Word) : Ans :=
  match s.lpmPlace off with
  | some (d, i, w) =>
    if s.glb.mode ≠ .provision ∨ (d, 8192 + i) ∈ s.icu.stuck then (.denied, s)
    else (.ok, s.setLpm d i ((s.lpmAt d i).put w v))
  | none => (.badaddr, s)

/-! Space 0x0A: trace (R347). -/

/-- The trace record that an offset of space 0x0A names. -/
def State.tracePlace (s : State) (off : Nat) : Option (BitVec 128) :=
  if off < 0x1000000000 then
    let d := off / 0x1000000
    let i := off % 0x1000000 / 16
    if s.isLive d ∧ i < 65536 then some (mget 0 s.tdx.ring (d * 65536 + i)) else none
  else
    let o := off - 0x1000000000
    let d := o / 0x10000000
    if s.isLive d then some (mget 0 s.tdx.spill (d * 0x1000000 + o % 0x10000000 / 16)) else none

/-- A read of space 0x0A; a record is 16 bytes, most significant first. One of the spill area is a read of the stack through P6 (R210, R347). -/
def readTrace (s : State) (unit off : Nat) : TblAns :=
  let o := off - 0x1000000000
  match s.tracePlace off with
  | some r => okBytes (if off < 0x1000000000 then s else windowSpill s (o / 0x10000000) (o % 0x10000000 / 16)) (sliceOf (beBytes 16 r.toNat) (off % 16) unit)
  | none => noUnit s

/-! One unit access. -/

/-- A read of one unit at an offset of a space (R390). -/
def readUnit (s : State) (space unit off : Nat) : TblAns :=
  match space with
  | 1 => readRegUnit s off
  | 2 => readMcs s off
  | 3 => readPad s unit off
  | 4 => readQuay s unit off
  | 5 => readStage s unit off
  | 6 => readPs s off
  | 7 => readTt s off
  | 8 => readTc s off
  | 9 => readLpm s off
  | 10 => readTrace s unit off
  | _ => noUnit s

/-- A write of one unit's bytes at an offset of a space (R390). -/
def writeUnit (s : State) (space off : Nat) (l : List Byte) : Ans :=
  let v : Word := BitVec.ofNat 32 (beNat l)
  match space with
  | 1 => if off < 2 ^ 32 then writeAddr s off v else (.badaddr, s)
  | 2 => writeMcs s off v
  | 3 => writePad s off l
  | 4 => writeQuay s off l
  | 5 => writeStage s off l
  | 6 => writePs s off v
  | 7 => writeTt s off v
  | 8 => writeTc s off v
  | 9 => writeLpm s off v
  | 10 => (if (s.tracePlace off).isSome then .denied else .badaddr, s)
  | _ => (.badaddr, s)

/-- Reads of n units at ascending offsets up to the first that fails: its status, the bytes read, the units done (R391). -/
def readUnits (space unit : Nat) : Nat → Nat → State → Status × List Byte × Nat × State
  | 0, _, s => (.ok, [], 0, s)
  | n + 1, off, s =>
    match readUnit s space unit off with
    | (.ok, l, t) =>
      let (e, m, k, u) := readUnits space unit n (off + unit) t
      (e, l ++ m, k + 1, u)
    | (e, _, _) => (e, [], 0, s)

/-- Writes of units at ascending offsets up to the first that fails: its status, the units done (R391). -/
def writeUnits (space unit off : Nat) : List (List Byte) → State → Status × Nat × State
  | [], s => (.ok, 0, s)
  | l :: r, s =>
    match writeUnit s space off l with
    | (.ok, t) =>
      let (e, k, u) := writeUnits space unit (off + unit) r t
      (e, k + 1, u)
    | (e, t) => (e, 0, t)

end Sys2Proof.Machine
end

