-- ==== Sys2Proof/Machine/LongOps.lean ====
section
/-! DEFINITION. Long operations, their records, and patch containers (spec/13 R393 to R396, R400, spec/14 R414, R416, R424 to R429). -/

namespace Sys2Proof.Machine

/-! Records and turns. -/

/-- A record slot. -/
def State.op (s : State) (i : Nat) : Option OpRec := s.plt.ops.getD i none

/-- A record changed. -/
def State.setOp (s : State) (i : Nat) (r : Option OpRec) : State := { s with plt := { s.plt with ops := setNth s.plt.ops i r } }

/-- The lowest free record slot (R393). -/
def State.freeOp (s : State) : Option Nat := (List.range 16).find? (fun i => (s.op i).isNone)

/-- The slot that holds a number's record (R395, R396). -/
def State.opSlot (s : State) (opid : Nat) : Option Nat :=
  (List.range 16).find? (fun i => match s.op i with
    | some r => decide (r.opid = opid)
    | none => false)

/-- OPIDs count up modulo 2^16 and skip 0xFFFF (R394). -/
def opidAfter (n : Nat) : Nat := if n + 1 < 0xFFFF then n + 1 else 0

/-- How long ago an operation was started, in numbers. -/
def State.opAge (s : State) (opid : Nat) : Nat := (s.plt.nextOpid + 65536 - opid) % 65536

/-- Long operations run one at a time, in OPID order (R414): the operation of a slot is the oldest that has not ended. -/
def State.opTurn (s : State) (i : Nat) : Bool :=
  match s.op i with
  | none => false
  | some r => !r.ended && s.plt.ops.all (fun o => match o with
    | some x => x.ended || decide (s.opAge x.opid ≤ s.opAge r.opid)
    | none => true)

/-- An operation starts in a slot (R393, R394). -/
def startOp (s : State) (i : Nat) (kind : OpKind) : Nat × State :=
  let n := s.plt.nextOpid
  let r : OpRec := { opid := n, ended := false, status := .ok, kind := kind, progress := 0, result := 0, xing := 0, step := 0, mark := 0, acc := 0xFFFFFFFF }
  let t : State := s.setOp i (some r)
  (n, { t with plt := { t.plt with nextOpid := opidAfter n } })

/-- KIND of a record (R394). -/
def OpKind.code : OpKind → Nat
  | .fill _ => 1
  | .crc _ => 2
  | .tblClear _ => 3
  | .patch => 4

/-- A completion record as 32 bytes (R394). -/
def OpRec.bytes (r : OpRec) : List Byte :=
  beBytes 2 r.opid ++ beBytes 1 (b2n r.ended) ++ beBytes 1 r.status.code ++ beBytes 1 r.kind.code ++ [0, 0, 0]
    ++ beBytes 8 r.progress ++ beBytes 4 r.result ++ [0, 0, 0, 0] ++ beBytes 4 r.xing ++ beBytes 4 r.step

/-! LONG (R393). -/

/-- The arguments of FILL and CRC are valid: space, unit, offset and length (R389, R393). -/
def longRange (a : LongArgs) : Bool :=
  unitOk a.space a.unit && decide (a.offset < 2 ^ 48) && decide (a.offset % a.unit = 0) && decide (a.length % a.unit = 0)

/-- The arguments of TBL_CLEAR are valid: a table, and a die or all (R393). -/
def State.clearOk (s : State) (a : LongArgs) : Bool :=
  decide (1 ≤ a.space) && decide (a.space ≤ 3) && (decide (a.unit = 0xFF) || s.isLive a.unit)

/-- An operation gets a record, or all 16 are held (R393). -/
def takeOp (s : State) (kind : OpKind) : TblAns :=
  match s.freeOp with
  | none => (.busy, [], s)
  | some i =>
    let (n, t) := startOp s i kind
    (.ok, beBytes 2 n ++ [0, 0], t)

/-- LONG FILL (R393). -/
def longFill (s : State) (a : LongArgs) : TblAns := if longRange a then takeOp s (.fill a) else (.badaddr, [], s)
/-- LONG CRC (R393). -/
def longCrc (s : State) (a : LongArgs) : TblAns := if longRange a then takeOp s (.crc a) else (.badaddr, [], s)
/-- LONG TBL_CLEAR: table 3 only in PROVISION (R393). -/
def longClear (s : State) (a : LongArgs) : TblAns :=
  if ¬ s.clearOk a then (.badaddr, [], s)
  else if a.space = 3 ∧ s.glb.mode ≠ .provision then (.mode, [], s)
  else takeOp s (.tblClear a)

/-- LONG by its KIND (R393). -/
def longOp (s : State) (kind : Nat) (a : LongArgs) : TblAns :=
  match kind with
  | 1 => longFill s a
  | 2 => longCrc s a
  | 3 => longClear s a
  | _ => (.badaddr, [], s)

/-! Running (R393, R416). -/

/-- The bytes of PATTERN at one unit: its low UNIT bytes (R393). -/
def longUnit (a : LongArgs) : List Byte := beBytes a.unit (a.pattern.toNat % 2 ^ (8 * a.unit))

/-- The next n units of a FILL: the record with its progress, whether the operation has ended and how. -/
def fillSome (s : State) (r : OpRec) (a : LongArgs) (n : Nat) : Option Status × OpRec × State :=
  let k := min n ((a.length - r.progress) / a.unit)
  let (e, m, t) := writeUnits a.space a.unit (a.offset + r.progress) (List.replicate k (longUnit a)) s
  let x := { r with progress := r.progress + m * a.unit }
  (if e ≠ .ok then some e else if a.length ≤ x.progress then some .ok else none, x, t)

/-- The next n units of a CRC. -/
def crcSome (s : State) (r : OpRec) (a : LongArgs) (n : Nat) : Option Status × OpRec × State :=
  let k := min n ((a.length - r.progress) / a.unit)
  let (e, l, m, t) := readUnits a.space a.unit k (a.offset + r.progress) s
  let x := { r with progress := r.progress + m * a.unit, acc := crc32cFeed r.acc l }
  if e ≠ .ok then (some e, x, t)
  else if a.length ≤ x.progress then (some .ok, { x with result := Nat.xor x.acc 0xFFFFFFFF }, t)
  else (none, x, t)

/-- The index space of a table on a die, with room for the largest. -/
def clearKey (d i : Nat) : Nat := d * 2 ^ 20 + i

/-- The valid entries of the tables that a TBL_CLEAR has not yet visited, in its order: dies, then indices (R393). -/
def State.clearList (s : State) (a : LongArgs) (mark : Nat) : List (Nat × Nat) :=
  (s.liveDies.filter (fun d => decide (a.unit = 0xFF) || decide (a.unit = d))).flatMap (fun d =>
    ((s.tblList d a.space).filter (fun x => decide (mark ≤ clearKey d x.1))).map (fun x => (d, x.1)))

/-- An entry is static (R137, R139); an LPM entry counts as one (R157). -/
def State.entryStatic (s : State) (table d i : Nat) : Bool :=
  if table = 1 then ((s.l2At d i).map (·.isStatic)).getD true
  else if table = 2 then ((s.flowAt d i).map (·.isStatic)).getD true
  else true

/-- One entry visited: removed as DELETE removes it, unless only learned entries go and it is static (R393). -/
def clearOne (a : LongArgs) (x : OpRec × State) (e : Nat × Nat) : OpRec × State :=
  let r := { x.1 with progress := x.1.progress + 1, mark := clearKey e.1 e.2 + 1 }
  if a.flags % 2 = 1 ∧ x.2.entryStatic a.space e.1 e.2 then (r, x.2)
  else ({ r with result := r.result + 1 }, tblRemove x.2 a.space e.1 e.2)

/-- An entry that a TBL_CLEAR may not write: a stuck LPM entry that it would remove (R463; log 52). -/
def State.clearDenied (s : State) (a : LongArgs) (e : Nat × Nat) : Bool := decide (a.space = 3) && decide (a.flags % 2 = 0) && s.lpmStuck e.1 e.2

/-- The next n entries of a TBL_CLEAR; it ends with GW_BADADDR when its die has been excluded (R391), and with GW_DENIED at a stuck entry that it would remove (R463). -/
def clearSome (s : State) (r : OpRec) (a : LongArgs) (n : Nat) : Option Status × OpRec × State :=
  if ¬ s.clearOk a then (some .badaddr, r, s)
  else
    let l := s.clearList a r.mark
    let m := (l.take n).takeWhile (fun e => !s.clearDenied a e)
    let (x, t) := m.foldl (clearOne a) (r, s)
    (if m.length < min n l.length then some .denied else if l.length ≤ n then some .ok else none, x, t)

/-- The next part of an operation: a PATCH is carried on by PATCH_APPLY. -/
def opSome (s : State) (r : OpRec) (units entries : Nat) : Option Status × OpRec × State :=
  match r.kind with
  | .fill a => fillSome s r a units
  | .crc a => crcSome s r a units
  | .tblClear a => clearSome s r a entries
  | .patch => (none, r, s)

/-- The operation of a slot carried on, if it is its turn; no operation runs while a takeover is due (R414, R416). -/
def runOp (s : State) (i units entries : Nat) : State :=
  match s.op i with
  | none => s
  | some r =>
    if s.plt.leadMove.isSome ∨ ¬ s.opTurn i then s
    else
      let (e, x, t) := opSome s r units entries
      let t := t.setOp i (some x)
      match e with
      | some st => endOp t i st
      | none => t

/-- Units of a FILL or CRC between checkpoints: 64 KiB (R416). -/
def State.checkUnits (s : State) (i : Nat) : Nat :=
  match s.op i with
  | some r => (match r.kind with
    | .fill a => 65536 / a.unit
    | .crc a => 65536 / a.unit
    | _ => 0)
  | none => 0

/-- Units of a FILL or CRC in all. -/
def State.allUnits (s : State) (i : Nat) : Nat :=
  match s.op i with
  | some r => (match r.kind with
    | .fill a => a.length / a.unit
    | .crc a => a.length / a.unit
    | _ => 0)
  | none => 0

/-- LONG_OP_CHECKPOINT: the next 64 KiB or 1,024 entries (R416). -/
def execLongOpCheckpoint (slot : Fin 16) (s : State) : Res := .next (runOp s slot (s.checkUnits slot) 1024)

/-- LONG_OP_COMPLETE: the rest of the operation and its record (R394). -/
def execLongOpComplete (slot : Fin 16) (s : State) : Res := .next (runOp s slot (s.allUnits slot) (2 ^ 24))

/-- LONG_FILL (R393). -/
def execLongFill (a : LongArgs) (s : State) : Res := .next (hostOp s 0x40 (longFill s a))
/-- LONG_CRC (R393). -/
def execLongCrc (a : LongArgs) (s : State) : Res := .next (hostOp s 0x40 (longCrc s a))
/-- LONG_TBL_CLEAR (R393). -/
def execLongTblClear (a : LongArgs) (s : State) : Res := .next (hostOp s 0x40 (longClear s a))

/-! ABORT and STATUS (R395, R396). -/

/-- ABORT: work done before the stop stays (R395, R428). -/
def abortOp (s : State) (opid : Nat) : TblAns :=
  match s.opSlot opid with
  | none => (.badaddr, [], s)
  | some i =>
    match s.op i with
    | some r => if r.ended then (.alreadyDone, [], s) else (.ok, [], endOp s i .aborted)
    | none => (.badaddr, [], s)

/-- Records sent and not acknowledged (R396, R408). -/
def State.unacked (s : State) : Nat := countP' (fun (e : EvRec) => e.sent) s.gwe.evq

/-- The package summary (R396). -/
def State.summary (s : State) : List Byte :=
  beBytes 1 s.glb.mode.code ++ beBytes 1 (maskOf s.allDies) ++ beBytes 1 s.healthyMask ++ beBytes 1 s.plt.lead
    ++ beBytes 2 (s.gen .GLB_MODE 0) ++ beBytes 2 (maskOf ((List.range 16).filter (fun i => (s.op i).isSome)))
    ++ beBytes 4 s.gwe.evNext ++ beBytes 4 s.unacked

/-- STATUS (R396). -/
def statusOp (s : State) (opid : Nat) (release : Bool) : TblAns :=
  if opid = 0xFFFF then (.ok, s.summary, s)
  else match s.opSlot opid with
    | none => (.badaddr, [], s)
    | some i =>
      match s.op i with
      | none => (.badaddr, [], s)
      | some r =>
        if ¬ release then (.ok, r.bytes, s)
        else if ¬ r.ended then (.busy, [], s)
        else (.ok, r.bytes, s.setOp i none)

/-- ABORT (R395). -/
def execAbort (opid : BitVec 16) (s : State) : Res := .next (hostOp s 0x41 (abortOp s opid.toNat))
/-- STATUS (R396). -/
def execStatus (opid : BitVec 16) (release : Bool) (s : State) : Res := .next (hostOp s 0x42 (statusOp s opid.toNat release))

/-! Patch containers (R400, R424 to R429). -/

/-- The bytes of the patch buffer, TOTAL of them. -/
def State.container (s : State) : List Byte := bytesAt s.plt.patchBuf 0 s.plt.patchTotal

/-- A number of the container: offset, bytes. -/
def cnum (b : List Byte) (o n : Nat) : Nat := beNat (sliceOf b o n)

/-- Check 1 of R426. -/
def headOk (b : List Byte) : Bool :=
  let typ := cnum b 5 1
  let enc := cnum b 6 1
  decide (132 ≤ b.length) && decide (cnum b 0 4 = 0x48585054) && decide (cnum b 4 1 = 1)
    && ((decide (typ = 1) && decide (enc = 1)) || (decide (typ = 2) && decide (enc = 0)))
    && decide (cnum b 8 4 = b.length) && decide (b.length = cnum b 32 4 + 244)

/-- The SIGNER of a container (R424). -/
def signer (b : List Byte) : List Byte := sliceOf b 36 96
/-- The payload as delivered. -/
def sealedPayload (b : List Byte) : List Byte := sliceOf b 132 (cnum b 32 4)

/-- Check 2: the signer is the fused vendor key, or the microcode signing key that was enrolled when the operation began (R426, R429). -/
def State.signerOk (s : State) (b : List Byte) : Bool :=
  if cnum b 5 1 = 1 then decide (Config.sha384 (signer b) = Config.vendorKeyHash)
  else decide (s.plt.patchKey = some (Config.sha384 (signer b)))

/-- Check 3: the signature over every byte before SIG (R424, R426). -/
def sigOk (b : List Byte) : Bool := Config.verifySig (signer b) (Config.sha384 (b.take (b.length - 96))) (b.drop (b.length - 96))

/-- The PARTS bit of a part (R424). -/
def Part.bitNo : Part → Nat
  | .hx1620 => 0
  | .hx1640 => 1
  | .hx1680 => 2

/-- Check 4: the part and the revision B0 are covered (R424, R426). -/
def State.coversPart (s : State) (b : List Byte) : Bool :=
  nbit (cnum b 16 1) s.part.bitNo && decide (cnum b 17 1 ≤ 0xB0) && decide (0xB0 ≤ cnum b 18 1)

/-- Check 5: the payload in plain text (R424, R426). -/
def payload (b : List Byte) : Option (List Byte) :=
  if cnum b 6 1 = 0 then some (sealedPayload b)
  else Config.patchDecrypt (sliceOf b 20 12) (b.take 132) (sealedPayload b) (sliceOf b (132 + cnum b 32 4) 16)

/-- Check 6: a vendor container is newer than every one applied since the cold reset (R424, R426). -/
def State.newer (s : State) (b : List Byte) : Bool := decide (cnum b 5 1 ≠ 1) || decide (s.plt.lastPver ≤ cnum b 12 4)

/-- What a payload writes: the microwords with their addresses, the 4-byte words of the Pilots' overlay RAM with their offsets, and whether it has an overlay record (R425). -/
structure Payload where
  words : List (Nat × BitVec 128)
  code : List (Nat × Word)
  overlay : Bool
  deriving DecidableEq, Repr

/-- The microwords of a record's body, from an address on (R425). -/
def bodyWords (a : Nat) (b : List Byte) (n : Nat) : List (Nat × BitVec 128) :=
  (List.range n).map (fun i => (a + i, BitVec.ofNat 128 (cnum b (16 * i) 16)))

/-- The overlay words of a record's body, from an offset on (R425; log 79). -/
def bodyCode (a : Nat) (b : List Byte) (n : Nat) : List (Nat × Word) :=
  (List.range n).map (fun i => (a + i, BitVec.ofNat 32 (cnum b (4 * i) 4)))

/-- A microword that a container of a type may carry (R418, R420, R425). -/
def wordOk (typ : Nat) (x : Nat × BitVec 128) : Bool :=
  (if typ = 1 then decide (x.1 < 0x3000) else decide (0x3000 ≤ x.1) && decide (x.1 < 0x4000)) && mcsGood x.2

/-- The records of a payload, or none when they are not well formed (R425): records left. -/
def parseRecords (typ : Nat) : Nat → List Byte → Option Payload
  | 0, _ => none
  | fuel + 1, b =>
    let rt := cnum b 0 1
    let n := cnum b 2 2
    let a := cnum b 4 4
    let body := b.drop 8
    if b.length < 8 then none
    else if rt = 0xFF then (if n = 0 ∧ a = 0 ∧ body = [] then some { words := [], code := [], overlay := false } else none)
    else if rt = 1 then
      let ws := bodyWords a body n
      if body.length < 16 * n ∨ ¬ ws.all (wordOk typ) then none
      else (parseRecords typ fuel (body.drop (16 * n))).map (fun p => { p with words := ws ++ p.words })
    else if rt = 2 ∧ typ = 1 then
      if body.length < 4 * n ∨ 0x10000 < 4 * (a + n) then none
      else (parseRecords typ fuel (body.drop (4 * n))).map (fun p => { p with code := bodyCode a body n ++ p.code, overlay := true })
    else none

/-- Check 7: the records of a container (R425, R426). -/
def records (b : List Byte) : Option Payload :=
  match payload b with
  | some p => if p.length % 8 = 0 then parseRecords (cnum b 5 1) (p.length / 8 + 1) p else none
  | none => none

/-- The verification of a container in the order of R426: the status of the first failure. -/
def State.patchFault (s : State) (b : List Byte) : Option Status :=
  if ¬ headOk b then some .badaddr
  else if ¬ s.signerOk b then some .denied
  else if ¬ sigOk b then some .auth
  else if ¬ s.coversPart b then some .denied
  else if (payload b).isNone then some .auth
  else if ¬ s.newer b then some .denied
  else if (records b).isNone then some .badaddr
  else none

/-- PATCH_VERIFY: a failure ends the operation; the bytes checked up to it are a free value of at most TOTAL (R426; log 60). -/
def verifyPatch (s : State) (i : Nat) : State :=
  match s.op i with
  | none => s
  | some r =>
    match s.patchFault s.container with
    | some e =>
      let (v, t) := s.takeFree
      endOp (t.setOp i (some { r with progress := v.toNat % (s.plt.patchTotal + 1) })) i e
    | none =>
      let t := s.setOp i (some { r with progress := s.plt.patchTotal })
      { t with plt := { t.plt with verified := true } }

/-- The slot of the running patch operation. -/
def State.patchSlot (s : State) : Option Nat :=
  (List.range 16).find? (fun i => match s.op i with
    | some r => !r.ended && r.kind.isPatch
    | none => false)

/-- A piece of a container placed in the buffer; another TOTAL discards what was received (R400). -/
def putPiece (s : State) (a : PatchArgs) : State :=
  let keep := decide (a.total = s.plt.patchTotal)
  let buf := if keep then s.plt.patchBuf else []
  let put := a.data.foldl (fun (x : Nat × SMap Byte) b => (x.1 + 1, minsert x.1 b x.2)) (a.offset, buf)
  { s with plt := { s.plt with patchTotal := a.total, patchBuf := put.2, patchLast := (keep && s.plt.patchLast) || a.last } }

/-- The microcode signing key, if one is enrolled (R429). -/
def State.signingKey (s : State) : Option (List Byte) := if bit (s.reg .MCS_CTRL 0 []) 1 then some s.gwe.ukey else none

/-- A patch operation starts in a slot: MCS_CTRL.PATCHING, and the key enrolled now is the one it is checked against (R400, R429, R432). -/
def startPatch (s : State) (i : Nat) : State :=
  let u := (startOp s i .patch).2
  ({ u with plt := { u.plt with patchKey := s.signingKey } } : State).setRf .MCS_CTRL 0 [] 2 2 1

/-- PATCH (R400): the piece, and the start of the operation once every byte and the piece with LAST are present. -/
def patchOp (s : State) (a : PatchArgs) : TblAns :=
  if 0x400000 < a.total ∨ a.total < a.offset + a.data.length ∨ 8176 < a.data.length ∨ a.data.length % 4 ≠ 0 then (.badaddr, [], s)
  else if s.patchSlot.isSome then (.busy, [], s)
  else
    let t := putPiece s a
    let got := t.plt.patchBuf.length
    if t.plt.patchLast ∧ got = a.total then
      match s.freeOp with
      | none => (.busy, [], s)
      | some i =>
        let u := startPatch t i
        (.ok, beBytes 4 got ++ beBytes 2 t.plt.nextOpid ++ [0, 0], if u.opTurn i then verifyPatch u i else u)
    else (.ok, beBytes 4 got ++ beBytes 2 0xFFFF ++ [0, 0], t)

/-- PATCH is accepted in PROVISION (R387). -/
def execPatch (a : PatchArgs) (s : State) : Res :=
  .next (hostOp s 0x80 (if s.glb.mode = .provision then patchOp s a else (.mode, [], s)))

/-- The patch log gets the container (R427, R432). -/
def logPatch (s : State) (typ pver : Nat) (p : Payload) : State :=
  let n := (s.reg .MCS_PATCH_CNT 0 []).toNat
  let t := if n < 8 then
      (s.setReg .MCS_PATCH_LOG_VER 0 [n] (BitVec.ofNat 32 pver)).setReg .MCS_PATCH_LOG_INFO 0 [n]
        (packWord [(30, typ), (16, b2n p.overlay), (0, min 0xFFFF p.words.length)])
    else s
  t.setReg .MCS_PATCH_CNT 0 [] (BitVec.ofNat 32 (n + 1))

/-- What the Pilots keep of an applied container: the vendor words it wrote, its version, the digest expected of the customer region (R422, R424, R427, R432). -/
def keepPatch (s : State) (typ pver : Nat) (p : Payload) : State :=
  if typ = 1 then
    let t : State := { s with plt := { s.plt with vendor := p.words.foldl (fun l x => ladd x.1 l) s.plt.vendor, lastPver := pver + 1 } }
    if p.overlay then t.setRf .PLT_ROM 0 [] 15 0 pver else t
  else { s with plt := { s.plt with custDigest := some (Config.sha384 (s.storeBytes 0x3000 0x4000)) } }

/-- A word of the Pilots' overlay RAM, the same on every die (R425, R427). -/
def storeCode (s : State) (a : Nat) (w : Word) : State := { s with plt := { s.plt with overlay := mset 0 s.plt.overlay a w } }

/-- The words of a verified container on every die, the log, the digests, and the end of the operation (R427). -/
def applyPatch (s : State) (i : Nat) : State :=
  let b := s.container
  match records b with
  | none => s
  | some p =>
    let t := p.code.foldl (fun t x => storeCode t x.1 x.2) (p.words.foldl (fun t x => storeMcs t x.1 x.2) s)
    let t := keepPatch (logPatch t (cnum b 5 1) (cnum b 12 4) p) (cnum b 5 1) (cnum b 12 4) p
    endOp (t.setRf .MCS_CTRL 0 [] 0 0 0) i .ok

/-- PATCH_APPLY: a container that waited for its turn is verified first (R414, R427). -/
def patchApply (s : State) : State :=
  match s.patchSlot with
  | none => s
  | some i =>
    if s.plt.leadMove.isSome ∨ ¬ s.opTurn i then s
    else
      let t := if s.plt.verified then s else verifyPatch s i
      if t.plt.verified then applyPatch t i else t

/-- PATCH_APPLY (R427). -/
def execPatchApply (s : State) : Res := .next (patchApply s)

end Sys2Proof.Machine
end

