-- ==== Sys2Proof/Machine/Wire.lean ====
section
/-! DEFINITION. The bytes of Gangway frames: the commands that a frame spells, the frames that the device sends (spec/13 R372, R375 to R377, R384, R387 to R400). -/

namespace Sys2Proof.Machine

/-! Commands (R376, R387). -/

/-- A field of n bytes at a place of a command's arguments (R376). -/
def argNat (l : List Byte) (i n : Nat) : Nat := beNat ((l.drop i).take n)

/-- A field of n bytes as a bit vector. -/
def argBits (w : Nat) (l : List Byte) (i n : Nat) : BitVec w := BitVec.ofNat w (argNat l i n)

/-- The words of a list of bytes: words left. -/
def argWords : Nat → List Byte → List Word
  | 0, _ => []
  | n + 1, l => argBits 32 l 0 4 :: argWords n (l.drop 4)

/-- The arguments of CLAIM (R384); address, protection and age of the nonce are the frame's. -/
def claimArgs (l : List Byte) : ClaimArgs :=
  { dnonce := l.take 32, owner := (l.drop 32).take 96, heph := (l.drop 128).take 96, ukey := (l.drop 224).take 48, cipher := argNat l 272 1,
    rsv := (l.drop 273).take 3, osig := (l.drop 276).take 96, src := 0, prot := false, fresh := false }

/-- The arguments of TBL (R392). -/
def tblArgs (l : List Byte) : TblArgs :=
  { table := argNat l 1 1, die := argNat l 2 1, flags := argNat l 3 1, expGen := argBits 16 l 4 2, body := l.drop 8 }

/-- The arguments of LONG (R393). -/
def longArgs (l : List Byte) : LongArgs :=
  { space := argNat l 1 1, unit := argNat l 2 1, flags := argNat l 3 1, offset := argNat l 4 8, length := argNat l 12 8, pattern := argBits 64 l 20 8 }

/-- The arguments of TASK_INJECT (R398). -/
def injectArgs (l : List Byte) : InjectArgs :=
  { die := argNat l 0 1, ready := argNat l 1 1, entry := argBits 16 l 2 2, delay := argBits 32 l 4 4, key := argBits 64 l 8 8,
    args := (List.range 6).map (fun i => argBits 64 l (16 + 8 * i) 8) }

/-- The arguments of DBG (R399). -/
def dbgArgs (l : List Byte) : DbgArgs :=
  { die := argNat l 0 1, op := argNat l 1 1, thread := argNat l 2 2, expGen := argBits 16 l 4 2, reg := argNat l 6 1, value := argBits 64 l 8 8 }

/-- The arguments of PATCH (R400). -/
def patchArgs (l : List Byte) : PatchArgs :=
  { total := argNat l 0 4, offset := argNat l 4 4, last := decide (argNat l 8 1 % 2 = 1), data := l.drop 12 }

/-- The command that an opcode and its argument bytes spell (R387); arguments whose length does not suit the opcode are kept as such (log 18). -/
def parseOp (code : Nat) (l : List Byte) : GwOp :=
  let n := l.length
  let take (ok : Bool) (op : GwOp) : GwOp := if ok then op else .badArgs code
  match code with
  | 0x01 => take (n == 16) (.identify l)
  | 0x02 => take (n == 372) (.claim (claimArgs l))
  | 0x03 => take (n == 4) (.opens (argNat l 0 4 % 2 == 1))
  | 0x04 => take (n == 0) .close
  | 0x10 => take (n == 8) (.rd (argNat l 0 4) (argNat l 4 4))
  | 0x11 => take (decide (8 ≤ n) && decide (n ≤ 8192)) (.wr (argNat l 0 4) (argWords (n / 4 - 1) (l.drop 4)))
  | 0x12 => take (n == 12) (.rmw (argNat l 0 4) (argBits 32 l 4 4) (argBits 32 l 8 4))
  | 0x20 => take (n == 12) (.winSet (argNat l 0 1) (argNat l 1 1) (argNat l 4 8))
  | 0x21 => take (n == 4) (.winRd (argNat l 0 4))
  | 0x22 => .winWr l
  | 0x30 => take (decide (8 ≤ n)) (.tbl (argNat l 0 1) (tblArgs l))
  | 0x40 => take (n == 28) (.long (argNat l 0 1) (longArgs l))
  | 0x41 => take (n == 4) (.abort (argBits 16 l 0 2))
  | 0x42 => take (n == 4) (.status (argBits 16 l 0 2) (argNat l 2 2 % 2 == 1))
  | 0x50 => take (n == 12) (.mode (argNat l 0 1) (argNat l 1 1) (argNat l 2 1) (argNat l 3 1) (argBits 16 l 4 2) (argBits 32 l 8 4))
  | 0x51 => take (n == 4) (.evack (argBits 32 l 0 4))
  | 0x60 => take (n == 64) (.inject (injectArgs l))
  | 0x70 => take (n == 16) (.dbg (dbgArgs l))
  | 0x80 => take (decide (12 ≤ n) && decide (n ≤ 8188)) (.patch (patchArgs l))
  | c => .unknown c

/-- n commands, one behind the other, that fill the bytes exactly (R376, R377). -/
def parseCmds : Nat → List Byte → Option (List GwCmd)
  | 0, l => if l.isEmpty then some [] else none
  | n + 1, l =>
    let len := argNat l 4 2
    if l.length < 8 + len ∨ len % 4 ≠ 0 then none
    else (parseCmds n (l.drop (8 + len))).map (fun r => { tag := argBits 16 l 2 2, op := parseOp (argNat l 0 1) ((l.drop 8).take len) } :: r)

/-- Address and port of the peer of a UDP datagram (R372). -/
def encapPeer : GwEncap → Option (Nat × Nat)
  | .ether _ => none
  | .udp4 src _ sport _ _ => some (src.toNat, sport.toNat)
  | .udp6 src _ sport _ _ => some (src.toNat, sport.toNat)

/-- A command frame as its bytes spell it (R375), with what its carriage tells. -/
structure GwReq where
  peer : Option (Nat × Nat)
  src : BitVec 48
  prot : Bool
  fresh : Bool
  an : Nat := 0
  stop : Bool
  session : Nat
  seq : Word
  cmds : List GwCmd
  deriving DecidableEq, Repr

/-- What the header of a frame tells, whatever follows it; a byte that the frame lacks reads 0 (R375; log 18). -/
def frameHead (f : GwFrame) : GwReq :=
  let t := argNat f.msg 1 1
  { peer := encapPeer f.encap, src := f.src, prot := f.prot, fresh := f.fresh, an := f.an, stop := t / 8 % 2 == 1, session := t % 4, seq := argBits 32 f.msg 4 4, cmds := [] }

/-- The command frame that the bytes spell: VER 0x01, TYPE 0, LENGTH within the frame, and COUNT commands that fill it (R375 to R377). -/
def frameReq (f : GwFrame) : Option GwReq :=
  let n := argNat f.msg 2 2
  if f.msg.length < 12 + n ∨ argNat f.msg 0 1 ≠ 1 ∨ argNat f.msg 1 1 / 16 ≠ 0 then none
  else (parseCmds (argNat f.msg 8 2) ((f.msg.drop 12).take n)).map (fun l => { frameHead f with cmds := l })

/-- Bytes of a received frame, FCS included: Ethernet header, SecTAG and integrity check value, IP and UDP headers, the message (R371 to R373; log 18). -/
def frameLen (f : GwFrame) : Nat :=
  14 + (if f.prot then 32 else 0) + (match f.encap with
    | .ether _ => 0
    | .udp4 _ _ _ _ _ => 28
    | .udp6 _ _ _ _ _ => 48) + f.msg.length + 4

/-! UDP datagrams (R372). -/

/-- Sum of 16-bit words, the last one padded with a zero byte. -/
def wordSum : List Byte → Nat
  | a :: b :: r => a.toNat * 256 + b.toNat + wordSum r
  | [a] => a.toNat * 256
  | [] => 0

/-- The one's complement sum of the words of a list of bytes. -/
def onesSum (l : List Byte) : Nat := let n := wordSum l; if n = 0 then 0 else (n - 1) % 65535 + 1

/-- The bytes over which a UDP checksum is formed: addresses of n bytes, protocol, length, ports, the checksum field, the data. -/
def udpPseudo (n src dst sport dport sum : Nat) (l : List Byte) : List Byte :=
  beBytes n src ++ beBytes n dst ++ beBytes 4 (8 + l.length) ++ beBytes 4 17 ++ beBytes 2 sport ++ beBytes 2 dport ++ beBytes 2 (8 + l.length) ++ beBytes 2 sum ++ l

/-- A nonzero UDP checksum verifies (R372). -/
def udpGood (n src dst sport dport sum : Nat) (l : List Byte) : Bool :=
  sum == 0 || onesSum (udpPseudo n src dst sport dport sum l) == 65535

/-- The checksum of a datagram that the device sends over IPv6; a sum of 0 is sent as 0xFFFF. -/
def udpSum (n src dst sport dport : Nat) (l : List Byte) : Nat :=
  let v := 65535 - onesSum (udpPseudo n src dst sport dport 0 l)
  if v = 0 then 65535 else v

/-! Frames that leave (R372, R375, R376). -/

/-- A result with its header (R376). -/
def GwResult.bytes (r : GwResult) : List Byte :=
  beBytes 1 r.opcode ++ [0] ++ beBytes 2 r.tag.toNat ++ beBytes 2 r.data.length ++ beBytes 1 r.status.code ++ [0] ++ r.data

/-- The Gangway message: header, then results, records or an exception's blocks (R375). -/
def GwTx.message (x : GwTx) : List Byte :=
  let l := x.results.flatMap GwResult.bytes ++ x.body
  [1] ++ beBytes 1 (x.typ * 16 + x.session % 4) ++ beBytes 2 l.length ++ beBytes 4 x.seq ++ beBytes 2 x.count ++ beBytes 2 x.status.code ++ l

/-- An IPv4 header's bytes with a checksum field. -/
def ip4Header (src dst len sum : Nat) : List Byte :=
  let v := Config.ip4Fields.toNat
  [0x45] ++ beBytes 1 (v / 2 ^ 40) ++ beBytes 2 (20 + len) ++ beBytes 2 (v / 2 ^ 24) ++ beBytes 2 (v / 2 ^ 8) ++ beBytes 1 v ++ [17] ++ beBytes 2 sum ++ beBytes 4 src ++ beBytes 4 dst

/-- What follows the Ethernet addresses: the EtherType and the message, or the datagram that carries it: over IPv4 with a UDP checksum of zero, over IPv6 with one (R372). -/
def GwForm.carry (f : GwForm) (l : List Byte) : List Byte :=
  if f.encap = 1 then
    let u := beBytes 2 f.port ++ beBytes 2 f.peerPort ++ beBytes 2 (8 + l.length) ++ [0, 0] ++ l
    [0x08, 0x00] ++ ip4Header f.addr f.peer u.length (65535 - onesSum (ip4Header f.addr f.peer u.length 0)) ++ u
  else if f.encap = 2 then
    let u := beBytes 2 f.port ++ beBytes 2 f.peerPort ++ beBytes 2 (8 + l.length) ++ beBytes 2 (udpSum 16 f.addr f.peer f.port f.peerPort l) ++ l
    let v := Config.ip6Fields.toNat
    [0x86, 0xDD] ++ beBytes 4 (6 * 2 ^ 28 + v / 256) ++ beBytes 2 u.length ++ [17] ++ beBytes 1 v ++ beBytes 16 f.addr ++ beBytes 16 f.peer ++ u
  else beBytes 2 f.etype ++ l

/-- The bytes of a frame that the device sends, from the destination address on, before protection: its source is the factory address (R372). -/
def GwTx.frame (x : GwTx) : List Byte := beBytes 6 x.dst.toNat ++ beBytes 6 Config.factoryAddress.toNat ++ x.form.carry x.message

/-- The device's address in a mode of GWE_ENCAP (R372, R408). -/
def State.gwAddr (s : State) (mode : Nat) : Nat :=
  if mode = 1 then (s.reg .GWE_IP4 0 []).toNat
  else if mode = 2 then beNat ((List.range 4).flatMap (fun i => beBytes 4 (s.reg .GWE_IP6 0 [i]).toNat))
  else 0

/-- The form in which frames to a peer leave at present (R372). -/
def State.form (s : State) (peer : Option (Nat × Nat)) : GwForm :=
  let m := s.rf .GWE_ENCAP 0 [] 1 0
  { encap := m, etype := s.rf .GWE_ETYPE 0 [] 15 0, port := s.rf .GWE_ENCAP 0 [] 31 16, addr := s.gwAddr m, peerPort := (peer.getD (0, 0)).2, peer := (peer.getD (0, 0)).1 }

/-- A frame is a Gangway frame for the device: to its factory address, in the form in use; in LISTEN only the direct form is accepted (R372). -/
def State.carries (s : State) (f : GwFrame) : Bool :=
  let m := s.rf .GWE_ENCAP 0 [] 1 0
  let port := s.rf .GWE_ENCAP 0 [] 31 16
  f.dst == Config.factoryAddress && (match f.encap with
    | .ether e => decide (e.toNat = s.rf .GWE_ETYPE 0 [] 15 0) && (m == 0 || s.glb.mode == .listen)
    | .udp4 src dst sport dport sum => m == 1 && s.glb.mode != .listen && decide (dst.toNat = s.gwAddr 1) && decide (dport.toNat = port)
        && udpGood 4 src.toNat dst.toNat sport.toNat dport.toNat sum.toNat f.msg
    | .udp6 src dst sport dport sum => m == 2 && s.glb.mode != .listen && decide (dst.toNat = s.gwAddr 2) && decide (dport.toNat = port)
        && udpGood 16 src.toNat dst.toNat sport.toNat dport.toNat sum.toNat f.msg)

end Sys2Proof.Machine
end

