-- ==== Sys2Proof/Machine/Claim.lean ====
section
/-! DEFINITION. The host port's protection, identity, claims, sessions and data windows (spec/13 R371 to R373, R380, R383 to R386, R389, R391). -/

namespace Sys2Proof.Machine

/-! Packet numbers and transmission (R373, R386). -/

/-- Packet numbers of an association: 2^32, or 2^64 under XPN (R386). -/
def Assoc.limit (a : Assoc) : Nat := if a.xpn then 2 ^ 64 else 2 ^ 32
/-- The packet number past which EV_GW_REKEY is queued: 0xC000_0000, or 0xC000_0000_0000_0000 under XPN (R386). -/
def Assoc.rekeyAt (a : Assoc) : Nat := a.limit / 4 * 3
/-- The same of an association that a rekey has replaced. -/
def PriorTx.spent (a : PriorTx) : Bool := decide ((if a.xpn then 2 ^ 64 else 2 ^ 32) ≤ a.pn + 1)
/-- No packet number is left (R386). -/
def Assoc.spent (a : Assoc) : Bool := decide (a.limit ≤ a.pn + 1)

/-- A device whose transmit packet number is exhausted sends nothing (R386). -/
def State.silent (s : State) : Bool := (s.gwe.assoc.map (·.spent)).getD false

/-- The next transmit packet number is used; passing the threshold queues EV_GW_REKEY: REKEY_THRESHOLD (R386). -/
def usePn (s : State) : State :=
  match s.gwe.assoc with
  | none => s
  | some a =>
    let t : State := { s with gwe := { s.gwe with assoc := some { a with pn := a.pn + 1 } } }
    if a.pn + 1 = a.rekeyAt + 1 then t.raiseEv 0x8102 pkg (t.gen .GWE_STATE 0) [] else t

/-- A secure channel's identifier: an address and port identifier 0x0001 (R373). -/
def sciOf (a : BitVec 48) : Nat := a.toNat * 65536 + 1

/-- The SecTAG of the packet sent last (R373): the device's SCI is its factory address, its SSCI 2. -/
def Assoc.secTag (a : Assoc) : SecTag := { sci := sciOf Config.factoryAddress, an := a.an, pn := a.pn, ssci := if a.xpn then some 2 else none }

/-- A frame leaves on the attachment in use, with its SecTAG (R371, R373, R408). -/
def putTx (s : State) (x : GwTx) (tag : Option SecTag) : State :=
  ({ s with gwe := { s.gwe with tx := s.gwe.tx ++ [{ x with attB := s.gwe.active, tag := tag, wire := x.frame }] } } : State).bump .GWE_TX_FRAMES 0

/-- The tag of a frame behind the packet number it has used. -/
def tagFor (s : State) (prot : Bool) : Option SecTag := if prot then s.gwe.assoc.map Assoc.secTag else none

/-- A frame is sent; a protected one uses a packet number. -/
def transmit (s : State) (x : GwTx) : State :=
  if s.silent then s
  else
    let t := if x.prot then usePn s else s
    putTx t x (tagFor t x.prot)

/-- The previous association uses its next packet number (R385). -/
def usePrior (s : State) : State :=
  { s with gwe := { s.gwe with assoc := s.gwe.assoc.map (fun a => { a with prior := a.prior.map (fun p => { p with pn := p.pn + 1 }) }) } }

/-- The SecTAG of the packet that the previous association sent last. -/
def State.priorTag (s : State) : Option SecTag :=
  (s.gwe.assoc.bind (·.prior)).map (fun p => { sci := sciOf Config.factoryAddress, an := p.an, pn := p.pn, ssci := if p.xpn then some 2 else none })

/-- A frame is sent under the previous association while a packet number is left there (R385, R386). -/
def transmitPrior (s : State) (x : GwTx) : State :=
  if ((s.gwe.assoc.bind (·.prior)).map (·.spent)).getD true then s else putTx (usePrior s) x (usePrior s).priorTag

/-- The associations that a received packet meets: the present one, or the previous one while no frame has arrived under the new number (R373, R385); the replay window is 64 packet numbers. -/
def receivePn (a : Assoc) (an pn : Nat) : Option Assoc :=
  if an = a.an then
    (if a.rxNext ≤ pn + 64 ∧ 1 ≤ pn ∧ pn < a.limit then some { a with rxNext := max a.rxNext (pn + 1), old := none, prior := none } else none)
  else match a.old with
    | some (oan, onext) =>
      if an = oan ∧ onext ≤ pn + 64 ∧ 1 ≤ pn then some { a with old := some (oan, max onext (pn + 1)) } else none
    | none => none

/-- The SCI that the host uses with an association number (R373). -/
def Assoc.hostSci (a : Assoc) (an : Nat) : Nat := if an = a.an then a.sci else a.oldSci

/-- A protected frame is verified, or discarded: MACSEC_DISCARD (R373). -/
def verifyFrame (s : State) (f : GwFrame) : Option State :=
  match s.gwe.assoc with
  | none => none
  | some a =>
    if ¬ f.verified ∨ f.sci.toNat ≠ a.hostSci f.an then none
    else (receivePn a f.an f.pn).map (fun b => { s with gwe := { s.gwe with assoc := some b, heard := f.tied } })

/-! IDENTIFY (R383). -/

/-- PART in ASCII, zero-padded to 16 bytes. -/
def partName (p : Part) : List Byte :=
  padTo 16 (match p with
    | .hx1620 => [0x48, 0x58, 0x31, 0x36, 0x32, 0x30]
    | .hx1640 => [0x48, 0x58, 0x31, 0x36, 0x34, 0x30]
    | .hx1680 => [0x48, 0x58, 0x31, 0x36, 0x38, 0x30])

/-- The factory address as bytes. -/
def factoryBytes : List Byte := beBytes 6 Config.factoryAddress.toNat

/-- Bytes 0 to 203 of the result of IDENTIFY, for a device nonce (R383). -/
def State.identityHead (s : State) (dnonce : List Byte) : List Byte :=
  partName s.part ++ beBytes 1 0xB0 ++ beBytes 1 s.dies ++ beBytes 1 (maskOf s.allDies) ++ beBytes 1 s.glb.mode.code ++ factoryBytes
    ++ beBytes 1 (b2n s.gwe.owner.isSome + 2 * b2n ((s.gwe.assoc.map (·.xpn)).getD false)) ++ [0]
    ++ (match s.gwe.owner with
      | some k => padTo 48 (Config.sha384 k)
      | none => List.replicate 48 0)
    ++ padTo 96 Config.identityKey ++ padTo 32 dnonce

/-- The nonce of the next draw. -/
def State.nextNonce (s : State) : List Byte := padTo 32 (Config.nonce s.gwe.draws)

/-- The 396 bytes of the result (R383). -/
def State.identity (s : State) (hnonce : List Byte) : List Byte :=
  let h := s.identityHead s.nextNonce
  h ++ padTo 96 (Config.identitySign (Config.sha384 (hnonce ++ h)))
    ++ padTo 96 (Config.vendorSign (padTo 96 Config.identityKey ++ factoryBytes ++ partName s.part))

/-- IDENTIFY: a fresh DNONCE replaces the previous one (R383). -/
def identifyOp (s : State) (hnonce : List Byte) : TblAns :=
  (.ok, s.identity hnonce, { s with gwe := { s.gwe with dnonce := some s.nextNonce, draws := s.gwe.draws + 1 } })

/-! CLAIM (R384, R385). -/

/-- Bytes 0 to 275 of the argument, as sent (R384). -/
def claimSigned (a : ClaimArgs) : List Byte :=
  padTo 32 a.dnonce ++ padTo 96 a.owner ++ padTo 96 a.heph ++ padTo 48 a.ukey ++ beBytes 1 a.cipher ++ padTo 3 a.rsv

/-- The same CLAIM as another, as its argument bytes tell (R385). -/
def sameClaim (a b : ClaimArgs) : Bool := decide (claimSigned a = claimSigned b) && decide (a.osig = b.osig)

/-- Why a CLAIM is refused (R385). -/
def State.claimFault (s : State) (a : ClaimArgs) : Option Status :=
  if 1 < a.cipher then some .badaddr
  else if ¬ (s.gwe.dnonce = some (padTo 32 a.dnonce) ∧ a.fresh = true) then some .auth
  else if ¬ Config.verifySig (padTo 96 a.owner) (Config.sha384 (claimSigned a)) a.osig then some .auth
  else match s.gwe.owner with
    | some o => if o = padTo 96 a.owner then none else some .denied
    | none => none

/-- The 192-byte result: the ephemeral key of the next draw and the identity key's signature (R385). -/
def State.claimReply (s : State) (a : ClaimArgs) : List Byte :=
  let eph := padTo 96 (Config.ephemeralKey s.gwe.draws)
  eph ++ padTo 96 (Config.identitySign (Config.sha384 (padTo 96 a.heph ++ eph ++ padTo 32 a.dnonce ++ padTo 96 a.owner)))

/-- The 88 key bytes of a CLAIM (R385). -/
def State.claimKeys (s : State) (a : ClaimArgs) : List Byte :=
  padTo 88 (Config.deriveKeys s.gwe.draws (padTo 96 a.heph) (padTo 32 a.dnonce) (Config.sha384 (padTo 96 a.owner)))

/-- The associations that a CLAIM installs: AN 0 first, the next AN on a rekey, which keeps the previous one for reception; the AN of a reclaim is a free value (R385; log 19). -/
def newAssoc (s : State) (a : ClaimArgs) : Assoc × State :=
  let x : Assoc := { keys := s.claimKeys a, xpn := decide (a.cipher = 1), an := 0, pn := 0, rxNext := 1, old := none, sci := sciOf a.src }
  match s.gwe.owner, s.gwe.assoc with
  | some _, some o =>
    if a.prot then ({ x with an := (o.an + 1) % 4, old := some (o.an, o.rxNext), oldSci := o.sci, prior := some { keys := o.keys, xpn := o.xpn, an := o.an, pn := o.pn } }, s)
    else ({ x with an := s.takeFree.1.toNat % 4 }, s.takeFree.2)
  | _, _ => (x, s)

/-- UKEY enrolled: MCS_CTRL.UKEY_SET, and on a change the digest expected of the customer region becomes that of its present content (R385, R429). -/
def enrolKey (s : State) (k : List Byte) : State :=
  let t : State := if k = padTo 48 s.gwe.ukey then s else { s with plt := { s.plt with custDigest := some (Config.sha384 (s.storeBytes 0x3000 0x4000)) } }
  let t : State := { t with gwe := { t.gwe with ukey := k } }
  t.setRf .MCS_CTRL 0 [] 1 1 (b2n (k.any (fun b => b ≠ 0)))

/-- A reclaim closes every session without keeping its replay cache; GWE_STATE.GEN counts each that was open (R385, R408). -/
def dropSessions (s : State) : State :=
  let t : State := { s with gwe := { s.gwe with sess := [{}, {}, {}, {}] } }
  (s.gwe.sess.filter (fun x => x.opened)).foldl (fun u _ => u.bumpGen .GWE_STATE 0) t

/-- HBM_TRAINING: on the first entry to PROVISION after a cold reset the stacks start training (R219, R441). -/
def startTraining (s : State) : State := if s.ssc.begun then s else { s with ssc := { s.ssc with begun := true, busy := true } }

/-- The steps of R385 on acceptance. -/
def acceptClaim (s : State) (a : ClaimArgs) : List Byte × State :=
  let r := s.claimReply a
  let reclaim := s.gwe.owner.isSome && !a.prot
  let (x, t) := newAssoc s a
  let t := enrolKey t (padTo 48 a.ukey)
  let t := if reclaim then dropSessions t else t
  let t : State := { t with gwe := { t.gwe with
    owner := some (padTo 96 a.owner), hostMac := a.src, draws := t.gwe.draws + 1, assoc := some x, lastClaim := some (a, r) } }
  let t := t.bumpGen .GWE_STATE 0
  (r, if t.glb.mode = .listen then startTraining (t.setMode .provision 1) else t)

/-- CLAIM: one identical to the last accepted returns the same reply and changes nothing (R385). -/
def claimOp (s : State) (a : ClaimArgs) : TblAns :=
  match s.gwe.lastClaim with
  | some (b, r) =>
    if sameClaim a b then (.ok, r, s)
    else match s.claimFault a with
      | some e => (e, [], s)
      | none => (.ok, (acceptClaim s a).1, (acceptClaim s a).2)
  | none =>
    match s.claimFault a with
    | some e => (e, [], s)
    | none => (.ok, (acceptClaim s a).1, (acceptClaim s a).2)

/-! Sessions (R380). -/

/-- A session. -/
def State.sess (s : State) (i : Nat) : Sess := s.gwe.sess.getD i {}

/-- A session changed. -/
def State.modSess (s : State) (i : Nat) (f : Sess → Sess) : State := { s with gwe := { s.gwe with sess := setNth s.gwe.sess i (f (s.sess i)) } }

/-- OPEN: the session opens at a sequence number, its replay cache empty and its data window reset (R380, R389). -/
def openOp (s : State) (i seq : Nat) (evt : Bool) : TblAns :=
  (.ok, beBytes 4 (b2n evt), (s.modSess i (fun _ => { opened := true, evt := evt, kept := true, h := seq })).bumpGen .GWE_STATE 0)

/-- A session closes; it keeps H and its replay cache (R380). -/
def closeSess (s : State) (i : Nat) : State :=
  if (s.sess i).opened then (s.modSess i (fun x => { x with opened := false, evt := false })).bumpGen .GWE_STATE 0 else s

/-! The data window (R389, R391). -/

/-- WIN_SET (R389). -/
def winSetOp (s : State) (i space unit off : Nat) : TblAns :=
  if ¬ unitOk space unit ∨ 2 ^ 48 ≤ off ∨ off % unit ≠ 0 then (.badaddr, [], s)
  else (.ok, [], s.modSess i (fun x => { x with space := space, unit := unit, off := off }))

/-- A transfer length of a window (R389). -/
def Sess.lengthOk (x : Sess) (n : Nat) : Bool := decide (x.space ≠ 0) && decide (n % x.unit = 0) && decide (x.unit ≤ n) && decide (n ≤ 8192)

/-- The window advances by the units done (R389, R391). -/
def moveWindow (s : State) (i n : Nat) : State := s.modSess i (fun x => { x with off := x.off + n * x.unit })

/-- WIN_RD (R389, R391). -/
def winRdOp (s : State) (i count : Nat) : TblAns :=
  let x := s.sess i
  if ¬ x.lengthOk count then (.badaddr, [], s)
  else
    let (e, l, n, t) := readUnits x.space x.unit (count / x.unit) x.off s
    (e, beBytes 8 x.off ++ l, moveWindow t i n)

/-- Bytes cut into pieces of n: pieces left. -/
def chunksOf (n : Nat) : Nat → List Byte → List (List Byte)
  | 0, _ => []
  | k + 1, l => l.take n :: chunksOf n k (l.drop n)

/-- WIN_WR (R389, R391). -/
def winWrOp (s : State) (i : Nat) (data : List Byte) : TblAns :=
  let x := s.sess i
  if ¬ x.lengthOk data.length then (.badaddr, [], s)
  else
    let (e, n, t) := writeUnits x.space x.unit x.off (chunksOf x.unit (data.length / x.unit) data) s
    (e, beBytes 8 x.off ++ beBytes 4 (n * x.unit) ++ [0, 0, 0, 0], moveWindow t i n)

/-! Commands as rows of their own. -/

/-- A command that a session's frame carries: the session is open (R377). -/
def hostSess (s : State) (op i : Nat) (f : TblAns) : State := hostOp s op (if (s.sess i).opened then f else (.denied, [], s))

/-- A command accepted in modes of its own (R387). -/
def hostOpIn (s : State) (op : Nat) (ok : Bool) (f : TblAns) : State :=
  let a : TblAns := if ok then f else (.mode, [], s)
  { a.2.2 with gwe := { a.2.2.gwe with results := [{ opcode := op, tag := 0, status := a.1, data := a.2.1 }] } }

/-- Modes that accept CLAIM (R387). -/
def Mode.claims (m : Mode) : Bool := decide (m = .listen) || m.any

/-- IDENTIFY (R383). -/
def execIdentify (hnonce : List Byte) (s : State) : Res := .next (hostOpIn s 0x01 (decide (s.glb.mode ≠ .reset)) (identifyOp s hnonce))
/-- CLAIM (R385). -/
def execClaim (a : ClaimArgs) (s : State) : Res := .next (hostOpIn s 0x02 s.glb.mode.claims (claimOp s a))
/-- OPEN (R380). -/
def execOpenSession (i : Fin 4) (seq : Word) (evt : Bool) (s : State) : Res := .next (hostOp s 0x03 (openOp s i seq.toNat evt))
/-- CLOSE (R380). -/
def execClose (i : Fin 4) (s : State) : Res := .next (hostSess s 0x04 i (.ok, [], closeSess s i))
/-- RD (R388, R532). -/
def execRd (a : Word) (count : Nat) (s : State) : Res := .next (hostOpIn s 0x10 (s.readsNow a.toNat count) (rdOp s a.toNat count))
/-- WR (R388). -/
def execWr (a : Word) (ws : List Word) (s : State) : Res := .next (hostOp s 0x11 (wrOp s a.toNat ws))
/-- RMW (R388). -/
def execRmw (a mask value : Word) (s : State) : Res := .next (hostOp s 0x12 (rmwOp s a.toNat mask value))
/-- WIN_SET (R389). -/
def execWinSet (i : Fin 4) (space unit : Nat) (off : BitVec 64) (s : State) : Res := .next (hostSess s 0x20 i (winSetOp s i space unit off.toNat))
/-- WIN_RD (R389). -/
def execWinRd (i : Fin 4) (count : Nat) (s : State) : Res := .next (hostSess s 0x21 i (winRdOp s i count))
/-- WIN_WR (R389). -/
def execWinWr (i : Fin 4) (data : List Byte) (s : State) : Res := .next (hostSess s 0x22 i (winWrOp s i data))

end Sys2Proof.Machine
end

