-- ==== Sys2Proof/Machine/Gangway.lean ====
section
/-! DEFINITION. The Gangway engine: command frames, sequence numbers and replay caches, events, exception frames, the takeover of the lead (spec/13 R371 to R382, R387, R399, R402 to R405, spec/14 R416, spec/15 R453). -/

namespace Sys2Proof.Machine

/-! The commands of a frame (R387). -/

/-- Opcodes (R387). -/
def opCode : GwOp → Nat
  | .identify _ => 0x01
  | .claim _ => 0x02
  | .opens _ => 0x03
  | .close => 0x04
  | .rd _ _ => 0x10
  | .wr _ _ => 0x11
  | .rmw _ _ _ => 0x12
  | .winSet _ _ _ => 0x20
  | .winRd _ => 0x21
  | .winWr _ => 0x22
  | .tbl _ _ => 0x30
  | .long _ _ => 0x40
  | .abort _ => 0x41
  | .status _ _ => 0x42
  | .mode _ _ _ _ _ _ => 0x50
  | .evack _ => 0x51
  | .inject _ => 0x60
  | .dbg _ => 0x70
  | .patch _ => 0x80
  | .badArgs c => c
  | .unknown c => c

/-- The modes that accept a command, by its opcode, whatever its arguments (R387). -/
def opAccepted (m : Mode) (op : GwOp) : Bool :=
  match op with
  | .unknown _ => true
  | op =>
    match opCode op with
    | 0x01 => decide (m ≠ .reset)
    | 0x02 => m.claims
    | 0x60 => m.threads
    | 0x80 => decide (m = .provision)
    | _ => m.any

/-- Bytes of a command's result when it succeeds (R377, R387; log 18). -/
def resultSize : GwOp → Nat
  | .identify _ => 396
  | .claim _ => 192
  | .opens _ => 4
  | .rd _ n => if n ≤ 2048 then 4 * n else 0
  | .wr _ _ => 4
  | .rmw _ _ _ => 4
  | .winRd n => if n ≤ 8192 then 8 + n else 0
  | .winWr _ => 16
  | .tbl sub a => if sub = 1 ∨ sub = 2 then 8 + bodyLen a.table else 8
  | .long _ _ => 4
  | .status i _ => if i = 0xFFFF then 16 else 32
  | .mode _ _ _ _ _ _ => 4
  | .dbg _ => 12
  | .patch _ => 8
  | _ => 0

/-- TBL by its SUB (R392). -/
def tblOp (s : State) (sub : Nat) (a : TblArgs) : TblAns :=
  match sub with
  | 1 => tblSearch s a
  | 2 => tblNext s a
  | 3 => tblInsert s a
  | 4 => tblDelete s a
  | 5 => tblFlush s a
  | _ => (.badaddr, [], s)

/-- EVACK: every record up to N is acknowledged; an N beyond the last record sent fails (R403). -/
def evackOp (s : State) (n : Nat) : TblAns :=
  match s.gwe.evSent with
  | none => (.badseq, [], s)
  | some m =>
    if geHalf m n then (.ok, [], { s with gwe := { s.gwe with evq := s.gwe.evq.filter (fun e => !geHalf n e.eseq) } })
    else (.badseq, [], s)

/-- The result of DBG (R399). -/
def dbgBytes (s : State) (d : Nat) (v : DWord) : List Byte := beBytes 2 (s.gen .CRA_STATE d) ++ [0, 0] ++ beBytes 8 v.toNat

/-- DBG (R287, R289, R294, R399). -/
def dbgOp (s : State) (a : DbgArgs) : TblAns :=
  if ¬ s.isLive a.die then (.badaddr, [], s)
  else if 1 ≤ a.op ∧ a.op ≤ 5 then
    let (e, t) := threadCtl s a.die a.op a.thread a.expGen.toNat
    if e = .ok then (.ok, dbgBytes t a.die 0, lapse t a.die) else (e, [], t)
  else if ¬ genOk a.expGen.toNat (s.gen .CRA_STATE a.die) then (.stale, [], s)
  else if a.op ≠ 6 ∧ a.op ≠ 7 ∨ 383 < a.thread ∨ 32 < a.reg then (.badaddr, [], s)
  else if a.op = 7 ∧ ¬ s.debugEn a.die then (.denied, [], s)
  else if ¬ (s.thr a.die a.thread).open_ then (.busy, [], s)
  else if a.op = 6 then (.ok, dbgBytes s a.die (s.dbgValue a.die a.thread a.reg), s)
  else
    let t := dbgSet s a.die a.thread a.reg a.value
    (.ok, dbgBytes t a.die 0, t)

/-- A command of a frame on its session; OPEN is only the first of its frame (R380, R387). -/
def runOpcode (s : State) (f : GwReq) (first : Bool) : GwOp → TblAns
  | .identify h => identifyOp s h
  | .claim a => claimOp s { a with src := f.src, prot := f.prot, fresh := f.fresh }
  | .opens evt => if first then openOp s f.session f.seq.toNat evt else (.badaddr, [], s)
  | .close => (.ok, [], s)
  | .rd a n => rdOp s a n
  | .wr a ws => wrOp s a ws
  | .rmw a m v => rmwOp s a m v
  | .winSet sp u o => winSetOp s f.session sp u o
  | .winRd n => winRdOp s f.session n
  | .winWr l => winWrOp s f.session l
  | .tbl sub a => tblOp s sub a
  | .long k a => longOp s k a
  | .abort i => abortOp s i.toNat
  | .status i r => statusOp s i.toNat r
  | .mode op t d u e p => modeOp s op t d u e.toNat p
  | .evack n => evackOp s n.toNat
  | .inject a => injectTask s a
  | .dbg a => dbgOp s a
  | .patch a => patchOp s a
  | .badArgs _ => (.badaddr, [], s)
  | .unknown _ => (.badaddr, [], s)

/-- CLOSE. -/
def isClose : GwOp → Bool
  | .close => true
  | _ => false

/-- OPEN, whatever its arguments (R380). -/
def isOpen (op : GwOp) : Bool := decide (opCode op = 0x03)

/-- IDENTIFY and CLAIM, whatever their arguments (R377). -/
def isSessionless (op : GwOp) : Bool := decide (opCode op = 0x01) || decide (opCode op = 0x02)

/-- One command: in a mode that does not accept it it fails with GW_MODE (R387, R532). -/
def runCmd (s : State) (f : GwReq) (first : Bool) (c : GwCmd) : TblAns :=
  let ok : Bool := match c.op with
    | .rd a n => s.readsNow a n
    | op => opAccepted s.glb.mode op
  if ok then runOpcode s f first c.op else (.mode, [], s)

/-- The commands of a frame in order; under STOP those after the first failure are skipped (R375, R377, R379). Gives the results, whether a CLOSE was executed, the state. -/
def runCmds (f : GwReq) : Bool → Bool → List GwCmd → State → List GwResult × Bool × State
  | _, _, [], s => ([], false, s)
  | first, failed, c :: r, s =>
    let skip := f.stop && failed
    let (e, l, t) : TblAns := if skip then (.aborted, [], s) else runCmd s f first c
    let (rs, cl, u) := runCmds f false (failed || decide (e ≠ .ok)) r t
    ({ opcode := opCode c.op, tag := c.tag, status := e, data := l } :: rs, cl || (!skip && decide (e = .ok) && isClose c.op), u)

/-! Command frames (R377, R380, R381). -/

/-- A frame holds only IDENTIFY and CLAIM commands (R377; log 18). -/
def looseFrame (f : GwReq) : Bool := !f.cmds.isEmpty && f.cmds.all (fun c => isSessionless c.op)

/-- OPEN is the first command of a frame. -/
def opensFirst (f : GwReq) : Bool := match f.cmds with
  | c :: _ => isOpen c.op
  | [] => false

/-- A reply to a frame (R375): it takes the form in which the frame arrived, at the address it came from. Once the device is claimed it is protected, unless the frame is sessionless and arrived unprotected (R373). -/
def replyTo (s : State) (f : GwReq) (st : Status) (rs : List GwResult) : GwTx :=
  { typ := 1, session := f.session, seq := f.seq.toNat, count := rs.length, status := st, results := rs, body := [],
    prot := f.prot || (!looseFrame f && s.gwe.assoc.isSome), form := s.form f.peer, dst := f.src }

/-- The cached reply that a frame meets: its number lies in H - 63 to H and was executed, for a frame that begins with OPEN by another such frame (R380, R381). -/
def State.cachedReply (s : State) (f : GwReq) : Option GwTx :=
  let x := s.sess f.session
  if (x.opened || x.kept) ∧ sub32 x.h f.seq.toNat < 64 then
    (x.cache.find? (fun c => decide (c.seq = f.seq.toNat) && (c.opened || !opensFirst f))).map (·.reply)
  else none

/-- The window of R381 accepts a number that has not been executed: H - 63 to H + 64. -/
def Sess.inWindow (x : Sess) (seq : Nat) : Bool := decide (sub32 x.h seq < 64) || decide (1 ≤ sub32 seq x.h ∧ sub32 seq x.h ≤ 64)

/-- Bytes of the reply to a frame: its header, and each result with its own (R375 to R377; log 18). -/
def replySize (f : GwReq) : Nat := f.cmds.foldl (fun a c => a + 8 + resultSize c.op) 12

/-- A frame refused whole: its reply carries the status alone (R377). -/
def refuse (s : State) (f : GwReq) (st : Status) : State := transmit s (replyTo s f st [])

/-- H becomes the number of a frame beyond it (R381). -/
def raiseH (s : State) (f : GwReq) : State :=
  if looseFrame f ∨ opensFirst f then s
  else s.modSess f.session (fun x => if 1 ≤ sub32 f.seq.toNat x.h ∧ sub32 f.seq.toNat x.h ≤ 64 then { x with h := f.seq.toNat } else x)

/-- The reply kept for retransmissions, with those of the last 64 numbers (R381); a sessionless frame needs none (R377). -/
def keepReply (s : State) (f : GwReq) (r : GwTx) : State :=
  if looseFrame f then s
  else s.modSess f.session (fun x => { x with cache :=
    (x.cache.filter (fun c => decide (sub32 x.h c.seq < 64) && decide (c.seq ≠ f.seq.toNat))) ++ [{ seq := f.seq.toNat, opened := opensFirst f, reply := r }] })

/-- A frame repeats the CLAIM accepted last, and came under the association that was in force before it (R385). -/
def State.repeatsClaim (s : State) (f : GwReq) : Bool :=
  f.prot && decide (s.gwe.assoc.map (·.an) ≠ some f.an) && f.cmds.any (fun c => match c.op with
    | .claim a => (match s.gwe.lastClaim with
      | some (b, _) => sameClaim a b
      | none => false)
    | _ => false)

/-- A reply leaves under the association in force; one to a repetition of the CLAIM accepted last, under the association in force before that, for the reply to be the same (R385). -/
def answerFrame (s : State) (f : GwReq) (r : GwTx) : State :=
  if s.repeatsClaim f ∧ (s.gwe.assoc.bind (·.prior)).isSome then transmitPrior s r else transmit s r

/-- The reply is sent: after a CLAIM in the frame under the association that was in force before it (R385). -/
def sendReply (before s : State) (f : GwReq) (r : GwTx) : State :=
  if s.gwe.lastClaim = before.gwe.lastClaim then answerFrame s f r
  else if before.silent then s else putTx (if r.prot then usePrior s else s) r (tagFor (usePn before) r.prot)

/-- The peer of UDP datagrams to the host is that of a frame which only the host can have sent (R372; log 77). -/
def noteHost (s : State) (peer : Option (Nat × Nat)) : State :=
  match peer with
  | some p => { s with gwe := { s.gwe with hostUdp := some p } }
  | none => s

/-- A frame that passes R377 is executed and answered; CLOSE acts after the reply (R379, R380). -/
def executeFrame (s : State) (f : GwReq) : State :=
  let t := raiseH s f
  let (rs, cl, u) := runCmds f true false f.cmds t
  let u := if u.gwe.lastClaim = t.gwe.lastClaim then u else noteHost u f.peer
  let r := replyTo t f .ok rs
  let v := sendReply t (keepReply u f r) f r
  if cl then closeSess v f.session else v

/-- A well-formed command frame checked as a whole, case by case in the order of R377, and executed. -/
def checkFrameReq (s : State) (f : GwReq) : State :=
  if ¬ f.prot ∧ ¬ looseFrame f then refuse (s.bump .GWE_AUTH_FAIL 0) f .auth
  else
    match (if looseFrame f then none else s.cachedReply f) with
    | some r => answerFrame (s.bump .GWE_DUP 0) f { r with form := s.form f.peer, dst := f.src }
    | none =>
      let x := s.sess f.session
      if ¬ looseFrame f ∧ ¬ opensFirst f ∧ ¬ x.opened then refuse s f .denied
      else if ¬ looseFrame f ∧ ¬ opensFirst f ∧ ¬ x.inWindow f.seq.toNat then refuse (s.bump .GWE_BADSEQ 0) f .badseq
      else if 64 < f.cmds.length ∨ 9600 < replySize f then refuse s f .noroom
      else executeFrame s f

/-- A received frame: its bytes are read as a command frame, or it is refused as malformed (R375 to R377). -/
def processFrame (s : State) (f : GwFrame) : State :=
  match frameReq f with
  | none => refuse (s.bump .GWE_MALFORMED 0) (frameHead f) .badaddr
  | some m => checkFrameReq s m

/-! Arrival (R371 to R373, R382, R416, R453). -/

/-- The GWE holds frames: during a warm reset and until a takeover has ended (R416, R453). -/
def State.holds (s : State) : Bool := s.glb.warm.isSome || s.plt.leadMove.isSome

/-- A frame is held (R416, R453). -/
def holdFrame (s : State) (f : GwFrame) : State := { s with gwe := { s.gwe with held := s.gwe.held ++ [f] } }

/-- A verified or unprotected frame is taken up. -/
def takeFrame (s : State) (f : GwFrame) : State := if s.holds then holdFrame s f else processFrame s f

/-- A frame arrives on the host port: up to 9,600 bytes, on the attachment in use, at the device's address. A protected one is verified, and a failure counts, before what it carries can be read; a frame in another form than the one in use is ignored (R371 to R373, R406; logs 20 and 35). -/
def arrive (s : State) (f : GwFrame) : State :=
  if ¬ s.hostPortOn ∨ 9600 < frameLen f then s
  else if f.attB ≠ s.gwe.active then s.bump .GWE_STANDBY_DROP 0
  else if f.dst ≠ Config.factoryAddress then s
  else
    let t := s.bump .GWE_RX_FRAMES 0
    if f.prot then
      match verifyFrame t f with
      | none => t.bump .GWE_MACSEC_DROP 0
      | some u => if s.carries f then takeFrame (noteHost u (encapPeer f.encap)) f else { s with gwe := u.gwe }
    else if s.carries f then takeFrame t f else s

/-- COMMAND_FRAME (R377). -/
def execCommandFrame (f : GwFrame) (s : State) : Res := .next (arrive s f)

/-- A held frame is executed; a retransmission of one that was held before it only counts, since that one's reply is sent once (R382). before: the state in which the first of them is executed. -/
def processHeld (before s : State) (f : GwFrame) : State :=
  let again : Bool := match frameReq f with
    | some m => m.prot && !looseFrame m && (before.cachedReply m).isNone && (s.cachedReply m).isSome
    | none => false
  if again then s.bump .GWE_DUP 0 else processFrame s f

/-- The frames held are executed in order of arrival (R416, R453). -/
def runHeld (s : State) : State :=
  if s.holds then s
  else
    let l := s.gwe.held
    let t : State := { s with gwe := { s.gwe with held := [] } }
    l.foldl (processHeld t) t

/-- WARM_RESET_DONE: PROVISION is entered and the frames held are executed (R452, R453). BPS, which the reset cleared, is computed again at its end, before the next step 0 (R83, R101; log 30). -/
def execWarmResetDone (s : State) : Res := .next (if s.glb.warm.isSome then runHeld (recomputeBps (warmFinish s)) else s)

/-! The takeover of the lead (R416). -/

/-- Running operations that are patches, or that are not. -/
def State.running (s : State) (patch : Bool) : Nat :=
  countP' (fun o => match o with
    | some (r : OpRec) => !r.ended && (r.kind.isPatch == patch)
    | none => false) s.plt.ops

/-- A running PATCH ends with GW_ABORTED, and the patch buffer is lost (R416). -/
def losePatch (s : State) : State :=
  let t := match s.patchSlot with
    | some i => endOp s i .aborted
    | none => s
  { t with plt := { t.plt with patchTotal := 0, patchBuf := [], patchLast := false, verified := false, patchKey := none } }

/-- The new lead takes over: other operations go on from their checkpoints (R416, R431, R432). -/
def takeover (s : State) : State :=
  match s.plt.leadMove with
  | none => s
  | some old =>
    let t := losePatch s
    let t := (t.bump .PLT_HANDOVERS 0).bumpGen .PLT_STATE 0
    let t : State := { t with plt := { t.plt with leadMove := none } }
    runHeld (t.raiseEv 0x8201 pkg (t.gen .PLT_STATE 0) [old, s.plt.lead, s.running false, s.running true])

/-- LEAD_TAKEOVER (R416). -/
def execLeadTakeover (s : State) : Res := .next (takeover s)

/-! EVACK and DBG as rows of their own. -/

/-- EVACK (R403). -/
def execEvack (eseq : Word) (s : State) : Res := .next (hostOp s 0x51 (evackOp s eseq.toNat))
/-- DBG (R399). -/
def execDbg (a : DbgArgs) (s : State) : Res := .next (hostOp s 0x70 (dbgOp s a))

/-! Events (R402, R403). -/

/-- The bytes of an event record (R402). -/
def EvRec.bytes (e : EvRec) : List Byte :=
  beBytes 2 e.code ++ beBytes 2 (4 * e.args.length) ++ beBytes 1 e.die ++ [0] ++ beBytes 2 e.gen ++ beBytes 4 e.xing ++ beBytes 4 e.step
    ++ e.args.flatMap (beBytes 4)

/-- The records that fit one frame of 9,600 bytes, from the first on: bytes left. -/
def fitting : Nat → List EvRec → List EvRec
  | _, [] => []
  | room, e :: r => if e.bytes.length ≤ room then e :: fitting (room - e.bytes.length) r else []

/-- An EVENT frame to the host address (R375, R402). -/
def eventFrame (s : State) (l : List EvRec) : GwTx :=
  { typ := 2, session := 0, seq := (l.head?.map (·.eseq)).getD 0, count := l.length, status := .ok, results := [], body := l.flatMap EvRec.bytes, prot := true,
    form := s.form s.gwe.hostUdp, dst := s.gwe.hostMac }

/-- GWE_EVT_CFG.WINDOW: from 1 to 256 (R408). -/
def State.evWindow (s : State) : Nat := max 1 (min 256 (s.rf .GWE_EVT_CFG 0 [] 24 16))

/-- The records of a list are sent. -/
def markSent (l : List EvRec) (s : State) : State :=
  { s with gwe := { s.gwe with
    evq := s.gwe.evq.map (fun e => if e ∈ l then { e with sent := true } else e)
    evSent := match l.getLast? with
      | some e => some e.eseq
      | none => s.gwe.evSent } }

/-- The device can address the host: directly, or in the UDP forms at a known address (R372, R402; log 77). -/
def State.canTell (s : State) : Bool := s.hostPortOn && s.evSession.isSome && !s.silent && (decide (s.rf .GWE_ENCAP 0 [] 1 0 = 0) || s.gwe.hostUdp.isSome)

/-- Up to n unsent records leave in one frame, within the window (R402, R403). -/
def eventSend (s : State) (n : Nat) : State :=
  let l := fitting (9600 - 12) ((s.gwe.evq.filter (fun e => !e.sent)).take (min n (s.evWindow - s.unacked)))
  if ¬ s.canTell ∨ l = [] then s
  else markSent l (transmit s (eventFrame s l))

/-- EVENT_SEND (R402). -/
def execEventSend (n : Nat) (s : State) : Res := .next (eventSend s n)

/-- Records sent again, frame by frame: frames left. -/
def sendAgain : Nat → List EvRec → State → State
  | 0, _, s => s
  | k + 1, l, s =>
    let m := fitting (9600 - 12) l
    if m = [] then s
    else sendAgain k (l.drop m.length) ((transmit s (eventFrame s m)).bump .GWE_EVT_RETX 0)

/-- Every unacknowledged record leaves again (R403). -/
def eventRetransmit (s : State) : State :=
  let l := s.gwe.evq.filter (fun e => e.sent)
  if ¬ s.canTell then s else sendAgain l.length l s

/-- EVENT_RETRANSMIT (R403). -/
def execEventRetransmit (s : State) : Res := .next (eventRetransmit s)

/-! Exception frames (R254, R405). -/

/-- The buffer of an exception frame and its mirror are freed (R254). -/
def freeExc (s : State) (e : Exc) : State := freeBoth s e.handle e.mirror

/-- The frame bytes of an exception frame, FCS included; LEN stands in its metadata block. -/
def State.excBytes (s : State) (e : Exc) : List Byte := s.quayBytes e.handle 128 (cnum e.info 20 2)

/-- An EVENT frame can leave, which goes before an exception frame (R403, R405). -/
def State.eventsWait (s : State) : Bool := s.canTell && s.gwe.evq.any (fun e => !e.sent) && decide (s.unacked < s.evWindow)

/-- The first exception frame leaves when no EVENT frame can; without an event session it is dropped, and so is one that the fabric cannot carry and one with a bad quay word (R24, R405, R462, R478). -/
def exceptionSend (s : State) : State :=
  match s.gwe.excq with
  | [] => s
  | e :: r =>
    let t : State := { s with gwe := { s.gwe with excq := r } }
    if s.evSession = none then (freeExc t e).bump .GWE_EXC_DROP 0
    else if s.noRoute e.die s.hostDie then (freeExc t e).bump .PFB_ROUTE_DROP e.die
    else if ¬ s.canTell ∨ s.eventsWait then s
    else if s.quayBad e.handle 0 (128 + cnum e.info 20 2) then (freeExc t e).bump .ICU_FRAME_DROP e.die
    else
      let x : GwTx := { typ := 3, session := 0, seq := s.gwe.excCnt % 2 ^ 32, count := 1, status := .ok, results := [], body := e.info ++ s.excBytes e, prot := true, form := s.form s.gwe.hostUdp, dst := s.gwe.hostMac }
      let u := transmit { t with gwe := { t.gwe with excCnt := s.gwe.excCnt + 1 } } x
      (freeExc u e).bump .GWE_EXC_SENT 0

/-- EXCEPTION_SEND (R405). -/
def execExceptionSend (s : State) : Res := .next (exceptionSend s)

/-! ARP and neighbour solicitation (R372). -/

/-- The device's address in the family in use. -/
def State.isOurs (s : State) (v6 : Bool) (a : Nat) : Bool :=
  let m := if v6 then 2 else 1
  decide (s.rf .GWE_ENCAP 0 [] 1 0 = m) && decide (a = s.gwAddr m)

/-- ARP_REQUEST: answered on the attachment in use for the device's address in the encapsulation in use; on the other one it is discarded and counted (R371, R372). -/
def execArpRequest (b : Bool) (target : ArpTarget) (s : State) : Res :=
  .next (if ¬ s.hostPortOn then s
    else if b ≠ s.gwe.active then s.bump .GWE_STANDBY_DROP 0
    else if ¬ s.silent ∧ s.isOurs target.v6 target.addr.toNat then { s with gwe := { s.gwe with answers := s.gwe.answers ++ [(target.v6, target.addr)] } }
    else s)

end Sys2Proof.Machine
end

