-- ==== Sys2Proof/Machine/Dispatch.lean ====
section
/-! DEFINITION. The command table: one arm for each constructor of Instr. -/

namespace Sys2Proof.Machine

open Host (Outcome)

/-- The effect of a command on everything but the queue. -/
def exec (i : Instr) (s : State) : Host.Outcome State Fault Refusal :=
  match i with
  | .phaseStep inp mark period lag => Sys2Proof.Machine.execPhaseStep inp mark period lag s
  | .estimatedStep => Sys2Proof.Machine.execEstimatedStep s
  | .coastedStep => Sys2Proof.Machine.execCoastedStep s
  | .selfPhaseStep => Sys2Proof.Machine.execSelfPhaseStep s
  | .tick => Sys2Proof.Machine.execTick s
  | .crossingBegin mark edge => Sys2Proof.Machine.execCrossingBegin mark edge s
  | .phaseWord inp w => Sys2Proof.Machine.execPhaseWord inp w s
  | .stepPresenceFail inp => Sys2Proof.Machine.execStepPresenceFail inp s
  | .phaseAdopt => Sys2Proof.Machine.execPhaseAdopt s
  | .holdoverExpiry => Sys2Proof.Machine.execHoldoverExpiry s
  | .phaseRevert => Sys2Proof.Machine.execPhaseRevert s
  | .phaseRealign d => Sys2Proof.Machine.execPhaseRealign d s
  | .copySelect => Sys2Proof.Machine.execCopySelect s
  | .phiSourceSelect w => Sys2Proof.Machine.execPhiSourceSelect w s
  | .phiNowXingRead => Sys2Proof.Machine.execPhiNowXingRead s
  | .cteSwapArm exp => Sys2Proof.Machine.execCteSwapArm exp s
  | .cteSwapCancel exp => Sys2Proof.Machine.execCteSwapCancel exp s
  | .cteSwapNow exp => Sys2Proof.Machine.execCteSwapNow exp s
  | .timetableSwap => Sys2Proof.Machine.execTimetableSwap s
  | .departureStart p => Sys2Proof.Machine.execDepartureStart p s
  | .prefetchPoint b g => Sys2Proof.Machine.execPrefetchPoint b g s
  | .prefetchLand q seg => Sys2Proof.Machine.execPrefetchLand q seg s
  | .prefetchDeadline q seg => Sys2Proof.Machine.execPrefetchDeadline q seg s
  | .dueQueueRead q => Sys2Proof.Machine.execDueQueueRead q s
  | .prefetchAreaWait d => Sys2Proof.Machine.execPrefetchAreaWait d s
  | .linkStateApply p => Sys2Proof.Machine.execLinkStateApply p s
  | .ageDrop q => Sys2Proof.Machine.execAgeDrop q s
  | .frameReceive p f => Sys2Proof.Machine.execFrameReceive p f s
  | .parseFrame d e => Sys2Proof.Machine.execParseFrame d e s
  | .parseEnd d e => Sys2Proof.Machine.execParseEnd d e s
  | .fragHoldExpiry d ix => Sys2Proof.Machine.execFragHoldExpiry d ix s
  | .fragLifeExpiry d ix => Sys2Proof.Machine.execFragLifeExpiry d ix s
  | .sequenceAssign d => Sys2Proof.Machine.execSequenceAssign d s
  | .flowContextFetch d c => Sys2Proof.Machine.execFlowContextFetch d c s
  | .robEntryWait d => Sys2Proof.Machine.execRobEntryWait d s
  | .learnApply d => Sys2Proof.Machine.execLearnApply d s
  | .moveApply d => Sys2Proof.Machine.execMoveApply d s
  | .learnNotice d n => Sys2Proof.Machine.execLearnNotice d n s
  | .learnNoticeApply d => Sys2Proof.Machine.execLearnNoticeApply d s
  | .agerVisit d t ix => Sys2Proof.Machine.execAgerVisit d t ix s
  | .pinRelease d ix => Sys2Proof.Machine.execPinRelease d ix s
  | .hashSeedWrite d w => Sys2Proof.Machine.execHashSeedWrite d w s
  | .tblSearch a => Sys2Proof.Machine.execTblSearch a s
  | .tblNext a => Sys2Proof.Machine.execTblNext a s
  | .tblInsert a => Sys2Proof.Machine.execTblInsert a s
  | .tblDelete a => Sys2Proof.Machine.execTblDelete a s
  | .tblFlushPort a => Sys2Proof.Machine.execTblFlushPort a s
  | .poolBaseWrite d ix w => Sys2Proof.Machine.execPoolBaseWrite d ix w s
  | .poolCountCommit d ix w => Sys2Proof.Machine.execPoolCountCommit d ix w s
  | .poolRebuildDone d ix => Sys2Proof.Machine.execPoolRebuildDone d ix s
  | .hostFree d w => Sys2Proof.Machine.execHostFree d w s
  | .admitFrame d pick => Sys2Proof.Machine.execAdmitFrame d pick s
  | .dwellStage q pick => Sys2Proof.Machine.execDwellStage q pick s
  | .qbaQselWrite d w => Sys2Proof.Machine.execQbaQselWrite d w s
  | .qbaQdataRead d ix => Sys2Proof.Machine.execQbaQdataRead d ix s
  | .segFlushExpiry seg => Sys2Proof.Machine.execSegFlushExpiry seg s
  | .segmentWritten seg => Sys2Proof.Machine.execSegmentWritten seg s
  | .hbmRequestIssue d pc now => Sys2Proof.Machine.execHbmRequestIssue d pc now s
  | .urgencyLate id now => Sys2Proof.Machine.execUrgencyLate id now s
  | .rowIdleClose d pc bank => Sys2Proof.Machine.execRowIdleClose d pc bank s
  | .refreshDue d pc bank => Sys2Proof.Machine.execRefreshDue d pc bank s
  | .trainingDone passed => Sys2Proof.Machine.execTrainingDone passed s
  | .spareRemap d unit => Sys2Proof.Machine.execSpareRemap d unit s
  | .channelLost d c => Sys2Proof.Machine.execChannelLost d c s
  | .stackLost d cause => Sys2Proof.Machine.execStackLost d cause s
  | .rebuildSegment picks => Sys2Proof.Machine.execRebuildSegment picks s
  | .rebuildResume => Sys2Proof.Machine.execRebuildResume s
  | .rsqRelease d c => Sys2Proof.Machine.execRsqRelease d c s
  | .gapTimeout d c => Sys2Proof.Machine.execGapTimeout d c s
  | .handoffAck id => Sys2Proof.Machine.execHandoffAck id s
  | .frameLeaveQuay p => Sys2Proof.Machine.execFrameLeaveQuay p s
  | .editProgWrite d n w => Sys2Proof.Machine.execEditProgWrite d n w s
  | .portDataCommit d l w => Sys2Proof.Machine.execPortDataCommit d l w s
  | .helperReply d n uncorr => Sys2Proof.Machine.execHelperReply d n uncorr s
  | .helperTimeout d n => Sys2Proof.Machine.execHelperTimeout d n s
  | .pilotThreadRestart d n => Sys2Proof.Machine.execPilotThreadRestart d n s
  | .runaway d n => Sys2Proof.Machine.execRunaway d n s
  | .breakpointHit d n => Sys2Proof.Machine.execBreakpointHit d n s
  | .threadStop d n exp => Sys2Proof.Machine.execThreadStop d n exp s
  | .threadRestart d n exp => Sys2Proof.Machine.execThreadRestart d n exp s
  | .threadHalt d n exp => Sys2Proof.Machine.execThreadHalt d n exp s
  | .threadResume d n exp => Sys2Proof.Machine.execThreadResume d n exp s
  | .threadStep d n exp => Sys2Proof.Machine.execThreadStep d n exp s
  | .psCheckStart d => Sys2Proof.Machine.execPsCheckStart d s
  | .psCheckDone d => Sys2Proof.Machine.execPsCheckDone d s
  | .psFetchRepair d k a => Sys2Proof.Machine.execPsFetchRepair d k a s
  | .dbgRegRead d => Sys2Proof.Machine.execDbgRegRead d s
  | .dbgRegWrite d w => Sys2Proof.Machine.execDbgRegWrite d w s
  | .debugEnClear d w => Sys2Proof.Machine.execDebugEnClear d w s
  | .supervisorSet d k w => Sys2Proof.Machine.execSupervisorSet d k w s
  | .add d n => Sys2Proof.Machine.execAdd d n s
  | .sub d n => Sys2Proof.Machine.execSub d n s
  | .andd d n => Sys2Proof.Machine.execAndd d n s
  | .orr d n => Sys2Proof.Machine.execOrr d n s
  | .xorr d n => Sys2Proof.Machine.execXorr d n s
  | .shl d n => Sys2Proof.Machine.execShl d n s
  | .shr d n => Sys2Proof.Machine.execShr d n s
  | .sar d n => Sys2Proof.Machine.execSar d n s
  | .rot d n => Sys2Proof.Machine.execRot d n s
  | .minn d n => Sys2Proof.Machine.execMinn d n s
  | .maxx d n => Sys2Proof.Machine.execMaxx d n s
  | .mul d n => Sys2Proof.Machine.execMul d n s
  | .popc d n => Sys2Proof.Machine.execPopc d n s
  | .clz d n => Sys2Proof.Machine.execClz d n s
  | .orShift16 d n => Sys2Proof.Machine.execOrShift16 d n s
  | .orShift32 d n => Sys2Proof.Machine.execOrShift32 d n s
  | .orShift48 d n => Sys2Proof.Machine.execOrShift48 d n s
  | .bfx d n => Sys2Proof.Machine.execBfx d n s
  | .bfi d n => Sys2Proof.Machine.execBfi d n s
  | .ld8 d n => Sys2Proof.Machine.execLd8 d n s
  | .ld16 d n => Sys2Proof.Machine.execLd16 d n s
  | .ld32 d n => Sys2Proof.Machine.execLd32 d n s
  | .ld64 d n => Sys2Proof.Machine.execLd64 d n s
  | .st8 d n => Sys2Proof.Machine.execSt8 d n s
  | .st16 d n => Sys2Proof.Machine.execSt16 d n s
  | .st32 d n => Sys2Proof.Machine.execSt32 d n s
  | .st64 d n => Sys2Proof.Machine.execSt64 d n s
  | .fld d n => Sys2Proof.Machine.execFld d n s
  | .fst d n => Sys2Proof.Machine.execFst d n s
  | .flen d n => Sys2Proof.Machine.execFlen d n s
  | .beq d n => Sys2Proof.Machine.execBeq d n s
  | .bne d n => Sys2Proof.Machine.execBne d n s
  | .blt d n => Sys2Proof.Machine.execBlt d n s
  | .bge d n => Sys2Proof.Machine.execBge d n s
  | .bltu d n => Sys2Proof.Machine.execBltu d n s
  | .bgeu d n => Sys2Proof.Machine.execBgeu d n s
  | .bbs d n => Sys2Proof.Machine.execBbs d n s
  | .bbc d n => Sys2Proof.Machine.execBbc d n s
  | .j d n => Sys2Proof.Machine.execJ d n s
  | .jal d n => Sys2Proof.Machine.execJal d n s
  | .jr d n => Sys2Proof.Machine.execJr d n s
  | .crc32c d n => Sys2Proof.Machine.execCrc32c d n s
  | .hash d n => Sys2Proof.Machine.execHash d n s
  | .twait d n => Sys2Proof.Machine.execTwait d n s
  | .tdone d n => Sys2Proof.Machine.execTdone d n s
  | .tpost d n => Sys2Proof.Machine.execTpost d n s
  | .tdefer d n => Sys2Proof.Machine.execTdefer d n s
  | .balloc d n => Sys2Proof.Machine.execBalloc d n s
  | .bfree d n => Sys2Proof.Machine.execBfree d n s
  | .bshare d n => Sys2Proof.Machine.execBshare d n s
  | .bcheck d n => Sys2Proof.Machine.execBcheck d n s
  | .lkp d n => Sys2Proof.Machine.execLkp d n s
  | .lrn d n => Sys2Proof.Machine.execLrn d n s
  | .lock d n => Sys2Proof.Machine.execLock d n s
  | .lockGrant d l => Sys2Proof.Machine.execLockGrant d l s
  | .trylock d n => Sys2Proof.Machine.execTrylock d n s
  | .unlock d n => Sys2Proof.Machine.execUnlock d n s
  | .lkclean d n => Sys2Proof.Machine.execLkclean d n s
  | .lkforce d n => Sys2Proof.Machine.execLkforce d n s
  | .evwait d n => Sys2Proof.Machine.execEvwait d n s
  | .evsig d n => Sys2Proof.Machine.execEvsig d n s
  | .chput d n => Sys2Proof.Machine.execChput d n s
  | .chclose d n => Sys2Proof.Machine.execChclose d n s
  | .chget d n => Sys2Proof.Machine.execChget d n s
  | .emit d n => Sys2Proof.Machine.execEmit d n s
  | .retire d n => Sys2Proof.Machine.execRetire d n s
  | .tohost d n => Sys2Proof.Machine.execTohost d n s
  | .stage d n => Sys2Proof.Machine.execStage d n s
  | .phase d n => Sys2Proof.Machine.execPhase d n s
  | .supread d n => Sys2Proof.Machine.execSupread d n s
  | .supstop d n => Sys2Proof.Machine.execSupstop d n s
  | .suprestart d n => Sys2Proof.Machine.execSuprestart d n s
  | .trap d n => Sys2Proof.Machine.execTrap d n s
  | .nop d n => Sys2Proof.Machine.execNop d n s
  | .taskDeliver d => Sys2Proof.Machine.execTaskDeliver d s
  | .affinityWaitEnd d l => Sys2Proof.Machine.execAffinityWaitEnd d l s
  | .delayExpiry d => Sys2Proof.Machine.execDelayExpiry d s
  | .remoteTaskArrive d => Sys2Proof.Machine.execRemoteTaskArrive d s
  | .affinityClear d w => Sys2Proof.Machine.execAffinityClear d w s
  | .traceControlWrite d w => Sys2Proof.Machine.execTraceControlWrite d w s
  | .traceMark d w => Sys2Proof.Machine.execTraceMark d w s
  | .traceSpill d => Sys2Proof.Machine.execTraceSpill d s
  | .hostLockForce d w => Sys2Proof.Machine.execHostLockForce d w s
  | .hostEventSignal d w => Sys2Proof.Machine.execHostEventSignal d w s
  | .hostChannelPut d w => Sys2Proof.Machine.execHostChannelPut d w s
  | .inspectSelect d w => Sys2Proof.Machine.execInspectSelect d w s
  | .clearAbandon d w => Sys2Proof.Machine.execClearAbandon d w s
  | .strandedReport d k => Sys2Proof.Machine.execStrandedReport d k s
  | .commandFrame f => Sys2Proof.Machine.execCommandFrame f s
  | .identify hnonce => Sys2Proof.Machine.execIdentify hnonce s
  | .claim a => Sys2Proof.Machine.execClaim a s
  | .openSession sess seq evt => Sys2Proof.Machine.execOpenSession sess seq evt s
  | .close sess => Sys2Proof.Machine.execClose sess s
  | .rd a count => Sys2Proof.Machine.execRd a count s
  | .wr a ws => Sys2Proof.Machine.execWr a ws s
  | .rmw a mask value => Sys2Proof.Machine.execRmw a mask value s
  | .winSet sess space unit off => Sys2Proof.Machine.execWinSet sess space unit off s
  | .winRd sess count => Sys2Proof.Machine.execWinRd sess count s
  | .winWr sess data => Sys2Proof.Machine.execWinWr sess data s
  | .longFill a => Sys2Proof.Machine.execLongFill a s
  | .longCrc a => Sys2Proof.Machine.execLongCrc a s
  | .longTblClear a => Sys2Proof.Machine.execLongTblClear a s
  | .longOpCheckpoint slot => Sys2Proof.Machine.execLongOpCheckpoint slot s
  | .longOpComplete slot => Sys2Proof.Machine.execLongOpComplete slot s
  | .abort opid => Sys2Proof.Machine.execAbort opid s
  | .status opid release => Sys2Proof.Machine.execStatus opid release s
  | .modeSet target exp => Sys2Proof.Machine.execModeSet target exp s
  | .modeWarm exp => Sys2Proof.Machine.execModeWarm exp s
  | .modeCold exp => Sys2Proof.Machine.execModeCold exp s
  | .modeUnit die unit exp => Sys2Proof.Machine.execModeUnit die unit exp s
  | .unitRestartDone d u => Sys2Proof.Machine.execUnitRestartDone d u s
  | .portDrain ports exp => Sys2Proof.Machine.execPortDrain ports exp s
  | .evack eseq => Sys2Proof.Machine.execEvack eseq s
  | .taskInject a => Sys2Proof.Machine.execTaskInject a s
  | .dbg a => Sys2Proof.Machine.execDbg a s
  | .patch a => Sys2Proof.Machine.execPatch a s
  | .patchApply => Sys2Proof.Machine.execPatchApply s
  | .eventSend n => Sys2Proof.Machine.execEventSend n s
  | .eventRetransmit => Sys2Proof.Machine.execEventRetransmit s
  | .exceptionSend => Sys2Proof.Machine.execExceptionSend s
  | .hostWdogExpiry => Sys2Proof.Machine.execHostWdogExpiry s
  | .wdogEscalation => Sys2Proof.Machine.execWdogEscalation s
  | .hostFailover => Sys2Proof.Machine.execHostFailover s
  | .coldStart passed step => Sys2Proof.Machine.execColdStart passed step s
  | .leadTakeover => Sys2Proof.Machine.execLeadTakeover s
  | .mcsScrub d a bits => Sys2Proof.Machine.execMcsScrub d a bits s
  | .mcsRepair d a => Sys2Proof.Machine.execMcsRepair d a s
  | .warmReset => Sys2Proof.Machine.execWarmReset s
  | .warmResetDone => Sys2Proof.Machine.execWarmResetDone s
  | .coldReset cause => Sys2Proof.Machine.execColdReset cause s
  | .quayFlush w picks => Sys2Proof.Machine.execQuayFlush w picks s
  | .drained => Sys2Proof.Machine.execDrained s
  | .sramScrub d f => Sys2Proof.Machine.execSramScrub d f s
  | .hbmScrub d piece bad => Sys2Proof.Machine.execHbmScrub d piece bad s
  | .tableShadowCheck d lpm ix differs => Sys2Proof.Machine.execTableShadowCheck d lpm ix differs s
  | .tableRestore d lpm ix good => Sys2Proof.Machine.execTableRestore d lpm ix good s
  | .staticEntryRepair d t ix => Sys2Proof.Machine.execStaticEntryRepair d t ix s
  | .timetableEntryRestore off => Sys2Proof.Machine.execTimetableEntryRestore off s
  | .heartbeat d => Sys2Proof.Machine.execHeartbeat d s
  | .heartbeatLoss d => Sys2Proof.Machine.execHeartbeatLoss d s
  | .hostDieExclude w => Sys2Proof.Machine.execHostDieExclude w s
  | .dieSupplyFault d => Sys2Proof.Machine.execDieSupplyFault d s
  | .flitRetry d l => Sys2Proof.Machine.execFlitRetry d l s
  | .laneFail d l => Sys2Proof.Machine.execLaneFail d l s
  | .portConfigWrite d l w => Sys2Proof.Machine.execPortConfigWrite d l w s
  | .linkTrainingDone p => Sys2Proof.Machine.execLinkTrainingDone p s
  | .linkFailureDetect p cond => Sys2Proof.Machine.execLinkFailureDetect p cond s
  | .linkDownReport p => Sys2Proof.Machine.execLinkDownReport p s
  | .linkUpReport p => Sys2Proof.Machine.execLinkUpReport p s
  | .frameTransmitEnd p => Sys2Proof.Machine.execFrameTransmitEnd p s
  | .supplyValid => Sys2Proof.Machine.execSupplyValid s
  | .supplyExcursion => Sys2Proof.Machine.execSupplyExcursion s
  | .resetNAssert => Sys2Proof.Machine.execResetNAssert s
  | .resetNRelease => Sys2Proof.Machine.execResetNRelease s
  | .refclkLoss b => Sys2Proof.Machine.execRefclkLoss b s
  | .refclkReturn b => Sys2Proof.Machine.execRefclkReturn b s
  | .thermWarn d sess temp => Sys2Proof.Machine.execThermWarn d sess temp s
  | .thermtrip d sess temp => Sys2Proof.Machine.execThermtrip d sess temp s
  | .extest => Sys2Proof.Machine.execExtest s
  | .idcode => Sys2Proof.Machine.execIdcode s
  | .samplePreload => Sys2Proof.Machine.execSamplePreload s
  | .clamp => Sys2Proof.Machine.execClamp s
  | .highz => Sys2Proof.Machine.execHighz s
  | .extestPulse => Sys2Proof.Machine.execExtestPulse s
  | .extestTrain => Sys2Proof.Machine.execExtestTrain s
  | .bypass => Sys2Proof.Machine.execBypass s
  | .tapHoldEnd => Sys2Proof.Machine.execTapHoldEnd s
  | .tapReset => Sys2Proof.Machine.execTapReset s
  | .broadcastWrite off w => Sys2Proof.Machine.execBroadcastWrite off w s
  | .registerWrite a w => Sys2Proof.Machine.execRegisterWrite a w s
  | .hostAttachmentLink b up => Sys2Proof.Machine.execHostAttachmentLink b up s
  | .arpRequest b target => Sys2Proof.Machine.execArpRequest b target s
  | .portIslandLost d => Sys2Proof.Machine.execPortIslandLost d s
  | .pilotRamError d => Sys2Proof.Machine.execPilotRamError d s
  | .stackTempHot d hot => Sys2Proof.Machine.execStackTempHot d hot s
  | .linkConditionsMet p cond => Sys2Proof.Machine.execLinkConditionsMet p cond s

end Sys2Proof.Machine
end

