-- ==== Sys2Proof/Safety.lean ====
section
/-! DEFINITION. What claims about runs speak of: the die that a command names, the parts of the state and when they stay the same, the invariant that every step keeps, and the conditions under which a thread uses its slot. -/

namespace Sys2Proof

/-- The die that a command names: its own operand, or the die of its port, bank or landing queue (R1, R62). -/
def Instr.die : Instr → Option Nat
  | .phaseStep _ _ _ _ => none
  | .estimatedStep => none
  | .coastedStep => none
  | .selfPhaseStep => none
  | .tick => none
  | .crossingBegin _ _ => none
  | .phaseWord _ _ => none
  | .stepPresenceFail _ => none
  | .phaseAdopt => none
  | .holdoverExpiry => none
  | .phaseRevert => none
  | .phaseRealign d => some d.val
  | .copySelect => none
  | .phiSourceSelect _ => none
  | .phiNowXingRead => none
  | .cteSwapArm _ => none
  | .cteSwapCancel _ => none
  | .cteSwapNow _ => none
  | .timetableSwap => none
  | .departureStart p => some (p.val / 4)
  | .prefetchPoint b _ => some (b.val / 1024)
  | .prefetchLand q _ => some (q.val / 32768)
  | .prefetchDeadline q _ => some (q.val / 32768)
  | .dueQueueRead q => some (q.val / 32768)
  | .prefetchAreaWait d => some d.val
  | .linkStateApply p => some (p.val / 4)
  | .ageDrop q => some (q.val / 32768)
  | .frameReceive p _ => some (p.val / 4)
  | .parseFrame d _ => some d.val
  | .parseEnd d _ => some d.val
  | .fragHoldExpiry d _ => some d.val
  | .fragLifeExpiry d _ => some d.val
  | .sequenceAssign d => some d.val
  | .flowContextFetch d _ => some d.val
  | .robEntryWait d => some d.val
  | .learnApply d => some d.val
  | .moveApply d => some d.val
  | .learnNotice d _ => some d.val
  | .learnNoticeApply d => some d.val
  | .agerVisit d _ _ => some d.val
  | .pinRelease d _ => some d.val
  | .hashSeedWrite d _ => some d.val
  | .tblSearch _ => none
  | .tblNext _ => none
  | .tblInsert _ => none
  | .tblDelete _ => none
  | .tblFlushPort _ => none
  | .poolBaseWrite d _ _ => some d.val
  | .poolCountCommit d _ _ => some d.val
  | .poolRebuildDone d _ => some d.val
  | .hostFree d _ => some d.val
  | .admitFrame d _ => some d.val
  | .dwellStage q _ => some (q.val / 32768)
  | .qbaQselWrite d _ => some d.val
  | .qbaQdataRead d _ => some d.val
  | .segFlushExpiry _ => none
  | .segmentWritten _ => none
  | .hbmRequestIssue d _ _ => some d.val
  | .urgencyLate _ _ => none
  | .rowIdleClose d _ _ => some d.val
  | .refreshDue d _ _ => some d.val
  | .trainingDone _ => none
  | .spareRemap d _ => some d.val
  | .channelLost d _ => some d.val
  | .stackLost d _ => some d.val
  | .rebuildSegment _ => none
  | .rebuildResume => none
  | .rsqRelease d _ => some d.val
  | .gapTimeout d _ => some d.val
  | .handoffAck _ => none
  | .frameLeaveQuay p => some (p.val / 4)
  | .editProgWrite d _ _ => some d.val
  | .portDataCommit d _ _ => some d.val
  | .helperReply d _ _ => some d.val
  | .helperTimeout d _ => some d.val
  | .pilotThreadRestart d _ => some d.val
  | .runaway d _ => some d.val
  | .breakpointHit d _ => some d.val
  | .threadStop d _ _ => some d.val
  | .threadRestart d _ _ => some d.val
  | .threadHalt d _ _ => some d.val
  | .threadResume d _ _ => some d.val
  | .threadStep d _ _ => some d.val
  | .psCheckStart d => some d.val
  | .psCheckDone d => some d.val
  | .psFetchRepair d _ _ => some d.val
  | .dbgRegRead d => some d.val
  | .dbgRegWrite d _ => some d.val
  | .debugEnClear d _ => some d.val
  | .supervisorSet d _ _ => some d.val
  | .add d _ => some d.val
  | .sub d _ => some d.val
  | .andd d _ => some d.val
  | .orr d _ => some d.val
  | .xorr d _ => some d.val
  | .shl d _ => some d.val
  | .shr d _ => some d.val
  | .sar d _ => some d.val
  | .rot d _ => some d.val
  | .minn d _ => some d.val
  | .maxx d _ => some d.val
  | .mul d _ => some d.val
  | .popc d _ => some d.val
  | .clz d _ => some d.val
  | .orShift16 d _ => some d.val
  | .orShift32 d _ => some d.val
  | .orShift48 d _ => some d.val
  | .bfx d _ => some d.val
  | .bfi d _ => some d.val
  | .ld8 d _ => some d.val
  | .ld16 d _ => some d.val
  | .ld32 d _ => some d.val
  | .ld64 d _ => some d.val
  | .st8 d _ => some d.val
  | .st16 d _ => some d.val
  | .st32 d _ => some d.val
  | .st64 d _ => some d.val
  | .fld d _ => some d.val
  | .fst d _ => some d.val
  | .flen d _ => some d.val
  | .beq d _ => some d.val
  | .bne d _ => some d.val
  | .blt d _ => some d.val
  | .bge d _ => some d.val
  | .bltu d _ => some d.val
  | .bgeu d _ => some d.val
  | .bbs d _ => some d.val
  | .bbc d _ => some d.val
  | .j d _ => some d.val
  | .jal d _ => some d.val
  | .jr d _ => some d.val
  | .crc32c d _ => some d.val
  | .hash d _ => some d.val
  | .twait d _ => some d.val
  | .tdone d _ => some d.val
  | .tpost d _ => some d.val
  | .tdefer d _ => some d.val
  | .balloc d _ => some d.val
  | .bfree d _ => some d.val
  | .bshare d _ => some d.val
  | .bcheck d _ => some d.val
  | .lkp d _ => some d.val
  | .lrn d _ => some d.val
  | .lock d _ => some d.val
  | .lockGrant d _ => some d.val
  | .trylock d _ => some d.val
  | .unlock d _ => some d.val
  | .lkclean d _ => some d.val
  | .lkforce d _ => some d.val
  | .evwait d _ => some d.val
  | .evsig d _ => some d.val
  | .chput d _ => some d.val
  | .chclose d _ => some d.val
  | .chget d _ => some d.val
  | .emit d _ => some d.val
  | .retire d _ => some d.val
  | .tohost d _ => some d.val
  | .stage d _ => some d.val
  | .phase d _ => some d.val
  | .supread d _ => some d.val
  | .supstop d _ => some d.val
  | .suprestart d _ => some d.val
  | .trap d _ => some d.val
  | .nop d _ => some d.val
  | .taskDeliver d => some d.val
  | .affinityWaitEnd d _ => some d.val
  | .delayExpiry d => some d.val
  | .remoteTaskArrive d => some d.val
  | .affinityClear d _ => some d.val
  | .traceControlWrite d _ => some d.val
  | .traceMark d _ => some d.val
  | .traceSpill d => some d.val
  | .hostLockForce d _ => some d.val
  | .hostEventSignal d _ => some d.val
  | .hostChannelPut d _ => some d.val
  | .inspectSelect d _ => some d.val
  | .clearAbandon d _ => some d.val
  | .strandedReport d _ => some d.val
  | .commandFrame _ => none
  | .identify _ => none
  | .claim _ => none
  | .openSession _ _ _ => none
  | .close _ => none
  | .rd _ _ => none
  | .wr _ _ => none
  | .rmw _ _ _ => none
  | .winSet _ _ _ _ => none
  | .winRd _ _ => none
  | .winWr _ _ => none
  | .longFill _ => none
  | .longCrc _ => none
  | .longTblClear _ => none
  | .longOpCheckpoint _ => none
  | .longOpComplete _ => none
  | .abort _ => none
  | .status _ _ => none
  | .modeSet _ _ => none
  | .modeWarm _ => none
  | .modeCold _ => none
  | .modeUnit _ _ _ => none
  | .unitRestartDone d _ => some d.val
  | .portDrain _ _ => none
  | .evack _ => none
  | .taskInject _ => none
  | .dbg _ => none
  | .patch _ => none
  | .patchApply => none
  | .eventSend _ => none
  | .eventRetransmit => none
  | .exceptionSend => none
  | .hostWdogExpiry => none
  | .wdogEscalation => none
  | .hostFailover => none
  | .coldStart _ _ => none
  | .leadTakeover => none
  | .mcsScrub d _ _ => some d.val
  | .mcsRepair d _ => some d.val
  | .warmReset => none
  | .warmResetDone => none
  | .coldReset _ => none
  | .quayFlush _ _ => none
  | .drained => none
  | .sramScrub d _ => some d.val
  | .hbmScrub d _ _ => some d.val
  | .tableShadowCheck d _ _ _ => some d.val
  | .tableRestore d _ _ _ => some d.val
  | .staticEntryRepair d _ _ => some d.val
  | .timetableEntryRestore _ => none
  | .heartbeat d => some d.val
  | .heartbeatLoss x => some x.die.val
  | .hostDieExclude _ => none
  | .dieSupplyFault x => some x.die.val
  | .flitRetry d _ => some d.val
  | .laneFail d _ => some d.val
  | .portConfigWrite d _ _ => some d.val
  | .linkTrainingDone p => some (p.val / 4)
  | .linkFailureDetect p _ => some (p.val / 4)
  | .linkDownReport p => some (p.val / 4)
  | .linkUpReport p => some (p.val / 4)
  | .frameTransmitEnd p => some (p.val / 4)
  | .supplyValid => none
  | .supplyExcursion => none
  | .resetNAssert => none
  | .resetNRelease => none
  | .refclkLoss _ => none
  | .refclkReturn _ => none
  | .thermWarn d _ _ => some d.val
  | .thermtrip d _ _ => some d.val
  | .extest => none
  | .idcode => none
  | .samplePreload => none
  | .clamp => none
  | .highz => none
  | .extestPulse => none
  | .extestTrain => none
  | .bypass => none
  | .tapHoldEnd => none
  | .tapReset => none
  | .broadcastWrite _ _ => none
  | .registerWrite _ _ => none
  | .hostAttachmentLink _ _ => none
  | .arpRequest _ _ => none
  | .portIslandLost d => some d.val
  | .pilotRamError x => some x.die.val
  | .stackTempHot d _ => some d.val
  | .linkConditionsMet p _ => some (p.val / 4)

end Sys2Proof

namespace Sys2Proof.Machine

/-- The parts of the state, field by field. -/
inductive Piece
  | part | regs | glb | phi | cte | lpx | prs | cls | fwt | bpm | qba | ssc | rsq | cra | tdx | syu | gwe | plt | icu | lineTx | free | pending
  deriving DecidableEq, Repr

/-- A part of two states is the same. -/
def Piece.same (p : Piece) (s t : State) : Prop :=
  match p with
  | .part => t.part = s.part
  | .regs => t.regs = s.regs
  | .glb => t.glb = s.glb
  | .phi => t.phi = s.phi
  | .cte => t.cte = s.cte
  | .lpx => t.lpx = s.lpx
  | .prs => t.prs = s.prs
  | .cls => t.cls = s.cls
  | .fwt => t.fwt = s.fwt
  | .bpm => t.bpm = s.bpm
  | .qba => t.qba = s.qba
  | .ssc => t.ssc = s.ssc
  | .rsq => t.rsq = s.rsq
  | .cra => t.cra = s.cra
  | .tdx => t.tdx = s.tdx
  | .syu => t.syu = s.syu
  | .gwe => t.gwe = s.gwe
  | .plt => t.plt = s.plt
  | .icu => t.icu = s.icu
  | .lineTx => t.lineTx = s.lineTx
  | .free => t.free = s.free
  | .pending => t.pending = s.pending

/-- t differs from s in the parts listed at most: the frame of a command. -/
def only (l : List Piece) (s t : State) : Prop := ∀ p : Piece, p ∉ l → p.same s t

/-- Nothing is left of what the compute region of a die held: no thread, no reorder buffer entry, no L2, flow-key or LPM entry and no flow context (R471). -/
def State.lacks (s : State) (d : Nat) : Prop :=
  (∀ e ∈ s.cra.thr, e.1 / 384 ≠ d) ∧ (∀ e ∈ s.rsq.rob, e.1 / 8192 ≠ d) ∧ (∀ e ∈ s.fwt.l2, e.1 / 32768 ≠ d) ∧ (∀ e ∈ s.fwt.flow, e.1 / 229376 ≠ d)
    ∧ (∀ e ∈ s.fwt.lpm, e.1 / 65536 ≠ d) ∧ (∀ e ∈ s.fwt.ctx, e.1 / 65536 ≠ d)

/-- t is the state after reset, with the cause of R461, but for what a cold reset does not touch: the part with its fuses, the pins, the test access port, the sensors, the islands that failed, the model's counters and its records of what left on the lines, and the queue (R450, R451). -/
def State.coldFrom (s t : State) (cause : Nat) : Prop :=
  t = { State.reset with
      part := s.part, regs := t.regs, glb := t.glb, lineTx := s.lineTx, free := s.free, pending := s.pending
      gwe := { State.reset.gwe with draws := s.gwe.draws, tx := s.gwe.tx, answers := s.gwe.answers }
      ssc := { State.reset.ssc with now := s.ssc.now }
      lpx := { State.reset.lpx with lost := s.lpx.lost } }
    ∧ t.glb = { State.reset.glb with
      rstLow := s.glb.rstLow, supplyBad := s.glb.supplyBad, clkA := s.glb.clkA, clkB := s.glb.clkB, clocksLost := s.glb.clocksLost
      ir := s.glb.ir, dr := s.glb.dr, shift := s.glb.shift, tripPin := s.glb.tripPin, temps := s.glb.temps }
    ∧ t.reg .GLB_RESET_CAUSE 0 [] = BitVec.ofNat 32 cause ∧ t.rf .GLB_CLK_STAT 0 [] 1 0 = (if s.glb.clkA = true then 0 else 1)
    ∧ ∀ a, a ≠ 0x104 → a ≠ 0x400 → mfind t.regs a = none

/-- A record of an event has joined the queue last, where the queue had room and no record was lost before it (R402, R403). -/
def tells (s t : State) (code die : Nat) (args : List Nat) : Prop :=
  s.gwe.evLost = 0 → s.gwe.evq.length < 4096 → ∃ e, t.gwe.evq = s.gwe.evq ++ [e] ∧ e.code = code ∧ e.die = die ∧ e.args = args

/-- A counter of 32 bits went up by a number, or stands at its top (R6). -/
def counts (s t : State) (r : Reg) (d : Nat) (idx : List Nat) (n : Nat) : Prop :=
  (t.reg r d idx).toNat = min (2 ^ 32 - 1) ((s.reg r d idx).toNat + n)

/-- The byte stores are in canonical form: strictly rising addresses, no byte equal to what an unlisted address reads as (the quay of R168, the scratchpads of R270, the staging store and the parity of R206 and R209). -/
def State.memWf (s : State) : Prop := mwf 0 s.bpm.quay = true ∧ mwf 0 s.cra.pad = true ∧ mwf 0 s.ssc.data = true ∧ mwf 0 s.ssc.par = true

/-- Every register word, thread, register of a thread, and landing queue is listed once, by rising address or number. -/
def State.listsWf (s : State) : Prop :=
  mrise 0 s.regs = true ∧ mrise 0 s.cra.thr = true ∧ s.cra.thr.all (fun e => mrise 0 e.2.g) = true ∧ mrise 0 s.qba.lq = true

/-- Four sessions (R380), sixteen slots for completion records (R393), at most 4,096 records in the event queue (R403). -/
def State.boundsOk (s : State) : Prop := s.gwe.sess.length = 4 ∧ s.plt.ops.length = 16 ∧ s.gwe.evq.length ≤ 4096

/-- The invariant of the block. -/
def State.Inv (s : State) : Prop := s.memWf ∧ s.listsWf ∧ s.boundsOk

/-- A swap of the host's from s to t: the crossing of s is recorded, the swap counted and reported, the generation one higher (R78). -/
def State.swapped (s t : State) : Prop :=
  (s.Inv → t.reg .CTE_LAST_SWAP 0 [] = BitVec.ofNat 32 s.phi.xing ∧ t.gen .CTE_STATE 0 = (s.gen .CTE_STATE 0 + 1) % 2 ^ 16
    ∧ t.rf .CTE_SWAP_CNT 0 [] 15 0 = min 65535 (s.rf .CTE_SWAP_CNT 0 [] 15 0 + 1))
  ∧ tells s t 0x8401 0xFF [s.phi.xing, t.cte.active, t.gen .CTE_STATE 0]

/-- A step that gives no next state: no rule of the spec stops the block, so no step is one. -/
def stops (s : State) : Prop := ∀ t, step s ≠ .next t

/-- The command and the state give a next state. -/
def runs (c : Instr) (s : State) : Prop := ∃ t, exec c s = .next t

/-- The phase advanced by one step: at PHI_XLEN the step number is 0 again and the crossing number counts modulo 2^32; the 64-bit step count rises by one (R42, R43). Where every die follows the step, none comes to differ from the receiver die (R44). -/
def advancedTo (lanes : List (Fin 8 × Nat)) (s t : State) : Prop :=
  t.phi.step = (if s.xlen ≤ s.phi.step + 1 then 0 else s.phi.step + 1)
    ∧ t.phi.xing = (if s.xlen ≤ s.phi.step + 1 then (s.phi.xing + 1) % 2 ^ 32 else s.phi.xing)
    ∧ t.phi.stepCnt = (s.phi.stepCnt + 1) % 2 ^ 64
    ∧ (lanes = [] → t.phi.off = s.phi.off ∧ t.phi.cnt = s.phi.cnt)

/-- The answer of a host command: its result is the only one kept (R376). -/
def State.answered (s : State) (op : Nat) (st : Status) (data : List Byte) : State :=
  { s with gwe := { s.gwe with results := [{ opcode := op, tag := 0, status := st, data := data }] } }

/-- A pseudo-channel has served a request: the row of its piece stays open, unless the idle timer is 0 (R212, R213). -/
def State.servedReq (s : State) (d pc : Nat) (r : HbmReq) : State :=
  let u := servePc s r.id pc
  let k := rowKey d (pieceOf s r pc % 32) (Config.hbmBank d (pieceOf s r pc))
  { u with ssc := { u.ssc with rows := if u.rf .SSC_PAGE d [] 7 0 = 0 then mremove k u.ssc.rows else minsert k (Config.hbmRow d (pieceOf s r pc)) u.ssc.rows } }

/-! Threads. -/

/-- The record of a thread replaced. -/
def State.putThr (s : State) (d n : Nat) (x : Thr) : State := { s with cra := { s.cra with thr := minsert (thrKey d n) x s.cra.thr } }

/-- A thread uses its slot for instruction i of operation op: the die is there, threads run, the thread is in RUN, its fetch does not wait, no breakpoint stops it, and its slot limit is not passed, or the instruction ends the task (R260, R263, R269, R290, R295). -/
def State.issues (s : State) (d n : Nat) (op : ROp) (i : RIns) : Prop :=
  d < s.dies ∧ s.canIssue d n = true ∧ s.bpMatch d n = false ∧ s.insn d n = some i ∧ i.op = op ∧ (s.pastLimit d n = true → endsCount op = true)

/-- Thread n with its slot counted, toward MAX_SLOTS unless it is exempt; a step has issued (R25, R279, R293). -/
def State.slotted (s : State) (d n : Nat) : Thr :=
  { s.thr d n with slots := if s.exempt d n then (s.thr d n).slots else (s.thr d n).slots + 1, since := (s.thr d n).since + 1, step := if (s.thr d n).step = 1 then 2 else (s.thr d n).step }

/-- A thread, its slot counted, after an instruction of the immediate class: v in rd, the program counter at p (R262, R299). -/
def Thr.after (x : Thr) (rd : Nat) (v : DWord) (p : Nat) : Thr := Thr.settle { (x.set rd v) with pc := p }

/-- A thread, its slot counted, after a control transfer to p. -/
def Thr.jumped (x : Thr) (p : Nat) : Thr := Thr.settle { x with pc := p }

/-- A thread that waits in HELPER for the reply to its request: v for rd, or error err (R262, R265); its slots there count unless it is exempt (R279). -/
def Thr.asks (x : Thr) (exempt : Bool) (rd : Nat) (v : DWord) (err : Nat) (u : Bool) (kind : PendKind) : Thr :=
  { x with st := .helper, pend := some { rd := rd, value := v, err := err, u := u, kind := kind, arrived := false }, helped := x.helped || !exempt, waited := true }

/-- A thread that waits in SYNC (R265). -/
def Thr.syncs (x : Thr) (rd : Nat) (w : WaitOn) (m : DWord) : Thr :=
  { x with st := .sync, wait := some w, rd := rd, mask := m, waited := true }

/-- Thread n with its slot counted, at a wait that is satisfied at once or stays: slots of which the model keeps no number count, unless it is exempt (R279, R301; log 9). -/
def State.waited (s : State) (d n : Nat) : Thr := { s.slotted d n with helped := (s.slotted d n).helped || !s.exempt d n }

/-- A task of list l stays where it is when the dispatcher looks at it: no thread waits for its list, its affinity wait being over or none applying, or it is held for a core in which none waits (R328, R332). -/
def State.taskStays (s : State) (d l : Nat) (t : Task) : Prop :=
  t.list = l ∧ ((s.fallbackCore d l = none ∧ (t.waited = true ∨ (t.held = none ∧ s.affCore d t = none)))
    ∨ (t.waited = false ∧ s.rf .TDX_CFG d [] 7 0 ≠ 0 ∧ ∃ c, t.held = some c ∧ s.waitersOf d l c = []))

/-- No task of a list moves. -/
def State.listIdle (s : State) (d l : Nat) : Prop := ∀ t ∈ s.readyList d l, s.taskStays d l t

/-- The state u with thread n replaced by x, and the watch of R364 having looked at the die. -/
def State.withThr (u : State) (d n : Nat) (x : Thr) : State := lapse (u.putThr d n x) d

/-- The state after a slot in which only the thread itself has changed, to x: the slot is counted. -/
def State.afterSlot (s : State) (d n : Nat) (x : Thr) : State := (countSlot s d n).withThr d n x

/-- The state u with the request of thread n outstanding; CRA_SLOTS no longer shows an exact count of waiting slots (log 9). -/
def State.asked (u : State) (d n rd : Nat) (v : DWord) (err : Nat) (w : Bool) (kind : PendKind) : State :=
  (markWait u d n).withThr d n ((u.thr d n).asks (u.exempt d n) rd v err w kind)

/-- The state u with thread n waiting in SYNC. -/
def State.waits (u : State) (d n rd : Nat) (w : WaitOn) (m : DWord) : State := (markWait u d n).withThr d n ((u.thr d n).syncs rd w m)

/-- The state after thread n has faulted in state u (R278, R280). -/
def State.faulted (u : State) (d n code detail : Nat) : State := lapse ((faultThread u d n code detail).modThr d n Thr.settle) d

/-- The supervisor m of the cluster of thread n takes the fault record of n: it is another thread, and is not HALTED, FAULTED or STOPPED (R282). -/
def State.takesFault (s : State) (d n m : Nat) : Prop :=
  s.superOf d (clusterOf n) = some m ∧ m ≠ n ∧ (s.thr d m).st ≠ .halted ∧ (s.thr d m).st ≠ .faulted ∧ (s.thr d m).st ≠ .stopped

/-- A command is an instruction of the immediate class whose result is v (R262, R299). -/
def State.yields (s : State) (c : Instr) (d n : Nat) (op : ROp) (v : RIns → Thr → DWord) : Prop :=
  ∀ i, s.issues d n op i → exec c s = .next (s.afterSlot d n ((s.slotted d n).after i.d (v i (s.thr d n)) (nextPc (s.thr d n).pc)))

/-- A command is a control transfer to p (R297). -/
def State.jumps (s : State) (c : Instr) (d n : Nat) (op : ROp) (p : RIns → Thr → Nat) : Prop :=
  ∀ i, s.issues d n op i → exec c s = .next (s.afterSlot d n ((s.slotted d n).jumped (p i (s.thr d n))))

/-- A command is a load of k bytes: a good access yields the bytes, big-endian, and a bad one faults (R270, R308). -/
def State.loads (s : State) (c : Instr) (d n : Nat) (op : ROp) (k : Nat) : Prop :=
  ∀ i, s.issues d n op i →
    (padRead s d (clusterOf n) (padAddr i (s.thr d n)) k k = .good →
      exec c s = .next (s.afterSlot d n ((s.slotted d n).after i.d (BitVec.ofNat 64 (natAt s.cra.pad (padKey d (clusterOf n) (padAddr i (s.thr d n)).toNat) k)) (nextPc (s.thr d n).pc))))
    ∧ (∀ e x, padRead s d (clusterOf n) (padAddr i (s.thr d n)) k k = .bad e x → exec c s = .next ((countSlot s d n).faulted d n e x))

/-- A command is a store of k bytes: a good access writes the low k bytes of gd, big-endian, and a bad one faults with nothing written (R270, R308). -/
def State.stores (s : State) (c : Instr) (d n : Nat) (op : ROp) (k : Nat) : Prop :=
  ∀ i, s.issues d n op i →
    (padAccess (padAddr i (s.thr d n)) k k = .good →
      exec c s = .next (((countSlot s d n).putPad d (clusterOf n) (padAddr i (s.thr d n)).toNat (beBytes k ((s.thr d n).get i.d).toNat)).withThr d n ((s.slotted d n).jumped (nextPc (s.thr d n).pc))))
    ∧ (∀ e x, padAccess (padAddr i (s.thr d n)) k k = .bad e x → exec c s = .next ((countSlot s d n).faulted d n e x))

end Sys2Proof.Machine
end

