-- ==== Sys2Proof/WellFormed.lean ====
section
/-! DEFINITION. What a command can carry: fields fit the bytes that the argument layouts give them (spec/13 R375 to R400). Commands that no argument layout restricts are all well formed; their operand types bound them. -/

namespace Sys2Proof

/-- A one-byte field. -/
def byteVal (n : Nat) : Bool := decide (n < 256)

/-- Bytes in whole words: argument lengths are multiples of 4 (R376). -/
def wordBytes (l : List Byte) : Bool := decide (l.length % 4 = 0)

/-- The argument of CLAIM (R384). -/
def claimForm (a : ClaimArgs) : Bool :=
  decide (a.dnonce.length = 32) && decide (a.owner.length = 96) && decide (a.heph.length = 96) && decide (a.ukey.length = 48) && byteVal a.cipher
    && decide (a.rsv.length = 3) && decide (a.osig.length = 96)

/-- The arguments of TBL (R392). -/
def tblForm (a : TblArgs) : Bool := byteVal a.table && byteVal a.die && byteVal a.flags && wordBytes a.body

/-- The arguments of LONG (R393). -/
def longForm (a : LongArgs) : Bool := byteVal a.space && byteVal a.unit && byteVal a.flags && decide (a.offset < 2 ^ 64) && decide (a.length < 2 ^ 64)

/-- The arguments of TASK_INJECT (R398). -/
def injectForm (a : InjectArgs) : Bool := byteVal a.die && byteVal a.ready && decide (a.args.length = 6)

/-- The arguments of DBG (R399). -/
def dbgForm (a : DbgArgs) : Bool := byteVal a.die && byteVal a.op && decide (a.thread < 65536) && byteVal a.reg

/-- The arguments of PATCH (R400). -/
def patchForm (a : PatchArgs) : Bool := decide (a.total < 2 ^ 32) && decide (a.offset < 2 ^ 32) && wordBytes a.data && decide (a.data.length ≤ 8176)

/-- A frame on the host port: packet numbers have at most 64 bits (R386). -/
def frameForm (f : GwFrame) : Bool := decide (f.pn < 2 ^ 64)

/-- A well-formed command. -/
def wellFormed : Instr → Bool
  | .tblSearch a => tblForm a
  | .tblNext a => tblForm a
  | .tblInsert a => tblForm a
  | .tblDelete a => tblForm a
  | .tblFlushPort a => tblForm a
  | .commandFrame f => frameForm f
  | .identify h => decide (h.length = 16)
  | .claim a => claimForm a
  | .rd _ n => decide (n < 2 ^ 32)
  | .wr _ ws => decide (ws.length < 2048)
  | .winSet _ sp u _ => byteVal sp && byteVal u
  | .winRd _ n => decide (n < 2 ^ 32)
  | .winWr _ l => wordBytes l && decide (l.length ≤ 8192)
  | .longFill a => longForm a
  | .longCrc a => longForm a
  | .longTblClear a => longForm a
  | .modeSet t _ => byteVal t
  | .modeUnit d u _ => byteVal d && byteVal u
  | .taskInject a => injectForm a
  | .dbg a => dbgForm a
  | .patch a => patchForm a
  | .coldReset c => decide (1 ≤ c) && decide (c ≤ 3)
  | .broadcastWrite o _ => decide (o < 0x100000)
  | .phaseStep _ _ _ _ | .estimatedStep | .coastedStep | .selfPhaseStep | .tick | .crossingBegin _ _ | .phaseWord _ _ | .stepPresenceFail _ | .phaseAdopt
  | .holdoverExpiry | .phaseRevert | .phaseRealign _ | .copySelect | .phiSourceSelect _ | .phiNowXingRead | .cteSwapArm _ | .cteSwapCancel _ | .cteSwapNow _
  | .timetableSwap | .departureStart _ | .prefetchPoint _ _ | .prefetchLand _ _ | .prefetchDeadline _ _ | .dueQueueRead _ | .prefetchAreaWait _ | .linkStateApply _
  | .ageDrop _ | .frameReceive _ _ | .parseFrame _ _ | .parseEnd _ _ | .fragHoldExpiry _ _ | .fragLifeExpiry _ _ | .sequenceAssign _ | .flowContextFetch _ _
  | .robEntryWait _ | .learnApply _ | .moveApply _ | .learnNotice _ _ | .learnNoticeApply _ | .agerVisit _ _ _ | .pinRelease _ _ | .hashSeedWrite _ _
  | .poolBaseWrite _ _ _ | .poolCountCommit _ _ _ | .poolRebuildDone _ _ | .hostFree _ _ | .admitFrame _ _ | .dwellStage _ _ | .qbaQselWrite _ _ | .qbaQdataRead _ _
  | .segFlushExpiry _ | .segmentWritten _ | .hbmRequestIssue _ _ _ | .urgencyLate _ _ | .rowIdleClose _ _ _ | .refreshDue _ _ _ | .trainingDone _ | .spareRemap _ _
  | .channelLost _ _ | .stackLost _ _ | .rebuildSegment _ | .rebuildResume | .rsqRelease _ _ | .gapTimeout _ _ | .handoffAck _ | .frameLeaveQuay _ | .editProgWrite _ _ _
  | .portDataCommit _ _ _ | .helperReply _ _ _ | .helperTimeout _ _ | .pilotThreadRestart _ _ | .runaway _ _ | .breakpointHit _ _ | .threadStop _ _ _
  | .threadRestart _ _ _ | .threadHalt _ _ _ | .threadResume _ _ _ | .threadStep _ _ _ | .psCheckStart _ | .psCheckDone _ | .psFetchRepair _ _ _ | .dbgRegRead _
  | .dbgRegWrite _ _ | .debugEnClear _ _ | .supervisorSet _ _ _ | .add _ _ | .sub _ _ | .andd _ _ | .orr _ _ | .xorr _ _ | .shl _ _ | .shr _ _ | .sar _ _ | .rot _ _
  | .minn _ _ | .maxx _ _ | .mul _ _ | .popc _ _ | .clz _ _ | .orShift16 _ _ | .orShift32 _ _ | .orShift48 _ _ | .bfx _ _ | .bfi _ _ | .ld8 _ _ | .ld16 _ _ | .ld32 _ _
  | .ld64 _ _ | .st8 _ _ | .st16 _ _ | .st32 _ _ | .st64 _ _ | .fld _ _ | .fst _ _ | .flen _ _ | .beq _ _ | .bne _ _ | .blt _ _ | .bge _ _ | .bltu _ _ | .bgeu _ _
  | .bbs _ _ | .bbc _ _ | .j _ _ | .jal _ _ | .jr _ _ | .crc32c _ _ | .hash _ _ | .twait _ _ | .tdone _ _ | .tpost _ _ | .tdefer _ _ | .balloc _ _ | .bfree _ _
  | .bshare _ _ | .bcheck _ _ | .lkp _ _ | .lrn _ _ | .lock _ _ | .lockGrant _ _ | .trylock _ _ | .unlock _ _ | .lkclean _ _ | .lkforce _ _ | .evwait _ _ | .evsig _ _
  | .chput _ _ | .chclose _ _ | .chget _ _ | .emit _ _ | .retire _ _ | .tohost _ _ | .stage _ _ | .phase _ _ | .supread _ _ | .supstop _ _ | .suprestart _ _ | .trap _ _
  | .nop _ _ | .taskDeliver _ | .affinityWaitEnd _ _ | .delayExpiry _ | .remoteTaskArrive _ | .affinityClear _ _ | .traceControlWrite _ _ | .traceMark _ _ | .traceSpill _
  | .hostLockForce _ _ | .hostEventSignal _ _ | .hostChannelPut _ _ | .inspectSelect _ _ | .clearAbandon _ _ | .strandedReport _ _ | .openSession _ _ _ | .close _
  | .rmw _ _ _ | .longOpCheckpoint _ | .longOpComplete _ | .abort _ | .status _ _ | .modeWarm _ | .modeCold _ | .unitRestartDone _ _ | .portDrain _ _ | .evack _
  | .patchApply | .eventSend _ | .eventRetransmit | .exceptionSend | .hostWdogExpiry | .wdogEscalation | .hostFailover | .coldStart _ _ | .leadTakeover | .mcsScrub _ _ _
  | .mcsRepair _ _ | .warmReset | .warmResetDone | .quayFlush _ _ | .drained | .sramScrub _ _ | .hbmScrub _ _ _ | .tableShadowCheck _ _ _ _ | .tableRestore _ _ _ _
  | .staticEntryRepair _ _ _ | .timetableEntryRestore _ | .heartbeat _ | .heartbeatLoss _ | .hostDieExclude _ | .dieSupplyFault _ | .flitRetry _ _ | .laneFail _ _
  | .portConfigWrite _ _ _ | .linkTrainingDone _ | .linkFailureDetect _ _ | .linkDownReport _ | .linkUpReport _ | .frameTransmitEnd _ | .supplyValid | .supplyExcursion
  | .resetNAssert | .resetNRelease | .refclkLoss _ | .refclkReturn _ | .thermWarn _ _ _ | .thermtrip _ _ _ | .extest | .idcode | .samplePreload | .clamp | .highz
  | .extestPulse | .extestTrain | .bypass | .tapHoldEnd | .tapReset | .registerWrite _ _ | .hostAttachmentLink _ _ | .arpRequest _ _ | .portIslandLost _
  | .pilotRamError _ | .stackTempHot _ _ | .linkConditionsMet _ _ => true

end Sys2Proof
end

