-- ==== Sys2Proof/Certificates/Slice0/Obligations.lean ====
section
/-! DEFINITION. The statements for the provers, in the order of the spec's chapters. A statement gives the next state of a command whole, or says what it holds and, by `only`, which parts of the state may differ at all. -/

open Sys2Proof Sys2Proof.Machine

/-! The machine. -/

/-- A step with a command at the front of the queue is that command on the state with the queue's rest; on an empty queue a step idles, every happening of the spec being a command (the idling is the model's choice, logs 9 and 70). -/
def Obligations.StepRunsFront : Prop :=
  ∀ (c : Instr) (rest : List Instr) (s : State), step { s with pending := c :: rest } = exec c { s with pending := rest } ∧ (s.pending = [] → step s = .next s)

/-- Right after reset the package is in RESET with the phase in NONE and unselected, nothing claimed, no stack in use, no link up, no frame, task, message or record held, and no command waiting (R435, R439, R451). The part and the words of GLB_RESET_CAUSE are the model's (logs 1 and 2), and so is that the staging store and its parity hold nothing, their bytes reading as zero (log 5). -/
def Obligations.ResetHoldsNothing : Prop :=
  State.reset.glb.mode = .reset ∧ State.reset.phi.st = .none ∧ State.reset.phi.src = .none ∧ State.reset.gwe.owner = none ∧ State.reset.gwe.assoc = none
    ∧ State.reset.ssc.smask = 0 ∧ State.reset.ssc.begun = false ∧ (∀ p, (State.reset.lnk p).up = false) ∧ (∀ q, (State.reset.lq q).items = [])
    ∧ (∀ d n, (State.reset.thr d n).st = .idle) ∧ (∀ d l, State.reset.readyList d l = []) ∧ State.reset.gwe.evq = [] ∧ State.reset.plt.ops = List.replicate 16 none
    ∧ State.reset.bpm.quay = [] ∧ State.reset.cra.pad = [] ∧ State.reset.ssc.data = [] ∧ State.reset.ssc.par = [] ∧ State.reset.ssc.seg = [] ∧ State.reset.pending = []

/-- The invariant holds right after reset. -/
def Obligations.ResetInv : Prop := State.reset.Inv

/-- Every step keeps the invariant: canonical byte stores, register words, threads and landing queues listed once, four sessions, sixteen record slots, at most 4,096 events. -/
def Obligations.StepKeepsInv : Prop := ∀ s t : State, s.Inv → step s = .next t → t.Inv

/-- Every command answers a next state, whatever the state is, and so does every step: none is refused and none faults, because no rule stops the block. A command that names a die which the part lacks changes nothing but the Gangway's answer (that it does not occur is the model's reading, log 26). -/
def Obligations.EveryCommandCompletes : Prop :=
  (∀ (c : Instr) (s : State), runs c s) ∧ (∀ s : State, ¬ stops s)
    ∧ ∀ (c : Instr) (s : State) (d : Nat), c.die = some d → s.dies ≤ d → ∃ t, exec c s = .next t ∧ only [.gwe] s t

/-! The phase (spec/02). -/

/-- Steps of the phase: an edge of the active input adds one, whether or not it passes its checks (R42, R46, R55), unless it comes no later than half a period after an estimated step (R536) or the input is high-impedance (R508); ESTIMATED_STEP, COASTED_STEP and SELF_PHASE_STEP add one (R51, R59, R536); CROSSING_BEGIN is the one that ends at step 0 (R42). -/
def Obligations.StepsAdvanceThePhase : Prop :=
  ∀ (s : State) (lanes : List (Fin 8 × Nat)), s.Inv →
    (∀ inp mark period lag, s.isActive inp = true → s.pinsReset = false →
      (¬ (s.phi.estimated = true ∧ 2 * lag ≤ s.phi.period) →
        ∃ t, exec (.phaseStep inp mark period ⟨lag, lanes⟩) s = .next t ∧ advancedTo lanes s t ∧ only [.regs, .phi, .cte, .qba, .ssc, .gwe] s t
          ∧ ((trackEdge s inp mark period).1 = none → t.phi.estimated = false ∧ t.phi.st = s.phi.st ∧ t.phi.src = s.phi.src))
      ∧ (s.phi.estimated = true → 2 * lag ≤ s.phi.period →
        ∃ t, exec (.phaseStep inp mark period ⟨lag, lanes⟩) s = .next t ∧ t.phi.step = s.phi.step ∧ t.phi.xing = s.phi.xing ∧ t.phi.stepCnt = s.phi.stepCnt
          ∧ only [.regs, .phi, .cte, .gwe] s t))
    ∧ (s.phi.st = .locked → ∃ t, exec .estimatedStep s = .next t ∧ advancedTo [] s t ∧ t.phi.estimated = true ∧ only [.regs, .phi, .cte, .qba, .ssc, .gwe] s t)
    ∧ (s.coasts = true → ∃ t, exec .coastedStep s = .next t ∧ advancedTo [] s t
        ∧ t.phi.coasted = (if s.phi.st = .holdover then s.phi.coasted + 1 else s.phi.coasted) ∧ only [.regs, .phi, .cte, .qba, .ssc, .gwe] s t)
    ∧ (s.phi.st = .self → ∃ t, exec .selfPhaseStep s = .next t ∧ advancedTo [] s t ∧ only [.regs, .phi, .cte, .qba, .ssc, .gwe] s t)
    ∧ (∀ mark period lag, s.xlen ≤ s.phi.step + 1 →
        (s.phi.st = .self ∨ s.coasts = true ∨ (s.pinsReset = false ∧ (∃ inp, s.isActive inp = true) ∧ ¬ (s.phi.estimated = true ∧ 2 * lag ≤ s.phi.period))) →
        ∃ t, exec (.crossingBegin mark ⟨period, lag, lanes⟩) s = .next t ∧ advancedTo lanes s t ∧ t.phi.step = 0 ∧ only [.regs, .phi, .cte, .qba, .ssc, .gwe] s t)

/-- TICK counts the tick, and outside MOORED one unit of age (R43, R446); a read of PHI_NOW_XING returns the crossing number and latches the step number and the tick count of the same phase (R58). -/
def Obligations.TicksAndPhaseReads : Prop :=
  ∀ s : State,
    (s.phi.tickDone ≠ s.ticks → exec .tick s = .next { s with
        phi := { s.phi with tickDone := (s.phi.tickDone + 1) % (2 ^ 64 / 2 ^ s.tickShift) }
        glb := { s.glb with ageCnt := if s.glb.mode = .moored then s.glb.ageCnt else s.glb.ageCnt + 1 } })
    ∧ (s.Inv → s.glb.mode.any = true → ∃ t, exec .phiNowXingRead s = .next t
        ∧ t.gwe = { s.gwe with results := [{ opcode := 0x10, tag := 0, status := .ok, data := beBytes 4 (BitVec.ofNat 32 s.phi.xing).toNat }] }
        ∧ t.reg .PHI_NOW_STEP 0 [] = BitVec.ofNat 32 s.phi.step ∧ t.reg .PHI_TICKS_LO 0 [] = BitVec.ofNat 32 s.ticks
        ∧ t.reg .PHI_TICKS_HI 0 [] = BitVec.ofNat 32 (s.ticks / 2 ^ 32) ∧ only [.regs, .gwe] s t)

/-- A whole phase word of an input passes or fails its check on SYNC, CRC and crossing number, and the input keeps the outcome: a good one seeds an input that is not seeded (R38 to R40, R46) and, of the active input with COPY_SRC = 1, selects the copy (R41); with a second bad word in a row the input is not healthy (R46). At an edge the period since the last one is measured, and one that fails the step-rate check, a single period outside 5 ns to 40 ns among them, makes its input not healthy (R46); an input without step numbering takes the first step with MARK as its step 0 (R535), and one that has it finds an error where MARK is high at another step than 0 or low at it, which PHI_ERR counts: the second crossing in a row with one makes it not healthy (R46). That its numbering restarts then too is the model's reading (log 72), and that means are rounded down its choice (log 82). An edge of an input that is not active moves no step. An input without edges for 8 periods is no longer seen and not healthy (R46). In RESET no edge and no word is seen (R508). -/
def Obligations.PhaseInputsKeepTheirChecks : Prop :=
  ∀ (s : State) (inp : PhInp), (s.pinsReset = true → (∀ w, exec (.phaseWord inp w) s = .next s) ∧ (∀ mark period x, exec (.phaseStep inp mark period x) s = .next s) ∧ exec (.stepPresenceFail inp) s = .next s) ∧
    (s.phi.st ≠ .self → s.pinsReset = false →
    (∀ mark period x l, l = (if (s.phIn inp).seen = true then (period :: (s.phIn inp).periods).take 4096 else []) →
      ∃ t, exec (.phaseStep inp mark period x) s = .next t ∧ t.phIn (otherInp inp) = s.phIn (otherInp inp) ∧ (t.phIn inp).seen = true ∧ (t.phIn inp).periods = l
        ∧ (s.isActive inp = false → t.phi.step = s.phi.step ∧ t.phi.xing = s.phi.xing ∧ t.phi.stepCnt = s.phi.stepCnt ∧ only [.regs, .phi, .cte, .gwe] s t)
        ∧ (rateFails (s.rf .PHI_TOL 0 [] 15 0) l = true → (t.phIn inp).healthy = false ∧ (t.phIn inp).stepOk = false)
        ∧ ((s.phIn inp).seen = true → (period < 5000000 ∨ 40000000 < period) → (t.phIn inp).healthy = false)
        ∧ (rateFails (s.rf .PHI_TOL 0 [] 15 0) l = false →
          ((s.phIn inp).stepNo = none → mark = true → (t.phIn inp).stepNo = some 0 ∧ (t.phIn inp).xing = ((s.phIn inp).xing + 1) % 2 ^ 32)
          ∧ ∀ n e b, (s.phIn inp).healthy = true → (s.phIn inp).stepNo = some n → e = (n + 1) % s.xlen →
              b = (if e = 0 then (if (s.phIn inp).markErr then (s.phIn inp).badMarks else 0) + 1 else if (s.phIn inp).markErr then (s.phIn inp).badMarks else (s.phIn inp).badMarks + 1) →
              (mark = decide (e = 0) → (s.phIn inp).badMarks < 2 → (t.phIn inp).healthy = true ∧ (t.phIn inp).stepNo = some e)
              ∧ (mark ≠ decide (e = 0) → (s.Inv → t.rf .PHI_ERR 0 [inpNo inp] 31 16 = min 65535 (s.rf .PHI_ERR 0 [inpNo inp] 31 16 + 1))
                  ∧ (b < 2 → (t.phIn inp).healthy = true ∧ (t.phIn inp).stepNo = some e ∧ (t.phIn inp).badMarks = b)
                  ∧ (2 ≤ b → (t.phIn inp).healthy = false ∧ (t.phIn inp).stepNo = none))))
    ∧ (∀ w, (s.phIn inp).whole = true →
      ∃ t, exec (.phaseWord inp w) s = .next t ∧ only [.regs, .phi, .cte, .gwe] s t ∧ t.phIn (otherInp inp) = s.phIn (otherInp inp) ∧ (t.phIn inp).whole = false
        ∧ (wordGood w = true → ((s.phIn inp).seeded = true → bitsOf w.toNat 47 16 = (s.phIn inp).wstart) →
            (t.phIn inp).wordOk = true ∧ (t.phIn inp).badWords = 0 ∧ (t.phIn inp).seeded = true
            ∧ ((s.phIn inp).seeded = false → (t.phIn inp).xing = (bitsOf w.toNat 47 16 + sub32 (s.phIn inp).xing (s.phIn inp).wstart) % 2 ^ 32)
            ∧ (s.isActive inp = true → s.copySrc = true → t.cte.nextCopy = some (bitsOf w.toNat 8 8, none)))
        ∧ (¬ (wordGood w = true ∧ ((s.phIn inp).seeded = true → bitsOf w.toNat 47 16 = (s.phIn inp).wstart)) →
            (t.phIn inp).wordOk = false ∧ (t.phIn inp).badWords = (s.phIn inp).badWords + 1 ∧ (t.phIn inp).good = 0
            ∧ (1 ≤ (s.phIn inp).badWords → (t.phIn inp).healthy = false)))
    ∧ ((s.phIn inp).seen = true →
      ∃ t, exec (.stepPresenceFail inp) s = .next t ∧ only [.regs, .phi, .cte, .gwe] s t ∧ (t.phIn inp).seen = false ∧ (t.phIn inp).stepNo = none
        ∧ (t.phIn inp).periods = [] ∧ (t.phIn inp).healthy = false ∧ t.phIn (otherInp inp) = s.phIn (otherInp inp)))

/-- Changes of the phase state: PHASE_ADOPT takes the crossing number and step 0 of the input to be adopted (R49, R52), HOLDOVER_EXPIRY ends in LOST (R49, R57), PHASE_REVERT returns to the preferred input (R50), PHASE_REALIGN takes a die off the skewed ones and puts it in phase (R44), and a write of PHI_CTRL.SRC that changes it selects no source, acquisition, or the self-phase from PHI_SELF_START (R49, R59). That an adoption counts a step and the start of self-phase none is the model's choice (log 69), and so is the rounding of the period (log 82). -/
def Obligations.PhaseStateChanges : Prop :=
  ∀ s : State,
    (∀ i, s.phi.adopt = some i → (s.phIn i).healthy = true → (s.phIn i).stepNo = some 0 → (s.phi.st = .acquire ∨ s.phi.st = .holdover ∨ s.phi.st = .lost) →
      ∃ t, exec .phaseAdopt s = .next t ∧ t.phi.st = .locked ∧ t.phi.src = inpSrc i ∧ t.phi.step = 0 ∧ t.phi.xing = (s.phIn i).xing
        ∧ t.phi.stepCnt = (s.phi.stepCnt + 1) % 2 ^ 64 ∧ t.phi.adopt = none ∧ only [.regs, .phi, .cte, .qba, .ssc, .gwe] s t)
    ∧ (s.phi.st = .holdover → s.rf .PHI_HOLD 0 [] 15 0 * s.xlen ≤ s.phi.coasted →
      ∃ t, exec .holdoverExpiry s = .next t ∧ t.phi = { s.phi with st := .lost, src := .none } ∧ only [.regs, .phi, .cte, .gwe] s t)
    ∧ (s.phi.st = .locked → s.isActive s.prefInp = false → bit (s.reg .PHI_CTRL 0 []) 4 = true → s.phi.step = 0 → (s.phIn s.prefInp).healthy = true →
        s.rf .PHI_HOLD 0 [] 19 16 ≤ (s.phIn s.prefInp).words → s.agrees s.prefInp = true →
      ∃ t, exec .phaseRevert s = .next t
        ∧ t.phi = { s.phi with src := inpSrc s.prefInp, ever := true, period := if (s.phIn s.prefInp).measured = 0 then s.phi.period else (s.phIn s.prefInp).measured }
        ∧ only [.regs, .phi, .cte, .gwe] s t)
    ∧ (∀ d : Fin 8, d < s.dies → s.phi.step = 0 → s.phi.skewed.any (fun e => e.1 = d && decide (e.2 ≠ s.phi.stepCnt)) = true →
      ∃ t, exec (.phaseRealign d) s = .next t ∧ t.phi = { s.phi with skewed := s.phi.skewed.filter (fun e => e.1 ≠ d), off := mset 0 s.phi.off d 0 } ∧ only [.regs, .phi] s t)
    ∧ (∀ w, s.glb.mode = .provision → genOk (fld w 31 16) (s.gen .PHI_STATE 0) = true → fld w 1 0 ≠ 3 → fld w 1 0 ≠ s.rf .PHI_CTRL 0 [] 1 0 →
      ∃ t, exec (.phiSourceSelect w) s = .next t ∧ t.phi.st = (if fld w 1 0 = 1 then .acquire else if fld w 1 0 = 2 then .self else .none)
        ∧ t.phi.src = (if fld w 1 0 = 2 then .self else .none) ∧ t.phi.stepCnt = s.phi.stepCnt ∧ t.gwe.results = [{ opcode := 0x11, tag := 0, status := .ok, data := [] }]
        ∧ (s.Inv → fld w 1 0 = 2 → t.phi.step = 0 ∧ t.phi.xing = (s.reg .PHI_SELF_START 0 []).toNat)
        ∧ only [.regs, .phi, .cte, .qba, .ssc, .gwe] s t)

/-! The timetable and departures (spec/03). -/

/-- Swaps of the timetable copies: CTE_SWAP with ARM, CANCEL and NOW by the host, the armed swap at its crossing, and the copy that a phase word selected, once a crossing has begun after the word (R41, R77 to R81); a swap of the host's is recorded in CTE_LAST_SWAP and counted, steps the generation and is reported by EV_TT_SWAP, one that a word selected is recorded and counted alone (R78, R81); an arm that comes too late is denied and counts, and ARM, CANCEL and NOW are refused by the checks of R77, R80 and R81; with COPY_SRC = 0, or in self-phase, no word selects (R59). That CTE_SWAP_CNT saturates is the model's choice (log 82). -/
def Obligations.TimetableSwaps : Prop :=
  ∀ s : State,
    (∀ exp : BitVec 16, s.glb.mode.any = true → genOk exp.toNat (s.gen .CTE_STATE 0) = true → s.copySrc = false → s.cte.swap = none → s.earlyFor (s.reg .CTE_SWAP_XING 0 []).toNat = true →
      exec (.cteSwapArm exp) s = .next (wrResult (.ok, ({ s with cte := { s.cte with swap := some (s.reg .CTE_SWAP_XING 0 []).toNat } } : State).bumpGen .CTE_STATE 0)))
    ∧ (∀ exp : BitVec 16, s.glb.mode.any = true → genOk exp.toNat (s.gen .CTE_STATE 0) = true →
      (s.copySrc = true → exec (.cteSwapArm exp) s = .next (wrResult (.denied, s)))
      ∧ (s.copySrc = false → s.cte.swap.isSome = true → exec (.cteSwapArm exp) s = .next (wrResult (.busy, s)))
      ∧ (s.copySrc = false → s.cte.swap = none → s.earlyFor (s.reg .CTE_SWAP_XING 0 []).toNat = false →
          ∃ t, exec (.cteSwapArm exp) s = .next (wrResult (.denied, t)) ∧ only [.regs] s t ∧ (s.Inv → t.rf .CTE_SWAP_CNT 0 [] 31 16 = min 65535 (s.rf .CTE_SWAP_CNT 0 [] 31 16 + 1)))
      ∧ (s.cte.swap = none → exec (.cteSwapCancel exp) s = .next (wrResult (.ok, s)))
      ∧ (∀ n, s.cte.swap = some n → s.earlyFor n = false → exec (.cteSwapCancel exp) s = .next (wrResult (.denied, s)))
      ∧ (s.glb.mode ≠ .provision → exec (.cteSwapNow exp) s = .next (wrResult (.mode, s)))
      ∧ (s.glb.mode = .provision → s.copySrc = true → exec (.cteSwapNow exp) s = .next (wrResult (.denied, s)))
      ∧ (s.glb.mode = .provision → s.copySrc = false → s.cte.swap.isSome = true → exec (.cteSwapNow exp) s = .next (wrResult (.busy, s))))
    ∧ (∀ exp : BitVec 16, s.glb.mode.any = true → genOk exp.toNat (s.gen .CTE_STATE 0) = false →
      exec (.cteSwapArm exp) s = .next (wrResult (.stale, s)) ∧ exec (.cteSwapCancel exp) s = .next (wrResult (.stale, s)) ∧ exec (.cteSwapNow exp) s = .next (wrResult (.stale, s)))
    ∧ (∀ (exp : BitVec 16) n, s.glb.mode.any = true → genOk exp.toNat (s.gen .CTE_STATE 0) = true → s.cte.swap = some n → s.earlyFor n = true →
      exec (.cteSwapCancel exp) s = .next (wrResult (.ok, ({ s with cte := { s.cte with swap := none } } : State).bumpGen .CTE_STATE 0)))
    ∧ (∀ exp : BitVec 16, s.glb.mode = .provision → genOk exp.toNat (s.gen .CTE_STATE 0) = true → s.copySrc = false → s.cte.swap = none →
      ∃ t, exec (.cteSwapNow exp) s = .next t ∧ t.cte = { s.cte with active := 1 - s.cte.active } ∧ t.gwe.results = [{ opcode := 0x11, tag := 0, status := .ok, data := [] }]
        ∧ s.swapped t ∧ only [.regs, .cte, .gwe] s t)
    ∧ (∀ n, s.cte.swap = some n → reaches s.phi.xing n = true →
      ∃ t, exec .timetableSwap s = .next t ∧ t.cte = { s.cte with active := 1 - s.cte.active, swap := none } ∧ s.swapped t ∧ only [.regs, .cte, .gwe] s t)
    ∧ (∀ c x, s.cte.nextCopy = some (c, some x) → s.copySrc = true →
      ∃ t, exec .copySelect s = .next t ∧ t.cte.active = c ∧ t.cte.nextCopy = none ∧ only [.regs, .cte, .gwe] s t
        ∧ (s.cte.swap = none → t.cte = { s.cte with active := c, nextCopy := none } ∧ t.gwe = s.gwe
            ∧ (c = s.cte.active → t.regs = s.regs)
            ∧ (c ≠ s.cte.active → s.Inv → t.reg .CTE_LAST_SWAP 0 [] = BitVec.ofNat 32 x ∧ t.gen .CTE_STATE 0 = s.gen .CTE_STATE 0
                ∧ t.rf .CTE_SWAP_CNT 0 [] 15 0 = min 65535 (s.rf .CTE_SWAP_CNT 0 [] 15 0 + 1))))
    ∧ ((s.copySrc = false ∨ ∀ c x, s.cte.nextCopy ≠ some (c, some x)) → exec .copySelect s = .next s)

/-- Prefetch: at the prefetch point of a run the open segments of the group's queues close, that of a rebuild too, and their first segments are requested (R90, R207); a requested segment whose reads are committed has landed (R92, R217); one not landed at its deadline is late and counts (R92, R93); a due queue has its next segments requested (R93); the oldest request that waits for room proceeds once its chunks fit (R94), and none outside RUN and DRAIN (R445). That the copy last selected stands for a crossing whose word has not come, that a request already made stays for the coming run, and that the oldest waiting request is the one that proceeds is the model's choice (logs 21, 68). -/
def Obligations.PrefetchGoesOn : Prop :=
  ∀ s : State,
    (∀ (b : Fin 8192) (g : Fin 4), b.val / 1024 < s.dies → s.bankMayOpen b = true → ∀ n st, s.stepAhead (s.bankServer b) s.pfLead = (n, st) → s.coveredAt b g n st = true → s.coveredBefore b g n st = false →
      exec (.prefetchPoint b g) s = .next ((s.groupQueues b g).foldl (fun u q =>
        let v := match (u.lq q).opened with
          | some j => closeSegment u j true
          | none => u
        let v := if v.freshOf q then closeFresh v true else v
        if ((s.windows (s.copyAt n) b).filter (fun x => x.covers s.xlen n st && nbit x.gmask g)).any (fun x => !x.nopf) then
          let run := v.phi.stepCnt + v.pfLead
          let js := v.heldSegs q (fun x => x.st ≠ .opened)
          requestSome (keepForRun v q run js) q run run true js
        else v) s))
    ∧ (∀ (q : Fin 262144) seg p, q.val / 32768 < s.dies → s.pfOf q seg = some p → p.st = .requested → s.pfReads seg = true →
      exec (.prefetchLand q seg) s = .next (s.modPf q seg (fun p => { p with st := .landed })))
    ∧ (∀ (q : Fin 262144) seg p, q.val / 32768 < s.dies → s.pfOf q seg = some p → p.st ≠ .landed → p.counts = true → p.late = false → p.deadline ≤ s.phi.stepCnt →
      ∃ t, exec (.prefetchDeadline q seg) s = .next t ∧ t.cte.pf = (s.modPf q seg (fun p => { p with late := true })).cte.pf
        ∧ t.bank (bankOf q) = { s.bank (bankOf q) with pfLate := satAdd 16 (s.bank (bankOf q)).pfLate 1 } ∧ only [.regs, .cte] s t)
    ∧ (∀ q : Fin 262144, q.val / 32768 < s.dies → s.dueQueue q = true →
      exec (.dueQueueRead q) s = .next (requestSome s q s.phi.stepCnt s.phi.stepCnt false (s.heldSegs q (fun x => x.st = .written))))
    ∧ (∀ (d : Fin 8) p, d < s.dies → s.cte.pf.find? (fun p => p.st = .waiting && s.server (queueDie p.q) = d.val) = some p → s.pfUsed d + p.chunks ≤ 8 * s.pfSize d → s.glb.mode.departs = true →
      exec (.prefetchAreaWait d) s = .next (issuePf (s.modPf p.q p.seg (fun p => { p with st := .requested })) p))
    ∧ (∀ d : Fin 8, s.glb.mode.departs = false → exec (.prefetchAreaWait d) s = .next s)

/-- A departure: the CTE starts the head of the selected queue on a free port (R84 to R88, R537), unless a word of it is bad (R462) or its edit fails (R251), or the fabric cannot carry it to its port (R478), where it leaves its queue, its place is released and the loss counts, at the queue's server for the last (log 84); the frame leaves the quay as it passes its edit engine (R253) and the port as it completes on the wire (R494). A link report takes effect for the port's banks (R95), and head frames past the age limit are dropped and counted (R97). -/
def Obligations.FramesDepart : Prop :=
  ∀ s : State,
    (∀ (p : Fin 32) q u i rest b, p.val / 4 < s.dies → s.portFree p = true →
        portPick p (if (s.ptx p).backlog = 0 then 0 else 1) (s.bps p) (4 * (s.openBanks p).length + 8) false (settleRound s p) = (some q, u) →
        (u.lq q).items = i :: rest → u.noRoute (u.server (queueDie q)) (p / 4) = false → ¬ (i.staged = false ∧ u.quayBad i.handle 128 i.len = true) → u.runEdit (u.server (queueDie q)) p i.edit (u.itemBytes i) = some b →
      ∃ t w, exec (.departureStart p) s = .next t ∧ w ∈ (t.ptx p).wire ∧ w.q = q ∧ w.item = i ∧ w.bytes = b ∧ w.left = false
        ∧ t.qba = { u.qba with lq := mset {} u.qba.lq q { u.lq q with items := rest, deficit := if rest = [] then 0 else (u.lq q).deficit - i.len } })
    ∧ (∀ (p : Fin 32) q u i rest d, p.val / 4 < s.dies → s.portFree p = true →
        portPick p (if (s.ptx p).backlog = 0 then 0 else 1) (s.bps p) (4 * (s.openBanks p).length + 8) false (settleRound s p) = (some q, u) →
        (u.lq q).items = i :: rest → d = u.server (queueDie q) → ∀ v, v = (requestNext (u.setLq q { u.lq q with items := rest, deficit := if rest = [] then 0 else (u.lq q).deficit - i.len }) q i (s.bps p)).modPtx p
          (fun x => { x with backlog := x.backlog + i.len + u.itemGrow q i + 20 }) →
      (u.noRoute d (p / 4) = true → exec (.departureStart p) s = .next ((releaseItem v q i).bump .PFB_ROUTE_DROP d))
      ∧ (u.noRoute d (p / 4) = false → i.staged = false → u.quayBad i.handle 128 i.len = true → exec (.departureStart p) s = .next ((releaseItem v q i).bump .ICU_FRAME_DROP d))
      ∧ (u.noRoute d (p / 4) = false → ¬ (i.staged = false ∧ u.quayBad i.handle 128 i.len = true) → u.runEdit d p i.edit (u.itemBytes i) = none →
          exec (.departureStart p) s = .next ((releaseItem v q i).bump .RSQ_EDIT_ERR d)))
    ∧ (∀ (p : Fin 32) w, p.val / 4 < s.dies → (s.ptx p).wire.find? (fun w => !w.left) = some w → w.engine.isSome = true →
      ∃ t u, exec (.frameLeaveQuay p) s = .next t ∧ t = assignEngines (releaseItem u w.q w.item)
        ∧ u.lq w.q = { s.lq w.q with
            depFrames := satAdd 32 (s.lq w.q).depFrames 1
            depKb := satAdd 32 (s.lq w.q).depKb (((s.lq w.q).depRem + (macFrame w.bytes).length) / 1024)
            depRem := ((s.lq w.q).depRem + (macFrame w.bytes).length) % 1024 }
        ∧ only [.cte, .qba] s u)
    ∧ (∀ (p : Fin 32) w rest, p.val / 4 < s.dies → s.portOn p = true → (s.ptx p).wire = w :: rest → w.left = true → (s.ptx p).backlog ≤ rest.foldl (fun a x => a + s.wireLen x) 0 + s.bps p →
      ∃ t, exec (.frameTransmitEnd p) s = .next t ∧ t.lineTx = s.lineTx ++ [LineTx.mk p (macFrame w.bytes)] ∧ only [.regs, .cte, .lpx, .lineTx] s t)
    ∧ (∀ (p : Fin 32) e, p.val / 4 < s.dies → s.cte.linkRep.find? (fun e => e.1 == p.val) = some e →
      exec (.linkStateApply p) s = .next (({ s with cte := { s.cte with linkRep := lrem e s.cte.linkRep } } : State).modPtx p (fun x => if e.2 then { x with link := true } else updateRound { x with link := false } [])))
    ∧ (∀ q : Fin 262144, q.val / 32768 < s.dies → s.lqAge q ≠ 0 → s.Inv →
      ∃ t, exec (.ageDrop q) s = .next t
        ∧ (t.lq q).items = (s.lq q).items.dropWhile (fun i => decide (s.lqAge q < s.ageOf i))
        ∧ (t.lq q).ageDrop = satAdd 32 (s.lq q).ageDrop ((s.lq q).items.takeWhile (fun i => decide (s.lqAge q < s.ageOf i))).length
        ∧ only [.regs, .cte, .bpm, .qba, .ssc] s t)

/-! Ports, parse and classification (spec/17, spec/04). -/

/-- A received frame takes the first outcome of R489 that applies, each in its counter: code error, a failed link among them (R496), oversize, runt, FCS; a good frame counts, a control frame and one that met closed ingress end there (R437, R491, R492), and any other takes a buffer of its class and joins its parse queue with the next arrival number (R104, R106, R171), or is lost where the fabric cannot carry it to the die that takes it (R478, R479; log 84). The codewords that came with it count while the lanes hold FEC lock, and a frame whose first bit met a link reported down is discarded uncounted (R493, R539). Of the frames in reception as ingress closes, or as the link is reported, each port takes one by its first bit, the model's reading of what began before (log 75). A write of LPX_PORT_CFG that passes its checks takes effect (R488). -/
def Obligations.PortsReceiveAndConfigure : Prop :=
  ∀ s : State,
    (∀ (p : Fin 32) (f : RxFrame), p.val / 4 < s.dies → s.portOn p = false → exec (.frameReceive p f) s = .next s)
    ∧ (∀ (p : Fin 32) (f : RxFrame) (u : State), p.val / 4 < s.dies → s.portOn p = true → u = (countFec s p f.corrected f.uncorrectable).modLnk p (fun x => { x with turned := false }) →
      (s.Inv → ((s.lnk p).fecLock = true → counts s u .LPX_FEC_CORR (p.val / 4) [p.val % 4] f.corrected ∧ counts s u .LPX_FEC_UNCORR (p.val / 4) [p.val % 4] f.uncorrectable)
        ∧ ((s.lnk p).fecLock = false → u.regs = s.regs) ∧ only [.regs, .lpx] s u)
      ∧ (s.upAtFirst p f = false → exec (.frameReceive p f) s = .next u))
    ∧ (∀ (p : Fin 32) (f : RxFrame) (u : State), p.val / 4 < s.dies → s.portOn p = true → s.upAtFirst p f = true → u = (countFec s p f.corrected f.uncorrectable).modLnk p (fun x => { x with turned := false }) →
      (f.codeErr = true ∨ u.linkGoodNow p = false ∨ (u.lnk p).up = false → exec (.frameReceive p f) s = .next (noteTail (rxError u p .LPX_RX_CODE) p))
      ∧ (f.codeErr = false → u.linkGoodNow p = true → (u.lnk p).up = true →
          (u.rf .LPX_PORT_CFG (p.val / 4) [p.val % 4] 13 0 < f.bytes.length → exec (.frameReceive p f) s = .next (noteTail (rxError u p .LPX_RX_OVERSIZE) p))
          ∧ (f.bytes.length ≤ u.rf .LPX_PORT_CFG (p.val / 4) [p.val % 4] 13 0 →
            (f.bytes.length < 64 → exec (.frameReceive p f) s = .next (noteTail (rxError u p .LPX_RX_RUNT) p))
            ∧ (64 ≤ f.bytes.length → fcsGood f.bytes = false → exec (.frameReceive p f) s = .next (noteTail (rxError u p .LPX_RX_FCS) p))
            ∧ (64 ≤ f.bytes.length → fcsGood f.bytes = true →
              (beNat ((f.bytes.drop 12).take 2) = 0x8808 → exec (.frameReceive p f) s = .next (noteTail ((countRx u p f.bytes.length).bump .LPX_RX_CTRL (p.val / 4) [p.val % 4]) p))
              ∧ (beNat ((f.bytes.drop 12).take 2) ≠ 0x8808 → u.admits p f = false → exec (.frameReceive p f) s = .next (noteTail ((countRx u p f.bytes.length).bump .GLB_CLOSED_DROP 0 [p]) p))
              ∧ (beNat ((f.bytes.drop 12).take 2) ≠ 0x8808 → u.admits p f = true → u.glb.warm = none → ¬ (f.islandFull = true ∧ u.excluded (p.val / 4) = true) → ∀ d region, (noteRx (countRx u p f.bytes.length) (p.val / 4)).ingressOf p f.bytes = (d, region) →
                  (s.noRoute (p.val / 4) d = true → exec (.frameReceive p f) s = .next (noteTail ((noteRx (countRx u p f.bytes.length) (p.val / 4)).bump .PFB_ROUTE_DROP (p.val / 4)) p))
                  ∧ (s.noRoute (p.val / 4) d = false → ∀ c h v, classFor f.bytes.length = some c → allocBuf (nextArrival (noteRx (countRx u p f.bytes.length) (p.val / 4)) d).2 d region c = (some h, v) →
                  ((v.putQuay h 128 f.bytes).twin p = false ∨ (v.putQuay h 128 f.bytes).unmirrored p = true) →
                  exec (.frameReceive p f) s = .next (noteTail (joinParse (v.putQuay h 128 f.bytes) d region
                    { handle := h, len := f.bytes.length, port := p, arr := mget 0 u.prs.arr d, mirror := none }) p)))))))
    ∧ (∀ (d : Fin 8) (l : Fin 4) (w : Word), d < s.dies → s.glb.mode.any = true → (s.heldLanes d l).contains l = false → 64 ≤ fld w 13 0 → fld w 13 0 ≤ 9216 →
        s.laneAllowed d l (fld w 19 16) = true → s.laneClash d l (fld w 19 16) = false →
        (fld w 19 16 = fld (s.reg .LPX_PORT_CFG d [l]) 19 16 ∨ s.glb.mode = .provision) →
      exec (.portConfigWrite d l w) s = .next (wrResult (.ok,
        let t := s.setReg .LPX_PORT_CFG d [l] (packWord [(31, b2n (bit w 31)), (16, fld w 19 16), (0, fld w 13 0)])
        let u := if fld w 19 16 % 4 = 0 then t.setRf .CTE_PORT_STAT d [l] 15 0 0 else t
        if fld w 19 16 ≠ fld (s.reg .LPX_PORT_CFG d [l]) 19 16 ∨ bit w 31 ≠ bit (s.reg .LPX_PORT_CFG d [l]) 31 then restartLink u (d.val * 4 + l) else u)))
    ∧ (∀ (d : Fin 8) (l : Fin 4) (w : Word), d < s.dies → s.glb.mode.any = true →
      ((s.heldLanes d l).contains l = true → exec (.portConfigWrite d l w) s = .next (wrResult (.busy, s)))
      ∧ ((s.heldLanes d l).contains l = false → (fld w 13 0 < 64 ∨ 9216 < fld w 13 0 ∨ s.laneAllowed d l (fld w 19 16) = false ∨ s.laneClash d l (fld w 19 16) = true) →
          exec (.portConfigWrite d l w) s = .next (wrResult (.badaddr, s))))

/-- Link conditions: a condition that comes to hold or fails starts the up hold or the down hold when it decides between them (R495, R496), and the codewords that came with it count (R493, R539; log 75); at the end of a hold the island reports the link up or down (R496, R497), and a port whose link goes down loses the frames that it has started (R96), and none of its banks is served any longer (R72, R98); a port that works and whose conditions do not all hold sends remote fault (R495), and LPX_STATE.LINK names the ports reported up (R499). -/
def Obligations.LinksComeAndGo : Prop :=
  ∀ (s : State) (p : Fin 32), p.val / 4 < s.dies →
    (s.portOn p = true → exec (.linkTrainingDone p) s = .next (holdsAfter (s.modLnk p (fun x => { x with anDone := true })) p))
    ∧ (∀ c : LinkCond, s.portOn p = true → exec (.linkConditionsMet p c) s = .next (holdsAfter ((countFec s p c.corrected c.uncorrectable).modLnk p (setCond c.cond true)) p))
    ∧ (∀ c : LinkCond, s.portEn p = true → exec (.linkFailureDetect p c) s = .next (holdsAfter ((countFec s p c.corrected c.uncorrectable).modLnk p (setCond c.cond false)) p))
    ∧ ((s.lnk p).up = true → (s.lnk p).downHold = true →
        ∃ u, exec (.linkDownReport p) s = .next (assignEngines u) ∧ (u.cte.linkRep = s.cte.linkRep ++ [(p.val, false)])
          ∧ u.cte.port = mmod {} s.cte.port p (fun x => updateRound { x with wire := [], backlog := 0 } []) ∧ only [.regs, .cte, .lpx, .bpm, .qba, .ssc, .gwe] s u)
    ∧ ((s.lnk p).upHold = true → s.linkGoodNow p = true →
        ∃ t, exec (.linkUpReport p) s = .next t ∧ (t.lnk p) = { s.lnk p with up := true, upHold := false, downHold := false, turned := true }
          ∧ t.cte = { s.cte with linkRep := s.cte.linkRep ++ [(p.val, true)] } ∧ only [.regs, .cte, .lpx, .gwe] s t)
    ∧ (s.sendsRemoteFault p = true ↔ s.portOn p = true ∧ s.linkGoodNow p = false)
    ∧ (fld (s.view .LPX_STATE (p.val / 4) []) (p.val % 4) (p.val % 4) = 1 ↔ (s.lnk p).up = true)

/-- Parsing: an idle engine takes the oldest frame of its region's queue, else of the other's, and holds its parse vector (R105, R107, R113); at the end of the parse the vector stands in the buffer header and the engine is free (R113). -/
def Obligations.EnginesParse : Prop :=
  ∀ s : State,
    (∀ (d : Fin 8) (e : Fin 16) r f, d < s.dies → mfind s.prs.eng (d.val * 16 + e) = none → s.unitDown d unitPrs = false → s.takeParse d (e.val / 8) = some (r, f) →
        s.quayBad f.handle 128 (min 256 f.len) = false →
      ∃ t, exec (.parseFrame d e) s = .next t ∧ only [.regs, .prs] s t
        ∧ t.prs = { s.prs with
            queue := mmod [] s.prs.queue (d.val * 2 + r) (fun l => l.drop 1)
            eng := minsert (d.val * 16 + e) { frame := f, vec := vectorOf (s.parse d f.port (s.quayBytes f.handle 128 f.len)).lastw f.port f.len (s.parse d f.port (s.quayBytes f.handle 128 f.len)), cross := decide (r ≠ e.val / 8), turn := s.nextTurn d } s.prs.eng })
    ∧ (∀ (d : Fin 8) (e : Fin 16) x, d < s.dies → mfind s.prs.eng (d.val * 16 + e) = some x → s.unitDown d unitPrs = false → s.unitDown d unitCls = false →
      ∃ t, exec (.parseEnd d e) s = .next t ∧ t.prs = { s.prs with eng := mremove (d.val * 16 + e) s.prs.eng } ∧ t.bpm = (s.putQuay x.frame.handle 0 x.vec).bpm
        ∧ only [.regs, .prs, .cls, .fwt, .bpm, .ssc, .free] s t)

/-- Fragments: a pending entry's held frames take the default action after FRAG_HOLD ticks (R125), a recorded entry is freed after FRAG_LIFE ticks without a hit (R126). A flow context whose read is served enters the flow cache and lets the frames that wait for it proceed (R144). -/
def Obligations.FragmentsAndContextsExpire : Prop :=
  ∀ (s : State) (d : Fin 8), d < s.dies →
    (∀ (i : Fin 4096) x, mfind s.cls.frag (d.val * 4096 + i) = some x → x.dec = none → x.tick + s.fragHold d ≤ s.ticksOn d →
      exec (.fragHoldExpiry d i) s = .next (x.held.foldl (fun t h => joinDefault (t.bump .CLS_FRAG_EXPIRED d) d h.1 h.2) (s.dropFrag d i)))
    ∧ (∀ (i : Fin 4096) x, mfind s.cls.frag (d.val * 4096 + i) = some x → x.dec.isSome = true → x.tick + max 1 (s.rf .CLS_FRAG_CFG d [] 31 16) ≤ s.ticksOn d →
      exec (.fragLifeExpiry d i) s = .next (s.dropFrag d i))
    ∧ (∀ c : Fin 65536, (d.val, c.val) ∈ s.fwt.fetch → s.ssc.req.any (fun r => decide (r.what = .ctx d.val c.val) && !r.write) = false →
      exec (.flowContextFetch d c) s = .next (cacheIn (({ s with fwt := { s.fwt with fetch := lrem (d.val, c.val) s.fwt.fetch } } : State).setClsWait d
        ((s.clsWait d).map (fun x => if (x.fetching && decide (x.dec.flow = c.val)) = true then { x with fetching := false } else x))) d c))

/-- Sequence numbers: the first frame of the die that may take its number takes its flow's next one (R106, R128) and, for a rule with KIND THREAD, leaves a PENDING entry and a ticket at the tail of its ready list (R120, R131, R234); the same for a frame whose ticket waited for an entry (R129). -/
def Obligations.FramesTakeSequenceNumbers : Prop :=
  ∀ (s : State) (d : Fin 8) (c : CFrame) (k : Nat), d < s.dies → s.unitDown d unitFwt = false → s.nextFrame d = some c → s.robFree d = some k →
    (exec (.sequenceAssign d) s = .next (giveNumber s d c k))
    ∧ (c.robWait = true → exec (.robEntryWait d) s = .next (giveNumber s d c k))
    ∧ (giveNumber s d c k).fwt.ctx = mmod {} s.fwt.ctx (ctxKey d c.dec.flow) (fun y => { y with nextSeq := (y.nextSeq + 1) % 2 ^ 32 })
    ∧ (c.dec.kind = 4 → only [.regs, .cls, .fwt, .ssc, .rsq, .tdx] s (giveNumber s d c k)
        ∧ (∃ r, (giveNumber s d c k).rob d k = some r ∧ r.st = .pending ∧ r.seq = (s.ctx d c.dec.flow).nextSeq ∧ r.flow = flowId d c.dec.flow ∧ r.frame = c.frame)
        ∧ ∃ t, (giveNumber s d c k).readyList d c.dec.ready = s.readyList d c.dec.ready ++ [t] ∧ t.ticket = some k ∧ t.entry = c.dec.entry
            ∧ t.args = ticketWords d c (s.ctx d c.dec.flow).nextSeq k)

/-! Forwarding tables (spec/05). -/

/-- The learn engine takes the request at the head of its queue: an insert fills its reserved slot (R148), a move within the limit changes port and data (R150), a notice for an address without entry makes one (R153), with ACT set as in an entry that an insert fills (the model's reading, log 39); a notice that arrives joins the queue (R153). The slot in which a key is found is log 83's. -/
def Obligations.LearnEngineApplies : Prop :=
  ∀ (s : State) (d : Fin 8), d < s.dies → s.unitDown d unitFwt = false →
    (∀ slot dom mac p rest e, s.learnQ d = .insert slot dom mac p :: rest → s.l2At d slot = some e → e.pend = true → e.keyIs dom.toNat mac.toNat = true →
      ∃ t, exec (.learnApply d) s = .next t ∧ t.l2At d slot = some { word := l2Make dom.toNat mac.toNat p.toNat (s.ldata p.toNat) false true false false, winTick := 0, pinTick := 0 }
        ∧ t.fwt.learnq = mset [] s.fwt.learnq d rest ∧ only [.regs, .fwt] s t)
    ∧ (∀ dom mac p rest slot e n, s.learnQ d = .move dom mac p :: rest → s.l2Match d dom.toNat mac.toNat = some (slot, e) → e.pend = false → e.isStatic = false → e.pinned = false →
        n = (if e.moves = 0 ∨ s.rf .FWT_MOVE d [] 23 0 ≤ s.ticksOn d - e.winTick then 0 else e.moves) → (s.moveLimit d = 0 ∨ n ≠ s.moveLimit d) →
      ∃ t, exec (.moveApply d) s = .next t
        ∧ t.l2At d slot = some { e with
            word := setM (setM (setM (setM (setM e.word 121 117 p.toNat) 47 24 (s.ldata p.toNat)) 116 112 (min 31 (n + 1))) 124 124 1) 123 123 0
            winTick := if e.moves = 0 ∨ s.rf .FWT_MOVE d [] 23 0 ≤ s.ticksOn d - e.winTick then s.ticksOn d else e.winTick }
        ∧ t.fwt.learnq = mset [] s.fwt.learnq d rest ∧ only [.regs, .fwt] s t)
    ∧ (∀ n rest slot, s.learnQ d = .notice n :: rest → s.l2Match d n.domain.toNat n.mac.toNat = none → s.l2Place d n.domain.toNat n.mac.toNat = some slot →
      ∃ t, exec (.learnNoticeApply d) s = .next t
        ∧ t.l2At d slot = some { word := l2Make n.domain.toNat n.mac.toNat n.port.toNat n.data.toNat false true true false, winTick := 0, pinTick := 0 }
        ∧ t.fwt.learnq = mset [] s.fwt.learnq d rest ∧ only [.regs, .fwt] s t)
    ∧ (∀ n, (d.val, n) ∈ s.fwt.flight → (s.learnQ d).length < 1024 →
      exec (.learnNotice d n) s = .next { s with fwt := { s.fwt with flight := lrem (d.val, n) s.fwt.flight, learnq := mset [] s.fwt.learnq d (s.learnQ d ++ [.notice n]) } })

/-- A visit of the ager leaves a static entry, clears ACT of a used one, which it does not visit again in the period, and removes an unused one (R154); an entry that a lookup hits in the same cycle lives with ACT set (R166); a pin ends after PIN_TICKS (R150); a new hash seed removes every learned entry, in PROVISION only (R6, R167). -/
def Obligations.TablesAge : Prop :=
  ∀ (s : State) (d : Fin 8), d < s.dies →
    (∀ i e, s.visitDue d .l2 i = true → s.l2At d i = some e → e.pend = false →
      (e.isStatic = true → ∀ hit, exec (.agerVisit d .l2 ⟨i, hit⟩) s = .next s)
      ∧ (e.isStatic = false → ∀ hit, e.act = true ∨ hit = true →
          ∃ t, exec (.agerVisit d .l2 ⟨i, hit⟩) s = .next t ∧ t.l2At d i = some { e with word := setM e.word 124 124 (b2n hit) } ∧ t.visitDue d .l2 i = false ∧ only [.fwt] s t)
      ∧ (e.isStatic = false → e.act = false → ∃ t, exec (.agerVisit d .l2 ⟨i, false⟩) s = .next t ∧ t.fwt.l2 = mremove (l2Key d i) s.fwt.l2 ∧ only [.regs, .fwt, .icu] s t))
    ∧ (∀ i e, s.visitDue d .flow i = true → s.flowAt d i = some e →
      (e.isStatic = true → ∀ hit, exec (.agerVisit d .flow ⟨i, hit⟩) s = .next s)
      ∧ (e.isStatic = false → ∀ hit, e.act = true ∨ hit = true →
          ∃ t, exec (.agerVisit d .flow ⟨i, hit⟩) s = .next t ∧ t.flowAt d i = some { e with act := hit } ∧ t.visitDue d .flow i = false ∧ only [.fwt] s t)
      ∧ (e.isStatic = false → e.act = false → ∃ t, exec (.agerVisit d .flow ⟨i, false⟩) s = .next t ∧ t.fwt.flow = mremove (flowKey d i) s.fwt.flow ∧ only [.regs, .fwt, .icu] s t))
    ∧ (∀ (i : Fin 32768) e, s.l2At d i = some e → e.pinned = true → e.pinTick + (s.reg .FWT_PIN d []).toNat ≤ s.ticksOn d →
      exec (.pinRelease d i) s = .next (bumpFwt (s.setL2 d i { e with word := setM (setM e.word 125 125 0) 116 112 0 }) d))
    ∧ (∀ w, s.glb.mode.any = true → s.excluded d = false →
      (w = s.reg .FWT_HASH_SEED d [] → exec (.hashSeedWrite d w) s = .next (wrResult (.ok, s)))
      ∧ (w ≠ s.reg .FWT_HASH_SEED d [] → s.glb.mode = .provision → exec (.hashSeedWrite d w) s = .next (wrResult (.ok, dropLearned (s.setReg .FWT_HASH_SEED d [] w) d)))
      ∧ (w ≠ s.reg .FWT_HASH_SEED d [] → s.glb.mode ≠ .provision → exec (.hashSeedWrite d w) s = .next (wrResult (.mode, s))))

/-- TBL with valid arguments: SEARCH and NEXT return the entry of one die and change nothing, SEARCH one that takes part in matching (R463, R464; the model's reading, log 52); INSERT writes every live die, or none where one lacks room; DELETE removes the key's entry on the die named or, with 0xFF, on every live die, and an LPM DELETE takes 0xFF alone; FLUSH_PORT removes the learned L2 entries of a port (R162, R163, R392). An LPM INSERT or DELETE that would write a stuck entry is denied (R463; the model's reading, log 52). An LPM insert that a reset interrupts is not completed and gets no answer (R160), and changes only dies that it has reached (the model's choice, log 73). -/
def Obligations.TableCommandsAnswer : Prop :=
  ∀ (s : State) (a : TblArgs), s.glb.mode.any = true → 1 ≤ a.table → a.table ≤ 3 →
    (a.flags = 0 → a.body.length = bodyLen a.table → badProfile a.table a.body = false → a.die ∈ s.liveDies → genOk a.expGen.toNat (s.gen .FWT_STATE a.die) = true →
      (∀ i e, s.tblSeen a.die a.table a.body = some (i, e) → s.tblServes a.die a.table i = true ∧ exec (.tblSearch a) s = .next (s.answered 0x30 .ok (tblResult (s.gen .FWT_STATE a.die) 1 0 i e)))
      ∧ (s.tblSeen a.die a.table a.body = none → exec (.tblSearch a) s = .next (s.answered 0x30 .ok (tblResult (s.gen .FWT_STATE a.die) 0 0 0 [])))
      ∧ (∀ i e, a.table ≠ 3 → a.die ≠ 0xFF → s.tblFind a.die a.table a.body = some (i, e) →
          exec (.tblDelete a) s = .next ((tblRemove s a.table a.die i).answered 0x30 .ok (tblResult (s.gen .FWT_STATE a.die) 0 (maskOf [a.die]) 0 []))))
    ∧ (a.flags = 0 → a.body.length = 4 → a.die ∈ s.liveDies → genOk a.expGen.toNat (s.gen .FWT_STATE a.die) = true → ∀ i e,
        (s.tblList a.die a.table).find? (fun x => decide ((if beNat a.body = 0xFFFFFFFF then 0 else beNat a.body + 1) ≤ x.1)) = some (i, e) →
        exec (.tblNext a) s = .next (s.answered 0x30 .ok (tblResult (s.gen .FWT_STATE a.die) 1 0 i e)))
    ∧ (a.flags = 0 → a.body.length = bodyLen a.table → a.table = 3 → a.die ≠ 0xFF → exec (.tblDelete a) s = .next (s.answered 0x30 .badaddr []))
    ∧ (a.die = 0xFF → a.expGen = 0xFFFF → a.flags = 0 → a.body.length = bodyLen a.table → badProfile a.table a.body = false →
      ((a.table = 3 → ∀ d ∈ s.liveDies, ∀ i e, s.tblFind d 3 a.body = some (i, e) → s.lpmStuck d i = false) →
        mrise 0 s.fwt.l2 = true → mrise 0 s.fwt.flow = true → mrise 0 s.fwt.lpm = true →
        ∃ t, exec (.tblDelete a) s = .next (t.answered 0x30 .ok (tblResult 0xFFFF 0 (maskOf (s.liveDies.filter (fun d => (s.tblFind d a.table a.body).isSome))) 0 []))
          ∧ only [.regs, .fwt, .ssc, .icu] s t
          ∧ ∀ d ∈ s.liveDies, (s.tblFind d a.table a.body = none → t.tblList d a.table = s.tblList d a.table)
            ∧ ∀ i e, s.tblFind d a.table a.body = some (i, e) → t.tblList d a.table = (s.tblList d a.table).filter (fun x => decide (x.1 ≠ i)))
      ∧ (a.table = 3 → (∃ d ∈ s.liveDies, ∃ i e, s.tblFind d 3 a.body = some (i, e) ∧ s.lpmStuck d i = true) → exec (.tblDelete a) s = .next (s.answered 0x30 .denied [])))
    ∧ (a.die = 0xFF → a.expGen = 0xFFFF →
      (a.flags = 0 → a.body.length = bodyLen a.table → s.badInsert a.table a.body = false →
        ((∀ d ∈ s.liveDies, (tblWrite s a.table d a.body).isSome = true) → a.table = 3 → (∃ d ∈ s.liveDies, ∃ i ∈ s.lpmPlaces d a.body, s.lpmStuck d i = true) →
          exec (.tblInsert a) s = .next (s.answered 0x30 .denied []))
        ∧ ((∀ d ∈ s.liveDies, (tblWrite s a.table d a.body).isSome = true) → (a.table = 3 → ∀ d ∈ s.liveDies, ∀ i ∈ s.lpmPlaces d a.body, s.lpmStuck d i = false) →
          ((a.cut = [] ∨ a.table ≠ 3) → exec (.tblInsert a) s = .next ((overDies (fun d t => (tblWrite t a.table d a.body).getD t) s.liveDies s).answered 0x30 .ok (tblResult 0xFFFF 0 0 0 [])))
          ∧ (a.cut ≠ [] → a.table = 3 → ∃ t, exec (.tblInsert a) s = .next t ∧ t.gwe.results = [] ∧ (∀ d, d ∉ a.cut.map (·.1.val) → t.lpmList d = s.lpmList d) ∧ only [.regs, .fwt, .gwe] s t))
        ∧ ((∃ d ∈ s.liveDies, (tblWrite s a.table d a.body).isSome = false) →
          ∃ m, exec (.tblInsert a) s = .next (s.answered 0x30 .noroom (tblResult 0xFFFF 0 m 0 []))))
      ∧ (a.table = 1 → a.flags ≤ 1 → a.body.length = 4 →
          ∃ t, exec (.tblFlushPort a) s = .next t ∧ only [.fwt, .gwe] s t
            ∧ t.fwt = { s.fwt with l2 := s.fwt.l2.filter (fun x => !(decide (x.1 / 32768 ∈ s.liveDies)
                && flushHit (bitsOf (beNat a.body) 28 24) (if a.flags = 1 then some (bitsOf (beNat a.body) 11 0) else none) x.2)) }))

/-! Buffers and admission (spec/06). -/

/-- Pools: in PROVISION a base is held until its count is written, and the count commits a placement that passes R169 and leaves every buffer of the pool free, or answers GW_BADADDR with the state, the held base in it, as it was (the model's reading, log 34); in another claimed mode a write that would change the placement answers GW_MODE (R6, R169). A rebuild makes the free list anew from the bitmap and takes the pool off quarantine (R176). A free by the host takes effect or answers GW_BADADDR or GW_DENIED with nothing changed (R183). -/
def Obligations.PoolsArePlacedAndFreed : Prop :=
  ∀ (s : State) (d : Fin 8), d < s.dies →
    (∀ (i : Fin 8) w, s.glb.mode = .provision → s.excluded d = false →
      exec (.poolBaseWrite d i w) s = .next (wrResult (.ok, { s with bpm := { s.bpm with baseHeld := minsert (d.val * 8 + i) (fld w 17 0) s.bpm.baseHeld } })))
    ∧ (∀ (i : Fin 8) w base, s.Inv → s.glb.mode = .provision → s.excluded d = false → base = (mfind s.bpm.baseHeld (d.val * 8 + i)).getD (s.rf .BPM_POOL_BASE d [i] 17 0) →
      (s.placeGood d i (base * 128) (fld w 15 0) = true →
        ∃ t, exec (.poolCountCommit d i w) s = .next t ∧ t.gwe.results = [{ opcode := 0x11, tag := 0, status := .ok, data := [] }] ∧ only [.regs, .bpm, .gwe] s t
          ∧ t.poolCount d i = fld w 15 0 ∧ t.poolBase d i = base % 2 ^ 18 * 128 ∧ t.quarantined d i = false
          ∧ ∀ h, hDie h = d.val → t.poolOf h = some i.val → t.allocated h = false)
      ∧ (s.placeGood d i (base * 128) (fld w 15 0) = false → exec (.poolCountCommit d i w) s = .next (wrResult (.badaddr, s))))
    ∧ (∀ (i : Fin 8) w, s.glb.mode.any = true → s.glb.mode ≠ .provision → s.excluded d = false →
      (fld w 17 0 ≠ s.rf .BPM_POOL_BASE d [i] 17 0 → exec (.poolBaseWrite d i w) s = .next (wrResult (.mode, s)))
      ∧ (fld w 15 0 ≠ s.poolCount d i → exec (.poolCountCommit d i w) s = .next (wrResult (.mode, s))))
    ∧ (∀ i : Fin 8, s.quarantined d i = true →
      ∃ t, exec (.poolRebuildDone d i) s = .next t
        ∧ t.bpm = { (threadList s d i (s.clearBuffers d i)).bpm with quar := lrem (d.val * 8 + i) (threadList s d i (s.clearBuffers d i)).bpm.quar } ∧ only [.regs, .bpm, .gwe] s t)
    ∧ (∀ w h r t, s.glb.mode.any = true → s.excluded d = false → h = fld w 7 0 * 2 ^ 32 + (s.reg .BPM_HOST_FREE_LO d []).toNat → bfree s d h hostCloser = (r, t) →
      (r = .done → exec (.hostFree d w) s = .next (wrResult (.ok, t)))
      ∧ (r = .bad ∨ r = .double → exec (.hostFree d w) s = .next (wrResult (.badaddr, s)))
      ∧ (r = .notCloser ∨ r = .early → exec (.hostFree d w) s = .next (wrResult (.denied, s))))

/-- An allocation takes the head of its pool's free list, whose link becomes the new head; a free pushes the buffer back in front of the old head; a pool that is empty, quarantined or not placed gives none and counts it, and one whose head or link is bad is quarantined (R170 to R175). -/
def Obligations.FreeListsAreStacks : Prop :=
  ∀ (s : State) (d r c : Nat),
    (∀ h, (allocBuf s d r c).1 = some h → h = s.poolHead d (r * 4 + c) ∧ s.allocated h = false ∧ (allocBuf s d r c).2.allocated h = true
        ∧ (allocBuf s d r c).2.bpm.head = mset 0 s.bpm.head (d * 8 + (r * 4 + c)) (bitsOf (s.link h) 39 0)
        ∧ (allocBuf s d r c).2.bpm.quay = s.bpm.quay ∧ only [.bpm] s (allocBuf s d r c).2)
    ∧ (s.quarantined d (r * 4 + c) = true ∨ s.poolCount d (r * 4 + c) = 0 ∨ s.poolHead d (r * 4 + c) = 0 →
        (allocBuf s d r c).1 = none ∧ only [.regs] s (allocBuf s d r c).2
        ∧ (s.Inv → c < 4 → ((allocBuf s d r c).2.reg .BPM_ALLOC_FAIL d [c]).toNat = min (2 ^ 32 - 1) ((s.reg .BPM_ALLOC_FAIL d [c]).toNat + 1)))
    ∧ (s.quarantined d (r * 4 + c) = false → s.poolCount d (r * 4 + c) ≠ 0 → s.poolHead d (r * 4 + c) ≠ 0 →
        (s.allocated (s.poolHead d (r * 4 + c)) = true ∨ s.linkGood d (r * 4 + c) (bitsOf (s.link (s.poolHead d (r * 4 + c))) 39 0) = false) →
        (allocBuf s d r c).1 = none ∧ (allocBuf s d r c).2.quarantined d (r * 4 + c) = true ∧ only [.regs, .bpm, .gwe] s (allocBuf s d r c).2)
    ∧ (∀ h i, s.poolOf h = some i → s.quarantined (hDie h) i = false → h ≠ 0 → (freeBuf s h).poolHead (hDie h) i = h ∧ only [.bpm] s (freeBuf s h)
        ∧ (s.Inv → s.poolHead (hDie h) i < 2 ^ 64 → (freeBuf s h).link h = s.poolHead (hDie h) i))

/-- Admission by the first row of R186 that holds: a frame under its queue's threshold stays in the quay at the tail of its landing queue; another is staged, or dropped and counted where the staging store refuses it (R18, R185 to R189), or where its words are bad (R462). For a port with TWIN a frame that stays keeps its mirror or gets one, unless the port runs unmirrored, which counts; without a buffer for it the frame is staged by row 2 (R191 to R193); a staged frame's mirror is freed (R192). A handoff's frame stays in a buffer of the owning die with a copy of its bytes, mirrored the same way, or is staged from the ingress buffer, and its handoff is copied, or is dropped and over where the fabric cannot carry it (R15, R16, R245, R478). A queue past its dwell limit offers its oldest such frame, which stays where it is refused (R188). -/
def Obligations.FramesAreAdmitted : Prop :=
  ∀ s : State,
    (∀ (d : Fin 8) pick a v, d < s.dies → s.qba.admitQ.find? (fun a => a.die == d.val) = some a → v = ({ s with qba := { s.qba with admitQ := lrem a s.qba.admitQ } } : State) →
      (a.hand = none → (a.force = true ∨ s.underThreshold a.die a.q (classSize (hClass a.handle)) = false) →
        (s.quayBad a.handle 0 (128 + a.len) = true → exec (.admitFrame d pick) s = .next ((freeMirror (releaseCopy v a) a.mirror).bump .ICU_FRAME_DROP a.die))
        ∧ (s.quayBad a.handle 0 (128 + a.len) = false →
          (∀ j o u, packFrame v a.die a.q a.len a.edit a.flow s.age32 pick (s.quayBytes a.handle 128 a.len) = (some (j, o), u) →
            exec (.admitFrame d pick) s = .next (((enqueue (freeMirror (releaseCopy u a) a.mirror) a.q (stagedItem s a j o)).modLq a.q (fun l => { l with qStaged := satAdd 32 l.qStaged 1 })).bump .QBA_STAGED a.die))
          ∧ (∀ u, packFrame v a.die a.q a.len a.edit a.flow s.age32 pick (s.quayBytes a.handle 128 a.len) = (none, u) →
            exec (.admitFrame d pick) s = .next (((freeMirror (releaseCopy u a) a.mirror).modLq a.q (fun l => { l with admitDrop := satAdd 32 l.admitDrop 1 })).bump .QBA_STAGE_REFUSED a.die))))
      ∧ (a.hand = none → a.force = false → s.underThreshold a.die a.q (classSize (hClass a.handle)) = true → ∀ p, p = s.bankPort (bankOf a.q) →
        (s.twin p = false → exec (.admitFrame d pick) s = .next ((enqueue (freeMirror v a.mirror) a.q (quayItem s a a.handle none)).bump .QBA_KEPT a.die))
        ∧ (s.twin p = true → s.unmirrored p = true →
            exec (.admitFrame d pick) s = .next ((enqueue ((freeMirror v a.mirror).bump .QBA_UNMIRRORED a.die) a.q (quayItem s a a.handle none)).bump .QBA_KEPT a.die))
        ∧ (s.twin p = true → s.unmirrored p = false →
          (∀ m, a.mirror = some m → s.excluded (hDie m) = false → exec (.admitFrame d pick) s = .next ((enqueue v a.q (quayItem s a a.handle (some m))).bump .QBA_KEPT a.die))
          ∧ ((∀ m, a.mirror = some m → s.excluded (hDie m) = true) →
            (∀ m u, makeMirror v a.handle = (some m, u) → exec (.admitFrame d pick) s = .next ((enqueue u a.q (quayItem s a a.handle (some m))).bump .QBA_KEPT a.die))
            ∧ (∀ u, makeMirror v a.handle = (none, u) → exec (.admitFrame d pick) s = .next (admitStaged (u.bump .QBA_TWIN_FAIL (p / 4) [p % 4]) a pick)))))
      ∧ (∀ id, a.hand = some id →
        (∀ h, s.cutOff a = some h →
          (h.flood = false → exec (.admitFrame d pick) s = .next ((settleSource { v with rsq := { s.rsq with hand := lrem h s.rsq.hand } } h.handle h.mirror).bump .PFB_ROUTE_DROP h.src))
          ∧ (h.flood = true → exec (.admitFrame d pick) s = .next (v.bump .PFB_ROUTE_DROP h.src)))
        ∧ (s.cutOff a = none → s.quayBad a.handle 0 (128 + a.len) = false →
          (a.force = false → s.underThreshold a.die a.q (classSize (hClass a.handle)) = true → s.twin (s.bankPort (bankOf a.q)) = false →
            ∀ h u, allocBuf v a.die (portRegion (s.bankPort (bankOf a.q))) (hClass a.handle) = (some h, u) →
              exec (.admitFrame d pick) s = .next (markCopied ((enqueue (freeMirror (u.putQuay h 0 (u.quayBytes a.handle 0 (128 + a.len))) a.mirror) a.q (quayItem s a h none)).bump .QBA_KEPT a.die) (some id)))
          ∧ (a.force = false → s.underThreshold a.die a.q (classSize (hClass a.handle)) = true → ∀ h u m w, allocBuf v a.die (portRegion (s.bankPort (bankOf a.q))) (hClass a.handle) = (some h, u) →
            (landMirror (u.putQuay h 0 (u.quayBytes a.handle 0 (128 + a.len))) a h = (true, m, w) → exec (.admitFrame d pick) s = .next (markCopied ((enqueue w a.q (quayItem s a h m)).bump .QBA_KEPT a.die) (some id)))
            ∧ (landMirror (u.putQuay h 0 (u.quayBytes a.handle 0 (128 + a.len))) a h = (false, m, w) → exec (.admitFrame d pick) s = .next (markCopied (admitStaged w { a with handle := h, hand := none } pick) (some id))))
          ∧ (a.force = false → s.underThreshold a.die a.q (classSize (hClass a.handle)) = true →
            ∀ u, allocBuf v a.die (portRegion (s.bankPort (bankOf a.q))) (hClass a.handle) = (none, u) → exec (.admitFrame d pick) s = .next (markCopied (admitStaged u a pick) (some id)))
          ∧ ((a.force = true ∨ s.underThreshold a.die a.q (classSize (hClass a.handle)) = false) → exec (.admitFrame d pick) s = .next (markCopied (admitStaged v a pick) (some id))))
        ∧ (s.cutOff a = none → s.quayBad a.handle 0 (128 + a.len) = true → exec (.admitFrame d pick) s = .next (markCopied ((freeMirror v a.mirror).bump .ICU_FRAME_DROP a.die) (some id)))))
    ∧ (∀ (u : State) id h, u.rsq.hand.find? (fun h => h.id = id) = some h → h.src ≠ h.dst → { h with copied := true } ∈ (markCopied u (some id)).rsq.hand)
    ∧ (∀ (q : Fin 262144) pick i d, q.val / 32768 < s.dies → s.lqDwell q ≠ 0 → s.queueOpen q = false → s.dwellCandidate q = some i → s.quayBad i.handle 128 i.len = false → d = s.server (queueDie q) →
      (∀ j o u, packFrame s d q i.len i.edit i.flow i.eage pick (s.quayBytes i.handle 128 i.len) = (some (j, o), u) → i.flood = false →
        exec (.dwellStage q pick) s = .next (((freeBuf (u.modLq q (fun l => { l with items := l.items.map (fun x => if x = i then { i with staged := true, handle := 0, seg := j, off := o, flood := false } else x) })) i.handle).modLq q
          (fun l => { l with qDwell := satAdd 32 l.qDwell 1 })).bump .QBA_DWELL_STAGED d))
      ∧ (∀ u, packFrame s d q i.len i.edit i.flow i.eage pick (s.quayBytes i.handle 128 i.len) = (none, u) →
        exec (.dwellStage q pick) s = .next ((u.modLq q (fun l => { l with items := l.items.map (fun x => if x = i then { i with offer := s.ticksOn d + 1 } else x) })).bump .QBA_DWELL_REFUSED d)))

/-- A write of QBA_QSEL latches the queue's five values, of its segments those charged to it (R189); a read of QBA_QDATA returns the latched value and takes it off its counter for words 2 to 4 (R196). -/
def Obligations.QueueValuesAreLatched : Prop :=
  ∀ (s : State) (d : Fin 8), s.Inv → d < s.dies → s.glb.mode.any = true → s.excluded d = false →
    (∀ w, ∃ t, exec (.qbaQselWrite d w) s = .next t ∧ only [.regs, .gwe] s t
        ∧ ∀ i : Fin 5, t.reg .QBA_QDATA d [i] = BitVec.ofNat 32 ([(s.lq (d.val * 32768 + fld w 14 0)).occ, s.charged (d.val * 32768 + fld w 14 0) (s.lq (d.val * 32768 + fld w 14 0)).opened,
            (s.lq (d.val * 32768 + fld w 14 0)).admitDrop, (s.lq (d.val * 32768 + fld w 14 0)).qStaged, (s.lq (d.val * 32768 + fld w 14 0)).qDwell].getD i 0))
    ∧ (∀ i : Fin 5, ∃ t, exec (.qbaQdataRead d i) s = .next t ∧ t.gwe.results = [{ opcode := 0x10, tag := 0, status := .ok, data := beBytes 4 (s.reg .QBA_QDATA d [i]).toNat }]
        ∧ only [.regs, .qba, .gwe] s t ∧ (i.val < 2 → t.qba = s.qba ∧ t.regs = s.regs)
        ∧ (i.val = 2 → (t.lq (d.val * 32768 + s.rf .QBA_QSEL d [] 14 0)).admitDrop = (s.lq (d.val * 32768 + s.rf .QBA_QSEL d [] 14 0)).admitDrop - (s.reg .QBA_QDATA d [i]).toNat)
        ∧ (i.val = 3 → (t.lq (d.val * 32768 + s.rf .QBA_QSEL d [] 14 0)).qStaged = (s.lq (d.val * 32768 + s.rf .QBA_QSEL d [] 14 0)).qStaged - (s.reg .QBA_QDATA d [i]).toNat)
        ∧ (i.val = 4 → (t.lq (d.val * 32768 + s.rf .QBA_QSEL d [] 14 0)).qDwell = (s.lq (d.val * 32768 + s.rf .QBA_QSEL d [] 14 0)).qDwell - (s.reg .QBA_QDATA d [i]).toNat)
        ∧ (2 ≤ i.val → t.reg .QBA_QDATA d [i] = 0))

/-! The staging store and its stacks (spec/07). -/

/-- Open segments close: after SEG_FLUSH ticks (R207) a segment's last chunk, its parity chunk and both copies of its record are written, each at a stack that is in the package, and its slot is free (R202, R206); once every write is acknowledged its frames are staged, with the mirrors of their admission freed in their pools, and a segment without frames is freed (R192, R206, R208). -/
def Obligations.SegmentsCloseAndAreWritten : Prop :=
  ∀ (s : State) (j : Nat) (x : Seg), s.Inv → s.seg j = some x →
    (x.st = .opened → s.rf .SSC_SEG_FLUSH x.owner [] 23 0 ≠ 0 → 0 < x.frames → x.firstTick + s.rf .SSC_SEG_FLUSH x.owner [] 23 0 ≤ s.ticksOn x.owner →
      ∃ t, exec (.segFlushExpiry j) s = .next t ∧ t.seg j = some { x with st := .closing } ∧ t.ssc.slots = s.ssc.slots.filter (fun e => e.2 ≠ j)
        ∧ t.lq x.q = { s.lq x.q with opened := if (s.lq x.q).opened = some j then none else (s.lq x.q).opened } ∧ only [.regs, .qba, .ssc] s t
        ∧ (∀ e w, (x.fill % 8192 ≠ 0 ∧ e = chunkDie x.smask j (x.fill / 8192) ∧ w = .chunk j e) ∨ (parityDie x.smask j = some e ∧ w = .chunk j e)
              ∨ ((e = s.homeDie j ∨ e = partner (s.homeDie j)) ∧ w = .record j) →
            nbit s.ssc.lost e = false → ∃ r ∈ t.ssc.req, r.die = e ∧ r.what = w ∧ r.write = true ∧ r.port = 1)
        ∧ mfind t.ssc.recs (recKey (s.homeDie j) j) = some (t.recordBytes j) ∧ mfind t.ssc.recs (recKey (partner (s.homeDie j)) j) = some (t.recordBytes j))
    ∧ (x.st = .closing → s.writesDone j = true →
      ∃ t, exec (.segmentWritten j) s = .next t ∧ only [.regs, .cte, .bpm, .qba, .ssc] s t ∧ (∀ i ∈ (t.lq x.q).items, i.staged = true → i.seg = j → i.mirror = none)
        ∧ t.bpm = (((s.lq x.q).items.filter (fun i => i.staged && decide (i.seg = j) && i.mirror.isSome)).foldl (fun u i => freeMirror u i.mirror) s).bpm
        ∧ (mrise 0 s.bpm.alloc = true → ∀ i ∈ (s.lq x.q).items, i.staged = true → i.seg = j → ∀ m, i.mirror = some m → (s.poolOf m).isSome = true → t.allocated m = false)
        ∧ (x.left ≠ 0 → t.ssc = { s.ssc with seg := minsert j { x with st := .written } s.ssc.seg })
        ∧ (x.left = 0 → t.ssc.seg = mremove j (minsert j { x with st := .written } s.ssc.seg) ∧ j ∉ (t.lq x.q).segs ∧ (∀ p ∈ t.cte.pf, p.seg ≠ j) ∧ ∀ e ∈ t.ssc.slots, e.2 ≠ j))

/-- A pseudo-channel serves a request than which none that waits there unhindered is more urgent (R212, R214); its row stays open unless the idle timer is 0 (R213), and a read has the outcome of its check code (R221). A request past its target counts once (R211); an idle row closes (R213); a due refresh is postponed under a P0 request while the credit is below eight, forced at eight, and otherwise issued (R215, R216); a stack reports its temperature (R215). -/
def Obligations.StacksServeRequests : Prop :=
  ∀ (s : State) (d : Fin 8), d < s.dies →
    (∀ (pc : Fin 32) now r v, countRaw (s.at_ now) d pc = v → v.nextReq d pc = some r →
      (∀ bad, r.write = true ∨ bad = 0 → exec (.hbmRequestIssue d pc ⟨now, bad⟩) s = .next (reconstruct (v.servedReq d pc r) r pc))
      ∧ (r.write = false → exec (.hbmRequestIssue d pc ⟨now, 1⟩) s = .next (reconstruct ((v.servedReq d pc r).bump .SSC_ECC_CORR d) r pc))
      ∧ (∀ bad, r.write = false → 2 ≤ bad → exec (.hbmRequestIssue d pc ⟨now, bad⟩) s = .next (reconstruct (pieceError (v.servedReq d pc r) d (pieceOf v r pc)) r pc))
      ∧ ∀ x ∈ v.pcReqs d pc, v.heldUp d pc x = false → v.urgencyAt d pc x ≤ v.urgencyAt d pc r)
    ∧ (∀ id now r, s.ssc.req.find? (fun r => r.id = id) = some r → r.late = false → urgency (max s.ssc.now now) r = 4 →
      ∃ t, exec (.urgencyLate id now) s = .next t
        ∧ t.ssc = { s.ssc with now := max s.ssc.now now, req := s.ssc.req.map (fun x => if x.id = id then { x with late := true } else x) } ∧ only [.regs, .ssc] s t)
    ∧ (∀ (pc : Fin 32) bank, s.rowWanted d pc bank = false →
      exec (.rowIdleClose d pc bank) s = .next { s with ssc := { s.ssc with rows := mremove (rowKey d pc bank) s.ssc.rows } })
    ∧ (∀ (pc : Fin 32) bank,
      (s.p0Active d pc = true → s.credit d pc < 8 →
        ∃ t, exec (.refreshDue d pc bank) s = .next t ∧ t.ssc = { s.ssc with credit := mset 0 s.ssc.credit (d.val * 32 + pc.val) (s.credit d pc + 1) } ∧ only [.regs, .ssc] s t)
      ∧ (s.p0Active d pc = true → 8 ≤ s.credit d pc →
        ∃ t, exec (.refreshDue d pc bank) s = .next t ∧ t.ssc = { s.ssc with rows := mremove (rowKey d pc bank) s.ssc.rows } ∧ only [.regs, .ssc] s t)
      ∧ (s.p0Active d pc = false →
        ∃ t, exec (.refreshDue d pc bank) s = .next t ∧ only [.ssc] s t
          ∧ t.ssc = { s.ssc with rows := mremove (rowKey d pc bank) s.ssc.rows, credit := mset 0 s.ssc.credit (d.val * 32 + pc.val) (s.credit d pc - 1) }))
    ∧ (∀ hot, s.Inv → ∃ t, exec (.stackTempHot d hot) s = .next t ∧ t.reg .SSC_STACK d [] = setFld (s.reg .SSC_STACK d []) 29 29 (b2n hot) ∧ only [.regs] s t)

/-- Training forms the group from the stacks that pass (R219); the bad pieces of a unit move with it to a spare unit, which is written through P5, or no spare is left and the stack is DEGRADED (R221); a lost channel sets its bit, the segments whose records lose their second copy with it are lost (R202), and it takes the stack with it where AUTO_NARROW is 1 or the limit of R467 is reached (R222); a lost stack leaves the group, and its requests with it (R223, R224). -/
def Obligations.StacksTrainAndFail : Prop :=
  ∀ (s : State),
    (∀ passed : BitVec 8, s.ssc.begun = true → s.ssc.busy = true →
      ∃ t, exec (.trainingDone passed) s = .next t ∧ only [.regs, .ssc, .gwe] s t
        ∧ t.ssc = { s.ssc with
            busy := false
            smask := maskOf (s.allDies.filter (fun d => !nbit s.ssc.lost d && passed.getLsbD d))
            lost := Nat.lor s.ssc.lost (maskOf (s.allDies.filter (fun d => !nbit s.ssc.lost d && !passed.getLsbD d))) })
    ∧ ∀ d : Fin 8, d < s.dies →
      (∀ piece, (d.val, piece) ∈ s.ssc.bad →
        (s.rf .SSC_SPARE d [] 17 0 = 0 → exec (.spareRemap d (piece / 32)) s = .next (setSsc s 5 5 1))
        ∧ (s.rf .SSC_SPARE d [] 17 0 ≠ 0 →
          ∃ t, exec (.spareRemap d (piece / 32)) s = .next t ∧ t.ssc.bad = s.ssc.bad.filter (fun e => !(decide (e.1 = d.val) && decide (e.2 / 32 = piece / 32)))
            ∧ t.ssc.remap = s.ssc.remap ++ [(d.val, piece / 32)] ∧ (nbit s.ssc.lost d = false → ∃ r ∈ t.ssc.req, r.die = d.val ∧ r.port = 5 ∧ r.write = true ∧ r.what = .unit (piece / 32))
            ∧ (s.Inv → t.rf .SSC_SPARE d [] 17 0 = s.rf .SSC_SPARE d [] 17 0 - 1) ∧ only [.regs, .ssc, .gwe] s t))
      ∧ (∀ c : Fin 16, s.Inv → bit (s.reg .SSC_STACK d []) c = false →
        (bit (s.reg .SSC_CFG d []) 31 = false → (s.setRf .SSC_STACK d [] c c 1).lostChannels d < max 1 (s.rf .ICU_LIMIT d [] 19 16) →
          ∃ t, exec (.channelLost d c) s = .next t ∧ bit (t.reg .SSC_STACK d []) c = true ∧ only [.regs, .cte, .bpm, .qba, .ssc, .gwe] s t
            ∧ ((∀ j ∈ s.homeOf d, (s.setRf .SSC_STACK d [] c c 1).recordGone j = false) → only [.regs, .gwe] s t))
        ∧ (bit (s.reg .SSC_CFG d []) 31 = true ∨ max 1 (s.rf .ICU_LIMIT d [] 19 16) ≤ (s.setRf .SSC_STACK d [] c c 1).lostChannels d →
          ∃ t, exec (.channelLost d c) s = .next t ∧ bit (t.reg .SSC_STACK d []) c = true ∧ nbit t.ssc.lost d = true ∧ only [.regs, .cte, .bpm, .qba, .ssc, .tdx, .gwe] s t))
      ∧ (∀ cause, nbit s.ssc.lost d = false →
        ∃ t, exec (.stackLost d cause) s = .next t ∧ t.ssc.smask = removeBit s.ssc.smask d ∧ t.ssc.lost = Nat.lor s.ssc.lost (2 ^ d.val)
          ∧ (∀ r ∈ t.ssc.req, r.die ≠ d.val) ∧ only [.regs, .cte, .bpm, .qba, .ssc, .tdx, .gwe] s t)

/-- A rebuild takes the oldest old segment of the queue at its cursor: its reads are issued with the cursor at the queue, and once they are served its frames are repacked (R225); it is done, and DEGRADED clears, when no segment of the old geometry is left, and until then waits for those that it cannot repack to depart (R225; the model's choice, log 78); it resumes from a wait once a segment is free (R225), and goes on in PROVISION and the later modes alone (R452, R455). -/
def Obligations.RebuildGoesOn : Prop :=
  ∀ (s : State) (r : Rebuild), s.Inv → s.ssc.rebuild = some r →
    (∀ picks, r.wait = false → s.rebuilds = true → s.freshLeft s.rebuildQueue = false →
      (∀ q j l, s.rebuildQueue = some q → s.rf .SSC_CFG (s.server (queueDie q)) [] 15 0 ≠ 0 → s.oldSegs q = j :: l →
        (r.reads ≠ some j →
          ∃ t, exec (.rebuildSegment picks) s = .next t ∧ t.ssc.rebuild = some { r with reads := some j } ∧ (∀ d, d < s.dies → t.rf .SSC_REB_CUR d [] 17 0 = q % 2 ^ 18)
            ∧ t.ssc.seg = s.ssc.seg ∧ (∀ x ∈ s.ssc.req, x ∈ t.ssc.req) ∧ only [.regs, .ssc] s t)
        ∧ (r.reads = some j → s.readsWait j = true → exec (.rebuildSegment picks) s = .next s)
        ∧ (r.reads = some j → s.readsWait j = false → exec (.rebuildSegment picks) s = .next (rebuildOne s q j picks)))
      ∧ (s.oldGeometry = false →
        ∃ t, exec (.rebuildSegment picks) s = .next t ∧ t.ssc = { s.ssc with rebuild := none } ∧ (∀ d, d < s.dies → bit (t.reg .SSC_STATE d []) 5 = false) ∧ only [.regs, .ssc, .gwe] s t)
      ∧ (s.oldGeometry = true → s.rebuildQueue = none → exec (.rebuildSegment picks) s = .next s))
    ∧ (s.rebuilds = false → (∀ picks, exec (.rebuildSegment picks) s = .next s) ∧ exec .rebuildResume s = .next s)
    ∧ (r.wait = true → s.rebuilds = true → s.anySegFree = true →
      ∃ t, exec .rebuildResume s = .next t ∧ t.ssc = { s.ssc with rebuild := some { r with wait := false } } ∧ only [.regs, .ssc, .gwe] s t)

/-! Resequencing and departure (spec/08). -/

/-- The ended head of a flow is released and its entry freed: an emitted frame for a queue of the die itself goes on to admission with its edit program, flow and tick count, a retired one ends there (R240, R241, R245); a blocked flow passes its gap after GAP_TICKS, a value written in the present tick not yet counting (R242, R255); one for a queue of another die is handed off, which counts, its copy to wait there, or is lost and counts where the fabric cannot carry it (R15, R245, R478); an acknowledged handoff is forgotten, and its ingress buffer and the mirror of it are freed when no other copy of it is outstanding (R192, R245, R246), which a flood's part with copies still waiting is not (R246). -/
def Obligations.FlowsRelease : Prop :=
  ∀ (s : State),
    (∀ (d : Fin 8) (c : Fin 65536) k r, s.Inv → d < s.dies → s.flowHead d c = some (k, r) → r.st.ended = true →
      (exec (.rsqRelease d c) s = .next (regap (releaseHead s d c k r false) d c true))
      ∧ (r.st = .emitted → bit r.dest 31 = false → s.owner (fld r.dest 17 0) = d.val →
        ∃ t, exec (.rsqRelease d c) s = .next t ∧ only [.regs, .fwt, .ssc, .qba, .rsq] s t ∧ t.rsq.rob = mremove (robKey d k) s.rsq.rob
          ∧ t.qba = { s.qba with admitQ := s.qba.admitQ ++ [{ die := d, hand := none, q := fld r.dest 17 0, handle := r.frame.handle, len := r.frame.len, edit := r.edit, flow := r.flow, force := r.force, flood := false, mirror := r.frame.mirror, tick := s.ticksOn d, arr := r.frame.arr }] })
      ∧ (r.st = .emitted → bit r.dest 31 = false → ∀ o, s.owner (fld r.dest 17 0) = o → o ≠ d.val →
        (s.noRoute d o = false → ∃ t, exec (.rsqRelease d c) s = .next t ∧ only [.regs, .fwt, .ssc, .qba, .rsq] s t ∧ counts s t .RSQ_HANDOFF d [] 1
          ∧ t.rsq.rob = mremove (robKey d k) s.rsq.rob
          ∧ t.rsq.hand = s.rsq.hand ++ [{ id := s.qba.nextId, src := d, dst := o, handle := r.frame.handle, mirror := r.frame.mirror, copied := false, flood := false, arr := r.frame.arr, force := r.force }]
          ∧ t.qba = { s.qba with
              nextId := s.qba.nextId + 1
              admitQ := s.qba.admitQ ++ [{ die := o, hand := some s.qba.nextId, q := fld r.dest 17 0, handle := r.frame.handle, len := r.frame.len, edit := r.edit, flow := r.flow, force := r.force, flood := false, mirror := none, tick := s.ticksOn d, arr := r.frame.arr }] })
        ∧ (s.noRoute d o = true → ∃ t, exec (.rsqRelease d c) s = .next t ∧ only [.regs, .fwt, .bpm, .ssc, .rsq] s t ∧ counts s t .PFB_ROUTE_DROP d [] 1 ∧ t.rsq.rob = mremove (robKey d k) s.rsq.rob))
      ∧ (r.st = .retired → ∃ t, exec (.rsqRelease d c) s = .next t ∧ only [.regs, .fwt, .ssc, .rsq] s t ∧ t.rsq.rob = mremove (robKey d k) s.rsq.rob))
    ∧ (∀ (d : Fin 8) (c : Fin 65536) t0, d < s.dies → mfind s.rsq.gap (ctxKey d c) = some t0 → s.gapTicks d ≠ 0 → s.flowBlocked d c = true → t0 + s.gapTicks d ≤ s.ticksOn d →
      exec (.gapTimeout d c) s = .next (skipGap s d c))
    ∧ (∀ id h, s.rsq.hand.find? (fun h => h.id = id) = some h → h.copied = true → s.handWaits id = false →
      ∃ t, exec (.handoffAck id) s = .next t ∧ t.rsq = { s.rsq with hand := lrem h s.rsq.hand } ∧ only [.bpm, .rsq] s t
        ∧ (¬ (lrem h s.rsq.hand).any (fun x => x.handle = h.handle) = true → t = freeBoth { s with rsq := { s.rsq with hand := lrem h s.rsq.hand } } h.handle h.mirror
          ∧ (mrise 0 s.bpm.alloc = true → ((s.poolOf h.handle).isSome = true → t.allocated h.handle = false) ∧ ∀ m, h.mirror = some m → (s.poolOf m).isSome = true → t.allocated m = false))
        ∧ ((lrem h s.rsq.hand).any (fun x => x.handle = h.handle) = true → t.bpm = s.bpm))
    ∧ (∀ id h, s.rsq.hand.find? (fun h => h.id = id) = some h → (h.copied = false ∨ s.handWaits id = true) → exec (.handoffAck id) s = .next s)

/-- An edit program is checked as it is written, program 0 is fixed, and programs change in PROVISION only (R247, R250); word 15 of a port's data changes all sixteen words together (R256). -/
def Obligations.EditProgramsAndPortData : Prop :=
  ∀ (s : State) (d : Fin 8) (w : Word), d < s.dies → s.glb.mode.any = true →
    (s.excluded d = false →
      (∀ n : Fin 256, n ≠ 0 → s.glb.mode = .provision →
        (s.editProgGood (BitVec.ofNat 32 (w.toNat &&& 0xBFFF00FF)) = true → exec (.editProgWrite d n w) s = .next (wrResult (.ok, s.setReg .RSQ_EDIT_PROG d [n] (BitVec.ofNat 32 (w.toNat &&& 0xBFFF00FF)))))
        ∧ (s.editProgGood (BitVec.ofNat 32 (w.toNat &&& 0xBFFF00FF)) = false → exec (.editProgWrite d n w) s = .next (wrResult (.badaddr, s))))
      ∧ (∀ n : Fin 256, n ≠ 0 → s.glb.mode ≠ .provision → BitVec.ofNat 32 (w.toNat &&& 0xBFFF00FF) ≠ s.reg .RSQ_EDIT_PROG d [n] → exec (.editProgWrite d n w) s = .next (wrResult (.mode, s)))
      ∧ exec (.editProgWrite d 0 w) s = .next (wrResult (.ok, s)))
    ∧ (∀ l : Fin 4, s.Inv → ∃ t, exec (.portDataCommit d l w) s = .next t ∧ only [.regs, .rsq, .gwe] s t
        ∧ t.reg .RSQ_PORT_DATA d [l, 15] = w
        ∧ (∀ i : Fin 15, t.reg .RSQ_PORT_DATA d [l, i] = (mfind s.rsq.pdHeld ((d.val * 4 + l.val) * 16 + i.val)).getD (s.reg .RSQ_PORT_DATA d [l, i])))

/-! Threads and the Rolk instructions (spec/09, spec/10, spec/12). -/

/-- A thread's registers: g0 reads as zero and a write to it is discarded; a write to another register changes that one alone (R258, R299). -/
def Obligations.RegisterZeroIsZero : Prop :=
  ∀ (x : Thr) (v : DWord), mrise 0 x.g = true →
    x.get 0 = 0 ∧ x.set 0 v = x ∧ (∀ r, r ≠ 0 → (x.set r v).get r = v) ∧ ∀ r q, r ≠ q → (x.set r v).get q = x.get q

/-- The ALU instructions, POPC, CLZ and OR_SHIFT: what each writes to gd, with nothing else of the state changed but the thread's own record and the slot counts (R262, R299, R304). -/
def Obligations.AluInstructionsCompute : Prop :=
  ∀ (s : State) (d : Fin 8) (n : Fin 384),
    s.yields (.add d n) d n .addx (fun i x => x.get i.a + i.second x)
    ∧ s.yields (.sub d n) d n .subx (fun i x => x.get i.a - i.second x)
    ∧ s.yields (.andd d n) d n .andx (fun i x => x.get i.a &&& i.second x)
    ∧ s.yields (.orr d n) d n .orx (fun i x => x.get i.a ||| i.second x)
    ∧ s.yields (.xorr d n) d n .xorx (fun i x => x.get i.a ^^^ i.second x)
    ∧ s.yields (.shl d n) d n .shlx (fun i x => BitVec.ofNat 64 ((x.get i.a).toNat * 2 ^ ((i.second x).toNat % 64)))
    ∧ s.yields (.shr d n) d n .shrx (fun i x => BitVec.ofNat 64 ((x.get i.a).toNat / 2 ^ ((i.second x).toNat % 64)))
    ∧ s.yields (.sar d n) d n .sarx (fun i x => BitVec.ofInt 64 ((x.get i.a).toInt / 2 ^ ((i.second x).toNat % 64)))
    ∧ s.yields (.rot d n) d n .rotx (fun i x => (x.get i.a <<< ((i.second x).toNat % 64)) ||| (x.get i.a >>> (64 - (i.second x).toNat % 64)))
    ∧ s.yields (.minn d n) d n .minx (fun i x => if (x.get i.a).toInt ≤ (i.second x).toInt then x.get i.a else i.second x)
    ∧ s.yields (.maxx d n) d n .maxx (fun i x => if (i.second x).toInt ≤ (x.get i.a).toInt then x.get i.a else i.second x)
    ∧ s.yields (.mul d n) d n .mulx (fun i x => BitVec.ofNat 64 ((x.get i.a).toNat * (i.second x).toNat))
    ∧ s.yields (.popc d n) d n .popcx (fun i x => BitVec.ofNat 64 ((List.range 64).countP (fun k => (x.get i.a).getLsbD k)))
    ∧ s.yields (.clz d n) d n .clzx (fun i x => BitVec.ofNat 64 (((List.range 65).find? (fun k => decide (2 ^ 64 ≤ (x.get i.a).toNat * 2 ^ (k + 1)) || decide (k = 64))).getD 64))
    ∧ s.yields (.orShift16 d n) d n .or16x (fun i x => x.get i.a ||| BitVec.ofNat 64 (i.imm * 2 ^ 16))
    ∧ s.yields (.orShift32 d n) d n .or32x (fun i x => x.get i.a ||| BitVec.ofNat 64 (i.imm * 2 ^ 32))
    ∧ s.yields (.orShift48 d n) d n .or48x (fun i x => x.get i.a ||| BitVec.ofNat 64 (i.imm * 2 ^ 48))

/-- BFX and BFI bit by bit: BFX moves W bits from bit B of ga down to bit 0 of gd, above them zeros; BFI moves the low W bits of ga to bit B of gd and keeps its other bits; bits that would fall above bit 63 are lost (R305). -/
def Obligations.BitFieldsMove : Prop :=
  ∀ (s : State) (d : Fin 8) (n : Fin 384) (i : RIns),
    (s.issues d n .bfxx i → ∃ v : DWord, exec (.bfx d n) s = .next (s.afterSlot d n ((s.slotted d n).after i.d v (nextPc (s.thr d n).pc)))
        ∧ ∀ k, k < 64 → v.getLsbD k = (decide (k < bitsOf i.imm 5 0 + 1) && ((s.thr d n).get i.a).getLsbD (k + bitsOf i.imm 11 6)))
    ∧ (s.issues d n .bfix i → ∃ v : DWord, exec (.bfi d n) s = .next (s.afterSlot d n ((s.slotted d n).after i.d v (nextPc (s.thr d n).pc)))
        ∧ ∀ k, k < 64 → v.getLsbD k = (if bitsOf i.imm 11 6 ≤ k ∧ k < bitsOf i.imm 11 6 + (bitsOf i.imm 5 0 + 1) then ((s.thr d n).get i.a).getLsbD (k - bitsOf i.imm 11 6) else ((s.thr d n).get i.d).getLsbD k))

/-- Branches, jumps and NOP: where the thread goes on, and the link that JAL and JR write; a JR beyond the program store faults (R297, R306, R307, R320). The low 32 bits of an operand out of range as the DETAIL of its fault are the model's reading (log 47). -/
def Obligations.BranchesAndJumps : Prop :=
  ∀ (s : State) (d : Fin 8) (n : Fin 384),
    s.jumps (.beq d n) d n .beqx (fun i x => if x.get i.a = x.get i.b then (x.pc + 1 + i.imm) % 32768 else nextPc x.pc)
    ∧ s.jumps (.bne d n) d n .bnex (fun i x => if x.get i.a ≠ x.get i.b then (x.pc + 1 + i.imm) % 32768 else nextPc x.pc)
    ∧ s.jumps (.blt d n) d n .bltx (fun i x => if (x.get i.a).toInt < (x.get i.b).toInt then (x.pc + 1 + i.imm) % 32768 else nextPc x.pc)
    ∧ s.jumps (.bge d n) d n .bgex (fun i x => if (x.get i.b).toInt ≤ (x.get i.a).toInt then (x.pc + 1 + i.imm) % 32768 else nextPc x.pc)
    ∧ s.jumps (.bltu d n) d n .bltux (fun i x => if (x.get i.a).toNat < (x.get i.b).toNat then (x.pc + 1 + i.imm) % 32768 else nextPc x.pc)
    ∧ s.jumps (.bgeu d n) d n .bgeux (fun i x => if (x.get i.b).toNat ≤ (x.get i.a).toNat then (x.pc + 1 + i.imm) % 32768 else nextPc x.pc)
    ∧ s.jumps (.bbs d n) d n .bbsx (fun i x => if (x.get i.a).getLsbD i.size = true then (x.pc + 1 + i.imm) % 32768 else nextPc x.pc)
    ∧ s.jumps (.bbc d n) d n .bbcx (fun i x => if (x.get i.a).getLsbD i.size = false then (x.pc + 1 + i.imm) % 32768 else nextPc x.pc)
    ∧ s.jumps (.j d n) d n .jx (fun i _ => i.imm)
    ∧ s.jumps (.nop d n) d n .nopx (fun _ x => nextPc x.pc)
    ∧ (∀ i, s.issues d n .jalx i → exec (.jal d n) s = .next (s.afterSlot d n ((s.slotted d n).after i.d (BitVec.ofNat 64 (nextPc (s.thr d n).pc)) i.imm)))
    ∧ (∀ i, s.issues d n .jrx i →
        (((s.thr d n).get i.a).toNat < 32768 →
          exec (.jr d n) s = .next (s.afterSlot d n ((s.slotted d n).after i.d (BitVec.ofNat 64 (nextPc (s.thr d n).pc)) ((s.thr d n).get i.a).toNat)))
        ∧ (32768 ≤ ((s.thr d n).get i.a).toNat → exec (.jr d n) s = .next ((countSlot s d n).faulted d n 3 (((s.thr d n).get i.a).toNat % 2 ^ 32))))

/-- Scratchpad loads and stores of 1, 2, 4 and 8 bytes (R308): an access is judged on its range first and on its alignment then (R270, R300), and a store leaves every byte outside its own. The low 32 bits of an operand out of range as the DETAIL of its fault are the model's reading (log 47). -/
def Obligations.LoadsAndStores : Prop :=
  (∀ (s : State) (d : Fin 8) (n : Fin 384),
    s.loads (.ld8 d n) d n .ld8x 1 ∧ s.loads (.ld16 d n) d n .ld16x 2 ∧ s.loads (.ld32 d n) d n .ld32x 4 ∧ s.loads (.ld64 d n) d n .ld64x 8
    ∧ s.stores (.st8 d n) d n .st8x 1 ∧ s.stores (.st16 d n) d n .st16x 2 ∧ s.stores (.st32 d n) d n .st32x 4 ∧ s.stores (.st64 d n) d n .st64x 8)
  ∧ (∀ (a : DWord) (k : Nat), 0 < k →
    (a.toNat + k ≤ 0x40000 → a.toNat % k = 0 → padAccess a k k = .good)
    ∧ (0x40000 < a.toNat + k → padAccess a k k = .bad 3 (a.toNat % 2 ^ 32))
    ∧ (a.toNat + k ≤ 0x40000 → a.toNat % k ≠ 0 → padAccess a k k = .bad 2 (a.toNat % 2 ^ 32)))
  ∧ ∀ (s : State) (d k a : Nat) (l : List Byte), s.memWf →
      (s.putPad d k a l).memWf ∧ (∀ j, j < l.length → mget 0 (s.putPad d k a l).cra.pad (padKey d k a + j) = l.getD j 0)
      ∧ ∀ b, (b < padKey d k a ∨ padKey d k a + l.length ≤ b) → mget 0 (s.putPad d k a l).cra.pad b = mget 0 s.cra.pad b

/-- FLD, FST and FLEN on a buffer whose handle is good: the bytes, the store, the length; outside the frame FLD and FST fault, and a bad handle faults and counts (R179, R274, R309). The low 32 bits of an operand out of range as the DETAIL of its fault are the model's reading (log 47). -/
def Obligations.FrameAccess : Prop :=
  ∀ (s : State) (d : Fin 8) (n : Fin 384) (i : RIns) (u : State) (x : Thr) (h o : Nat),
    u = countSlot s d n → x = s.thr d n → h = handleOf (x.get i.a) → o = frameOff i x →
    (u.handleGood d h = true →
      (s.issues d n .fldx i →
        (o + i.size ≤ 128 + u.frameLen h → exec (.fld d n) s = .next (u.asked d n i.d (BitVec.ofNat 64 (natAt s.bpm.quay (hKey h + o) i.size)) (if s.quayBad h o i.size then 3 else 0) true .other))
        ∧ (128 + u.frameLen h < o + i.size → exec (.fld d n) s = .next (u.faulted d n 3 (o % 2 ^ 32))))
      ∧ (s.issues d n .fstx i →
        (128 ≤ o → o + i.size ≤ 128 + u.frameLen h → exec (.fst d n) s = .next ((u.putQuay h o (beBytes i.size (x.get i.d).toNat)).asked d n 0 0 0 true .other))
        ∧ ((o < 128 ∨ 128 + u.frameLen h < o + i.size) → exec (.fst d n) s = .next (u.faulted d n 3 (o % 2 ^ 32))))
      ∧ (s.issues d n .flenx i → exec (.flen d n) s = .next (u.asked d n i.d (BitVec.ofNat 64 (natAt s.bpm.quay (hKey h + 100) 2)) (if s.quayBad h 100 2 then 3 else 0) true .other)))
    ∧ (u.handleGood d h = false →
      (s.issues d n .fldx i → exec (.fld d n) s = .next ((u.bump .BPM_BADHANDLE d).faulted d n 4 (h % 2 ^ 32)))
      ∧ (s.issues d n .fstx i → exec (.fst d n) s = .next ((u.bump .BPM_BADHANDLE d).faulted d n 4 (h % 2 ^ 32)))
      ∧ (s.issues d n .flenx i → exec (.flen d n) s = .next ((u.bump .BPM_BADHANDLE d).faulted d n 4 (h % 2 ^ 32))))

/-- CRC32C, HASH, PHASE and BCHECK ask for a value and change nothing else: HASH with K not 0 starts from the register that field C names (the model's reading, log 48), BCHECK answers for a quay or a staging handle (log 49), PHASE gives the crossing, step and counts of the thread's own die (R43, R44, R310, R315, R319). -/
def Obligations.ValuesAreAskedFor : Prop :=
  ∀ (s : State) (d : Fin 8) (n : Fin 384) (i : RIns) (u : State) (x : Thr), s.Inv → u = countSlot s d n → x = s.thr d n →
    (s.issues d n .crc32cx i → exec (.crc32c d n) s = .next (u.asked d n i.d (BitVec.ofNat 64 (crc32cFeed ((x.get i.a).toNat % 2 ^ 32) ((beBytes 8 (x.get i.b).toNat).take i.c))) 0 i.u .other))
    ∧ (s.issues d n .hashx i → exec (.hash d n) s = .next (u.asked d n i.d (BitVec.ofNat 64
          (if i.c = 0 then Nat.xor (crc32cFeed (s.reg .FWT_HASH_SEED d []).toNat (beBytes 8 (x.get i.a).toNat ++ beBytes 8 (x.get i.b).toNat)) 0xFFFFFFFF
           else digestFeed (x.get i.c).toNat (beBytes 8 (x.get i.a).toNat ++ beBytes 8 (x.get i.b).toNat))) 0 i.u .other))
    ∧ (s.issues d n .phasex i → exec (.phase d n) s = .next (u.asked d n i.d (BitVec.ofNat 64
          (if i.c = 0 then s.phi.st.code * 2 ^ 60 + s.xingOn d * 2 ^ 25 + s.stepOn d else if i.c = 1 then s.ticksOn d else if i.c = 2 then s.cntOn d
           else (if s.plt.lead = d.val then 2 ^ 48 else 0) + d.val * 2 ^ 40 + n.val / 16 * 2 ^ 32 + n.val / 64 * 2 ^ 24 + n.val % 64 * 2 ^ 16 + n.val)) 0 i.u .other))
    ∧ (s.issues d n .bcheckx i → exec (.bcheck d n) s = .next (u.asked d n i.d
          (if hSpace (handleOf (x.get i.a)) = 1 then u.checkQuay d (handleOf (x.get i.a)) else if hSpace (handleOf (x.get i.a)) = 2 then s.checkSeg d (handleOf (x.get i.a)) else codeWord 0x12) 0 i.u .other))

/-- BALLOC takes a buffer of its class from the thread's region or answers outcome 0x10; BFREE frees, and its four failures fault with codes 4, 4, 6 and 5; BSHARE makes or raises a share entry, with outcome 0x11 for a full table, and faults with code 4 on a bad handle, 6 for a thread that is not the closer and 3 for an operand out of range (R179 to R182, R302, R315). The low 32 bits of an operand out of range as the DETAIL of its fault are the model's reading (log 47). -/
def Obligations.BufferInstructions : Prop :=
  ∀ (s : State) (d : Fin 8) (n : Fin 384) (i : RIns) (u : State) (x : Thr) (h : Nat), u = countSlot s d n → x = s.thr d n → h = handleOf (x.get i.a) →
    (s.issues d n .ballocx i →
      (∀ b t, allocBuf u d (n.val / 192) i.c = (some b, t) → exec (.balloc d n) s = .next (t.asked d n i.d (BitVec.ofNat 64 b) 0 i.u (.balloc b)))
      ∧ (∀ t, allocBuf u d (n.val / 192) i.c = (none, t) → exec (.balloc d n) s = .next (t.asked d n i.d (codeWord 0x10) 0 i.u .other)))
    ∧ (s.issues d n .bfreex i → ∀ r t, bfree u d h (threadCloser n) = (r, t) →
      (r = .done → exec (.bfree d n) s = .next (t.asked d n i.d 0 0 i.u .other))
      ∧ ((r = .bad ∨ r = .double) → exec (.bfree d n) s = .next (t.faulted d n 4 (h % 2 ^ 32)))
      ∧ (r = .notCloser → exec (.bfree d n) s = .next (t.faulted d n 6 (h % 2 ^ 32)))
      ∧ (r = .early → exec (.bfree d n) s = .next (t.faulted d n 5 (h % 2 ^ 32))))
    ∧ (s.issues d n .bsharex i → u.handleGood d h = false → exec (.bshare d n) s = .next ((u.bump .BPM_BADHANDLE d).faulted d n 4 (h % 2 ^ 32)))
    ∧ (s.issues d n .bsharex i → u.handleGood d h = true → ((x.get i.b).toNat = 0 ∨ 65535 < (x.get i.b).toNat) → exec (.bshare d n) s = .next (u.faulted d n 3 ((x.get i.b).toNat % 2 ^ 32)))
    ∧ (s.issues d n .bsharex i → u.handleGood d h = true → 1 ≤ (x.get i.b).toNat → (x.get i.b).toNat ≤ 65535 → closerOk ((x.get i.c).toNat % 65536) = false →
        exec (.bshare d n) s = .next (u.faulted d n 3 ((x.get i.c).toNat % 2 ^ 32)))
    ∧ (s.issues d n .bsharex i → u.handleGood d h = true → 1 ≤ (x.get i.b).toNat → (x.get i.b).toNat ≤ 65535 → closerOk ((x.get i.c).toNat % 65536) = true →
      (s.shareOf h = none → s.shareUsed d < 4096 →
        exec (.bshare d n) s = .next ((u.setShare h { refs := (x.get i.b).toNat, closer := BitVec.ofNat 16 (x.get i.c).toNat }).asked d n i.d 0 0 i.u .other))
      ∧ (s.shareOf h = none → 4096 ≤ s.shareUsed d → exec (.bshare d n) s = .next ((u.bump .BPM_SHARE_FULL d).asked d n i.d (codeWord 0x11) 0 i.u .other))
      ∧ (∀ y, s.shareOf h = some y →
        (y.closer ≠ threadCloser n → exec (.bshare d n) s = .next (u.faulted d n 6 (h % 2 ^ 32)))
        ∧ (y.closer = threadCloser n → 65535 < y.refs + (x.get i.b).toNat → exec (.bshare d n) s = .next (u.faulted d n 3 ((x.get i.b).toNat % 2 ^ 32)))
        ∧ (y.closer = threadCloser n → y.refs + (x.get i.b).toNat ≤ 65535 →
          exec (.bshare d n) s = .next ((u.setShare h { y with refs := y.refs + (x.get i.b).toNat }).asked d n i.d 0 0 i.u .other))))

/-- LKP and LRN go to the tables of the die with their operands as read at issue; a context of another die or a misplaced offset faults LKP, a lane where no port starts faults LRN; LKP with K = 4 and K = 6 takes the register that field C, which holds K, names as gc (the model's reading, log 48); during a restart of the unit LKP for L2, flow keys and LPM and LRN wait for it (R138, R140, R141, R146, R157, R276, R316). The low 32 bits of an operand out of range as the DETAIL of its fault are the model's reading (log 47). -/
def Obligations.TableInstructions : Prop :=
  ∀ (s : State) (d : Fin 8) (n : Fin 384) (i : RIns) (u : State) (x : Thr), u = countSlot s d n → x = s.thr d n →
    (s.issues d n .lkpx i → s.unitDown d unitFwt = false →
      (i.c = 1 → ∀ w t, l2Lookup u d (bitsOf (x.get i.a).toNat 59 48) (bitsOf (x.get i.a).toNat 47 0) = (w, t) → exec (.lkp d n) s = .next (t.asked d n i.d (BitVec.ofNat 64 w.toNat) 0 i.u .other))
      ∧ (i.c = 2 → padRead s d (clusterOf n) (x.get i.b) 40 8 = .good →
          (∀ e t, flowLookup u d (bitsOf (x.get i.a).toNat 3 0) (s.padBytes d (clusterOf n) (x.get i.b).toNat 40) = (some e, t) → exec (.lkp d n) s = .next (t.asked d n i.d (BitVec.ofNat 64 (flowRes e).toNat) 0 i.u .other))
          ∧ (∀ t, flowLookup u d (bitsOf (x.get i.a).toNat 3 0) (s.padBytes d (clusterOf n) (x.get i.b).toNat 40) = (none, t) → exec (.lkp d n) s = .next (t.asked d n i.d 0 0 i.u .other)))
      ∧ (i.c = 3 → exec (.lkp d n) s = .next (u.asked d n i.d (BitVec.ofNat 64 (u.lpmLookup d false (bitsOf (x.get i.a).toNat 15 0) (bitsOf (x.get i.b).toNat 31 0 * 2 ^ 96)).toNat) 0 i.u .other))
      ∧ (i.c = 4 → exec (.lkp d n) s = .next (u.asked d n i.d (BitVec.ofNat 64 (u.lpmLookup d true (bitsOf (x.get i.a).toNat 15 0) ((x.get i.b).toNat * 2 ^ 64 + (x.get i.c).toNat)).toNat) 0 i.u .other))
      ∧ (∀ c, c = bitsOf (x.get i.a).toNat 15 0 → bitsOf (x.get i.a).toNat 18 16 = d → (x.get i.b).toNat ≤ 56 → (x.get i.b).toNat % 8 = 0 →
          (i.c = 5 → exec (.lkp d n) s = .next ((touchCtx u d c).2.asked d n i.d (BitVec.ofNat 64 (beNat ((s.ctx d c).userBytes (x.get i.b).toNat))) 0 i.u .other))
          ∧ (i.c = 6 → ∀ z : FCtx → List Byte, (∀ y : FCtx, z y = replaceAt (padTo 64 y.user) (x.get i.b).toNat (beBytes 8 (x.get i.c).toNat)) →
            exec (.lkp d n) s = .next (((touchCtx u d c).2.modCtx d c (fun y => { y with user := if z y = List.replicate 64 0 then [] else z y })).asked d n i.d 0 0 i.u .other))))
    ∧ (s.issues d n .lkpx i → (i.c = 5 ∨ i.c = 6) →
      (bitsOf (x.get i.a).toNat 18 16 ≠ d → exec (.lkp d n) s = .next (u.faulted d n 3 ((x.get i.a).toNat % 2 ^ 32)))
      ∧ (bitsOf (x.get i.a).toNat 18 16 = d → (56 < (x.get i.b).toNat ∨ (x.get i.b).toNat % 8 ≠ 0) → exec (.lkp d n) s = .next (u.faulted d n 3 ((x.get i.b).toNat % 2 ^ 32))))
    ∧ (s.issues d n .lkpx i → s.unitDown d unitFwt = true → (i.c = 1 ∨ i.c = 3 ∨ i.c = 4) →
        exec (.lkp d n) s = .next (u.asked d n i.d 0 0 i.u (.fwt { k := i.c, a := x.get i.a, b := x.get i.b, c := x.get i.c, key := [] })))
    ∧ (s.issues d n .lkpx i → s.unitDown d unitFwt = true → i.c = 2 → padRead s d (clusterOf n) (x.get i.b) 40 8 = .good →
        exec (.lkp d n) s = .next (u.asked d n i.d 0 0 i.u (.fwt { k := 2, a := x.get i.a, b := x.get i.b, c := x.get i.c, key := s.padBytes d (clusterOf n) (x.get i.b).toNat 40 })))
    ∧ (s.issues d n .lkpx i → i.c = 2 → ∀ c y, padRead s d (clusterOf n) (x.get i.b) 40 8 = .bad c y → exec (.lkp d n) s = .next (u.faulted d n c y))
    ∧ (s.issues d n .lrnx i → u.isPort (d * 4 + bitsOf (x.get i.b).toNat 1 0) = true → s.unitDown d unitFwt = false →
      (u.learnOn d (d * 4 + bitsOf (x.get i.b).toNat 1 0) = false → exec (.lrn d n) s = .next (u.asked d n i.d (codeWord 0x1A) 0 i.u .other))
      ∧ (u.learnOn d (d * 4 + bitsOf (x.get i.b).toNat 1 0) = true → ∀ r t, learnRequest u d (bitsOf (x.get i.a).toNat 59 48) (bitsOf (x.get i.a).toNat 47 0) (d * 4 + bitsOf (x.get i.b).toNat 1 0) = (r, t) →
          exec (.lrn d n) s = .next (t.asked d n i.d (match r with | .done => 0 | .noRoom => codeWord 0x18 | .full => codeWord 0x19) 0 i.u .other)))
    ∧ (s.issues d n .lrnx i → u.isPort (d * 4 + bitsOf (x.get i.b).toNat 1 0) = true → s.unitDown d unitFwt = true →
        exec (.lrn d n) s = .next (u.asked d n i.d 0 0 i.u (.fwt { k := 0, a := x.get i.a, b := x.get i.b, c := 0, key := [] })))
    ∧ (s.issues d n .lrnx i → u.isPort (d * 4 + bitsOf (x.get i.b).toNat 1 0) = false → exec (.lrn d n) s = .next (u.faulted d n 3 ((x.get i.b).toNat % 2 ^ 32)))

/-- TWAIT waits for a task, or leaves a disabled thread IDLE; TDONE ends one; TPOST places one on a ready or delay list of the die or sends it to another die that is there; TDEFER passes the ticket on (R311 to R314, R324, R325). A refused post answers its error code, and a TDEFER refused keeps the ticket; with a ticket held TWAIT and TDONE fault, without one TDEFER does; during a restart of the unit TDONE, TPOST and TDEFER answer error 0x02 (R276). The low 32 bits of an operand out of range as the DETAIL of its fault are the model's reading (log 47). -/
def Obligations.TaskInstructions : Prop :=
  ∀ (s : State) (d : Fin 8) (n : Fin 384) (i : RIns) (u : State) (x : Thr), u = countSlot s d n → x = s.thr d n →
    (s.issues d n .twaitx i → x.ticket = none →
      exec (.twait d n) s = .next ((if x.task then endRecord u d n 6 none else u).withThr d n
        (if u.thrEn d n then { (s.slotted d n) with st := .twait, mask := x.get i.a, task := false } else { (s.slotted d n) with st := .idle, task := false, step := 0 })))
    ∧ (∀ k, x.ticket = some k →
      (s.issues d n .twaitx i → exec (.twait d n) s = .next (u.faulted d n 3 k))
      ∧ (s.issues d n .tdonex i → exec (.tdone d n) s = .next (u.faulted d n 3 k)))
    ∧ (s.issues d n .tdonex i → x.ticket = none →
      (s.unitDown d unitTdx = false →
        exec (.tdone d n) s = .next ((markWait (if x.task then endRecord u d n 5 none else u) d n).withThr d n { ((s.slotted d n).asks (s.exempt d n) i.d 0 0 i.u .tdx) with task := false, slots := 0, helped := !s.exempt d n }))
      ∧ (s.unitDown d unitTdx = true → exec (.tdone d n) s = .next ((markWait u d n).withThr d n { ((s.slotted d n).asks (s.exempt d n) i.d 0 2 i.u .tdx) with slots := 0, helped := !s.exempt d n })))
    ∧ (s.issues d n .tpostx i → bitsOf (x.get i.a).toNat 31 25 = 0 → padRead s d (clusterOf n) (x.get i.b) 48 8 = .good →
      (s.unitDown d unitTdx = true → exec (.tpost d n) s = .next (u.asked d n i.d 0 2 i.u .other))
      ∧ (s.unitDown d unitTdx = false → ∀ task, task = taskOf (x.get i.a).toNat (s.padWords d (clusterOf n) (x.get i.b).toNat 6) (x.get i.c) none →
        (bitsOf (x.get i.a).toNat 24 24 = 0 →
          (∀ t, tryPost u d task (bitsOf (x.get i.a).toNat 63 32) = (0, t) →
            exec (.tpost d n) s = .next ((postRec (t.bump .TDX_POSTED d) d d false (some n) task (bitsOf (x.get i.a).toNat 63 32)).asked d n i.d 0 0 i.u .tdx))
          ∧ (∀ e t, tryPost u d task (bitsOf (x.get i.a).toNat 63 32) = (e, t) → e ≠ 0 → exec (.tpost d n) s = .next (t.asked d n i.d 0 e i.u .tdx)))
        ∧ (bitsOf (x.get i.a).toNat 24 24 = 1 → bitsOf (x.get i.a).toNat 23 21 ∉ s.liveDies → exec (.tpost d n) s = .next (u.asked d n i.d 0 0x82 i.u .tdx))
        ∧ (bitsOf (x.get i.a).toNat 24 24 = 1 → bitsOf (x.get i.a).toNat 23 21 ∈ s.liveDies → ∀ v,
            v = ({ u with tdx := { s.tdx with flight := s.tdx.flight ++ [{ id := s.tdx.nextId, src := thrKey d n, dst := bitsOf (x.get i.a).toNat 23 21, delay := bitsOf (x.get i.a).toNat 63 32, task := task }], nextId := s.tdx.nextId + 1 } } : State) →
            exec (.tpost d n) s = .next ((postRec v d (bitsOf (x.get i.a).toNat 23 21) true (some n) task (bitsOf (x.get i.a).toNat 63 32)).asked d n i.d 0 0 i.u (.remote s.tdx.nextId)))))
    ∧ (s.issues d n .tpostx i → bitsOf (x.get i.a).toNat 31 25 ≠ 0 → exec (.tpost d n) s = .next (u.faulted d n 3 ((x.get i.a).toNat % 2 ^ 32)))
    ∧ (s.issues d n .tdeferx i → x.ticket = none → exec (.tdefer d n) s = .next (u.faulted d n 3 0))
    ∧ (s.issues d n .tdeferx i → ∀ k, x.ticket = some k →
      (bitsOf (x.get i.a).toNat 31 24 ≠ 0 → exec (.tdefer d n) s = .next (u.faulted d n 3 ((x.get i.a).toNat % 2 ^ 32)))
      ∧ (bitsOf (x.get i.a).toNat 31 24 = 0 → padRead s d (clusterOf n) (x.get i.b) 32 8 = .good →
        (s.unitDown d unitTdx = true → exec (.tdefer d n) s = .next (u.asked d n i.d 0 2 i.u .other))
        ∧ (s.unitDown d unitTdx = false → ∀ r task, s.rob d k = some r →
          task = taskOf (x.get i.a).toNat (firstWords k r ++ s.padWords d (clusterOf n) (x.get i.b).toNat 4) (if x.get i.c = 0 then ticketKey r.flow else x.get i.c) (some k) →
          (∀ t, tryPost u d task (bitsOf (x.get i.a).toNat 63 32) = (0, t) →
            exec (.tdefer d n) s = .next ((markWait (postRec ((endRecord t d n 4 (some (r.flow, k))).bump .TDX_POSTED d) d d false (some n) task (bitsOf (x.get i.a).toNat 63 32)) d n).withThr d n
              { ((s.slotted d n).asks (s.exempt d n) i.d 0 0 i.u (.tdefer k)) with ticket := none }))
          ∧ (∀ e t, tryPost u d task (bitsOf (x.get i.a).toNat 63 32) = (e, t) → e ≠ 0 → exec (.tdefer d n) s = .next (t.asked d n i.d 0 e i.u .tdx)))))

/-- Locks: LOCK and TRYLOCK take a free lock with its abandoned mark as the result, wait for a held one, which counts, or answer outcome 0x20; UNLOCK passes it to the first waiter and LKCLEAN clears its mark, or they answer error 0x88; LKFORCE releases it, or answers outcome 0x21 where it is free or an UNLOCK in the same cycle frees it; LOCK_GRANT completes the wait. A lock number out of range faults with its low 32 bits as DETAIL (log 47); during a restart of the unit UNLOCK, LKCLEAN, TRYLOCK and LKFORCE answer error 0x02, and a LOCK stays where it is, a step still to come (log 50) (R276, R285, R317, R351 to R355, R368, R369). -/
def Obligations.LockInstructions : Prop :=
  ∀ (s : State) (d : Fin 8) (n : Fin 384) (i : RIns) (u : State) (x : Thr) (l : Nat), u = countSlot s d n → x = s.thr d n → l = (x.get i.a).toNat →
    (l < 16384 → s.unitDown d unitSyu = false →
      (s.issues d n .lockx i →
        ((s.lock d l).holder = none → exec (.lock d n) s = .next ((u.setLock d l { s.lock d l with holder := some n }).withThr d n ((s.waited d n).done i.d (if (s.lock d l).abandoned then 1 else 0))))
        ∧ (∀ m, (s.lock d l).holder = some m → m ≠ n → exec (.lock d n) s = .next (((u.setLock d l { s.lock d l with waiters := (s.lock d l).waiters ++ [n.val] }).bump .SYU_LK_CONTEND d).waits d n i.d (.lock l) 0))
        ∧ ((s.lock d l).holder = some n.val → exec (.lock d n) s = .next (u.faulted d n 3 l)))
      ∧ (s.issues d n .trylockx i →
        ((s.lock d l).holder = none → exec (.trylock d n) s = .next ((u.setLock d l { s.lock d l with holder := some n }).asked d n i.d (if (s.lock d l).abandoned then 1 else 0) 0 i.u (.grant l)))
        ∧ (∀ m, (s.lock d l).holder = some m → m ≠ n → exec (.trylock d n) s = .next (u.asked d n i.d (codeWord 0x20) 0 i.u .syu))
        ∧ ((s.lock d l).holder = some n.val → exec (.trylock d n) s = .next (u.faulted d n 3 l)))
      ∧ (s.issues d n .unlockx i →
        ((s.lock d l).holder = some n.val → exec (.unlock d n) s = .next ((passLock u d l).asked d n i.d 0 0 i.u .syu))
        ∧ ((s.lock d l).holder ≠ some n.val → exec (.unlock d n) s = .next (u.asked d n i.d 0 0x88 i.u .syu)))
      ∧ (s.issues d n .lkcleanx i →
        ((s.lock d l).holder = some n.val → exec (.lkclean d n) s = .next ((u.setLock d l { s.lock d l with abandoned := false }).asked d n i.d 0 0 i.u .syu))
        ∧ ((s.lock d l).holder ≠ some n.val → exec (.lkclean d n) s = .next (u.asked d n i.d 0 0x88 i.u .syu)))
      ∧ (s.issues d n .lkforcex i → u.superOf d (clusterOf n) = some n.val → ∀ same,
        (same = false → (s.lock d l).holder.isSome = true → exec (.lkforce d ⟨n, same⟩) s = .next ((forceLock u d l).asked d n i.d 0 0 i.u .syu))
        ∧ ((same = true ∨ (s.lock d l).holder = none) → exec (.lkforce d ⟨n, same⟩) s = .next (u.asked d n i.d (codeWord 0x21) 0 i.u .syu))))
    ∧ (s.issues d n .lkforcex i → u.superOf d (clusterOf n) ≠ some n.val → ∀ same, exec (.lkforce d ⟨n, same⟩) s = .next (u.faulted d n 9 0))
    ∧ (16384 ≤ l →
      (s.issues d n .lockx i → exec (.lock d n) s = .next (u.faulted d n 3 (l % 2 ^ 32))) ∧ (s.issues d n .trylockx i → exec (.trylock d n) s = .next (u.faulted d n 3 (l % 2 ^ 32)))
      ∧ (s.issues d n .unlockx i → exec (.unlock d n) s = .next (u.faulted d n 3 (l % 2 ^ 32))) ∧ (s.issues d n .lkcleanx i → exec (.lkclean d n) s = .next (u.faulted d n 3 (l % 2 ^ 32)))
      ∧ (s.issues d n .lkforcex i → u.superOf d (clusterOf n) = some n.val → ∀ same, exec (.lkforce d ⟨n, same⟩) s = .next (u.faulted d n 3 (l % 2 ^ 32))))
    ∧ (l < 16384 → s.unitDown d unitSyu = true →
      (s.issues d n .trylockx i → exec (.trylock d n) s = .next (u.asked d n i.d 0 2 i.u .syu)) ∧ (s.issues d n .unlockx i → exec (.unlock d n) s = .next (u.asked d n i.d 0 2 i.u .syu))
      ∧ (s.issues d n .lkcleanx i → exec (.lkclean d n) s = .next (u.asked d n i.d 0 2 i.u .syu))
      ∧ (s.issues d n .lkforcex i → u.superOf d (clusterOf n) = some n.val → ∀ same, exec (.lkforce d ⟨n, same⟩) s = .next (u.asked d n i.d 0 2 i.u .syu))
      ∧ (s.issues d n .lockx i → exec (.lock d n) s = .next (u.withThr d n { (s.waited d n) with step := if x.step = 1 ∨ x.step = 2 then 1 else x.step, waited := true })))
    ∧ (d < s.dies → ∀ (k : Fin 16384) m p, s.granted d k = some m → (s.thr d m).pend = some p → exec (.lockGrant d k) s = .next (s.withThr d m ((s.thr d m).done p.rd p.value)))

/-- Events and channels: EVWAIT takes one count or waits, EVSIG signals; CHPUT stages a word, or answers error 0x90 or 0x91; CHCLOSE commits the staged message or answers outcome 0x28 or error 0x92; CHGET takes the oldest message or waits. A number out of range faults with its low 32 bits as DETAIL (log 47), and so does CHGET on a bad address of the scratchpad (R317, R360); during a restart of the unit EVSIG, CHPUT and CHCLOSE answer error 0x02, and EVWAIT and CHGET stay where they are, a step still to come (log 50) (R276, R302, R317, R356 to R360). -/
def Obligations.EventAndChannelInstructions : Prop :=
  ∀ (s : State) (d : Fin 8) (n : Fin 384) (i : RIns) (u : State) (x : Thr) (k e : Nat), u = countSlot s d n → x = s.thr d n → k = clusterOf n → e = (x.get i.a).toNat →
    (s.unitDown d unitSyu = false →
      (s.issues d n .evwaitx i → e < 1024 →
        ((s.ev d k e).count = 0 → exec (.evwait d n) s = .next ((u.setEv d k e { s.ev d k e with waiters := (s.ev d k e).waiters ++ [n.val] }).waits d n i.d (.event e) 0))
        ∧ ((s.ev d k e).count ≠ 0 → exec (.evwait d n) s = .next ((u.setEv d k e { s.ev d k e with count := (s.ev d k e).count - 1 }).withThr d n ((s.waited d n).done i.d (BitVec.ofNat 64 ((s.ev d k e).count - 1))))))
      ∧ (s.issues d n .evsigx i → e < 1023 → exec (.evsig d n) s = .next ((signalEv u d k e).asked d n i.d 0 0 i.u .syu))
      ∧ (s.issues d n .chputx i → e < 256 →
        (x.staged.length < 8 → (x.staged = [] ∨ x.stagedCh = e) → exec (.chput d n) s = .next ((markWait u d n).withThr d n { ((s.slotted d n).asks (s.exempt d n) i.d 0 0 i.u .syu) with staged := x.staged ++ [x.get i.b], stagedCh := e }))
        ∧ (8 ≤ x.staged.length → exec (.chput d n) s = .next (u.asked d n i.d 0 0x90 i.u .syu))
        ∧ (x.staged.length < 8 → x.staged ≠ [] → x.stagedCh ≠ e → exec (.chput d n) s = .next (u.asked d n i.d 0 0x91 i.u .syu)))
      ∧ (s.issues d n .chclosex i → e < 256 →
        ((x.staged = [] ∨ x.stagedCh ≠ e) → exec (.chclose d n) s = .next (u.asked d n i.d 0 0x92 i.u .syu))
        ∧ (x.staged ≠ [] → x.stagedCh = e → u.chFull d k e x.staged.length = true → exec (.chclose d n) s = .next ((u.bump .SYU_CH_FULL d).asked d n i.d (codeWord 0x28) 0 i.u .syu))
        ∧ (x.staged ≠ [] → x.stagedCh = e → u.chFull d k e x.staged.length = false →
            exec (.chclose d n) s = .next ((commitMsg (u.putThr d n { (s.slotted d n) with staged := [], stagedCh := 0 }) d k e x.staged).asked d n i.d 0 0 i.u .syu)))
      ∧ (s.issues d n .chgetx i → e < 256 → padAccess (x.get i.b) 64 8 = .good →
        (∀ m r, (s.chan d k e).msgs = m :: r → exec (.chget d n) s = .next (((u.setChan d k e { s.chan d k e with msgs := r }).putPad d k (x.get i.b).toNat (wordBytes m)).withThr d n ((s.waited d n).done i.d (BitVec.ofNat 64 m.length))))
        ∧ ((s.chan d k e).msgs = [] → exec (.chget d n) s = .next ((u.setChan d k e { s.chan d k e with waiters := (s.chan d k e).waiters ++ [n.val] }).waits d n i.d (.channel e) (x.get i.b)))))
    ∧ (s.issues d n .evsigx i → 1023 ≤ e → exec (.evsig d n) s = .next (u.faulted d n 3 (e % 2 ^ 32)))
    ∧ (s.issues d n .evwaitx i → 1024 ≤ e → exec (.evwait d n) s = .next (u.faulted d n 3 (e % 2 ^ 32)))
    ∧ (256 ≤ e →
      (s.issues d n .chputx i → exec (.chput d n) s = .next (u.faulted d n 3 (e % 2 ^ 32))) ∧ (s.issues d n .chclosex i → exec (.chclose d n) s = .next (u.faulted d n 3 (e % 2 ^ 32)))
      ∧ (s.issues d n .chgetx i → padAccess (x.get i.b) 64 8 = .good → exec (.chget d n) s = .next (u.faulted d n 3 (e % 2 ^ 32))))
    ∧ (s.issues d n .chgetx i → ∀ c y, padAccess (x.get i.b) 64 8 = .bad c y → exec (.chget d n) s = .next (u.faulted d n c y))
    ∧ (s.unitDown d unitSyu = true →
      (s.issues d n .evsigx i → e < 1023 → exec (.evsig d n) s = .next (u.asked d n i.d 0 2 i.u .syu))
      ∧ (s.issues d n .chputx i → e < 256 → exec (.chput d n) s = .next (u.asked d n i.d 0 2 i.u .syu))
      ∧ (s.issues d n .chclosex i → e < 256 → exec (.chclose d n) s = .next (u.asked d n i.d 0 2 i.u .syu))
      ∧ (∀ y : Thr, y = { (s.waited d n) with step := if x.step = 1 ∨ x.step = 2 then 1 else x.step, waited := true } →
        (s.issues d n .evwaitx i → e < 1024 → exec (.evwait d n) s = .next (u.withThr d n y))
        ∧ (s.issues d n .chgetx i → e < 256 → padAccess (x.get i.b) 64 8 = .good → exec (.chget d n) s = .next (u.withThr d n y))))

/-- EMIT, STAGE, RETIRE and TOHOST end the ticket that g2 names, and act on the frame of its entry, ga's handle being checked only (the model's reading, log 65), when its buffer is still the ticket's own: a pending entry becomes EMITTED with its destination, edit program and STAGE flag, RETIRED with its buffer freed, which RSQ_RETIRED counts, or HOSTED with reason 0 and its code, and a skipped one is freed with its buffer and counts in RSQ_LATE_DROP; no thread holds the ticket any longer (R234 to R237, R318). A g2 that names no such entry, a destination or edit program that is not valid, a code above 65,535, and a shared buffer, which RETIRE alone may end, fault with TF_RANGE and the low 32 bits of the operand as DETAIL (R236, R318; the DETAIL is the model's reading, log 47), a bad handle or a buffer no longer the ticket's with TF_BADHANDLE (R179, R236). -/
def Obligations.TicketsEnd : Prop :=
  ∀ (s : State) (d : Fin 8) (n : Fin 384) (i : RIns) (u : State) (x : Thr), u = countSlot s d n → x = s.thr d n →
    (∀ k r c e, s.namedEntry d (x.get i.b) = some (k, r) → u.handleGood d (handleOf (x.get i.a)) = true → s.allocated r.frame.handle = true →
      ((c = .emit d n ∧ s.issues d n .emitx i ∧ s.shareOf r.frame.handle = none ∧ u.destOk (x.get i.c) false = true ∧ u.editValid d (bitsOf (x.get i.c).toNat 39 32) = true
          ∧ e = { r with st := .emitted, dest := BitVec.ofNat 32 (x.get i.c).toNat, edit := bitsOf (x.get i.c).toNat 39 32, force := false })
        ∨ (c = .stage d n ∧ s.issues d n .stagex i ∧ s.shareOf r.frame.handle = none ∧ u.destOk (x.get i.c) true = true ∧ u.editValid d (bitsOf (x.get i.c).toNat 39 32) = true
          ∧ e = { r with st := .emitted, dest := BitVec.ofNat 32 (x.get i.c).toNat, edit := bitsOf (x.get i.c).toNat 39 32, force := true })
        ∨ (c = .retire d n ∧ s.issues d n .retirex i ∧ (∃ v, bfree u d r.frame.handle (threadCloser n) = (.done, v)) ∧ e = { r with st := .retired })
        ∨ (c = .tohost d n ∧ s.issues d n .tohostx i ∧ s.shareOf r.frame.handle = none ∧ (x.get i.c).toNat < 65536 ∧ e = { r with st := .hosted, reason := 0, code := (x.get i.c).toNat })) →
      ∃ t, exec c s = .next t ∧ (r.st = .pending → t.rob d k = some e ∧ (c ≠ .retire d n → t.bpm = s.bpm)) ∧ (r.st = .skipped → t.rsq.rob = mremove (robKey d k) s.rsq.rob)
        ∧ (∀ v, c = .retire d n → bfree u d r.frame.handle (threadCloser n) = (.done, v) → t.bpm = (freeMirror v r.frame.mirror).bpm)
        ∧ (c ≠ .retire d n → r.st = .skipped → t.bpm = (freeBoth s r.frame.handle r.frame.mirror).bpm)
        ∧ (s.Inv → (r.st = .skipped → counts s t .RSQ_LATE_DROP d [] 1) ∧ (r.st = .pending → c = .retire d n → counts s t .RSQ_RETIRED d [] 1))
        ∧ (t.thr d n).st = .helper ∧ (t.thr d n).ticket ≠ some k ∧ only [.regs, .bpm, .rsq, .cra, .tdx, .syu, .gwe, .free] s t)
    ∧ (s.namedEntry d (x.get i.b) = none →
      (s.issues d n .emitx i → exec (.emit d n) s = .next (u.faulted d n 3 ((x.get i.b).toNat % 2 ^ 32))) ∧ (s.issues d n .stagex i → exec (.stage d n) s = .next (u.faulted d n 3 ((x.get i.b).toNat % 2 ^ 32)))
      ∧ (s.issues d n .retirex i → exec (.retire d n) s = .next (u.faulted d n 3 ((x.get i.b).toNat % 2 ^ 32))) ∧ (s.issues d n .tohostx i → exec (.tohost d n) s = .next (u.faulted d n 3 ((x.get i.b).toNat % 2 ^ 32))))
    ∧ (∀ k r, s.namedEntry d (x.get i.b) = some (k, r) →
      ((s.issues d n .emitx i → (u.destOk (x.get i.c) false = false ∨ u.editValid d (bitsOf (x.get i.c).toNat 39 32) = false) → exec (.emit d n) s = .next (u.faulted d n 3 ((x.get i.c).toNat % 2 ^ 32)))
        ∧ (s.issues d n .stagex i → (u.destOk (x.get i.c) true = false ∨ u.editValid d (bitsOf (x.get i.c).toNat 39 32) = false) → exec (.stage d n) s = .next (u.faulted d n 3 ((x.get i.c).toNat % 2 ^ 32)))
        ∧ (s.issues d n .tohostx i → 65536 ≤ (x.get i.c).toNat → exec (.tohost d n) s = .next (u.faulted d n 3 ((x.get i.c).toNat % 2 ^ 32))))
      ∧ (∀ c, ((c = .emit d n ∧ s.issues d n .emitx i ∧ u.destOk (x.get i.c) false = true ∧ u.editValid d (bitsOf (x.get i.c).toNat 39 32) = true)
            ∨ (c = .stage d n ∧ s.issues d n .stagex i ∧ u.destOk (x.get i.c) true = true ∧ u.editValid d (bitsOf (x.get i.c).toNat 39 32) = true)
            ∨ (c = .retire d n ∧ s.issues d n .retirex i) ∨ (c = .tohost d n ∧ s.issues d n .tohostx i ∧ (x.get i.c).toNat < 65536)) →
        (∀ h, h = handleOf (x.get i.a) → u.handleGood d h = false → exec c s = .next ((u.bump .BPM_BADHANDLE d).faulted d n 4 (h % 2 ^ 32)))
        ∧ (u.handleGood d (handleOf (x.get i.a)) = true → s.allocated r.frame.handle = false → exec c s = .next ((u.bump .BPM_BADHANDLE d).faulted d n 4 (r.frame.handle % 2 ^ 32)))
        ∧ (u.handleGood d (handleOf (x.get i.a)) = true → s.allocated r.frame.handle = true → (s.shareOf r.frame.handle).isSome = true → c ≠ .retire d n →
            exec c s = .next (u.faulted d n 3 ((x.get i.a).toNat % 2 ^ 32)))))

/-- The supervisor reads registers, the PC, the status and the oldest fault record, stops threads of its cluster, unless in the cycle of their fault, and restarts them; any other thread faults with TF_PRIV, and a target or selector out of range, or a stop or restart of itself, faults with TF_RANGE (R285, R286, R288, R295, R320). The low 32 bits of an operand out of range as the DETAIL of its fault are the model's reading (log 47). -/
def Obligations.SupervisorInstructions : Prop :=
  ∀ (s : State) (d : Fin 8) (n : Fin 384) (i : RIns) (u : State) (x : Thr) (m k : Nat), s.Inv → u = countSlot s d n → x = s.thr d n → k = clusterOf n → m = k * 64 + (x.get i.a).toNat →
    (s.superOf d k ≠ some n.val →
      (s.issues d n .supreadx i → exec (.supread d n) s = .next (u.faulted d n 9 0))
      ∧ (s.issues d n .supstopx i → ∀ same, exec (.supstop d ⟨n, same⟩) s = .next (u.faulted d n 9 0))
      ∧ (s.issues d n .suprestartx i → exec (.suprestart d n) s = .next (u.faulted d n 9 0)))
    ∧ (s.superOf d k = some n.val → (x.get i.a).toNat ≤ 63 →
      (s.issues d n .supreadx i →
        ((x.get i.b).toNat ≤ 32 → exec (.supread d n) s = .next (u.asked d n i.d (if (x.get i.b).toNat = 32 then BitVec.ofNat 64 (s.thr d m).pc else (s.thr d m).get (x.get i.b).toNat) 0 i.u .other))
        ∧ ((x.get i.b).toNat = 33 → exec (.supread d n) s = .next (u.asked d n i.d (BitVec.ofNat 64 (s.threadStat d m).toNat) 0 i.u .other))
        ∧ ((x.get i.b).toNat = 34 → exec (.supread d n) s = .next (u.asked d n i.d (BitVec.ofNat 64 (((s.faultQ d k).head?.map (fun r => r.bits.toNat)).getD 0)) 0 i.u .other))
        ∧ ((x.get i.b).toNat = 35 → exec (.supread d n) s = .next ((u.setFaultQ d k ((s.faultQ d k).drop 1)).asked d n i.d (BitVec.ofNat 64 (((s.faultQ d k).head?.map (fun r => r.bits.toNat)).getD 0 / 2 ^ 64)) 0 i.u .other))
        ∧ (35 < (x.get i.b).toNat → exec (.supread d n) s = .next (u.faulted d n 3 ((x.get i.b).toNat % 2 ^ 32))))
      ∧ (s.issues d n .supstopx i → m ≠ n → (s.thr d m).st ≠ .idle → ∀ same,
        (same = true → (s.thr d m).st = .faulted → exec (.supstop d ⟨n, same⟩) s = .next (u.asked d n i.d 0 0 i.u .other))
        ∧ (¬ (same = true ∧ (s.thr d m).st = .faulted) → ∃ t, exec (.supstop d ⟨n, same⟩) s = .next t ∧ (t.thr d m).st = .stopped ∧ (t.thr d n).st = .helper ∧ only [.regs, .cra, .syu] s t))
      ∧ (s.issues d n .suprestartx i → m ≠ n → (s.thr d m).st ≠ .idle →
        ∃ t, exec (.suprestart d n) s = .next t ∧ t.thr d m = { st := .run, pc := s.restartPc d } ∧ (t.thr d n).st = .helper)
      ∧ (m = n → (s.issues d n .supstopx i → ∀ same, exec (.supstop d ⟨n, same⟩) s = .next (u.faulted d n 3 (x.get i.a).toNat)) ∧ (s.issues d n .suprestartx i → exec (.suprestart d n) s = .next (u.faulted d n 3 (x.get i.a).toNat))))
    ∧ (s.superOf d k = some n.val → 63 < (x.get i.a).toNat →
      (s.issues d n .supreadx i → exec (.supread d n) s = .next (u.faulted d n 3 ((x.get i.a).toNat % 2 ^ 32)))
      ∧ (s.issues d n .supstopx i → ∀ same, exec (.supstop d ⟨n, same⟩) s = .next (u.faulted d n 3 ((x.get i.a).toNat % 2 ^ 32)))
      ∧ (s.issues d n .suprestartx i → exec (.suprestart d n) s = .next (u.faulted d n 3 ((x.get i.a).toNat % 2 ^ 32))))

/-- TRAP stops the thread where it stands and counts under code 10 (R280, R320). A supervisor that is not down gets its record, with the bits of R281, in its fault queue, a record of the same thread that is still unread being replaced in its place with OVER, and event 1,023 is signalled (R282); otherwise the record goes to the Pilot with EV_SUPER_FAULT, and CRA_ESCALATED counts it (R283). Where the trace runs without a trigger mode and passes it, the trap is recorded with kind 5 (R342 to R344), its SUB being a free value (log 9). -/
def Obligations.TrapsFault : Prop :=
  ∀ (s : State) (d : Fin 8) (n : Fin 384) (i : RIns) (k : Nat) (r : TrIn), s.Inv → s.issues d n .trapx i → k = clusterOf n →
    r = { kind := 5, thread := some n, list := (s.thr d n).list, pc := (s.thr d n).pc, tkt := s.trTkt d (s.thr d n).ticket, arg := 10 } →
    ∃ t, exec (.trap d n) s = .next t ∧ only [.regs, .cra, .tdx, .syu, .gwe, .free] s t ∧ counts s t .CRA_FAULTS d [9] 1
      ∧ (n.val ∉ (s.ev d k 1023).waiters → t.thr d n = { s.slotted d n with st := .faulted, step := 0, pend := none, wait := none, hadFault := true })
      ∧ ((∀ m, ¬ s.takesFault d n m) → thrKey d n ∈ t.cra.esc ∧ (∀ c, t.faultQ d c = s.faultQ d c) ∧ (∀ c e, t.ev d c e = s.ev d c e) ∧ counts s t .CRA_ESCALATED d [] 1
        ∧ (s.trcRun d = false → s.gwe.evLost = 0 → s.gwe.evq.length < 4096 → ∃ e, t.gwe.evq = s.gwe.evq ++ [e] ∧ e.code = 0x0601 ∧ e.die = d.val))
      ∧ (∀ m, s.takesFault d n m → t.cra.esc = s.cra.esc ∧ (∀ c, c ≠ k → t.faultQ d c = s.faultQ d c)
        ∧ ((∀ x ∈ s.faultQ d k, x.thread ≠ n.val % 64) → t.faultQ d k = s.faultQ d k ++ [FaultRec.mk (n.val % 64) (faultBits s d n 10 i.imm)])
        ∧ ((∃ x ∈ s.faultQ d k, x.thread = n.val % 64) → counts s t .CRA_FAULT_OVER d [] 1
          ∧ t.faultQ d k = (s.faultQ d k).map (fun x => if x.thread = n.val % 64 then { x with bits := faultBits s d n 10 i.imm ||| BitVec.ofNat 128 (2 ^ 25) } else x))
        ∧ (∀ w ws, (s.ev d k 1023).waiters = w :: ws → w ≠ n.val → t.ev d k 1023 = { s.ev d k 1023 with waiters := ws }
          ∧ t.thr d w = (s.thr d w).done (s.thr d w).rd (BitVec.ofNat 64 (s.ev d k 1023).count))
        ∧ ((s.ev d k 1023).waiters = [] →
          ((s.ev d k 1023).count < 65535 → t.ev d k 1023 = { s.ev d k 1023 with count := (s.ev d k 1023).count + 1 })
          ∧ (65535 ≤ (s.ev d k 1023).count → t.ev d k 1023 = s.ev d k 1023 ∧ counts s t .SYU_EV_SAT d [] 1)))
      ∧ ((s.trcRun d = false ∨ s.trcPass d r = false) → t.tdx = s.tdx ∧ t.free = s.free)
      ∧ (s.trcRun d = true → s.trcPass d r = true → s.trcTmode d = 0 → s.trcMode d = 0 → (s.trc d).lost = 0 → (s.trc d).post = none →
        ∃ sub, mget 0 t.tdx.ring (d * 65536 + s.rf .TDX_TRC_WR d [] 15 0) = recBits s d r sub ∧ t.rf .TDX_TRC_WR d [] 15 0 = (s.rf .TDX_TRC_WR d [] 15 0 + 1) % 65536 ∧ t.free = s.free + 1)

/-! Threads under the host, the helpers and the supervisor (spec/09). -/

/-- A reply ends a thread's wait in HELPER: its value is written and the thread goes on, an error is written as a code word where U is 0 and faults with TF_HELPER where it is 1; a table request that waited for the FWT is served now, or waits on (R262, R265, R276, R277). A timeout of a request that leaves nothing behind is error 1 and counts (R276, R277). A thread past its slot limit faults, with its slots as DETAIL where the model has counted them all and a free value where slots in HELPER or of a fetch repair come in (R279; log 9); a breakpoint halts its thread (R290); the Pilot restarts a faulted thread whose record it has (R283, R288). -/
def Obligations.ThreadsReplyAndStop : Prop :=
  ∀ (s : State) (d : Fin 8) (n : Fin 384), s.Inv → d < s.dies →
    (∀ p, (s.thr d n).pend = some p → (s.thr d n).st = .helper → p.arrived = false →
      ((∀ k, p.kind ≠ .remote k) → (∀ q, p.kind ≠ .fwt q) →
        (p.err = 0 → exec (.helperReply d n false) s = .next (s.withThr d n ((s.thr d n).done p.rd p.value)))
        ∧ (∀ uncorr e, e = (if uncorr then 3 else p.err) → e ≠ 0 →
          (p.u = false → exec (.helperReply d n uncorr) s = .next (s.withThr d n ((s.thr d n).done p.rd (codeWord e))))
          ∧ (p.u = true → exec (.helperReply d n uncorr) s = .next (lapse (faultThread s d n 7 e) d))))
      ∧ (∀ q, p.kind = .fwt q → p.err = 0 →
        (s.unitDown d unitFwt = false → ∀ v t, tableNow s d q = (v, t) → exec (.helperReply d n false) s = .next (t.withThr d n ((s.thr d n).done p.rd v)))
        ∧ (s.unitDown d unitFwt = true → exec (.helperReply d n false) s = .next (lapse s d)))
      ∧ ((p.kind = .other ∨ p.kind = .tdx ∨ p.kind = .syu) → s.rf .CRA_HELPER_TMO d [] 15 0 ≠ 0 →
        (p.u = false → exec (.helperTimeout d n) s = .next ((s.bump .CRA_HELPER_TMO_CNT d).withThr d n ((s.thr d n).done p.rd (codeWord 1))))
        ∧ (p.u = true → exec (.helperTimeout d n) s = .next (lapse (faultThread (s.bump .CRA_HELPER_TMO_CNT d) d n 7 1) d))))
    ∧ ((s.thr d n).st = .run → (s.slotLimit d n).isSome = true →
      (s.pastLimit d n = true → (s.thr d n).helped = false → s.psIsBad d (clusterOf n) (s.thr d n).pc = false →
        exec (.runaway d n) s = .next (lapse (faultThread s d n 8 (s.thr d n).slots) d))
      ∧ (((s.thr d n).helped = true ∨ s.psIsBad d (clusterOf n) (s.thr d n).pc = true) → ∃ v, exec (.runaway d n) s = .next (lapse (faultThread s.takeFree.2 d n 8 v) d)))
    ∧ (s.bpMatch d n = true →
      ∃ t, exec (.breakpointHit d n) s = .next t ∧ t.thr d n = { s.thr d n with st := .halted, was := .run, step := 0, waited := true } ∧ only [.regs, .cra, .syu] s t)
    ∧ (thrKey d n ∈ s.cra.esc → bit (s.reg .CRA_CFG d []) 30 = true → (s.thr d n).st = .faulted →
      ∃ t, exec (.pilotThreadRestart d n) s = .next t ∧ t.thr d n = { st := .run, pc := s.restartPc d } ∧ t.cra.esc = lrem (thrKey d n) s.cra.esc)

/-- The host stops, restarts, halts, resumes and steps a thread: the state that the thread is in then (R265, R286 to R288, R291, R293), a stop in the cycle of a fault of the thread doing nothing (R295); a halt leaves a thread that is IDLE, HALTED, FAULTED or STOPPED, a resume or step one that is not HALTED (R265); a thread that goes on waiting in HELPER uses slots of which the model keeps no number (R279; log 9). Without DEBUG_EN the last three are denied, and with another generation none has an effect (R287, R289, R296). -/
def Obligations.HostControlsThreads : Prop :=
  ∀ (s : State) (d : Fin 8) (n : Fin 384) (exp : BitVec 16), s.Inv → d < s.dies → s.glb.mode.any = true → s.excluded d = false →
    (genOk exp.toNat (s.gen .CRA_STATE d) = true →
      (∀ same, (s.thr d n).st ≠ .idle →
        (same = true → (s.thr d n).st = .faulted → exec (.threadStop d n ⟨exp, same⟩) s = .next (wrResult (.ok, lapse s d)))
        ∧ (¬ (same = true ∧ (s.thr d n).st = .faulted) →
          ∃ t, exec (.threadStop d n ⟨exp, same⟩) s = .next t ∧ (t.thr d n).st = .stopped ∧ (∀ r, (t.thr d n).get r = (s.thr d n).get r) ∧ only [.regs, .cra, .syu, .gwe] s t))
      ∧ ((s.thr d n).st ≠ .idle → ∃ t, exec (.threadRestart d n exp) s = .next t ∧ t.thr d n = { st := .run, pc := s.restartPc d })
      ∧ (s.debugEn d = true →
        (((s.thr d n).st = .run ∨ (s.thr d n).st = .helper ∨ (s.thr d n).st = .sync ∨ (s.thr d n).st = .twait) →
          ∃ t, exec (.threadHalt d n exp) s = .next t ∧ t.thr d n = { s.thr d n with st := .halted, was := (s.thr d n).st, step := 0, waited := true } ∧ only [.regs, .cra, .syu, .gwe] s t)
        ∧ (((s.thr d n).st = .idle ∨ (s.thr d n).st = .halted ∨ (s.thr d n).st = .faulted ∨ (s.thr d n).st = .stopped) → exec (.threadHalt d n exp) s = .next (wrResult (.ok, lapse s d)))
        ∧ ((s.thr d n).st = .halted → (∀ p, (s.thr d n).pend = some p → p.arrived = false) → ((s.thr d n).was = .twait → s.thrEn d n = true) →
          (∃ t, exec (.threadResume d n exp) s = .next t ∧ t.thr d n = { s.thr d n with st := (s.thr d n).was, step := 0, helped := (s.thr d n).helped || (decide ((s.thr d n).was = .helper) && !s.exempt d n) } ∧ only [.regs, .cra, .syu, .gwe] s t)
          ∧ (∃ t, exec (.threadStep d n exp) s = .next t ∧ t.thr d n = { s.thr d n with st := (s.thr d n).was, step := 1, helped := (s.thr d n).helped || (decide ((s.thr d n).was = .helper) && !s.exempt d n) } ∧ only [.regs, .cra, .syu, .gwe] s t))
        ∧ ((s.thr d n).st ≠ .halted → exec (.threadResume d n exp) s = .next (wrResult (.ok, lapse s d)) ∧ exec (.threadStep d n exp) s = .next (wrResult (.ok, lapse s d))))
      ∧ (s.debugEn d = false →
        exec (.threadHalt d n exp) s = .next (wrResult (.denied, lapse s d)) ∧ exec (.threadResume d n exp) s = .next (wrResult (.denied, lapse s d))
          ∧ exec (.threadStep d n exp) s = .next (wrResult (.denied, lapse s d))))
    ∧ (genOk exp.toNat (s.gen .CRA_STATE d) = false →
        (∀ same, exec (.threadStop d n ⟨exp, same⟩) s = .next (wrResult (.stale, lapse s d))) ∧ exec (.threadRestart d n exp) s = .next (wrResult (.stale, lapse s d))
        ∧ exec (.threadHalt d n exp) s = .next (wrResult (.stale, lapse s d)) ∧ exec (.threadResume d n exp) s = .next (wrResult (.stale, lapse s d)) ∧ exec (.threadStep d n exp) s = .next (wrResult (.stale, lapse s d)))

/-- Program stores, the register window, DEBUG_EN and the supervisor of a cluster: a check compares the images and takes the CRC of the first (R268); a corrected word counts, a bad word is repaired from a good copy, and without one the fetches that wait for it fault (R269); the window reads and writes a register or the PC of a thread that is open, is busy for another, and for a number that no thread has (the model's reading, log 15), and denied to a write without DEBUG_EN (R289, R294); clearing DEBUG_EN resumes the halted threads (R289); a new supervisor is a new generation (R284); both may end an exemption, and mark the threads that wait with slots of which the model keeps no number (R279; log 9). -/
def Obligations.ProgramsAndDebug : Prop :=
  ∀ (s : State) (d : Fin 8), s.Inv → d < s.dies →
    (s.rf .CRA_PS_CHECK d [] 30 30 = 1 → ∃ t, exec (.psCheckDone d) s = .next t ∧ only [.regs] s t ∧ t.reg .CRA_PS_CRC d [] = BitVec.ofNat 32 (s.psCrc d 0)
        ∧ t.rf .CRA_PS_CHECK d [] 5 0 = maskOf ((List.range 6).filter (fun k => decide (s.psImage d k ≠ s.psImage d 0))) ∧ t.rf .CRA_PS_CHECK d [] 30 30 = 0)
    ∧ (∀ (k : Fin 6) (a : Fin 32768),
        exec (.psFetchRepair d k ⟨a, true⟩) s = .next (lapse (s.bump .CRA_PS_ECC_CORR d) d)
        ∧ (s.psIsBad d k a = true →
          (∀ w, s.psGood d k a = some w → ∃ t, exec (.psFetchRepair d k ⟨a, false⟩) s = .next t ∧ t.cra.ps = mset 0 s.cra.ps (psKey d k a) w ∧ t.cra.psBad = lrem (psKey d k a) s.cra.psBad
            ∧ (∀ e m, (t.thr e m).st = (s.thr e m).st ∧ (t.thr e m).pc = (s.thr e m).pc) ∧ only [.regs, .cra, .syu] s t)
          ∧ (s.psGood d k a = none → exec (.psFetchRepair d k ⟨a, false⟩) s = .next (lapse ((s.fetching d k a).foldl (fun t n => faultThread t d n 1 1) s) d))))
    ∧ (s.glb.mode.any = true → s.excluded d = false →
      exec (.psCheckStart d) s = .next (wrResult (.ok, s.setRf .CRA_PS_CHECK d [] 30 30 1))
      ∧ (∀ n r, s.rf .CRA_DBG_SEL d [] 8 0 = n → s.rf .CRA_DBG_SEL d [] 14 9 = r →
        (n < 384 → (s.thr d n).open_ = true →
          (∃ t, exec (.dbgRegRead d) s = .next t ∧ only [.regs, .gwe] s t ∧ t.gwe.results = [{ opcode := 0x10, tag := 0, status := .ok, data := beBytes 4 ((s.dbgValue d n r).toNat % 2 ^ 32) }]
              ∧ t.reg .CRA_DBG_HI d [] = BitVec.ofNat 32 ((s.dbgValue d n r).toNat / 2 ^ 32))
          ∧ (∀ w, s.debugEn d = true → ∃ t, exec (.dbgRegWrite d w) s = .next t ∧ only [.regs, .cra, .gwe] s t
              ∧ (r < 32 → t.thr d n = (s.thr d n).set r (BitVec.ofNat 64 (w.toNat * 2 ^ 32 + (s.reg .CRA_DBG_LO d []).toNat)))
              ∧ (r = 32 → (s.thr d n).st = .halted → t.thr d n = { s.thr d n with pc := (s.reg .CRA_DBG_LO d []).toNat % 32768 })
              ∧ (r = 32 → (s.thr d n).st ≠ .halted → t.thr d n = s.thr d n)))
        ∧ (¬ (n < 384 ∧ (s.thr d n).open_ = true) →
          (∃ t, exec (.dbgRegRead d) s = .next t ∧ only [.gwe] s t ∧ t.gwe.results = [{ opcode := 0x10, tag := 0, status := .busy, data := [] }])
          ∧ (∀ w, s.debugEn d = true → exec (.dbgRegWrite d w) s = .next (wrResult (.busy, s))))
        ∧ (∀ w, s.debugEn d = false → exec (.dbgRegWrite d w) s = .next (wrResult (.denied, s))))
      ∧ (∀ w, s.debugEn d = true → bit w 31 = false → exec (.debugEnClear d w) s = .next (wrResult (.ok,
          lapse ((List.range 384).foldl (fun t n => resumeThread t d n) (noteHelped s (s.setReg .CRA_CFG d [] (packWord [(31, fld w 31 31), (30, fld w 30 30), (29, fld w 29 29)])) d (List.range 384))) d)))
      ∧ (∀ (k : Fin 6) w, packWord [(31, fld w 31 31), (0, fld w 5 0)] ≠ s.reg .CRA_SUPER d [k] →
          exec (.supervisorSet d k w) s = .next (wrResult (.ok, lapse (bumpCra (noteHelped s (s.setReg .CRA_SUPER d [k] (packWord [(31, fld w 31 31), (0, fld w 5 0)])) d (clusterThreads k)) d) d))))

/-! Tasks and the trace (spec/11). -/

/-- The lists of a higher priority, and within a priority those whose turn is earlier, come first: where no task of them moves, the oldest task of the next that can move goes to a waiting thread of its affinity core, or without one of the fullest core, and the turn passes on (R311, R328, R329, R332, R333); an affinity wait ends unserved (R332); an expired delayed task joins its ready list (R337); a remote post arrives and is placed, refused or answered with error 0x02 (R325, R341); the affinity table is cleared (R331); the host injects a task (R326, R398). -/
def Obligations.TasksMove : Prop :=
  ∀ (s : State) (d : Fin 8), d < s.dies →
    (s.tdxUp d = true →
      (∀ prio pre l ls as t r c hit, prio ≤ 3 → (∀ q, q < prio → ∀ m ∈ s.turnOrder d q, s.listIdle d m) →
        s.turnOrder d prio = pre ++ l :: ls → (∀ m ∈ pre, s.listIdle d m) → s.readyList d l = as ++ t :: r → (∀ a ∈ as, s.taskStays d l a) → t ∉ as → t.list = l →
        ((hit = false ∧ (t.waited = true ∨ (t.held = none ∧ s.affCore d t = none)) ∧ s.fallbackCore d l = some c) ∨ (hit = true ∧ t.waited = false ∧ s.waitCore d t = some c ∧ s.waitersOf d l c ≠ [])) →
        ∃ n u, n ∈ s.waitersOf d l c ∧ u = deliver s.takeFree.2 d n t hit ∧ exec (.taskDeliver d) s = .next (lapse { u with tdx := { u.tdx with rr := mset 0 u.tdx.rr (d.val * 4 + prio) ((l + 1) % 64) } } d)
          ∧ (u.thr d n).pc = t.entry ∧ (u.thr d n).ticket = t.ticket ∧ (s.Inv → ∀ i, 1 ≤ i → i ≤ 6 → (u.thr d n).get i = t.args.getD (i - 1) 0) ∧ u.tdx.ready = mset [] s.tdx.ready (d.val * 64 + l) (as ++ r))
      ∧ (∀ (l : Fin 64) t c, (s.readyList d l).find? (fun t => t.held.isSome) = some t → s.waitCore d t = some c → s.waitersOf d l c = [] →
        exec (.affinityWaitEnd d l) s = .next (lapse (tryFallback (waitUnserved s d t c) d { t with held := none, waited := true }).2 d))
      ∧ (∀ i x, s.expired d = some (i, x) →
        ∃ t, exec (.delayExpiry d) s = .next t ∧ only [.regs, .tdx, .gwe, .free] s t ∧ t.tdx.delay = mset [] s.tdx.delay (d.val * 8 + i) ((s.delayList d i).drop 1)
          ∧ t.tdx.ready = mset [] s.tdx.ready (d.val * 64 + x.task.list) (s.readyList d x.task.list ++ [x.task])))
    ∧ (∀ f v, s.tdx.flight.find? (fun f => f.dst = d.val) = some f → v = ({ s with tdx := { s.tdx with flight := lrem f s.tdx.flight } } : State) →
      (s.unitDown d unitTdx = true → exec (.remoteTaskArrive d) s = .next (lapse (answerPost v f 2) d))
      ∧ (s.unitDown d unitTdx = false → ∀ c u, tryPost v d f.task f.delay = (c, u) →
        (c = 0 → exec (.remoteTaskArrive d) s = .next (lapse (answerPost ((u.bump .TDX_REMOTE_IN d).bump .TDX_POSTED d) f 0) d))
        ∧ (c ≠ 0 → exec (.remoteTaskArrive d) s = .next (lapse (answerPost u f c) d))))
    ∧ (∀ w, s.glb.mode.any = true → s.excluded d = false → bit w 31 = true →
      ∃ t, exec (.affinityClear d w) s = .next t ∧ only [.regs, .tdx, .gwe] s t ∧ t.tdx = { s.tdx with aff := mdrop (fun k => k / 4096 = d.val) s.tdx.aff })
    ∧ (∀ (a : InjectArgs) task, a.die = d.val → a.die ∈ s.liveDies → s.glb.mode.threads = true → a.ready ≤ 63 → a.entry.toNat ≤ 32767 → a.args.length ≤ 6 → s.unitDown a.die unitTdx = false →
      task = { args := (List.range 6).map (fun i => a.args.getD i 0), entry := a.entry.toNat, list := a.ready, key := a.key, ticket := none, held := none, waited := false } →
        (∀ u, tryPost s a.die task a.delay.toNat = (0, u) → exec (.taskInject a) s = .next ((postRec (u.bump .TDX_INJECTED a.die) a.die a.die false none task a.delay.toNat).answered 0x60 .ok []))
        ∧ (∀ c u, tryPost s a.die task a.delay.toNat = (c, u) → c ≠ 0 → exec (.taskInject a) s = .next (u.answered 0x60 .noroom [])))

/-- The trace: a write of TDX_TRC_CTL sets RUN, and RUN = 1 clears TRIGGERED and STOPPED; records not yet copied stay where the ring stays in a spill mode, elsewhere the ring counts anew (R346; the last is the model's choice, log 71). A mark goes into a ring that wraps (R343, R346); a record is spilled, with the stack lost writing stops, and once it has stopped nothing is spilled (R346). When a record spilled makes room, the record with the number of those lost follows at once (R346). The time of a record within its step is a free value (log 9). -/
def Obligations.TraceRunsAndSpills : Prop :=
  ∀ (s : State) (d : Fin 8), s.Inv → d < s.dies →
    (∀ w, s.glb.mode.any = true → s.excluded d = false →
      (∃ t, exec (.traceControlWrite d w) s = .next t ∧ only [.regs, .tdx, .gwe] s t ∧ t.trcRun d = bit w 31 ∧ (bit w 31 = true → t.rf .TDX_TRC_WR d [] 31 30 = 0)
        ∧ t.tdx.trc = mmod {} s.tdx.trc d (fun x => if 2 ≤ s.trcMode d ∧ 2 ≤ fld w 30 29 then { x with post := none } else { x with count := 0, post := none, nextSpill := s.rf .TDX_TRC_WR d [] 15 0 }))
      ∧ (s.trcRun d = true → s.trcMode d = 0 → s.trcTmode d = 0 → (s.trc d).lost = 0 →
        ∃ t sub, exec (.traceMark d w) s = .next t ∧ only [.regs, .tdx, .gwe, .free] s t
          ∧ t.tdx.ring = mset 0 s.tdx.ring (d.val * 65536 + s.rf .TDX_TRC_WR d [] 15 0) (recBits s d { kind := 8, arg := fld w 21 0 } sub)
          ∧ t.rf .TDX_TRC_WR d [] 15 0 = (s.rf .TDX_TRC_WR d [] 15 0 + 1) % 65536))
    ∧ (2 ≤ s.trcMode d → (s.trc d).count ≠ 0 →
      (bit (s.reg .TDX_TRC_WR d []) 30 = true → exec (.traceSpill d) s = .next s)
      ∧ (bit (s.reg .TDX_TRC_WR d []) 30 = false → nbit s.ssc.lost d = false → ∃ t, exec (.traceSpill d) s = .next t ∧ only [.regs, .tdx, .ssc, .gwe, .free] s t
          ∧ t.tdx.spill = mset 0 s.tdx.spill (d.val * 0x1000000 + s.rf .TDX_TRC_SPILL d [] 23 0) (mget 0 s.tdx.ring (d.val * 65536 + (s.trc d).nextSpill))
          ∧ ((s.trc d).lost = 0 → only [.regs, .tdx, .ssc] s t ∧ t.tdx.ring = s.tdx.ring ∧ (t.trc d).count = (s.trc d).count - 1)
          ∧ (∀ r : TrIn, r = { kind := 9, arg := min (2 ^ 22 - 1) (s.trc d).lost } → (s.trc d).lost ≠ 0 → s.trcRun d = true → s.trcTmode d = 0 → (s.trc d).post = none → s.trcPass d r = true →
              ¬ (s.trcMode d = 3 ∧ s.rf .TDX_TRC_SPILL d [] 23 0 = 0xFFFFFF) →
              ∃ sub, t.tdx.ring = mset 0 s.tdx.ring (d.val * 65536 + s.rf .TDX_TRC_WR d [] 15 0) (recBits s d r sub) ∧ (t.trc d).lost = 0 ∧ (t.trc d).count = (s.trc d).count))
      ∧ (bit (s.reg .TDX_TRC_WR d []) 30 = false → nbit s.ssc.lost d = true → ∃ t, exec (.traceSpill d) s = .next t ∧ only [.regs, .tdx] s t ∧ t.trcRun d = false ∧ t.tdx.spill = s.tdx.spill))

/-! The host and the synchronisation unit (spec/12). -/

/-- The host forces a lock free, which does nothing where an UNLOCK in the same cycle frees it, signals an event, puts a message into a channel, looks at an object and clears the abandoned marks (R355, R357, R361, R366, R368 to R370); the watch reports a stranded cluster (R364). -/
def Obligations.HostUsesTheSyu : Prop :=
  ∀ (s : State) (d : Fin 8), d < s.dies →
    (∀ w, s.glb.mode.any = true → s.excluded d = false →
      (genOk (fld w 31 16) (s.gen .SYU_STATE d) = true → exec (.hostLockForce d ⟨w, false⟩) s = .next (wrResult (.ok, lapse (forceLock s d (fld w 13 0)) d)) ∧ exec (.hostLockForce d ⟨w, true⟩) s = .next (wrResult (.ok, lapse s d)))
      ∧ (genOk (fld w 31 16) (s.gen .SYU_STATE d) = false → ∀ same, exec (.hostLockForce d ⟨w, same⟩) s = .next (wrResult (.stale, lapse s d)))
      ∧ (fld w 12 10 ≤ 5 → fld w 9 0 ≠ 1023 → exec (.hostEventSignal d w) s = .next (wrResult (.ok, lapse (signalEv s d (fld w 12 10) (fld w 9 0)) d)))
      ∧ ((5 < fld w 12 10 ∨ fld w 9 0 = 1023) → exec (.hostEventSignal d w) s = .next (wrResult (.badaddr, lapse s d)))
      ∧ (fld w 18 16 ≤ 5 → 1 ≤ fld w 11 8 → fld w 11 8 ≤ 8 →
        (s.chFull d (fld w 18 16) (fld w 7 0) (fld w 11 8) = false → exec (.hostChannelPut d w) s = .next (wrResult (.ok, lapse (commitMsg s d (fld w 18 16) (fld w 7 0) (s.hputWords d (fld w 11 8))) d)))
        ∧ (s.chFull d (fld w 18 16) (fld w 7 0) (fld w 11 8) = true → exec (.hostChannelPut d w) s = .next (wrResult (.noroom, lapse (s.bump .SYU_CH_FULL d) d))))
      ∧ ((5 < fld w 18 16 ∨ fld w 11 8 = 0 ∨ 8 < fld w 11 8) → exec (.hostChannelPut d w) s = .next (wrResult (.badaddr, lapse s d)))
      ∧ (∀ k i, k = fld w 18 16 → i = fld w 13 0 →
        (((fld w 31 30 = 2 ∧ (1023 < i ∨ 5 < k)) ∨ (fld w 31 30 = 3 ∧ (255 < i ∨ 5 < k))) → exec (.inspectSelect d w) s = .next (wrResult (.badaddr, s)))
        ∧ (s.Inv → ¬ ((fld w 31 30 = 2 ∧ (1023 < i ∨ 5 < k)) ∨ (fld w 31 30 = 3 ∧ (255 < i ∨ 5 < k))) →
          ∃ t, exec (.inspectSelect d w) s = .next t ∧ only [.regs, .gwe] s t
            ∧ t.reg .SYU_INSP_DATA d [] =
              (if fld w 31 30 = 1 then packWord [(31, b2n (s.lock d i).holder.isSome), (30, b2n (s.lock d i).abandoned), (21, (s.lock d i).holder.getD 0), (12, (s.lock d i).waiters.length)]
               else if fld w 31 30 = 2 then packWord [(16, (s.ev d k i).waiters.length), (0, (s.ev d k i).count)]
               else if fld w 31 30 = 3 then packWord [(31, b2n (s.chExt d k i)), (25, (s.chan d k i).msgs.length), (16, (s.chan d k i).words % 512), (9, (s.chan d k i).waiters.length)]
               else 0)))
      ∧ (bit w 31 = true → (s.glb.mode = .provision → exec (.clearAbandon d w) s = .next (wrResult (.ok, clearMarks s d))) ∧ (s.glb.mode ≠ .provision → exec (.clearAbandon d w) s = .next (wrResult (.mode, s)))))
    ∧ (∀ k : Fin 6, bit (s.reg .SYU_WATCH d []) 31 = true → s.strandedNow d k = true → (s.watch d k).reported = false → s.glb.mode.threads = true →
      exec (.strandedReport d k) s = .next (lapse (strandReport s d k) d))

/-! The Gangway (spec/13). -/

/-- Frames, identity, claims and sessions: a frame of at most 9,600 bytes on the attachment in use and in the form in use is taken up, a protected one only when it verifies; other frames are discarded, on the standby attachment and unverified ones with a count (R371 to R373); one that fails its verification counts whatever it carries, one that passes in another form is only a sign of life of the host (R373, R406), and a repetition of the CLAIM accepted last is answered under the association before it (R385); that neither a standby nor an over-long frame counts in GWE_RX_FRAMES, while an unverified one does (log 20), and that one of another form is ignored without a count (log 35) is the model's reading. It is held during a takeover or a warm reset, and otherwise meets the cases of R377 in their order, as its bytes spell it (R372, R375 to R377, R380 to R382, R416, R453), where the head of the reply to a malformed frame, the size of a reply and that an empty unprotected frame is not sessionless are the model's reading (log 18); every command of a frame that is executed gets one result with its tag, and under STOP those after a failure are skipped (R375, R376, R379); IDENTIFY replaces the nonce (R383), CLAIM makes the owner and enters PROVISION from LISTEN (R385), OPEN and CLOSE change their session alone (R380). -/
def Obligations.SessionsAndFrames : Prop :=
  (∀ (s t : State) (f : GwFrame), t = s.bump .GWE_RX_FRAMES 0 →
    ((s.hostPortOn = false ∨ 9600 < frameLen f) → exec (.commandFrame f) s = .next s)
    ∧ (s.hostPortOn = true → frameLen f ≤ 9600 → f.attB ≠ s.gwe.active → exec (.commandFrame f) s = .next (s.bump .GWE_STANDBY_DROP 0))
    ∧ (s.hostPortOn = true → frameLen f ≤ 9600 → f.attB = s.gwe.active → f.dst ≠ Config.factoryAddress → exec (.commandFrame f) s = .next s)
    ∧ (s.hostPortOn = true → frameLen f ≤ 9600 → f.attB = s.gwe.active → f.dst = Config.factoryAddress →
      (f.prot = true → verifyFrame t f = none → exec (.commandFrame f) s = .next (t.bump .GWE_MACSEC_DROP 0))
      ∧ (f.prot = false → s.carries f = false → exec (.commandFrame f) s = .next s)
      ∧ (∀ v, f.prot = true → verifyFrame t f = some v → s.carries f = false → exec (.commandFrame f) s = .next { s with gwe := v.gwe })
      ∧ (s.carries f = true → ∀ u, ((f.prot = false ∧ u = t) ∨ (f.prot = true ∧ ∃ v, verifyFrame t f = some v ∧ u = noteHost v (encapPeer f.encap))) →
        (u.holds = true → exec (.commandFrame f) s = .next { u with gwe := { u.gwe with held := u.gwe.held ++ [f] } })
        ∧ (u.holds = false → frameReq f = none → exec (.commandFrame f) s = .next (refuse (u.bump .GWE_MALFORMED 0) (frameHead f) .badaddr))
        ∧ (u.holds = false → ∀ m, frameReq f = some m →
          (looseFrame m = true → m.cmds.length ≤ 64 → replySize m ≤ 9600 → exec (.commandFrame f) s = .next (executeFrame u m))
          ∧ (looseFrame m = true → (64 < m.cmds.length ∨ 9600 < replySize m) → exec (.commandFrame f) s = .next (refuse u m .noroom))
          ∧ (looseFrame m = false → m.prot = false → exec (.commandFrame f) s = .next (refuse (u.bump .GWE_AUTH_FAIL 0) m .auth))
          ∧ (looseFrame m = false → m.prot = true →
            (∀ r, u.cachedReply m = some r → exec (.commandFrame f) s = .next (answerFrame (u.bump .GWE_DUP 0) m { r with form := u.form m.peer, dst := m.src }))
            ∧ (u.cachedReply m = none → opensFirst m = false → (u.sess m.session).opened = false → exec (.commandFrame f) s = .next (refuse u m .denied))
            ∧ (u.cachedReply m = none → opensFirst m = false → (u.sess m.session).opened = true → (u.sess m.session).inWindow m.seq.toNat = false →
                exec (.commandFrame f) s = .next (refuse (u.bump .GWE_BADSEQ 0) m .badseq))
            ∧ (u.cachedReply m = none → (opensFirst m = true ∨ ((u.sess m.session).opened = true ∧ (u.sess m.session).inWindow m.seq.toNat = true)) →
                (m.cmds.length ≤ 64 → replySize m ≤ 9600 → exec (.commandFrame f) s = .next (executeFrame u m))
                ∧ ((64 < m.cmds.length ∨ 9600 < replySize m) → exec (.commandFrame f) s = .next (refuse u m .noroom))))))))
  ∧ (∀ (f : GwReq) (first failed : Bool) (l : List GwCmd) (s : State),
      (runCmds f first failed l s).1.map (fun r => (r.opcode, r.tag)) = l.map (fun c => (opCode c.op, c.tag))
      ∧ (f.stop = true → failed = true → (runCmds f first failed l s).2.2 = s ∧ ∀ r ∈ (runCmds f first failed l s).1, r.status = .aborted ∧ r.data = []))
  ∧ (∀ (s : State) (h : List Byte), s.glb.mode ≠ .reset →
      exec (.identify h) s = .next (({ s with gwe := { s.gwe with dnonce := some s.nextNonce, draws := s.gwe.draws + 1 } } : State).answered 0x01 .ok (s.identity h)))
  ∧ (∀ (s : State) (a : ClaimArgs), s.glb.mode.claims = true →
      (∀ b r, s.gwe.lastClaim = some (b, r) → sameClaim a b = true → exec (.claim a) s = .next (s.answered 0x02 .ok r))
      ∧ ((∀ b r, s.gwe.lastClaim = some (b, r) → sameClaim a b = false) →
        (∀ e, s.claimFault a = some e → exec (.claim a) s = .next (s.answered 0x02 e []))
        ∧ (s.claimFault a = none → ∃ t, exec (.claim a) s = .next t ∧ t.gwe.results = [{ opcode := 0x02, tag := 0, status := .ok, data := s.claimReply a }]
            ∧ t.gwe.owner = some (padTo 96 a.owner) ∧ t.gwe.hostMac = a.src ∧ t.gwe.ukey = padTo 48 a.ukey ∧ t.glb.mode = (if s.glb.mode = .listen then .provision else s.glb.mode)
            ∧ (s.gwe.owner.isSome = true → a.prot = false → t.gwe.sess = [{}, {}, {}, {}]) ∧ only [.regs, .glb, .lpx, .ssc, .gwe, .plt, .free] s t)))
  ∧ (∀ (s : State) (i : Fin 4) (seq : Word) (evt : Bool), s.Inv → s.glb.mode.any = true →
      (∃ t, exec (.openSession i seq evt) s = .next t ∧ t.sess i = { opened := true, evt := evt, kept := true, h := seq.toNat } ∧ (∀ j, j ≠ i.val → t.sess j = s.sess j) ∧ only [.regs, .gwe] s t)
      ∧ ((s.sess i).opened = true → ∃ t, exec (.close i) s = .next t ∧ t.sess i = { s.sess i with opened := false, evt := false } ∧ (∀ j, j ≠ i.val → t.sess j = s.sess j) ∧ only [.regs, .gwe] s t)
      ∧ ((s.sess i).opened = false → exec (.close i) s = .next (s.answered 0x04 .denied [])))

/-- Registers and data windows: a single write, a broadcast, whose EXP_GEN must be 0xFFFF and which no die takes when one refuses it, and RMW of a broadcast address (R388, R527, R529, R530), RD, WR and RMW (R388), WIN_SET, WIN_RD and WIN_WR on an open session (R389, R391), and DBG, which controls a thread and reads and writes its registers (R287, R289, R294, R399). A plain write sets the writable bits alone (R6). In LISTEN an RD of identification registers alone is answered (R532; the model's reading, log 17). -/
def Obligations.RegistersAndWindows : Prop :=
  (∀ (s : State) (a : Word) n, s.glb.mode = .listen → a.toNat % 4 = 0 →
    (s.readsNow a.toNat n = true → ∀ l e b t, s.reachAll a.toNat n = some l → readAll l s = (e, b, t) → exec (.rd a n) s = .next (t.answered 0x10 e b))
    ∧ (s.readsNow a.toNat n = false → exec (.rd a n) s = .next (s.answered 0x10 .mode []))) ∧
  ∀ (s : State), s.glb.mode.any = true →
    (∀ (a w : Word),
      (∀ off, bcastOffset a.toNat = some off → exec (.registerWrite a w) s = .next (wrResult (bcastWrite s off w)))
      ∧ (∀ x, bcastOffset a.toNat = none → s.reach a.toNat = some x → exec (.registerWrite a w) s = .next (wrResult (writeReg s x w)))
      ∧ (bcastOffset a.toNat = none → s.reach a.toNat = none → exec (.registerWrite a w) s = .next (wrResult (.badaddr, s))))
    ∧ (∀ (r : Reg) (d : Nat) (idx : List Nat) (w : Word), s.Inv → s.glb.mode = .provision → r ≠ .PHI_TICK → s.badValue r d idx w = false →
      (wrPlain s r d idx w).1 = .ok ∧ only [.regs] s (wrPlain s r d idx w).2
        ∧ ((wrPlain s r d idx w).2.reg r d idx).toNat = Nat.lor (Nat.land (shaped r idx w).toNat (r.maskWhere (fun a => a == .rwp || a == .rw)))
            (Nat.land (s.reg r d idx).toNat (2 ^ 32 - 1 - r.maskWhere (fun a => a == .rwp || a == .rw))))
    ∧ (∀ (off : Nat) (w : Word) r idx, off < 0x100000 → off % 4 = 0 → regIn false off Reg.all = some (r, idx) → (r.hasGen = false ∨ fld w 31 16 = 0xFFFF) →
      ((∀ d ∈ s.bcastDies r, (writeReg s ⟨r, d, idx⟩ w).1 = .ok) → exec (.broadcastWrite off w) s = .next (wrResult (.ok, overDies (fun d t => (writeReg t ⟨r, d, idx⟩ w).2) (s.bcastDies r) s)))
      ∧ ((∃ d ∈ s.bcastDies r, (writeReg s ⟨r, d, idx⟩ w).1 ≠ .ok) → ∃ e, e ≠ .ok ∧ exec (.broadcastWrite off w) s = .next (wrResult (e, s))))
    ∧ (∀ (off : Nat) (w : Word) r idx, off < 0x100000 → off % 4 = 0 → regIn false off Reg.all = some (r, idx) → r.hasGen = true → fld w 31 16 ≠ 0xFFFF →
      exec (.broadcastWrite off w) s = .next (wrResult (.badaddr, s)))
    ∧ (∀ a m v : Word, (bcastOffset a.toNat).isSome = true → exec (.rmw a m v) s = .next (s.answered 0x12 .badaddr []))
    ∧ (∀ (a : Word) n, 1 ≤ n → n ≤ 2048 → a.toNat % 4 = 0 →
      (∀ l e b t, s.reachAll a.toNat n = some l → readAll l s = (e, b, t) → exec (.rd a n) s = .next (t.answered 0x10 e b))
      ∧ (s.reachAll a.toNat n = none → exec (.rd a n) s = .next (s.answered 0x10 .badaddr [])))
    ∧ (∀ (a : Word) ws e n t, ws ≠ [] → ws.length ≤ 2047 → writeAll a.toNat 0 ws s = (e, n, t) → exec (.wr a ws) s = .next (t.answered 0x11 e (beBytes 4 n)))
    ∧ (∀ (a m v : Word) x, s.reach a.toNat = some x →
      (x.reg.noRmw x.idx = true → exec (.rmw a m v) s = .next (s.answered 0x12 .denied []))
      ∧ (x.reg.noRmw x.idx = false → ∀ old t e u, readReg s x.reg x.die x.idx = (.ok, old, t) → writeReg t x ((old &&& ~~~m) ||| (v &&& m)) = (e, u) →
          exec (.rmw a m v) s = .next (u.answered 0x12 e (if e = .ok then beBytes 4 old.toNat else []))))
    ∧ (∀ i : Fin 4, (s.sess i).opened = true →
      (∀ space unit (off : BitVec 64), s.Inv → unitOk space unit = true → off.toNat < 2 ^ 48 → off.toNat % unit = 0 →
        ∃ t, exec (.winSet i space unit off) s = .next t ∧ t.sess i = { s.sess i with space := space, unit := unit, off := off.toNat } ∧ only [.gwe] s t)
      ∧ (∀ count e l n t, (s.sess i).lengthOk count = true → readUnits (s.sess i).space (s.sess i).unit (count / (s.sess i).unit) (s.sess i).off s = (e, l, n, t) →
          exec (.winRd i count) s = .next ((moveWindow t i n).answered 0x21 e (beBytes 8 (s.sess i).off ++ l)))
      ∧ (∀ data e n t, (s.sess i).lengthOk data.length = true →
          writeUnits (s.sess i).space (s.sess i).unit (s.sess i).off (chunksOf (s.sess i).unit (data.length / (s.sess i).unit) data) s = (e, n, t) →
          exec (.winWr i data) s = .next ((moveWindow t i n).answered 0x22 e (beBytes 8 (s.sess i).off ++ beBytes 4 (n * (s.sess i).unit) ++ [0, 0, 0, 0]))))
    ∧ (∀ a : DbgArgs, s.isLive a.die = true →
      (∀ e t, 1 ≤ a.op → a.op ≤ 5 → threadCtl s a.die a.op a.thread a.expGen.toNat = (e, t) →
        (e = .ok → exec (.dbg a) s = .next ((lapse t a.die).answered 0x70 .ok (beBytes 2 (t.gen .CRA_STATE a.die) ++ [0, 0] ++ beBytes 8 0)))
        ∧ (e ≠ .ok → exec (.dbg a) s = .next (t.answered 0x70 e [])))
      ∧ (genOk a.expGen.toNat (s.gen .CRA_STATE a.die) = true → a.thread ≤ 383 → a.reg ≤ 32 →
        (a.op = 7 → s.debugEn a.die = false → exec (.dbg a) s = .next (s.answered 0x70 .denied []))
        ∧ ((a.op = 6 ∨ (a.op = 7 ∧ s.debugEn a.die = true)) → (s.thr a.die a.thread).open_ = false → exec (.dbg a) s = .next (s.answered 0x70 .busy []))
        ∧ (a.op = 6 → (s.thr a.die a.thread).open_ = true → exec (.dbg a) s = .next (s.answered 0x70 .ok (beBytes 2 (s.gen .CRA_STATE a.die) ++ [0, 0] ++ beBytes 8 (s.dbgValue a.die a.thread a.reg).toNat)))
        ∧ (a.op = 7 → s.debugEn a.die = true → (s.thr a.die a.thread).open_ = true →
            exec (.dbg a) s = .next ((dbgSet s a.die a.thread a.reg a.value).answered 0x70 .ok (beBytes 2 (s.gen .CRA_STATE a.die) ++ [0, 0] ++ beBytes 8 0)))))

/-- Long operations: LONG takes the lowest free record and its number, is busy with all sixteen held, and refuses arguments out of range, and in another mode than PROVISION a clear of table 3 (R393, R394); a checkpoint carries the oldest operation on by 64 KiB or 1,024 entries, and its completion ends it (R394, R414, R416); ABORT ends it with GW_ABORTED (R395), STATUS shows and releases records (R396); the last piece of a container starts the patch operation, with the signing key enrolled then (R429), which verifies the container in its turn, and PATCH_APPLY completes it (R400, R426, R427); an ABORT while the container waits or is verified ends the operation with nothing written, and one during the application, which is one command here, comes behind it and answers GW_ALREADY_DONE (R428). That an operation advances at its checkpoints alone and what PROGRESS counts (log 59), when a container is verified and which details fail it (log 62) are the model's readings. -/
def Obligations.LongOperationsRun : Prop :=
  ∀ (s : State), s.Inv → s.glb.mode.any = true →
    (∀ a : LongArgs,
      (∀ i, s.freeOp = some i →
        (longRange a = true → ∃ t, exec (.longFill a) s = .next t ∧ only [.gwe, .plt] s t ∧ t.plt.nextOpid = opidAfter s.plt.nextOpid
            ∧ t.op i = some { opid := s.plt.nextOpid, ended := false, status := .ok, kind := .fill a, progress := 0, result := 0, xing := 0, step := 0, mark := 0, acc := 0xFFFFFFFF }
            ∧ t.gwe.results = [{ opcode := 0x40, tag := 0, status := .ok, data := beBytes 2 s.plt.nextOpid ++ [0, 0] }])
        ∧ (longRange a = true → ∃ t, exec (.longCrc a) s = .next t ∧ only [.gwe, .plt] s t ∧ t.plt.nextOpid = opidAfter s.plt.nextOpid ∧ (t.op i).map (·.kind) = some (.crc a))
        ∧ (s.clearOk a = true → (a.space ≠ 3 ∨ s.glb.mode = .provision) →
            ∃ t, exec (.longTblClear a) s = .next t ∧ only [.gwe, .plt] s t ∧ t.plt.nextOpid = opidAfter s.plt.nextOpid ∧ (t.op i).map (·.kind) = some (.tblClear a)))
      ∧ (s.freeOp = none →
        (longRange a = true → exec (.longFill a) s = .next (s.answered 0x40 .busy []) ∧ exec (.longCrc a) s = .next (s.answered 0x40 .busy []))
        ∧ (s.clearOk a = true → (a.space ≠ 3 ∨ s.glb.mode = .provision) → exec (.longTblClear a) s = .next (s.answered 0x40 .busy [])))
      ∧ (longRange a = false → exec (.longFill a) s = .next (s.answered 0x40 .badaddr []) ∧ exec (.longCrc a) s = .next (s.answered 0x40 .badaddr []))
      ∧ (s.clearOk a = false → exec (.longTblClear a) s = .next (s.answered 0x40 .badaddr []))
      ∧ (s.clearOk a = true → a.space = 3 → s.glb.mode ≠ .provision → exec (.longTblClear a) s = .next (s.answered 0x40 .mode [])))
    ∧ (∀ (i : Fin 16) r, s.op i = some r → s.plt.leadMove = none → s.opTurn i = true →
      (∀ e x t, opSome s r (s.checkUnits i) 1024 = (e, x, t) →
        (e = none → exec (.longOpCheckpoint i) s = .next (t.setOp i (some x))) ∧ (∀ st, e = some st → exec (.longOpCheckpoint i) s = .next (endOp (t.setOp i (some x)) i st)))
      ∧ (∀ e x t, opSome s r (s.allUnits i) (2 ^ 24) = (e, x, t) →
        (e = none → exec (.longOpComplete i) s = .next (t.setOp i (some x))) ∧ (∀ st, e = some st → exec (.longOpComplete i) s = .next (endOp (t.setOp i (some x)) i st))))
    ∧ (∀ n : BitVec 16, s.opSlot n.toNat = none → exec (.abort n) s = .next (s.answered 0x41 .badaddr []))
    ∧ (∀ (n : BitVec 16) i r, s.opSlot n.toNat = some i → s.op i = some r →
      (r.ended = true → exec (.abort n) s = .next (s.answered 0x41 .alreadyDone []))
      ∧ (r.ended = false → ∃ t, exec (.abort n) s = .next t ∧ t.op i = some { r with ended := true, status := .aborted, xing := s.phi.xing, step := s.phi.step }
          ∧ t.gwe.results = [{ opcode := 0x41, tag := 0, status := .ok, data := [] }] ∧ only [.regs, .gwe, .plt] s t)
      ∧ (n ≠ 0xFFFF → exec (.status n false) s = .next (s.answered 0x42 .ok r.bytes))
      ∧ (n ≠ 0xFFFF → r.ended = true → ∃ t, exec (.status n true) s = .next t ∧ t.op i = none ∧ only [.gwe, .plt] s t)
      ∧ (n ≠ 0xFFFF → r.ended = false → exec (.status n true) s = .next (s.answered 0x42 .busy [])))
    ∧ (∀ release, exec (.status 0xFFFF release) s = .next (s.answered 0x42 .ok s.summary))
    ∧ (∀ a : PatchArgs, s.glb.mode = .provision →
      ((0x400000 < a.total ∨ a.total < a.offset + a.data.length ∨ 8176 < a.data.length ∨ a.data.length % 4 ≠ 0) → exec (.patch a) s = .next (s.answered 0x80 .badaddr []))
      ∧ (a.total ≤ 0x400000 → a.offset + a.data.length ≤ a.total → a.data.length ≤ 8176 → a.data.length % 4 = 0 → s.patchSlot = none →
        (((putPiece s a).plt.patchLast = false ∨ (putPiece s a).plt.patchBuf.length ≠ a.total) →
          exec (.patch a) s = .next ((putPiece s a).answered 0x80 .ok (beBytes 4 (putPiece s a).plt.patchBuf.length ++ beBytes 2 0xFFFF ++ [0, 0])))
        ∧ (∀ i u, (putPiece s a).plt.patchLast = true → (putPiece s a).plt.patchBuf.length = a.total → s.freeOp = some i → u = startPatch (putPiece s a) i →
          exec (.patch a) s = .next ((if u.opTurn i then verifyPatch u i else u).answered 0x80 .ok (beBytes 4 a.total ++ beBytes 2 s.plt.nextOpid ++ [0, 0])))))
    ∧ (∀ i, s.patchSlot = some i → s.plt.leadMove = none → s.opTurn i = true →
      (s.plt.verified = true → exec .patchApply s = .next (applyPatch s i))
      ∧ (s.plt.verified = false → exec .patchApply s = .next (if (verifyPatch s i).plt.verified then applyPatch (verifyPatch s i) i else verifyPatch s i))
      ∧ (∀ r n, s.plt.verified = true → (records s.container).isSome = true → s.op i = some r → n = BitVec.ofNat 16 r.opid → s.opSlot n.toNat = some i →
          ∃ t, exec .patchApply s = .next t ∧ exec (.abort n) t = .next (t.answered 0x41 .alreadyDone [])))

/-- What goes to the host and comes from it outside commands: acknowledged records leave the queue (R403), unsent records leave in one frame within the window and unacknowledged ones again where the host can be addressed (R372, R402, R403), the first exception frame leaves when no EVENT frame can, or is dropped without an event session, where the fabric cannot carry it, or with a bad word (R24, R405, R462, R478); ARP and neighbour solicitations are answered on the attachment in use (R371, R372); an attachment has its link in a mode that GWE_PORT_CFG enables (R371, R408), and the host port fails over for good (R374); the host watchdog moors the package and then resets it, unless a frame that verifies arrives in the same cycle, which its operand tells (R406, R407, R447, R459; the model's choice, log 28). Whether the host can be addressed by UDP is the model's reading (log 77). -/
def Obligations.HostIsTold : Prop :=
  ∀ s : State,
    (∀ n : Word, s.glb.mode.any = true →
      (∀ m, s.gwe.evSent = some m → geHalf m n.toNat = true → exec (.evack n) s = .next (({ s with gwe := { s.gwe with evq := s.gwe.evq.filter (fun e => !geHalf n.toNat e.eseq) } } : State).answered 0x51 .ok []))
      ∧ (∀ m, s.gwe.evSent = some m → geHalf m n.toNat = false → exec (.evack n) s = .next (s.answered 0x51 .badseq []))
      ∧ (s.gwe.evSent = none → exec (.evack n) s = .next (s.answered 0x51 .badseq [])))
    ∧ (s.canTell = true →
      (∀ n l, l = fitting (9600 - 12) ((s.gwe.evq.filter (fun e => !e.sent)).take (min n (s.evWindow - s.unacked))) → l ≠ [] →
        ∃ t x, exec (.eventSend n) s = .next t ∧ only [.regs, .gwe] s t ∧ t.gwe.tx = s.gwe.tx ++ [x]
          ∧ x.typ = 2 ∧ x.seq = (l.head?.map (·.eseq)).getD 0 ∧ x.count = l.length ∧ x.body = l.flatMap EvRec.bytes ∧ x.prot = true ∧ x.dst = s.gwe.hostMac ∧ x.attB = s.gwe.active ∧ x.wire = x.frame
          ∧ (∀ e ∈ l, { e with sent := true } ∈ t.gwe.evq))
      ∧ exec .eventRetransmit s = .next (sendAgain (s.gwe.evq.filter (fun e => e.sent)).length (s.gwe.evq.filter (fun e => e.sent)) s))
    ∧ (s.canTell = false → (∀ n, exec (.eventSend n) s = .next s) ∧ exec .eventRetransmit s = .next s)
    ∧ (∀ e r, s.gwe.excq = e :: r →
      (s.evSession = none → exec .exceptionSend s = .next ((freeExc { s with gwe := { s.gwe with excq := r } } e).bump .GWE_EXC_DROP 0))
      ∧ (s.evSession ≠ none → s.noRoute e.die s.hostDie = true → exec .exceptionSend s = .next ((freeExc { s with gwe := { s.gwe with excq := r } } e).bump .PFB_ROUTE_DROP e.die))
      ∧ (s.evSession ≠ none → s.noRoute e.die s.hostDie = false → (s.canTell = false ∨ s.eventsWait = true) → exec .exceptionSend s = .next s)
      ∧ (s.canTell = true → s.noRoute e.die s.hostDie = false → s.eventsWait = false →
        (s.quayBad e.handle 0 (128 + cnum e.info 20 2) = true → exec .exceptionSend s = .next ((freeExc { s with gwe := { s.gwe with excq := r } } e).bump .ICU_FRAME_DROP e.die))
        ∧ (s.quayBad e.handle 0 (128 + cnum e.info 20 2) = false →
          ∃ t, exec .exceptionSend s = .next t ∧ only [.regs, .bpm, .gwe] s t ∧ t.gwe.excq = r ∧ t.gwe.excCnt = s.gwe.excCnt + 1
            ∧ ∃ x, t.gwe.tx = s.gwe.tx ++ [x] ∧ x.typ = 3 ∧ x.seq = s.gwe.excCnt % 2 ^ 32 ∧ x.body = e.info ++ s.excBytes e ∧ x.wire = x.frame)))
    ∧ (∀ b v6 target, s.hostPortOn = true →
      (b = s.gwe.active → s.silent = false → s.isOurs v6 target.toNat = true → exec (.arpRequest b ⟨v6, target⟩) s = .next { s with gwe := { s.gwe with answers := s.gwe.answers ++ [(v6, target)] } })
      ∧ (b ≠ s.gwe.active → exec (.arpRequest b ⟨v6, target⟩) s = .next (s.bump .GWE_STANDBY_DROP 0)))
    ∧ (∀ b up kr4 on, s.hostPortOn = true → on = (up && bit (s.reg .GWE_PORT_CFG 0 []) (if kr4 then 1 else 0)) →
        exec (.hostAttachmentLink b ⟨up, kr4⟩) s = .next { s with gwe := if b then { s.gwe with linkB := on, kr4B := on && kr4 } else { s.gwe with linkA := on, kr4A := on && kr4 } })
    ∧ (s.hostPortOn = true → s.gwe.active = false → 1 ∉ s.lpx.lost → (0 ∈ s.lpx.lost ∨ (s.gwe.linkA = false ∧ s.gwe.linkB = true ∧ s.rf .GWE_PORT_CFG 0 [] 31 16 ≠ 0)) →
        ∃ t, exec .hostFailover s = .next t ∧ t.gwe.active = true ∧ only [.regs, .gwe] s t)
    ∧ (s.gwe.active = true → exec .hostFailover s = .next s)
    ∧ ((s.glb.mode = .run ∨ s.glb.mode = .drain) → s.rf .GWE_WDOG 0 [] 15 0 ≠ 0 → s.heardNow = false →
        ∃ t, exec .hostWdogExpiry s = .next t ∧ t.glb = { s.glb with mode := .moored, drainedSent := false, wdogMoored := true } ∧ only [.regs, .glb, .cte, .lpx, .gwe] s t)
    ∧ (s.heardNow = false → s.glb.mode = .moored → s.glb.wdogMoored = true → s.rf .GWE_WDOG 0 [] 31 16 ≠ 0 → exec .wdogEscalation s = .next (warmStart s 5))
    ∧ (s.heardNow = true → exec .hostWdogExpiry s = .next (useHeard s) ∧ exec .wdogEscalation s = .next (useHeard s))
    ∧ (∀ f t, verifyFrame s f = some t → t.heardNow = f.tied)

/-! Modes and resets (spec/14, spec/15). -/

/-- MODE: the transitions of R435 between the working modes, the refused ones, a stale generation, ordered resets, unit restarts with their effects (R341, R366, R367, R457), and closed ingress, where the bits of absent ports are dropped (the model's reading, log 55) (R397, R435 to R438, R444); DRAINED is reported once (R443), and a flush offers every quay frame (R448). -/
def Obligations.ModesChange : Prop :=
  ∀ (s : State), s.glb.mode.any = true →
    (∀ exp : BitVec 16, genOk exp.toNat (s.gen .GLB_MODE 0) = true →
      (∀ m : Mode, setAllowed s.glb.mode m = true →
        ∃ t, exec (.modeSet m.code exp) s = .next t ∧ t.glb.mode = m ∧ (s.Inv → t.gen .GLB_MODE 0 = (s.gen .GLB_MODE 0 + 1) % 2 ^ 16 ∧ t.rf .GLB_MODE 0 [] 10 8 = s.glb.mode.code ∧ t.rf .GLB_MODE 0 [] 7 4 = 2)
          ∧ only [.regs, .glb, .cte, .lpx, .cra, .gwe] s t)
      ∧ exec (.modeSet s.glb.mode.code exp) s = .next (s.answered 0x50 .ok s.modeBytes)
      ∧ (∀ t, s.glb.mode = .provision → s.ssc.busy = false → s.opRunning OpKind.isPatch = false → s.opRunning OpKind.isFill = false → sealStore s = (true, t) →
          exec (.modeSet 3 exp) s = .next ((enterMode t .run 2).answered 0x50 .ok (enterMode t .run 2).modeBytes))
      ∧ (∀ t, s.glb.mode = .provision → s.ssc.busy = false → s.opRunning OpKind.isPatch = false → s.opRunning OpKind.isFill = false → sealStore s = (false, t) →
          exec (.modeSet 3 exp) s = .next (t.answered 0x50 .denied t.modeBytes))
      ∧ (s.glb.mode = .provision → (s.ssc.busy = true ∨ s.opRunning OpKind.isPatch = true ∨ s.opRunning OpKind.isFill = true) → exec (.modeSet 3 exp) s = .next (s.answered 0x50 .busy s.modeBytes))
      ∧ (∀ m : Mode, m ≠ s.glb.mode → setAllowed s.glb.mode m = false → ¬ (s.glb.mode = .provision ∧ m = .run) → exec (.modeSet m.code exp) s = .next (s.answered 0x50 .mode s.modeBytes))
      ∧ (s.glb.ordered = none → exec (.modeWarm exp) s = .next (({ s with glb := { s.glb with ordered := some 4 } } : State).answered 0x50 .ok s.modeBytes))
      ∧ (s.glb.ordered = none → exec (.modeCold exp) s = .next (({ s with glb := { s.glb with ordered := some 3 } } : State).answered 0x50 .ok s.modeBytes))
      ∧ (∀ d, d ∈ s.liveDies → ∀ u, (u = unitPrs ∨ u = unitCls ∨ u = unitFwt ∨ u = unitTdx ∨ (u = unitSyu ∧ s.syuInUse d = false)) →
          ∃ t, exec (.modeUnit d u exp) s = .next t ∧ t.unitDown d u = true ∧ t.glb = s.glb
            ∧ (u = unitPrs → mrise 0 s.prs.eng = true → (∀ x ∈ t.prs.eng, x.1 / 16 ≠ d) ∧ (∀ x ∈ s.prs.eng, x.1 / 16 = d → ∃ r, x.2.frame ∈ mget [] t.prs.queue (d * 2 + r)) ∧ only [.prs, .gwe, .icu] s t)
            ∧ (u = unitCls → mrise 0 s.cls.frag = true → (∀ x ∈ t.cls.frag, x.1 / 4096 ≠ d) ∧ only [.regs, .cls, .fwt, .ssc, .gwe, .icu, .free] s t
                ∧ (s.Inv → counts s t .CLS_FRAG_EXPIRED d [] ((mpick (fun k => k / 4096 = d) s.cls.frag).foldl (fun a x => a + x.2.held.length) 0)))
            ∧ (u = unitFwt → mrise 0 s.fwt.learnq = true → t.learnQ d = [] ∧ (∀ x ∈ t.fwt.l2, x.1 / 32768 = d → x.2.pend = false) ∧ only [.regs, .fwt, .gwe, .icu] s t
                ∧ (s.Inv → counts s t .FWT_LQ_DROP d [] (s.learnQ d).length ∧ t.gen .FWT_STATE d = (s.gen .FWT_STATE d + 1) % 2 ^ 16))
            ∧ (u = unitTdx → (∀ l, l < 64 → t.readyList d l = []) ∧ (∀ i, i < 8 → t.delayList d i = [])
                ∧ (∀ n : Fin 384, ∀ p, (t.thr d n).pend = some p → p.kind = .tdx → p.err = 2) ∧ (∀ n : Fin 384, (t.thr d n).st = (s.thr d n).st)
                ∧ (s.Inv → t.gen .TDX_STATE d = (s.gen .TDX_STATE d + 1) % 2 ^ 16))
            ∧ (u = unitSyu → (∀ l, l < 16384 → (t.lock d l).holder = none ∧ (t.lock d l).waiters = [] ∧ (t.lock d l).abandoned = true) ∧ (∀ k e, k < 6 → e < 1024 → t.ev d k e = {})
                ∧ (∀ k c, k < 6 → c < 256 → t.chan d k c = {}) ∧ only [.regs, .cra, .syu, .gwe, .icu] s t))
      ∧ (∀ d, d ∈ s.liveDies → s.syuInUse d = true → exec (.modeUnit d unitSyu exp) s = .next (s.answered 0x50 .busy s.modeBytes))
      ∧ (∀ ports : Word, (s.glb.mode = .run ∨ s.glb.mode = .drain) → BitVec.ofNat 32 (ports.toNat % 2 ^ (4 * s.dies)) ≠ s.reg .GLB_INGRESS 0 [] →
          ∃ t, exec (.portDrain ports exp) s = .next t ∧ (s.Inv → t.reg .GLB_INGRESS 0 [] = BitVec.ofNat 32 (ports.toNat % 2 ^ (4 * s.dies))) ∧ only [.regs, .lpx, .gwe] s t)
      ∧ (∀ ports : Word, s.glb.mode ≠ .run → s.glb.mode ≠ .drain → exec (.portDrain ports exp) s = .next (s.answered 0x50 .mode s.modeBytes)))
    ∧ (∀ (exp : BitVec 16) (n : Nat), genOk exp.toNat (s.gen .GLB_MODE 0) = false → exec (.modeSet n exp) s = .next (s.answered 0x50 .stale s.modeBytes))
    ∧ (∀ (d : Fin 8) (u : Fin 16), d < s.dies → s.unitDown d u = true → ∃ t, exec (.unitRestartDone d u) s = .next t ∧ t.unitDown d u = false)
    ∧ (s.glb.mode = .drain → s.glb.drainedSent = false → s.occInflight = 0 → s.occQuay = 0 → s.occStaged = 0 →
        ∃ t, exec .drained s = .next t ∧ t.glb = { s.glb with drainedSent := true } ∧ only [.regs, .glb, .gwe] s t ∧ tells s t 0x8002 0xFF [s.phi.xing, s.phi.step] ∧ exec .drained t = .next t)
    ∧ ((s.glb.mode ≠ .drain ∨ s.glb.drainedSent = true ∨ s.occInflight ≠ 0 ∨ s.occQuay ≠ 0 ∨ s.occStaged ≠ 0) → exec .drained s = .next s)
    ∧ (∀ w picks, bit w 0 = true → (s.glb.mode = .drain ∨ s.glb.mode = .moored) → genOk (fld w 31 16) (s.gen .GLB_MODE 0) = true → exec (.quayFlush w picks) s = .next (wrResult (.ok, quayFlush s picks)))

/-- Resets: an ordered warm reset, with the LPM inserts that it interrupts (R160; log 73), passes through RESET, with every buffer free, no thread, the frames of the quay gone and the staged ones kept in their order with their segments written (R450 to R456), and an LPM memory whose insert was interrupted scanned (R160), and ends in PROVISION; a cold reset, by MODE COLD, by supplies becoming valid or by RESET_N, leaves the state after reset with its cause, but for the part with its fuses, the pins, the test access port, the sensors, the port islands that failed, the model's counters and records of what left on the lines, and the queue (R449 to R451, R506, R509); COLD_RESET without an order of MODE COLD changes nothing (the other causes are commands of their own); the start sequence ends in LISTEN with the dies that pass, and none passing the part stays (R410, R411, R439); a new lead takes over and the running patch is lost (R416). -/
def Obligations.ResetsAndStart : Prop :=
  ∀ (s : State),
    (s.glb.mode.any = true → s.glb.ordered = some 4 →
      ∃ t, exec .warmReset s = .next t ∧ t.glb.mode = .reset ∧ t.glb.warm = some 4 ∧ t.glb.ordered = none ∧ t.cra.thr = [] ∧ t.rsq.rob = [] ∧ t.gwe.excq = [] ∧ t.qba.admitQ = []
        ∧ t.occQuay = 0 ∧ (∀ h, t.allocated h = false) ∧ t.bpm.share = [] ∧ (∀ e ∈ t.qba.lq, ∀ i ∈ e.2.items, i.staged = true)
        ∧ (s.Inv → ∀ q, (t.lq q).items = ((s.lq q).items.filter (fun i => i.staged)).map (fun i => { i with mirror := none }))
        ∧ (s.Inv → mrise 0 s.ssc.seg = true → (∀ e ∈ s.cte.port, e.2.wire = []) →
          (∀ j x, s.seg j = some x → x.left ≠ 0 → ∃ y, t.seg j = some y ∧ y.st = .written ∧ y.left = x.left ∧ y.frames = x.frames ∧ y.q = x.q ∧ y.smask = x.smask ∧ y.fill = x.fill)
          ∧ ((∀ e ∈ s.ssc.seg, e.2.st ≠ .opened) → t.ssc.data = s.ssc.data))
        ∧ (mrise 0 s.fwt.lpm = true → s.fwt.ripple.Nodup → ∀ d, d < s.dies → d ∉ t.fwt.ripple
          ∧ (d ∉ s.fwt.ripple → t.lpmList d = s.lpmList d)
          ∧ (d ∈ s.fwt.ripple → ∀ x ∈ t.lpmList d, ∀ y ∈ t.lpmList d, tblKey 3 (beBytes 20 x.2.key.toNat) = tblKey 3 (beBytes 20 y.2.key.toNat) → x.1 = y.1))
        ∧ t.gwe.owner = s.gwe.owner ∧ t.gwe.sess = s.gwe.sess ∧ t.ssc.smask = s.ssc.smask ∧ t.cra.ps = s.cra.ps)
    ∧ (∀ cause, s.glb.warm = some cause → exec .warmResetDone s = .next (runHeld (recomputeBps (warmFinish s))) ∧ (warmFinish s).glb.mode = .provision ∧ (warmFinish s).glb.warm = none)
    ∧ (s.glb.ordered = some 3 → ∃ t, exec (.coldReset 3) s = .next t ∧ s.coldFrom t 3)
    ∧ (∀ cause, (cause ≠ 3 ∨ s.glb.ordered ≠ some 3) → exec (.coldReset cause) s = .next s)
    ∧ (s.glb.supplyBad = true → ∃ t, exec .supplyValid s = .next t ∧ (loadIr { s with glb := { s.glb with supplyBad := false, tripPin := false } } 0x01).coldFrom t 1)
    ∧ (s.glb.supplyBad = false → ∃ t, exec .resetNAssert s = .next t ∧ State.coldFrom { s with glb := { s.glb with rstLow := true, tripPin := false } } t 2)
    ∧ (∀ (passed : BitVec 8) steps, s.glb.mode = .reset → s.glb.warm = none → s.heldInReset = false →
        ((∃ d, d < s.dies ∧ passed.getLsbD d = true) →
          ∃ t, exec (.coldStart passed steps) s = .next t ∧ t.glb.mode = .listen ∧ t.glb.started = true ∧ t.plt.leadMove = none
            ∧ (∀ d, d < s.dies → passed.getLsbD d = false → t.excluded d = true)
            ∧ (s.icu.excl = 0 → ∀ d, d < s.dies → passed.getLsbD d = true → t.excluded d = false))
        ∧ ((∀ d, d < s.dies → passed.getLsbD d = false) → exec (.coldStart passed steps) s = .next s))
    ∧ (∀ old, s.plt.leadMove = some old → s.glb.warm = none → s.gwe.held = [] →
        ∃ t, exec .leadTakeover s = .next t ∧ t.plt.leadMove = none ∧ t.plt.lead = s.plt.lead ∧ t.plt.patchBuf = [] ∧ t.plt.patchTotal = 0 ∧ t.plt.verified = false ∧ only [.regs, .gwe, .plt] s t
          ∧ (s.Inv → ∀ i r, s.patchSlot = some i → s.op i = some r → t.op i = some { r with ended := true, status := .aborted, xing := s.phi.xing, step := s.phi.step }))

/-! Errors and containment (spec/14, spec/16). -/

/-- Scrubs and repairs: a wrong bit counts and two count apart, more make the word bad, count in MCS_UNCORR and are reported (R422, R462); a bad word with a good copy is repaired, one without is reported by EV_MCS_UNCORR (R422); a corrected error counts (R462, R465), a bad quay word in a frame is marked (R462); a piece of the stack is read through P4, a corrected one counts, and one that cannot be corrected is marked and counts against its channel, with EV_ECC_UNCORR where no parity serves its chunk (R462, R465, R467); a table entry that differs leaves matching until it is restored, or is stuck (R463); a static L2 entry is copied from another die (R464), a timetable entry counts again (R462). That memory 0 of SRAM_SCRUB stands for the end of a pass, that TABLE_SHADOW_CHECK reports nothing, and that a corrected program store word which the scrubber finds counts in ICU_SRAM_CORR is the model's reading (log 52). -/
def Obligations.ErrorsAreRepaired : Prop :=
  ∀ (s : State) (d : Fin 8), d < s.dies → s.excluded d = false →
    (∀ a : Fin 16384, s.mcsIsBad d a = false →
      (∃ t, exec (.mcsScrub d a 1) s = .next t ∧ t = mcsLast (s.bump .MCS_ECC1 d) d 1 a)
      ∧ (∃ t, exec (.mcsScrub d a 2) s = .next t ∧ t = mcsLast (s.bump .MCS_ECC2 d) d 2 a)
      ∧ (∀ bits, 3 ≤ bits → ∃ t, exec (.mcsScrub d a bits) s = .next t ∧ t.plt = { s.plt with mcsBad := s.plt.mcsBad ++ [(d.val, a.val)] } ∧ only [.regs, .gwe, .plt] s t
        ∧ (s.Inv → counts s t .MCS_UNCORR d [] 1) ∧ tells s t 0x0E01 d [d, 4, a, if s.mcsCopy d a = true then 0 else 1]))
    ∧ (∀ a : Fin 16384, s.mcsIsBad d a = true → s.mcsCopy d a = true →
      exec (.mcsRepair d a) s = .next (({ s with plt := { s.plt with mcsBad := lrem (d.val, a.val) s.plt.mcsBad } } : State).bump .MCS_REPAIR d))
    ∧ (∀ a : Fin 16384, s.mcsIsBad d a = true → s.mcsCopy d a = false → ∃ t, exec (.mcsRepair d a) s = .next t ∧ only [.regs, .gwe] s t ∧ tells s t 0x8202 0xFF [d, a])
    ∧ (exec (.sramScrub d { mem := 0, addr := 0, corrected := false }) s = .next (lapse (s.bump .ICU_SCRUB_PASSES d) d))
    ∧ (∀ m a, 1 ≤ m → m ≤ 13 → m ≠ 4 → exec (.sramScrub d { mem := m, addr := a, corrected := true }) s = .next (lapse (s.bump .ICU_SRAM_CORR d) d))
    ∧ (∀ a i h, s.bufferAt d (a * 8) = some (i, h) → s.allocated h = true → (d.val * 0x400000 + a) ∉ s.bpm.bad →
      ∃ t, exec (.sramScrub d { mem := 1, addr := a, corrected := false }) s = .next t ∧ t.bpm = { s.bpm with bad := s.bpm.bad ++ [d.val * 0x400000 + a] } ∧ only [.regs, .bpm, .syu, .gwe] s t)
    ∧ (∀ piece u, nbit s.ssc.lost d = false → piece ≤ 100663295 → u = pushPort s d 4 false (.scrub piece) (pieceMask piece) →
      (exec (.hbmScrub d piece 0) s = .next (if piece = 100663295 then passDone u d else u))
      ∧ (exec (.hbmScrub d piece 1) s = .next (if piece = 100663295 then passDone (u.bump .SSC_ECC_CORR d) d else u.bump .SSC_ECC_CORR d))
      ∧ (∀ bad, s.Inv → 2 ≤ bad → piece < segTotal * 32 → (d.val, piece) ∉ s.ssc.bad → s.rf .ICU_CHAN_UE d [piece % 32 / 2] 15 0 + 1 < max 1 (s.rf .ICU_LIMIT d [] 15 0) →
        ∃ t, exec (.hbmScrub d piece bad) s = .next t ∧ t.ssc.bad = s.ssc.bad ++ [(d.val, piece)] ∧ (d.val, piece % 32 / 2) ∈ t.icu.passUe
          ∧ t.rf .ICU_CHAN_UE d [piece % 32 / 2] 15 0 = s.rf .ICU_CHAN_UE d [piece % 32 / 2] 15 0 + 1 ∧ only [.regs, .ssc, .icu, .gwe] s t
          ∧ (s.parityServes d piece = true → t.gwe = s.gwe) ∧ (s.parityServes d piece = false → tells s t 0x0E01 d [d, 15, piece, 1])))
    ∧ (∀ lpm i, (d.val, entryNo lpm i) ∉ s.icu.stuck →
        exec (.tableShadowCheck d lpm i true) s = .next { s with icu := { s.icu with restoring := ladd (d.val, entryNo lpm i) s.icu.restoring } })
    ∧ (∀ lpm i, (d.val, entryNo lpm i) ∈ s.icu.restoring →
      (∃ t, exec (.tableRestore d lpm i true) s = .next t ∧ t.icu = { s.icu with restoring := lrem (d.val, entryNo lpm i) s.icu.restoring } ∧ only [.regs, .icu] s t)
      ∧ (∃ t, exec (.tableRestore d lpm i false) s = .next t ∧ t.icu = { s.icu with restoring := lrem (d.val, entryNo lpm i) s.icu.restoring, stuck := ladd (d.val, entryNo lpm i) s.icu.stuck } ∧ only [.regs, .icu, .gwe] s t))
    ∧ (∀ i e x, (d.val, i) ∈ s.icu.staticBad → s.l2At d i = some e → s.staticCopyL2 d e = some x →
      ∃ t, exec (.staticEntryRepair d .l2 i) s = .next t ∧ t.l2At d i = some { e with word := x.word } ∧ t.icu = { s.icu with staticBad := lrem (d.val, i) s.icu.staticBad } ∧ only [.regs, .fwt, .icu] s t)
    ∧ (∀ off, exec (.timetableEntryRestore off) s = .next { s with cte := { s.cte with bad := s.cte.bad.filter (fun o => o ≠ off / 16 * 16) } })

/-- Containment: a heartbeat restarts its watch (R468); a die without heartbeats, without supply, with a Pilot RAM error or named by the host is excluded once, with the dies that fail or trip in its cycle (R517), its threads, reorder buffer and tables gone and its stack out of the group (R430, R468 to R476, R480); lanes and flits of the links (R478); the island of a port-island loss is marked (R479). The steps of R471 complete within the command (the model's choice, log 51). -/
def Obligations.FailuresAreContained : Prop :=
  ∀ (s : State) (d : Fin 8), d < s.dies →
    (s.excluded d = false → exec (.heartbeat d) s = .next { s with icu := { s.icu with sinceBeat := mset 0 s.icu.sinceBeat d 0 } })
    ∧ (s.excluded d = false → s.isUp = true →
      (∀ (x : DieLoss) c, x.die = d → (c = .heartbeatLoss x ∨ c = .dieSupplyFault x ∨ c = .pilotRamError x) →
        ∃ t, exec c s = .next t ∧ ∀ e, (e = d ∨ (∃ y ∈ x.also, y.1 = e ∧ e < s.dies ∧ s.excluded e = false)) → t.excluded e = true ∧ nbit t.ssc.lost e = true ∧ t.lacks e
          ∧ ∀ y ∈ x.trips, y.sensor = .compute → y.die < s.dies → s.senses y.die .compute = true → tripLevel .compute < y.temp → t.glb.tripPin = true ∧ t.excluded y.die = true)
      ∧ (∀ w same, s.glb.mode.any = true → fld w 2 0 = d.val → bit w 3 = true → genOk (fld w 31 16) (s.gen .DIE_HEALTH 0) = true →
        (s.excluded (partner d) = false → 1 < s.liveDies.length → exec (.hostDieExclude ⟨w, same⟩) s = .next (wrResult (.ok, excludeNow s d .host))
          ∧ (excludeNow s d .host).excluded d = true ∧ nbit (excludeNow s d .host).ssc.lost d = true ∧ (excludeNow s d .host).lacks d)
        ∧ ((s.excluded (partner d) = true ∨ s.liveDies.length ≤ 1) → exec (.hostDieExclude ⟨w, same⟩) s = .next (wrResult (.denied, s)))))
    ∧ (∀ w same, s.glb.mode.any = false → exec (.hostDieExclude ⟨w, same⟩) s = .next (wrResult (.mode, s)))
    ∧ (∀ w, s.glb.mode.any = true → genOk (fld w 31 16) (s.gen .DIE_HEALTH 0) = false → exec (.hostDieExclude ⟨w, false⟩) s = .next (wrResult (.stale, s)))
    ∧ (∀ w, s.glb.mode.any = true → fld w 2 0 = d.val → s.excluded d = true → exec (.hostDieExclude ⟨w, true⟩) s = .next (wrResult (.ok, s)))
    ∧ (∀ w, s.glb.mode.any = true → fld w 2 0 = d.val → bit w 3 = true → s.excluded d = true → genOk (fld w 31 16) (s.gen .DIE_HEALTH 0) = true →
      (s.excluded (partner d) = true → exec (.hostDieExclude ⟨w, false⟩) s = .next (wrResult (.denied, s)))
      ∧ (s.excluded (partner d) = false → exec (.hostDieExclude ⟨w, false⟩) s = .next (wrResult (.ok, s))))
    ∧ (s.excluded d = true → ∀ x : DieLoss, x.die = d → x.also = [] → x.trips = [] → exec (.heartbeatLoss x) s = .next s ∧ exec (.dieSupplyFault x) s = .next s ∧ exec (.pilotRamError x) s = .next s)
    ∧ (∀ l : Fin 5, s.linkState d l < 2 → exec (.flitRetry d l) s = .next (s.bump .PFB_FLIT_RETRY d))
    ∧ (∀ l : Fin 5, (s.linkEnd d l).isSome = true → s.linkLanes d l ≠ 0 →
      ∃ t, exec (.laneFail d l) s = .next t ∧ t.linkLanes d l = s.linkLanes d l - 1 ∧ only [.regs, .gwe, .icu] s t)
    ∧ (∃ t, exec (.portIslandLost d) s = .next t ∧ d.val ∈ t.lpx.lost ∧ only [.regs, .cte, .lpx, .bpm, .qba, .ssc, .gwe] s t)

/-! Pins and the test access port (spec/18). -/

/-- Supplies, RESET_N, clocks, temperatures and TAP instructions: what each does to the part (R506 to R511, R516, R517, R519, R520, R522). A code of the instruction register that no row names acts as BYPASS, and under IDCODE the IDCODE register is captured (R519, R520). That IDCODE is current after a reset of the TAP (log 4), what the loss of both clocks comes to (log 58) and where the pins' rules disagree (log 80) are the model's. -/
def Obligations.PinsAndTestAccess : Prop :=
  ∀ (s : State),
    (s.glb.supplyBad = true → ∃ t, exec .supplyValid s = .next t ∧ t.glb.mode = .reset ∧ t.glb.supplyBad = false ∧ t.tap = .idcode ∧ t.glb.dr = some s.idcode ∧ t.glb.tripPin = false ∧ t.reg .GLB_RESET_CAUSE 0 [] = 1)
    ∧ (s.glb.supplyBad = false → ∃ t, exec .supplyExcursion s = .next t ∧ t.glb.mode = .reset ∧ t.glb.supplyBad = true ∧ t.heldInReset = true ∧ t.gwe.owner = none)
    ∧ (s.glb.supplyBad = false → ∃ t, exec .resetNAssert s = .next t ∧ t.glb.mode = .reset ∧ t.glb.rstLow = true ∧ t.heldInReset = true ∧ t.reg .GLB_RESET_CAUSE 0 [] = 2)
    ∧ (exec .resetNRelease s = .next { s with glb := { s.glb with rstLow := false } })
    ∧ (s.Inv → s.glb.clkA = true → s.glb.clocksLost = false → s.onB = false →
      (s.glb.clkB = true → ∃ t, exec (.refclkLoss false) s = .next t ∧ t.onB = true ∧ t.glb = { s.glb with clkA := false })
      ∧ (s.glb.clkB = false → ∃ t, exec (.refclkLoss false) s = .next t ∧ t.glb.mode = .reset ∧ t.glb.clocksLost = true ∧ t.heldInReset = true))
    ∧ (s.glb.clocksLost = true → ∀ b, ∃ t, exec (.refclkReturn b) s = .next t ∧ t.glb.mode = .reset ∧ t.glb.clocksLost = false)
    ∧ (s.glb.clocksLost = false → ∃ t, exec (.refclkReturn true) s = .next t ∧ t = { s with glb := { s.glb with clkB := true } })
    ∧ (∀ (d : Fin 8) x (temp : Int), d < s.dies → s.senses d x = true →
      ((((s.rf .GLB_THERM_CFG 0 [] 7 0 : Nat) : Int) ≤ temp → (d.val * 3 + sensorCode x) ∉ s.glb.warned →
        ∃ t, exec (.thermWarn d x temp) s = .next t ∧ t.glb = { s.glb with temps := mset 0 s.glb.temps (d.val * 3 + sensorCode x) temp, warned := s.glb.warned ++ [d.val * 3 + sensorCode x] } ∧ only [.regs, .glb, .gwe] s t)
      ∧ (∀ same : SameCycle, tripLevel x < temp →
        ∃ t, exec (.thermtrip d x ⟨same, temp⟩) s = .next t ∧ t.glb.tripPin = true ∧ (x = .compute → t.excluded d = true) ∧ (x = .hbm → nbit t.ssc.lost d = true))
      ∧ (temp ≤ tripLevel x → exec (.thermtrip d x ⟨{}, temp⟩) s = .next s)))
    ∧ (s.glb.supplyBad = false →
      (s.tap.holds = false →
        (∀ c i, (c, i) ∈ [(Instr.idcode, (0x01 : BitVec 8)), (.samplePreload, 0x02), (.bypass, 0xFF), (.tapReset, 0x01)] →
            ∃ t, exec c s = .next t ∧ t.glb.ir = i ∧ t.glb.dr = t.captureDr ∧ t = { s with glb := { s.glb with ir := t.glb.ir, dr := t.glb.dr, shift := false } })
        ∧ (∃ t, exec .idcode s = .next t ∧ t.glb.dr = some s.idcode) ∧ (∃ t, exec .bypass s = .next t ∧ t.glb.dr = some 0)
        ∧ ∀ c i k, (c, i, k) ∈ [(Instr.extest, TapIns.extest, (0x00 : BitVec 8)), (.clamp, .clamp, 0x04), (.highz, .highz, 0x05), (.extestPulse, .extestPulse, 0x0A), (.extestTrain, .extestTrain, 0x0B)] →
            ∃ t, exec c s = .next t ∧ (loadIr s k).coldFrom t 1 ∧ t.glb.mode = .reset ∧ t.glb.ir = k ∧ t.tap = i ∧ t.heldInReset = true)
      ∧ (s.tap.holds = true → ∃ t, exec .tapHoldEnd s = .next t ∧ t.tap.holds = false ∧ t.glb.mode = .reset))
    ∧ (∀ c : BitVec 8, c ∉ ([0x00, 0x01, 0x02, 0x04, 0x05, 0x0A, 0x0B] : List (BitVec 8)) → TapIns.ofCode c = .bypass)
    ∧ (s.pinsReset = true → ∀ p, s.lineTxPin p = .idle ∧ s.lineRxPin p = .highZ ∧ s.hostPin = .highZ ∧ s.clockPin = .highZ)
end

