-- ==== Sys2Proof/Laws/Map.lean ====
section
/-! SUPPORT. The laws of sparse data: what a key reads as after a write, and that every operation keeps the canonical form. -/

namespace Sys2Proof.Machine

variable {α : Type}

theorem mwfFrom_weaken [DecidableEq α] (d : Nat → α) {lo hi : Nat} (h : lo ≤ hi) :
    ∀ m : SMap α, mwfFrom d hi m = true → mwfFrom d lo m = true
  | [], _ => rfl
  | (k, v) :: r, w => by
    simp only [mwfFrom, Bool.and_eq_true, decide_eq_true_eq] at w ⊢
    exact ⟨⟨by omega, w.1.2⟩, w.2⟩

/-- A key below the bound of a well-formed map is not listed. -/
theorem mfind_below [DecidableEq α] (d : Nat → α) : ∀ (m : SMap α) (lo key : Nat), mwfFrom d lo m = true → key < lo → mfind m key = none
  | [], _, _, _, _ => rfl
  | (k, v) :: r, lo, key, w, h => by
    simp only [mwfFrom, Bool.and_eq_true, decide_eq_true_eq] at w
    simp only [mfind]
    rw [if_neg (by omega), if_pos (by omega)]

theorem minsert_wf [DecidableEq α] (d : Nat → α) (key : Nat) (v : α) (hv : v ≠ d key) :
    ∀ (m : SMap α) (lo : Nat), lo ≤ key → mwfFrom d lo m = true → mwfFrom d lo (minsert key v m) = true
  | [], lo, h, _ => by simp [minsert, mwfFrom, h, hv]
  | (k, x) :: r, lo, h, w => by
    simp only [mwfFrom, Bool.and_eq_true, decide_eq_true_eq] at w
    simp only [minsert]
    split
    · subst_vars; simp [mwfFrom, h, hv, w.2]
    · split
      · simp only [mwfFrom, Bool.and_eq_true, decide_eq_true_eq]
        exact ⟨⟨h, hv⟩, ⟨by omega, w.1.2⟩, w.2⟩
      · simp only [mwfFrom, Bool.and_eq_true, decide_eq_true_eq]
        exact ⟨w.1, minsert_wf d key v hv r (k + 1) (by omega) w.2⟩

theorem mremove_wf [DecidableEq α] (d : Nat → α) (key : Nat) :
    ∀ (m : SMap α) (lo : Nat), mwfFrom d lo m = true → mwfFrom d lo (mremove key m) = true
  | [], _, _ => rfl
  | (k, x) :: r, lo, w => by
    simp only [mwfFrom, Bool.and_eq_true, decide_eq_true_eq] at w
    simp only [mremove]
    split
    · exact mwfFrom_weaken d (by omega) r w.2
    · split
      · simp only [mwfFrom, Bool.and_eq_true, decide_eq_true_eq]; exact w
      · simp only [mwfFrom, Bool.and_eq_true, decide_eq_true_eq]
        exact ⟨w.1, mremove_wf d key r (k + 1) w.2⟩

/-- A write keeps the canonical form. -/
theorem mset_wf [DecidableEq α] (d : α) (m : SMap α) (key : Nat) (v : α) (w : mwf d m = true) : mwf d (mset d m key v) = true := by
  simp only [mwf, mset] at *
  split
  · exact mremove_wf _ key m 0 w
  · exact minsert_wf _ key v ‹_› m 0 (Nat.zero_le _) w

/-- Writing bytes keeps the canonical form of a byte store. -/
theorem putBytes_wf : ∀ (l : List Byte) (m : Mem) (a : Nat), mwf 0 m = true → mwf 0 (putBytes m a l) = true
  | [], _, _, w => w
  | b :: r, m, a, w => putBytes_wf r _ (a + 1) (mset_wf 0 m a b w)

theorem mfilter_wf [DecidableEq α] (d : Nat → α) (p : Nat × α → Bool) :
    ∀ (m : SMap α) (lo : Nat), mwfFrom d lo m = true → mwfFrom d lo (m.filter p) = true
  | [], _, _ => rfl
  | (k, x) :: r, lo, w => by
    simp only [mwfFrom, Bool.and_eq_true, decide_eq_true_eq] at w
    simp only [List.filter_cons]
    split
    · simp only [mwfFrom, Bool.and_eq_true, decide_eq_true_eq]
      exact ⟨w.1, mfilter_wf d p r (k + 1) w.2⟩
    · exact mwfFrom_weaken d (by omega) _ (mfilter_wf d p r (k + 1) w.2)

/-- Dropping keys keeps the canonical form. -/
theorem mdrop_wf [DecidableEq α] (d : α) (p : Nat → Bool) (m : SMap α) (w : mwf d m = true) : mwf d (mdrop p m) = true := mfilter_wf _ _ m 0 w

theorem mfind_minsert_self (key : Nat) (v : α) : ∀ m : SMap α, mfind (minsert key v m) key = some v
  | [] => by simp [minsert, mfind]
  | (k, x) :: r => by
    simp only [minsert]
    split
    · simp [mfind]
    · split
      · simp [mfind]
      · simp only [mfind]
        rw [if_neg ‹_›, if_neg ‹_›]
        exact mfind_minsert_self key v r

theorem mfind_minsert_other (key : Nat) (v : α) (a : Nat) (h : a ≠ key) : ∀ m : SMap α, mfind (minsert key v m) a = mfind m a
  | [] => by
    simp only [minsert, mfind]
    rw [if_neg (fun e => h e.symm)]
    split <;> rfl
  | (k, x) :: r => by
    simp only [minsert]
    split
    · subst_vars
      have hk : ¬ k = a := fun e => h e.symm
      simp only [mfind, hk, if_false]
    · split
      · simp only [mfind]
        rw [if_neg (fun e => h e.symm)]
        split
        · rw [if_neg (by omega), if_pos (by omega)]
        · rfl
      · simp only [mfind]
        rw [mfind_minsert_other key v a h r]

theorem mfind_mremove_self [DecidableEq α] (d : Nat → α) (key : Nat) :
    ∀ (m : SMap α) (lo : Nat), mwfFrom d lo m = true → mfind (mremove key m) key = none
  | [], _, _ => rfl
  | (k, x) :: r, lo, w => by
    simp only [mwfFrom, Bool.and_eq_true, decide_eq_true_eq] at w
    simp only [mremove]
    split
    · exact mfind_below d r (k + 1) key w.2 (by omega)
    · split
      · simp only [mfind]
        rw [if_neg ‹_›, if_pos ‹_›]
      · simp only [mfind]
        rw [if_neg ‹_›, if_neg ‹_›]
        exact mfind_mremove_self d key r (k + 1) w.2

theorem mfind_mremove_other [DecidableEq α] (d : Nat → α) (key a : Nat) (h : a ≠ key) :
    ∀ (m : SMap α) (lo : Nat), mwfFrom d lo m = true → mfind (mremove key m) a = mfind m a
  | [], _, _ => rfl
  | (k, x) :: r, lo, w => by
    simp only [mwfFrom, Bool.and_eq_true, decide_eq_true_eq] at w
    simp only [mremove]
    split
    · subst_vars
      simp only [mfind]
      rw [if_neg (fun e => h e.symm)]
      split
      · exact mfind_below d r (k + 1) a w.2 (by omega)
      · rfl
    · split
      · rfl
      · simp only [mfind]
        rw [mfind_mremove_other d key a h r (k + 1) w.2]

/-- A write is read back at its key. -/
theorem mget_mset_self [DecidableEq α] (d : α) (m : SMap α) (key : Nat) (v : α) (w : mwf d m = true) : mget d (mset d m key v) key = v := by
  simp only [mget, mset]
  split
  · rw [mfind_mremove_self _ key m 0 w]; simp [*]
  · rw [mfind_minsert_self]; rfl

/-- A write leaves every other key alone. -/
theorem mget_mset_other [DecidableEq α] (d : α) (m : SMap α) (key a : Nat) (v : α) (h : a ≠ key) (w : mwf d m = true) :
    mget d (mset d m key v) a = mget d m a := by
  simp only [mget, mset]
  split
  · rw [mfind_mremove_other _ key a h m 0 w]
  · rw [mfind_minsert_other key v a h m]

/-- Bytes outside a written range read as before. -/
theorem putBytes_other : ∀ (l : List Byte) (m : Mem) (a x : Nat), mwf 0 m = true → (x < a ∨ a + l.length ≤ x) → mget 0 (putBytes m a l) x = mget 0 m x
  | [], _, _, _, _, _ => rfl
  | b :: r, m, a, x, w, h => by
    simp only [putBytes]
    rw [putBytes_other r _ (a + 1) x (mset_wf 0 m a b w) (by simp only [List.length_cons] at h; omega)]
    exact mget_mset_other 0 m a x b (by simp only [List.length_cons] at h; omega) w

/-- A byte inside a written range reads as written. -/
theorem putBytes_get : ∀ (l : List Byte) (m : Mem) (a i : Nat), mwf 0 m = true → i < l.length → mget 0 (putBytes m a l) (a + i) = l.getD i 0
  | [], _, _, _, _, h => by simp at h
  | b :: r, m, a, 0, w, _ => by
    simp only [putBytes, Nat.add_zero, List.getD_cons_zero]
    rw [putBytes_other r _ (a + 1) a (mset_wf 0 m a b w) (by omega)]
    exact mget_mset_self 0 m a b w
  | b :: r, m, a, i + 1, w, h => by
    simp only [putBytes, List.getD_cons_succ]
    have := putBytes_get r (mset 0 m a b) (a + 1) i (mset_wf 0 m a b w) (by simpa using h)
    rw [← this]; congr 1; omega

/-! Maps whose keys rise, whatever their entries read as. -/

theorem mrise_weaken {lo hi : Nat} (h : lo ≤ hi) : ∀ m : SMap α, mrise hi m = true → mrise lo m = true
  | [], _ => rfl
  | (k, v) :: r, w => by
    simp only [mrise, Bool.and_eq_true, decide_eq_true_eq] at w ⊢
    exact ⟨by omega, w.2⟩

/-- A canonical map has rising keys. -/
theorem mrise_of_wf [DecidableEq α] (d : Nat → α) : ∀ (m : SMap α) (lo : Nat), mwfFrom d lo m = true → mrise lo m = true
  | [], _, _ => rfl
  | (k, v) :: r, lo, w => by
    simp only [mwfFrom, mrise, Bool.and_eq_true, decide_eq_true_eq] at w ⊢
    exact ⟨w.1.1, mrise_of_wf d r (k + 1) w.2⟩

/-- A key below the bound of a rising map is not listed. -/
theorem mfind_below_rise : ∀ (m : SMap α) (lo key : Nat), mrise lo m = true → key < lo → mfind m key = none
  | [], _, _, _, _ => rfl
  | (k, v) :: r, lo, key, w, h => by
    simp only [mrise, Bool.and_eq_true, decide_eq_true_eq] at w
    simp only [mfind]
    rw [if_neg (by omega), if_pos (by omega)]

theorem minsert_rise (key : Nat) (v : α) : ∀ (m : SMap α) (lo : Nat), lo ≤ key → mrise lo m = true → mrise lo (minsert key v m) = true
  | [], lo, h, _ => by simp [minsert, mrise, h]
  | (k, x) :: r, lo, h, w => by
    simp only [mrise, Bool.and_eq_true, decide_eq_true_eq] at w
    simp only [minsert]
    split
    · subst_vars; simp [mrise, h, w.2]
    · split
      · simp only [mrise, Bool.and_eq_true, decide_eq_true_eq]
        exact ⟨h, by omega, w.2⟩
      · simp only [mrise, Bool.and_eq_true, decide_eq_true_eq]
        exact ⟨w.1, minsert_rise key v r (k + 1) (by omega) w.2⟩

theorem mremove_rise (key : Nat) : ∀ (m : SMap α) (lo : Nat), mrise lo m = true → mrise lo (mremove key m) = true
  | [], _, _ => rfl
  | (k, x) :: r, lo, w => by
    simp only [mrise, Bool.and_eq_true, decide_eq_true_eq] at w
    simp only [mremove]
    split
    · exact mrise_weaken (by omega) r w.2
    · split
      · simp only [mrise, Bool.and_eq_true, decide_eq_true_eq]; exact w
      · simp only [mrise, Bool.and_eq_true, decide_eq_true_eq]
        exact ⟨w.1, mremove_rise key r (k + 1) w.2⟩

/-- A write keeps the keys rising. -/
theorem mset_rise [DecidableEq α] (d : α) (m : SMap α) (key : Nat) (v : α) (w : mrise 0 m = true) : mrise 0 (mset d m key v) = true := by
  simp only [mset]
  split
  · exact mremove_rise key m 0 w
  · exact minsert_rise key v m 0 (Nat.zero_le _) w

/-- A change of one value keeps the keys rising. -/
theorem mmod_rise [DecidableEq α] (d : α) (m : SMap α) (key : Nat) (f : α → α) (w : mrise 0 m = true) : mrise 0 (mmod d m key f) = true :=
  mset_rise d m key _ w

theorem mfilter_rise (p : Nat × α → Bool) : ∀ (m : SMap α) (lo : Nat), mrise lo m = true → mrise lo (m.filter p) = true
  | [], _, _ => rfl
  | (k, x) :: r, lo, w => by
    simp only [mrise, Bool.and_eq_true, decide_eq_true_eq] at w
    simp only [List.filter_cons]
    split
    · simp only [mrise, Bool.and_eq_true, decide_eq_true_eq]
      exact ⟨w.1, mfilter_rise p r (k + 1) w.2⟩
    · exact mrise_weaken (by omega) _ (mfilter_rise p r (k + 1) w.2)

/-- A map over the entries that keeps their keys keeps them rising. -/
theorem mmap_rise {β : Type} (f : Nat × α → Nat × β) (hf : ∀ e, (f e).1 = e.1) : ∀ (m : SMap α) (lo : Nat), mrise lo m = true → mrise lo (m.map f) = true
  | [], _, _ => rfl
  | (k, x) :: r, lo, w => by
    simp only [mrise, Bool.and_eq_true, decide_eq_true_eq] at w
    have hk : (f (k, x)).1 = k := hf _
    rw [List.map_cons, show f (k, x) = (k, (f (k, x)).2) from Prod.ext hk rfl]
    simp only [mrise, Bool.and_eq_true, decide_eq_true_eq]
    exact ⟨w.1, mmap_rise f hf r (k + 1) w.2⟩

theorem mfind_mremove_self_rise (key : Nat) : ∀ (m : SMap α) (lo : Nat), mrise lo m = true → mfind (mremove key m) key = none
  | [], _, _ => rfl
  | (k, x) :: r, lo, w => by
    simp only [mrise, Bool.and_eq_true, decide_eq_true_eq] at w
    simp only [mremove]
    split
    · exact mfind_below_rise r (k + 1) key w.2 (by omega)
    · split
      · simp only [mfind]
        rw [if_neg ‹_›, if_pos ‹_›]
      · simp only [mfind]
        rw [if_neg ‹_›, if_neg ‹_›]
        exact mfind_mremove_self_rise key r (k + 1) w.2

theorem mfind_mremove_other_rise (key a : Nat) (h : a ≠ key) : ∀ (m : SMap α) (lo : Nat), mrise lo m = true → mfind (mremove key m) a = mfind m a
  | [], _, _ => rfl
  | (k, x) :: r, lo, w => by
    simp only [mrise, Bool.and_eq_true, decide_eq_true_eq] at w
    simp only [mremove]
    split
    · subst_vars
      simp only [mfind]
      rw [if_neg (fun e => h e.symm)]
      split
      · exact mfind_below_rise r (k + 1) a w.2 (by omega)
      · rfl
    · split
      · rfl
      · simp only [mfind]
        rw [mfind_mremove_other_rise key a h r (k + 1) w.2]

/-- A write is read back at its key. -/
theorem mget_mset_self_rise [DecidableEq α] (d : α) (m : SMap α) (key : Nat) (v : α) (w : mrise 0 m = true) : mget d (mset d m key v) key = v := by
  simp only [mget, mset]
  split
  · rw [mfind_mremove_self_rise key m 0 w]; simp [*]
  · rw [mfind_minsert_self]; rfl

/-- A write leaves every other key alone. -/
theorem mget_mset_other_rise [DecidableEq α] (d d' : α) (m : SMap α) (key a : Nat) (v : α) (h : a ≠ key) (w : mrise 0 m = true) :
    mget d (mset d' m key v) a = mget d m a := by
  simp only [mget, mset]
  split
  · rw [mfind_mremove_other_rise key a h m 0 w]
  · rw [mfind_minsert_other key v a h m]

/-- The later of two entries at a key stands. -/
theorem minsert_minsert (key : Nat) (v w : α) : ∀ m : SMap α, minsert key v (minsert key w m) = minsert key v m
  | [] => by simp [minsert]
  | (k, x) :: r => by
    by_cases h : k = key
    · subst h; simp [minsert]
    · by_cases h' : key < k
      · simp [minsert, h, h']
      · simp [minsert, h, h', minsert_minsert key v w r]

end Sys2Proof.Machine
end

