-- ==== Sys2Proof/Laws/State.lean ====
section
/-! SUPPORT. The parts of the state after each update of one of them: one lemma per field and update, and the frame of each update. -/

namespace Sys2Proof.Machine

/-! Frames. -/

theorem only_refl (l : List Piece) (s : State) : only l s s := by
  intro p _; cases p <;> rfl

theorem only_trans {l : List Piece} {s t u : State} (h : only l s t) (k : only l t u) : only l s u := by
  intro p hp; have a := h p hp; have b := k p hp
  cases p <;> simp only [Piece.same] at * <;> exact b.trans a

/-- A frame of fewer parts is one of more. -/
theorem only_mono {l m : List Piece} {s t : State} (hs : ∀ p, p ∈ l → p ∈ m) (h : only l s t) : only m s t :=
  fun p hp => h p (fun q => hp (hs p q))

/-! setReg. -/

@[simp] theorem State.setReg_part (s : State) (r : Reg) (d : Nat) (idx : List Nat) (w : Word) : (s.setReg r d idx w).part = s.part := rfl
@[simp] theorem State.setReg_glb (s : State) (r : Reg) (d : Nat) (idx : List Nat) (w : Word) : (s.setReg r d idx w).glb = s.glb := rfl
@[simp] theorem State.setReg_phi (s : State) (r : Reg) (d : Nat) (idx : List Nat) (w : Word) : (s.setReg r d idx w).phi = s.phi := rfl
@[simp] theorem State.setReg_cte (s : State) (r : Reg) (d : Nat) (idx : List Nat) (w : Word) : (s.setReg r d idx w).cte = s.cte := rfl
@[simp] theorem State.setReg_lpx (s : State) (r : Reg) (d : Nat) (idx : List Nat) (w : Word) : (s.setReg r d idx w).lpx = s.lpx := rfl
@[simp] theorem State.setReg_prs (s : State) (r : Reg) (d : Nat) (idx : List Nat) (w : Word) : (s.setReg r d idx w).prs = s.prs := rfl
@[simp] theorem State.setReg_cls (s : State) (r : Reg) (d : Nat) (idx : List Nat) (w : Word) : (s.setReg r d idx w).cls = s.cls := rfl
@[simp] theorem State.setReg_fwt (s : State) (r : Reg) (d : Nat) (idx : List Nat) (w : Word) : (s.setReg r d idx w).fwt = s.fwt := rfl
@[simp] theorem State.setReg_bpm (s : State) (r : Reg) (d : Nat) (idx : List Nat) (w : Word) : (s.setReg r d idx w).bpm = s.bpm := rfl
@[simp] theorem State.setReg_qba (s : State) (r : Reg) (d : Nat) (idx : List Nat) (w : Word) : (s.setReg r d idx w).qba = s.qba := rfl
@[simp] theorem State.setReg_ssc (s : State) (r : Reg) (d : Nat) (idx : List Nat) (w : Word) : (s.setReg r d idx w).ssc = s.ssc := rfl
@[simp] theorem State.setReg_rsq (s : State) (r : Reg) (d : Nat) (idx : List Nat) (w : Word) : (s.setReg r d idx w).rsq = s.rsq := rfl
@[simp] theorem State.setReg_cra (s : State) (r : Reg) (d : Nat) (idx : List Nat) (w : Word) : (s.setReg r d idx w).cra = s.cra := rfl
@[simp] theorem State.setReg_tdx (s : State) (r : Reg) (d : Nat) (idx : List Nat) (w : Word) : (s.setReg r d idx w).tdx = s.tdx := rfl
@[simp] theorem State.setReg_syu (s : State) (r : Reg) (d : Nat) (idx : List Nat) (w : Word) : (s.setReg r d idx w).syu = s.syu := rfl
@[simp] theorem State.setReg_gwe (s : State) (r : Reg) (d : Nat) (idx : List Nat) (w : Word) : (s.setReg r d idx w).gwe = s.gwe := rfl
@[simp] theorem State.setReg_plt (s : State) (r : Reg) (d : Nat) (idx : List Nat) (w : Word) : (s.setReg r d idx w).plt = s.plt := rfl
@[simp] theorem State.setReg_icu (s : State) (r : Reg) (d : Nat) (idx : List Nat) (w : Word) : (s.setReg r d idx w).icu = s.icu := rfl
@[simp] theorem State.setReg_lineTx (s : State) (r : Reg) (d : Nat) (idx : List Nat) (w : Word) : (s.setReg r d idx w).lineTx = s.lineTx := rfl
@[simp] theorem State.setReg_free (s : State) (r : Reg) (d : Nat) (idx : List Nat) (w : Word) : (s.setReg r d idx w).free = s.free := rfl
@[simp] theorem State.setReg_pending (s : State) (r : Reg) (d : Nat) (idx : List Nat) (w : Word) : (s.setReg r d idx w).pending = s.pending := rfl

theorem State.setReg_only (s : State) (r : Reg) (d : Nat) (idx : List Nat) (w : Word) : only [.regs] s (s.setReg r d idx w) := by
  intro p hp; cases p <;> first | rfl | exact absurd (by decide) hp

/-! setRf. -/

@[simp] theorem State.setRf_part (s : State) (r : Reg) (d : Nat) (idx : List Nat) (hi lo v : Nat) : (s.setRf r d idx hi lo v).part = s.part := rfl
@[simp] theorem State.setRf_glb (s : State) (r : Reg) (d : Nat) (idx : List Nat) (hi lo v : Nat) : (s.setRf r d idx hi lo v).glb = s.glb := rfl
@[simp] theorem State.setRf_phi (s : State) (r : Reg) (d : Nat) (idx : List Nat) (hi lo v : Nat) : (s.setRf r d idx hi lo v).phi = s.phi := rfl
@[simp] theorem State.setRf_cte (s : State) (r : Reg) (d : Nat) (idx : List Nat) (hi lo v : Nat) : (s.setRf r d idx hi lo v).cte = s.cte := rfl
@[simp] theorem State.setRf_lpx (s : State) (r : Reg) (d : Nat) (idx : List Nat) (hi lo v : Nat) : (s.setRf r d idx hi lo v).lpx = s.lpx := rfl
@[simp] theorem State.setRf_prs (s : State) (r : Reg) (d : Nat) (idx : List Nat) (hi lo v : Nat) : (s.setRf r d idx hi lo v).prs = s.prs := rfl
@[simp] theorem State.setRf_cls (s : State) (r : Reg) (d : Nat) (idx : List Nat) (hi lo v : Nat) : (s.setRf r d idx hi lo v).cls = s.cls := rfl
@[simp] theorem State.setRf_fwt (s : State) (r : Reg) (d : Nat) (idx : List Nat) (hi lo v : Nat) : (s.setRf r d idx hi lo v).fwt = s.fwt := rfl
@[simp] theorem State.setRf_bpm (s : State) (r : Reg) (d : Nat) (idx : List Nat) (hi lo v : Nat) : (s.setRf r d idx hi lo v).bpm = s.bpm := rfl
@[simp] theorem State.setRf_qba (s : State) (r : Reg) (d : Nat) (idx : List Nat) (hi lo v : Nat) : (s.setRf r d idx hi lo v).qba = s.qba := rfl
@[simp] theorem State.setRf_ssc (s : State) (r : Reg) (d : Nat) (idx : List Nat) (hi lo v : Nat) : (s.setRf r d idx hi lo v).ssc = s.ssc := rfl
@[simp] theorem State.setRf_rsq (s : State) (r : Reg) (d : Nat) (idx : List Nat) (hi lo v : Nat) : (s.setRf r d idx hi lo v).rsq = s.rsq := rfl
@[simp] theorem State.setRf_cra (s : State) (r : Reg) (d : Nat) (idx : List Nat) (hi lo v : Nat) : (s.setRf r d idx hi lo v).cra = s.cra := rfl
@[simp] theorem State.setRf_tdx (s : State) (r : Reg) (d : Nat) (idx : List Nat) (hi lo v : Nat) : (s.setRf r d idx hi lo v).tdx = s.tdx := rfl
@[simp] theorem State.setRf_syu (s : State) (r : Reg) (d : Nat) (idx : List Nat) (hi lo v : Nat) : (s.setRf r d idx hi lo v).syu = s.syu := rfl
@[simp] theorem State.setRf_gwe (s : State) (r : Reg) (d : Nat) (idx : List Nat) (hi lo v : Nat) : (s.setRf r d idx hi lo v).gwe = s.gwe := rfl
@[simp] theorem State.setRf_plt (s : State) (r : Reg) (d : Nat) (idx : List Nat) (hi lo v : Nat) : (s.setRf r d idx hi lo v).plt = s.plt := rfl
@[simp] theorem State.setRf_icu (s : State) (r : Reg) (d : Nat) (idx : List Nat) (hi lo v : Nat) : (s.setRf r d idx hi lo v).icu = s.icu := rfl
@[simp] theorem State.setRf_lineTx (s : State) (r : Reg) (d : Nat) (idx : List Nat) (hi lo v : Nat) : (s.setRf r d idx hi lo v).lineTx = s.lineTx := rfl
@[simp] theorem State.setRf_free (s : State) (r : Reg) (d : Nat) (idx : List Nat) (hi lo v : Nat) : (s.setRf r d idx hi lo v).free = s.free := rfl
@[simp] theorem State.setRf_pending (s : State) (r : Reg) (d : Nat) (idx : List Nat) (hi lo v : Nat) : (s.setRf r d idx hi lo v).pending = s.pending := rfl

theorem State.setRf_only (s : State) (r : Reg) (d : Nat) (idx : List Nat) (hi lo v : Nat) : only [.regs] s (s.setRf r d idx hi lo v) := by
  intro p hp; cases p <;> first | rfl | exact absurd (by decide) hp

/-! bumpGen. -/

@[simp] theorem State.bumpGen_part (s : State) (r : Reg) (d : Nat) : (s.bumpGen r d).part = s.part := s.setRf_part r d [] 31 16 _
@[simp] theorem State.bumpGen_glb (s : State) (r : Reg) (d : Nat) : (s.bumpGen r d).glb = s.glb := s.setRf_glb r d [] 31 16 _
@[simp] theorem State.bumpGen_phi (s : State) (r : Reg) (d : Nat) : (s.bumpGen r d).phi = s.phi := s.setRf_phi r d [] 31 16 _
@[simp] theorem State.bumpGen_cte (s : State) (r : Reg) (d : Nat) : (s.bumpGen r d).cte = s.cte := s.setRf_cte r d [] 31 16 _
@[simp] theorem State.bumpGen_lpx (s : State) (r : Reg) (d : Nat) : (s.bumpGen r d).lpx = s.lpx := s.setRf_lpx r d [] 31 16 _
@[simp] theorem State.bumpGen_prs (s : State) (r : Reg) (d : Nat) : (s.bumpGen r d).prs = s.prs := s.setRf_prs r d [] 31 16 _
@[simp] theorem State.bumpGen_cls (s : State) (r : Reg) (d : Nat) : (s.bumpGen r d).cls = s.cls := s.setRf_cls r d [] 31 16 _
@[simp] theorem State.bumpGen_fwt (s : State) (r : Reg) (d : Nat) : (s.bumpGen r d).fwt = s.fwt := s.setRf_fwt r d [] 31 16 _
@[simp] theorem State.bumpGen_bpm (s : State) (r : Reg) (d : Nat) : (s.bumpGen r d).bpm = s.bpm := s.setRf_bpm r d [] 31 16 _
@[simp] theorem State.bumpGen_qba (s : State) (r : Reg) (d : Nat) : (s.bumpGen r d).qba = s.qba := s.setRf_qba r d [] 31 16 _
@[simp] theorem State.bumpGen_ssc (s : State) (r : Reg) (d : Nat) : (s.bumpGen r d).ssc = s.ssc := s.setRf_ssc r d [] 31 16 _
@[simp] theorem State.bumpGen_rsq (s : State) (r : Reg) (d : Nat) : (s.bumpGen r d).rsq = s.rsq := s.setRf_rsq r d [] 31 16 _
@[simp] theorem State.bumpGen_cra (s : State) (r : Reg) (d : Nat) : (s.bumpGen r d).cra = s.cra := s.setRf_cra r d [] 31 16 _
@[simp] theorem State.bumpGen_tdx (s : State) (r : Reg) (d : Nat) : (s.bumpGen r d).tdx = s.tdx := s.setRf_tdx r d [] 31 16 _
@[simp] theorem State.bumpGen_syu (s : State) (r : Reg) (d : Nat) : (s.bumpGen r d).syu = s.syu := s.setRf_syu r d [] 31 16 _
@[simp] theorem State.bumpGen_gwe (s : State) (r : Reg) (d : Nat) : (s.bumpGen r d).gwe = s.gwe := s.setRf_gwe r d [] 31 16 _
@[simp] theorem State.bumpGen_plt (s : State) (r : Reg) (d : Nat) : (s.bumpGen r d).plt = s.plt := s.setRf_plt r d [] 31 16 _
@[simp] theorem State.bumpGen_icu (s : State) (r : Reg) (d : Nat) : (s.bumpGen r d).icu = s.icu := s.setRf_icu r d [] 31 16 _
@[simp] theorem State.bumpGen_lineTx (s : State) (r : Reg) (d : Nat) : (s.bumpGen r d).lineTx = s.lineTx := s.setRf_lineTx r d [] 31 16 _
@[simp] theorem State.bumpGen_free (s : State) (r : Reg) (d : Nat) : (s.bumpGen r d).free = s.free := s.setRf_free r d [] 31 16 _
@[simp] theorem State.bumpGen_pending (s : State) (r : Reg) (d : Nat) : (s.bumpGen r d).pending = s.pending := s.setRf_pending r d [] 31 16 _

theorem State.bumpGen_only (s : State) (r : Reg) (d : Nat) : only [.regs] s (s.bumpGen r d) := by
  exact s.setRf_only r d [] 31 16 _

/-! bumpF. -/

@[simp] theorem State.bumpF_part (s : State) (r : Reg) (d : Nat) (idx : List Nat) (hi lo n : Nat) : (s.bumpF r d idx hi lo n).part = s.part := s.setRf_part r d idx hi lo _
@[simp] theorem State.bumpF_glb (s : State) (r : Reg) (d : Nat) (idx : List Nat) (hi lo n : Nat) : (s.bumpF r d idx hi lo n).glb = s.glb := s.setRf_glb r d idx hi lo _
@[simp] theorem State.bumpF_phi (s : State) (r : Reg) (d : Nat) (idx : List Nat) (hi lo n : Nat) : (s.bumpF r d idx hi lo n).phi = s.phi := s.setRf_phi r d idx hi lo _
@[simp] theorem State.bumpF_cte (s : State) (r : Reg) (d : Nat) (idx : List Nat) (hi lo n : Nat) : (s.bumpF r d idx hi lo n).cte = s.cte := s.setRf_cte r d idx hi lo _
@[simp] theorem State.bumpF_lpx (s : State) (r : Reg) (d : Nat) (idx : List Nat) (hi lo n : Nat) : (s.bumpF r d idx hi lo n).lpx = s.lpx := s.setRf_lpx r d idx hi lo _
@[simp] theorem State.bumpF_prs (s : State) (r : Reg) (d : Nat) (idx : List Nat) (hi lo n : Nat) : (s.bumpF r d idx hi lo n).prs = s.prs := s.setRf_prs r d idx hi lo _
@[simp] theorem State.bumpF_cls (s : State) (r : Reg) (d : Nat) (idx : List Nat) (hi lo n : Nat) : (s.bumpF r d idx hi lo n).cls = s.cls := s.setRf_cls r d idx hi lo _
@[simp] theorem State.bumpF_fwt (s : State) (r : Reg) (d : Nat) (idx : List Nat) (hi lo n : Nat) : (s.bumpF r d idx hi lo n).fwt = s.fwt := s.setRf_fwt r d idx hi lo _
@[simp] theorem State.bumpF_bpm (s : State) (r : Reg) (d : Nat) (idx : List Nat) (hi lo n : Nat) : (s.bumpF r d idx hi lo n).bpm = s.bpm := s.setRf_bpm r d idx hi lo _
@[simp] theorem State.bumpF_qba (s : State) (r : Reg) (d : Nat) (idx : List Nat) (hi lo n : Nat) : (s.bumpF r d idx hi lo n).qba = s.qba := s.setRf_qba r d idx hi lo _
@[simp] theorem State.bumpF_ssc (s : State) (r : Reg) (d : Nat) (idx : List Nat) (hi lo n : Nat) : (s.bumpF r d idx hi lo n).ssc = s.ssc := s.setRf_ssc r d idx hi lo _
@[simp] theorem State.bumpF_rsq (s : State) (r : Reg) (d : Nat) (idx : List Nat) (hi lo n : Nat) : (s.bumpF r d idx hi lo n).rsq = s.rsq := s.setRf_rsq r d idx hi lo _
@[simp] theorem State.bumpF_cra (s : State) (r : Reg) (d : Nat) (idx : List Nat) (hi lo n : Nat) : (s.bumpF r d idx hi lo n).cra = s.cra := s.setRf_cra r d idx hi lo _
@[simp] theorem State.bumpF_tdx (s : State) (r : Reg) (d : Nat) (idx : List Nat) (hi lo n : Nat) : (s.bumpF r d idx hi lo n).tdx = s.tdx := s.setRf_tdx r d idx hi lo _
@[simp] theorem State.bumpF_syu (s : State) (r : Reg) (d : Nat) (idx : List Nat) (hi lo n : Nat) : (s.bumpF r d idx hi lo n).syu = s.syu := s.setRf_syu r d idx hi lo _
@[simp] theorem State.bumpF_gwe (s : State) (r : Reg) (d : Nat) (idx : List Nat) (hi lo n : Nat) : (s.bumpF r d idx hi lo n).gwe = s.gwe := s.setRf_gwe r d idx hi lo _
@[simp] theorem State.bumpF_plt (s : State) (r : Reg) (d : Nat) (idx : List Nat) (hi lo n : Nat) : (s.bumpF r d idx hi lo n).plt = s.plt := s.setRf_plt r d idx hi lo _
@[simp] theorem State.bumpF_icu (s : State) (r : Reg) (d : Nat) (idx : List Nat) (hi lo n : Nat) : (s.bumpF r d idx hi lo n).icu = s.icu := s.setRf_icu r d idx hi lo _
@[simp] theorem State.bumpF_lineTx (s : State) (r : Reg) (d : Nat) (idx : List Nat) (hi lo n : Nat) : (s.bumpF r d idx hi lo n).lineTx = s.lineTx := s.setRf_lineTx r d idx hi lo _
@[simp] theorem State.bumpF_free (s : State) (r : Reg) (d : Nat) (idx : List Nat) (hi lo n : Nat) : (s.bumpF r d idx hi lo n).free = s.free := s.setRf_free r d idx hi lo _
@[simp] theorem State.bumpF_pending (s : State) (r : Reg) (d : Nat) (idx : List Nat) (hi lo n : Nat) : (s.bumpF r d idx hi lo n).pending = s.pending := s.setRf_pending r d idx hi lo _

theorem State.bumpF_only (s : State) (r : Reg) (d : Nat) (idx : List Nat) (hi lo n : Nat) : only [.regs] s (s.bumpF r d idx hi lo n) := by
  exact s.setRf_only r d idx hi lo _

/-! bumpN. -/

@[simp] theorem State.bumpN_part (s : State) (r : Reg) (d : Nat) (idx : List Nat) (n : Nat) : (s.bumpN r d idx n).part = s.part := s.bumpF_part r d idx 31 0 n
@[simp] theorem State.bumpN_glb (s : State) (r : Reg) (d : Nat) (idx : List Nat) (n : Nat) : (s.bumpN r d idx n).glb = s.glb := s.bumpF_glb r d idx 31 0 n
@[simp] theorem State.bumpN_phi (s : State) (r : Reg) (d : Nat) (idx : List Nat) (n : Nat) : (s.bumpN r d idx n).phi = s.phi := s.bumpF_phi r d idx 31 0 n
@[simp] theorem State.bumpN_cte (s : State) (r : Reg) (d : Nat) (idx : List Nat) (n : Nat) : (s.bumpN r d idx n).cte = s.cte := s.bumpF_cte r d idx 31 0 n
@[simp] theorem State.bumpN_lpx (s : State) (r : Reg) (d : Nat) (idx : List Nat) (n : Nat) : (s.bumpN r d idx n).lpx = s.lpx := s.bumpF_lpx r d idx 31 0 n
@[simp] theorem State.bumpN_prs (s : State) (r : Reg) (d : Nat) (idx : List Nat) (n : Nat) : (s.bumpN r d idx n).prs = s.prs := s.bumpF_prs r d idx 31 0 n
@[simp] theorem State.bumpN_cls (s : State) (r : Reg) (d : Nat) (idx : List Nat) (n : Nat) : (s.bumpN r d idx n).cls = s.cls := s.bumpF_cls r d idx 31 0 n
@[simp] theorem State.bumpN_fwt (s : State) (r : Reg) (d : Nat) (idx : List Nat) (n : Nat) : (s.bumpN r d idx n).fwt = s.fwt := s.bumpF_fwt r d idx 31 0 n
@[simp] theorem State.bumpN_bpm (s : State) (r : Reg) (d : Nat) (idx : List Nat) (n : Nat) : (s.bumpN r d idx n).bpm = s.bpm := s.bumpF_bpm r d idx 31 0 n
@[simp] theorem State.bumpN_qba (s : State) (r : Reg) (d : Nat) (idx : List Nat) (n : Nat) : (s.bumpN r d idx n).qba = s.qba := s.bumpF_qba r d idx 31 0 n
@[simp] theorem State.bumpN_ssc (s : State) (r : Reg) (d : Nat) (idx : List Nat) (n : Nat) : (s.bumpN r d idx n).ssc = s.ssc := s.bumpF_ssc r d idx 31 0 n
@[simp] theorem State.bumpN_rsq (s : State) (r : Reg) (d : Nat) (idx : List Nat) (n : Nat) : (s.bumpN r d idx n).rsq = s.rsq := s.bumpF_rsq r d idx 31 0 n
@[simp] theorem State.bumpN_cra (s : State) (r : Reg) (d : Nat) (idx : List Nat) (n : Nat) : (s.bumpN r d idx n).cra = s.cra := s.bumpF_cra r d idx 31 0 n
@[simp] theorem State.bumpN_tdx (s : State) (r : Reg) (d : Nat) (idx : List Nat) (n : Nat) : (s.bumpN r d idx n).tdx = s.tdx := s.bumpF_tdx r d idx 31 0 n
@[simp] theorem State.bumpN_syu (s : State) (r : Reg) (d : Nat) (idx : List Nat) (n : Nat) : (s.bumpN r d idx n).syu = s.syu := s.bumpF_syu r d idx 31 0 n
@[simp] theorem State.bumpN_gwe (s : State) (r : Reg) (d : Nat) (idx : List Nat) (n : Nat) : (s.bumpN r d idx n).gwe = s.gwe := s.bumpF_gwe r d idx 31 0 n
@[simp] theorem State.bumpN_plt (s : State) (r : Reg) (d : Nat) (idx : List Nat) (n : Nat) : (s.bumpN r d idx n).plt = s.plt := s.bumpF_plt r d idx 31 0 n
@[simp] theorem State.bumpN_icu (s : State) (r : Reg) (d : Nat) (idx : List Nat) (n : Nat) : (s.bumpN r d idx n).icu = s.icu := s.bumpF_icu r d idx 31 0 n
@[simp] theorem State.bumpN_lineTx (s : State) (r : Reg) (d : Nat) (idx : List Nat) (n : Nat) : (s.bumpN r d idx n).lineTx = s.lineTx := s.bumpF_lineTx r d idx 31 0 n
@[simp] theorem State.bumpN_free (s : State) (r : Reg) (d : Nat) (idx : List Nat) (n : Nat) : (s.bumpN r d idx n).free = s.free := s.bumpF_free r d idx 31 0 n
@[simp] theorem State.bumpN_pending (s : State) (r : Reg) (d : Nat) (idx : List Nat) (n : Nat) : (s.bumpN r d idx n).pending = s.pending := s.bumpF_pending r d idx 31 0 n

theorem State.bumpN_only (s : State) (r : Reg) (d : Nat) (idx : List Nat) (n : Nat) : only [.regs] s (s.bumpN r d idx n) := by
  exact s.bumpF_only r d idx 31 0 n

/-! bump. -/

@[simp] theorem State.bump_part (s : State) (r : Reg) (d : Nat) (idx : List Nat) : (s.bump r d idx).part = s.part := s.bumpN_part r d idx 1
@[simp] theorem State.bump_glb (s : State) (r : Reg) (d : Nat) (idx : List Nat) : (s.bump r d idx).glb = s.glb := s.bumpN_glb r d idx 1
@[simp] theorem State.bump_phi (s : State) (r : Reg) (d : Nat) (idx : List Nat) : (s.bump r d idx).phi = s.phi := s.bumpN_phi r d idx 1
@[simp] theorem State.bump_cte (s : State) (r : Reg) (d : Nat) (idx : List Nat) : (s.bump r d idx).cte = s.cte := s.bumpN_cte r d idx 1
@[simp] theorem State.bump_lpx (s : State) (r : Reg) (d : Nat) (idx : List Nat) : (s.bump r d idx).lpx = s.lpx := s.bumpN_lpx r d idx 1
@[simp] theorem State.bump_prs (s : State) (r : Reg) (d : Nat) (idx : List Nat) : (s.bump r d idx).prs = s.prs := s.bumpN_prs r d idx 1
@[simp] theorem State.bump_cls (s : State) (r : Reg) (d : Nat) (idx : List Nat) : (s.bump r d idx).cls = s.cls := s.bumpN_cls r d idx 1
@[simp] theorem State.bump_fwt (s : State) (r : Reg) (d : Nat) (idx : List Nat) : (s.bump r d idx).fwt = s.fwt := s.bumpN_fwt r d idx 1
@[simp] theorem State.bump_bpm (s : State) (r : Reg) (d : Nat) (idx : List Nat) : (s.bump r d idx).bpm = s.bpm := s.bumpN_bpm r d idx 1
@[simp] theorem State.bump_qba (s : State) (r : Reg) (d : Nat) (idx : List Nat) : (s.bump r d idx).qba = s.qba := s.bumpN_qba r d idx 1
@[simp] theorem State.bump_ssc (s : State) (r : Reg) (d : Nat) (idx : List Nat) : (s.bump r d idx).ssc = s.ssc := s.bumpN_ssc r d idx 1
@[simp] theorem State.bump_rsq (s : State) (r : Reg) (d : Nat) (idx : List Nat) : (s.bump r d idx).rsq = s.rsq := s.bumpN_rsq r d idx 1
@[simp] theorem State.bump_cra (s : State) (r : Reg) (d : Nat) (idx : List Nat) : (s.bump r d idx).cra = s.cra := s.bumpN_cra r d idx 1
@[simp] theorem State.bump_tdx (s : State) (r : Reg) (d : Nat) (idx : List Nat) : (s.bump r d idx).tdx = s.tdx := s.bumpN_tdx r d idx 1
@[simp] theorem State.bump_syu (s : State) (r : Reg) (d : Nat) (idx : List Nat) : (s.bump r d idx).syu = s.syu := s.bumpN_syu r d idx 1
@[simp] theorem State.bump_gwe (s : State) (r : Reg) (d : Nat) (idx : List Nat) : (s.bump r d idx).gwe = s.gwe := s.bumpN_gwe r d idx 1
@[simp] theorem State.bump_plt (s : State) (r : Reg) (d : Nat) (idx : List Nat) : (s.bump r d idx).plt = s.plt := s.bumpN_plt r d idx 1
@[simp] theorem State.bump_icu (s : State) (r : Reg) (d : Nat) (idx : List Nat) : (s.bump r d idx).icu = s.icu := s.bumpN_icu r d idx 1
@[simp] theorem State.bump_lineTx (s : State) (r : Reg) (d : Nat) (idx : List Nat) : (s.bump r d idx).lineTx = s.lineTx := s.bumpN_lineTx r d idx 1
@[simp] theorem State.bump_free (s : State) (r : Reg) (d : Nat) (idx : List Nat) : (s.bump r d idx).free = s.free := s.bumpN_free r d idx 1
@[simp] theorem State.bump_pending (s : State) (r : Reg) (d : Nat) (idx : List Nat) : (s.bump r d idx).pending = s.pending := s.bumpN_pending r d idx 1

theorem State.bump_only (s : State) (r : Reg) (d : Nat) (idx : List Nat) : only [.regs] s (s.bump r d idx) := by
  exact s.bumpN_only r d idx 1

/-! putThr. -/

@[simp] theorem State.putThr_part (s : State) (d n : Nat) (x : Thr) : (s.putThr d n x).part = s.part := rfl
@[simp] theorem State.putThr_regs (s : State) (d n : Nat) (x : Thr) : (s.putThr d n x).regs = s.regs := rfl
@[simp] theorem State.putThr_glb (s : State) (d n : Nat) (x : Thr) : (s.putThr d n x).glb = s.glb := rfl
@[simp] theorem State.putThr_phi (s : State) (d n : Nat) (x : Thr) : (s.putThr d n x).phi = s.phi := rfl
@[simp] theorem State.putThr_cte (s : State) (d n : Nat) (x : Thr) : (s.putThr d n x).cte = s.cte := rfl
@[simp] theorem State.putThr_lpx (s : State) (d n : Nat) (x : Thr) : (s.putThr d n x).lpx = s.lpx := rfl
@[simp] theorem State.putThr_prs (s : State) (d n : Nat) (x : Thr) : (s.putThr d n x).prs = s.prs := rfl
@[simp] theorem State.putThr_cls (s : State) (d n : Nat) (x : Thr) : (s.putThr d n x).cls = s.cls := rfl
@[simp] theorem State.putThr_fwt (s : State) (d n : Nat) (x : Thr) : (s.putThr d n x).fwt = s.fwt := rfl
@[simp] theorem State.putThr_bpm (s : State) (d n : Nat) (x : Thr) : (s.putThr d n x).bpm = s.bpm := rfl
@[simp] theorem State.putThr_qba (s : State) (d n : Nat) (x : Thr) : (s.putThr d n x).qba = s.qba := rfl
@[simp] theorem State.putThr_ssc (s : State) (d n : Nat) (x : Thr) : (s.putThr d n x).ssc = s.ssc := rfl
@[simp] theorem State.putThr_rsq (s : State) (d n : Nat) (x : Thr) : (s.putThr d n x).rsq = s.rsq := rfl
@[simp] theorem State.putThr_tdx (s : State) (d n : Nat) (x : Thr) : (s.putThr d n x).tdx = s.tdx := rfl
@[simp] theorem State.putThr_syu (s : State) (d n : Nat) (x : Thr) : (s.putThr d n x).syu = s.syu := rfl
@[simp] theorem State.putThr_gwe (s : State) (d n : Nat) (x : Thr) : (s.putThr d n x).gwe = s.gwe := rfl
@[simp] theorem State.putThr_plt (s : State) (d n : Nat) (x : Thr) : (s.putThr d n x).plt = s.plt := rfl
@[simp] theorem State.putThr_icu (s : State) (d n : Nat) (x : Thr) : (s.putThr d n x).icu = s.icu := rfl
@[simp] theorem State.putThr_lineTx (s : State) (d n : Nat) (x : Thr) : (s.putThr d n x).lineTx = s.lineTx := rfl
@[simp] theorem State.putThr_free (s : State) (d n : Nat) (x : Thr) : (s.putThr d n x).free = s.free := rfl
@[simp] theorem State.putThr_pending (s : State) (d n : Nat) (x : Thr) : (s.putThr d n x).pending = s.pending := rfl

theorem State.putThr_only (s : State) (d n : Nat) (x : Thr) : only [.cra] s (s.putThr d n x) := by
  intro p hp; cases p <;> first | rfl | exact absurd (by decide) hp

/-! modThr. -/

@[simp] theorem State.modThr_part (s : State) (d n : Nat) (f : Thr → Thr) : (s.modThr d n f).part = s.part := rfl
@[simp] theorem State.modThr_regs (s : State) (d n : Nat) (f : Thr → Thr) : (s.modThr d n f).regs = s.regs := rfl
@[simp] theorem State.modThr_glb (s : State) (d n : Nat) (f : Thr → Thr) : (s.modThr d n f).glb = s.glb := rfl
@[simp] theorem State.modThr_phi (s : State) (d n : Nat) (f : Thr → Thr) : (s.modThr d n f).phi = s.phi := rfl
@[simp] theorem State.modThr_cte (s : State) (d n : Nat) (f : Thr → Thr) : (s.modThr d n f).cte = s.cte := rfl
@[simp] theorem State.modThr_lpx (s : State) (d n : Nat) (f : Thr → Thr) : (s.modThr d n f).lpx = s.lpx := rfl
@[simp] theorem State.modThr_prs (s : State) (d n : Nat) (f : Thr → Thr) : (s.modThr d n f).prs = s.prs := rfl
@[simp] theorem State.modThr_cls (s : State) (d n : Nat) (f : Thr → Thr) : (s.modThr d n f).cls = s.cls := rfl
@[simp] theorem State.modThr_fwt (s : State) (d n : Nat) (f : Thr → Thr) : (s.modThr d n f).fwt = s.fwt := rfl
@[simp] theorem State.modThr_bpm (s : State) (d n : Nat) (f : Thr → Thr) : (s.modThr d n f).bpm = s.bpm := rfl
@[simp] theorem State.modThr_qba (s : State) (d n : Nat) (f : Thr → Thr) : (s.modThr d n f).qba = s.qba := rfl
@[simp] theorem State.modThr_ssc (s : State) (d n : Nat) (f : Thr → Thr) : (s.modThr d n f).ssc = s.ssc := rfl
@[simp] theorem State.modThr_rsq (s : State) (d n : Nat) (f : Thr → Thr) : (s.modThr d n f).rsq = s.rsq := rfl
@[simp] theorem State.modThr_tdx (s : State) (d n : Nat) (f : Thr → Thr) : (s.modThr d n f).tdx = s.tdx := rfl
@[simp] theorem State.modThr_syu (s : State) (d n : Nat) (f : Thr → Thr) : (s.modThr d n f).syu = s.syu := rfl
@[simp] theorem State.modThr_gwe (s : State) (d n : Nat) (f : Thr → Thr) : (s.modThr d n f).gwe = s.gwe := rfl
@[simp] theorem State.modThr_plt (s : State) (d n : Nat) (f : Thr → Thr) : (s.modThr d n f).plt = s.plt := rfl
@[simp] theorem State.modThr_icu (s : State) (d n : Nat) (f : Thr → Thr) : (s.modThr d n f).icu = s.icu := rfl
@[simp] theorem State.modThr_lineTx (s : State) (d n : Nat) (f : Thr → Thr) : (s.modThr d n f).lineTx = s.lineTx := rfl
@[simp] theorem State.modThr_free (s : State) (d n : Nat) (f : Thr → Thr) : (s.modThr d n f).free = s.free := rfl
@[simp] theorem State.modThr_pending (s : State) (d n : Nat) (f : Thr → Thr) : (s.modThr d n f).pending = s.pending := rfl

theorem State.modThr_only (s : State) (d n : Nat) (f : Thr → Thr) : only [.cra] s (s.modThr d n f) := by
  intro p hp; cases p <;> first | rfl | exact absurd (by decide) hp

/-! putPad. -/

@[simp] theorem State.putPad_part (s : State) (d k a : Nat) (l : List Byte) : (s.putPad d k a l).part = s.part := rfl
@[simp] theorem State.putPad_regs (s : State) (d k a : Nat) (l : List Byte) : (s.putPad d k a l).regs = s.regs := rfl
@[simp] theorem State.putPad_glb (s : State) (d k a : Nat) (l : List Byte) : (s.putPad d k a l).glb = s.glb := rfl
@[simp] theorem State.putPad_phi (s : State) (d k a : Nat) (l : List Byte) : (s.putPad d k a l).phi = s.phi := rfl
@[simp] theorem State.putPad_cte (s : State) (d k a : Nat) (l : List Byte) : (s.putPad d k a l).cte = s.cte := rfl
@[simp] theorem State.putPad_lpx (s : State) (d k a : Nat) (l : List Byte) : (s.putPad d k a l).lpx = s.lpx := rfl
@[simp] theorem State.putPad_prs (s : State) (d k a : Nat) (l : List Byte) : (s.putPad d k a l).prs = s.prs := rfl
@[simp] theorem State.putPad_cls (s : State) (d k a : Nat) (l : List Byte) : (s.putPad d k a l).cls = s.cls := rfl
@[simp] theorem State.putPad_fwt (s : State) (d k a : Nat) (l : List Byte) : (s.putPad d k a l).fwt = s.fwt := rfl
@[simp] theorem State.putPad_bpm (s : State) (d k a : Nat) (l : List Byte) : (s.putPad d k a l).bpm = s.bpm := rfl
@[simp] theorem State.putPad_qba (s : State) (d k a : Nat) (l : List Byte) : (s.putPad d k a l).qba = s.qba := rfl
@[simp] theorem State.putPad_ssc (s : State) (d k a : Nat) (l : List Byte) : (s.putPad d k a l).ssc = s.ssc := rfl
@[simp] theorem State.putPad_rsq (s : State) (d k a : Nat) (l : List Byte) : (s.putPad d k a l).rsq = s.rsq := rfl
@[simp] theorem State.putPad_tdx (s : State) (d k a : Nat) (l : List Byte) : (s.putPad d k a l).tdx = s.tdx := rfl
@[simp] theorem State.putPad_syu (s : State) (d k a : Nat) (l : List Byte) : (s.putPad d k a l).syu = s.syu := rfl
@[simp] theorem State.putPad_gwe (s : State) (d k a : Nat) (l : List Byte) : (s.putPad d k a l).gwe = s.gwe := rfl
@[simp] theorem State.putPad_plt (s : State) (d k a : Nat) (l : List Byte) : (s.putPad d k a l).plt = s.plt := rfl
@[simp] theorem State.putPad_icu (s : State) (d k a : Nat) (l : List Byte) : (s.putPad d k a l).icu = s.icu := rfl
@[simp] theorem State.putPad_lineTx (s : State) (d k a : Nat) (l : List Byte) : (s.putPad d k a l).lineTx = s.lineTx := rfl
@[simp] theorem State.putPad_free (s : State) (d k a : Nat) (l : List Byte) : (s.putPad d k a l).free = s.free := rfl
@[simp] theorem State.putPad_pending (s : State) (d k a : Nat) (l : List Byte) : (s.putPad d k a l).pending = s.pending := rfl

theorem State.putPad_only (s : State) (d k a : Nat) (l : List Byte) : only [.cra] s (s.putPad d k a l) := by
  intro p hp; cases p <;> first | rfl | exact absurd (by decide) hp

/-! setFaultQ. -/

@[simp] theorem State.setFaultQ_part (s : State) (d k : Nat) (l : List FaultRec) : (s.setFaultQ d k l).part = s.part := rfl
@[simp] theorem State.setFaultQ_regs (s : State) (d k : Nat) (l : List FaultRec) : (s.setFaultQ d k l).regs = s.regs := rfl
@[simp] theorem State.setFaultQ_glb (s : State) (d k : Nat) (l : List FaultRec) : (s.setFaultQ d k l).glb = s.glb := rfl
@[simp] theorem State.setFaultQ_phi (s : State) (d k : Nat) (l : List FaultRec) : (s.setFaultQ d k l).phi = s.phi := rfl
@[simp] theorem State.setFaultQ_cte (s : State) (d k : Nat) (l : List FaultRec) : (s.setFaultQ d k l).cte = s.cte := rfl
@[simp] theorem State.setFaultQ_lpx (s : State) (d k : Nat) (l : List FaultRec) : (s.setFaultQ d k l).lpx = s.lpx := rfl
@[simp] theorem State.setFaultQ_prs (s : State) (d k : Nat) (l : List FaultRec) : (s.setFaultQ d k l).prs = s.prs := rfl
@[simp] theorem State.setFaultQ_cls (s : State) (d k : Nat) (l : List FaultRec) : (s.setFaultQ d k l).cls = s.cls := rfl
@[simp] theorem State.setFaultQ_fwt (s : State) (d k : Nat) (l : List FaultRec) : (s.setFaultQ d k l).fwt = s.fwt := rfl
@[simp] theorem State.setFaultQ_bpm (s : State) (d k : Nat) (l : List FaultRec) : (s.setFaultQ d k l).bpm = s.bpm := rfl
@[simp] theorem State.setFaultQ_qba (s : State) (d k : Nat) (l : List FaultRec) : (s.setFaultQ d k l).qba = s.qba := rfl
@[simp] theorem State.setFaultQ_ssc (s : State) (d k : Nat) (l : List FaultRec) : (s.setFaultQ d k l).ssc = s.ssc := rfl
@[simp] theorem State.setFaultQ_rsq (s : State) (d k : Nat) (l : List FaultRec) : (s.setFaultQ d k l).rsq = s.rsq := rfl
@[simp] theorem State.setFaultQ_tdx (s : State) (d k : Nat) (l : List FaultRec) : (s.setFaultQ d k l).tdx = s.tdx := rfl
@[simp] theorem State.setFaultQ_syu (s : State) (d k : Nat) (l : List FaultRec) : (s.setFaultQ d k l).syu = s.syu := rfl
@[simp] theorem State.setFaultQ_gwe (s : State) (d k : Nat) (l : List FaultRec) : (s.setFaultQ d k l).gwe = s.gwe := rfl
@[simp] theorem State.setFaultQ_plt (s : State) (d k : Nat) (l : List FaultRec) : (s.setFaultQ d k l).plt = s.plt := rfl
@[simp] theorem State.setFaultQ_icu (s : State) (d k : Nat) (l : List FaultRec) : (s.setFaultQ d k l).icu = s.icu := rfl
@[simp] theorem State.setFaultQ_lineTx (s : State) (d k : Nat) (l : List FaultRec) : (s.setFaultQ d k l).lineTx = s.lineTx := rfl
@[simp] theorem State.setFaultQ_free (s : State) (d k : Nat) (l : List FaultRec) : (s.setFaultQ d k l).free = s.free := rfl
@[simp] theorem State.setFaultQ_pending (s : State) (d k : Nat) (l : List FaultRec) : (s.setFaultQ d k l).pending = s.pending := rfl

theorem State.setFaultQ_only (s : State) (d k : Nat) (l : List FaultRec) : only [.cra] s (s.setFaultQ d k l) := by
  intro p hp; cases p <;> first | rfl | exact absurd (by decide) hp

/-! setLq. -/

@[simp] theorem State.setLq_part (s : State) (q : Nat) (x : LQ) : (s.setLq q x).part = s.part := rfl
@[simp] theorem State.setLq_regs (s : State) (q : Nat) (x : LQ) : (s.setLq q x).regs = s.regs := rfl
@[simp] theorem State.setLq_glb (s : State) (q : Nat) (x : LQ) : (s.setLq q x).glb = s.glb := rfl
@[simp] theorem State.setLq_phi (s : State) (q : Nat) (x : LQ) : (s.setLq q x).phi = s.phi := rfl
@[simp] theorem State.setLq_cte (s : State) (q : Nat) (x : LQ) : (s.setLq q x).cte = s.cte := rfl
@[simp] theorem State.setLq_lpx (s : State) (q : Nat) (x : LQ) : (s.setLq q x).lpx = s.lpx := rfl
@[simp] theorem State.setLq_prs (s : State) (q : Nat) (x : LQ) : (s.setLq q x).prs = s.prs := rfl
@[simp] theorem State.setLq_cls (s : State) (q : Nat) (x : LQ) : (s.setLq q x).cls = s.cls := rfl
@[simp] theorem State.setLq_fwt (s : State) (q : Nat) (x : LQ) : (s.setLq q x).fwt = s.fwt := rfl
@[simp] theorem State.setLq_bpm (s : State) (q : Nat) (x : LQ) : (s.setLq q x).bpm = s.bpm := rfl
@[simp] theorem State.setLq_ssc (s : State) (q : Nat) (x : LQ) : (s.setLq q x).ssc = s.ssc := rfl
@[simp] theorem State.setLq_rsq (s : State) (q : Nat) (x : LQ) : (s.setLq q x).rsq = s.rsq := rfl
@[simp] theorem State.setLq_cra (s : State) (q : Nat) (x : LQ) : (s.setLq q x).cra = s.cra := rfl
@[simp] theorem State.setLq_tdx (s : State) (q : Nat) (x : LQ) : (s.setLq q x).tdx = s.tdx := rfl
@[simp] theorem State.setLq_syu (s : State) (q : Nat) (x : LQ) : (s.setLq q x).syu = s.syu := rfl
@[simp] theorem State.setLq_gwe (s : State) (q : Nat) (x : LQ) : (s.setLq q x).gwe = s.gwe := rfl
@[simp] theorem State.setLq_plt (s : State) (q : Nat) (x : LQ) : (s.setLq q x).plt = s.plt := rfl
@[simp] theorem State.setLq_icu (s : State) (q : Nat) (x : LQ) : (s.setLq q x).icu = s.icu := rfl
@[simp] theorem State.setLq_lineTx (s : State) (q : Nat) (x : LQ) : (s.setLq q x).lineTx = s.lineTx := rfl
@[simp] theorem State.setLq_free (s : State) (q : Nat) (x : LQ) : (s.setLq q x).free = s.free := rfl
@[simp] theorem State.setLq_pending (s : State) (q : Nat) (x : LQ) : (s.setLq q x).pending = s.pending := rfl

theorem State.setLq_only (s : State) (q : Nat) (x : LQ) : only [.qba] s (s.setLq q x) := by
  intro p hp; cases p <;> first | rfl | exact absurd (by decide) hp

/-! modLq. -/

@[simp] theorem State.modLq_part (s : State) (q : Nat) (f : LQ → LQ) : (s.modLq q f).part = s.part := rfl
@[simp] theorem State.modLq_regs (s : State) (q : Nat) (f : LQ → LQ) : (s.modLq q f).regs = s.regs := rfl
@[simp] theorem State.modLq_glb (s : State) (q : Nat) (f : LQ → LQ) : (s.modLq q f).glb = s.glb := rfl
@[simp] theorem State.modLq_phi (s : State) (q : Nat) (f : LQ → LQ) : (s.modLq q f).phi = s.phi := rfl
@[simp] theorem State.modLq_cte (s : State) (q : Nat) (f : LQ → LQ) : (s.modLq q f).cte = s.cte := rfl
@[simp] theorem State.modLq_lpx (s : State) (q : Nat) (f : LQ → LQ) : (s.modLq q f).lpx = s.lpx := rfl
@[simp] theorem State.modLq_prs (s : State) (q : Nat) (f : LQ → LQ) : (s.modLq q f).prs = s.prs := rfl
@[simp] theorem State.modLq_cls (s : State) (q : Nat) (f : LQ → LQ) : (s.modLq q f).cls = s.cls := rfl
@[simp] theorem State.modLq_fwt (s : State) (q : Nat) (f : LQ → LQ) : (s.modLq q f).fwt = s.fwt := rfl
@[simp] theorem State.modLq_bpm (s : State) (q : Nat) (f : LQ → LQ) : (s.modLq q f).bpm = s.bpm := rfl
@[simp] theorem State.modLq_ssc (s : State) (q : Nat) (f : LQ → LQ) : (s.modLq q f).ssc = s.ssc := rfl
@[simp] theorem State.modLq_rsq (s : State) (q : Nat) (f : LQ → LQ) : (s.modLq q f).rsq = s.rsq := rfl
@[simp] theorem State.modLq_cra (s : State) (q : Nat) (f : LQ → LQ) : (s.modLq q f).cra = s.cra := rfl
@[simp] theorem State.modLq_tdx (s : State) (q : Nat) (f : LQ → LQ) : (s.modLq q f).tdx = s.tdx := rfl
@[simp] theorem State.modLq_syu (s : State) (q : Nat) (f : LQ → LQ) : (s.modLq q f).syu = s.syu := rfl
@[simp] theorem State.modLq_gwe (s : State) (q : Nat) (f : LQ → LQ) : (s.modLq q f).gwe = s.gwe := rfl
@[simp] theorem State.modLq_plt (s : State) (q : Nat) (f : LQ → LQ) : (s.modLq q f).plt = s.plt := rfl
@[simp] theorem State.modLq_icu (s : State) (q : Nat) (f : LQ → LQ) : (s.modLq q f).icu = s.icu := rfl
@[simp] theorem State.modLq_lineTx (s : State) (q : Nat) (f : LQ → LQ) : (s.modLq q f).lineTx = s.lineTx := rfl
@[simp] theorem State.modLq_free (s : State) (q : Nat) (f : LQ → LQ) : (s.modLq q f).free = s.free := rfl
@[simp] theorem State.modLq_pending (s : State) (q : Nat) (f : LQ → LQ) : (s.modLq q f).pending = s.pending := rfl

theorem State.modLq_only (s : State) (q : Nat) (f : LQ → LQ) : only [.qba] s (s.modLq q f) := by
  intro p hp; cases p <;> first | rfl | exact absurd (by decide) hp

/-! setTt. -/

@[simp] theorem State.setTt_part (s : State) (off : Nat) (w : Word) : (s.setTt off w).part = s.part := rfl
@[simp] theorem State.setTt_regs (s : State) (off : Nat) (w : Word) : (s.setTt off w).regs = s.regs := rfl
@[simp] theorem State.setTt_glb (s : State) (off : Nat) (w : Word) : (s.setTt off w).glb = s.glb := rfl
@[simp] theorem State.setTt_phi (s : State) (off : Nat) (w : Word) : (s.setTt off w).phi = s.phi := rfl
@[simp] theorem State.setTt_lpx (s : State) (off : Nat) (w : Word) : (s.setTt off w).lpx = s.lpx := rfl
@[simp] theorem State.setTt_prs (s : State) (off : Nat) (w : Word) : (s.setTt off w).prs = s.prs := rfl
@[simp] theorem State.setTt_cls (s : State) (off : Nat) (w : Word) : (s.setTt off w).cls = s.cls := rfl
@[simp] theorem State.setTt_fwt (s : State) (off : Nat) (w : Word) : (s.setTt off w).fwt = s.fwt := rfl
@[simp] theorem State.setTt_bpm (s : State) (off : Nat) (w : Word) : (s.setTt off w).bpm = s.bpm := rfl
@[simp] theorem State.setTt_qba (s : State) (off : Nat) (w : Word) : (s.setTt off w).qba = s.qba := rfl
@[simp] theorem State.setTt_ssc (s : State) (off : Nat) (w : Word) : (s.setTt off w).ssc = s.ssc := rfl
@[simp] theorem State.setTt_rsq (s : State) (off : Nat) (w : Word) : (s.setTt off w).rsq = s.rsq := rfl
@[simp] theorem State.setTt_cra (s : State) (off : Nat) (w : Word) : (s.setTt off w).cra = s.cra := rfl
@[simp] theorem State.setTt_tdx (s : State) (off : Nat) (w : Word) : (s.setTt off w).tdx = s.tdx := rfl
@[simp] theorem State.setTt_syu (s : State) (off : Nat) (w : Word) : (s.setTt off w).syu = s.syu := rfl
@[simp] theorem State.setTt_gwe (s : State) (off : Nat) (w : Word) : (s.setTt off w).gwe = s.gwe := rfl
@[simp] theorem State.setTt_plt (s : State) (off : Nat) (w : Word) : (s.setTt off w).plt = s.plt := rfl
@[simp] theorem State.setTt_icu (s : State) (off : Nat) (w : Word) : (s.setTt off w).icu = s.icu := rfl
@[simp] theorem State.setTt_lineTx (s : State) (off : Nat) (w : Word) : (s.setTt off w).lineTx = s.lineTx := rfl
@[simp] theorem State.setTt_free (s : State) (off : Nat) (w : Word) : (s.setTt off w).free = s.free := rfl
@[simp] theorem State.setTt_pending (s : State) (off : Nat) (w : Word) : (s.setTt off w).pending = s.pending := rfl

theorem State.setTt_only (s : State) (off : Nat) (w : Word) : only [.cte] s (s.setTt off w) := by
  intro p hp; cases p <;> first | rfl | exact absurd (by decide) hp

/-! modBank. -/

@[simp] theorem State.modBank_part (s : State) (b : Nat) (f : BankSt → BankSt) : (s.modBank b f).part = s.part := rfl
@[simp] theorem State.modBank_regs (s : State) (b : Nat) (f : BankSt → BankSt) : (s.modBank b f).regs = s.regs := rfl
@[simp] theorem State.modBank_glb (s : State) (b : Nat) (f : BankSt → BankSt) : (s.modBank b f).glb = s.glb := rfl
@[simp] theorem State.modBank_phi (s : State) (b : Nat) (f : BankSt → BankSt) : (s.modBank b f).phi = s.phi := rfl
@[simp] theorem State.modBank_lpx (s : State) (b : Nat) (f : BankSt → BankSt) : (s.modBank b f).lpx = s.lpx := rfl
@[simp] theorem State.modBank_prs (s : State) (b : Nat) (f : BankSt → BankSt) : (s.modBank b f).prs = s.prs := rfl
@[simp] theorem State.modBank_cls (s : State) (b : Nat) (f : BankSt → BankSt) : (s.modBank b f).cls = s.cls := rfl
@[simp] theorem State.modBank_fwt (s : State) (b : Nat) (f : BankSt → BankSt) : (s.modBank b f).fwt = s.fwt := rfl
@[simp] theorem State.modBank_bpm (s : State) (b : Nat) (f : BankSt → BankSt) : (s.modBank b f).bpm = s.bpm := rfl
@[simp] theorem State.modBank_qba (s : State) (b : Nat) (f : BankSt → BankSt) : (s.modBank b f).qba = s.qba := rfl
@[simp] theorem State.modBank_ssc (s : State) (b : Nat) (f : BankSt → BankSt) : (s.modBank b f).ssc = s.ssc := rfl
@[simp] theorem State.modBank_rsq (s : State) (b : Nat) (f : BankSt → BankSt) : (s.modBank b f).rsq = s.rsq := rfl
@[simp] theorem State.modBank_cra (s : State) (b : Nat) (f : BankSt → BankSt) : (s.modBank b f).cra = s.cra := rfl
@[simp] theorem State.modBank_tdx (s : State) (b : Nat) (f : BankSt → BankSt) : (s.modBank b f).tdx = s.tdx := rfl
@[simp] theorem State.modBank_syu (s : State) (b : Nat) (f : BankSt → BankSt) : (s.modBank b f).syu = s.syu := rfl
@[simp] theorem State.modBank_gwe (s : State) (b : Nat) (f : BankSt → BankSt) : (s.modBank b f).gwe = s.gwe := rfl
@[simp] theorem State.modBank_plt (s : State) (b : Nat) (f : BankSt → BankSt) : (s.modBank b f).plt = s.plt := rfl
@[simp] theorem State.modBank_icu (s : State) (b : Nat) (f : BankSt → BankSt) : (s.modBank b f).icu = s.icu := rfl
@[simp] theorem State.modBank_lineTx (s : State) (b : Nat) (f : BankSt → BankSt) : (s.modBank b f).lineTx = s.lineTx := rfl
@[simp] theorem State.modBank_free (s : State) (b : Nat) (f : BankSt → BankSt) : (s.modBank b f).free = s.free := rfl
@[simp] theorem State.modBank_pending (s : State) (b : Nat) (f : BankSt → BankSt) : (s.modBank b f).pending = s.pending := rfl

theorem State.modBank_only (s : State) (b : Nat) (f : BankSt → BankSt) : only [.cte] s (s.modBank b f) := by
  intro p hp; cases p <;> first | rfl | exact absurd (by decide) hp

/-! modPtx. -/

@[simp] theorem State.modPtx_part (s : State) (p : Nat) (f : PortTx → PortTx) : (s.modPtx p f).part = s.part := rfl
@[simp] theorem State.modPtx_regs (s : State) (p : Nat) (f : PortTx → PortTx) : (s.modPtx p f).regs = s.regs := rfl
@[simp] theorem State.modPtx_glb (s : State) (p : Nat) (f : PortTx → PortTx) : (s.modPtx p f).glb = s.glb := rfl
@[simp] theorem State.modPtx_phi (s : State) (p : Nat) (f : PortTx → PortTx) : (s.modPtx p f).phi = s.phi := rfl
@[simp] theorem State.modPtx_lpx (s : State) (p : Nat) (f : PortTx → PortTx) : (s.modPtx p f).lpx = s.lpx := rfl
@[simp] theorem State.modPtx_prs (s : State) (p : Nat) (f : PortTx → PortTx) : (s.modPtx p f).prs = s.prs := rfl
@[simp] theorem State.modPtx_cls (s : State) (p : Nat) (f : PortTx → PortTx) : (s.modPtx p f).cls = s.cls := rfl
@[simp] theorem State.modPtx_fwt (s : State) (p : Nat) (f : PortTx → PortTx) : (s.modPtx p f).fwt = s.fwt := rfl
@[simp] theorem State.modPtx_bpm (s : State) (p : Nat) (f : PortTx → PortTx) : (s.modPtx p f).bpm = s.bpm := rfl
@[simp] theorem State.modPtx_qba (s : State) (p : Nat) (f : PortTx → PortTx) : (s.modPtx p f).qba = s.qba := rfl
@[simp] theorem State.modPtx_ssc (s : State) (p : Nat) (f : PortTx → PortTx) : (s.modPtx p f).ssc = s.ssc := rfl
@[simp] theorem State.modPtx_rsq (s : State) (p : Nat) (f : PortTx → PortTx) : (s.modPtx p f).rsq = s.rsq := rfl
@[simp] theorem State.modPtx_cra (s : State) (p : Nat) (f : PortTx → PortTx) : (s.modPtx p f).cra = s.cra := rfl
@[simp] theorem State.modPtx_tdx (s : State) (p : Nat) (f : PortTx → PortTx) : (s.modPtx p f).tdx = s.tdx := rfl
@[simp] theorem State.modPtx_syu (s : State) (p : Nat) (f : PortTx → PortTx) : (s.modPtx p f).syu = s.syu := rfl
@[simp] theorem State.modPtx_gwe (s : State) (p : Nat) (f : PortTx → PortTx) : (s.modPtx p f).gwe = s.gwe := rfl
@[simp] theorem State.modPtx_plt (s : State) (p : Nat) (f : PortTx → PortTx) : (s.modPtx p f).plt = s.plt := rfl
@[simp] theorem State.modPtx_icu (s : State) (p : Nat) (f : PortTx → PortTx) : (s.modPtx p f).icu = s.icu := rfl
@[simp] theorem State.modPtx_lineTx (s : State) (p : Nat) (f : PortTx → PortTx) : (s.modPtx p f).lineTx = s.lineTx := rfl
@[simp] theorem State.modPtx_free (s : State) (p : Nat) (f : PortTx → PortTx) : (s.modPtx p f).free = s.free := rfl
@[simp] theorem State.modPtx_pending (s : State) (p : Nat) (f : PortTx → PortTx) : (s.modPtx p f).pending = s.pending := rfl

theorem State.modPtx_only (s : State) (p : Nat) (f : PortTx → PortTx) : only [.cte] s (s.modPtx p f) := by
  intro p hp; cases p <;> first | rfl | exact absurd (by decide) hp

/-! modPf. -/

@[simp] theorem State.modPf_part (s : State) (q j : Nat) (f : Pf → Pf) : (s.modPf q j f).part = s.part := rfl
@[simp] theorem State.modPf_regs (s : State) (q j : Nat) (f : Pf → Pf) : (s.modPf q j f).regs = s.regs := rfl
@[simp] theorem State.modPf_glb (s : State) (q j : Nat) (f : Pf → Pf) : (s.modPf q j f).glb = s.glb := rfl
@[simp] theorem State.modPf_phi (s : State) (q j : Nat) (f : Pf → Pf) : (s.modPf q j f).phi = s.phi := rfl
@[simp] theorem State.modPf_lpx (s : State) (q j : Nat) (f : Pf → Pf) : (s.modPf q j f).lpx = s.lpx := rfl
@[simp] theorem State.modPf_prs (s : State) (q j : Nat) (f : Pf → Pf) : (s.modPf q j f).prs = s.prs := rfl
@[simp] theorem State.modPf_cls (s : State) (q j : Nat) (f : Pf → Pf) : (s.modPf q j f).cls = s.cls := rfl
@[simp] theorem State.modPf_fwt (s : State) (q j : Nat) (f : Pf → Pf) : (s.modPf q j f).fwt = s.fwt := rfl
@[simp] theorem State.modPf_bpm (s : State) (q j : Nat) (f : Pf → Pf) : (s.modPf q j f).bpm = s.bpm := rfl
@[simp] theorem State.modPf_qba (s : State) (q j : Nat) (f : Pf → Pf) : (s.modPf q j f).qba = s.qba := rfl
@[simp] theorem State.modPf_ssc (s : State) (q j : Nat) (f : Pf → Pf) : (s.modPf q j f).ssc = s.ssc := rfl
@[simp] theorem State.modPf_rsq (s : State) (q j : Nat) (f : Pf → Pf) : (s.modPf q j f).rsq = s.rsq := rfl
@[simp] theorem State.modPf_cra (s : State) (q j : Nat) (f : Pf → Pf) : (s.modPf q j f).cra = s.cra := rfl
@[simp] theorem State.modPf_tdx (s : State) (q j : Nat) (f : Pf → Pf) : (s.modPf q j f).tdx = s.tdx := rfl
@[simp] theorem State.modPf_syu (s : State) (q j : Nat) (f : Pf → Pf) : (s.modPf q j f).syu = s.syu := rfl
@[simp] theorem State.modPf_gwe (s : State) (q j : Nat) (f : Pf → Pf) : (s.modPf q j f).gwe = s.gwe := rfl
@[simp] theorem State.modPf_plt (s : State) (q j : Nat) (f : Pf → Pf) : (s.modPf q j f).plt = s.plt := rfl
@[simp] theorem State.modPf_icu (s : State) (q j : Nat) (f : Pf → Pf) : (s.modPf q j f).icu = s.icu := rfl
@[simp] theorem State.modPf_lineTx (s : State) (q j : Nat) (f : Pf → Pf) : (s.modPf q j f).lineTx = s.lineTx := rfl
@[simp] theorem State.modPf_free (s : State) (q j : Nat) (f : Pf → Pf) : (s.modPf q j f).free = s.free := rfl
@[simp] theorem State.modPf_pending (s : State) (q j : Nat) (f : Pf → Pf) : (s.modPf q j f).pending = s.pending := rfl

theorem State.modPf_only (s : State) (q j : Nat) (f : Pf → Pf) : only [.cte] s (s.modPf q j f) := by
  intro p hp; cases p <;> first | rfl | exact absurd (by decide) hp

/-! modLnk. -/

@[simp] theorem State.modLnk_part (s : State) (p : Nat) (f : LinkSt → LinkSt) : (s.modLnk p f).part = s.part := rfl
@[simp] theorem State.modLnk_regs (s : State) (p : Nat) (f : LinkSt → LinkSt) : (s.modLnk p f).regs = s.regs := rfl
@[simp] theorem State.modLnk_glb (s : State) (p : Nat) (f : LinkSt → LinkSt) : (s.modLnk p f).glb = s.glb := rfl
@[simp] theorem State.modLnk_phi (s : State) (p : Nat) (f : LinkSt → LinkSt) : (s.modLnk p f).phi = s.phi := rfl
@[simp] theorem State.modLnk_cte (s : State) (p : Nat) (f : LinkSt → LinkSt) : (s.modLnk p f).cte = s.cte := rfl
@[simp] theorem State.modLnk_prs (s : State) (p : Nat) (f : LinkSt → LinkSt) : (s.modLnk p f).prs = s.prs := rfl
@[simp] theorem State.modLnk_cls (s : State) (p : Nat) (f : LinkSt → LinkSt) : (s.modLnk p f).cls = s.cls := rfl
@[simp] theorem State.modLnk_fwt (s : State) (p : Nat) (f : LinkSt → LinkSt) : (s.modLnk p f).fwt = s.fwt := rfl
@[simp] theorem State.modLnk_bpm (s : State) (p : Nat) (f : LinkSt → LinkSt) : (s.modLnk p f).bpm = s.bpm := rfl
@[simp] theorem State.modLnk_qba (s : State) (p : Nat) (f : LinkSt → LinkSt) : (s.modLnk p f).qba = s.qba := rfl
@[simp] theorem State.modLnk_ssc (s : State) (p : Nat) (f : LinkSt → LinkSt) : (s.modLnk p f).ssc = s.ssc := rfl
@[simp] theorem State.modLnk_rsq (s : State) (p : Nat) (f : LinkSt → LinkSt) : (s.modLnk p f).rsq = s.rsq := rfl
@[simp] theorem State.modLnk_cra (s : State) (p : Nat) (f : LinkSt → LinkSt) : (s.modLnk p f).cra = s.cra := rfl
@[simp] theorem State.modLnk_tdx (s : State) (p : Nat) (f : LinkSt → LinkSt) : (s.modLnk p f).tdx = s.tdx := rfl
@[simp] theorem State.modLnk_syu (s : State) (p : Nat) (f : LinkSt → LinkSt) : (s.modLnk p f).syu = s.syu := rfl
@[simp] theorem State.modLnk_gwe (s : State) (p : Nat) (f : LinkSt → LinkSt) : (s.modLnk p f).gwe = s.gwe := rfl
@[simp] theorem State.modLnk_plt (s : State) (p : Nat) (f : LinkSt → LinkSt) : (s.modLnk p f).plt = s.plt := rfl
@[simp] theorem State.modLnk_icu (s : State) (p : Nat) (f : LinkSt → LinkSt) : (s.modLnk p f).icu = s.icu := rfl
@[simp] theorem State.modLnk_lineTx (s : State) (p : Nat) (f : LinkSt → LinkSt) : (s.modLnk p f).lineTx = s.lineTx := rfl
@[simp] theorem State.modLnk_free (s : State) (p : Nat) (f : LinkSt → LinkSt) : (s.modLnk p f).free = s.free := rfl
@[simp] theorem State.modLnk_pending (s : State) (p : Nat) (f : LinkSt → LinkSt) : (s.modLnk p f).pending = s.pending := rfl

theorem State.modLnk_only (s : State) (p : Nat) (f : LinkSt → LinkSt) : only [.lpx] s (s.modLnk p f) := by
  intro p hp; cases p <;> first | rfl | exact absurd (by decide) hp

/-! setClsWait. -/

@[simp] theorem State.setClsWait_part (s : State) (d : Nat) (l : List CFrame) : (s.setClsWait d l).part = s.part := rfl
@[simp] theorem State.setClsWait_regs (s : State) (d : Nat) (l : List CFrame) : (s.setClsWait d l).regs = s.regs := rfl
@[simp] theorem State.setClsWait_glb (s : State) (d : Nat) (l : List CFrame) : (s.setClsWait d l).glb = s.glb := rfl
@[simp] theorem State.setClsWait_phi (s : State) (d : Nat) (l : List CFrame) : (s.setClsWait d l).phi = s.phi := rfl
@[simp] theorem State.setClsWait_cte (s : State) (d : Nat) (l : List CFrame) : (s.setClsWait d l).cte = s.cte := rfl
@[simp] theorem State.setClsWait_lpx (s : State) (d : Nat) (l : List CFrame) : (s.setClsWait d l).lpx = s.lpx := rfl
@[simp] theorem State.setClsWait_prs (s : State) (d : Nat) (l : List CFrame) : (s.setClsWait d l).prs = s.prs := rfl
@[simp] theorem State.setClsWait_fwt (s : State) (d : Nat) (l : List CFrame) : (s.setClsWait d l).fwt = s.fwt := rfl
@[simp] theorem State.setClsWait_bpm (s : State) (d : Nat) (l : List CFrame) : (s.setClsWait d l).bpm = s.bpm := rfl
@[simp] theorem State.setClsWait_qba (s : State) (d : Nat) (l : List CFrame) : (s.setClsWait d l).qba = s.qba := rfl
@[simp] theorem State.setClsWait_ssc (s : State) (d : Nat) (l : List CFrame) : (s.setClsWait d l).ssc = s.ssc := rfl
@[simp] theorem State.setClsWait_rsq (s : State) (d : Nat) (l : List CFrame) : (s.setClsWait d l).rsq = s.rsq := rfl
@[simp] theorem State.setClsWait_cra (s : State) (d : Nat) (l : List CFrame) : (s.setClsWait d l).cra = s.cra := rfl
@[simp] theorem State.setClsWait_tdx (s : State) (d : Nat) (l : List CFrame) : (s.setClsWait d l).tdx = s.tdx := rfl
@[simp] theorem State.setClsWait_syu (s : State) (d : Nat) (l : List CFrame) : (s.setClsWait d l).syu = s.syu := rfl
@[simp] theorem State.setClsWait_gwe (s : State) (d : Nat) (l : List CFrame) : (s.setClsWait d l).gwe = s.gwe := rfl
@[simp] theorem State.setClsWait_plt (s : State) (d : Nat) (l : List CFrame) : (s.setClsWait d l).plt = s.plt := rfl
@[simp] theorem State.setClsWait_icu (s : State) (d : Nat) (l : List CFrame) : (s.setClsWait d l).icu = s.icu := rfl
@[simp] theorem State.setClsWait_lineTx (s : State) (d : Nat) (l : List CFrame) : (s.setClsWait d l).lineTx = s.lineTx := rfl
@[simp] theorem State.setClsWait_free (s : State) (d : Nat) (l : List CFrame) : (s.setClsWait d l).free = s.free := rfl
@[simp] theorem State.setClsWait_pending (s : State) (d : Nat) (l : List CFrame) : (s.setClsWait d l).pending = s.pending := rfl

theorem State.setClsWait_only (s : State) (d : Nat) (l : List CFrame) : only [.cls] s (s.setClsWait d l) := by
  intro p hp; cases p <;> first | rfl | exact absurd (by decide) hp

/-! dropFrag. -/

@[simp] theorem State.dropFrag_part (s : State) (d i : Nat) : (s.dropFrag d i).part = s.part := rfl
@[simp] theorem State.dropFrag_regs (s : State) (d i : Nat) : (s.dropFrag d i).regs = s.regs := rfl
@[simp] theorem State.dropFrag_glb (s : State) (d i : Nat) : (s.dropFrag d i).glb = s.glb := rfl
@[simp] theorem State.dropFrag_phi (s : State) (d i : Nat) : (s.dropFrag d i).phi = s.phi := rfl
@[simp] theorem State.dropFrag_cte (s : State) (d i : Nat) : (s.dropFrag d i).cte = s.cte := rfl
@[simp] theorem State.dropFrag_lpx (s : State) (d i : Nat) : (s.dropFrag d i).lpx = s.lpx := rfl
@[simp] theorem State.dropFrag_prs (s : State) (d i : Nat) : (s.dropFrag d i).prs = s.prs := rfl
@[simp] theorem State.dropFrag_fwt (s : State) (d i : Nat) : (s.dropFrag d i).fwt = s.fwt := rfl
@[simp] theorem State.dropFrag_bpm (s : State) (d i : Nat) : (s.dropFrag d i).bpm = s.bpm := rfl
@[simp] theorem State.dropFrag_qba (s : State) (d i : Nat) : (s.dropFrag d i).qba = s.qba := rfl
@[simp] theorem State.dropFrag_ssc (s : State) (d i : Nat) : (s.dropFrag d i).ssc = s.ssc := rfl
@[simp] theorem State.dropFrag_rsq (s : State) (d i : Nat) : (s.dropFrag d i).rsq = s.rsq := rfl
@[simp] theorem State.dropFrag_cra (s : State) (d i : Nat) : (s.dropFrag d i).cra = s.cra := rfl
@[simp] theorem State.dropFrag_tdx (s : State) (d i : Nat) : (s.dropFrag d i).tdx = s.tdx := rfl
@[simp] theorem State.dropFrag_syu (s : State) (d i : Nat) : (s.dropFrag d i).syu = s.syu := rfl
@[simp] theorem State.dropFrag_gwe (s : State) (d i : Nat) : (s.dropFrag d i).gwe = s.gwe := rfl
@[simp] theorem State.dropFrag_plt (s : State) (d i : Nat) : (s.dropFrag d i).plt = s.plt := rfl
@[simp] theorem State.dropFrag_icu (s : State) (d i : Nat) : (s.dropFrag d i).icu = s.icu := rfl
@[simp] theorem State.dropFrag_lineTx (s : State) (d i : Nat) : (s.dropFrag d i).lineTx = s.lineTx := rfl
@[simp] theorem State.dropFrag_free (s : State) (d i : Nat) : (s.dropFrag d i).free = s.free := rfl
@[simp] theorem State.dropFrag_pending (s : State) (d i : Nat) : (s.dropFrag d i).pending = s.pending := rfl

theorem State.dropFrag_only (s : State) (d i : Nat) : only [.cls] s (s.dropFrag d i) := by
  intro p hp; cases p <;> first | rfl | exact absurd (by decide) hp

/-! setL2. -/

@[simp] theorem State.setL2_part (s : State) (d slot : Nat) (e : L2Ent) : (s.setL2 d slot e).part = s.part := rfl
@[simp] theorem State.setL2_regs (s : State) (d slot : Nat) (e : L2Ent) : (s.setL2 d slot e).regs = s.regs := rfl
@[simp] theorem State.setL2_glb (s : State) (d slot : Nat) (e : L2Ent) : (s.setL2 d slot e).glb = s.glb := rfl
@[simp] theorem State.setL2_phi (s : State) (d slot : Nat) (e : L2Ent) : (s.setL2 d slot e).phi = s.phi := rfl
@[simp] theorem State.setL2_cte (s : State) (d slot : Nat) (e : L2Ent) : (s.setL2 d slot e).cte = s.cte := rfl
@[simp] theorem State.setL2_lpx (s : State) (d slot : Nat) (e : L2Ent) : (s.setL2 d slot e).lpx = s.lpx := rfl
@[simp] theorem State.setL2_prs (s : State) (d slot : Nat) (e : L2Ent) : (s.setL2 d slot e).prs = s.prs := rfl
@[simp] theorem State.setL2_cls (s : State) (d slot : Nat) (e : L2Ent) : (s.setL2 d slot e).cls = s.cls := rfl
@[simp] theorem State.setL2_bpm (s : State) (d slot : Nat) (e : L2Ent) : (s.setL2 d slot e).bpm = s.bpm := rfl
@[simp] theorem State.setL2_qba (s : State) (d slot : Nat) (e : L2Ent) : (s.setL2 d slot e).qba = s.qba := rfl
@[simp] theorem State.setL2_ssc (s : State) (d slot : Nat) (e : L2Ent) : (s.setL2 d slot e).ssc = s.ssc := rfl
@[simp] theorem State.setL2_rsq (s : State) (d slot : Nat) (e : L2Ent) : (s.setL2 d slot e).rsq = s.rsq := rfl
@[simp] theorem State.setL2_cra (s : State) (d slot : Nat) (e : L2Ent) : (s.setL2 d slot e).cra = s.cra := rfl
@[simp] theorem State.setL2_tdx (s : State) (d slot : Nat) (e : L2Ent) : (s.setL2 d slot e).tdx = s.tdx := rfl
@[simp] theorem State.setL2_syu (s : State) (d slot : Nat) (e : L2Ent) : (s.setL2 d slot e).syu = s.syu := rfl
@[simp] theorem State.setL2_gwe (s : State) (d slot : Nat) (e : L2Ent) : (s.setL2 d slot e).gwe = s.gwe := rfl
@[simp] theorem State.setL2_plt (s : State) (d slot : Nat) (e : L2Ent) : (s.setL2 d slot e).plt = s.plt := rfl
@[simp] theorem State.setL2_icu (s : State) (d slot : Nat) (e : L2Ent) : (s.setL2 d slot e).icu = s.icu := rfl
@[simp] theorem State.setL2_lineTx (s : State) (d slot : Nat) (e : L2Ent) : (s.setL2 d slot e).lineTx = s.lineTx := rfl
@[simp] theorem State.setL2_free (s : State) (d slot : Nat) (e : L2Ent) : (s.setL2 d slot e).free = s.free := rfl
@[simp] theorem State.setL2_pending (s : State) (d slot : Nat) (e : L2Ent) : (s.setL2 d slot e).pending = s.pending := rfl

theorem State.setL2_only (s : State) (d slot : Nat) (e : L2Ent) : only [.fwt] s (s.setL2 d slot e) := by
  intro p hp; cases p <;> first | rfl | exact absurd (by decide) hp

/-! setFlow. -/

@[simp] theorem State.setFlow_part (s : State) (d slot : Nat) (e : FlowEnt) : (s.setFlow d slot e).part = s.part := rfl
@[simp] theorem State.setFlow_regs (s : State) (d slot : Nat) (e : FlowEnt) : (s.setFlow d slot e).regs = s.regs := rfl
@[simp] theorem State.setFlow_glb (s : State) (d slot : Nat) (e : FlowEnt) : (s.setFlow d slot e).glb = s.glb := rfl
@[simp] theorem State.setFlow_phi (s : State) (d slot : Nat) (e : FlowEnt) : (s.setFlow d slot e).phi = s.phi := rfl
@[simp] theorem State.setFlow_cte (s : State) (d slot : Nat) (e : FlowEnt) : (s.setFlow d slot e).cte = s.cte := rfl
@[simp] theorem State.setFlow_lpx (s : State) (d slot : Nat) (e : FlowEnt) : (s.setFlow d slot e).lpx = s.lpx := rfl
@[simp] theorem State.setFlow_prs (s : State) (d slot : Nat) (e : FlowEnt) : (s.setFlow d slot e).prs = s.prs := rfl
@[simp] theorem State.setFlow_cls (s : State) (d slot : Nat) (e : FlowEnt) : (s.setFlow d slot e).cls = s.cls := rfl
@[simp] theorem State.setFlow_bpm (s : State) (d slot : Nat) (e : FlowEnt) : (s.setFlow d slot e).bpm = s.bpm := rfl
@[simp] theorem State.setFlow_qba (s : State) (d slot : Nat) (e : FlowEnt) : (s.setFlow d slot e).qba = s.qba := rfl
@[simp] theorem State.setFlow_ssc (s : State) (d slot : Nat) (e : FlowEnt) : (s.setFlow d slot e).ssc = s.ssc := rfl
@[simp] theorem State.setFlow_rsq (s : State) (d slot : Nat) (e : FlowEnt) : (s.setFlow d slot e).rsq = s.rsq := rfl
@[simp] theorem State.setFlow_cra (s : State) (d slot : Nat) (e : FlowEnt) : (s.setFlow d slot e).cra = s.cra := rfl
@[simp] theorem State.setFlow_tdx (s : State) (d slot : Nat) (e : FlowEnt) : (s.setFlow d slot e).tdx = s.tdx := rfl
@[simp] theorem State.setFlow_syu (s : State) (d slot : Nat) (e : FlowEnt) : (s.setFlow d slot e).syu = s.syu := rfl
@[simp] theorem State.setFlow_gwe (s : State) (d slot : Nat) (e : FlowEnt) : (s.setFlow d slot e).gwe = s.gwe := rfl
@[simp] theorem State.setFlow_plt (s : State) (d slot : Nat) (e : FlowEnt) : (s.setFlow d slot e).plt = s.plt := rfl
@[simp] theorem State.setFlow_icu (s : State) (d slot : Nat) (e : FlowEnt) : (s.setFlow d slot e).icu = s.icu := rfl
@[simp] theorem State.setFlow_lineTx (s : State) (d slot : Nat) (e : FlowEnt) : (s.setFlow d slot e).lineTx = s.lineTx := rfl
@[simp] theorem State.setFlow_free (s : State) (d slot : Nat) (e : FlowEnt) : (s.setFlow d slot e).free = s.free := rfl
@[simp] theorem State.setFlow_pending (s : State) (d slot : Nat) (e : FlowEnt) : (s.setFlow d slot e).pending = s.pending := rfl

theorem State.setFlow_only (s : State) (d slot : Nat) (e : FlowEnt) : only [.fwt] s (s.setFlow d slot e) := by
  intro p hp; cases p <;> first | rfl | exact absurd (by decide) hp

/-! modCtx. -/

@[simp] theorem State.modCtx_part (s : State) (d c : Nat) (f : FCtx → FCtx) : (s.modCtx d c f).part = s.part := rfl
@[simp] theorem State.modCtx_regs (s : State) (d c : Nat) (f : FCtx → FCtx) : (s.modCtx d c f).regs = s.regs := rfl
@[simp] theorem State.modCtx_glb (s : State) (d c : Nat) (f : FCtx → FCtx) : (s.modCtx d c f).glb = s.glb := rfl
@[simp] theorem State.modCtx_phi (s : State) (d c : Nat) (f : FCtx → FCtx) : (s.modCtx d c f).phi = s.phi := rfl
@[simp] theorem State.modCtx_cte (s : State) (d c : Nat) (f : FCtx → FCtx) : (s.modCtx d c f).cte = s.cte := rfl
@[simp] theorem State.modCtx_lpx (s : State) (d c : Nat) (f : FCtx → FCtx) : (s.modCtx d c f).lpx = s.lpx := rfl
@[simp] theorem State.modCtx_prs (s : State) (d c : Nat) (f : FCtx → FCtx) : (s.modCtx d c f).prs = s.prs := rfl
@[simp] theorem State.modCtx_cls (s : State) (d c : Nat) (f : FCtx → FCtx) : (s.modCtx d c f).cls = s.cls := rfl
@[simp] theorem State.modCtx_bpm (s : State) (d c : Nat) (f : FCtx → FCtx) : (s.modCtx d c f).bpm = s.bpm := rfl
@[simp] theorem State.modCtx_qba (s : State) (d c : Nat) (f : FCtx → FCtx) : (s.modCtx d c f).qba = s.qba := rfl
@[simp] theorem State.modCtx_ssc (s : State) (d c : Nat) (f : FCtx → FCtx) : (s.modCtx d c f).ssc = s.ssc := rfl
@[simp] theorem State.modCtx_rsq (s : State) (d c : Nat) (f : FCtx → FCtx) : (s.modCtx d c f).rsq = s.rsq := rfl
@[simp] theorem State.modCtx_cra (s : State) (d c : Nat) (f : FCtx → FCtx) : (s.modCtx d c f).cra = s.cra := rfl
@[simp] theorem State.modCtx_tdx (s : State) (d c : Nat) (f : FCtx → FCtx) : (s.modCtx d c f).tdx = s.tdx := rfl
@[simp] theorem State.modCtx_syu (s : State) (d c : Nat) (f : FCtx → FCtx) : (s.modCtx d c f).syu = s.syu := rfl
@[simp] theorem State.modCtx_gwe (s : State) (d c : Nat) (f : FCtx → FCtx) : (s.modCtx d c f).gwe = s.gwe := rfl
@[simp] theorem State.modCtx_plt (s : State) (d c : Nat) (f : FCtx → FCtx) : (s.modCtx d c f).plt = s.plt := rfl
@[simp] theorem State.modCtx_icu (s : State) (d c : Nat) (f : FCtx → FCtx) : (s.modCtx d c f).icu = s.icu := rfl
@[simp] theorem State.modCtx_lineTx (s : State) (d c : Nat) (f : FCtx → FCtx) : (s.modCtx d c f).lineTx = s.lineTx := rfl
@[simp] theorem State.modCtx_free (s : State) (d c : Nat) (f : FCtx → FCtx) : (s.modCtx d c f).free = s.free := rfl
@[simp] theorem State.modCtx_pending (s : State) (d c : Nat) (f : FCtx → FCtx) : (s.modCtx d c f).pending = s.pending := rfl

theorem State.modCtx_only (s : State) (d c : Nat) (f : FCtx → FCtx) : only [.fwt] s (s.modCtx d c f) := by
  intro p hp; cases p <;> first | rfl | exact absurd (by decide) hp

/-! setLearnQ. -/

@[simp] theorem State.setLearnQ_part (s : State) (d : Nat) (l : List LearnReq) : (s.setLearnQ d l).part = s.part := rfl
@[simp] theorem State.setLearnQ_regs (s : State) (d : Nat) (l : List LearnReq) : (s.setLearnQ d l).regs = s.regs := rfl
@[simp] theorem State.setLearnQ_glb (s : State) (d : Nat) (l : List LearnReq) : (s.setLearnQ d l).glb = s.glb := rfl
@[simp] theorem State.setLearnQ_phi (s : State) (d : Nat) (l : List LearnReq) : (s.setLearnQ d l).phi = s.phi := rfl
@[simp] theorem State.setLearnQ_cte (s : State) (d : Nat) (l : List LearnReq) : (s.setLearnQ d l).cte = s.cte := rfl
@[simp] theorem State.setLearnQ_lpx (s : State) (d : Nat) (l : List LearnReq) : (s.setLearnQ d l).lpx = s.lpx := rfl
@[simp] theorem State.setLearnQ_prs (s : State) (d : Nat) (l : List LearnReq) : (s.setLearnQ d l).prs = s.prs := rfl
@[simp] theorem State.setLearnQ_cls (s : State) (d : Nat) (l : List LearnReq) : (s.setLearnQ d l).cls = s.cls := rfl
@[simp] theorem State.setLearnQ_bpm (s : State) (d : Nat) (l : List LearnReq) : (s.setLearnQ d l).bpm = s.bpm := rfl
@[simp] theorem State.setLearnQ_qba (s : State) (d : Nat) (l : List LearnReq) : (s.setLearnQ d l).qba = s.qba := rfl
@[simp] theorem State.setLearnQ_ssc (s : State) (d : Nat) (l : List LearnReq) : (s.setLearnQ d l).ssc = s.ssc := rfl
@[simp] theorem State.setLearnQ_rsq (s : State) (d : Nat) (l : List LearnReq) : (s.setLearnQ d l).rsq = s.rsq := rfl
@[simp] theorem State.setLearnQ_cra (s : State) (d : Nat) (l : List LearnReq) : (s.setLearnQ d l).cra = s.cra := rfl
@[simp] theorem State.setLearnQ_tdx (s : State) (d : Nat) (l : List LearnReq) : (s.setLearnQ d l).tdx = s.tdx := rfl
@[simp] theorem State.setLearnQ_syu (s : State) (d : Nat) (l : List LearnReq) : (s.setLearnQ d l).syu = s.syu := rfl
@[simp] theorem State.setLearnQ_gwe (s : State) (d : Nat) (l : List LearnReq) : (s.setLearnQ d l).gwe = s.gwe := rfl
@[simp] theorem State.setLearnQ_plt (s : State) (d : Nat) (l : List LearnReq) : (s.setLearnQ d l).plt = s.plt := rfl
@[simp] theorem State.setLearnQ_icu (s : State) (d : Nat) (l : List LearnReq) : (s.setLearnQ d l).icu = s.icu := rfl
@[simp] theorem State.setLearnQ_lineTx (s : State) (d : Nat) (l : List LearnReq) : (s.setLearnQ d l).lineTx = s.lineTx := rfl
@[simp] theorem State.setLearnQ_free (s : State) (d : Nat) (l : List LearnReq) : (s.setLearnQ d l).free = s.free := rfl
@[simp] theorem State.setLearnQ_pending (s : State) (d : Nat) (l : List LearnReq) : (s.setLearnQ d l).pending = s.pending := rfl

theorem State.setLearnQ_only (s : State) (d : Nat) (l : List LearnReq) : only [.fwt] s (s.setLearnQ d l) := by
  intro p hp; cases p <;> first | rfl | exact absurd (by decide) hp

/-! setRob. -/

@[simp] theorem State.setRob_part (s : State) (d t : Nat) (r : Rob) : (s.setRob d t r).part = s.part := rfl
@[simp] theorem State.setRob_regs (s : State) (d t : Nat) (r : Rob) : (s.setRob d t r).regs = s.regs := rfl
@[simp] theorem State.setRob_glb (s : State) (d t : Nat) (r : Rob) : (s.setRob d t r).glb = s.glb := rfl
@[simp] theorem State.setRob_phi (s : State) (d t : Nat) (r : Rob) : (s.setRob d t r).phi = s.phi := rfl
@[simp] theorem State.setRob_cte (s : State) (d t : Nat) (r : Rob) : (s.setRob d t r).cte = s.cte := rfl
@[simp] theorem State.setRob_lpx (s : State) (d t : Nat) (r : Rob) : (s.setRob d t r).lpx = s.lpx := rfl
@[simp] theorem State.setRob_prs (s : State) (d t : Nat) (r : Rob) : (s.setRob d t r).prs = s.prs := rfl
@[simp] theorem State.setRob_cls (s : State) (d t : Nat) (r : Rob) : (s.setRob d t r).cls = s.cls := rfl
@[simp] theorem State.setRob_fwt (s : State) (d t : Nat) (r : Rob) : (s.setRob d t r).fwt = s.fwt := rfl
@[simp] theorem State.setRob_bpm (s : State) (d t : Nat) (r : Rob) : (s.setRob d t r).bpm = s.bpm := rfl
@[simp] theorem State.setRob_qba (s : State) (d t : Nat) (r : Rob) : (s.setRob d t r).qba = s.qba := rfl
@[simp] theorem State.setRob_ssc (s : State) (d t : Nat) (r : Rob) : (s.setRob d t r).ssc = s.ssc := rfl
@[simp] theorem State.setRob_cra (s : State) (d t : Nat) (r : Rob) : (s.setRob d t r).cra = s.cra := rfl
@[simp] theorem State.setRob_tdx (s : State) (d t : Nat) (r : Rob) : (s.setRob d t r).tdx = s.tdx := rfl
@[simp] theorem State.setRob_syu (s : State) (d t : Nat) (r : Rob) : (s.setRob d t r).syu = s.syu := rfl
@[simp] theorem State.setRob_gwe (s : State) (d t : Nat) (r : Rob) : (s.setRob d t r).gwe = s.gwe := rfl
@[simp] theorem State.setRob_plt (s : State) (d t : Nat) (r : Rob) : (s.setRob d t r).plt = s.plt := rfl
@[simp] theorem State.setRob_icu (s : State) (d t : Nat) (r : Rob) : (s.setRob d t r).icu = s.icu := rfl
@[simp] theorem State.setRob_lineTx (s : State) (d t : Nat) (r : Rob) : (s.setRob d t r).lineTx = s.lineTx := rfl
@[simp] theorem State.setRob_free (s : State) (d t : Nat) (r : Rob) : (s.setRob d t r).free = s.free := rfl
@[simp] theorem State.setRob_pending (s : State) (d t : Nat) (r : Rob) : (s.setRob d t r).pending = s.pending := rfl

theorem State.setRob_only (s : State) (d t : Nat) (r : Rob) : only [.rsq] s (s.setRob d t r) := by
  intro p hp; cases p <;> first | rfl | exact absurd (by decide) hp

/-! putQuay. -/

@[simp] theorem State.putQuay_part (s : State) (h o : Nat) (l : List Byte) : (s.putQuay h o l).part = s.part := rfl
@[simp] theorem State.putQuay_regs (s : State) (h o : Nat) (l : List Byte) : (s.putQuay h o l).regs = s.regs := rfl
@[simp] theorem State.putQuay_glb (s : State) (h o : Nat) (l : List Byte) : (s.putQuay h o l).glb = s.glb := rfl
@[simp] theorem State.putQuay_phi (s : State) (h o : Nat) (l : List Byte) : (s.putQuay h o l).phi = s.phi := rfl
@[simp] theorem State.putQuay_cte (s : State) (h o : Nat) (l : List Byte) : (s.putQuay h o l).cte = s.cte := rfl
@[simp] theorem State.putQuay_lpx (s : State) (h o : Nat) (l : List Byte) : (s.putQuay h o l).lpx = s.lpx := rfl
@[simp] theorem State.putQuay_prs (s : State) (h o : Nat) (l : List Byte) : (s.putQuay h o l).prs = s.prs := rfl
@[simp] theorem State.putQuay_cls (s : State) (h o : Nat) (l : List Byte) : (s.putQuay h o l).cls = s.cls := rfl
@[simp] theorem State.putQuay_fwt (s : State) (h o : Nat) (l : List Byte) : (s.putQuay h o l).fwt = s.fwt := rfl
@[simp] theorem State.putQuay_qba (s : State) (h o : Nat) (l : List Byte) : (s.putQuay h o l).qba = s.qba := rfl
@[simp] theorem State.putQuay_ssc (s : State) (h o : Nat) (l : List Byte) : (s.putQuay h o l).ssc = s.ssc := rfl
@[simp] theorem State.putQuay_rsq (s : State) (h o : Nat) (l : List Byte) : (s.putQuay h o l).rsq = s.rsq := rfl
@[simp] theorem State.putQuay_cra (s : State) (h o : Nat) (l : List Byte) : (s.putQuay h o l).cra = s.cra := rfl
@[simp] theorem State.putQuay_tdx (s : State) (h o : Nat) (l : List Byte) : (s.putQuay h o l).tdx = s.tdx := rfl
@[simp] theorem State.putQuay_syu (s : State) (h o : Nat) (l : List Byte) : (s.putQuay h o l).syu = s.syu := rfl
@[simp] theorem State.putQuay_gwe (s : State) (h o : Nat) (l : List Byte) : (s.putQuay h o l).gwe = s.gwe := rfl
@[simp] theorem State.putQuay_plt (s : State) (h o : Nat) (l : List Byte) : (s.putQuay h o l).plt = s.plt := rfl
@[simp] theorem State.putQuay_icu (s : State) (h o : Nat) (l : List Byte) : (s.putQuay h o l).icu = s.icu := rfl
@[simp] theorem State.putQuay_lineTx (s : State) (h o : Nat) (l : List Byte) : (s.putQuay h o l).lineTx = s.lineTx := rfl
@[simp] theorem State.putQuay_free (s : State) (h o : Nat) (l : List Byte) : (s.putQuay h o l).free = s.free := rfl
@[simp] theorem State.putQuay_pending (s : State) (h o : Nat) (l : List Byte) : (s.putQuay h o l).pending = s.pending := rfl

theorem State.putQuay_only (s : State) (h o : Nat) (l : List Byte) : only [.bpm] s (s.putQuay h o l) := by
  intro p hp; cases p <;> first | rfl | exact absurd (by decide) hp

/-! setAlloc. -/

@[simp] theorem State.setAlloc_part (s : State) (h : Nat) (b : Bool) : (s.setAlloc h b).part = s.part := rfl
@[simp] theorem State.setAlloc_regs (s : State) (h : Nat) (b : Bool) : (s.setAlloc h b).regs = s.regs := rfl
@[simp] theorem State.setAlloc_glb (s : State) (h : Nat) (b : Bool) : (s.setAlloc h b).glb = s.glb := rfl
@[simp] theorem State.setAlloc_phi (s : State) (h : Nat) (b : Bool) : (s.setAlloc h b).phi = s.phi := rfl
@[simp] theorem State.setAlloc_cte (s : State) (h : Nat) (b : Bool) : (s.setAlloc h b).cte = s.cte := rfl
@[simp] theorem State.setAlloc_lpx (s : State) (h : Nat) (b : Bool) : (s.setAlloc h b).lpx = s.lpx := rfl
@[simp] theorem State.setAlloc_prs (s : State) (h : Nat) (b : Bool) : (s.setAlloc h b).prs = s.prs := rfl
@[simp] theorem State.setAlloc_cls (s : State) (h : Nat) (b : Bool) : (s.setAlloc h b).cls = s.cls := rfl
@[simp] theorem State.setAlloc_fwt (s : State) (h : Nat) (b : Bool) : (s.setAlloc h b).fwt = s.fwt := rfl
@[simp] theorem State.setAlloc_qba (s : State) (h : Nat) (b : Bool) : (s.setAlloc h b).qba = s.qba := rfl
@[simp] theorem State.setAlloc_ssc (s : State) (h : Nat) (b : Bool) : (s.setAlloc h b).ssc = s.ssc := rfl
@[simp] theorem State.setAlloc_rsq (s : State) (h : Nat) (b : Bool) : (s.setAlloc h b).rsq = s.rsq := rfl
@[simp] theorem State.setAlloc_cra (s : State) (h : Nat) (b : Bool) : (s.setAlloc h b).cra = s.cra := rfl
@[simp] theorem State.setAlloc_tdx (s : State) (h : Nat) (b : Bool) : (s.setAlloc h b).tdx = s.tdx := rfl
@[simp] theorem State.setAlloc_syu (s : State) (h : Nat) (b : Bool) : (s.setAlloc h b).syu = s.syu := rfl
@[simp] theorem State.setAlloc_gwe (s : State) (h : Nat) (b : Bool) : (s.setAlloc h b).gwe = s.gwe := rfl
@[simp] theorem State.setAlloc_plt (s : State) (h : Nat) (b : Bool) : (s.setAlloc h b).plt = s.plt := rfl
@[simp] theorem State.setAlloc_icu (s : State) (h : Nat) (b : Bool) : (s.setAlloc h b).icu = s.icu := rfl
@[simp] theorem State.setAlloc_lineTx (s : State) (h : Nat) (b : Bool) : (s.setAlloc h b).lineTx = s.lineTx := rfl
@[simp] theorem State.setAlloc_free (s : State) (h : Nat) (b : Bool) : (s.setAlloc h b).free = s.free := rfl
@[simp] theorem State.setAlloc_pending (s : State) (h : Nat) (b : Bool) : (s.setAlloc h b).pending = s.pending := rfl

theorem State.setAlloc_only (s : State) (h : Nat) (b : Bool) : only [.bpm] s (s.setAlloc h b) := by
  intro p hp; cases p <;> first | rfl | exact absurd (by decide) hp

/-! setHead. -/

@[simp] theorem State.setHead_part (s : State) (d i h : Nat) : (s.setHead d i h).part = s.part := rfl
@[simp] theorem State.setHead_regs (s : State) (d i h : Nat) : (s.setHead d i h).regs = s.regs := rfl
@[simp] theorem State.setHead_glb (s : State) (d i h : Nat) : (s.setHead d i h).glb = s.glb := rfl
@[simp] theorem State.setHead_phi (s : State) (d i h : Nat) : (s.setHead d i h).phi = s.phi := rfl
@[simp] theorem State.setHead_cte (s : State) (d i h : Nat) : (s.setHead d i h).cte = s.cte := rfl
@[simp] theorem State.setHead_lpx (s : State) (d i h : Nat) : (s.setHead d i h).lpx = s.lpx := rfl
@[simp] theorem State.setHead_prs (s : State) (d i h : Nat) : (s.setHead d i h).prs = s.prs := rfl
@[simp] theorem State.setHead_cls (s : State) (d i h : Nat) : (s.setHead d i h).cls = s.cls := rfl
@[simp] theorem State.setHead_fwt (s : State) (d i h : Nat) : (s.setHead d i h).fwt = s.fwt := rfl
@[simp] theorem State.setHead_qba (s : State) (d i h : Nat) : (s.setHead d i h).qba = s.qba := rfl
@[simp] theorem State.setHead_ssc (s : State) (d i h : Nat) : (s.setHead d i h).ssc = s.ssc := rfl
@[simp] theorem State.setHead_rsq (s : State) (d i h : Nat) : (s.setHead d i h).rsq = s.rsq := rfl
@[simp] theorem State.setHead_cra (s : State) (d i h : Nat) : (s.setHead d i h).cra = s.cra := rfl
@[simp] theorem State.setHead_tdx (s : State) (d i h : Nat) : (s.setHead d i h).tdx = s.tdx := rfl
@[simp] theorem State.setHead_syu (s : State) (d i h : Nat) : (s.setHead d i h).syu = s.syu := rfl
@[simp] theorem State.setHead_gwe (s : State) (d i h : Nat) : (s.setHead d i h).gwe = s.gwe := rfl
@[simp] theorem State.setHead_plt (s : State) (d i h : Nat) : (s.setHead d i h).plt = s.plt := rfl
@[simp] theorem State.setHead_icu (s : State) (d i h : Nat) : (s.setHead d i h).icu = s.icu := rfl
@[simp] theorem State.setHead_lineTx (s : State) (d i h : Nat) : (s.setHead d i h).lineTx = s.lineTx := rfl
@[simp] theorem State.setHead_free (s : State) (d i h : Nat) : (s.setHead d i h).free = s.free := rfl
@[simp] theorem State.setHead_pending (s : State) (d i h : Nat) : (s.setHead d i h).pending = s.pending := rfl

theorem State.setHead_only (s : State) (d i h : Nat) : only [.bpm] s (s.setHead d i h) := by
  intro p hp; cases p <;> first | rfl | exact absurd (by decide) hp

/-! setShare. -/

@[simp] theorem State.setShare_part (s : State) (h : Nat) (x : Share) : (s.setShare h x).part = s.part := rfl
@[simp] theorem State.setShare_regs (s : State) (h : Nat) (x : Share) : (s.setShare h x).regs = s.regs := rfl
@[simp] theorem State.setShare_glb (s : State) (h : Nat) (x : Share) : (s.setShare h x).glb = s.glb := rfl
@[simp] theorem State.setShare_phi (s : State) (h : Nat) (x : Share) : (s.setShare h x).phi = s.phi := rfl
@[simp] theorem State.setShare_cte (s : State) (h : Nat) (x : Share) : (s.setShare h x).cte = s.cte := rfl
@[simp] theorem State.setShare_lpx (s : State) (h : Nat) (x : Share) : (s.setShare h x).lpx = s.lpx := rfl
@[simp] theorem State.setShare_prs (s : State) (h : Nat) (x : Share) : (s.setShare h x).prs = s.prs := rfl
@[simp] theorem State.setShare_cls (s : State) (h : Nat) (x : Share) : (s.setShare h x).cls = s.cls := rfl
@[simp] theorem State.setShare_fwt (s : State) (h : Nat) (x : Share) : (s.setShare h x).fwt = s.fwt := rfl
@[simp] theorem State.setShare_qba (s : State) (h : Nat) (x : Share) : (s.setShare h x).qba = s.qba := rfl
@[simp] theorem State.setShare_ssc (s : State) (h : Nat) (x : Share) : (s.setShare h x).ssc = s.ssc := rfl
@[simp] theorem State.setShare_rsq (s : State) (h : Nat) (x : Share) : (s.setShare h x).rsq = s.rsq := rfl
@[simp] theorem State.setShare_cra (s : State) (h : Nat) (x : Share) : (s.setShare h x).cra = s.cra := rfl
@[simp] theorem State.setShare_tdx (s : State) (h : Nat) (x : Share) : (s.setShare h x).tdx = s.tdx := rfl
@[simp] theorem State.setShare_syu (s : State) (h : Nat) (x : Share) : (s.setShare h x).syu = s.syu := rfl
@[simp] theorem State.setShare_gwe (s : State) (h : Nat) (x : Share) : (s.setShare h x).gwe = s.gwe := rfl
@[simp] theorem State.setShare_plt (s : State) (h : Nat) (x : Share) : (s.setShare h x).plt = s.plt := rfl
@[simp] theorem State.setShare_icu (s : State) (h : Nat) (x : Share) : (s.setShare h x).icu = s.icu := rfl
@[simp] theorem State.setShare_lineTx (s : State) (h : Nat) (x : Share) : (s.setShare h x).lineTx = s.lineTx := rfl
@[simp] theorem State.setShare_free (s : State) (h : Nat) (x : Share) : (s.setShare h x).free = s.free := rfl
@[simp] theorem State.setShare_pending (s : State) (h : Nat) (x : Share) : (s.setShare h x).pending = s.pending := rfl

theorem State.setShare_only (s : State) (h : Nat) (x : Share) : only [.bpm] s (s.setShare h x) := by
  intro p hp; cases p <;> first | rfl | exact absurd (by decide) hp

/-! setLock. -/

@[simp] theorem State.setLock_part (s : State) (d l : Nat) (x : Lock) : (s.setLock d l x).part = s.part := rfl
@[simp] theorem State.setLock_regs (s : State) (d l : Nat) (x : Lock) : (s.setLock d l x).regs = s.regs := rfl
@[simp] theorem State.setLock_glb (s : State) (d l : Nat) (x : Lock) : (s.setLock d l x).glb = s.glb := rfl
@[simp] theorem State.setLock_phi (s : State) (d l : Nat) (x : Lock) : (s.setLock d l x).phi = s.phi := rfl
@[simp] theorem State.setLock_cte (s : State) (d l : Nat) (x : Lock) : (s.setLock d l x).cte = s.cte := rfl
@[simp] theorem State.setLock_lpx (s : State) (d l : Nat) (x : Lock) : (s.setLock d l x).lpx = s.lpx := rfl
@[simp] theorem State.setLock_prs (s : State) (d l : Nat) (x : Lock) : (s.setLock d l x).prs = s.prs := rfl
@[simp] theorem State.setLock_cls (s : State) (d l : Nat) (x : Lock) : (s.setLock d l x).cls = s.cls := rfl
@[simp] theorem State.setLock_fwt (s : State) (d l : Nat) (x : Lock) : (s.setLock d l x).fwt = s.fwt := rfl
@[simp] theorem State.setLock_bpm (s : State) (d l : Nat) (x : Lock) : (s.setLock d l x).bpm = s.bpm := rfl
@[simp] theorem State.setLock_qba (s : State) (d l : Nat) (x : Lock) : (s.setLock d l x).qba = s.qba := rfl
@[simp] theorem State.setLock_ssc (s : State) (d l : Nat) (x : Lock) : (s.setLock d l x).ssc = s.ssc := rfl
@[simp] theorem State.setLock_rsq (s : State) (d l : Nat) (x : Lock) : (s.setLock d l x).rsq = s.rsq := rfl
@[simp] theorem State.setLock_cra (s : State) (d l : Nat) (x : Lock) : (s.setLock d l x).cra = s.cra := rfl
@[simp] theorem State.setLock_tdx (s : State) (d l : Nat) (x : Lock) : (s.setLock d l x).tdx = s.tdx := rfl
@[simp] theorem State.setLock_gwe (s : State) (d l : Nat) (x : Lock) : (s.setLock d l x).gwe = s.gwe := rfl
@[simp] theorem State.setLock_plt (s : State) (d l : Nat) (x : Lock) : (s.setLock d l x).plt = s.plt := rfl
@[simp] theorem State.setLock_icu (s : State) (d l : Nat) (x : Lock) : (s.setLock d l x).icu = s.icu := rfl
@[simp] theorem State.setLock_lineTx (s : State) (d l : Nat) (x : Lock) : (s.setLock d l x).lineTx = s.lineTx := rfl
@[simp] theorem State.setLock_free (s : State) (d l : Nat) (x : Lock) : (s.setLock d l x).free = s.free := rfl
@[simp] theorem State.setLock_pending (s : State) (d l : Nat) (x : Lock) : (s.setLock d l x).pending = s.pending := rfl

theorem State.setLock_only (s : State) (d l : Nat) (x : Lock) : only [.syu] s (s.setLock d l x) := by
  intro p hp; cases p <;> first | rfl | exact absurd (by decide) hp

/-! setEv. -/

@[simp] theorem State.setEv_part (s : State) (d k e : Nat) (x : Ev) : (s.setEv d k e x).part = s.part := rfl
@[simp] theorem State.setEv_regs (s : State) (d k e : Nat) (x : Ev) : (s.setEv d k e x).regs = s.regs := rfl
@[simp] theorem State.setEv_glb (s : State) (d k e : Nat) (x : Ev) : (s.setEv d k e x).glb = s.glb := rfl
@[simp] theorem State.setEv_phi (s : State) (d k e : Nat) (x : Ev) : (s.setEv d k e x).phi = s.phi := rfl
@[simp] theorem State.setEv_cte (s : State) (d k e : Nat) (x : Ev) : (s.setEv d k e x).cte = s.cte := rfl
@[simp] theorem State.setEv_lpx (s : State) (d k e : Nat) (x : Ev) : (s.setEv d k e x).lpx = s.lpx := rfl
@[simp] theorem State.setEv_prs (s : State) (d k e : Nat) (x : Ev) : (s.setEv d k e x).prs = s.prs := rfl
@[simp] theorem State.setEv_cls (s : State) (d k e : Nat) (x : Ev) : (s.setEv d k e x).cls = s.cls := rfl
@[simp] theorem State.setEv_fwt (s : State) (d k e : Nat) (x : Ev) : (s.setEv d k e x).fwt = s.fwt := rfl
@[simp] theorem State.setEv_bpm (s : State) (d k e : Nat) (x : Ev) : (s.setEv d k e x).bpm = s.bpm := rfl
@[simp] theorem State.setEv_qba (s : State) (d k e : Nat) (x : Ev) : (s.setEv d k e x).qba = s.qba := rfl
@[simp] theorem State.setEv_ssc (s : State) (d k e : Nat) (x : Ev) : (s.setEv d k e x).ssc = s.ssc := rfl
@[simp] theorem State.setEv_rsq (s : State) (d k e : Nat) (x : Ev) : (s.setEv d k e x).rsq = s.rsq := rfl
@[simp] theorem State.setEv_cra (s : State) (d k e : Nat) (x : Ev) : (s.setEv d k e x).cra = s.cra := rfl
@[simp] theorem State.setEv_tdx (s : State) (d k e : Nat) (x : Ev) : (s.setEv d k e x).tdx = s.tdx := rfl
@[simp] theorem State.setEv_gwe (s : State) (d k e : Nat) (x : Ev) : (s.setEv d k e x).gwe = s.gwe := rfl
@[simp] theorem State.setEv_plt (s : State) (d k e : Nat) (x : Ev) : (s.setEv d k e x).plt = s.plt := rfl
@[simp] theorem State.setEv_icu (s : State) (d k e : Nat) (x : Ev) : (s.setEv d k e x).icu = s.icu := rfl
@[simp] theorem State.setEv_lineTx (s : State) (d k e : Nat) (x : Ev) : (s.setEv d k e x).lineTx = s.lineTx := rfl
@[simp] theorem State.setEv_free (s : State) (d k e : Nat) (x : Ev) : (s.setEv d k e x).free = s.free := rfl
@[simp] theorem State.setEv_pending (s : State) (d k e : Nat) (x : Ev) : (s.setEv d k e x).pending = s.pending := rfl

theorem State.setEv_only (s : State) (d k e : Nat) (x : Ev) : only [.syu] s (s.setEv d k e x) := by
  intro p hp; cases p <;> first | rfl | exact absurd (by decide) hp

/-! setChan. -/

@[simp] theorem State.setChan_part (s : State) (d k c : Nat) (x : Chan) : (s.setChan d k c x).part = s.part := rfl
@[simp] theorem State.setChan_regs (s : State) (d k c : Nat) (x : Chan) : (s.setChan d k c x).regs = s.regs := rfl
@[simp] theorem State.setChan_glb (s : State) (d k c : Nat) (x : Chan) : (s.setChan d k c x).glb = s.glb := rfl
@[simp] theorem State.setChan_phi (s : State) (d k c : Nat) (x : Chan) : (s.setChan d k c x).phi = s.phi := rfl
@[simp] theorem State.setChan_cte (s : State) (d k c : Nat) (x : Chan) : (s.setChan d k c x).cte = s.cte := rfl
@[simp] theorem State.setChan_lpx (s : State) (d k c : Nat) (x : Chan) : (s.setChan d k c x).lpx = s.lpx := rfl
@[simp] theorem State.setChan_prs (s : State) (d k c : Nat) (x : Chan) : (s.setChan d k c x).prs = s.prs := rfl
@[simp] theorem State.setChan_cls (s : State) (d k c : Nat) (x : Chan) : (s.setChan d k c x).cls = s.cls := rfl
@[simp] theorem State.setChan_fwt (s : State) (d k c : Nat) (x : Chan) : (s.setChan d k c x).fwt = s.fwt := rfl
@[simp] theorem State.setChan_bpm (s : State) (d k c : Nat) (x : Chan) : (s.setChan d k c x).bpm = s.bpm := rfl
@[simp] theorem State.setChan_qba (s : State) (d k c : Nat) (x : Chan) : (s.setChan d k c x).qba = s.qba := rfl
@[simp] theorem State.setChan_ssc (s : State) (d k c : Nat) (x : Chan) : (s.setChan d k c x).ssc = s.ssc := rfl
@[simp] theorem State.setChan_rsq (s : State) (d k c : Nat) (x : Chan) : (s.setChan d k c x).rsq = s.rsq := rfl
@[simp] theorem State.setChan_cra (s : State) (d k c : Nat) (x : Chan) : (s.setChan d k c x).cra = s.cra := rfl
@[simp] theorem State.setChan_tdx (s : State) (d k c : Nat) (x : Chan) : (s.setChan d k c x).tdx = s.tdx := rfl
@[simp] theorem State.setChan_gwe (s : State) (d k c : Nat) (x : Chan) : (s.setChan d k c x).gwe = s.gwe := rfl
@[simp] theorem State.setChan_plt (s : State) (d k c : Nat) (x : Chan) : (s.setChan d k c x).plt = s.plt := rfl
@[simp] theorem State.setChan_icu (s : State) (d k c : Nat) (x : Chan) : (s.setChan d k c x).icu = s.icu := rfl
@[simp] theorem State.setChan_lineTx (s : State) (d k c : Nat) (x : Chan) : (s.setChan d k c x).lineTx = s.lineTx := rfl
@[simp] theorem State.setChan_free (s : State) (d k c : Nat) (x : Chan) : (s.setChan d k c x).free = s.free := rfl
@[simp] theorem State.setChan_pending (s : State) (d k c : Nat) (x : Chan) : (s.setChan d k c x).pending = s.pending := rfl

theorem State.setChan_only (s : State) (d k c : Nat) (x : Chan) : only [.syu] s (s.setChan d k c x) := by
  intro p hp; cases p <;> first | rfl | exact absurd (by decide) hp

/-! setSeg. -/

@[simp] theorem State.setSeg_part (s : State) (j : Nat) (x : Seg) : (s.setSeg j x).part = s.part := rfl
@[simp] theorem State.setSeg_regs (s : State) (j : Nat) (x : Seg) : (s.setSeg j x).regs = s.regs := rfl
@[simp] theorem State.setSeg_glb (s : State) (j : Nat) (x : Seg) : (s.setSeg j x).glb = s.glb := rfl
@[simp] theorem State.setSeg_phi (s : State) (j : Nat) (x : Seg) : (s.setSeg j x).phi = s.phi := rfl
@[simp] theorem State.setSeg_cte (s : State) (j : Nat) (x : Seg) : (s.setSeg j x).cte = s.cte := rfl
@[simp] theorem State.setSeg_lpx (s : State) (j : Nat) (x : Seg) : (s.setSeg j x).lpx = s.lpx := rfl
@[simp] theorem State.setSeg_prs (s : State) (j : Nat) (x : Seg) : (s.setSeg j x).prs = s.prs := rfl
@[simp] theorem State.setSeg_cls (s : State) (j : Nat) (x : Seg) : (s.setSeg j x).cls = s.cls := rfl
@[simp] theorem State.setSeg_fwt (s : State) (j : Nat) (x : Seg) : (s.setSeg j x).fwt = s.fwt := rfl
@[simp] theorem State.setSeg_bpm (s : State) (j : Nat) (x : Seg) : (s.setSeg j x).bpm = s.bpm := rfl
@[simp] theorem State.setSeg_qba (s : State) (j : Nat) (x : Seg) : (s.setSeg j x).qba = s.qba := rfl
@[simp] theorem State.setSeg_rsq (s : State) (j : Nat) (x : Seg) : (s.setSeg j x).rsq = s.rsq := rfl
@[simp] theorem State.setSeg_cra (s : State) (j : Nat) (x : Seg) : (s.setSeg j x).cra = s.cra := rfl
@[simp] theorem State.setSeg_tdx (s : State) (j : Nat) (x : Seg) : (s.setSeg j x).tdx = s.tdx := rfl
@[simp] theorem State.setSeg_syu (s : State) (j : Nat) (x : Seg) : (s.setSeg j x).syu = s.syu := rfl
@[simp] theorem State.setSeg_gwe (s : State) (j : Nat) (x : Seg) : (s.setSeg j x).gwe = s.gwe := rfl
@[simp] theorem State.setSeg_plt (s : State) (j : Nat) (x : Seg) : (s.setSeg j x).plt = s.plt := rfl
@[simp] theorem State.setSeg_icu (s : State) (j : Nat) (x : Seg) : (s.setSeg j x).icu = s.icu := rfl
@[simp] theorem State.setSeg_lineTx (s : State) (j : Nat) (x : Seg) : (s.setSeg j x).lineTx = s.lineTx := rfl
@[simp] theorem State.setSeg_free (s : State) (j : Nat) (x : Seg) : (s.setSeg j x).free = s.free := rfl
@[simp] theorem State.setSeg_pending (s : State) (j : Nat) (x : Seg) : (s.setSeg j x).pending = s.pending := rfl

theorem State.setSeg_only (s : State) (j : Nat) (x : Seg) : only [.ssc] s (s.setSeg j x) := by
  intro p hp; cases p <;> first | rfl | exact absurd (by decide) hp

/-! putSeg. -/

@[simp] theorem State.putSeg_part (s : State) (j b : Nat) (l : List Byte) : (s.putSeg j b l).part = s.part := rfl
@[simp] theorem State.putSeg_regs (s : State) (j b : Nat) (l : List Byte) : (s.putSeg j b l).regs = s.regs := rfl
@[simp] theorem State.putSeg_glb (s : State) (j b : Nat) (l : List Byte) : (s.putSeg j b l).glb = s.glb := rfl
@[simp] theorem State.putSeg_phi (s : State) (j b : Nat) (l : List Byte) : (s.putSeg j b l).phi = s.phi := rfl
@[simp] theorem State.putSeg_cte (s : State) (j b : Nat) (l : List Byte) : (s.putSeg j b l).cte = s.cte := rfl
@[simp] theorem State.putSeg_lpx (s : State) (j b : Nat) (l : List Byte) : (s.putSeg j b l).lpx = s.lpx := rfl
@[simp] theorem State.putSeg_prs (s : State) (j b : Nat) (l : List Byte) : (s.putSeg j b l).prs = s.prs := rfl
@[simp] theorem State.putSeg_cls (s : State) (j b : Nat) (l : List Byte) : (s.putSeg j b l).cls = s.cls := rfl
@[simp] theorem State.putSeg_fwt (s : State) (j b : Nat) (l : List Byte) : (s.putSeg j b l).fwt = s.fwt := rfl
@[simp] theorem State.putSeg_bpm (s : State) (j b : Nat) (l : List Byte) : (s.putSeg j b l).bpm = s.bpm := rfl
@[simp] theorem State.putSeg_qba (s : State) (j b : Nat) (l : List Byte) : (s.putSeg j b l).qba = s.qba := rfl
@[simp] theorem State.putSeg_rsq (s : State) (j b : Nat) (l : List Byte) : (s.putSeg j b l).rsq = s.rsq := rfl
@[simp] theorem State.putSeg_cra (s : State) (j b : Nat) (l : List Byte) : (s.putSeg j b l).cra = s.cra := rfl
@[simp] theorem State.putSeg_tdx (s : State) (j b : Nat) (l : List Byte) : (s.putSeg j b l).tdx = s.tdx := rfl
@[simp] theorem State.putSeg_syu (s : State) (j b : Nat) (l : List Byte) : (s.putSeg j b l).syu = s.syu := rfl
@[simp] theorem State.putSeg_gwe (s : State) (j b : Nat) (l : List Byte) : (s.putSeg j b l).gwe = s.gwe := rfl
@[simp] theorem State.putSeg_plt (s : State) (j b : Nat) (l : List Byte) : (s.putSeg j b l).plt = s.plt := rfl
@[simp] theorem State.putSeg_icu (s : State) (j b : Nat) (l : List Byte) : (s.putSeg j b l).icu = s.icu := rfl
@[simp] theorem State.putSeg_lineTx (s : State) (j b : Nat) (l : List Byte) : (s.putSeg j b l).lineTx = s.lineTx := rfl
@[simp] theorem State.putSeg_free (s : State) (j b : Nat) (l : List Byte) : (s.putSeg j b l).free = s.free := rfl
@[simp] theorem State.putSeg_pending (s : State) (j b : Nat) (l : List Byte) : (s.putSeg j b l).pending = s.pending := rfl

theorem State.putSeg_only (s : State) (j b : Nat) (l : List Byte) : only [.ssc] s (s.putSeg j b l) := by
  intro p hp; cases p <;> first | rfl | exact absurd (by decide) hp

/-! setReady. -/

@[simp] theorem State.setReady_part (s : State) (d l : Nat) (x : List Task) : (s.setReady d l x).part = s.part := rfl
@[simp] theorem State.setReady_regs (s : State) (d l : Nat) (x : List Task) : (s.setReady d l x).regs = s.regs := rfl
@[simp] theorem State.setReady_glb (s : State) (d l : Nat) (x : List Task) : (s.setReady d l x).glb = s.glb := rfl
@[simp] theorem State.setReady_phi (s : State) (d l : Nat) (x : List Task) : (s.setReady d l x).phi = s.phi := rfl
@[simp] theorem State.setReady_cte (s : State) (d l : Nat) (x : List Task) : (s.setReady d l x).cte = s.cte := rfl
@[simp] theorem State.setReady_lpx (s : State) (d l : Nat) (x : List Task) : (s.setReady d l x).lpx = s.lpx := rfl
@[simp] theorem State.setReady_prs (s : State) (d l : Nat) (x : List Task) : (s.setReady d l x).prs = s.prs := rfl
@[simp] theorem State.setReady_cls (s : State) (d l : Nat) (x : List Task) : (s.setReady d l x).cls = s.cls := rfl
@[simp] theorem State.setReady_fwt (s : State) (d l : Nat) (x : List Task) : (s.setReady d l x).fwt = s.fwt := rfl
@[simp] theorem State.setReady_bpm (s : State) (d l : Nat) (x : List Task) : (s.setReady d l x).bpm = s.bpm := rfl
@[simp] theorem State.setReady_qba (s : State) (d l : Nat) (x : List Task) : (s.setReady d l x).qba = s.qba := rfl
@[simp] theorem State.setReady_ssc (s : State) (d l : Nat) (x : List Task) : (s.setReady d l x).ssc = s.ssc := rfl
@[simp] theorem State.setReady_rsq (s : State) (d l : Nat) (x : List Task) : (s.setReady d l x).rsq = s.rsq := rfl
@[simp] theorem State.setReady_cra (s : State) (d l : Nat) (x : List Task) : (s.setReady d l x).cra = s.cra := rfl
@[simp] theorem State.setReady_syu (s : State) (d l : Nat) (x : List Task) : (s.setReady d l x).syu = s.syu := rfl
@[simp] theorem State.setReady_gwe (s : State) (d l : Nat) (x : List Task) : (s.setReady d l x).gwe = s.gwe := rfl
@[simp] theorem State.setReady_plt (s : State) (d l : Nat) (x : List Task) : (s.setReady d l x).plt = s.plt := rfl
@[simp] theorem State.setReady_icu (s : State) (d l : Nat) (x : List Task) : (s.setReady d l x).icu = s.icu := rfl
@[simp] theorem State.setReady_lineTx (s : State) (d l : Nat) (x : List Task) : (s.setReady d l x).lineTx = s.lineTx := rfl
@[simp] theorem State.setReady_free (s : State) (d l : Nat) (x : List Task) : (s.setReady d l x).free = s.free := rfl
@[simp] theorem State.setReady_pending (s : State) (d l : Nat) (x : List Task) : (s.setReady d l x).pending = s.pending := rfl

theorem State.setReady_only (s : State) (d l : Nat) (x : List Task) : only [.tdx] s (s.setReady d l x) := by
  intro p hp; cases p <;> first | rfl | exact absurd (by decide) hp

/-! setDelay. -/

@[simp] theorem State.setDelay_part (s : State) (d i : Nat) (x : List DTask) : (s.setDelay d i x).part = s.part := rfl
@[simp] theorem State.setDelay_regs (s : State) (d i : Nat) (x : List DTask) : (s.setDelay d i x).regs = s.regs := rfl
@[simp] theorem State.setDelay_glb (s : State) (d i : Nat) (x : List DTask) : (s.setDelay d i x).glb = s.glb := rfl
@[simp] theorem State.setDelay_phi (s : State) (d i : Nat) (x : List DTask) : (s.setDelay d i x).phi = s.phi := rfl
@[simp] theorem State.setDelay_cte (s : State) (d i : Nat) (x : List DTask) : (s.setDelay d i x).cte = s.cte := rfl
@[simp] theorem State.setDelay_lpx (s : State) (d i : Nat) (x : List DTask) : (s.setDelay d i x).lpx = s.lpx := rfl
@[simp] theorem State.setDelay_prs (s : State) (d i : Nat) (x : List DTask) : (s.setDelay d i x).prs = s.prs := rfl
@[simp] theorem State.setDelay_cls (s : State) (d i : Nat) (x : List DTask) : (s.setDelay d i x).cls = s.cls := rfl
@[simp] theorem State.setDelay_fwt (s : State) (d i : Nat) (x : List DTask) : (s.setDelay d i x).fwt = s.fwt := rfl
@[simp] theorem State.setDelay_bpm (s : State) (d i : Nat) (x : List DTask) : (s.setDelay d i x).bpm = s.bpm := rfl
@[simp] theorem State.setDelay_qba (s : State) (d i : Nat) (x : List DTask) : (s.setDelay d i x).qba = s.qba := rfl
@[simp] theorem State.setDelay_ssc (s : State) (d i : Nat) (x : List DTask) : (s.setDelay d i x).ssc = s.ssc := rfl
@[simp] theorem State.setDelay_rsq (s : State) (d i : Nat) (x : List DTask) : (s.setDelay d i x).rsq = s.rsq := rfl
@[simp] theorem State.setDelay_cra (s : State) (d i : Nat) (x : List DTask) : (s.setDelay d i x).cra = s.cra := rfl
@[simp] theorem State.setDelay_syu (s : State) (d i : Nat) (x : List DTask) : (s.setDelay d i x).syu = s.syu := rfl
@[simp] theorem State.setDelay_gwe (s : State) (d i : Nat) (x : List DTask) : (s.setDelay d i x).gwe = s.gwe := rfl
@[simp] theorem State.setDelay_plt (s : State) (d i : Nat) (x : List DTask) : (s.setDelay d i x).plt = s.plt := rfl
@[simp] theorem State.setDelay_icu (s : State) (d i : Nat) (x : List DTask) : (s.setDelay d i x).icu = s.icu := rfl
@[simp] theorem State.setDelay_lineTx (s : State) (d i : Nat) (x : List DTask) : (s.setDelay d i x).lineTx = s.lineTx := rfl
@[simp] theorem State.setDelay_free (s : State) (d i : Nat) (x : List DTask) : (s.setDelay d i x).free = s.free := rfl
@[simp] theorem State.setDelay_pending (s : State) (d i : Nat) (x : List DTask) : (s.setDelay d i x).pending = s.pending := rfl

theorem State.setDelay_only (s : State) (d i : Nat) (x : List DTask) : only [.tdx] s (s.setDelay d i x) := by
  intro p hp; cases p <;> first | rfl | exact absurd (by decide) hp

/-! modTrc. -/

@[simp] theorem State.modTrc_part (s : State) (d : Nat) (f : Trc → Trc) : (s.modTrc d f).part = s.part := rfl
@[simp] theorem State.modTrc_regs (s : State) (d : Nat) (f : Trc → Trc) : (s.modTrc d f).regs = s.regs := rfl
@[simp] theorem State.modTrc_glb (s : State) (d : Nat) (f : Trc → Trc) : (s.modTrc d f).glb = s.glb := rfl
@[simp] theorem State.modTrc_phi (s : State) (d : Nat) (f : Trc → Trc) : (s.modTrc d f).phi = s.phi := rfl
@[simp] theorem State.modTrc_cte (s : State) (d : Nat) (f : Trc → Trc) : (s.modTrc d f).cte = s.cte := rfl
@[simp] theorem State.modTrc_lpx (s : State) (d : Nat) (f : Trc → Trc) : (s.modTrc d f).lpx = s.lpx := rfl
@[simp] theorem State.modTrc_prs (s : State) (d : Nat) (f : Trc → Trc) : (s.modTrc d f).prs = s.prs := rfl
@[simp] theorem State.modTrc_cls (s : State) (d : Nat) (f : Trc → Trc) : (s.modTrc d f).cls = s.cls := rfl
@[simp] theorem State.modTrc_fwt (s : State) (d : Nat) (f : Trc → Trc) : (s.modTrc d f).fwt = s.fwt := rfl
@[simp] theorem State.modTrc_bpm (s : State) (d : Nat) (f : Trc → Trc) : (s.modTrc d f).bpm = s.bpm := rfl
@[simp] theorem State.modTrc_qba (s : State) (d : Nat) (f : Trc → Trc) : (s.modTrc d f).qba = s.qba := rfl
@[simp] theorem State.modTrc_ssc (s : State) (d : Nat) (f : Trc → Trc) : (s.modTrc d f).ssc = s.ssc := rfl
@[simp] theorem State.modTrc_rsq (s : State) (d : Nat) (f : Trc → Trc) : (s.modTrc d f).rsq = s.rsq := rfl
@[simp] theorem State.modTrc_cra (s : State) (d : Nat) (f : Trc → Trc) : (s.modTrc d f).cra = s.cra := rfl
@[simp] theorem State.modTrc_syu (s : State) (d : Nat) (f : Trc → Trc) : (s.modTrc d f).syu = s.syu := rfl
@[simp] theorem State.modTrc_gwe (s : State) (d : Nat) (f : Trc → Trc) : (s.modTrc d f).gwe = s.gwe := rfl
@[simp] theorem State.modTrc_plt (s : State) (d : Nat) (f : Trc → Trc) : (s.modTrc d f).plt = s.plt := rfl
@[simp] theorem State.modTrc_icu (s : State) (d : Nat) (f : Trc → Trc) : (s.modTrc d f).icu = s.icu := rfl
@[simp] theorem State.modTrc_lineTx (s : State) (d : Nat) (f : Trc → Trc) : (s.modTrc d f).lineTx = s.lineTx := rfl
@[simp] theorem State.modTrc_free (s : State) (d : Nat) (f : Trc → Trc) : (s.modTrc d f).free = s.free := rfl
@[simp] theorem State.modTrc_pending (s : State) (d : Nat) (f : Trc → Trc) : (s.modTrc d f).pending = s.pending := rfl

theorem State.modTrc_only (s : State) (d : Nat) (f : Trc → Trc) : only [.tdx] s (s.modTrc d f) := by
  intro p hp; cases p <;> first | rfl | exact absurd (by decide) hp

/-! setOp. -/

@[simp] theorem State.setOp_part (s : State) (i : Nat) (r : Option OpRec) : (s.setOp i r).part = s.part := rfl
@[simp] theorem State.setOp_regs (s : State) (i : Nat) (r : Option OpRec) : (s.setOp i r).regs = s.regs := rfl
@[simp] theorem State.setOp_glb (s : State) (i : Nat) (r : Option OpRec) : (s.setOp i r).glb = s.glb := rfl
@[simp] theorem State.setOp_phi (s : State) (i : Nat) (r : Option OpRec) : (s.setOp i r).phi = s.phi := rfl
@[simp] theorem State.setOp_cte (s : State) (i : Nat) (r : Option OpRec) : (s.setOp i r).cte = s.cte := rfl
@[simp] theorem State.setOp_lpx (s : State) (i : Nat) (r : Option OpRec) : (s.setOp i r).lpx = s.lpx := rfl
@[simp] theorem State.setOp_prs (s : State) (i : Nat) (r : Option OpRec) : (s.setOp i r).prs = s.prs := rfl
@[simp] theorem State.setOp_cls (s : State) (i : Nat) (r : Option OpRec) : (s.setOp i r).cls = s.cls := rfl
@[simp] theorem State.setOp_fwt (s : State) (i : Nat) (r : Option OpRec) : (s.setOp i r).fwt = s.fwt := rfl
@[simp] theorem State.setOp_bpm (s : State) (i : Nat) (r : Option OpRec) : (s.setOp i r).bpm = s.bpm := rfl
@[simp] theorem State.setOp_qba (s : State) (i : Nat) (r : Option OpRec) : (s.setOp i r).qba = s.qba := rfl
@[simp] theorem State.setOp_ssc (s : State) (i : Nat) (r : Option OpRec) : (s.setOp i r).ssc = s.ssc := rfl
@[simp] theorem State.setOp_rsq (s : State) (i : Nat) (r : Option OpRec) : (s.setOp i r).rsq = s.rsq := rfl
@[simp] theorem State.setOp_cra (s : State) (i : Nat) (r : Option OpRec) : (s.setOp i r).cra = s.cra := rfl
@[simp] theorem State.setOp_tdx (s : State) (i : Nat) (r : Option OpRec) : (s.setOp i r).tdx = s.tdx := rfl
@[simp] theorem State.setOp_syu (s : State) (i : Nat) (r : Option OpRec) : (s.setOp i r).syu = s.syu := rfl
@[simp] theorem State.setOp_gwe (s : State) (i : Nat) (r : Option OpRec) : (s.setOp i r).gwe = s.gwe := rfl
@[simp] theorem State.setOp_icu (s : State) (i : Nat) (r : Option OpRec) : (s.setOp i r).icu = s.icu := rfl
@[simp] theorem State.setOp_lineTx (s : State) (i : Nat) (r : Option OpRec) : (s.setOp i r).lineTx = s.lineTx := rfl
@[simp] theorem State.setOp_free (s : State) (i : Nat) (r : Option OpRec) : (s.setOp i r).free = s.free := rfl
@[simp] theorem State.setOp_pending (s : State) (i : Nat) (r : Option OpRec) : (s.setOp i r).pending = s.pending := rfl

theorem State.setOp_only (s : State) (i : Nat) (r : Option OpRec) : only [.plt] s (s.setOp i r) := by
  intro p hp; cases p <;> first | rfl | exact absurd (by decide) hp

/-! modSess. -/

@[simp] theorem State.modSess_part (s : State) (i : Nat) (f : Sess → Sess) : (s.modSess i f).part = s.part := rfl
@[simp] theorem State.modSess_regs (s : State) (i : Nat) (f : Sess → Sess) : (s.modSess i f).regs = s.regs := rfl
@[simp] theorem State.modSess_glb (s : State) (i : Nat) (f : Sess → Sess) : (s.modSess i f).glb = s.glb := rfl
@[simp] theorem State.modSess_phi (s : State) (i : Nat) (f : Sess → Sess) : (s.modSess i f).phi = s.phi := rfl
@[simp] theorem State.modSess_cte (s : State) (i : Nat) (f : Sess → Sess) : (s.modSess i f).cte = s.cte := rfl
@[simp] theorem State.modSess_lpx (s : State) (i : Nat) (f : Sess → Sess) : (s.modSess i f).lpx = s.lpx := rfl
@[simp] theorem State.modSess_prs (s : State) (i : Nat) (f : Sess → Sess) : (s.modSess i f).prs = s.prs := rfl
@[simp] theorem State.modSess_cls (s : State) (i : Nat) (f : Sess → Sess) : (s.modSess i f).cls = s.cls := rfl
@[simp] theorem State.modSess_fwt (s : State) (i : Nat) (f : Sess → Sess) : (s.modSess i f).fwt = s.fwt := rfl
@[simp] theorem State.modSess_bpm (s : State) (i : Nat) (f : Sess → Sess) : (s.modSess i f).bpm = s.bpm := rfl
@[simp] theorem State.modSess_qba (s : State) (i : Nat) (f : Sess → Sess) : (s.modSess i f).qba = s.qba := rfl
@[simp] theorem State.modSess_ssc (s : State) (i : Nat) (f : Sess → Sess) : (s.modSess i f).ssc = s.ssc := rfl
@[simp] theorem State.modSess_rsq (s : State) (i : Nat) (f : Sess → Sess) : (s.modSess i f).rsq = s.rsq := rfl
@[simp] theorem State.modSess_cra (s : State) (i : Nat) (f : Sess → Sess) : (s.modSess i f).cra = s.cra := rfl
@[simp] theorem State.modSess_tdx (s : State) (i : Nat) (f : Sess → Sess) : (s.modSess i f).tdx = s.tdx := rfl
@[simp] theorem State.modSess_syu (s : State) (i : Nat) (f : Sess → Sess) : (s.modSess i f).syu = s.syu := rfl
@[simp] theorem State.modSess_plt (s : State) (i : Nat) (f : Sess → Sess) : (s.modSess i f).plt = s.plt := rfl
@[simp] theorem State.modSess_icu (s : State) (i : Nat) (f : Sess → Sess) : (s.modSess i f).icu = s.icu := rfl
@[simp] theorem State.modSess_lineTx (s : State) (i : Nat) (f : Sess → Sess) : (s.modSess i f).lineTx = s.lineTx := rfl
@[simp] theorem State.modSess_free (s : State) (i : Nat) (f : Sess → Sess) : (s.modSess i f).free = s.free := rfl
@[simp] theorem State.modSess_pending (s : State) (i : Nat) (f : Sess → Sess) : (s.modSess i f).pending = s.pending := rfl

theorem State.modSess_only (s : State) (i : Nat) (f : Sess → Sess) : only [.gwe] s (s.modSess i f) := by
  intro p hp; cases p <;> first | rfl | exact absurd (by decide) hp

/-! answered. -/

@[simp] theorem State.answered_part (s : State) (op : Nat) (st : Status) (data : List Byte) : (s.answered op st data).part = s.part := rfl
@[simp] theorem State.answered_regs (s : State) (op : Nat) (st : Status) (data : List Byte) : (s.answered op st data).regs = s.regs := rfl
@[simp] theorem State.answered_glb (s : State) (op : Nat) (st : Status) (data : List Byte) : (s.answered op st data).glb = s.glb := rfl
@[simp] theorem State.answered_phi (s : State) (op : Nat) (st : Status) (data : List Byte) : (s.answered op st data).phi = s.phi := rfl
@[simp] theorem State.answered_cte (s : State) (op : Nat) (st : Status) (data : List Byte) : (s.answered op st data).cte = s.cte := rfl
@[simp] theorem State.answered_lpx (s : State) (op : Nat) (st : Status) (data : List Byte) : (s.answered op st data).lpx = s.lpx := rfl
@[simp] theorem State.answered_prs (s : State) (op : Nat) (st : Status) (data : List Byte) : (s.answered op st data).prs = s.prs := rfl
@[simp] theorem State.answered_cls (s : State) (op : Nat) (st : Status) (data : List Byte) : (s.answered op st data).cls = s.cls := rfl
@[simp] theorem State.answered_fwt (s : State) (op : Nat) (st : Status) (data : List Byte) : (s.answered op st data).fwt = s.fwt := rfl
@[simp] theorem State.answered_bpm (s : State) (op : Nat) (st : Status) (data : List Byte) : (s.answered op st data).bpm = s.bpm := rfl
@[simp] theorem State.answered_qba (s : State) (op : Nat) (st : Status) (data : List Byte) : (s.answered op st data).qba = s.qba := rfl
@[simp] theorem State.answered_ssc (s : State) (op : Nat) (st : Status) (data : List Byte) : (s.answered op st data).ssc = s.ssc := rfl
@[simp] theorem State.answered_rsq (s : State) (op : Nat) (st : Status) (data : List Byte) : (s.answered op st data).rsq = s.rsq := rfl
@[simp] theorem State.answered_cra (s : State) (op : Nat) (st : Status) (data : List Byte) : (s.answered op st data).cra = s.cra := rfl
@[simp] theorem State.answered_tdx (s : State) (op : Nat) (st : Status) (data : List Byte) : (s.answered op st data).tdx = s.tdx := rfl
@[simp] theorem State.answered_syu (s : State) (op : Nat) (st : Status) (data : List Byte) : (s.answered op st data).syu = s.syu := rfl
@[simp] theorem State.answered_plt (s : State) (op : Nat) (st : Status) (data : List Byte) : (s.answered op st data).plt = s.plt := rfl
@[simp] theorem State.answered_icu (s : State) (op : Nat) (st : Status) (data : List Byte) : (s.answered op st data).icu = s.icu := rfl
@[simp] theorem State.answered_lineTx (s : State) (op : Nat) (st : Status) (data : List Byte) : (s.answered op st data).lineTx = s.lineTx := rfl
@[simp] theorem State.answered_free (s : State) (op : Nat) (st : Status) (data : List Byte) : (s.answered op st data).free = s.free := rfl
@[simp] theorem State.answered_pending (s : State) (op : Nat) (st : Status) (data : List Byte) : (s.answered op st data).pending = s.pending := rfl

theorem State.answered_only (s : State) (op : Nat) (st : Status) (data : List Byte) : only [.gwe] s (s.answered op st data) := by
  intro p hp; cases p <;> first | rfl | exact absurd (by decide) hp

/-! A free value taken. -/

@[simp] theorem State.takeFree_part (s : State) : s.takeFree.2.part = s.part := rfl
@[simp] theorem State.takeFree_regs (s : State) : s.takeFree.2.regs = s.regs := rfl
@[simp] theorem State.takeFree_glb (s : State) : s.takeFree.2.glb = s.glb := rfl
@[simp] theorem State.takeFree_phi (s : State) : s.takeFree.2.phi = s.phi := rfl
@[simp] theorem State.takeFree_cte (s : State) : s.takeFree.2.cte = s.cte := rfl
@[simp] theorem State.takeFree_lpx (s : State) : s.takeFree.2.lpx = s.lpx := rfl
@[simp] theorem State.takeFree_prs (s : State) : s.takeFree.2.prs = s.prs := rfl
@[simp] theorem State.takeFree_cls (s : State) : s.takeFree.2.cls = s.cls := rfl
@[simp] theorem State.takeFree_fwt (s : State) : s.takeFree.2.fwt = s.fwt := rfl
@[simp] theorem State.takeFree_bpm (s : State) : s.takeFree.2.bpm = s.bpm := rfl
@[simp] theorem State.takeFree_qba (s : State) : s.takeFree.2.qba = s.qba := rfl
@[simp] theorem State.takeFree_ssc (s : State) : s.takeFree.2.ssc = s.ssc := rfl
@[simp] theorem State.takeFree_rsq (s : State) : s.takeFree.2.rsq = s.rsq := rfl
@[simp] theorem State.takeFree_cra (s : State) : s.takeFree.2.cra = s.cra := rfl
@[simp] theorem State.takeFree_tdx (s : State) : s.takeFree.2.tdx = s.tdx := rfl
@[simp] theorem State.takeFree_syu (s : State) : s.takeFree.2.syu = s.syu := rfl
@[simp] theorem State.takeFree_gwe (s : State) : s.takeFree.2.gwe = s.gwe := rfl
@[simp] theorem State.takeFree_plt (s : State) : s.takeFree.2.plt = s.plt := rfl
@[simp] theorem State.takeFree_icu (s : State) : s.takeFree.2.icu = s.icu := rfl
@[simp] theorem State.takeFree_lineTx (s : State) : s.takeFree.2.lineTx = s.lineTx := rfl
@[simp] theorem State.takeFree_pending (s : State) : s.takeFree.2.pending = s.pending := rfl

/-! Events: the queue and its counter of lost records. -/

theorem State.queueEv_only (s : State) (at_ code die gen : Nat) (args : List Nat) : only [.regs, .gwe] s (s.queueEv at_ code die gen args) := by
  intro p hp
  unfold State.queueEv
  split <;> cases p <;> first | rfl | exact absurd (by decide) hp

theorem State.raiseAt_only (s : State) (at_ code die gen : Nat) (args : List Nat) : only [.regs, .gwe] s (s.raiseAt at_ code die gen args) := by
  unfold State.raiseAt
  split
  · exact s.queueEv_only _ _ _ _ _
  · refine only_trans (only_trans (t := { s with gwe := { s.gwe with evLost := 0 } }) ?_ (State.queueEv_only _ _ _ _ _ _)) (State.queueEv_only _ _ _ _ _ _)
    intro p hp; cases p <;> first | rfl | exact absurd (by decide) hp

theorem State.raiseEv_only (s : State) (code die gen : Nat) (args : List Nat) : only [.regs, .gwe] s (s.raiseEv code die gen args) :=
  s.raiseAt_only die code die gen args

@[simp] theorem State.raiseAt_part (s : State) (at_ code die gen : Nat) (args : List Nat) : (s.raiseAt at_ code die gen args).part = s.part :=
  s.raiseAt_only at_ code die gen args .part (by decide)
@[simp] theorem State.raiseAt_glb (s : State) (at_ code die gen : Nat) (args : List Nat) : (s.raiseAt at_ code die gen args).glb = s.glb :=
  s.raiseAt_only at_ code die gen args .glb (by decide)
@[simp] theorem State.raiseAt_phi (s : State) (at_ code die gen : Nat) (args : List Nat) : (s.raiseAt at_ code die gen args).phi = s.phi :=
  s.raiseAt_only at_ code die gen args .phi (by decide)
@[simp] theorem State.raiseAt_cte (s : State) (at_ code die gen : Nat) (args : List Nat) : (s.raiseAt at_ code die gen args).cte = s.cte :=
  s.raiseAt_only at_ code die gen args .cte (by decide)
@[simp] theorem State.raiseAt_lpx (s : State) (at_ code die gen : Nat) (args : List Nat) : (s.raiseAt at_ code die gen args).lpx = s.lpx :=
  s.raiseAt_only at_ code die gen args .lpx (by decide)
@[simp] theorem State.raiseAt_prs (s : State) (at_ code die gen : Nat) (args : List Nat) : (s.raiseAt at_ code die gen args).prs = s.prs :=
  s.raiseAt_only at_ code die gen args .prs (by decide)
@[simp] theorem State.raiseAt_cls (s : State) (at_ code die gen : Nat) (args : List Nat) : (s.raiseAt at_ code die gen args).cls = s.cls :=
  s.raiseAt_only at_ code die gen args .cls (by decide)
@[simp] theorem State.raiseAt_fwt (s : State) (at_ code die gen : Nat) (args : List Nat) : (s.raiseAt at_ code die gen args).fwt = s.fwt :=
  s.raiseAt_only at_ code die gen args .fwt (by decide)
@[simp] theorem State.raiseAt_bpm (s : State) (at_ code die gen : Nat) (args : List Nat) : (s.raiseAt at_ code die gen args).bpm = s.bpm :=
  s.raiseAt_only at_ code die gen args .bpm (by decide)
@[simp] theorem State.raiseAt_qba (s : State) (at_ code die gen : Nat) (args : List Nat) : (s.raiseAt at_ code die gen args).qba = s.qba :=
  s.raiseAt_only at_ code die gen args .qba (by decide)
@[simp] theorem State.raiseAt_ssc (s : State) (at_ code die gen : Nat) (args : List Nat) : (s.raiseAt at_ code die gen args).ssc = s.ssc :=
  s.raiseAt_only at_ code die gen args .ssc (by decide)
@[simp] theorem State.raiseAt_rsq (s : State) (at_ code die gen : Nat) (args : List Nat) : (s.raiseAt at_ code die gen args).rsq = s.rsq :=
  s.raiseAt_only at_ code die gen args .rsq (by decide)
@[simp] theorem State.raiseAt_cra (s : State) (at_ code die gen : Nat) (args : List Nat) : (s.raiseAt at_ code die gen args).cra = s.cra :=
  s.raiseAt_only at_ code die gen args .cra (by decide)
@[simp] theorem State.raiseAt_tdx (s : State) (at_ code die gen : Nat) (args : List Nat) : (s.raiseAt at_ code die gen args).tdx = s.tdx :=
  s.raiseAt_only at_ code die gen args .tdx (by decide)
@[simp] theorem State.raiseAt_syu (s : State) (at_ code die gen : Nat) (args : List Nat) : (s.raiseAt at_ code die gen args).syu = s.syu :=
  s.raiseAt_only at_ code die gen args .syu (by decide)
@[simp] theorem State.raiseAt_plt (s : State) (at_ code die gen : Nat) (args : List Nat) : (s.raiseAt at_ code die gen args).plt = s.plt :=
  s.raiseAt_only at_ code die gen args .plt (by decide)
@[simp] theorem State.raiseAt_icu (s : State) (at_ code die gen : Nat) (args : List Nat) : (s.raiseAt at_ code die gen args).icu = s.icu :=
  s.raiseAt_only at_ code die gen args .icu (by decide)
@[simp] theorem State.raiseAt_lineTx (s : State) (at_ code die gen : Nat) (args : List Nat) : (s.raiseAt at_ code die gen args).lineTx = s.lineTx :=
  s.raiseAt_only at_ code die gen args .lineTx (by decide)
@[simp] theorem State.raiseAt_free (s : State) (at_ code die gen : Nat) (args : List Nat) : (s.raiseAt at_ code die gen args).free = s.free :=
  s.raiseAt_only at_ code die gen args .free (by decide)
@[simp] theorem State.raiseAt_pending (s : State) (at_ code die gen : Nat) (args : List Nat) : (s.raiseAt at_ code die gen args).pending = s.pending :=
  s.raiseAt_only at_ code die gen args .pending (by decide)
@[simp] theorem State.raiseEv_part (s : State) (code die gen : Nat) (args : List Nat) : (s.raiseEv code die gen args).part = s.part :=
  s.raiseEv_only code die gen args .part (by decide)
@[simp] theorem State.raiseEv_glb (s : State) (code die gen : Nat) (args : List Nat) : (s.raiseEv code die gen args).glb = s.glb :=
  s.raiseEv_only code die gen args .glb (by decide)
@[simp] theorem State.raiseEv_phi (s : State) (code die gen : Nat) (args : List Nat) : (s.raiseEv code die gen args).phi = s.phi :=
  s.raiseEv_only code die gen args .phi (by decide)
@[simp] theorem State.raiseEv_cte (s : State) (code die gen : Nat) (args : List Nat) : (s.raiseEv code die gen args).cte = s.cte :=
  s.raiseEv_only code die gen args .cte (by decide)
@[simp] theorem State.raiseEv_lpx (s : State) (code die gen : Nat) (args : List Nat) : (s.raiseEv code die gen args).lpx = s.lpx :=
  s.raiseEv_only code die gen args .lpx (by decide)
@[simp] theorem State.raiseEv_prs (s : State) (code die gen : Nat) (args : List Nat) : (s.raiseEv code die gen args).prs = s.prs :=
  s.raiseEv_only code die gen args .prs (by decide)
@[simp] theorem State.raiseEv_cls (s : State) (code die gen : Nat) (args : List Nat) : (s.raiseEv code die gen args).cls = s.cls :=
  s.raiseEv_only code die gen args .cls (by decide)
@[simp] theorem State.raiseEv_fwt (s : State) (code die gen : Nat) (args : List Nat) : (s.raiseEv code die gen args).fwt = s.fwt :=
  s.raiseEv_only code die gen args .fwt (by decide)
@[simp] theorem State.raiseEv_bpm (s : State) (code die gen : Nat) (args : List Nat) : (s.raiseEv code die gen args).bpm = s.bpm :=
  s.raiseEv_only code die gen args .bpm (by decide)
@[simp] theorem State.raiseEv_qba (s : State) (code die gen : Nat) (args : List Nat) : (s.raiseEv code die gen args).qba = s.qba :=
  s.raiseEv_only code die gen args .qba (by decide)
@[simp] theorem State.raiseEv_ssc (s : State) (code die gen : Nat) (args : List Nat) : (s.raiseEv code die gen args).ssc = s.ssc :=
  s.raiseEv_only code die gen args .ssc (by decide)
@[simp] theorem State.raiseEv_rsq (s : State) (code die gen : Nat) (args : List Nat) : (s.raiseEv code die gen args).rsq = s.rsq :=
  s.raiseEv_only code die gen args .rsq (by decide)
@[simp] theorem State.raiseEv_cra (s : State) (code die gen : Nat) (args : List Nat) : (s.raiseEv code die gen args).cra = s.cra :=
  s.raiseEv_only code die gen args .cra (by decide)
@[simp] theorem State.raiseEv_tdx (s : State) (code die gen : Nat) (args : List Nat) : (s.raiseEv code die gen args).tdx = s.tdx :=
  s.raiseEv_only code die gen args .tdx (by decide)
@[simp] theorem State.raiseEv_syu (s : State) (code die gen : Nat) (args : List Nat) : (s.raiseEv code die gen args).syu = s.syu :=
  s.raiseEv_only code die gen args .syu (by decide)
@[simp] theorem State.raiseEv_plt (s : State) (code die gen : Nat) (args : List Nat) : (s.raiseEv code die gen args).plt = s.plt :=
  s.raiseEv_only code die gen args .plt (by decide)
@[simp] theorem State.raiseEv_icu (s : State) (code die gen : Nat) (args : List Nat) : (s.raiseEv code die gen args).icu = s.icu :=
  s.raiseEv_only code die gen args .icu (by decide)
@[simp] theorem State.raiseEv_lineTx (s : State) (code die gen : Nat) (args : List Nat) : (s.raiseEv code die gen args).lineTx = s.lineTx :=
  s.raiseEv_only code die gen args .lineTx (by decide)
@[simp] theorem State.raiseEv_free (s : State) (code die gen : Nat) (args : List Nat) : (s.raiseEv code die gen args).free = s.free :=
  s.raiseEv_only code die gen args .free (by decide)
@[simp] theorem State.raiseEv_pending (s : State) (code die gen : Nat) (args : List Nat) : (s.raiseEv code die gen args).pending = s.pending :=
  s.raiseEv_only code die gen args .pending (by decide)

end Sys2Proof.Machine
end

