-- ==== Sys2Proof/Laws/Ops.lean ====
section
/-! SUPPORT. What the shared operations do: register words, generations and fields, queued events, threads and their registers, byte stores, and the wrappers of the commands. -/

namespace Sys2Proof.Machine

open Host (Outcome)

/-! Register words. -/

/-- A store of a register word keeps the words listed by rising address. -/
theorem State.setReg_rise (s : State) (r : Reg) (d : Nat) (idx : List Nat) (w : Word) (h : mrise 0 s.regs = true) :
    mrise 0 (s.setReg r d idx w).regs = true := mset_rise _ _ _ _ h

/-- A register word is read back. -/
theorem State.reg_setReg_self (s : State) (r : Reg) (d : Nat) (idx : List Nat) (w : Word) (h : mrise 0 s.regs = true) :
    (s.setReg r d idx w).reg r d idx = w := mget_mset_self_rise _ _ _ _ h

/-- A store of a register word leaves every word at another address. -/
theorem State.reg_setReg_other (s : State) (r q : Reg) (d e : Nat) (idx jdx : List Nat) (w : Word) (h : mrise 0 s.regs = true)
    (ne : q.addr e jdx ≠ r.addr d idx) : (s.setReg r d idx w).reg q e jdx = s.reg q e jdx :=
  mget_mset_other_rise _ _ _ _ _ _ ne h

/-- A field lies within its word. -/
theorem bitsOf_le (v hi lo : Nat) : bitsOf v hi lo * 2 ^ lo ≤ v := by
  unfold bitsOf
  exact Nat.le_trans (Nat.mul_le_mul_right _ (Nat.mod_le _ _)) (Nat.div_mul_le_self _ _)

/-- A number split at a field. -/
theorem bitsOf_split (x lo k : Nat) : x = x / 2 ^ (lo + k) * 2 ^ (lo + k) + x / 2 ^ lo % 2 ^ k * 2 ^ lo + x % 2 ^ lo := by
  have h1 : x / 2 ^ (lo + k) = x / 2 ^ lo / 2 ^ k := by rw [Nat.pow_add, Nat.div_div_eq_div_mul]
  have h2 := Nat.div_add_mod x (2 ^ lo)
  have h3 := Nat.div_add_mod (x / 2 ^ lo) (2 ^ k)
  have e : 2 ^ lo * (2 ^ k * (x / 2 ^ lo / 2 ^ k)) = x / 2 ^ lo / 2 ^ k * 2 ^ (lo + k) := by rw [Nat.pow_add]; ring
  calc x = 2 ^ lo * (x / 2 ^ lo) + x % 2 ^ lo := h2.symm
    _ = 2 ^ lo * (2 ^ k * (x / 2 ^ lo / 2 ^ k) + x / 2 ^ lo % 2 ^ k) + x % 2 ^ lo := by rw [h3]
    _ = _ := by rw [h1, Nat.mul_add, e]; ring

/-- What a number with a replaced field is made of. -/
theorem setBitsOf_eq (x lo k v : Nat) (hk : 0 < k) :
    setBitsOf x (lo + k - 1) lo v = x / 2 ^ (lo + k) * 2 ^ (lo + k) + v % 2 ^ k * 2 ^ lo + x % 2 ^ lo := by
  unfold setBitsOf bitsOf
  rw [show lo + k - 1 + 1 - lo = k by omega]
  have h := bitsOf_split x lo k
  omega

/-- A replaced field reads as written. -/
theorem bitsOf_setBitsOf (x lo k v : Nat) (hk : 0 < k) : bitsOf (setBitsOf x (lo + k - 1) lo v) (lo + k - 1) lo = v % 2 ^ k := by
  rw [setBitsOf_eq x lo k v hk]
  unfold bitsOf
  rw [show lo + k - 1 + 1 - lo = k by omega]
  have e : x / 2 ^ (lo + k) * 2 ^ (lo + k) + v % 2 ^ k * 2 ^ lo + x % 2 ^ lo = (x / 2 ^ (lo + k) * 2 ^ k + v % 2 ^ k) * 2 ^ lo + x % 2 ^ lo := by
    rw [Nat.pow_add]; ring
  rw [e, Nat.add_div_of_dvd_right (Dvd.intro_left _ rfl), Nat.mul_div_cancel _ (by positivity), Nat.div_eq_of_lt (Nat.mod_lt _ (by positivity)), Nat.add_zero,
    Nat.mul_add_mod_self_right, Nat.mod_mod]

/-- A replaced field of a word keeps the word within 32 bits. -/
theorem setBitsOf_lt (x lo k v : Nat) (hk : 0 < k) (hx : x < 2 ^ 32) (hl : lo + k ≤ 32) : setBitsOf x (lo + k - 1) lo v < 2 ^ 32 := by
  rw [setBitsOf_eq x lo k v hk]
  have h1 : x / 2 ^ (lo + k) < 2 ^ (32 - (lo + k)) := by
    rw [Nat.div_lt_iff_lt_mul (by positivity), ← Nat.pow_add, Nat.sub_add_cancel hl]; exact hx
  have h2 : x / 2 ^ (lo + k) * 2 ^ (lo + k) + 2 ^ (lo + k) ≤ 2 ^ 32 := by
    calc x / 2 ^ (lo + k) * 2 ^ (lo + k) + 2 ^ (lo + k) = (x / 2 ^ (lo + k) + 1) * 2 ^ (lo + k) := by ring
      _ ≤ 2 ^ (32 - (lo + k)) * 2 ^ (lo + k) := Nat.mul_le_mul_right _ h1
      _ = 2 ^ 32 := by rw [← Nat.pow_add, Nat.sub_add_cancel hl]
  have h3 : v % 2 ^ k * 2 ^ lo + 2 ^ lo ≤ 2 ^ (lo + k) := by
    have : v % 2 ^ k + 1 ≤ 2 ^ k := Nat.mod_lt _ (by positivity)
    calc v % 2 ^ k * 2 ^ lo + 2 ^ lo = (v % 2 ^ k + 1) * 2 ^ lo := by ring
      _ ≤ 2 ^ k * 2 ^ lo := Nat.mul_le_mul_right _ this
      _ = 2 ^ (lo + k) := by rw [Nat.pow_add]; ring
  have h4 : x % 2 ^ lo < 2 ^ lo := Nat.mod_lt _ (by positivity)
  omega

/-- A replaced field of a word reads as written. -/
theorem fld_setFld (w : Word) (lo k v : Nat) (hk : 0 < k) (hl : lo + k ≤ 32) : fld (setFld w (lo + k - 1) lo v) (lo + k - 1) lo = v % 2 ^ k := by
  unfold fld setFld
  rw [BitVec.toNat_ofNat, Nat.mod_eq_of_lt (setBitsOf_lt _ _ _ _ hk w.isLt hl), bitsOf_setBitsOf _ _ _ _ hk]

/-- A register field is read back. -/
theorem State.rf_setRf_self (s : State) (r : Reg) (d : Nat) (idx : List Nat) (lo k v : Nat) (h : mrise 0 s.regs = true) (hk : 0 < k) (hl : lo + k ≤ 32) :
    (s.setRf r d idx (lo + k - 1) lo v).rf r d idx (lo + k - 1) lo = v % 2 ^ k := by
  unfold State.setRf State.rf
  rw [State.reg_setReg_self _ _ _ _ _ h, fld_setFld _ _ _ _ hk hl]

/-- A store of a field leaves every register at another address. -/
theorem State.reg_setRf_other (s : State) (r q : Reg) (d e : Nat) (idx jdx : List Nat) (hi lo v : Nat) (h : mrise 0 s.regs = true)
    (ne : q.addr e jdx ≠ r.addr d idx) : (s.setRf r d idx hi lo v).reg q e jdx = s.reg q e jdx :=
  State.reg_setReg_other _ _ _ _ _ _ _ _ h ne

theorem State.setRf_rise (s : State) (r : Reg) (d : Nat) (idx : List Nat) (hi lo v : Nat) (h : mrise 0 s.regs = true) :
    mrise 0 (s.setRf r d idx hi lo v).regs = true := s.setReg_rise r d idx _ h

/-- A generation increments modulo 2^16 (R401). -/
theorem State.gen_bumpGen (s : State) (r : Reg) (d : Nat) (h : mrise 0 s.regs = true) : (s.bumpGen r d).gen r d = (s.gen r d + 1) % 2 ^ 16 :=
  s.rf_setRf_self r d [] 16 16 _ h (by decide) (by decide)

theorem State.bumpGen_rise (s : State) (r : Reg) (d : Nat) (h : mrise 0 s.regs = true) : mrise 0 (s.bumpGen r d).regs = true := s.setRf_rise r d [] 31 16 _ h

theorem State.bump_rise (s : State) (r : Reg) (d : Nat) (idx : List Nat) (n : Nat) (h : mrise 0 s.regs = true) : mrise 0 (s.bumpN r d idx n).regs = true :=
  s.setRf_rise r d idx 31 0 _ h

/-! Events. -/

theorem State.queueEv_rise (s : State) (at_ code die gen : Nat) (args : List Nat) (h : mrise 0 s.regs = true) : mrise 0 (s.queueEv at_ code die gen args).regs = true := by
  unfold State.queueEv
  split
  · exact h
  · exact s.bump_rise .GWE_EVT_LOST 0 [] 1 h

theorem State.raiseAt_rise (s : State) (at_ code die gen : Nat) (args : List Nat) (h : mrise 0 s.regs = true) : mrise 0 (s.raiseAt at_ code die gen args).regs = true := by
  unfold State.raiseAt
  split
  · exact s.queueEv_rise _ _ _ _ _ h
  · exact State.queueEv_rise _ _ _ _ _ _ (State.queueEv_rise _ _ _ _ _ _ h)

theorem State.raiseEv_rise (s : State) (code die gen : Nat) (args : List Nat) (h : mrise 0 s.regs = true) : mrise 0 (s.raiseEv code die gen args).regs = true :=
  s.raiseAt_rise die code die gen args h

/-- The event queue holds 4,096 records at most (R403). -/
theorem State.queueEv_bound (s : State) (at_ code die gen : Nat) (args : List Nat) (h : s.gwe.evq.length ≤ 4096) : (s.queueEv at_ code die gen args).gwe.evq.length ≤ 4096 := by
  unfold State.queueEv
  split
  · simp only [List.length_append, List.length_cons, List.length_nil]; omega
  · simpa only [State.bump_gwe] using h

theorem State.raiseAt_bound (s : State) (at_ code die gen : Nat) (args : List Nat) (h : s.gwe.evq.length ≤ 4096) : (s.raiseAt at_ code die gen args).gwe.evq.length ≤ 4096 := by
  unfold State.raiseAt
  split
  · exact s.queueEv_bound _ _ _ _ _ h
  · exact State.queueEv_bound _ _ _ _ _ _ (State.queueEv_bound _ _ _ _ _ _ h)

theorem State.raiseEv_bound (s : State) (code die gen : Nat) (args : List Nat) (h : s.gwe.evq.length ≤ 4096) : (s.raiseEv code die gen args).gwe.evq.length ≤ 4096 :=
  s.raiseAt_bound die code die gen args h

/-! Threads. -/

/-- A thread's record is read back. -/
theorem State.thr_putThr_self (s : State) (d n : Nat) (x : Thr) : (s.putThr d n x).thr d n = x := by
  simp only [State.thr, State.putThr, mget, mfind_minsert_self, Option.getD_some]

theorem State.thr_putThr_other (s : State) (d n e m : Nat) (x : Thr) (ne : thrKey e m ≠ thrKey d n) : (s.putThr d n x).thr e m = s.thr e m := by
  simp only [State.thr, State.putThr, mget, mfind_minsert_other _ _ _ ne]

/-- A change of a thread to a record other than that of an idle one that has done nothing lists the record. -/
theorem State.modThr_eq_putThr (s : State) (d n : Nat) (f : Thr → Thr) (h : f (s.thr d n) ≠ {}) : s.modThr d n f = s.putThr d n (f (s.thr d n)) := by
  simp only [State.modThr, State.putThr, mmod, mset, State.thr] at *
  rw [if_neg h]

theorem State.putThr_putThr (s : State) (d n : Nat) (x y : Thr) : (s.putThr d n x).putThr d n y = s.putThr d n y := by
  simp only [State.putThr, minsert_minsert]

theorem State.putThr_rise (s : State) (d n : Nat) (x : Thr) (h : mrise 0 s.cra.thr = true) : mrise 0 (s.putThr d n x).cra.thr = true :=
  minsert_rise _ _ _ _ (Nat.zero_le _) h

/-- g0 reads as zero. -/
@[simp] theorem Thr.get_zero (x : Thr) : x.get 0 = 0 := rfl

/-- A write to g0 is discarded. -/
@[simp] theorem Thr.set_zero (x : Thr) (v : DWord) : x.set 0 v = x := rfl

@[simp] theorem Thr.set_st (x : Thr) (r : Nat) (v : DWord) : (x.set r v).st = x.st := by unfold Thr.set; split <;> rfl
@[simp] theorem Thr.set_pc (x : Thr) (r : Nat) (v : DWord) : (x.set r v).pc = x.pc := by unfold Thr.set; split <;> rfl
@[simp] theorem Thr.set_ticket (x : Thr) (r : Nat) (v : DWord) : (x.set r v).ticket = x.ticket := by unfold Thr.set; split <;> rfl

/-! Byte stores. -/

/-- A store into a scratchpad keeps the byte stores canonical. -/
theorem State.putPad_memWf (s : State) (d k a : Nat) (l : List Byte) (h : s.memWf) : (s.putPad d k a l).memWf :=
  ⟨h.1, putBytes_wf l _ _ h.2.1, h.2.2.1, h.2.2.2⟩

/-- A store into the quay keeps the byte stores canonical. -/
theorem State.putQuay_memWf (s : State) (q o : Nat) (l : List Byte) (h : s.memWf) : (s.putQuay q o l).memWf :=
  ⟨putBytes_wf l _ _ h.1, h.2.1, h.2.2⟩

/-- A store into a segment keeps the byte stores canonical. -/
theorem State.putSeg_memWf (s : State) (j b : Nat) (l : List Byte) (h : s.memWf) : (s.putSeg j b l).memWf :=
  ⟨h.1, h.2.1, putBytes_wf l _ _ h.2.2.1, h.2.2.2⟩

/-- A store through the data window keeps the byte stores canonical, the parity that it updates among them. -/
theorem putStaged_memWf (j : Nat) : ∀ (l : List Byte) (b : Nat) (s : State), s.memWf → (putStaged s j b l).memWf
  | [], _, _, h => h
  | v :: r, b, s, h => by
    unfold putStaged
    refine putStaged_memWf j r (b + 1) _ ⟨h.1, h.2.1, mset_wf _ _ _ _ h.2.2.1, ?_⟩
    dsimp only
    split
    · exact mset_wf _ _ _ _ h.2.2.2
    · exact h.2.2.2

/-- Right after reset the byte stores are canonical. -/
theorem reset_memWf : State.reset.memWf := ⟨rfl, rfl, rfl, rfl⟩

/-! The commands' wrappers. -/

theorem onDie_live (s t : State) (d : Nat) (h : d < s.dies) : onDie s d t = .next t := by unfold onDie; rw [if_pos h]

/-- Nothing happens on a die that the part lacks. -/
theorem onDie_absent (s t : State) (d : Nat) (h : s.dies ≤ d) : onDie s d t = .next s := by unfold onDie; rw [if_neg (Nat.not_lt.mpr h)]

theorem onCra_live (s t : State) (d : Nat) (h : d < s.dies) : onCra s d t = .next (lapse t d) := onDie_live _ _ _ h

theorem hostWr_any (s : State) (f : State → Ans) (h : s.glb.mode.any = true) : hostWr s f = .next (wrResult (f s)) := by simp [hostWr, h]

theorem hostWr_refused (s : State) (f : State → Ans) (h : s.glb.mode.any = false) : hostWr s f = .next (wrResult (.mode, s)) := by simp [hostWr, h]

theorem hostDieWr_live (s : State) (d : Nat) (p : Bool) (f : State → Ans) (hd : d < s.dies) (h : s.glb.mode.any = true) (hx : s.excluded d = false ∨ p = true) :
    hostDieWr s d p f = .next (wrResult (f s)) := by
  rcases hx with hx | hx <;> simp [hostDieWr, Nat.not_le.mpr hd, h, hx]

/-- A host write to a die that the part lacks answers a status and changes nothing else. -/
theorem hostDieWr_absent (s : State) (d : Nat) (p : Bool) (f : State → Ans) (hd : s.dies ≤ d) : ∃ e, hostDieWr s d p f = .next (wrResult (e, s)) := by
  by_cases h : s.glb.mode.any = true
  · exact ⟨.badaddr, by simp [hostDieWr, hd, h]⟩
  · exact ⟨.mode, by simp [hostDieWr, h]⟩

/-- The answer of a host write is the Gangway's alone. -/
theorem wrResult_only (e : Status) (s : State) : only [.gwe] s (wrResult (e, s)) := by
  intro p hp; cases p <;> first | rfl | exact absurd (by decide) hp

/-- A host command in a claimed mode answers its own outcome (R387). -/
theorem hostOp_any (s : State) (op : Nat) (f : TblAns) (h : s.glb.mode.any = true) : hostOp s op f = f.2.2.answered op f.1 f.2.1 := by
  simp [hostOp, h, State.answered]

/-- In another mode it fails with GW_MODE (R387). -/
theorem hostOp_mode (s : State) (op : Nat) (f : TblAns) (h : s.glb.mode.any = false) : hostOp s op f = s.answered op .mode [] := by
  simp [hostOp, h, State.answered]

/-! Waits. -/

/-- Only the cores' record of waiting slots changes when a thread begins to wait. -/
theorem markWait_only (s : State) (d n : Nat) : only [.cra] s (markWait s d n) := by
  intro p hp; cases p <;> first | rfl | exact absurd (by decide) hp

@[simp] theorem markWait_thr (s : State) (d n e m : Nat) : (markWait s d n).thr e m = s.thr e m := rfl
@[simp] theorem markWait_pad (s : State) (d n : Nat) : (markWait s d n).cra.pad = s.cra.pad := rfl

/-- A request leaves its thread waiting in HELPER and the rest of the state as it was (R262, R265). -/
theorem request_eq (s : State) (d n rd : Nat) (v : DWord) (err : Nat) (w : Bool) (kind : PendKind) :
    request s d n rd v err w kind = (markWait s d n).putThr d n ((s.thr d n).asks (s.exempt d n) rd v err w kind) := by
  unfold request Thr.asks
  rw [State.modThr_eq_putThr]
  · rfl
  · intro h; exact absurd (congrArg Thr.waited h) (by simp)

/-- A wait in SYNC likewise. -/
theorem waitOn_eq (s : State) (d n rd : Nat) (w : WaitOn) (m : DWord) :
    waitOn s d n rd w m = (markWait s d n).putThr d n ((s.thr d n).syncs rd w m) := by
  unfold waitOn Thr.syncs
  rw [State.modThr_eq_putThr]
  · rfl
  · intro h; exact absurd (congrArg Thr.waited h) (by simp)

/-! Slots. -/

theorem countSlot_only (s : State) (d n : Nat) : only [.regs, .cra] s (countSlot s d n) := by
  intro p hp
  unfold countSlot
  simp only
  split <;> cases p <;> first | rfl | exact absurd (by decide) hp

/-- An instruction in a slot that the thread may use is run after the slot is counted (R260, R262). -/
theorem issue_runs (s : State) (d n : Nat) (op : ROp) (i : RIns) (f : RIns → State → State) (h : s.issues d n op i) :
    issue s d n op f = (f i (countSlot s d n)).modThr d n Thr.settle := by
  obtain ⟨-, h1, h2, h3, h4, h5⟩ := h
  unfold issue
  rw [if_neg (by simp [h1]), if_neg (by simp [h2]), h3]
  simp only [h4, ne_eq, not_true, if_false]
  rw [if_neg]
  rintro ⟨hp, hq⟩
  exact hq (h5 hp)

/-- A Rolk command in such a slot. -/
theorem rolk_runs (s : State) (d n : Nat) (op : ROp) (i : RIns) (f : RIns → State → State) (h : s.issues d n op i) :
    rolk s d n op f = .next (lapse ((f i (countSlot s d n)).modThr d n Thr.settle) d) := by
  unfold rolk
  rw [onCra_live _ _ _ h.1, issue_runs s d n op i f h]

/-! Lists of dies acted on in turn. -/

/-- What every action of a list keeps, the list keeps. -/
theorem overDies_keep (P : State → Prop) (f : Nat → State → State) (hf : ∀ d t, P t → P (f d t)) : ∀ (l : List Nat) (s : State), P s → P (overDies f l s)
  | [], _, h => h
  | d :: r, s, h => overDies_keep P f hf r (f d s) (hf d s h)

/-- What every step of a fold keeps, the fold keeps. -/
theorem foldl_keep {α : Type} (P : State → Prop) (f : State → α → State) (hf : ∀ t x, P t → P (f t x)) : ∀ (l : List α) (s : State), P s → P (l.foldl f s)
  | [], _, h => h
  | x :: r, s, h => foldl_keep P f hf r (f s x) (hf s x h)

end Sys2Proof.Machine
end

