-- ==== Sys2Proof/Tests/Slice0.lean ====
section
/-! SUPPORT. Tests: ill-formed commands, one step or one function on small states, with expected values from the spec's tables, rules and examples or worked out by hand, and for every statement with hypotheses a state that meets them. -/

namespace Sys2Proof.Tests

open Sys2Proof Sys2Proof.Machine Host

set_option Elab.async false

/-! Ill-formed commands: each check refuses one. -/

def claimArgs : ClaimArgs :=
  { dnonce := List.replicate 32 1, owner := List.replicate 96 2, heph := List.replicate 96 3, ukey := List.replicate 48 0, cipher := 0, osig := List.replicate 96 4, src := 5, prot := false, fresh := true }

theorem test_identify_ill : wellFormed (.identify []) = false := by decide
theorem test_claim_well : wellFormed (.claim claimArgs) = true := by decide
theorem test_claim_ill : wellFormed (.claim { claimArgs with dnonce := [] }) = false ∧ wellFormed (.claim { claimArgs with owner := [] }) = false
    ∧ wellFormed (.claim { claimArgs with heph := [] }) = false ∧ wellFormed (.claim { claimArgs with ukey := [] }) = false
    ∧ wellFormed (.claim { claimArgs with cipher := 256 }) = false ∧ wellFormed (.claim { claimArgs with osig := [] }) = false := by decide
theorem test_rd_ill : wellFormed (.rd 0 (2 ^ 32)) = false ∧ wellFormed (.wr 0 (List.replicate 2048 0)) = false := by decide +kernel
theorem test_win_ill : wellFormed (.winSet 0 256 4 0) = false ∧ wellFormed (.winSet 0 1 256 0) = false ∧ wellFormed (.winRd 0 (2 ^ 32)) = false
    ∧ wellFormed (.winWr 0 [1]) = false ∧ wellFormed (.winWr 0 (List.replicate 8196 0)) = false := by decide +kernel
theorem test_tbl_ill : wellFormed (.tblSearch { table := 256, die := 0, flags := 0, expGen := 0, body := [] }) = false
    ∧ wellFormed (.tblNext { table := 1, die := 256, flags := 0, expGen := 0, body := [] }) = false
    ∧ wellFormed (.tblInsert { table := 1, die := 0, flags := 256, expGen := 0, body := [] }) = false
    ∧ wellFormed (.tblDelete { table := 1, die := 0, flags := 0, expGen := 0, body := [0] }) = false
    ∧ wellFormed (.tblFlushPort { table := 1, die := 0, flags := 0, expGen := 0, body := [0] }) = false := by decide
theorem test_long_ill : wellFormed (.longFill { space := 256, unit := 4, flags := 0, offset := 0, length := 4, pattern := 0 }) = false
    ∧ wellFormed (.longCrc { space := 1, unit := 256, flags := 0, offset := 0, length := 4, pattern := 0 }) = false
    ∧ wellFormed (.longTblClear { space := 1, unit := 0, flags := 256, offset := 0, length := 0, pattern := 0 }) = false
    ∧ wellFormed (.longFill { space := 1, unit := 4, flags := 0, offset := 2 ^ 64, length := 4, pattern := 0 }) = false
    ∧ wellFormed (.longFill { space := 1, unit := 4, flags := 0, offset := 0, length := 2 ^ 64, pattern := 0 }) = false := by decide
theorem test_mode_ill : wellFormed (.modeSet 256 0) = false ∧ wellFormed (.modeUnit 256 0 0) = false ∧ wellFormed (.modeUnit 0 256 0) = false := by decide
theorem test_inject_ill : wellFormed (.taskInject { die := 256, ready := 0, entry := 0, delay := 0, key := 0, args := List.replicate 6 0 }) = false
    ∧ wellFormed (.taskInject { die := 0, ready := 256, entry := 0, delay := 0, key := 0, args := List.replicate 6 0 }) = false
    ∧ wellFormed (.taskInject { die := 0, ready := 0, entry := 0, delay := 0, key := 0, args := [] }) = false := by decide
theorem test_dbg_ill : wellFormed (.dbg { die := 256, op := 6, thread := 0, expGen := 0, reg := 0, value := 0 }) = false
    ∧ wellFormed (.dbg { die := 0, op := 256, thread := 0, expGen := 0, reg := 0, value := 0 }) = false
    ∧ wellFormed (.dbg { die := 0, op := 6, thread := 65536, expGen := 0, reg := 0, value := 0 }) = false
    ∧ wellFormed (.dbg { die := 0, op := 6, thread := 0, expGen := 0, reg := 256, value := 0 }) = false := by decide
theorem test_patch_ill : wellFormed (.patch { total := 2 ^ 32, offset := 0, last := false, data := [] }) = false
    ∧ wellFormed (.patch { total := 4, offset := 2 ^ 32, last := false, data := [] }) = false
    ∧ wellFormed (.patch { total := 4, offset := 0, last := false, data := [0] }) = false
    ∧ wellFormed (.patch { total := 9000, offset := 0, last := false, data := List.replicate 8180 0 }) = false := by decide +kernel
theorem test_reset_ill : wellFormed (.coldReset 0) = false ∧ wellFormed (.coldReset 4) = false ∧ wellFormed (.broadcastWrite 0x100000 0) = false := by decide

/-- A command of a frame, byte by byte: opcode, tag, LENGTH, arguments (R376). -/
def gwCmd (code tag : Nat) (args : List Byte) : List Byte := beBytes 1 code ++ [0] ++ beBytes 2 tag ++ beBytes 2 args.length ++ [0, 0] ++ args
/-- A message of n commands: VER, TYPE with STOP and SESSION, LENGTH, SEQ, COUNT (R375). -/
def gwMsg (kind seq n : Nat) (cmds : List Byte) : List Byte := [1] ++ beBytes 1 kind ++ beBytes 2 cmds.length ++ beBytes 4 seq ++ beBytes 2 n ++ [0, 0] ++ cmds
/-- A protected frame with nothing wrong, its integrity check value good. -/
def frameWith (msg : List Byte) : GwFrame :=
  { attB := false, dst := Config.factoryAddress, src := 0x020000000001, encap := .ether 0x88B5, prot := true, an := 0, pn := 1, sci := 0x0200000000010001, verified := true, fresh := false, msg := msg }

theorem test_frame_ill : wellFormed (.commandFrame { frameWith [] with pn := 2 ^ 64 }) = false ∧ wellFormed (.commandFrame { frameWith [] with pn := 2 ^ 64 - 1 }) = true := by decide

/-! Small states. -/

/-- The package in a mode, started. -/
def inMode (m : Mode) : State := { State.reset with glb := { ({} : Glb) with mode := m, started := true } }
/-- In PROVISION. -/
def prov : State := inMode .provision
/-- In RUN. -/
def running : State := inMode .run

/-- A part of the state, put in place of another. -/
def withPhi (s : State) (p : Phi) : State := { s with phi := p }

/-! Arithmetic of the part. -/

/-- CRC32C of the ASCII digits 1 to 9 is 0xE306_9283, its published check value (R135 uses the polynomial). -/
theorem test_crc32c : Nat.xor (crc32cFeed 0xFFFFFFFF [0x31, 0x32, 0x33, 0x34, 0x35, 0x36, 0x37, 0x38, 0x39]) 0xFFFFFFFF = 0xE3069283 := by decide +kernel
/-- The frame check sequence of the same digits is 0xCBF4_3926, the published check value of the Ethernet CRC. -/
theorem test_fcs : fcsOf [0x31, 0x32, 0x33, 0x34, 0x35, 0x36, 0x37, 0x38, 0x39] = 0xCBF43926 := by decide +kernel
/-- Bits [15:8] of 0x1234_5678 are 0x56. -/
theorem test_fld : fld 0x12345678 15 8 = 0x56 ∧ setFld 0x12345678 15 8 0xAB = 0x1234AB78 := by decide
/-- The half range of R53 and R381: 0 is at least 0xFFFF_FFFF, and not the other way round. -/
theorem test_geHalf : geHalf 0 0xFFFFFFFF = true ∧ geHalf 0xFFFFFFFF 0 = false ∧ geHalf 5 5 = true := by decide

/-! What the statements' hypotheses need. -/

/-- The invariant, as a test. -/
def invB (s : State) : Bool :=
  mwf 0 s.bpm.quay && mwf 0 s.cra.pad && mwf 0 s.ssc.data && mwf 0 s.ssc.par && mrise 0 s.regs && mrise 0 s.cra.thr && s.cra.thr.all (fun e => mrise 0 e.2.g) && mrise 0 s.qba.lq
    && decide (s.gwe.sess.length = 4) && decide (s.plt.ops.length = 16) && decide (s.gwe.evq.length ≤ 4096)

theorem inv_of (s : State) (h : invB s = true) : s.Inv := by
  simp only [invB, Bool.and_eq_true, decide_eq_true_eq] at h
  obtain ⟨⟨⟨⟨⟨⟨⟨⟨⟨⟨a, b⟩, c⟩, l⟩, d⟩, e⟩, f⟩, g⟩, i⟩, j⟩, k⟩ := h
  exact ⟨⟨a, b, c, l⟩, ⟨d, e, f, g⟩, i, j, k⟩

/-- A command's next state, or the state where it stops. -/
def after (c : Instr) (s : State) : State := match exec c s with
  | .next t => t
  | _ => s

/-! The machine. -/

theorem test_step_front : step { prov with pending := [.tick, .estimatedStep] } = exec .tick { prov with pending := [.estimatedStep] } := rfl
theorem test_step_idle : step State.reset = .next State.reset := rfl
theorem witness_StepKeepsInv : ({ prov with pending := [.resetNRelease] } : State).Inv ∧ ∃ t, step { prov with pending := [.resetNRelease] } = .next t :=
  ⟨inv_of _ (by decide +kernel), _, rfl⟩
/-- R527: a host command to a die that the part lacks is answered, and nothing else happens. -/
theorem witness_EveryCommandCompletes : (Instr.heartbeat 5).die = some 5 ∧ ({ prov with part := .hx1640 } : State).dies ≤ 5 ∧ Instr.tick.die = none
    ∧ (after (.psCheckStart 5) { prov with part := .hx1640 }).gwe.results.map (·.status) = [.badaddr] := by decide +kernel

/-! The phase. -/

/-- Locked to input A at the last step but one of a crossing of 4 steps, with B healthy too. -/
def locked : State := withPhi (running.setRf .PHI_XLEN 0 [] 24 0 4)
  { st := .locked, src := .a, ever := true, xing := 9, step := 2, stepCnt := 38, period := 6400000
    inA := { seen := true, stepNo := some 2, xing := 9, seeded := true, healthy := true, markOk := true, wordOk := true, stepOk := true, words := 20, periods := [6400000] }
    inB := { seen := true, stepNo := some 2, xing := 9, seeded := true, healthy := true, markOk := true, wordOk := true, stepOk := true, words := 20, periods := [6400000] } }
/-- The same at the last step of the crossing. -/
def lastStep : State := withPhi locked { locked.phi with step := 3, stepCnt := 39, inA := { locked.phi.inA with stepNo := some 3 }, inB := { locked.phi.inB with stepNo := some 3 } }

theorem witness_StepsAdvance_edge : locked.Inv ∧ locked.isActive .a = true ∧ (trackEdge locked .a false 6400000).1 = none
    ∧ ¬ (locked.phi.estimated = true ∧ 2 * 6400000 ≤ locked.phi.period) := ⟨inv_of _ (by decide +kernel), by decide +kernel⟩
theorem witness_StepsAdvance_late : (withPhi locked { locked.phi with estimated := true }).isActive .a = true ∧ (withPhi locked { locked.phi with estimated := true }).phi.estimated = true
    ∧ 2 * 3200000 ≤ (withPhi locked { locked.phi with estimated := true }).phi.period := by decide +kernel
theorem witness_StepsAdvance_others : locked.phi.st = .locked ∧ (withPhi locked { locked.phi with st := .holdover, src := .none }).coasts = true
    ∧ (withPhi locked { locked.phi with st := .self, src := .self }).phi.st = .self := by decide +kernel
theorem witness_StepsAdvance_crossing : lastStep.xlen ≤ lastStep.phi.step + 1 ∧ lastStep.isActive .a = true ∧ ¬ (lastStep.phi.estimated = true ∧ 0 ≤ lastStep.phi.period)
    ∧ (withPhi lastStep { lastStep.phi with st := .lost, src := .none }).coasts = true := by decide +kernel
/-- R42: at PHI_XLEN the step number returns to 0 and the crossing number advances. -/
theorem test_crossing_begin : (after (.crossingBegin true ⟨6400000, 6400000, []⟩) lastStep).phi.step = 0 ∧ (after (.crossingBegin true ⟨6400000, 6400000, []⟩) lastStep).phi.xing = 10
    ∧ (after (.crossingBegin true ⟨6400000, 6400000, []⟩) lastStep).phi.stepCnt = 40 := by decide +kernel
/-- R42, R55: an edge of the active input is a step, one of the other input is none; R536: neither is one half a period after an estimated step. -/
theorem test_phase_step : (after (.phaseStep .a false 6400000 ⟨6400000, []⟩) locked).phi.step = 3 ∧ (after (.phaseStep .b false 6400000 ⟨6400000, []⟩) locked).phi.step = 2
    ∧ (after (.phaseStep .a false 6400000 ⟨3200000, []⟩) (withPhi locked { locked.phi with estimated := true })).phi.step = 2
    ∧ (after (.phaseStep .a false 6400000 ⟨3200001, []⟩) (withPhi locked { locked.phi with estimated := true })).phi.step = 3 := by decide +kernel
/-- R508: in RESET no edge and no word counts. -/
def inReset : State := { locked with glb := { locked.glb with mode := .reset } }
theorem witness_Phase_reset : inReset.pinsReset = true ∧ inReset.isActive .a = true ∧ (after (.phaseStep .a false 6400000 ⟨6400000, []⟩) inReset).phi = locked.phi := by decide +kernel
/-- R44: die 2 that misses two steps of a crossing is found at step 0, is reported with its error of -2, and realigns at the next step 0. -/
theorem test_skew : (after (.crossingBegin true ⟨6400000, 6400000, [(2, 0)]⟩) (after (.phaseStep .a false 6400000 ⟨6400000, [(2, 0)]⟩) locked)).phi.skewed = [(2, 40)]
    ∧ (after (.crossingBegin true ⟨6400000, 6400000, [(2, 0)]⟩) (after (.phaseStep .a false 6400000 ⟨6400000, [(2, 0)]⟩) locked)).gwe.evq.map (·.args) = [[2, 0xFFFFFFFE]]
    ∧ (after (.crossingBegin true ⟨6400000, 6400000, [(2, 0)]⟩) (after (.phaseStep .a false 6400000 ⟨6400000, []⟩) locked)).phi.skewed = [] := by decide +kernel

theorem witness_TicksAndPhaseReads : locked.Inv ∧ (locked.setRf .PHI_TICK 0 [] 4 0 3).phi.tickDone ≠ (locked.setRf .PHI_TICK 0 [] 4 0 3).ticks ∧ locked.glb.mode.any = true :=
  ⟨inv_of _ (by decide +kernel), by decide +kernel, by decide +kernel⟩
/-- R43: 38 steps make 4 ticks of 8 steps; R446: in MOORED the age count stands still. -/
theorem test_tick : (locked.setRf .PHI_TICK 0 [] 4 0 3).ticks = 4
    ∧ (after .tick { (locked.setRf .PHI_TICK 0 [] 4 0 3) with glb := { locked.glb with mode := .moored, ageCnt := 5 } }).glb.ageCnt = 5 ∧ (after .tick (locked.setRf .PHI_TICK 0 [] 4 0 3)).glb.ageCnt = 1 := by decide +kernel

/-- A phase word with SYNC 0xB2, crossing 10 and selection 0, its CRC worked out by polynomial division (R38, R39). -/
def phWord (crossing : Nat) : BitVec 56 :=
  let v := 0xB2 * 2 ^ 48 + crossing * 2 ^ 16
  BitVec.ofNat 56 (v + crc8 ((List.range 48).map (fun i => v.testBit (55 - i))))

/-- R39: the CRC of the single byte 0x01 is the polynomial itself, 0x07; of 0x80 it is 0x89. -/
theorem test_crc8 : crc8 [false, false, false, false, false, false, false, true] = 0x07 ∧ crc8 [true, false, false, false, false, false, false, false] = 0x89 := by decide
/-- Input A's word is whole: it began with crossing 3 of its count. -/
def worded (x : PhIn) : State := withPhi locked { locked.phi with inA := { x with whole := true, wstart := 3 } }
theorem witness_PhaseInputs_good : (worded locked.phi.inA).phi.st ≠ .self ∧ ((worded locked.phi.inA).phIn .a).whole = true ∧ wordGood (phWord 3) = true
    ∧ bitsOf (phWord 3).toNat 47 16 = ((worded locked.phi.inA).phIn .a).wstart := by decide +kernel
/-- R40: an input without seed takes the word's crossing and those begun since; a bad word is counted, and the second in a row fails the input (R46). -/
theorem test_phase_word : ((after (.phaseWord .a (phWord 100)) (worded { locked.phi.inA with seeded := false, healthy := false })).phIn .a).xing = 106
    ∧ ((after (.phaseWord .a (phWord 4)) (worded locked.phi.inA)).phIn .a).badWords = 1 ∧ ((after (.phaseWord .a (phWord 4)) (worded locked.phi.inA)).phIn .a).healthy = true
    ∧ ((after (.phaseWord .a (phWord 4)) (worded { locked.phi.inA with badWords := 1 })).phIn .a).healthy = false := by decide +kernel
theorem witness_PhaseInputs_copy : (worded locked.phi.inA).isActive .a = true ∧ ((worded locked.phi.inA).setRf .PHI_CTRL 0 [] 5 5 1).copySrc = true
    ∧ (worded { locked.phi.inA with seeded := false }).phi.inA.seeded = false := by decide +kernel
theorem witness_PhaseInputs_bad : wordGood (phWord 9 ^^^ 1) = false ∧ bitsOf (phWord 9).toNat 47 16 ≠ ((worded locked.phi.inA).phIn .a).wstart
    ∧ 1 ≤ ((worded { locked.phi.inA with badWords := 1 }).phIn .a).badWords := by decide +kernel
theorem witness_PhaseInputs_presence : (locked.phIn .b).seen = true ∧ (locked.phIn .b).healthy = true ∧ locked.phi.st ≠ .self := by decide

/-- In ACQUIRE, input A to be adopted and at its step 0. -/
def adopting : State := withPhi locked { locked.phi with st := .acquire, src := .none, adopt := some .a, inA := { locked.phi.inA with stepNo := some 0, xing := 70 } }
theorem witness_PhaseState_adopt : adopting.phi.adopt = some .a ∧ (adopting.phIn .a).healthy = true ∧ (adopting.phIn .a).stepNo = some 0 ∧ adopting.phi.st = .acquire := by decide +kernel
/-- R52: the adopted crossing number replaces the one held, and the jump is reported: 70 for 9. -/
theorem test_adopt : (after (.phaseAdopt) adopting).phi.xing = 70 ∧ (after (.phaseAdopt) adopting).phi.step = 0 ∧ (after (.phaseAdopt) adopting).reg .PHI_JUMP 0 [] = 61 := by decide +kernel
theorem witness_PhaseState_expiry : (withPhi locked { locked.phi with st := .holdover, src := .none, coasted := 4 * 65535 }).phi.st = .holdover
    ∧ (withPhi locked { locked.phi with st := .holdover, src := .none, coasted := 4 * 65535 }).rf .PHI_HOLD 0 [] 15 0 * (withPhi locked { locked.phi with st := .holdover }).xlen ≤ 4 * 65535 := by decide +kernel
/-- On input B, with REVERT = 1, at a step 0, and A good again. -/
def onB : State := withPhi (locked.setReg .PHI_CTRL 0 [] 0x11) { locked.phi with src := .b, step := 0, inA := { locked.phi.inA with stepNo := some 0 }, inB := { locked.phi.inB with stepNo := some 0 } }
theorem witness_PhaseState_revert : onB.phi.st = .locked ∧ onB.isActive onB.prefInp = false ∧ bit (onB.reg .PHI_CTRL 0 []) 4 = true ∧ onB.phi.step = 0
    ∧ (onB.phIn onB.prefInp).healthy = true ∧ onB.rf .PHI_HOLD 0 [] 19 16 ≤ (onB.phIn onB.prefInp).words ∧ onB.agrees onB.prefInp = true := by decide +kernel
theorem witness_PhaseState_realign : (withPhi onB { onB.phi with skewed := [(2, 30)] }).phi.skewed.any (fun e => e.1 = 2 && decide (e.2 ≠ onB.phi.stepCnt)) = true ∧ onB.phi.step = 0 := by decide +kernel
theorem witness_PhaseState_select : prov.glb.mode = .provision ∧ genOk (fld 0xFFFF0002 31 16) (prov.gen .PHI_STATE 0) = true ∧ fld 0xFFFF0002 1 0 ≠ 3
    ∧ fld 0xFFFF0002 1 0 ≠ prov.rf .PHI_CTRL 0 [] 1 0 := by decide +kernel
/-- R59: self-phase starts at PHI_SELF_START and keeps nothing of the inputs. -/
theorem test_self_phase : (after (.phiSourceSelect 0xFFFF0002) (prov.setReg .PHI_SELF_START 0 [] 77)).phi.xing = 77 ∧ (after (.phiSourceSelect 0xFFFF0002) (withPhi prov locked.phi)).phi.inA = {}
    ∧ (after (.phiSourceSelect 0xFFFF0002) prov).phi.st = .self ∧ (after (.phiSourceSelect 0xFFFF0001) prov).phi.st = .acquire := by decide +kernel

/-- The same with input A so. -/
def inputA (s : State) (x : PhIn) : State := withPhi s { s.phi with inA := x }
/-- An edge of A without MARK expected, at step 3, and one with it, at step 0; the last two crossings, or this one, with errors; without step numbering; never seen. -/
theorem witness_PhaseInputs_edges : rateFails (locked.rf .PHI_TOL 0 [] 15 0) [6400000, 6400000] = false ∧ rateFails (locked.rf .PHI_TOL 0 [] 15 0) [4999999, 6400000] = true ∧ rateFails (locked.rf .PHI_TOL 0 [] 15 0) [40000001] = true
    ∧ (locked.phIn .a).healthy = true ∧ (locked.phIn .a).stepNo = some 2 ∧ (lastStep.phIn .a).stepNo = some 3 ∧ locked.xlen = 4 ∧ (locked.phIn .a).badMarks < 2 ∧ locked.isActive .b = false
    ∧ ((inputA locked { locked.phi.inA with stepNo := none }).phIn .a).stepNo = none ∧ ((inputA locked { locked.phi.inA with seen := false }).phIn .a).seen = false ∧ locked.Inv :=
  ⟨by decide +kernel, by decide +kernel, by decide +kernel, by decide, by decide, by decide, by decide +kernel, by decide, by decide, by decide, by decide, inv_of _ (by decide +kernel)⟩
/-- R46: one crossing with a MARK error leaves an input healthy, two in a row do not; a second error in one crossing is none more; a period of 4.999999 ns fails it. -/
theorem test_mark_errors : [{ locked.phi.inA with badMarks := 0 }, { locked.phi.inA with badMarks := 1 }, { locked.phi.inA with badMarks := 1, markErr := true }].map
      (fun x => ((after (.phaseStep .a true 6400000 ⟨6400000, []⟩) (inputA locked x)).phIn .a).healthy) = [true, false, true]
    ∧ ((after (.phaseStep .a false 4999999 ⟨6400000, []⟩) locked).phIn .a).healthy = false ∧ (after (.phaseStep .a true 6400000 ⟨6400000, []⟩) locked).rf .PHI_ERR 0 [0] 31 16 = 1 := by decide +kernel

/-! The timetable and departures. -/

/-- A swap to come at crossing 20, while the phase is in crossing 9. -/
def swapSet : State := (withPhi prov locked.phi).setReg .CTE_SWAP_XING 0 [] 20
theorem witness_TimetableSwaps_arm : swapSet.glb.mode = .provision ∧ genOk (0xFFFF : BitVec 16).toNat (swapSet.gen .CTE_STATE 0) = true ∧ swapSet.copySrc = false ∧ swapSet.cte.swap = none
    ∧ swapSet.earlyFor (swapSet.reg .CTE_SWAP_XING 0 []).toNat = true := by decide +kernel
theorem witness_TimetableSwaps_cancel : ({ swapSet with cte := { swapSet.cte with swap := some 20 } } : State).cte.swap = some 20 ∧ swapSet.earlyFor 20 = true := by decide +kernel
theorem witness_TimetableSwaps_swap : ({ swapSet with cte := { swapSet.cte with swap := some 9 } } : State).cte.swap = some 9 ∧ reaches swapSet.phi.xing 9 = true := by decide +kernel
/-- COPY_SRC = 1; a word has selected copy 1, and a crossing has begun after it or not. -/
def choosing (x : Option Nat) : State := { (withPhi prov locked.phi).setRf .PHI_CTRL 0 [] 5 5 1 with cte := { prov.cte with nextCopy := some (1, x) } }
theorem witness_TimetableSwaps_select : (choosing (some 9)).cte.nextCopy = some (1, some 9) ∧ (choosing (some 9)).copySrc = true ∧ (choosing (some 9)).cte.swap = none ∧ swapSet.copySrc = false
    ∧ (choosing none).cte.nextCopy = some (1, none) := by decide +kernel
/-- R41: the copy selected by a word is active once a crossing has begun after the word, not before; R59: not in self-phase. -/
theorem test_copy_select : (after .copySelect (choosing (some 9))).cte.active = 1 ∧ (after .copySelect (choosing none)).cte.active = 0
    ∧ (after .copySelect (withPhi (choosing (some 9)) { locked.phi with st := .self, src := .self })).cte.active = 0 := by decide +kernel
theorem test_swap_too_late : swapSet.earlyFor 10 = false ∧ swapSet.earlyFor 11 = true := by decide +kernel

/-- A frame of 64 bytes in quay buffer 0x1000 of die 0. -/
def quayFrame : LQItem := { staged := false, handle := mkHandle 0 0 0x1000, seg := 0, off := 0, len := 64, edit := 0, flow := 0, eage := 0, tick := 0, flood := false, mirror := none, offer := 0 }
/-- Bank 0 of port 0 open for every group from step 0 to 50 of every crossing of 100 steps, its port up and its queue 0 with a frame. -/
def departing : State :=
  let s := ((withPhi locked { locked.phi with src := .a }).setRf .PHI_XLEN 0 [] 24 0 100).setRf .CTE_PORT_STAT 0 [0] 15 0 512
  let s := ((((s.setTt (bankOff 0 0) 0x80000100).setTt (winOff 0 0 0 0) 50).setTt (winOff 0 0 0 1) 0).setTt (winOff 0 0 0 3) 0x8F000000)
  let s := s.setReg .LPX_PORT_CFG 0 [0] (packWord [(31, 1), (16, 3), (0, 1518)])
  { (s.modPtx 0 (fun x => { x with link := true })).setLq 0 { items := [quayFrame] } with lpx := { port := [(0, { up := true })] } }

/-- What the port picks in the first step. -/
def picked : Option Nat × State := portPick 0 0 (departing.bps 0) (4 * (departing.openBanks 0).length + 8) false (settleRound departing 0)
theorem witness_FramesDepart_start : departing.portFree 0 = true ∧ (departing.ptx 0).backlog = 0 ∧ picked.1 = some 0 ∧ (picked.2.lq 0).items = [quayFrame]
    ∧ picked.2.quayBad quayFrame.handle 128 64 = false ∧ (picked.2.runEdit (picked.2.server (queueDie 0)) 0 0 (picked.2.itemBytes quayFrame)).isSome = true := by decide +kernel
theorem test_window_guard : departing.runLeft 0 1 = 48 ∧ departing.fitsRun 0 1 0 0 512 quayFrame = true ∧ ({ departing with cte := { departing.cte with guard := 49 } } : State).fitsRun 0 1 0 0 512 quayFrame = false := by decide +kernel

/-- The frame on the wire, its edit engine still passing it on, and after it has left the quay. -/
def onWire (left : Bool) : WireFrame := { q := 0, item := quayFrame, bytes := List.replicate 60 0, left := left, engine := if left then none else some 0 }
/-- A port with such a frame. -/
def sending (left : Bool) : State := departing.modPtx 0 (fun x => { x with wire := [onWire left] })
theorem witness_FramesDepart_leave : (((sending false).ptx 0).wire.find? (fun w => !w.left)) = some (onWire false) ∧ (onWire false).engine.isSome = true := by decide +kernel
theorem witness_FramesDepart_end : (sending true).portOn 0 = true ∧ ((sending true).ptx 0).wire = [onWire true] ∧ (onWire true).left = true ∧ ((sending true).ptx 0).backlog ≤ (sending true).bps 0 := by decide +kernel
theorem witness_FramesDepart_report : ({ departing with cte := { departing.cte with linkRep := [(0, false)] } } : State).cte.linkRep.find? (fun e => e.1 == 0) = some (0, false) := by decide
theorem witness_FramesDepart_age : (departing.setTt (lqOff 0 1) 5).lqAge 0 ≠ 0 ∧ (departing.setTt (lqOff 0 1) 5).Inv := ⟨by decide +kernel, inv_of _ (by decide +kernel)⟩
theorem test_age_drop : ((after (.ageDrop 0) { (departing.setTt (lqOff 0 1) 5) with glb := { departing.glb with ageCnt := 6 } }).lq 0).items = []
    ∧ ((after (.ageDrop 0) { (departing.setTt (lqOff 0 1) 5) with glb := { departing.glb with ageCnt := 5 } }).lq 0).items = [quayFrame] := by decide +kernel

/-! Prefetch. -/

/-- A prefetch of segment 3 for queue 0. -/
def pf0 (st : PfSt) : Pf := { q := 0, seg := 3, run := 30, chunks := 1, deadline := 30, counts := true, late := false, begun := false, st := st }
/-- With a prefetch in a state. -/
def prefetching (st : PfSt) : State := { departing with cte := { departing.cte with pf := [pf0 st] } }
/-- Ten steps of lead before a window that opens at step 12. -/
def leading : State := (departing.setRf .CTE_PF 0 [] 23 0 10).setTt (winOff 0 0 0 1) 12
theorem witness_Prefetch_point : leading.bankMayOpen 0 = true ∧ leading.coveredAt 0 0 (leading.stepAhead 0 leading.pfLead).1 (leading.stepAhead 0 leading.pfLead).2 = true
    ∧ leading.coveredBefore 0 0 (leading.stepAhead 0 leading.pfLead).1 (leading.stepAhead 0 leading.pfLead).2 = false ∧ leading.bankServer 0 = 0 := by decide +kernel
theorem witness_Prefetch_land : (prefetching .requested).pfOf 0 3 = some (pf0 .requested) ∧ (prefetching .requested).pfReads 3 = true := by decide +kernel
theorem witness_Prefetch_deadline : (prefetching .requested).pfOf 0 3 = some (pf0 .requested) ∧ (pf0 .requested).deadline ≤ (prefetching .requested).phi.stepCnt := by decide +kernel
theorem witness_Prefetch_due : departing.dueQueue 0 = true := by decide +kernel
theorem witness_Prefetch_wait : (prefetching .waiting).cte.pf.find? (fun p => p.st = .waiting && (prefetching .waiting).server (queueDie p.q) = 0) = some (pf0 .waiting)
    ∧ (prefetching .waiting).pfUsed 0 + 1 ≤ 8 * (prefetching .waiting).pfSize 0 ∧ (prefetching .waiting).glb.mode.departs = true ∧ prov.glb.mode.departs = false := by decide +kernel

/-- COPY_SRC = 1; a swap already armed; a swap ordered for the coming crossing; another mode. -/
theorem witness_TimetableSwaps_refused : (swapSet.setRf .PHI_CTRL 0 [] 5 5 1).copySrc = true ∧ ({ swapSet with cte := { swapSet.cte with swap := some 3 } } : State).cte.swap.isSome = true
    ∧ (swapSet.setReg .CTE_SWAP_XING 0 [] 10).earlyFor ((swapSet.setReg .CTE_SWAP_XING 0 [] 10).reg .CTE_SWAP_XING 0 []).toNat = false ∧ swapSet.glb.mode.any = true ∧ running.glb.mode ≠ .provision
    ∧ genOk (5 : BitVec 16).toNat (swapSet.gen .CTE_STATE 0) = false ∧ swapSet.Inv ∧ (choosing (some 9)).cte.active ≠ 1 ∧ (choosing (some 9)).Inv := ⟨by decide +kernel, by decide, by decide +kernel, by decide, by decide, by decide +kernel, inv_of _ (by decide +kernel), by decide, inv_of _ (by decide +kernel)⟩
/-- R77: an arm for the coming crossing is too late and counts; R78: a swap notes its crossing. -/
theorem test_swap_effects : (after (.cteSwapArm 0xFFFF) (swapSet.setReg .CTE_SWAP_XING 0 [] 10)).rf .CTE_SWAP_CNT 0 [] 31 16 = 1
    ∧ (after .timetableSwap { swapSet with cte := { swapSet.cte with swap := some 9 } }).reg .CTE_LAST_SWAP 0 [] = 9
    ∧ (after .timetableSwap { swapSet with cte := { swapSet.cte with swap := some 9 } }).gwe.evq.map (fun e => (e.code, e.args)) = [(0x8401, [9, 1, 1])] := by decide +kernel

/-- A word of the frame is bad; it has an edit program that is not valid; its port is served by the other die of an HX1620 whose link is down. -/
def badDep : State := { departing with bpm := { departing.bpm with bad := [(hKey quayFrame.handle + 128) / 8] } }
def noEdit : State := { departing with qba := { departing.qba with lq := [(0, { items := [{ quayFrame with edit := 9 }] })] } }
def cutDep : State := { (departing.setRf .DIE_HEALTH 0 [] 8 8 1) with part := .hx1620, icu := { departing.icu with excl := 1, link := [(0, { lost := 34 })] } }
/-- What the port picks there. -/
def pickOf (s : State) : Option Nat × State := portPick 0 0 (s.bps 0) (4 * (s.openBanks 0).length + 8) false (settleRound s 0)
theorem witness_FramesDepart_drops : (pickOf badDep).1 = some 0 ∧ (pickOf badDep).2.quayBad quayFrame.handle 128 quayFrame.len = true ∧ (pickOf badDep).2.noRoute ((pickOf badDep).2.server (queueDie 0)) 0 = false
    ∧ (pickOf noEdit).1 = some 0 ∧ (pickOf noEdit).2.runEdit ((pickOf noEdit).2.server (queueDie 0)) 0 9 ((pickOf noEdit).2.itemBytes { quayFrame with edit := 9 }) = none
    ∧ cutDep.portFree 0 = true ∧ (pickOf cutDep).1 = some 0 ∧ (pickOf cutDep).2.noRoute ((pickOf cutDep).2.server (queueDie 0)) 0 = true ∧ (0 : Fin 32).val / 4 < cutDep.dies := by decide +kernel
/-- R251, R462, R478: each loss counts in its own counter and nothing leaves. -/
theorem test_departure_drops : ((after (.departureStart 0) badDep).reg .ICU_FRAME_DROP 0 [], (after (.departureStart 0) noEdit).reg .RSQ_EDIT_ERR 0 [], (after (.departureStart 0) cutDep).reg .PFB_ROUTE_DROP 1 []) = (1, 1, 1)
    ∧ [badDep, noEdit, cutDep].map (fun s => ((after (.departureStart 0) s).ptx 0).wire) = [[], [], []] := by decide +kernel

/-! Ports, parse and classification. -/

/-- 60 zero bytes and their frame check sequence, least significant byte first. -/
def okFrame : List Byte := List.replicate 60 0 ++ (beBytes 4 (fcsOf (List.replicate 60 0))).reverse
/-- A reception of some bytes. -/
def rx (l : List Byte) (open_ : Bool) : RxFrame := { bytes := l, corrected := 0, uncorrectable := 0, codeErr := false, openAtFirst := open_, linkAtFirst := true, islandFull := false }
/-- Port 5 enabled with MODE 3 and up, and a pool of 4 buffers of class 0 on its die. -/
def ported : State :=
  let s := (running.setReg .LPX_PORT_CFG 1 [1] (packWord [(31, 1), (16, 3), (0, 1518)])).modLnk 5 (fun x => { x with align := true, fecLock := true, up := true })
  clearPool (s.setReg .BPM_POOL_CNT 1 [0] 4) 1 0
/-- The frame with the EtherType of a control frame. -/
def ctrlFrame : List Byte :=
  let b := List.replicate 12 0 ++ [0x88, 0x08] ++ List.replicate 46 0
  b ++ (beBytes 4 (fcsOf b)).reverse

theorem witness_Ports_link : ported.linkGoodNow 5 = true ∧ (ported.lnk 5).up = true ∧ (ported.modLnk 5 (fun x => { x with up := false })).portOn 5 = true ∧ (ported.modLnk 5 (fun x => { x with fecLock := false })).linkGoodNow 5 = false := by decide +kernel
/-- Closed ingress, once in RUN and once where port 5 still has a frame in reception (R437). -/
def closing (l : List Nat) : State := { ported with glb := { ported.glb with mode := .moored }, lpx := { ported.lpx with tail := l } }
theorem witness_Ports_admits : ported.admits 5 (rx okFrame true) = true ∧ (closing [5]).admits 5 (rx okFrame true) = true ∧ (closing []).admits 5 (rx okFrame true) = false ∧ ported.admits 5 (rx okFrame false) = false
    ∧ ported.glb.warm = none ∧ (rx okFrame true).islandFull = false ∧ ported.excluded 1 = false := by decide +kernel
theorem witness_Ports_code : ported.portOn 5 = true ∧ ported.upAtFirst 5 (rx okFrame true) = true ∧ ({ rx okFrame true with codeErr := true } : RxFrame).codeErr = true := by decide +kernel
theorem witness_Ports_oversize : (ported.lnk 5).up = true ∧ (ported.setRf .LPX_PORT_CFG 1 [1] 13 0 64).portOn 5 = true ∧ (ported.setRf .LPX_PORT_CFG 1 [1] 13 0 64).rf .LPX_PORT_CFG 1 [1] 13 0 < (List.replicate 65 (0 : Byte)).length := by decide +kernel
theorem witness_Ports_sizes : okFrame.length = 64 ∧ (okFrame.take 63).length < 64 ∧ okFrame.length ≤ ported.rf .LPX_PORT_CFG 1 [1] 13 0 ∧ fcsGood okFrame = true ∧ fcsGood (okFrame.set 0 1) = false := by decide +kernel
theorem witness_Ports_control : fcsGood ctrlFrame = true ∧ beNat ((ctrlFrame.drop 12).take 2) = 0x8808 ∧ beNat ((okFrame.drop 12).take 2) ≠ 0x8808 := by decide +kernel
/-- The state after the counters, and the die and region that the frame goes to. -/
def counted : State := noteRx (countRx ported 5 64) 1
theorem witness_Ports_receive : counted.ingressOf 5 okFrame = (1, 0) ∧ classFor 64 = some 0 ∧ (allocBuf (nextArrival counted 1).2 1 0 0).1 = some (mkHandle 1 0 0)
    ∧ (((allocBuf (nextArrival counted 1).2 1 0 0).2).putQuay (mkHandle 1 0 0) 128 okFrame).twin 5 = false := by decide +kernel
theorem test_receive : mget [] (after (.frameReceive 5 (rx okFrame true)) ported).prs.queue 2 = [{ handle := mkHandle 1 0 0, len := 64, port := 5, arr := 0, mirror := none }] := by decide +kernel
theorem test_receive_runt : (after (.frameReceive 5 (rx (okFrame.take 63) true)) ported).reg .LPX_RX_RUNT 1 [1] = 1 ∧ (after (.frameReceive 5 (rx okFrame false)) ported).reg .GLB_CLOSED_DROP 0 [5] = 1 := by decide +kernel
theorem witness_Ports_config : prov.glb.mode.any = true ∧ (prov.heldLanes 1 1).contains 1 = false ∧ prov.laneAllowed 1 1 3 = true ∧ prov.laneClash 1 1 3 = false
    ∧ fld (packWord [(31, 1), (16, 3), (0, 1518)]) 19 16 = 3 ∧ 64 ≤ fld (packWord [(31, 1), (16, 3), (0, 1518)]) 13 0 := by decide +kernel

/-- With the link just reported, the frame says what its first bit met. -/
def turning : State := ported.modLnk 5 (fun x => { x with turned := true })
theorem witness_Ports_fec : ported.Inv ∧ (ported.lnk 5).fecLock = true ∧ turning.upAtFirst 5 { rx okFrame true with linkAtFirst := false } = false ∧ (ported.modLnk 5 (fun x => { x with up := false })).upAtFirst 5 (rx okFrame true) = false
    ∧ ((ported.modLnk 5 (fun x => { x with fecLock := false })).lnk 5).fecLock = false ∧ (ported.modLnk 5 (fun x => { x with fecLock := false })).portOn 5 = true := ⟨inv_of _ (by decide +kernel), by decide +kernel⟩
/-- R493: three corrected codewords and an uncorrectable one count; R539: with the link down at the first bit no frame counts, once it is up no operand takes it down. -/
theorem test_fec : (after (.frameReceive 5 { rx okFrame true with corrected := 3, uncorrectable := 1 }) ported).reg .LPX_FEC_CORR 1 [1] = 3 ∧ (after (.frameReceive 5 { rx okFrame true with corrected := 3, uncorrectable := 1 }) ported).reg .LPX_FEC_UNCORR 1 [1] = 1
    ∧ (after (.frameReceive 5 { rx okFrame true with linkAtFirst := false, codeErr := true }) turning).reg .LPX_RX_CODE 1 [1] = 0 ∧ (after (.frameReceive 5 { rx okFrame true with linkAtFirst := false, codeErr := true }) ported).reg .LPX_RX_CODE 1 [1] = 1 := by decide +kernel
/-- MODE 15 takes eight lanes from lane 0 of an even die, 7 two from an even lane; die 0's eight-lane port holds die 1's lanes. -/
theorem witness_Ports_config_bad : prov.laneAllowed 1 0 15 = false ∧ prov.laneAllowed 1 0 12 = false ∧ prov.laneAllowed 0 0 15 = true ∧ prov.laneAllowed 1 1 7 = false ∧ (prov.setReg .LPX_PORT_CFG 1 [1] (packWord [(31, 1), (16, 3)])).laneClash 1 0 7 = true
    ∧ ((prov.setReg .LPX_PORT_CFG 0 [0] (packWord [(31, 1), (16, 15)])).heldLanes 1 2).contains 2 = true ∧ fld (packWord [(0, 63)]) 13 0 < 64 ∧ (prov.heldLanes 1 0).contains 0 = false := by decide +kernel
theorem witness_Links_conditions : ported.portOn 5 = true ∧ ported.portEn 5 = true := by decide +kernel
theorem witness_Links_good : ({ ported.modLnk 5 (fun x => { x with up := false, upHold := true }) with glb := ported.glb } : State).linkGoodNow 5 = true := by decide +kernel
theorem witness_Links_down : ((ported.modLnk 5 (fun x => { x with downHold := true })).lnk 5).up = true ∧ ((ported.modLnk 5 (fun x => { x with downHold := true })).lnk 5).downHold = true := by decide +kernel
theorem witness_Links_up : ((ported.modLnk 5 (fun x => { x with up := false, upHold := true })).lnk 5).upHold = true ∧ (ported.modLnk 5 (fun x => { x with up := false, upHold := true })).linkGoodNow 5 = true := by decide +kernel
/-- R495: remote fault is sent as the conditions say, whatever is reported; R499: LINK is what is reported. -/
theorem test_remote_fault : (ported.modLnk 5 (fun x => { x with downHold := true, fecLock := false })).sendsRemoteFault 5 = true ∧ (ported.modLnk 5 (fun x => { x with up := false, upHold := true })).sendsRemoteFault 5 = false
    ∧ fld (ported.view .LPX_STATE 1 []) 3 0 = 2 := by decide +kernel
theorem test_link_holds : ((after (.linkFailureDetect 5 ⟨1, 0, 0⟩) ported).lnk 5).downHold = true ∧ ((after (.linkFailureDetect 5 ⟨1, 0, 0⟩) ported).lnk 5).up = true := by decide +kernel

/-- The frame waits in the parse queue of region 0. -/
def parsing : State := after (.frameReceive 5 (rx okFrame true)) ported
/-- Its place there. -/
def rxd : Frame := { handle := mkHandle 1 0 0, len := 64, port := 5, arr := 0, mirror := none }
theorem witness_Parse_start : mfind parsing.prs.eng 16 = none ∧ parsing.unitDown 1 unitPrs = false ∧ parsing.takeParse 1 0 = some (0, rxd) ∧ parsing.quayBad rxd.handle 128 64 = false := by decide +kernel
/-- Engine 0 of die 1 with a parse of that frame, its vector zero. -/
def parsedS : State := { parsing with prs := { parsing.prs with queue := [], eng := [(16, { frame := rxd, vec := List.replicate 128 0, cross := false })] } }
theorem witness_Parse_end : mfind parsedS.prs.eng 16 = some { frame := rxd, vec := List.replicate 128 0, cross := false } ∧ parsedS.unitDown 1 unitPrs = false ∧ parsedS.unitDown 1 unitCls = false := by decide +kernel

/-- A decision to send to queue 40000 over flow context 65533. -/
def dec0 (kind : Nat) : Decision := { rule := 0, hit := false, dflt := true, kind := kind, ready := 3, entry := 9, queue := 40000, domain := 0, edit := 0, actdata := 0, action := 0, flow := 65533, fallback := true }
/-- A fragment entry of die 1. -/
def frag0 (dec : Option Decision) : Frag := { digest := 0, fragId := 0, proto := 0, dec := dec, tick := 0, held := [] }
/-- A state with it, some ticks later. -/
def fragS (dec : Option Decision) : State := (withPhi ported { ({} : Phi) with stepCnt := 2 ^ 60 }).setFrag 1 7 (frag0 dec)
theorem witness_Fragments : mfind (fragS none).cls.frag (1 * 4096 + 7) = some (frag0 none) ∧ (frag0 none).tick + (fragS none).fragHold 1 ≤ (fragS none).ticksOn 1
    ∧ mfind (fragS (some (dec0 0))).cls.frag (1 * 4096 + 7) = some (frag0 (some (dec0 0))) ∧ (frag0 none).tick + max 1 ((fragS none).rf .CLS_FRAG_CFG 1 [] 31 16) ≤ (fragS none).ticksOn 1 := by decide +kernel
theorem witness_Contexts_served : (1, 65533) ∈ ({ running with fwt := { running.fwt with fetch := [(1, 65533)] } } : State).fwt.fetch
    ∧ ({ running with fwt := { running.fwt with fetch := [(1, 65533)] } } : State).ssc.req.any (fun r => decide (r.what = .ctx 1 65533) && !r.write) = false := by decide +kernel
/-- A frame that waits for its number. -/
def wait0 (kind : Nat) (fetching : Bool) : CFrame := { frame := rxd, vec := List.replicate 128 0, dec := dec0 kind, fragd := false, l2res := 0, lpmres := 0, flowres := 0, fetching := fetching, robWait := true, after := 0, sub := 0 }
/-- A die with that frame waiting. -/
def waits (kind : Nat) (fetching : Bool) : State := ported.setClsWait 1 [wait0 kind fetching]
theorem witness_Contexts_fetch : ((waits 4 true).clsWait 1).any (fun x => x.fetching && decide (x.dec.flow = 65533)) = true ∧ (waits 4 true).ssc.req.any (fun r => decide (r.what = .ctx 1 65533) && !r.write) = false := by decide +kernel
theorem witness_Frames_numbers : (waits 4 false).unitDown 1 unitFwt = false ∧ (waits 4 false).nextFrame 1 = some (wait0 4 false) ∧ (waits 4 false).robFree 1 = some 0 ∧ (wait0 4 false).robWait = true ∧ (wait0 4 false).dec.kind = 4 := by decide +kernel
/-- The ticket's second word holds sequence number 0, flow 1 × 65,536 + 65,533 in its place, and TKT 0 (R131). -/
theorem test_ticket : ((after (.sequenceAssign 1) (waits 4 false)).readyList 1 3).map (fun t => (t.args.getD 0 0, t.args.getD 1 0, t.entry))
    = [(BitVec.ofNat 64 (mkHandle 1 0 0 + 64 * 2 ^ 40 + 5 * 2 ^ 54), BitVec.ofNat 64 (131069 * 2 ^ 32), 9)] := by decide +kernel

/-! Forwarding tables. -/

/-- An L2 entry of domain 7 and address 0x0200_0000_00AA on port 5. -/
def l2e (isStatic act notice pend : Bool) : L2Ent := { word := l2Make 7 0x0200000000AA 5 0x123 isStatic act notice pend, winTick := 0, pinTick := 0 }
/-- Die 0 with that entry in slot 9 and a learn queue. -/
def l2s (e : L2Ent) (q : List LearnReq) : State := (running.setL2 0 9 e).setLearnQ 0 q
theorem witness_Learn_insert : (l2s (l2e false false false true) [.insert 9 7 0x0200000000AA 5]).learnQ 0 = .insert 9 7 0x0200000000AA 5 :: []
    ∧ (l2s (l2e false false false true) [.insert 9 7 0x0200000000AA 5]).l2At 0 9 = some (l2e false false false true) ∧ (l2e false false false true).pend = true
    ∧ (l2e false false false true).keyIs 7 0x0200000000AA = true ∧ (l2s (l2e false false false true) []).unitDown 0 unitFwt = false := by decide +kernel
theorem witness_Learn_move : (l2s (l2e false true false false) [.move 7 0x0200000000AA 6]).learnQ 0 = .move 7 0x0200000000AA 6 :: []
    ∧ (l2s (l2e false true false false) [.move 7 0x0200000000AA 6]).l2Match 0 7 0x0200000000AA = some (9, l2e false true false false)
    ∧ (l2e false true false false).pend = false ∧ (l2e false true false false).isStatic = false ∧ (l2e false true false false).pinned = false ∧ (l2e false true false false).moves = 0
    ∧ 0 ≠ (l2s (l2e false true false false) []).moveLimit 0 := by decide +kernel
theorem test_move : ((after (.moveApply 0) (l2s (l2e false true false false) [.move 7 0x0200000000AA 6])).l2At 0 9).map (fun e => (e.port, e.moves)) = some (6, 1) := by decide +kernel
/-- A notice of another address. -/
def note0 : Notice := { domain := 7, mac := 0xBB, port := 6, data := 1 }
theorem witness_Learn_notice : (l2s (l2e false true false false) [.notice note0]).learnQ 0 = .notice note0 :: [] ∧ (l2s (l2e false true false false) []).l2Match 0 7 0xBB = none
    ∧ ((l2s (l2e false true false false) []).l2Place 0 7 0xBB).isSome = true := by decide +kernel
theorem witness_Learn_flight : (0, note0) ∈ ({ running with fwt := { running.fwt with flight := [(0, note0)] } } : State).fwt.flight ∧ (running.learnQ 0).length < 1024 := by decide +kernel

/-- With ageing periods of 10 ticks. -/
def aging (s : State) : State := (s.setReg .FWT_L2_AGE 0 [] 10).setReg .FWT_FLOW_AGE 0 [] 10
theorem witness_Age_l2 : (aging (l2s (l2e true false false false) [])).visitDue 0 .l2 9 = true ∧ (l2e true false false false).isStatic = true ∧ (l2e false true false false).act = true
    ∧ (aging (l2s (l2e false false false false) [])).l2At 0 9 = some (l2e false false false false) ∧ (l2e false false false false).act = false ∧ (l2e false false false false).pend = false := by decide +kernel
/-- A flow-key entry. -/
def fle (isStatic act : Bool) : FlowEnt := { profile := 0, key := List.replicate 40 0, isStatic := isStatic, act := act, data := 0, ctx := 100 }
/-- Die 0 with it in slot 3. -/
def fls (e : FlowEnt) : State := aging (running.setFlow 0 3 e)
theorem witness_Age_flow : (fls (fle false true)).visitDue 0 .flow 3 = true ∧ (fls (fle true true)).flowAt 0 3 = some (fle true true) ∧ (fls (fle false false)).flowAt 0 3 = some (fle false false) := by decide +kernel
theorem test_age : ((after (.agerVisit 0 .flow ⟨3, false⟩) (fls (fle false true))).flowAt 0 3).map (·.act) = some false ∧ (after (.agerVisit 0 .flow ⟨3, false⟩) (fls (fle false false))).flowAt 0 3 = none := by decide +kernel
/-- R166: an unused entry that is hit in the cycle of its visit lives, with ACT set; an L2 entry's slot 32,768 is none of this die's. -/
theorem test_age_hit : ((after (.agerVisit 0 .flow ⟨3, true⟩) (fls (fle false false))).flowAt 0 3).map (·.act) = some true ∧ (fls (fle false false)).visitDue 0 .l2 32768 = false := by decide +kernel
/-- The entry pinned at tick 0. -/
def pinnedE : L2Ent := { l2e false true false false with word := setM (l2e false true false false).word 125 125 1 }
theorem witness_Age_pin : ((withPhi (l2s pinnedE []) { ({} : Phi) with stepCnt := 2 ^ 60 }).l2At 0 9) = some pinnedE ∧ pinnedE.pinned = true
    ∧ pinnedE.pinTick + ((withPhi (l2s pinnedE []) { ({} : Phi) with stepCnt := 2 ^ 60 }).reg .FWT_PIN 0 []).toNat ≤ (withPhi (l2s pinnedE []) { ({} : Phi) with stepCnt := 2 ^ 60 }).ticksOn 0 := by decide +kernel
theorem witness_Age_seed : running.glb.mode.any = true ∧ running.excluded 0 = false ∧ prov.glb.mode = .provision ∧ (5 : Word) ≠ prov.reg .FWT_HASH_SEED 0 [] := by decide +kernel

/-- An L2 body with that key. -/
def l2Body : List Byte := beBytes 16 (l2e false false false false).word.toNat
/-- Arguments of TBL on table 1. -/
def tblA (die : Nat) (body : List Byte) : TblArgs := { table := 1, die := die, flags := 0, expGen := 0xFFFF, body := body }
theorem witness_Tbl_one : running.glb.mode.any = true ∧ l2Body.length = bodyLen 1 ∧ badProfile 1 l2Body = false ∧ 0 ∈ running.liveDies ∧ genOk (0xFFFF : BitVec 16).toNat (running.gen .FWT_STATE 0) = true
    ∧ (l2s (l2e false true false false) []).tblFind 0 1 l2Body = some (9, beBytes 16 (l2e false true false false).word.toNat)
    ∧ (l2s (l2e false true false false) []).tblSeen 0 1 l2Body = some (9, beBytes 16 (l2e false true false false).word.toNat) ∧ running.tblSeen 0 1 l2Body = none := by decide +kernel
theorem witness_Tbl_next : (beBytes 4 0xFFFFFFFF).length = 4 ∧ ((l2s (l2e false true false false) []).tblList 0 1).find? (fun x => decide ((if beNat (beBytes 4 0xFFFFFFFF) = 0xFFFFFFFF then 0 else beNat (beBytes 4 0xFFFFFFFF) + 1) ≤ x.1))
    = some (9, beBytes 16 (l2e false true false false).word.toNat) := by decide +kernel
theorem witness_Tbl_insert : running.badInsert 1 l2Body = false ∧ running.liveDies.all (fun d => (tblWrite running 1 d l2Body).isSome) = true := by decide +kernel
/-- Both candidate buckets of the key full on die 0. -/
def fullL2 : State := ((List.range 8).flatMap (fun i => [(running.l2Buckets 0 7 0x0200000000AA).1 + i, (running.l2Buckets 0 7 0x0200000000AA).2 + i])).foldl (fun t x => t.setL2 0 x { l2e true false false false with word := l2Make 8 x 1 0 true false false false }) running
/-- DELETE on every die, where the key stands on die 0 alone; a stuck LPM entry. -/
theorem witness_Tbl_delete : mrise 0 (l2s (l2e false true false false) []).fwt.l2 = true ∧ mrise 0 running.fwt.flow = true ∧ mrise 0 running.fwt.lpm = true ∧ ((l2s (l2e false true false false) []).tblFind 0 1 l2Body).isSome = true ∧ (l2s (l2e false true false false) []).tblFind 1 1 l2Body = none := by decide +kernel
theorem test_tbl_delete : (after (.tblDelete (tblA 0xFF l2Body)) (l2s (l2e false true false false) [])).fwt.l2 = [] ∧ (after (.tblDelete (tblA 0xFF l2Body)) (l2s (l2e false true false false) [])).gwe.results.map (fun r => (r.status, r.data.take 8)) = [(.ok, [0xFF, 0xFF, 0, 1, 0, 0, 0, 0])]
    ∧ (after (.tblDelete { tblA 0 (List.replicate 24 0) with table := 3 }) running).gwe.results.map (·.status) = [.badaddr] := by decide +kernel
theorem witness_Tbl_noroom : fullL2.liveDies.any (fun d => !(tblWrite fullL2 1 d l2Body).isSome) = true := by decide +kernel
theorem test_tbl_noroom : (after (.tblInsert (tblA 0xFF l2Body)) fullL2).gwe.results.map (·.status) = [.noroom] ∧ (after (.tblInsert (tblA 0xFF l2Body)) running).gwe.results.map (·.status) = [.ok] := by decide +kernel
theorem witness_Tbl_flush : (beBytes 4 (5 * 2 ^ 24)).length = 4 := by decide
theorem test_tbl_flush : (after (.tblFlushPort (tblA 0xFF (beBytes 4 (5 * 2 ^ 24)))) (l2s (l2e false true false false) [])).fwt.l2 = [] := by decide +kernel

/-! Buffers and admission. -/

theorem witness_Pools_place : prov.glb.mode = .provision ∧ prov.excluded 1 = false ∧ prov.placeGood 1 0 ((mfind prov.bpm.baseHeld 8).getD (prov.rf .BPM_POOL_BASE 1 [0] 17 0) * 128) (fld 4 15 0) = true
    ∧ prov.placeGood 1 0 0 65535 = false := by decide +kernel
theorem witness_Pools_mode : ported.glb.mode.any = true ∧ ported.glb.mode ≠ .provision ∧ fld 1 17 0 ≠ ported.rf .BPM_POOL_BASE 1 [0] 17 0 ∧ fld 9 15 0 ≠ ported.poolCount 1 0 := by decide +kernel
theorem witness_Pools_inv : prov.Inv := inv_of _ (by decide +kernel)
theorem test_pool_commit : (after (.poolCountCommit 1 0 4) prov).poolHead 1 0 = mkHandle 1 0 0 ∧ (after (.poolCountCommit 1 0 4) prov).link (mkHandle 1 0 0) = mkHandle 1 0 256
    ∧ (after (.poolCountCommit 1 0 4) prov).link (mkHandle 1 0 768) = 0 := by decide +kernel
theorem witness_Pools_rebuild : ({ ported with bpm := { ported.bpm with quar := [8] } } : State).quarantined 1 0 = true := by decide
/-- One buffer of the pool allocated, its handle's low word in BPM_HOST_FREE_LO. -/
def oneUsed : State := (allocBuf ported 1 0 0).2
theorem witness_Pools_free : (bfree oneUsed 1 (fld 0x24 7 0 * 2 ^ 32 + (oneUsed.reg .BPM_HOST_FREE_LO 1 []).toNat) hostCloser).1 = .done
    ∧ (bfree ported 1 (fld 0x24 7 0 * 2 ^ 32 + (ported.reg .BPM_HOST_FREE_LO 1 []).toNat) hostCloser).1 ≠ .done := by decide +kernel
/-- The buffer with an entry in the share table. -/
def sharedS (refs : Nat) (closer : BitVec 16) : State := oneUsed.setShare (mkHandle 1 0 0) { refs := refs, closer := closer }
/-- How the host's free of it ends. -/
def freeEnd (s : State) (h : Nat) : FreeRes := (bfree s 1 h hostCloser).1
theorem witness_Pools_free_all : freeEnd oneUsed (mkHandle 1 0 0) = .done ∧ freeEnd oneUsed 0 = .bad ∧ freeEnd ported (mkHandle 1 0 0) = .double
    ∧ freeEnd (sharedS 1 7) (mkHandle 1 0 0) = .notCloser ∧ freeEnd (sharedS 2 hostCloser) (mkHandle 1 0 0) = .early
    ∧ ∃ w : Word, fld w 7 0 * 2 ^ 32 + ((oneUsed.setReg .BPM_HOST_FREE_LO 1 [] (BitVec.ofNat 32 (mkHandle 1 0 0))).reg .BPM_HOST_FREE_LO 1 []).toNat = mkHandle 1 0 0 :=
  ⟨by decide +kernel, by decide +kernel, by decide +kernel, by decide +kernel, by decide +kernel, BitVec.ofNat 32 (mkHandle 1 0 0 / 2 ^ 32), by decide +kernel⟩
/-- The pool with its head recorded as allocated. -/
def headUsed : State := ported.setAlloc (mkHandle 1 0 0) true
theorem witness_FreeLists_bad : headUsed.quarantined 1 0 = false ∧ headUsed.poolCount 1 0 ≠ 0 ∧ headUsed.poolHead 1 0 ≠ 0 ∧ headUsed.allocated (headUsed.poolHead 1 0) = true
    ∧ ({ ported with bpm := { ported.bpm with quar := [8] } } : State).quarantined 1 (0 * 4 + 0) = true ∧ ported.Inv ∧ oneUsed.poolHead 1 0 < 2 ^ 64 :=
  ⟨by decide +kernel, by decide +kernel, by decide +kernel, by decide +kernel, by decide +kernel, inv_of _ (by decide +kernel), by decide +kernel⟩
theorem witness_FreeLists : (allocBuf ported 1 0 0).1 = some (mkHandle 1 0 0) ∧ ported.poolCount 0 0 = 0 ∧ oneUsed.poolOf (mkHandle 1 0 0) = some 0 ∧ oneUsed.quarantined 1 0 = false ∧ hDie (mkHandle 1 0 0) = 1 := by decide +kernel
theorem test_alloc_free : (freeBuf oneUsed (mkHandle 1 0 0)).poolHead 1 0 = mkHandle 1 0 0 ∧ oneUsed.poolHead 1 0 = mkHandle 1 0 256 ∧ oneUsed.poolFree 1 0 = 3 := by decide +kernel

/-- A frame on its way to queue 40000 of die 1. -/
def adm (force : Bool) : Admit := { die := 1, hand := none, q := 40000, handle := mkHandle 1 0 0, len := 64, edit := 0, flow := 0, force := force, flood := false, mirror := none }
/-- Die 1 with it, its pool used once and no group of stacks. -/
def admitting (force : Bool) : State := { oneUsed with qba := { oneUsed.qba with admitQ := [adm force] } }
theorem witness_Admit_keep : (admitting false).qba.admitQ.find? (fun a => a.die == 1) = some (adm false) ∧ (admitting false).twin ((admitting false).bankPort (bankOf 40000)) = false
    ∧ ((admitting false).setReg .QBA_ALPHA 1 [0] 0x88888888).underThreshold 1 40000 256 = true := by decide +kernel
theorem witness_Admit_bad : ({ (admitting true) with bpm := { (admitting true).bpm with bad := [(hKey (mkHandle 1 0 0)) / 8] } } : State).quayBad (adm true).handle 0 192 = true ∧ (adm true).mirror = none ∧ (adm true).hand = none := by decide +kernel
theorem witness_Admit_stage : (adm true).force = true ∧ (admitting true).quayBad (adm true).handle 0 192 = false
    ∧ (packFrame { (admitting true) with qba := { (admitting true).qba with admitQ := lrem (adm true) (admitting true).qba.admitQ } } 1 40000 64 0 0 (admitting true).age32 0 ((admitting true).quayBytes (mkHandle 1 0 0) 128 64)).1 = none := by decide +kernel
/-- The same with two stacks trained. -/
def stacked (s : State) : State := { s with ssc := { s.ssc with smask := 3, begun := true } }
theorem witness_Admit_packs : (packFrame { stacked (admitting true) with qba := { (admitting true).qba with admitQ := lrem (adm true) (admitting true).qba.admitQ } } 1 40000 64 0 0 (admitting true).age32 0 ((admitting true).quayBytes (mkHandle 1 0 0) 128 64)).1.isSome = true := by decide +kernel
theorem test_admit : ((after (.admitFrame 1 0) (stacked (admitting true))).lq 40000).items.map (fun i => (i.staged, i.len)) = [(true, 64)] ∧ (after (.admitFrame 1 0) (admitting true)).reg .QBA_STAGE_REFUSED 1 [] = 1 := by decide +kernel
/-- A queue of die 1 with a frame past a dwell limit of 2 ticks. -/
def dwelling : State := ((withPhi oneUsed { ({} : Phi) with stepCnt := 2 ^ 40 }).setTt (lqOff 40000 2) 0x20000).setLq 40000 { items := [{ quayFrame with handle := mkHandle 1 0 0 }] }
theorem witness_Admit_dwell : dwelling.lqDwell 40000 ≠ 0 ∧ dwelling.queueOpen 40000 = false ∧ dwelling.dwellCandidate 40000 = some { quayFrame with handle := mkHandle 1 0 0 } ∧ dwelling.quayBad (mkHandle 1 0 0) 128 64 = false
    ∧ (packFrame dwelling (dwelling.server (queueDie 40000)) 40000 64 0 0 0 0 (dwelling.quayBytes (mkHandle 1 0 0) 128 64)).1 = none := by decide +kernel
theorem witness_Queue_values : ported.Inv ∧ ported.glb.mode.any = true ∧ ported.excluded 1 = false := ⟨inv_of _ (by decide +kernel), by decide, by decide⟩
theorem test_queue_values : (after (.qbaQselWrite 1 7232) (dwelling.modLq 40000 (fun l => { l with admitDrop := 5 }))).reg .QBA_QDATA 1 [0] = 256
    ∧ (after (.qbaQdataRead 1 2) (after (.qbaQselWrite 1 7232) (dwelling.modLq 40000 (fun l => { l with admitDrop := 5 })))).gwe.results.map (·.data) = [[0, 0, 0, 5]]
    ∧ ((after (.qbaQdataRead 1 2) (after (.qbaQselWrite 1 7232) (dwelling.modLq 40000 (fun l => { l with admitDrop := 5 })))).lq 40000).admitDrop = 0 := by decide +kernel

/-- An IPv4 LPM entry of VRF 0 with that prefix length. -/
def lpmE (plen addr : Nat) : LpmEnt := { key := BitVec.ofNat 160 (2 ^ 159 + plen * 2 ^ 150 + addr * 2 ^ (128 - 32)), result := 0x80 }
/-- Die 0 holds two prefixes; an entry of length 32 goes before them. -/
def lpmTwo : State := (running.setLpm 0 0 (lpmE 24 0x0A000000)).setLpm 0 1 (lpmE 16 0x0A000000)
def lpmBodyOf (plen addr : Nat) : List Byte := lpmBytes (lpmE plen addr)
/-- An insert that a reset interrupts on die 0 before its first move is whole. -/
def cutArgs : TblArgs := { tblA 0xFF (lpmBodyOf 32 0x0A000001) with table := 3, cut := [(0, 0)] }
/-- The entry of length 24 stuck. -/
def lpmStuckS : State := { lpmTwo with icu := { lpmTwo.icu with stuck := [(0, 8192)] } }
theorem witness_Tbl_stuck : (∃ i ∈ lpmStuckS.lpmPlaces 0 (lpmBodyOf 24 0x0A000000), lpmStuckS.lpmStuck 0 i = true) ∧ ((lpmStuckS.tblFind 0 3 (lpmBodyOf 24 0x0A000000)).map (·.1)) = some 0 ∧ (lpmStuckS.lpmPlaces 0 (lpmBodyOf 8 0x0A000000)).all (fun i => !lpmStuckS.lpmStuck 0 i) = true :=
  ⟨⟨0, by decide +kernel, by decide +kernel⟩, by decide +kernel, by decide +kernel⟩
theorem test_tbl_stuck : [24, 8].map (fun n => (after (.tblInsert { tblA 0xFF (lpmBodyOf n 0x0A000000) with table := 3 }) lpmStuckS).gwe.results.map (·.status)) = [[.denied], [.ok]] := by decide +kernel
theorem witness_Tbl_cut : cutArgs.cut ≠ [] ∧ cutArgs.body.length = bodyLen 3 ∧ lpmTwo.badInsert 3 cutArgs.body = false ∧ lpmTwo.liveDies.all (fun d => (tblWrite lpmTwo 3 d cutArgs.body).isSome) = true := by decide +kernel
/-- R160: the interrupted move leaves an entry twice, and the scan of the warm reset clears the lower one. -/
theorem test_cut : ((after (.tblInsert cutArgs) lpmTwo).lpmList 0).map (·.2.plen) = [24, 16, 16] ∧ (after (.tblInsert cutArgs) lpmTwo).gwe.results = []
    ∧ ((fwtWarm (after (.tblInsert cutArgs) lpmTwo) 0).lpmList 0).map (·.1) = [0, 2] ∧ (fwtWarm (after (.tblInsert cutArgs) lpmTwo) 0).reg .FWT_LPM_DUP_FIXED 0 [] = 1 := by decide +kernel

/-- R463, R464: a stuck entry, and one that awaits its repair, are not found, and match no lookup. -/
theorem test_tbl_unseen : lpmStuckS.tblSeen 0 3 (lpmBodyOf 24 0x0A000000) = none ∧ ((lpmTwo.tblSeen 0 3 (lpmBodyOf 24 0x0A000000)).map (·.1)) = some 0
    ∧ ({ l2s (l2e true true false false) [] with icu := { running.icu with staticBad := [(0, 9)] } } : State).tblSeen 0 1 l2Body = none
    ∧ ({ l2s (l2e true true false false) [] with icu := { running.icu with staticBad := [(0, 9)] } } : State).l2Match 0 7 0x0200000000AA = none := by decide +kernel

/-- Port 5's die is served by the other one of an HX1620 whose link is down. -/
def cutRx : State := { (ported.setRf .DIE_HEALTH 0 [] 9 9 1) with part := .hx1620, icu := { ported.icu with excl := 2, link := [(0, { lost := 34 })] } }
theorem witness_Ports_cut : cutRx.portOn 5 = true ∧ cutRx.upAtFirst 5 (rx okFrame true) = true ∧ cutRx.linkGoodNow 5 = true ∧ (countRx cutRx 5 64).admits 5 (rx okFrame true) = true
    ∧ cutRx.noRoute ((5 : Fin 32).val / 4) ((noteRx (countRx cutRx 5 64) 1).ingressOf 5 okFrame).1 = true := by decide +kernel
/-- R478, R479: the frame is lost and counts at the die of its port. -/
theorem test_cut_rx : (after (.frameReceive 5 (rx okFrame true)) cutRx).reg .PFB_ROUTE_DROP 1 [] = 1 ∧ (after (.frameReceive 5 (rx okFrame true)) cutRx).prs.queue = [] := by decide +kernel

/-- Thresholds that nothing reaches, and the queue's port with a twin; die 0 with a pool, or none. -/
def alphaUp (s : State) : State := s.setReg .QBA_ALPHA 1 [0] 0x88888888
def twinned : State := let p := (admitting false).bankPort (bankOf 40000); (alphaUp (admitting false)).setReg .QBA_PORT_CFG (p / 4) [p % 4] 1
def pooled (s : State) : State := clearPool (s.setReg .BPM_POOL_CNT 0 [0] 4) 0 0
/-- The queue of admissions holds one. -/
def admits1 (s : State) (a : Admit) : State := { s with qba := { s.qba with admitQ := [a] } }
/-- The frame with a mirror. -/
def mirrored : Admit := { adm false with mirror := some (mkHandle 0 0 256) }
theorem witness_Admit_twin : (alphaUp (admitting false)).underThreshold 1 40000 256 = true ∧ (pooled twinned).twin ((pooled twinned).bankPort (bankOf 40000)) = true ∧ (pooled twinned).unmirrored ((pooled twinned).bankPort (bankOf 40000)) = false
    ∧ ({ pooled twinned with icu := { twinned.icu with excl := 1 } } : State).unmirrored ((pooled twinned).bankPort (bankOf 40000)) = true
    ∧ (makeMirror { pooled twinned with qba := { twinned.qba with admitQ := [] } } (mkHandle 1 0 0)).1.isSome = true ∧ (makeMirror { twinned with qba := { twinned.qba with admitQ := [] } } (mkHandle 1 0 0)).1 = none
    ∧ twinned.excluded (hDie (mkHandle 0 0 256)) = false ∧ ({ twinned with icu := { twinned.icu with excl := 8 } } : State).excluded (hDie (mkHandle 3 0 256)) = true := by decide +kernel
/-- R191 to R193: a frame that stays gets a mirror, keeps the one that it has, goes without where the port runs unmirrored, and is staged where no buffer is left for one. -/
theorem test_twin : [pooled twinned, admits1 (pooled twinned) mirrored, { pooled twinned with icu := { twinned.icu with excl := 1 } }, stacked twinned].map (fun s => ((after (.admitFrame 1 0) s).lq 40000).items.map (fun i => (i.staged, i.mirror)))
    = [[(false, some (mkHandle 0 0 0))], [(false, some (mkHandle 0 0 256))], [(false, none)], [(true, none)]] := by decide +kernel

/-- A handoff of die 0 whose copy waits for admission on die 1. -/
def hand3 : Hand := { id := 3, src := 0, dst := 1, handle := mkHandle 0 0 0, mirror := none, copied := false }
def handing (force : Bool) : State :=
  let s := pooled (alphaUp (admits1 ported { adm force with hand := some 3, handle := mkHandle 0 0 0 }))
  { s with rsq := { s.rsq with hand := [hand3] } }
/-- The same on an HX1620 whose link is down. -/
def handCut (flood : Bool) : State := { handing false with part := .hx1620, icu := { running.icu with link := [(0, { lost := 34 })] }, rsq := { running.rsq with hand := [{ hand3 with flood := flood }] } }
/-- Its pool of class 0 and region 0 empty, region 1's not. -/
def handFull : State := clearPool (((handing false).setReg .BPM_POOL_CNT 1 [0] 0).setReg .BPM_POOL_CNT 1 [4] 4) 1 4
/-- The port with a twin. -/
def handTwin : State := let p := (handing false).bankPort (bankOf 40000); (handing false).setReg .QBA_PORT_CFG (p / 4) [p % 4] 1
/-- What stands in the queue before the copy is mirrored. -/
def landed (s : State) : State := ((allocBuf { s with qba := { s.qba with admitQ := [] } } 1 0 0).2).putQuay (mkHandle 1 0 0) 0 (s.quayBytes (mkHandle 0 0 0) 0 192)
theorem witness_Admit_hand : (handing false).underThreshold 1 40000 256 = true ∧ portRegion ((handing false).bankPort (bankOf 40000)) = 0 ∧ (allocBuf { handing false with qba := { running.qba with admitQ := [] } } 1 0 0).1 = some (mkHandle 1 0 0)
    ∧ (allocBuf { handFull with qba := { running.qba with admitQ := [] } } 1 0 0).1 = none ∧ handFull.underThreshold 1 40000 256 = true
    ∧ (landMirror (landed (handing false)) (adm false) (mkHandle 1 0 0)).1 = true ∧ (landMirror (landed handTwin) (adm false) (mkHandle 1 0 0)).1 = true
    ∧ (landMirror (landed (handTwin.setReg .BPM_POOL_CNT 0 [0] 0)) (adm false) (mkHandle 1 0 0)).1 = false := by decide +kernel
theorem witness_Admit_cut : [true, false].map (fun f => (handCut f).cutOff { adm false with hand := some 3, handle := mkHandle 0 0 0 }) = [some { hand3 with flood := true }, some hand3]
    ∧ (handing false).cutOff { adm false with hand := some 3, handle := mkHandle 0 0 0 } = none ∧ (1 : Fin 8).val < (handCut true).dies
    ∧ ({ handing false with bpm := { (handing false).bpm with bad := [(hKey (mkHandle 0 0 0)) / 8] } } : State).quayBad (mkHandle 0 0 0) 0 192 = true
    ∧ (handing false).rsq.hand.find? (fun h => h.id = 3) = some hand3 ∧ hand3.src ≠ hand3.dst := by decide +kernel
/-- R245: the copy lies in a buffer of its own die, in a mirrored one, or in staging; its handoff is copied, or over where the link is down (R478). -/
theorem test_hand_admit : [handing false, handTwin, stacked handFull, handCut false, handCut true].map (fun s => (((after (.admitFrame 1 0) s).lq 40000).items.map (fun i => (i.staged, i.handle, i.mirror)), (after (.admitFrame 1 0) s).rsq.hand.map (·.copied)))
    = [([(false, mkHandle 1 0 0, none)], [true]), ([(false, mkHandle 1 0 0, some (mkHandle 0 0 0))], [true]), ([(true, 0, none)], [true]), ([], []), ([], [false])] := by decide +kernel

/-! The staging store. -/

/-- A segment of queue 40000 with one frame of 64 bytes, in stacks 0 and 1. -/
def seg0 (st : SegSt) (left : Nat) : Seg := { st := st, smask := 3, q := 40000, frames := 1, left := left, fill := 80, lastTick := 0, firstTick := 0, owner := 1 }
/-- Stacks 0 and 1 trained, that segment as number 6, SEG_FLUSH 10 on die 1. -/
def segS (st : SegSt) (left : Nat) : State :=
  (((withPhi (stacked running) { ({} : Phi) with stepCnt := 2 ^ 40 }).setReg .SSC_SEG_FLUSH 1 [] 10).setSeg 6 (seg0 st left)).setLq 40000 { segs := [6], opened := if st = .opened then some 6 else none }
theorem witness_Segments_flush : (segS .opened 1).Inv ∧ (segS .opened 1).seg 6 = some (seg0 .opened 1) ∧ (segS .opened 1).rf .SSC_SEG_FLUSH 1 [] 23 0 ≠ 0
    ∧ 0 < (seg0 .opened 1).frames ∧ 0 + (segS .opened 1).rf .SSC_SEG_FLUSH 1 [] 23 0 ≤ (segS .opened 1).ticksOn 1 := ⟨inv_of _ (by decide +kernel), by decide +kernel⟩
/-- The open chunk, the parity chunk and the record copies have their stacks. -/
theorem witness_Segments_writes : (seg0 .opened 1).fill % 8192 ≠ 0 ∧ parityDie 3 6 = some (members 3).head! ∧ nbit (segS .opened 1).ssc.lost (chunkDie 3 6 0) = false ∧ nbit (segS .opened 1).ssc.lost 0 = false ∧ nbit (segS .opened 1).ssc.lost ((segS .opened 1).homeDie 6) = false := by decide +kernel
theorem witness_Segments_written : (segS .closing 1).Inv ∧ (segS .closing 1).seg 6 = some (seg0 .closing 1) ∧ (segS .closing 1).writesDone 6 = true := ⟨inv_of _ (by decide +kernel), by decide +kernel⟩
theorem witness_Segments_empty : (segS .closing 0).Inv ∧ (segS .closing 0).seg 6 = some (seg0 .closing 0) ∧ (segS .closing 0).writesDone 6 = true := ⟨inv_of _ (by decide +kernel), by decide +kernel⟩
/-- R206: closing writes the last data chunk, the parity chunk and both copies of the record: four writes. -/
theorem test_flush : ((after (.segFlushExpiry 6) (segS .opened 1)).ssc.req.map (fun r => (r.write, r.port))) = [(true, 1), (true, 1), (true, 1), (true, 1)] := by decide +kernel

/-- A request of port p for a chunk of segment 6 at stack 0, issued at time 0. -/
def rq (port : Nat) (dl : Option Nat) : HbmReq := { id := 0, die := 0, port := port, write := false, what := .chunk 6 0, mask := 1, issued := 0, target := 1000, deadline := dl, late := false, raw := false }
/-- Stack 0 with it. -/
def reqS (port : Nat) (dl : Option Nat) (credit : Nat) : State :=
  let s := segS .written 1
  { s with ssc := { s.ssc with req := [rq port dl], nextReq := 1, credit := mset 0 [] 0 credit } }
theorem witness_Stacks_issue : (countRaw ((reqS 2 none 0).at_ 10) 0 0).nextReq 0 0 = some (rq 2 none) := by decide +kernel
/-- The same with a write. -/
def reqW : State := { reqS 2 none 0 with ssc := { (reqS 2 none 0).ssc with req := [{ rq 1 none with write := true }] } }
theorem witness_Stacks_write : (countRaw (reqW.at_ 10) 0 0).nextReq 0 0 = some { rq 1 none with write := true } ∧ (rq 2 none).write = false ∧ rq 2 none ∈ (countRaw ((reqS 2 none 0).at_ 10) 0 0).pcReqs 0 0
    ∧ (countRaw ((reqS 2 none 0).at_ 10) 0 0).heldUp 0 0 (rq 2 none) = false := by decide +kernel
/-- R221: a corrected read counts, an uncorrectable one counts and marks its piece. -/
theorem test_ecc : (after (.hbmRequestIssue 0 0 ⟨10, 1⟩) (reqS 2 none 0)).reg .SSC_ECC_CORR 0 [] = 1 ∧ (after (.hbmRequestIssue 0 0 ⟨10, 2⟩) (reqS 2 none 0)).ssc.bad.length = 1 := by decide +kernel
theorem witness_Stacks_late : (reqS 2 none 0).ssc.req.find? (fun r => r.id = 0) = some (rq 2 none) ∧ (rq 2 none).late = false ∧ urgency (max (reqS 2 none 0).ssc.now 1000) (rq 2 none) = 4 := by decide +kernel
/-- R211: at 90 percent of its target a request has urgency 3, at 89 percent 2. -/
theorem test_urgency : urgency 900 (rq 2 none) = 3 ∧ urgency 899 (rq 2 none) = 2 ∧ urgency 499 (rq 2 none) = 0 := by decide
theorem witness_Stacks_idle : running.rowWanted 0 0 0 = false := by decide +kernel
theorem witness_Stacks_refresh : (reqS 0 (some 50) 7).p0Active 0 0 = true ∧ (reqS 0 (some 50) 7).credit 0 0 < 8 ∧ 8 ≤ (reqS 0 (some 50) 8).credit 0 0 ∧ (reqS 2 none 3).p0Active 0 0 = false := by decide +kernel
theorem test_refresh : (after (.refreshDue 0 0 0) (reqS 0 (some 50) 7)).credit 0 0 = 8 ∧ (after (.refreshDue 0 0 0) (reqS 0 (some 50) 8)).reg .SSC_REF_FORCED 0 [] = 1 ∧ (after (.refreshDue 0 0 0) (reqS 2 none 3)).credit 0 0 = 2 := by decide +kernel

theorem witness_Training : ({ running with ssc := { running.ssc with begun := true, busy := true } } : State).ssc.busy = true := rfl
/-- R200, R219: with stacks 0 to 7 but 3 good the group has seven members. -/
theorem test_training : (after (.trainingDone 0xF7) { running with ssc := { running.ssc with begun := true, busy := true } }).ssc.smask = 0xF7
    ∧ (after (.trainingDone 0xF7) { running with ssc := { running.ssc with begun := true, busy := true } }).rf .SSC_STATE 0 [] 3 0 = 6 := by decide +kernel
/-- An uncorrectable unit on stack 0 with 1 spare unit left, or none. -/
def bad0 (spares : Nat) : State := ({ stacked running with ssc := { (stacked running).ssc with bad := [(0, 200)] } }).setRf .SSC_SPARE 0 [] 17 0 spares
theorem witness_Spare : (0, 200) ∈ (bad0 1).ssc.bad ∧ (bad0 0).rf .SSC_SPARE 0 [] 17 0 = 0 ∧ (bad0 1).rf .SSC_SPARE 0 [] 17 0 ≠ 0 ∧ nbit (bad0 1).ssc.lost 0 = false ∧ (bad0 1).Inv := ⟨by decide +kernel, by decide +kernel, by decide +kernel, by decide +kernel, inv_of _ (by decide +kernel)⟩
/-- R221: unit 6, which piece 200 lies in, moves and the spare count falls. -/
theorem test_spare : (after (.spareRemap 0 6) (bad0 1)).ssc.bad = [] ∧ (after (.spareRemap 0 6) (bad0 1)).ssc.remap = [(0, 6)] ∧ (after (.spareRemap 0 6) (bad0 1)).rf .SSC_SPARE 0 [] 17 0 = 0 := by decide +kernel
theorem witness_Channel : bit ((stacked running).reg .SSC_STACK 0 []) 15 = false ∧ bit (((stacked running).setRf .SSC_CFG 0 [] 31 31 0).reg .SSC_CFG 0 []) 31 = false
    ∧ bit (((stacked running).setRf .SSC_CFG 0 [] 31 31 1).reg .SSC_CFG 0 []) 31 = true ∧ nbit (stacked running).ssc.lost 0 = false := by decide +kernel
/-- R202: with stack 0 in the package no record of segment 6 is gone; with both copies bad it is, unless their stacks are both lost. -/
theorem witness_Channel_records : (segS .written 1).recordGone 6 = false ∧ (segS .written 1).lostChannels 0 = 0 := by decide +kernel
theorem witness_Channel_limit : ((((stacked running).setRf .SSC_CFG 0 [] 31 31 0).setRf .ICU_LIMIT 0 [] 19 16 2).setRf .SSC_STACK 0 [] 15 15 1).lostChannels 0 < max 1 ((((stacked running).setRf .SSC_CFG 0 [] 31 31 0).setRf .ICU_LIMIT 0 [] 19 16 2).rf .ICU_LIMIT 0 [] 19 16)
    ∧ max 1 (((stacked running).setRf .ICU_LIMIT 0 [] 19 16 1).rf .ICU_LIMIT 0 [] 19 16) ≤ (((stacked running).setRf .ICU_LIMIT 0 [] 19 16 1).setRf .SSC_STACK 0 [] 15 15 1).lostChannels 0 ∧ (stacked running).Inv :=
  ⟨by decide +kernel, by decide +kernel, inv_of _ (by decide +kernel)⟩
theorem test_narrow : (after (.channelLost 1 15) ((stacked running).setRf .SSC_CFG 1 [] 31 31 1)).ssc.smask = 1 ∧ (after (.channelLost 1 15) ((stacked running).setRf .SSC_CFG 1 [] 31 31 0)).ssc.smask = 3 := by decide +kernel

/-- The group narrowed to stack 0 and 2 while segment 6 is in 0 and 1; a rebuild runs or waits. -/
def rebuilding (wait : Bool) (reads : Option Nat := none) : State := ({ segS .written 1 with ssc := { (segS .written 1).ssc with smask := 5, rebuild := some { wait := wait, seg := none, reads := reads } } }).setRf .SSC_CFG 1 [] 15 0 100
theorem witness_Rebuild_one : (rebuilding false).Inv ∧ (rebuilding false).freshLeft (rebuilding false).rebuildQueue = false ∧ (rebuilding false).rebuildQueue = some 40000 ∧ (rebuilding false).rf .SSC_CFG 1 [] 15 0 ≠ 0
    ∧ (rebuilding false).oldSegs 40000 = [6] := ⟨inv_of _ (by decide +kernel), by decide +kernel⟩
theorem witness_Rebuild_reads : (rebuilding false (some 6)).ssc.rebuild = some { wait := false, seg := none, reads := some 6 } ∧ (rebuilding false (some 6)).readsWait 6 = false
    ∧ (after (.rebuildSegment []) (rebuilding false)).ssc.rebuild = some { wait := false, seg := none, reads := some 6 } ∧ (after (.rebuildSegment []) (rebuilding false)).readsWait 6 = true := by decide +kernel
theorem witness_Rebuild_done : ({ rebuilding false with qba := {} } : State).oldQueues = [] ∧ ({ rebuilding false with qba := {} } : State).freshLeft ({ rebuilding false with qba := {} } : State).rebuildQueue = false := by decide +kernel
theorem witness_Rebuild_resume : (rebuilding true).ssc.rebuild = some { wait := true, seg := none } ∧ (rebuilding true).anySegFree = true := by decide +kernel

/-! Resequencing. -/

/-- An entry of flow 1 × 65,536 + 65,533 of die 1. -/
def rob0 (st : RobSt) (seq : Nat) (dest : Word) : Rob := { st := st, seq := seq, flow := 131069, frame := rxd, dest := dest, edit := 0, force := false, reason := 0, code := 0, rule := 0, profile := 0, pflags := 0 }
/-- Die 1 with entries in use. -/
def robS (l : List (Nat × Rob)) : State := l.foldl (fun s x => s.setRob 1 x.1 x.2) (withPhi oneUsed { ({} : Phi) with stepCnt := 2 ^ 40 })
theorem witness_Release_emitted : (robS [(4, rob0 .emitted 0 40000)]).flowHead 1 65533 = some (4, rob0 .emitted 0 40000) ∧ (rob0 .emitted 0 40000).st.ended = true ∧ bit (rob0 .emitted 0 40000).dest 31 = false
    ∧ (robS [(4, rob0 .emitted 0 40000)]).owner (fld (rob0 .emitted 0 40000).dest 17 0) = 1 := by decide +kernel
theorem witness_Release_inv : (robS [(4, rob0 .emitted 0 40000)]).Inv := inv_of _ (by decide +kernel)
theorem witness_Release_retired : (robS [(4, rob0 .retired 0 0)]).flowHead 1 65533 = some (4, rob0 .retired 0 0) ∧ (rob0 .retired 0 0).st = .retired := by decide +kernel
theorem test_release : ((after (.rsqRelease 1 65533) (robS [(4, rob0 .emitted 0 40000)])).qba.admitQ.map (fun a => (a.die, a.q))) = [(1, 40000)] := by decide +kernel
/-- Number 0 pending, number 1 emitted, the timer set at tick 0. -/
def blockedS : State := ({ robS [(4, rob0 .pending 0 0), (5, rob0 .emitted 1 40000)] with rsq := { (robS [(4, rob0 .pending 0 0), (5, rob0 .emitted 1 40000)]).rsq with gap := [(131069, 0)] } }).setRf .RSQ_CFG 1 [] 15 0 20
theorem witness_Gap : mfind blockedS.rsq.gap (ctxKey 1 65533) = some 0 ∧ blockedS.gapTicks 1 ≠ 0 ∧ blockedS.flowBlocked 1 65533 = true ∧ 0 + blockedS.gapTicks 1 ≤ blockedS.ticksOn 1 := by decide +kernel
/-- R242, R255: GAP_TICKS written in this tick counts from the next one. -/
theorem test_gap_written : ({ blockedS with rsq := { blockedS.rsq with gapWas := [(1, (blockedS.ticksOn 1, 500))] } } : State).gapTicks 1 = 500 ∧ ({ blockedS with rsq := { blockedS.rsq with gapWas := [(1, (blockedS.ticksOn 1 - 1, 500))] } } : State).gapTicks 1 = 20 := by decide +kernel
/-- R242: the number is skipped, and the next one goes out at risk. -/
theorem test_gap : ((after (.gapTimeout 1 65533) blockedS).rob 1 4).map (·.st) = some .skipped ∧ (after (.gapTimeout 1 65533) blockedS).reg .RSQ_REORDER_RISK 1 [] = 1 ∧ (after (.gapTimeout 1 65533) blockedS).qba.admitQ.length = 1 := by decide +kernel
/-- A copied handoff, alone or with another copy of the frame outstanding. -/
def handS (more : List Hand) : State := { oneUsed with rsq := { oneUsed.rsq with hand := { id := 3, src := 1, dst := 2, handle := mkHandle 1 0 0, mirror := none, copied := true } :: more } }
theorem witness_Handoff : (handS []).rsq.hand.find? (fun h => h.id = 3) = some { id := 3, src := 1, dst := 2, handle := mkHandle 1 0 0, mirror := none, copied := true } := by decide
theorem witness_Handoff_copies : (lrem { id := 3, src := 1, dst := 2, handle := mkHandle 1 0 0, mirror := none, copied := true } (handS []).rsq.hand).any (fun x => x.handle = mkHandle 1 0 0) = false
    ∧ (lrem { id := 3, src := 1, dst := 2, handle := mkHandle 1 0 0, mirror := none, copied := true } (handS [{ id := 4, src := 1, dst := 3, handle := mkHandle 1 0 0, mirror := none, copied := false }]).rsq.hand).any (fun x => x.handle = mkHandle 1 0 0) = true := by decide +kernel
theorem test_handoff : (after (.handoffAck 3) (handS [])).allocated (mkHandle 1 0 0) = false ∧ (after (.handoffAck 3) (handS [{ id := 4, src := 1, dst := 3, handle := mkHandle 1 0 0, mirror := none, copied := false }])).allocated (mkHandle 1 0 0) = true := by decide +kernel
theorem witness_Edit : prov.glb.mode = .provision ∧ prov.excluded 0 = false ∧ prov.editProgGood (BitVec.ofNat 32 ((0 : Word).toNat &&& 0xBFFF00FF)) = true ∧ running.glb.mode ≠ .provision
    ∧ BitVec.ofNat 32 ((8 : Word).toNat &&& 0xBFFF00FF) ≠ running.reg .RSQ_EDIT_PROG 0 [1] := by decide +kernel
/-- The customer word 0x3010 holds a parse word, which no edit chain may enter. -/
theorem witness_Edit_bad : (prov.editProgGood (BitVec.ofNat 32 ((0xB0100000 : Word).toNat &&& 0xBFFF00FF))) = false := by decide +kernel
theorem test_port_data : (after (.portDataCommit 0 1 7) { prov with rsq := { prov.rsq with pdHeld := [(18, 9)] } }).reg .RSQ_PORT_DATA 0 [1, 2] = 9 ∧ (after (.portDataCommit 0 1 7) prov).reg .RSQ_PORT_DATA 0 [1, 15] = 7 := by decide +kernel

/-- The written segment's frame has a mirror in the pool of die 1; the frame at its stage 6 as the queue holds it. -/
def segM : State := ({ segS .closing 1 with bpm := oneUsed.bpm }.setReg .BPM_POOL_CNT 1 [0] 4).modLq 40000 (fun l => { l with items := [{ quayFrame with staged := true, seg := 6, handle := 0, mirror := some (mkHandle 1 0 0) }] })
theorem witness_Segments_mirror : segM.Inv ∧ segM.seg 6 = some (seg0 .closing 1) ∧ segM.writesDone 6 = true ∧ mrise 0 segM.bpm.alloc = true ∧ (segM.poolOf (mkHandle 1 0 0)).isSome = true ∧ segM.allocated (mkHandle 1 0 0) = true :=
  ⟨inv_of _ (by decide +kernel), by decide +kernel, by decide +kernel, by decide +kernel, by decide +kernel, by decide +kernel⟩
theorem test_mirror_freed : (after (.segmentWritten 6) segM).allocated (mkHandle 1 0 0) = false ∧ ((after (.segmentWritten 6) segM).lq 40000).items.map (·.mirror) = [none] := by decide +kernel

/-- The rebuild with no segment left, with an old one that no queue can repack, and in RESET. -/
def rebDone : State := ({ rebuilding false with qba := {}, ssc := { (rebuilding false).ssc with seg := [] } } : State).setRf .SSC_STATE 0 [] 5 5 1
def rebOld : State := { rebuilding false with qba := {} }
def rebReset (wait : Bool) : State := { rebuilding wait with glb := (inMode .reset).glb }
theorem witness_Rebuild_ends : rebDone.rebuilds = true ∧ rebDone.oldGeometry = false ∧ rebDone.freshLeft rebDone.rebuildQueue = false ∧ rebOld.oldGeometry = true ∧ rebOld.rebuildQueue = none
    ∧ (rebReset true).rebuilds = false ∧ rebDone.Inv ∧ (rebReset true).Inv := ⟨by decide +kernel, by decide +kernel, by decide +kernel, by decide +kernel, by decide +kernel, by decide, inv_of _ (by decide +kernel), inv_of _ (by decide +kernel)⟩
/-- R225: DEGRADED clears with the last segment of the old geometry, not before; R452: nothing is rebuilt in RESET. -/
theorem test_rebuild_ends : bit ((after (.rebuildSegment []) rebDone).reg .SSC_STATE 0 []) 5 = false ∧ (after (.rebuildSegment []) rebDone).ssc.rebuild = none
    ∧ (after (.rebuildSegment []) rebOld).ssc.rebuild = rebOld.ssc.rebuild ∧ (after (.rebuildSegment []) (rebReset false)).ssc.req = [] ∧ (after .rebuildResume (rebReset true)).ssc.rebuild = (rebReset true).ssc.rebuild := by decide +kernel

/-- An entry for queue 100 of die 0, alone and on an HX1620 whose link is down. -/
def released (cut : Bool) : State := let s := robS [(4, rob0 .emitted 0 100)]; if cut then { s with part := .hx1620, icu := { s.icu with link := [(0, { lost := 34 })] } } else s
theorem witness_Release_handoff : (released false).Inv ∧ (released false).flowHead 1 65533 = some (4, rob0 .emitted 0 100) ∧ (released false).owner (fld (rob0 .emitted 0 100).dest 17 0) = 0 ∧ (released false).noRoute 1 0 = false
    ∧ (released true).Inv ∧ (released true).owner 100 = 0 ∧ (released true).noRoute 1 0 = true ∧ (1 : Fin 8).val < (released true).dies :=
  ⟨inv_of _ (by decide +kernel), by decide +kernel, by decide +kernel, by decide +kernel, inv_of _ (by decide +kernel), by decide +kernel, by decide +kernel, by decide⟩
theorem test_release_handoff : (after (.rsqRelease 1 65533) (released false)).reg .RSQ_HANDOFF 1 [] = 1 ∧ (after (.rsqRelease 1 65533) (released false)).qba.admitQ.map (fun a => (a.die, a.q)) = [(0, 100)]
    ∧ (after (.rsqRelease 1 65533) (released true)).reg .PFB_ROUTE_DROP 1 [] = 1 ∧ (after (.rsqRelease 1 65533) (released true)).qba.admitQ = [] := by decide +kernel
/-- A handoff with a mirror, copied or not, with a copy of it waiting or none. -/
def handM (copied wait : Bool) : State :=
  let s := (allocBuf (pooled oneUsed) 0 0 0).2
  { s with rsq := { s.rsq with hand := [{ id := 3, src := 1, dst := 2, handle := mkHandle 1 0 0, mirror := some (mkHandle 0 0 0), copied := copied }] }, qba := { s.qba with admitQ := if wait then [{ adm false with hand := some 3 }] else [] } }
theorem witness_Handoff_mirror : (handM true false).handWaits 3 = false ∧ (handM true true).handWaits 3 = true ∧ (handM true false).allocated (mkHandle 0 0 0) = true ∧ (handM true false).allocated (mkHandle 1 0 0) = true := by decide +kernel
/-- R192, R245: the acknowledged handoff frees buffer and mirror; one not copied, or with a copy waiting, stays. -/
theorem test_handoff_mirror : [(true, false), (true, true), (false, false)].map (fun x => (((after (.handoffAck 3) (handM x.1 x.2)).allocated (mkHandle 1 0 0), (after (.handoffAck 3) (handM x.1 x.2)).allocated (mkHandle 0 0 0))))
    = [(false, false), (true, true), (true, true)] := by decide +kernel

/-! Rolk instructions. -/

/-- Words written out from the formats of R297 and the opcodes of R298: D = 3, A = 1, B = 2, IMM = 5 of the constants and 8 of loads and stores, BFX of 8 bits at 4 and BFI of 8 bits at 60, FLD and FST of 4 bytes at 128, OFF = -2, bit numbers 36 and 4, target 0x1234, CRC32C of 8 bytes, LKP of table 1 with U = 1, PHASE of 3, TRAP 0x12345. -/
def rolkCases0 : List (ROp × Word) :=
  [(.addx, 0x04611000), (.subx, 0x04611001), (.andx, 0x04611002), (.orx, 0x04611003), (.xorx, 0x04611004), (.shlx, 0x04611005), (.shrx, 0x04611006), (.sarx, 0x04611007), (.rotx, 0x04611008), (.minx, 0x04611009), (.maxx, 0x0461100A), (.mulx, 0x0461100B), (.popcx, 0x0461000C), (.clzx, 0x0461000D)]
def rolkCases1 : List (ROp × Word) :=
  [(.or16x, 0x44610005), (.or32x, 0x48610005), (.or48x, 0x4C610005), (.bfxx, 0x3C610107), (.bfix, 0x40610F07), (.ld8x, 0x50610008), (.ld16x, 0x54610008), (.ld32x, 0x58610008), (.ld64x, 0x5C610008), (.st8x, 0x60610008), (.st16x, 0x64610008), (.st32x, 0x68610008), (.st64x, 0x6C610008), (.fldx, 0x70618080)]
def rolkCases2 : List (ROp × Word) :=
  [(.fstx, 0x74618080), (.flenx, 0x0C610008), (.beqx, 0x8022FFFE), (.bnex, 0x8422FFFE), (.bltx, 0x8822FFFE), (.bgex, 0x8C22FFFE), (.bltux, 0x9022FFFE), (.bgeux, 0x9422FFFE), (.bbsx, 0x9C220004), (.bbcx, 0xA0220004), (.jx, 0xA8001234), (.jalx, 0xAC601234), (.jrx, 0x08610000), (.crc32cx, 0xC0611200)]
def rolkCases3 : List (ROp × Word) :=
  [(.hashx, 0xC0611001), (.twaitx, 0xC4010000), (.tdonex, 0xC4611101), (.tpostx, 0xC4611102), (.tdeferx, 0xC4611103), (.ballocx, 0xC8600000), (.bfreex, 0xC8610001), (.bsharex, 0xC8611102), (.bcheckx, 0xC8610003), (.lkpx, 0xCC611060), (.lrnx, 0xCC611001), (.lockx, 0xD0610000), (.trylockx, 0xD0610001), (.unlockx, 0xD0610002)]
def rolkCases4 : List (ROp × Word) :=
  [(.lkcleanx, 0xD0610003), (.lkforcex, 0xD0610004), (.evwaitx, 0xD4611000), (.evsigx, 0xD4611001), (.chputx, 0xD4611002), (.chclosex, 0xD4611003), (.chgetx, 0xD4611004), (.emitx, 0xD8611100), (.retirex, 0xD8611001), (.tohostx, 0xD8611102), (.stagex, 0xD8611103), (.phasex, 0xDC6000C0), (.supreadx, 0xE0611000), (.supstopx, 0xE0611001)]
def rolkCases5 : List (ROp × Word) :=
  [(.suprestartx, 0xE0611002), (.trapx, 0xF8012345), (.nopx, 0xFC000000)]
/-- All of them. -/
def rolkCases : List (ROp × Word) := rolkCases0 ++ rolkCases1 ++ rolkCases2 ++ rolkCases3 ++ rolkCases4 ++ rolkCases5

/-- Every word is its instruction. -/
theorem test_rolk_words : rolkCases.all (fun x => (decodeRolk x.2).any (fun i => i.op == x.1)) = true := by decide +kernel
/-- R297: operand fields of formats A, B, C and E. -/
theorem test_rolk_fields : (decodeRolk 0x04611000).map (fun i => (i.d, i.a, i.b)) = some (3, 1, 2) ∧ (decodeRolk 0x5C610008).map (fun i => (i.d, i.a, i.imm)) = some (3, 1, 8)
    ∧ (decodeRolk 0x8022FFFE).map (fun i => (i.a, i.b, i.imm)) = some (1, 2, 0xFFFE) ∧ (decodeRolk 0x9C220004).map (fun i => i.size) = some 34
    ∧ (decodeRolk 0xCC611060).map (fun i => (i.d, i.a, i.b, i.c, i.u)) = some (3, 1, 2, 1, true) := by decide +kernel
/-- R298, R304, R310: zero, reserved opcodes, an undefined FN, a reserved field and a K of 0 or 9 for CRC32C are illegal. -/
theorem test_rolk_illegal : [0x00000000, 0x78000000, 0xB0000000, 0xE4000000, 0xF4000000, 0x0461100E, 0x04611010, 0x20610040, 0xC0611000, 0xC0611240, 0xFC000001, 0xDC600100].all (fun w => (decodeRolk w).isNone) = true := by decide +kernel

/-- Thread 5 of die 0 in RUN at PC 7. -/
def thr0 (g : SMap DWord) : Thr := { st := .run, pc := 7, g := g }
/-- A word at its PC. -/
def at7 (w : Word) (s : State) : State := { s with cra := { s.cra with ps := [(7, w)] } }
/-- The thread with registers g and a word at its PC. -/
def code (w : Word) (g : SMap DWord) (s : State) : State := at7 w (s.putThr 0 5 (thr0 g))
/-- The instruction of a word. -/
def insOf (w : Word) : RIns := (decodeRolk w).getD { op := .nopx, d := 0, a := 0, b := 0, c := 0, u := false, immForm := false, imm := 0 }
/-- issues as a test. -/
def issuesB (s : State) (op : ROp) (i : RIns) : Bool :=
  decide (0 < s.dies) && s.canIssue 0 5 && !s.bpMatch 0 5 && decide (s.insn 0 5 = some i) && decide (i.op = op) && (!s.pastLimit 0 5 || endsCount op)
theorem issues_of (s : State) (op : ROp) (i : RIns) (h : issuesB s op i = true) : s.issues 0 5 op i := by
  simp only [issuesB, Bool.and_eq_true, decide_eq_true_eq, Bool.or_eq_true, Bool.not_eq_true'] at h
  obtain ⟨⟨⟨⟨⟨a, b⟩, c⟩, d⟩, e⟩, f⟩ := h
  exact ⟨a, b, c, d, e, fun g => f.resolve_left (by simp [g])⟩

theorem witness_RegisterZero : mrise 0 (thr0 [(3, 5)]).g = true := by decide
/-- Every instruction can issue: what AluInstructionsCompute, BitFieldsMove, BranchesAndJumps and the next statements need. -/
theorem witness_Rolk_issues : rolkCases.all (fun x => issuesB (code x.2 [(1, 4), (2, 6)] running) x.1 (insOf x.2)) = true := by decide +kernel
theorem witness_Branches_jr : issuesB (code 0x08610000 [(1, 0x7FFF)] running) .jrx (insOf 0x08610000) = true ∧ ((running.putThr 0 5 (thr0 [(1, 0x7FFF)])).thr 0 5).get 1 = 0x7FFF
    ∧ issuesB (code 0x08610000 [(1, 0x8000)] running) .jrx (insOf 0x08610000) = true := by decide +kernel
/-- g3 after one instruction on g1 = a and g2 = b. -/
def g3 (c : Instr) (w : Word) (a b : DWord) : DWord := ((after c (code w [(1, a), (2, b), (3, 0x1111111111111111)] running)).thr 0 5).get 3
theorem test_alu : g3 (.add 0 5) 0x04611000 (-1) 3 = 2 ∧ g3 (.sub 0 5) 0x04611001 2 3 = -1 ∧ g3 (.sar 0 5) 0x04611007 (-16) 66 = -4 ∧ g3 (.shr 0 5) 0x04611006 (-1) 63 = 1 ∧ g3 (.rot 0 5) 0x04611008 0x8000000000000001 4 = 0x18
    ∧ g3 (.minn 0 5) 0x04611009 (-1) 3 = -1 ∧ g3 (.maxx 0 5) 0x0461100A (-1) 3 = 3 ∧ g3 (.popc 0 5) 0x0461000C 0xFF00 0 = 8 ∧ g3 (.clz 0 5) 0x0461000D 0 0 = 64 ∧ g3 (.clz 0 5) 0x0461000D 1 0 = 63
    ∧ g3 (.orShift48 0 5) 0x4C610005 1 0 = 0x0005000000000001 := by decide +kernel
/-- R305: BFX takes bits [11:4]; BFI at 60 keeps four bits of the eight. -/
theorem test_bits : g3 (.bfx 0 5) 0x3C610107 0xABCD 0 = 0xBC ∧ g3 (.bfi 0 5) 0x40610F07 0xAB 0 = 0xB111111111111111 := by decide +kernel
theorem test_branch : ((after (.blt 0 5) (code 0x8822FFFE [(1, -1)] running)).thr 0 5).pc = 6 ∧ ((after (.bltu 0 5) (code 0x9022FFFE [(1, -1)] running)).thr 0 5).pc = 8
    ∧ ((after (.jal 0 5) (code 0xAC601234 [] running)).thr 0 5).pc = 0x1234 ∧ ((after (.jal 0 5) (code 0xAC601234 [] running)).thr 0 5).get 3 = 8 := by decide +kernel

/-- The bytes of R308's example from scratchpad address 8 on. -/
def padded : State := running.putPad 0 0 8 [0x12, 0x34, 0x56, 0x78]
theorem witness_Loads_good : issuesB (code 0x58610008 [] padded) .ld32x (insOf 0x58610008) = true ∧ padRead (code 0x58610008 [] padded) 0 (clusterOf 5) (padAddr (insOf 0x58610008) ((code 0x58610008 [] padded).thr 0 5)) 4 4 = .good := by decide +kernel
theorem witness_Loads_bad : issuesB (code 0x58610008 [(1, 1)] padded) .ld32x (insOf 0x58610008) = true ∧ padRead (code 0x58610008 [(1, 1)] padded) 0 (clusterOf 5) (padAddr (insOf 0x58610008) ((code 0x58610008 [(1, 1)] padded).thr 0 5)) 4 4 = .bad 2 9 := by decide +kernel
theorem witness_Stores_good : issuesB (code 0x6C610008 [] padded) .st64x (insOf 0x6C610008) = true ∧ padAccess (padAddr (insOf 0x6C610008) ((code 0x6C610008 [] padded).thr 0 5)) 8 8 = .good := by decide +kernel
theorem witness_Stores_bad : issuesB (code 0x6C610008 [(1, 0x3FFF8)] padded) .st64x (insOf 0x6C610008) = true ∧ padAccess (padAddr (insOf 0x6C610008) ((code 0x6C610008 [(1, 0x3FFF8)] padded).thr 0 5)) 8 8 = .bad 3 0x40000 := by decide +kernel
theorem witness_Stores_mem : padded.memWf := (inv_of _ (by decide +kernel)).1
theorem test_load : ((after (.ld32 0 5) (code 0x58610008 [] padded)).thr 0 5).get 3 = 0x12345678 := by decide +kernel
theorem test_store : ((after (.st16 0 5) (code 0x64610008 [(3, 0xABCDEF)] padded)).padBytes 0 0 7 6) = [0, 0xCD, 0xEF, 0x56, 0x78, 0] := by decide +kernel

/-- Die 0 with a pool of class 0 and its first buffer in use, FLEN = 64 in its vector. -/
def buf0 : State := (allocBuf (clearPool (running.setReg .BPM_POOL_CNT 0 [0] 4) 0 0) 0 0 0).2.putQuay (mkHandle 0 0 0) 100 [0, 64]
/-- Its handle as a register value. -/
def h0 : DWord := BitVec.ofNat 64 (mkHandle 0 0 0)
theorem witness_Frame_fld : issuesB (code 0x70618080 [(1, h0)] buf0) .fldx (insOf 0x70618080) = true ∧ (countSlot (code 0x70618080 [(1, h0)] buf0) 0 5).handleGood 0 (handleOf h0) = true
    ∧ frameOff (insOf 0x70618080) (thr0 [(1, h0)]) + (insOf 0x70618080).size ≤ 128 + (countSlot (code 0x70618080 [(1, h0)] buf0) 0 5).frameLen (handleOf h0) := by decide +kernel
theorem witness_Frame_badhandle : [(ROp.fldx, (0x70618080 : Word)), (.fstx, 0x74618080)].all (fun x => issuesB (code x.2 [(1, 7)] buf0) x.1 (insOf x.2) && !(countSlot (code x.2 [(1, 7)] buf0) 0 5).handleGood 0 (handleOf 7)) = true := by decide +kernel
/-- FLD and FST of 4 bytes at gb (opcode 0x03, FN 2 and 6), FST at 127. -/
theorem witness_Frame_out : issuesB (code 0x0C611002 [(1, h0), (2, 189)] buf0) .fldx (insOf 0x0C611002) = true ∧ 128 + (countSlot (code 0x0C611002 [(1, h0), (2, 189)] buf0) 0 5).frameLen (handleOf h0) < frameOff (insOf 0x0C611002) (thr0 [(1, h0), (2, 189)]) + 4
    ∧ issuesB (code 0x0C611006 [(1, h0), (2, 127)] buf0) .fstx (insOf 0x0C611006) = true ∧ frameOff (insOf 0x0C611006) (thr0 [(1, h0), (2, 127)]) < 128 := by decide +kernel
theorem witness_Frame_fst : issuesB (code 0x74618080 [(1, h0)] buf0) .fstx (insOf 0x74618080) = true ∧ 128 ≤ frameOff (insOf 0x74618080) (thr0 [(1, h0)]) ∧ (countSlot (code 0x74618080 [(1, h0)] buf0) 0 5).handleGood 0 (handleOf h0) = true := by decide +kernel
theorem witness_Frame_flen : issuesB (code 0x0C610008 [(1, h0)] buf0) .flenx (insOf 0x0C610008) = true ∧ (countSlot (code 0x0C610008 [(1, h0)] buf0) 0 5).handleGood 0 (handleOf h0) = true
    ∧ issuesB (code 0x0C610008 [(1, 7)] buf0) .flenx (insOf 0x0C610008) = true ∧ (countSlot (code 0x0C610008 [(1, 7)] buf0) 0 5).handleGood 0 (handleOf 7) = false := by decide +kernel
theorem test_flen : ((after (.flen 0 5) (code 0x0C610008 [(1, h0)] buf0)).thr 0 5).pend.map (·.value) = some 64 := by decide +kernel

theorem witness_Values : (code 0xC0611200 [(1, 4), (2, 6)] running).Inv ∧ issuesB (code 0xC0611200 [(1, 4), (2, 6)] running) .crc32cx (insOf 0xC0611200) = true ∧ issuesB (code 0xC0611001 [] running) .hashx (insOf 0xC0611001) = true
    ∧ issuesB (code 0xDC6000C0 [] running) .phasex (insOf 0xDC6000C0) = true ∧ issuesB (code 0xC8610003 [] running) .bcheckx (insOf 0xC8610003) = true := ⟨inv_of _ (by decide +kernel), by decide +kernel⟩
/-- R310 on "12345678", then the ninth digit by hand: CRC32C leaves the register before the final XOR. -/
theorem test_crc_instruction : ((after (.crc32c 0 5) (code 0xC0611200 [(1, 0xFFFFFFFF), (2, 0x3132333435363738)] running)).thr 0 5).pend.map (fun p => Nat.xor (crc32cFeed p.value.toNat [0x39]) 0xFFFFFFFF) = some 0xE3069283 := by decide +kernel
/-- R319: thread 5 of die 0 in core 0, cluster 0; die 0 holds the lead. -/
theorem test_phase_place : ((after (.phase 0 5) (code 0xDC6000C0 [] running)).thr 0 5).pend.map (·.value) = some 0x1000000050005 := by decide +kernel

theorem witness_Buffers_balloc : issuesB (code 0xC8600000 [] buf0) .ballocx (insOf 0xC8600000) = true ∧ (allocBuf (countSlot (code 0xC8600000 [] buf0) 0 5) 0 0 0).1 = some (mkHandle 0 0 256)
    ∧ issuesB (code 0xC8600000 [] running) .ballocx (insOf 0xC8600000) = true ∧ (allocBuf (countSlot (code 0xC8600000 [] running) 0 5) 0 0 0).1 = none := by decide +kernel
/-- BFREE of the first buffer under different share entries. -/
def freed (x : Option Share) (h : DWord) : State := code 0xC8610001 [(1, h)] (match x with
  | some y => buf0.setShare (mkHandle 0 0 0) y
  | none => buf0)
/-- Its outcome. -/
def freeRes (x : Option Share) (h : DWord) : FreeRes := (bfree (countSlot (freed x h) 0 5) 0 (handleOf h) (threadCloser 5)).1
theorem witness_Buffers_bfree : issuesB (freed none h0) .bfreex (insOf 0xC8610001) = true ∧ freeRes none h0 = .done ∧ freeRes none 7 = .bad ∧ freeRes none (BitVec.ofNat 64 (mkHandle 0 0 256)) = .double
    ∧ freeRes (some { refs := 1, closer := 6 }) h0 = .notCloser ∧ freeRes (some { refs := 2, closer := 5 }) h0 = .early ∧ freeRes (some { refs := 2, closer := 6 }) h0 = .done := by decide +kernel
theorem witness_Buffers_bshare : issuesB (code 0xC8611102 [(1, h0), (2, 3), (4, 0x4001)] buf0) .bsharex (insOf 0xC8611102) = true ∧ closerOk (((thr0 [(4, 0x4001)]).get 4).toNat % 65536) = true
    ∧ (code 0xC8611102 [(1, h0), (2, 3), (4, 0x4001)] buf0).shareOf (mkHandle 0 0 0) = none ∧ buf0.shareUsed 0 < 4096 := by decide +kernel
theorem witness_Buffers_raise : (buf0.setShare (mkHandle 0 0 0) { refs := 2, closer := 5 }).shareOf (mkHandle 0 0 0) = some { refs := 2, closer := threadCloser 5 } := by decide +kernel
/-- A share table of die 0 with 4,096 entries. -/
def fullShare : State := { buf0 with bpm := { buf0.bpm with share := (List.range 4096).map (fun i => (256 * (i + 1), { refs := 1, closer := 5 })) } }
theorem witness_Buffers_full : 4096 ≤ fullShare.shareUsed 0 ∧ fullShare.shareOf (mkHandle 0 0 0) = none := by decide +kernel

/-- BSHARE of a bad handle, of no reference and of 65,536, and for a closer with bit 9 set. -/
def shareS (h b c : DWord) : State := code 0xC8611102 [(1, h), (2, b), (4, c)] buf0
theorem witness_Buffers_bad : [(7, 1, 5), (h0, 0, 5), (h0, 65536, 5), (h0, 1, 512)].all (fun x => issuesB (shareS x.1 x.2.1 x.2.2) .bsharex (insOf 0xC8611102)) = true
    ∧ (countSlot (shareS 7 1 5) 0 5).handleGood 0 (handleOf 7) = false ∧ (countSlot (shareS h0 0 5) 0 5).handleGood 0 (handleOf h0) = true ∧ closerOk 512 = false ∧ closerOk 5 = true := by decide +kernel
theorem witness_Buffers_others : (threadCloser 6 ≠ threadCloser 5) ∧ 65535 < 65535 + (1 : DWord).toNat ∧ 65534 + (1 : DWord).toNat ≤ 65535 := by decide
/-- R180, R302: a thread that is not the closer faults with code 6, and a sum past the largest count with code 3. -/
theorem test_bshare : (after (.bshare 0 5) (code 0xC8611102 [(1, h0), (2, 1), (4, 5)] (buf0.setShare (mkHandle 0 0 0) { refs := 2, closer := 6 }))).reg .CRA_FAULTS 0 [5] = 1
    ∧ (after (.bshare 0 5) (code 0xC8611102 [(1, h0), (2, 1), (4, 5)] (buf0.setShare (mkHandle 0 0 0) { refs := 65535, closer := 5 }))).reg .CRA_FAULTS 0 [2] = 1 := by decide +kernel

/-- Units of die 0 in their restart. -/
def downS (u : Nat) (s : State) : State := { s with icu := { s.icu with unit := [(0, u)] } }

/-- LKP of the L2 table (K = 1), of flow keys, LPM and USER with K = 2 to 5. -/
def lkpW (k : Nat) : Word := 0xCC611020 + BitVec.ofNat 32 (k * 64)
theorem witness_Tables_user : [5, 6].all (fun k => issuesB (code (lkpW k) [(2, 56)] running) .lkpx (insOf (lkpW k)) && decide ((insOf (lkpW k)).c = k)) = true ∧ ((thr0 [(2, 56)]).get 2).toNat ≤ 56 ∧ ((thr0 [(2, 56)]).get 2).toNat % 8 = 0
    ∧ 56 < ((thr0 [(2, 57)]).get 2).toNat ∧ ((thr0 [(2, 4)]).get 2).toNat % 8 ≠ 0 := by decide +kernel
theorem witness_Tables_down : padRead (code (lkpW 2) [] (downS unitFwt running)) 0 0 0 40 8 = .good ∧ [1, 2, 3, 4].all (fun k => issuesB (code (lkpW k) [] (downS unitFwt running)) .lkpx (insOf (lkpW k))) = true ∧ (downS unitFwt running).unitDown 0 unitFwt = true := by decide +kernel
/-- R316: the eight bytes written at 56 are read there; the written value stands in g6, the register that field C names beside K = 6. -/
theorem test_user : ((after (.lkp 0 5) (code (lkpW 6) [(2, 56), (6, 0xABCD)] running)).ctx 0 0).userBytes 56 = beBytes 8 0xABCD := by decide +kernel
theorem witness_Tables_lkp : [1, 2, 3, 4, 5].all (fun k => issuesB (code (lkpW k) [] running) .lkpx (insOf (lkpW k)) && decide ((insOf (lkpW k)).c = k)) = true ∧ running.unitDown 0 unitFwt = false
    ∧ padRead (code (lkpW 2) [] running) 0 (clusterOf 5) 0 40 8 = .good ∧ bitsOf ((thr0 []).get 1).toNat 18 16 = 0 ∧ bitsOf ((thr0 [(1, 0x10000)]).get 1).toNat 18 16 ≠ 0 := by decide +kernel
/-- A key of 40 zero bytes of profile 0 hits the entry of slot 3. -/
theorem witness_Tables_hit : (flowLookup (countSlot (code (lkpW 2) [] (fls (fle false true))) 0 5) 0 0 ((code (lkpW 2) [] (fls (fle false true))).padBytes 0 0 0 40)).1 = some (fle false true) := by decide +kernel
/-- Port 0 enabled with learning on and off. -/
def learnS (on : Bool) (down : Bool) : State :=
  let s := ((running.setReg .LPX_PORT_CFG 0 [0] (packWord [(31, 1), (16, 3), (0, 1518)])).setRf .FWT_CFG 0 [] 31 31 (b2n on)).setRf .FWT_PORT_CFG 0 [0] 31 31 (b2n on)
  code 0xCC611001 [(1, 0x70200000000AA)] { s with icu := { s.icu with unit := if down then [(0, unitFwt)] else [] } }
theorem witness_Tables_lrn : [true, false].all (fun on => [true, false].all (fun down => issuesB (learnS on down) .lrnx (insOf 0xCC611001) && (countSlot (learnS on down) 0 5).isPort 0 && ((countSlot (learnS on down) 0 5).learnOn 0 0 == on)
    && ((learnS on down).unitDown 0 unitFwt == down))) = true := by decide +kernel
theorem witness_Tables_lane : issuesB (code 0xCC611001 [(2, 1)] (learnS true false)) .lrnx (insOf 0xCC611001) = true ∧ (countSlot (code 0xCC611001 [(2, 1)] (learnS true false)) 0 5).isPort (0 * 4 + 1) = false := by decide +kernel
theorem test_lrn : ((after (.lrn 0 5) (learnS true false)).learnQ 0).length = 1 ∧ ((after (.lrn 0 5) (learnS false false)).thr 0 5).pend.map (·.value) = some (codeWord 0x1A) := by decide +kernel

/-- Thread 5 enabled, and ready list 3 and delay list 0 of die 0 with room. -/
def tdx0 : State := ((running.setReg .CRA_THREAD_EN 0 [0] 0xFFFF).setReg .TDX_RL_CFG 0 [3] 100).setRf .TDX_DL_LIMIT 0 [0] 16 0 100
/-- With a ticket held over an entry of die 0. -/
def holding (w : Word) (g : SMap DWord) : State := at7 w ((tdx0.setRob 0 6 { rob0 .pending 0 0 with flow := 9 }).putThr 0 5 { thr0 g with ticket := some 6 })
theorem witness_Tasks_twait : issuesB (code 0xC4010000 [] tdx0) .twaitx (insOf 0xC4010000) = true ∧ issuesB (holding 0xC4010000 []) .twaitx (insOf 0xC4010000) = true ∧ ((holding 0xC4010000 []).thr 0 5).ticket = some 6
    ∧ issuesB (code 0xC4611101 [] tdx0) .tdonex (insOf 0xC4611101) = true ∧ tdx0.unitDown 0 unitTdx = false := by decide +kernel
/-- A descriptor for list 3 and entry 9, with a delay and a remote die. -/
def desc (delay die : Nat) : DWord := BitVec.ofNat 64 (delay * 2 ^ 32 + (if die = 0 then 0 else 2 ^ 24 + die * 2 ^ 21) + 3 * 2 ^ 15 + 9)
/-- The task of that descriptor. -/
def task0 (w : Word) (dl die : Nat) : Task := taskOf (desc dl die).toNat ((code w [(1, desc dl die)] tdx0).padWords 0 0 0 6) 0 none
theorem witness_Tasks_tpost : issuesB (code 0xC4611102 [(1, desc 0 0)] tdx0) .tpostx (insOf 0xC4611102) = true ∧ bitsOf (desc 0 0).toNat 31 25 = 0 ∧ bitsOf (desc 0 0).toNat 24 24 = 0
    ∧ padRead (code 0xC4611102 [(1, desc 0 0)] tdx0) 0 (clusterOf 5) 0 48 8 = .good ∧ (tryPost (countSlot (code 0xC4611102 [(1, desc 0 0)] tdx0) 0 5) 0 (task0 0xC4611102 0 0) 0).1 = 0
    ∧ (tryPost (countSlot (code 0xC4611102 [(1, desc 0 0)] (tdx0.setReg .TDX_RL_CFG 0 [3] 0)) 0 5) 0 (task0 0xC4611102 0 0) 0).1 ≠ 0 := by decide +kernel
theorem witness_Tasks_remote : bitsOf (desc 0 1).toNat 24 24 = 1 ∧ bitsOf (desc 0 1).toNat 23 21 ∈ (code 0xC4611102 [(1, desc 0 1)] tdx0).liveDies ∧ issuesB (code 0xC4611102 [(1, desc 0 1)] tdx0) .tpostx (insOf 0xC4611102) = true
    ∧ bitsOf (desc 0 2).toNat 23 21 ∉ ({ code 0xC4611102 [(1, desc 0 2)] tdx0 with part := .hx1620 } : State).liveDies := by decide +kernel
theorem test_tpost : ((after (.tpost 0 5) (code 0xC4611102 [(1, desc 0 0)] tdx0)).readyList 0 3).map (·.entry) = [9] ∧ ((after (.tpost 0 5) (code 0xC4611102 [(1, desc 7 0)] tdx0)).delayList 0 0).map (·.e) = [7] := by decide +kernel
theorem witness_Tasks_tdefer : issuesB (code 0xC4611103 [] tdx0) .tdeferx (insOf 0xC4611103) = true ∧ ((code 0xC4611103 [] tdx0).thr 0 5).ticket = none
    ∧ issuesB (holding 0xC4611103 [(1, desc 0 0)]) .tdeferx (insOf 0xC4611103) = true ∧ bitsOf (desc 0 0).toNat 31 24 = 0 ∧ padRead (holding 0xC4611103 [(1, desc 0 0)]) 0 (clusterOf 5) 0 32 8 = .good
    ∧ (holding 0xC4611103 [(1, desc 0 0)]).rob 0 6 = some { rob0 .pending 0 0 with flow := 9 }
    ∧ (tryPost (countSlot (holding 0xC4611103 [(1, desc 0 0)]) 0 5) 0 (taskOf (desc 0 0).toNat (firstWords 6 { rob0 .pending 0 0 with flow := 9 } ++ (holding 0xC4611103 [(1, desc 0 0)]).padWords 0 0 0 4) (ticketKey 9) (some 6)) 0).1 = 0 := by decide +kernel

theorem witness_Tasks_down : [(ROp.tdonex, (0xC4611101 : Word)), (.tpostx, 0xC4611102)].all (fun x => issuesB (code x.2 [(1, desc 0 0)] (downS unitTdx tdx0)) x.1 (insOf x.2)) = true ∧ (downS unitTdx tdx0).unitDown 0 unitTdx = true
    ∧ issuesB (downS unitTdx (holding 0xC4611103 [(1, desc 0 0)])) .tdeferx (insOf 0xC4611103) = true := by decide +kernel
theorem witness_Tasks_fields : bitsOf (2 ^ 25 : DWord).toNat 31 25 ≠ 0 ∧ issuesB (code 0xC4611102 [(1, 2 ^ 25)] tdx0) .tpostx (insOf 0xC4611102) = true ∧ bitsOf (2 ^ 24 : DWord).toNat 31 24 ≠ 0
    ∧ issuesB (holding 0xC4611103 [(1, 2 ^ 24)]) .tdeferx (insOf 0xC4611103) = true ∧ issuesB (holding 0xC4611101 []) .tdonex (insOf 0xC4611101) = true := by decide +kernel
theorem witness_Tasks_refused : (tryPost (countSlot ((holding 0xC4611103 [(1, desc 0 0)]).setReg .TDX_RL_CFG 0 [3] 0) 0 5) 0 (taskOf (desc 0 0).toNat (firstWords 6 { rob0 .pending 0 0 with flow := 9 } ++ (holding 0xC4611103 [(1, desc 0 0)]).padWords 0 0 0 4) (ticketKey 9) (some 6)) 0).1 ≠ 0 := by decide +kernel

/-- A lock 7 of die 0. -/
def lockS (w : Word) (x : Lock) (super : Bool) : State := code w [(1, 7)] ((running.setLock 0 7 x).setReg .CRA_SUPER 0 [0] (if super then 0x80000005 else 0))
theorem witness_Locks : [(ROp.lockx, (0xD0610000 : Word)), (.trylockx, 0xD0610001), (.unlockx, 0xD0610002), (.lkcleanx, 0xD0610003), (.lkforcex, 0xD0610004)].all (fun x => [none, some 5, some 9].all (fun h =>
      issuesB (lockS x.2 { holder := h } true) x.1 (insOf x.2) && decide (((lockS x.2 { holder := h } true).lock 0 7).holder = h) && !(lockS x.2 { holder := h } true).unitDown 0 unitSyu)) = true
    ∧ (countSlot (lockS 0xD0610004 {} true) 0 5).superOf 0 0 = some 5 ∧ (countSlot (lockS 0xD0610004 {} false) 0 5).superOf 0 0 = none := by decide +kernel
/-- A lock number of 16,384, and the unit in its restart. -/
theorem witness_Locks_range : [(ROp.lockx, (0xD0610000 : Word)), (.trylockx, 0xD0610001), (.unlockx, 0xD0610002), (.lkcleanx, 0xD0610003), (.lkforcex, 0xD0610004)].all (fun x => issuesB (code x.2 [(1, 16384)] (running.setReg .CRA_SUPER 0 [0] 0x80000005)) x.1 (insOf x.2)
    && issuesB (downS unitSyu (lockS x.2 {} true)) x.1 (insOf x.2)) = true ∧ (downS unitSyu running).unitDown 0 unitSyu = true := by decide +kernel
/-- R368: with an UNLOCK in the same cycle the force does nothing and answers outcome 0x21. -/
theorem test_lkforce : ((after (.lkforce 0 ⟨5, true⟩) (lockS 0xD0610004 { holder := some 9 } true)).thr 0 5).pend.map (·.value) = some (codeWord 0x21) ∧ ((after (.lkforce 0 ⟨5, true⟩) (lockS 0xD0610004 { holder := some 9 } true)).lock 0 7).holder = some 9
    ∧ ((after (.lkforce 0 ⟨5, false⟩) (lockS 0xD0610004 { holder := some 9 } true)).lock 0 7).holder = none := by decide +kernel
theorem test_lock : ((after (.lock 0 5) (lockS 0xD0610000 { abandoned := true } false)).thr 0 5).get 3 = 1 ∧ ((after (.lock 0 5) (lockS 0xD0610000 { holder := some 9 } false)).lock 0 7).waiters = [5]
    ∧ ((after (.trylock 0 5) (lockS 0xD0610001 { holder := some 9 } false)).thr 0 5).pend.map (·.value) = some (codeWord 0x20) := by decide +kernel
/-- The lock granted to thread 6 that waited for it. -/
def grantS : State := (running.setLock 0 7 { holder := some 6 }).putThr 0 6 { thr0 [] with st := .sync, wait := some (.lock 7), pend := some { rd := 3, value := 1, err := 0, u := false, kind := .grant 7, arrived := false } }
theorem witness_Locks_grant : grantS.granted 0 7 = some 6 ∧ (grantS.thr 0 6).pend = some { rd := 3, value := 1, err := 0, u := false, kind := .grant 7, arrived := false } := by decide +kernel

/-- Event 7 with a count, channel 7 with messages. -/
def evS (w : Word) (n : Nat) : State := code w [(1, 7)] (running.setEv 0 0 7 { count := n })
theorem witness_Events : [0, 2].all (fun n => issuesB (evS 0xD4611000 n) .evwaitx (insOf 0xD4611000) && decide (((evS 0xD4611000 n).ev 0 0 7).count = n)) = true ∧ issuesB (evS 0xD4611001 0) .evsigx (insOf 0xD4611001) = true
    ∧ issuesB (code 0xD4611001 [(1, 1023)] running) .evsigx (insOf 0xD4611001) = true ∧ running.unitDown 0 unitSyu = false := by decide +kernel
theorem test_event : ((after (.evwait 0 5) (evS 0xD4611000 2)).thr 0 5).get 3 = 1 ∧ ((after (.evwait 0 5) (evS 0xD4611000 0)).thr 0 5).st = .sync := by decide +kernel
/-- The thread with words staged for a channel. -/
def staged (w : Word) (l : List DWord) (ch : Nat) : State := at7 w (running.putThr 0 5 { thr0 [(1, 7), (2, 64)] with staged := l, stagedCh := ch })
theorem witness_Channels_put : issuesB (staged 0xD4611002 [1] 7) .chputx (insOf 0xD4611002) = true ∧ ((staged 0xD4611002 [1] 7).thr 0 5).staged.length < 8 ∧ ((staged 0xD4611002 [1] 7).thr 0 5).stagedCh = 7
    ∧ 8 ≤ ((staged 0xD4611002 (List.replicate 8 1) 7).thr 0 5).staged.length ∧ ((staged 0xD4611002 [1] 6).thr 0 5).stagedCh ≠ 7 := by decide +kernel
/-- Channel 7 full with its reset capacity. -/
def chanFull : State := (staged 0xD4611003 [1] 7).setChan 0 0 7 { msgs := List.replicate 2048 [1] }
theorem witness_Channels_close : issuesB (staged 0xD4611003 [1] 7) .chclosex (insOf 0xD4611003) = true ∧ (countSlot (staged 0xD4611003 [1] 7) 0 5).chFull 0 0 7 1 = false ∧ (countSlot chanFull 0 5).chFull 0 0 7 1 = true
    ∧ issuesB chanFull .chclosex (insOf 0xD4611003) = true ∧ issuesB (staged 0xD4611003 [] 0) .chclosex (insOf 0xD4611003) = true := by decide +kernel
theorem witness_Syu_down : [(ROp.evsigx, (0xD4611001 : Word)), (.chputx, 0xD4611002), (.chclosex, 0xD4611003)].all (fun x => issuesB (downS unitSyu (code x.2 [(1, 7)] running)) x.1 (insOf x.2)) = true := by decide +kernel
theorem witness_Channels_get : issuesB ((staged 0xD4611004 [] 0).setChan 0 0 7 { msgs := [[9, 8]] }) .chgetx (insOf 0xD4611004) = true ∧ padAccess 64 64 8 = .good ∧ ((staged 0xD4611004 [] 0).chan 0 0 7).msgs = [] := by decide +kernel
theorem test_chget : ((after (.chget 0 5) ((staged 0xD4611004 [] 0).setChan 0 0 7 { msgs := [[9, 8]] })).thr 0 5).get 3 = 2 ∧ (after (.chget 0 5) ((staged 0xD4611004 [] 0).setChan 0 0 7 { msgs := [[9, 8]] })).padWords 0 0 64 2 = [9, 8] := by decide +kernel

/-- Entry 6 of die 0 pending for the first buffer, named by g2. -/
def endS (w : Word) (g4 : DWord) : State :=
  at7 w ((buf0.setRob 0 6 { rob0 .pending 0 0 with flow := 9, frame := { rxd with handle := mkHandle 0 0 0 } }).putThr 0 5 { thr0 [(1, h0), (2, BitVec.ofNat 64 (9 * 2 ^ 32 + 6 * 2 ^ 51)), (4, g4)] with ticket := some 6 })
theorem witness_Tickets : [(ROp.emitx, (0xD8611100 : Word)), (.stagex, 0xD8611103), (.retirex, 0xD8611001), (.tohostx, 0xD8611102)].all (fun x => issuesB (endS x.2 40000) x.1 (insOf x.2)) = true
    ∧ (endS 0xD8611100 40000).namedEntry 0 (BitVec.ofNat 64 (9 * 2 ^ 32 + 6 * 2 ^ 51)) = some (6, { rob0 .pending 0 0 with flow := 9, frame := { rxd with handle := mkHandle 0 0 0 } })
    ∧ (countSlot (endS 0xD8611100 40000) 0 5).handleGood 0 (handleOf h0) = true ∧ (endS 0xD8611100 40000).allocated (mkHandle 0 0 0) = true ∧ (endS 0xD8611100 40000).shareOf (mkHandle 0 0 0) = none
    ∧ (countSlot (endS 0xD8611100 40000) 0 5).destOk 40000 false = true ∧ (countSlot (endS 0xD8611103 40000) 0 5).destOk 40000 true = true ∧ (countSlot (endS 0xD8611100 40000) 0 5).editValid 0 (bitsOf 40000 39 32) = true
    ∧ (bfree (countSlot (endS 0xD8611001 40000) 0 5) 0 (mkHandle 0 0 0) (threadCloser 5)).1 = .done := by decide +kernel
theorem test_emit : ((after (.emit 0 5) (endS 0xD8611100 40000)).rob 0 6).map (fun r => (r.st, r.dest)) = some (.emitted, 40000) ∧ ((after (.emit 0 5) (endS 0xD8611100 40000)).thr 0 5).ticket = none
    ∧ ((after (.retire 0 5) (endS 0xD8611001 0)).rob 0 6).map (·.st) = some .retired ∧ (after (.retire 0 5) (endS 0xD8611001 0)).allocated (mkHandle 0 0 0) = false ∧ (after (.retire 0 5) (endS 0xD8611001 0)).reg .RSQ_RETIRED 0 [] = 1 := by decide +kernel

/-- The entry is skipped; and a g2 that names none. -/
theorem witness_Tickets_skipped : ((endS 0xD8611100 40000).setRob 0 6 { rob0 .skipped 0 0 with flow := 9, frame := { rxd with handle := mkHandle 0 0 0 } }).namedEntry 0 (BitVec.ofNat 64 (9 * 2 ^ 32 + 6 * 2 ^ 51)) = some (6, { rob0 .skipped 0 0 with flow := 9, frame := { rxd with handle := mkHandle 0 0 0 } })
    ∧ (endS 0xD8611100 40000).namedEntry 0 7 = none ∧ ((0xFFFF : DWord).toNat < 65536) := by decide +kernel
/-- A skipped entry is freed whatever the program decided. -/
theorem test_skipped : (after (.emit 0 5) ((endS 0xD8611100 40000).setRob 0 6 { rob0 .skipped 0 0 with flow := 9, frame := { rxd with handle := mkHandle 0 0 0 } })).rob 0 6 = none := by decide +kernel

/-- Thread 9 runs; thread 5 is the supervisor or not and names thread 9. -/
def supS (w : Word) (super : Bool) : State := code w [(1, 9), (2, 32)] ((running.setReg .CRA_SUPER 0 [0] (if super then 0x80000005 else 0)).putThr 0 9 { thr0 [(4, 44)] with pc := 77 })
theorem witness_Supervisor : [(ROp.supreadx, (0xE0611000 : Word)), (.supstopx, 0xE0611001), (.suprestartx, 0xE0611002)].all (fun x => [true, false].all (fun b => issuesB (supS x.2 b) x.1 (insOf x.2))) = true
    ∧ (supS 0xE0611000 true).superOf 0 0 = some 5 ∧ (supS 0xE0611000 false).superOf 0 0 ≠ some 5 ∧ ((supS 0xE0611000 true).thr 0 9).st ≠ .idle := by decide +kernel
theorem witness_Supervisor_inv : (supS 0xE0611000 true).Inv ∧ (supS 0xE0611000 false).Inv := ⟨inv_of _ (by decide +kernel), inv_of _ (by decide +kernel)⟩
/-- A target of 64, the supervisor itself as the target, and a target that has faulted. -/
theorem witness_Supervisor_range : [(ROp.supreadx, (0xE0611000 : Word)), (.supstopx, 0xE0611001), (.suprestartx, 0xE0611002)].all (fun x => [(64 : DWord), 5].all (fun a => issuesB (code x.2 [(1, a), (2, 36)] (running.setReg .CRA_SUPER 0 [0] 0x80000005)) x.1 (insOf x.2))) = true
    ∧ ((code 0xE0611001 [(1, 9)] ((running.setReg .CRA_SUPER 0 [0] 0x80000005).putThr 0 9 { thr0 [] with st := .faulted })).thr 0 9).st = .faulted := by decide +kernel
/-- R295: in the cycle of the target's fault the stop does nothing. -/
theorem test_supstop_fault : [true, false].map (fun same => ((after (.supstop 0 ⟨5, same⟩) (code 0xE0611001 [(1, 9)] ((running.setReg .CRA_SUPER 0 [0] 0x80000005).putThr 0 9 { thr0 [] with st := .faulted }))).thr 0 9).st) = [.faulted, .stopped] := by decide +kernel
theorem test_supread : ((after (.supread 0 5) (supS 0xE0611000 true)).thr 0 5).pend.map (·.value) = some 77 ∧ ((after (.supstop 0 ⟨5, false⟩) (supS 0xE0611001 true)).thr 0 9).st = .stopped
    ∧ ((after (.supstop 0 ⟨5, false⟩) (supS 0xE0611001 false)).thr 0 5).st = .faulted := by decide +kernel
theorem witness_Traps : (code 0xF8012345 [] running).Inv ∧ issuesB (code 0xF8012345 [] running) .trapx (insOf 0xF8012345) = true ∧ (code 0xF8012345 [] running).superOf 0 0 = none ∧ (code 0xF8012345 [] running).trcRun 0 = false := ⟨inv_of _ (by decide +kernel), by decide +kernel⟩
theorem test_trap : (after (.trap 0 5) (code 0xF8012345 [] running)).reg .CRA_FAULTS 0 [9] = 1 ∧ ((after (.trap 0 5) (code 0xF8012345 [] running)).gwe.evq.map (·.code)) = [0x0601] := by decide +kernel
/-- A wait that meets the unit's restart, in a thread that runs, steps, or steps its last slot; the thread exempt or not. -/
def restarting (c : Word) (k : Nat) : State := (downS unitSyu (code c [(1, 7), (2, 64)] running)).modThr 0 5 (fun x => { x with step := k })
theorem witness_Syu_waits : [(ROp.lockx, (0xD0610000 : Word)), (.evwaitx, 0xD4611000), (.chgetx, 0xD4611004)].all (fun x => [0, 1, 2].all (fun k => issuesB (restarting x.2 k) x.1 (insOf x.2) && decide (((restarting x.2 k).thr 0 5).step = k))) = true
    ∧ [(ROp.lkforcex, (0xD0610004 : Word)), (.lkcleanx, 0xD0610003)].all (fun x => issuesB (downS unitSyu (lockS x.2 {} true)) x.1 (insOf x.2)) = true := by decide +kernel
/-- R293, R367: a step at such a wait is not over, and the thread stays in RUN; a LKFORCE there is answered by the restart. -/
theorem test_syu_waits : [0, 1].map (fun k => (((after (.lock 0 5) (restarting 0xD0610000 k)).thr 0 5).st, ((after (.lock 0 5) (restarting 0xD0610000 k)).thr 0 5).step, ((after (.lock 0 5) (restarting 0xD0610000 k)).thr 0 5).pc)) = [(.run, 0, 7), (.run, 1, 7)]
    ∧ ((after (.lkforce 0 ⟨5, false⟩) (downS unitSyu (lockS 0xD0610004 {} true))).thr 0 5).pend.map (·.err) = some 2 := by decide +kernel
/-- Event 1,024, channel 256, and a CHGET to an address past the scratchpad and to one that is no multiple of 8. -/
theorem witness_Events_range : issuesB (code 0xD4611000 [(1, 1024)] running) .evwaitx (insOf 0xD4611000) = true ∧ [(ROp.chputx, (0xD4611002 : Word)), (.chclosex, 0xD4611003), (.chgetx, 0xD4611004)].all (fun x => issuesB (code x.2 [(1, 256), (2, 64)] running) x.1 (insOf x.2)) = true
    ∧ [(0x3FFF8 : DWord), 4].all (fun a => issuesB (code 0xD4611004 [(1, 7), (2, a)] running) .chgetx (insOf 0xD4611004) && decide (padAccess a 64 8 ≠ .good)) = true := by decide +kernel
/-- R317: each ends in its range fault, a CHGET at 4 in its alignment fault. -/
theorem test_events_range : [(Instr.evwait 0 5, code 0xD4611000 [(1, 1024)] running), (.chput 0 5, code 0xD4611002 [(1, 256)] running), (.chclose 0 5, code 0xD4611003 [(1, 256)] running), (.chget 0 5, code 0xD4611004 [(1, 256), (2, 64)] running),
      (.chget 0 5, code 0xD4611004 [(1, 7), (2, 0x3FFF8)] running), (.chget 0 5, code 0xD4611004 [(1, 7), (2, 4)] running)].map (fun x => ((after x.1 x.2).reg .CRA_FAULTS 0 [2], (after x.1 x.2).reg .CRA_FAULTS 0 [1])) = [(1, 0), (1, 0), (1, 0), (1, 0), (1, 0), (0, 1)] := by decide +kernel

/-- The entry's buffer is another one, of pool 0's second, and the first is gone from it. -/
def twoBufs (w : Word) : State :=
  ((allocBuf (clearPool (((endS w 40000).setAlloc (mkHandle 0 0 0) false).setReg .BPM_POOL_CNT 0 [0] 4) 0 0) 0 0 0).2).setRob 0 6 { rob0 .pending 0 0 with flow := 9, frame := { rxd with handle := mkHandle 0 0 256 } }
/-- A destination that is no queue, an edit program that is not valid, a second word of 65,536, a shared buffer, a bad handle, and an entry whose buffer is free. -/
theorem witness_Tickets_refused : [(ROp.emitx, (0xD8611100 : Word)), (.stagex, 0xD8611103)].all (fun x => issuesB (endS x.2 0xFFFFFFFF) x.1 (insOf x.2) && issuesB (endS x.2 (40000 + 9 * 2 ^ 32)) x.1 (insOf x.2)) = true
    ∧ (countSlot (endS 0xD8611100 0xFFFFFFFF) 0 5).destOk 0xFFFFFFFF false = false ∧ (countSlot (endS 0xD8611103 0xFFFFFFFF) 0 5).destOk 0xFFFFFFFF true = false ∧ (countSlot (endS 0xD8611100 (40000 + 9 * 2 ^ 32)) 0 5).editValid 0 9 = false
    ∧ issuesB (endS 0xD8611102 65536) .tohostx (insOf 0xD8611102) = true ∧ ((endS 0xD8611100 40000).setShare (mkHandle 0 0 0) { refs := 2, closer := 5 }).shareOf (mkHandle 0 0 0) ≠ none
    ∧ (countSlot ((endS 0xD8611100 40000).setAlloc (mkHandle 0 0 0) false) 0 5).handleGood 0 (handleOf h0) = false
    ∧ (countSlot (twoBufs 0xD8611100) 0 5).handleGood 0 (handleOf h0) = true ∧ (twoBufs 0xD8611100).allocated (mkHandle 0 0 256) = false := by decide +kernel
/-- R236, R302: each refusal faults the thread, by range or by its handle, and the entry stays pending. -/
theorem test_tickets_refused : [endS 0xD8611100 0xFFFFFFFF, endS 0xD8611100 (40000 + 9 * 2 ^ 32), (endS 0xD8611100 40000).setShare (mkHandle 0 0 0) { refs := 2, closer := 5 }, (endS 0xD8611100 40000).setAlloc (mkHandle 0 0 0) false, twoBufs 0xD8611100].map
      (fun s => ((after (.emit 0 5) s).reg .CRA_FAULTS 0 [2], (after (.emit 0 5) s).reg .CRA_FAULTS 0 [3], ((after (.emit 0 5) s).rob 0 6).map (·.st)))
    = [(1, 0, some .pending), (1, 0, some .pending), (1, 0, some .pending), (0, 1, some .pending), (0, 1, some .pending)]
    ∧ (after (.tohost 0 5) (endS 0xD8611102 65536)).reg .CRA_FAULTS 0 [2] = 1 := by decide +kernel

/-- A TRAP with thread 9 as the supervisor in a state, fault records unread, event 1,023, and the trace on or off. -/
def trapS (sup : ThSt) (q : List FaultRec) (ev : Ev) (trc : Bool) : State :=
  let s := (((code 0xF8012345 [] running).setReg .CRA_SUPER 0 [0] 0x80000009).putThr 0 9 { thr0 [] with st := sup }).setFaultQ 0 0 q |>.setEv 0 0 1023 ev
  if trc then ((s.setReg .TDX_TRC_CTL 0 [] 0x80000000).setReg .TDX_TRC_FILT 0 [] 0x3FF).setReg .TDX_TRC_CORES 0 [] 0xFFFFFF else s
theorem witness_Traps_super : (trapS .run [] {} false).Inv ∧ (trapS .run [] {} false).superOf 0 0 = some 9 ∧ ((trapS .run [] {} false).thr 0 9).st = .run ∧ ((trapS .halted [] {} false).thr 0 9).st = .halted
    ∧ (trapS .run [⟨3, 1⟩, ⟨5, 2⟩] {} false).faultQ 0 0 = [⟨3, 1⟩, ⟨5, 2⟩] ∧ ((trapS .run [] { waiters := [9, 10] } false).ev 0 0 1023).waiters = [9, 10] ∧ ((trapS .run [] { count := 65535 } false).ev 0 0 1023).count = 65535
    ∧ issuesB (trapS .run [] {} true) .trapx (insOf 0xF8012345) = true ∧ (trapS .run [] {} true).trcRun 0 = true ∧ (trapS .run [] {} true).trcPass 0 { kind := 5, thread := some 5, list := 0, pc := 7, tkt := none, arg := 10 } = true :=
  ⟨inv_of _ (by decide +kernel), by decide +kernel⟩
/-- R282: the record joins the supervisor's queue, or takes the place of one unread, and event 1,023 is signalled; a halted supervisor takes none, and the fault escalates. R342: the trap leaves a record. -/
theorem test_trap_super : [trapS .run [⟨3, 1⟩] {} false, trapS .run [⟨3, 1⟩, ⟨5, 2⟩] {} false, trapS .halted [⟨3, 1⟩] {} false].map
      (fun s => (((after (.trap 0 5) s).faultQ 0 0).map (·.thread), ((after (.trap 0 5) s).ev 0 0 1023).count, (after (.trap 0 5) s).reg .CRA_FAULT_OVER 0 [], (after (.trap 0 5) s).reg .CRA_ESCALATED 0 []))
    = [([3, 5], 1, 0, 0), ([3, 5], 1, 1, 0), ([3], 0, 0, 1)]
    ∧ ((after (.trap 0 5) (trapS .sync [] { waiters := [9, 10] } false)).thr 0 9).st = .run ∧ (after (.trap 0 5) (trapS .run [] {} true)).rf .TDX_TRC_WR 0 [] 15 0 = 1 := by decide +kernel

/-! Threads under the host, the helpers and the supervisor. -/

/-- Thread 5 in HELPER with a request. -/
def helping (kind : PendKind) (err : Nat) (u : Bool) : State :=
  running.putThr 0 5 { thr0 [] with st := .helper, pend := some { rd := 3, value := 44, err := err, u := u, kind := kind, arrived := false } }
theorem witness_Threads_reply : [0, 0x82].all (fun e => [true, false].all (fun u => decide (((helping .other e u).thr 0 5).pend = some { rd := 3, value := 44, err := e, u := u, kind := .other, arrived := false })
    && decide (((helping .other e u).thr 0 5).st = .helper))) = true ∧ ((helping .other 0 false).setRf .CRA_HELPER_TMO 0 [] 15 0 9).rf .CRA_HELPER_TMO 0 [] 15 0 ≠ 0 := by decide +kernel
/-- LKP of the L2 table that waits for the FWT. -/
def lkpQ : LkpReq := { k := 1, a := 0, b := 0, c := 0, key := [] }
theorem witness_Threads_table : ((helping (.fwt lkpQ) 0 false).thr 0 5).pend.map (·.kind) = some (.fwt lkpQ) ∧ (helping (.fwt lkpQ) 0 false).unitDown 0 unitFwt = false ∧ (downS unitFwt (helping (.fwt lkpQ) 0 false)).unitDown 0 unitFwt = true
    ∧ [PendKind.tdx, .syu].all (fun k => decide (((helping k 0 false).thr 0 5).pend.map (·.kind) = some k)) = true := by decide +kernel
theorem test_table_wait : ((after (.helperReply 0 5 false) (downS unitFwt (helping (.fwt lkpQ) 0 false))).thr 0 5).st = .helper ∧ ((after (.helperReply 0 5 false) (helping (.fwt lkpQ) 0 false)).thr 0 5).st = .run := by decide +kernel
theorem test_reply : ((after (.helperReply 0 5 false) (helping .other 0 true)).thr 0 5).get 3 = 44 ∧ ((after (.helperReply 0 5 true) (helping .other 0 false)).thr 0 5).get 3 = 0x8000000000000003
    ∧ (after (.helperReply 0 5 false) (helping .other 0x82 true)).reg .CRA_FAULTS 0 [6] = 1 := by decide +kernel
/-- Thread 5 past a limit of 64 slots; and at a breakpoint on PC 7. -/
def spent : State := (running.setRf .CRA_MAX_SLOTS 0 [] 20 0 1).putThr 0 5 { thr0 [] with slots := 65 }
theorem witness_Threads_runaway : (spent.thr 0 5).st = .run ∧ (spent.slotLimit 0 5).isSome = true ∧ spent.pastLimit 0 5 = true ∧ (spent.thr 0 5).helped = false := by decide +kernel
theorem witness_Threads_runaway_good : spent.psIsBad 0 (clusterOf 5) 7 = false ∧ ((spent.putThr 0 5 { thr0 [] with slots := 65, helped := true }).thr 0 5).helped = true := by decide +kernel
/-- DEBUG_EN and PILOT_RESTART set, a breakpoint of core 0 on PC 7 for thread 5. -/
def debugged (st : ThSt) (was : ThSt) : State :=
  (((running.setReg .CRA_CFG 0 [] 0xC0000000).setReg .CRA_BP 0 [0, 0] 0x80070020).putThr 0 5 { thr0 [(3, 9)] with st := st, was := was })
theorem witness_Threads_break : (debugged .run .idle).bpMatch 0 5 = true := by decide +kernel
theorem witness_Threads_pilot : thrKey 0 5 ∈ ({ debugged .faulted .idle with cra := { (debugged .faulted .idle).cra with esc := [5] } } : State).cra.esc ∧ bit ((debugged .faulted .idle).reg .CRA_CFG 0 []) 30 = true
    ∧ ((debugged .faulted .idle).thr 0 5).st = .faulted := by decide +kernel
theorem test_breakpoint : ((after (.breakpointHit 0 5) (debugged .run .idle)).thr 0 5).st = .halted ∧ ((after (.breakpointHit 0 6) (debugged .run .idle)).thr 0 6).st = .idle := by decide +kernel

theorem witness_Host_threads : running.glb.mode.any = true ∧ running.excluded 0 = false ∧ genOk (0xFFFF : BitVec 16).toNat ((debugged .run .idle).gen .CRA_STATE 0) = true ∧ ((debugged .run .idle).thr 0 5).st ≠ .idle
    ∧ (debugged .run .idle).debugEn 0 = true ∧ running.debugEn 0 = false ∧ genOk (7 : BitVec 16).toNat ((debugged .run .idle).gen .CRA_STATE 0) = false := by decide +kernel
theorem witness_Host_resume : ((debugged .halted .run).thr 0 5).st = .halted ∧ ((debugged .halted .run).thr 0 5).pend = none ∧ ((debugged .halted .run).thr 0 5).was = .run := by decide +kernel
theorem witness_Host_halt : [ThSt.run, .helper, .sync, .twait, .idle, .halted, .faulted, .stopped].all (fun st => decide (((debugged st .idle).thr 0 5).st = st)) = true ∧ (debugged .run .idle).Inv ∧ ((debugged .halted .twait).setReg .CRA_THREAD_EN 0 [0] 0xFFFF).thrEn 0 5 = true
    ∧ ((debugged .halted .twait).thr 0 5).was = .twait := ⟨by decide +kernel, inv_of _ (by decide +kernel), by decide +kernel, by decide +kernel⟩
/-- R295: a stop in the cycle of the fault does nothing, one that comes later stops the thread. -/
theorem test_stop_fault : [true, false].map (fun same => ((after (.threadStop 0 5 ⟨0xFFFF, same⟩) (debugged .faulted .idle)).thr 0 5).st) = [.faulted, .stopped] := by decide +kernel
theorem test_host_threads : ((after (.threadStop 0 5 ⟨0xFFFF, false⟩) (debugged .run .idle)).thr 0 5).st = .stopped ∧ ((after (.threadStop 0 5 ⟨7, false⟩) (debugged .run .idle)).thr 0 5).st = .run
    ∧ ((after (.threadResume 0 5 0xFFFF) (debugged .halted .sync)).thr 0 5).st = .sync := by decide +kernel

theorem witness_Programs_check : (running.setRf .CRA_PS_CHECK 0 [] 30 30 1).Inv ∧ (running.setRf .CRA_PS_CHECK 0 [] 30 30 1).rf .CRA_PS_CHECK 0 [] 30 30 = 1 := ⟨inv_of _ (by decide +kernel), by decide +kernel⟩
/-- Word 7 of cluster 1 bad, cluster 0's good. -/
def psBadS : State := let s := at7 0xFC000000 running; { s with cra := { s.cra with psBad := [psKey 0 1 7] } }
theorem witness_Programs_repair : psBadS.psIsBad 0 1 7 = true ∧ psBadS.psGood 0 1 7 = some 0xFC000000 := by decide +kernel
/-- The word bad in every cluster of the package, and thread 5 waiting for it. -/
def psNone : State := let s := running.putThr 0 5 (thr0 []); { s with cra := { s.cra with psBad := (List.range 8).flatMap (fun d => (List.range 6).map (fun k => psKey d k 7)) } }
theorem witness_Programs_none : psNone.psIsBad 0 0 7 = true ∧ psNone.psGood 0 0 7 = none := by decide +kernel
/-- R269: a corrected word counts; without a good copy the waiting fetch faults. -/
theorem test_repair_none : ((after (.psFetchRepair 0 0 ⟨7, false⟩) psNone).thr 0 5).st = .faulted ∧ (after (.psFetchRepair 0 0 ⟨7, true⟩) running).reg .CRA_PS_ECC_CORR 0 [] = 1 := by decide +kernel
theorem test_repair : (after (.psFetchRepair 0 1 ⟨7, false⟩) psBadS).psWord 0 1 7 = 0xFC000000 := by decide +kernel
/-- CRA_DBG_SEL names g3, or the PC, of thread 5. -/
def selected (r : Nat) : State := (debugged .halted .run).setReg .CRA_DBG_SEL 0 [] (packWord [(9, r), (0, 5)])
theorem witness_Programs_window : (selected 3).Inv ∧ (selected 3).rf .CRA_DBG_SEL 0 [] 8 0 = 5 ∧ (selected 3).rf .CRA_DBG_SEL 0 [] 14 9 = 3 ∧ (selected 32).rf .CRA_DBG_SEL 0 [] 14 9 = 32 ∧ ((selected 3).thr 0 5).open_ = true
    ∧ (selected 3).debugEn 0 = true := ⟨inv_of _ (by decide +kernel), by decide +kernel⟩
theorem witness_Programs_busy : ((debugged .run .idle).thr 0 5).open_ = false ∧ ¬ ((511 : Nat) < 384) ∧ [ThSt.halted, .faulted, .stopped].all (fun st => ((debugged st .run).thr 0 5).open_) = true ∧ running.debugEn 0 = false := by decide +kernel
theorem test_window : (after (.dbgRegRead 0) (selected 3)).gwe.results.map (·.data) = [[0, 0, 0, 9]] ∧ ((after (.dbgRegWrite 0 1) (selected 3)).thr 0 5).get 3 = 0x100000000 := by decide +kernel
theorem witness_Programs_clear : (debugged .halted .run).debugEn 0 = true ∧ bit (0x40000000 : Word) 31 = false ∧ packWord [(31, fld (0x80000005 : Word) 31 31), (0, fld (0x80000005 : Word) 5 0)] ≠ running.reg .CRA_SUPER 0 [1] := by decide +kernel

/-! Tasks and the trace. -/

/-- A task of list 3. -/
def task3 : Task := { args := [1, 2, 3, 4, 5, 6], entry := 9, list := 3, key := 0, ticket := none, held := none, waited := false }
/-- It is ready, and thread 5 waits for list 3. -/
def waiting (key : DWord) (held : Option Nat) : State :=
  (tdx0.setReady 0 3 [{ task3 with key := key, held := held }]).putThr 0 5 { thr0 [] with st := .twait, mask := 8 }
theorem witness_Tasks_deliver : (waiting 0 none).tdxUp 0 = true ∧ (waiting 0 none).turnOrder 0 0 = [3] ∧ (waiting 0 none).readyList 0 3 = [task3] ∧ (waiting 0 none).affCore 0 task3 = none ∧ (waiting 0 none).fallbackCore 0 3 = some 0 := by decide +kernel
/-- A task held for core 0, where thread 5 waits. -/
theorem witness_Tasks_hit : (waiting 5 (some 0)).waitCore 0 { task3 with key := 5, held := some 0 } = some 0 ∧ (waiting 5 (some 0)).waitersOf 0 3 0 = [5] ∧ (waiting 5 (some 0)).readyList 0 3 = [{ task3 with key := 5, held := some 0 }]
    ∧ (waiting 5 (some 0)).turnOrder 0 0 = [3] := by decide +kernel
theorem witness_Tasks_deliver_inv : (waiting 0 none).Inv := inv_of _ (by decide +kernel)
/-- Affinity for list 3, with an entry that names core 2 for key 5. -/
def affine : State := let s := (waiting 5 (some 2)).setReg .TDX_RL_CFG 0 [3] (packWord [(29, 1), (0, 100)]); { s with tdx := { s.tdx with aff := [(affIndex 5, (affTag 5, 2))] } }
theorem witness_Tasks_affinity : (affine.readyList 0 3).find? (fun t => t.held.isSome) = some { task3 with key := 5, held := some 2 } ∧ affine.waitCore 0 { task3 with key := 5, held := some 2 } = some 2 ∧ affine.waitersOf 0 3 2 = [] ∧ affine.tdxUp 0 = true := by decide +kernel
/-- A delayed task due at tick 0. -/
def delayed : State := tdx0.setDelay 0 1 [{ e := 0, task := task3 }]
theorem witness_Tasks_delay : delayed.tdxUp 0 = true ∧ delayed.expired 0 = some (1, { e := 0, task := task3 }) := by decide +kernel
theorem test_delay_order : (insertDelay { e := 4, task := task3 } [{ e := 3, task := task3 }, { e := 4, task := { task3 with entry := 1 } }, { e := 5, task := task3 }]).map (fun x => (x.e, x.task.entry)) = [(3, 9), (4, 1), (4, 9), (5, 9)] := by decide
/-- A post from die 1 to die 0. -/
def fl0 : Flight := { id := 2, src := 400, dst := 0, delay := 0, task := task3 }
theorem witness_Tasks_arrive : ({ tdx0 with tdx := { tdx0.tdx with flight := [fl0] } } : State).tdx.flight.find? (fun f => f.dst = 0) = some fl0 ∧ (tryPost tdx0 0 task3 0).1 = 0 ∧ (tryPost (tdx0.setReg .TDX_RL_CFG 0 [3] 0) 0 task3 0).1 ≠ 0 := by decide +kernel
theorem witness_Tasks_arrive_down : (downS unitTdx tdx0).unitDown 0 unitTdx = true ∧ tdx0.unitDown 0 unitTdx = false := by decide +kernel
theorem witness_Tasks_clear : tdx0.glb.mode.any = true ∧ tdx0.excluded 0 = false ∧ bit (0x80000000 : Word) 31 = true := by decide
/-- Arguments of TASK_INJECT. -/
def inj : InjectArgs := { die := 0, ready := 3, entry := 9, delay := 0, key := 0, args := [7] }
theorem witness_Tasks_inject : 0 ∈ tdx0.liveDies ∧ tdx0.glb.mode.threads = true ∧ (tryPost tdx0 0 { task3 with args := [7, 0, 0, 0, 0, 0] } 0).1 = 0 ∧ (tryPost (tdx0.setReg .TDX_RL_CFG 0 [3] 0) 0 { task3 with args := [7, 0, 0, 0, 0, 0] } 0).1 ≠ 0 := by decide +kernel
theorem test_inject : ((after (.taskInject inj) tdx0).readyList 0 3).map (·.args) = [[7, 0, 0, 0, 0, 0]] ∧ (after (.taskInject { inj with entry := 0x8000 }) tdx0).gwe.results.map (·.status) = [.badaddr] := by decide +kernel

/-- The trace runs in MODE 0 or MODE 2, with one record not yet copied. -/
def tracing (mode : Nat) : State := (running.setReg .TDX_TRC_CTL 0 [] (packWord [(31, 1), (29, mode)])).modTrc 0 (fun x => { x with count := 1 })
theorem witness_Trace : (tracing 0).Inv ∧ (tracing 0).trcRun 0 = true ∧ (tracing 0).trcMode 0 = 0 ∧ (tracing 0).trcTmode 0 = 0 ∧ ((tracing 0).trc 0).lost = 0 ∧ 2 ≤ (tracing 2).trcMode 0 ∧ ((tracing 2).trc 0).count ≠ 0 ∧ nbit (tracing 2).ssc.lost 0 = false :=
  ⟨inv_of _ (by decide +kernel), by decide +kernel⟩
theorem witness_Trace_spill : (tracing 2).Inv ∧ nbit ({ tracing 2 with ssc := { (tracing 2).ssc with lost := 1 } } : State).ssc.lost 0 = true := ⟨inv_of _ (by decide +kernel), by decide⟩
/-- Writing has stopped with the area full. -/
theorem witness_Trace_stopped : bit (((tracing 2).setRf .TDX_TRC_WR 0 [] 30 30 1).reg .TDX_TRC_WR 0 []) 30 = true ∧ bit ((tracing 2).reg .TDX_TRC_WR 0 []) 30 = false := by decide +kernel
/-- R346: a mark takes the next place of the ring; without RUN it takes none. -/
theorem test_mark : (after (.traceMark 0 0x12345) (tracing 0)).rf .TDX_TRC_WR 0 [] 15 0 = 1 ∧ (after (.traceMark 0 0x12345) running).rf .TDX_TRC_WR 0 [] 15 0 = 0 := by decide +kernel

/-! The host and the synchronisation unit. -/

theorem witness_Syu_host : genOk (fld 0xFFFF0007 31 16) (running.gen .SYU_STATE 0) = true ∧ genOk (fld 0x00090007 31 16) (running.gen .SYU_STATE 0) = false ∧ fld 0x1407 12 10 ≤ 5 ∧ fld 0x1407 9 0 ≠ 1023 ∧ 5 < fld 0x1800 12 10 ∧ fld 0x03FF 9 0 = 1023 := by decide +kernel
theorem witness_Syu_put : fld 0x00050107 18 16 ≤ 5 ∧ 1 ≤ fld 0x00050107 11 8 ∧ running.chFull 0 5 7 1 = false ∧ (running.setChan 0 5 7 { msgs := List.replicate 2048 [1] }).chFull 0 5 7 1 = true := by decide +kernel
theorem witness_Syu_inspect : running.Inv ∧ fld 0x80050007 31 30 = 2 ∧ fld 0x80050007 13 0 ≤ 1023 ∧ fld 0x80050007 18 16 ≤ 5 := ⟨inv_of _ (by decide +kernel), by decide⟩
theorem witness_Syu_inspect_bad : fld 0x80060007 18 16 = 6 ∧ fld 0x80000400 13 0 = 1024 ∧ fld 0xC0000100 13 0 = 256 ∧ fld 0xC0000100 31 30 = 3 ∧ fld 0x00060107 18 16 = 6 ∧ fld 0x7 11 8 = 0 ∧ fld 0x907 11 8 = 9 := by decide
/-- R368: the host's force does nothing where an UNLOCK in the same cycle frees the lock. -/
theorem test_host_force : [true, false].map (fun same => ((after (.hostLockForce 0 ⟨0xFFFF0007, same⟩) (running.setLock 0 7 { holder := some 6 })).lock 0 7).holder) = [some 6, none] := by decide +kernel
theorem witness_Syu_clear : bit (0x80000000 : Word) 31 = true ∧ prov.glb.mode = .provision ∧ running.glb.mode ≠ .provision := by decide
/-- Thread 5 waits for thread 6's lock, and thread 6 for an event that no outside party signals. -/
def strandedS : State :=
  (((running.setReg .SYU_WATCH 0 [] 0x80000000).setLock 0 7 { holder := some 6, waiters := [5] }).putThr 0 5 { thr0 [] with st := .sync, wait := some (.lock 7) }).putThr 0 6 { thr0 [] with st := .sync, wait := some (.event 3) }
theorem witness_Syu_stranded : bit (strandedS.reg .SYU_WATCH 0 []) 31 = true ∧ strandedS.strandedNow 0 0 = true ∧ (strandedS.watch 0 0).reported = false ∧ strandedS.glb.mode.threads = true := by decide +kernel
theorem test_stranded : (after (.strandedReport 0 0) strandedS).rf .SYU_STATE 0 [] 0 0 = 1 ∧ (strandedS.modThr 0 6 (fun t => { t with st := .run, wait := none })).strandedNow 0 0 = false := by decide +kernel
theorem test_host_signal : ((after (.hostEventSignal 0 0x1407) running).ev 0 5 7).count = 1 ∧ (after (.hostEventSignal 0 0x03FF) running).gwe.results.map (·.status) = [.badaddr] := by decide +kernel

/-- A thread halted in HELPER goes on there, its slots counting, unless supervisors are exempt and it is one (R279). -/
theorem witness_Host_helper : (debugged .halted .helper).Inv ∧ ((debugged .halted .helper).thr 0 5).st = .halted ∧ ((debugged .halted .helper).thr 0 5).was = .helper ∧ ((debugged .halted .helper).thr 0 5).pend = none
    ∧ (debugged .halted .helper).exempt 0 5 = false ∧ (((debugged .halted .helper).setReg .CRA_CFG 0 [] 0xE0000000).setReg .CRA_SUPER 0 [0] 0x80000005).exempt 0 5 = true := ⟨inv_of _ (by decide +kernel), by decide +kernel⟩
theorem test_helper_slots : [debugged .halted .helper, debugged .halted .run, ((debugged .halted .helper).setReg .CRA_CFG 0 [] 0xE0000000).setReg .CRA_SUPER 0 [0] 0x80000005].map (fun s => ((after (.threadResume 0 5 0xFFFF) s).thr 0 5).helped) = [true, false, false]
    ∧ ((after (.supervisorSet 0 0 0x80000007) (debugged .helper .run)).thr 0 5).helped = true := by decide +kernel

/-- List 1 of priority 0 and list 2 of priority 1 ready with no thread for them; list 3 of priority 1 with affinity, its first task held for core 2, a second with a key, a place in its wait or none, and a third; thread 5 of core 0 waits for list 3; the turn is at list 2. -/
def ready3 (key : DWord) (held : Option Nat) (waited : Bool) : List Task := [{ task3 with key := 5, held := some 2 }, { task3 with key := key, held := held, waited := waited }, task3]
def priorities (key : DWord) (held : Option Nat) (waited : Bool) : State :=
  let s := [(1, 100), (2, packWord [(30, 1), (0, 100)]), (3, packWord [(30, 1), (29, 1), (0, 100)])].foldl (fun s (x : Nat × Word) => s.setReg .TDX_RL_CFG 0 [x.1] x.2) tdx0
  let s := ((s.setReady 0 1 [{ task3 with list := 1 }]).setReady 0 2 [{ task3 with list := 2 }]).setReady 0 3 (ready3 key held waited)
  ({ s with tdx := { s.tdx with rr := [(1, 2)], aff := [(affIndex 5, (affTag 5, 2))] } }.setReg .TDX_CFG 0 [] 4).putThr 0 5 { thr0 [] with st := .twait, mask := 8 }
theorem witness_Tasks_lists : (priorities 0 none false).tdxUp 0 = true ∧ (priorities 0 none false).turnOrder 0 0 = [1] ∧ (priorities 0 none false).turnOrder 0 1 = [2, 3] ∧ (priorities 0 none false).readyList 0 3 = ready3 0 none false
    ∧ (priorities 0 none false).fallbackCore 0 1 = none ∧ (priorities 0 none false).fallbackCore 0 2 = none ∧ (priorities 0 none false).fallbackCore 0 3 = some 0
    ∧ [{ task3 with list := 1 }, { task3 with list := 2 }].map (fun t => (t.held, (priorities 0 none false).affCore 0 t)) = [(none, none), (none, none)]
    ∧ (priorities 0 none false).rf .TDX_CFG 0 [] 7 0 ≠ 0 ∧ (priorities 0 none false).waitersOf 0 3 2 = [] ∧ (priorities 0 none false).affCore 0 task3 = none
    ∧ (priorities 7 (some 0) false).waitCore 0 { task3 with key := 7, held := some 0 } = some 0 ∧ (priorities 7 (some 0) false).waitersOf 0 3 0 = [5] := by decide +kernel
/-- The ring full in MODE 2 with seven records lost; the filters let every kind pass, or none. -/
def lostS (filt : Word) : State := ((tracing 2).modTrc 0 (fun x => { x with count := 65536, lost := 7 })).setReg .TDX_TRC_FILT 0 [] filt
theorem witness_Trace_lost : (lostS 0x3FF).Inv ∧ ((lostS 0x3FF).trc 0).lost ≠ 0 ∧ (lostS 0x3FF).trcRun 0 = true ∧ (lostS 0x3FF).trcTmode 0 = 0 ∧ ((lostS 0x3FF).trc 0).post = none ∧ (lostS 0x3FF).trcPass 0 { kind := 9, arg := min (2 ^ 22 - 1) ((lostS 0x3FF).trc 0).lost } = true
    ∧ bit ((lostS 0x3FF).reg .TDX_TRC_WR 0 []) 30 = false ∧ nbit (lostS 0x3FF).ssc.lost 0 = false := ⟨inv_of _ (by decide +kernel), by decide +kernel⟩
/-- R346: the record with their number takes the place that the spill has made. -/
theorem test_lost : ((after (.traceSpill 0) (lostS 0x3FF)).trc 0).lost = 0 ∧ ((after (.traceSpill 0) (lostS 0x3FF)).trc 0).count = 65536 ∧ (after (.traceSpill 0) (lostS 0x3FF)).rf .TDX_TRC_WR 0 [] 15 0 = 1
    ∧ ((after (.traceSpill 0) (lostS 0)).trc 0).count = 65535 := by decide +kernel

/-! The Gangway. -/

/-- An association in its first packets. -/
def assoc0 : Assoc := { keys := [], xpn := false, an := 0, pn := 0, rxNext := 1, old := none, sci := 0x0200000000010001 }
/-- Session 0 open with events and a window on space 3; the host's frames are protected. -/
def linked (s : State) : State :=
  { s with gwe := { s.gwe with owner := some [], assoc := some assoc0, sess := [{ opened := true, evt := true, kept := true, h := 0, space := 3, unit := 8, off := 8 }, {}, {}, {}] } }
/-- A command frame on session 0 as it is read. -/
def frm (cmds : List GwCmd) : GwReq := { peer := none, src := 0x020000000001, prot := true, fresh := false, stop := false, session := 0, seq := 1, cmds := cmds }
/-- Its bytes with CLOSE, tag 7. -/
def closeBytes : List Byte := gwMsg 0 1 1 (gwCmd 0x04 7 [])
/-- R375, R376: a message read byte by byte: CLOSE with tag 7; RD of two registers from 0x40 on under STOP on session 2; a body that COUNT does not fill, a LENGTH that is no multiple of 4, VER 2 and TYPE 1 are malformed. -/
theorem test_frame_read : frameReq (frameWith closeBytes) = some (frm [{ tag := 7, op := .close }])
    ∧ frameReq (frameWith (gwMsg 0x0A 9 1 (gwCmd 0x10 3 [0, 0, 0, 0x40, 0, 0, 0, 2]))) = some { frm [{ tag := 3, op := .rd 0x40 2 }] with stop := true, session := 2, seq := 9 }
    ∧ [gwMsg 0 1 2 (gwCmd 0x04 7 []), gwMsg 0 1 1 (gwCmd 0x04 7 [0]), [2] ++ closeBytes.drop 1, gwMsg 0x10 1 1 (gwCmd 0x04 7 []), []].all (fun l => (frameReq (frameWith l)).isNone) = true := by decide +kernel
theorem witness_Frames_arrive : (linked prov).hostPortOn = true ∧ frameLen (frameWith closeBytes) ≤ 9600 ∧ (frameWith closeBytes).attB = (linked prov).gwe.active ∧ (verifyFrame ((linked prov).bump .GWE_RX_FRAMES 0) (frameWith closeBytes)).isSome = true
    ∧ (linked prov).holds = false ∧ ({ linked prov with plt := { (linked prov).plt with leadMove := some 0 } } : State).holds = true := by decide +kernel
/-- The factory address is a constant without a value; a frame that carries it in the direct form is one for the device. -/
theorem witness_Frames_carries : (linked prov).carries (frameWith closeBytes) = true := by
  simp only [State.carries, frameWith, beq_self_eq_true, Bool.true_and]
  decide +kernel
/-- One with another EtherType is not; one beyond 9,600 bytes, one on the other attachment and one that does not verify are dropped. -/
theorem witness_Frames_dropped : (linked prov).carries { frameWith closeBytes with encap := .ether 0x0800 } = false ∧ ({ frameWith closeBytes with attB := true } : GwFrame).attB ≠ (linked prov).gwe.active
    ∧ 9600 < frameLen (frameWith (List.replicate 9537 0 ++ [0, 0, 0, 0, 0, 0, 0, 0, 0, 0, 0, 0, 0, 0])) ∧ verifyFrame (linked prov) { frameWith closeBytes with verified := false } = none ∧ verifyFrame (linked prov) { frameWith closeBytes with sci := 5 } = none := by
  refine ⟨?_, by decide, by decide +kernel, by decide +kernel, by decide +kernel⟩
  simp only [State.carries, frameWith, beq_self_eq_true, Bool.true_and]
  decide +kernel
/-- An unprotected frame with one command. -/
def loose (op : GwOp) : GwReq := { frm [{ tag := 7, op := op }] with prot := false }
theorem witness_Frames_loose : looseFrame (loose (.identify (List.replicate 16 0))) = true ∧ replySize (loose (.identify (List.replicate 16 0))) ≤ 9600 ∧ looseFrame (loose .close) = false ∧ (loose .close).prot = false
    ∧ 64 < (frm (List.replicate 65 { tag := 0, op := .identify [] })).cmds.length ∧ looseFrame (frm (List.replicate 65 { tag := 0, op := .identify [] })) = true := by decide +kernel
theorem witness_Frames_malformed : frameReq (frameWith []) = none := by decide
/-- A cached reply for number 0. -/
def cachedTx : GwTx := { typ := 1, session := 0, seq := 0, count := 0, status := .ok, results := [], body := [], prot := true, form := { encap := 0, etype := 0x88B5 }, dst := 0 }
/-- Session 0 with it. -/
def withCache : State := (linked prov).modSess 0 (fun x => { x with cache := [{ seq := 0, opened := false, reply := cachedTx }] })
theorem witness_Frames_cached : withCache.cachedReply { frm [] with seq := 0 } = some cachedTx ∧ (linked prov).cachedReply (frm []) = none ∧ opensFirst (frm []) = false ∧ ((linked prov).sess 0).opened = true
    ∧ ((linked prov).sess 0).inWindow 1 = true ∧ ((linked prov).sess 0).inWindow 65 = false ∧ ((linked prov).sess 1).opened = false ∧ opensFirst (frm [{ tag := 0, op := .opens true }]) = true := by decide +kernel
theorem witness_Frames_big : 9600 < replySize (frm [{ tag := 0, op := .rd 0 2048 }, { tag := 0, op := .rd 0 2048 }]) := by decide +kernel
/-- R381: the window runs from H - 63 to H + 64, modulo 2^32. -/
theorem test_window_bounds : ({ h := 5 } : Sess).inWindow (2 ^ 32 - 58) = true ∧ ({ h := 5 } : Sess).inWindow (2 ^ 32 - 59) = false ∧ ({ h := 5 } : Sess).inWindow 69 = true ∧ ({ h := 5 } : Sess).inWindow 70 = false := by decide
/-- R375, R379: two commands, the first of which fails: under STOP the second is skipped. -/
theorem test_stop : (executeFrame (linked prov) { frm [{ tag := 1, op := .unknown 9 }, { tag := 2, op := .close }] with stop := true }).gwe.tx.map (fun x => x.results.map (fun r => (r.tag, r.status))) = [[(1, .badaddr), (2, .aborted)]]
    ∧ ((executeFrame (linked prov) (frm [{ tag := 1, op := .unknown 9 }, { tag := 2, op := .close }])).sess 0).opened = false := by decide +kernel
theorem test_denied : (checkFrameReq (linked prov) { frm [{ tag := 1, op := .close }] with session := 1 }).gwe.tx.map (·.status) = [.denied] ∧ (checkFrameReq prov (loose .close)).reg .GWE_AUTH_FAIL 0 [] = 1 := by decide +kernel
/-- R375, R376: the bytes of a reply: VER, TYPE 1 with the session, LENGTH, SEQ, COUNT, STATUS, then one result of opcode 0x12, tag 7, GW_OK and four bytes. -/
theorem test_reply_bytes : ({ cachedTx with seq := 5, count := 1, session := 2, results := [{ opcode := 0x12, tag := 7, status := .ok, data := [1, 2, 3, 4] }] } : GwTx).message
    = [1, 0x12, 0, 12, 0, 0, 0, 5, 0, 1, 0, 0, 0x12, 0, 0, 7, 0, 4, 0, 0, 1, 2, 3, 4] := by decide +kernel
/-- The header checksum of a published example of an IPv4 header, worked by hand: 0x4500 0x0073 0x0000 0x4000 0x4011 0xC0A8 0x0001 0xC0A8 0x00C7 sums to 0x479E, whose complement is 0xB861. -/
theorem test_ones_sum : onesSum [0x45, 0, 0, 0x73, 0, 0, 0x40, 0, 0x40, 0x11, 0, 0, 0xC0, 0xA8, 0, 1, 0xC0, 0xA8, 0, 0xC7] = 0xFFFF - 0xB861 := by decide
theorem witness_Identify : (inMode .listen).glb.mode ≠ .reset := by decide
theorem witness_Claim_modes : (inMode .listen).glb.mode.claims = true ∧ (inMode .listen).gwe.lastClaim = none ∧ ({ inMode .listen with gwe := { (inMode .listen).gwe with lastClaim := some (claimArgs, []) } } : State).gwe.lastClaim = some (claimArgs, [])
    ∧ sameClaim claimArgs claimArgs = true ∧ (inMode .listen).claimFault claimArgs = some .auth := by decide +kernel
/-- The nonce of the claim has been issued. Which signatures verify is a constant of Config without a value (log 11); with one that does, the claim stands. -/
theorem witness_Claim_accepted (h : Config.verifySig (padTo 96 claimArgs.owner) (Config.sha384 (claimSigned claimArgs)) claimArgs.osig = true) :
    ({ inMode .listen with gwe := { (inMode .listen).gwe with dnonce := some (padTo 32 claimArgs.dnonce) } } : State).claimFault claimArgs = none := by
  have n : ¬ (1 < claimArgs.cipher) := by decide
  have f : claimArgs.fresh = true := rfl
  simp only [State.claimFault, n, f, h, if_false, and_self, not_true]
  rfl
theorem witness_Sessions : (linked prov).Inv ∧ (linked prov).glb.mode.any = true ∧ ((linked prov).sess 0).opened = true ∧ ((linked prov).sess 1).opened = false := ⟨inv_of _ (by decide +kernel), by decide⟩
theorem test_open : ((after (.openSession 2 99 true) (linked prov)).sess 2).h = 99 ∧ ((after (.openSession 2 99 true) (linked prov)).sess 0).opened = true ∧ (after (.close 1) (linked prov)).gwe.results.map (·.status) = [.denied] := by decide +kernel

/-! Registers and windows. -/

/-- The address of CLS_FRAG_CFG on die 0, as the model's table gives it for the register that spec/04 lists. -/
def fragAddr : Nat := Reg.CLS_FRAG_CFG.addr 0 []
/-- R532: in LISTEN the identification registers are read, the others not. -/
theorem witness_Registers_listen : (inMode .listen).readsNow (Reg.GLB_SPACE_VER.addr 0 []) 1 = true ∧ ((inMode .listen).reachAll (Reg.GLB_SPACE_VER.addr 0 []) 1).isSome = true ∧ Reg.GLB_SPACE_VER.addr 0 [] % 4 = 0 ∧ (inMode .listen).readsNow fragAddr 1 = false := by decide +kernel
theorem witness_Registers_write : bcastOffset fragAddr = none ∧ (prov.reach fragAddr).isSome = true ∧ bcastOffset 0x3 = none ∧ (prov.reach 0x3) = none := by decide +kernel
theorem witness_Registers_plain : prov.Inv ∧ prov.badValue .CLS_FRAG_CFG 0 [] 5 = false ∧ Reg.CLS_FRAG_CFG ≠ .PHI_TICK := ⟨inv_of _ (by decide +kernel), by decide +kernel⟩
/-- An offset in the broadcast block of a register without and with an EXP_GEN field. -/
theorem witness_Registers_bcast : (regIn false (fragAddr % 0x100000) Reg.all) = some (.CLS_FRAG_CFG, []) ∧ Reg.CLS_FRAG_CFG.hasGen = false ∧ fragAddr % 4 = 0 ∧ (prov.bcastDies .CLS_FRAG_CFG).all (fun d => (writeReg prov ⟨.CLS_FRAG_CFG, d, []⟩ 5).1 = .ok) = true := by decide +kernel
theorem witness_Registers_bcast_gen : (regIn false (Reg.SYU_LK_FORCE.addr 0 [] % 0x100000) Reg.all) = some (.SYU_LK_FORCE, []) ∧ Reg.SYU_LK_FORCE.hasGen = true ∧ Reg.SYU_LK_FORCE.addr 0 [] % 4 = 0 ∧ fld 0x00010007 31 16 ≠ 0xFFFF ∧ fld 0xFFFF0007 31 16 = 0xFFFF := by decide +kernel
theorem witness_Registers_bcast_fails : (running.bcastDies .FWT_HASH_SEED).any (fun d => (writeReg running ⟨.FWT_HASH_SEED, d, []⟩ 5).1 ≠ .ok) = true ∧ regIn false (Reg.FWT_HASH_SEED.addr 0 [] % 0x100000) Reg.all = some (.FWT_HASH_SEED, []) := by decide +kernel
/-- The address of an offset of the broadcast block (R530). -/
def bcastA (off : Nat) : Nat := ((List.range 4096).find? (fun k => bcastOffset (k * 0x100000) = some 0)).getD 0 * 0x100000 + off
theorem witness_Registers_rmw_bcast : (bcastOffset (bcastA 0)).isSome = true := by decide +kernel
theorem test_rmw_bcast : (after (.rmw (BitVec.ofNat 32 (bcastA 0)) 1 1) prov).gwe.results.map (·.status) = [.badaddr] ∧ (after (.broadcastWrite (Reg.SYU_LK_FORCE.addr 0 [] % 0x100000) 0x00010007) prov).gwe.results.map (·.status) = [.badaddr] := by decide +kernel
theorem witness_Registers_rd : (prov.reachAll fragAddr 1).isSome = true ∧ fragAddr % 4 = 0 ∧ prov.reachAll 0x3FFFFC 1 = none := by decide +kernel
theorem witness_Registers_rmw : Reg.CLS_FRAG_CFG.noRmw [] = false ∧ Reg.BPM_POOL_FREE.noRmw [0] = true ∧ (prov.reach (Reg.BPM_POOL_FREE.addr 0 [0])).isSome = true ∧ (readReg prov .CLS_FRAG_CFG 0 []).1 = .ok := by decide +kernel
theorem test_rmw : (after (.rmw (BitVec.ofNat 32 fragAddr) 0xFF 0x5A) (prov.setReg .CLS_FRAG_CFG 0 [] 0x12345678)).reg .CLS_FRAG_CFG 0 [] = 0x1234565A := by decide +kernel
theorem witness_Windows_set : (linked prov).Inv ∧ unitOk 3 8 = true ∧ (16 : BitVec 64).toNat < 2 ^ 48 ∧ (16 : BitVec 64).toNat % 8 = 0 ∧ ((linked prov).sess 0).lengthOk 16 = true ∧ ((linked prov).sess 0).lengthOk 12 = false := ⟨inv_of _ (by decide +kernel), by decide +kernel⟩
theorem test_windows : (after (.winRd 0 8) (after (.winSet 0 3 8 8) (after (.winWr 0 [1, 2, 3, 4, 5, 6, 7, 8]) (linked prov)))).gwe.results.map (fun r => r.data.drop 8) = [[1, 2, 3, 4, 5, 6, 7, 8]]
    ∧ (after (.winSet 0 1 8 8) (linked prov)).gwe.results.map (·.status) = [.badaddr] := by decide +kernel
/-- DBG reads g3 of thread 5. -/
def dbg6 : DbgArgs := { die := 0, op := 6, thread := 5, expGen := 0xFFFF, reg := 3, value := 0 }
theorem witness_Dbg : running.isLive 0 = true ∧ genOk dbg6.expGen.toNat ((debugged .halted .run).gen .CRA_STATE 0) = true ∧ ((debugged .halted .run).thr 0 5).open_ = true ∧ ((debugged .run .idle).thr 0 5).open_ = false := by decide +kernel

/-! Long operations. -/

/-- Arguments of FILL, CRC and TBL_CLEAR. -/
def longA (space unit len : Nat) : LongArgs := { space := space, unit := unit, flags := 0, offset := 0, length := len, pattern := 0x1122334455667788 }
theorem witness_Long_start : prov.Inv ∧ prov.freeOp = some 0 ∧ longRange (longA 3 8 24) = true ∧ prov.clearOk (longA 1 0xFF 0) = true ∧ ({ prov with plt := { prov.plt with ops := List.replicate 16 (some ⟨0, true, .ok, .patch, 0, 0, 0, 0, 0, 0⟩) } } : State).freeOp = none := ⟨inv_of _ (by decide +kernel), by decide +kernel⟩
theorem witness_Long_refused : longRange (longA 3 8 12) = false ∧ prov.clearOk (longA 9 0xFF 0) = false ∧ running.clearOk (longA 3 0xFF 0) = true ∧ running.glb.mode ≠ .provision ∧ running.freeOp = some 0 := by decide +kernel
/-- A FILL of 24 bytes in slot 0, running or ended. -/
def filling (ended : Bool) : State := { prov with plt := { prov.plt with nextOpid := 1, ops := some ⟨0, ended, .ok, .fill (longA 3 8 24), 0, 0, 0, 0, 0, 0xFFFFFFFF⟩ :: List.replicate 15 none } }
theorem witness_Long_run : (filling false).Inv ∧ ((filling false).op 0).isSome = true ∧ (filling false).plt.leadMove = none ∧ (filling false).opTurn 0 = true ∧ (opSome (filling false) ⟨0, false, .ok, .fill (longA 3 8 24), 0, 0, 0, 0, 0, 0xFFFFFFFF⟩ 2 1024).1 = none
    ∧ (opSome (filling false) ⟨0, false, .ok, .fill (longA 3 8 24), 0, 0, 0, 0, 0, 0xFFFFFFFF⟩ ((filling false).allUnits 0) (2 ^ 24)).1 = some .ok := ⟨inv_of _ (by decide +kernel), by decide +kernel⟩
theorem witness_Long_records : (filling false).opSlot 9 = none ∧ (filling false).opSlot 0 = some 0 ∧ ((filling true).op 0).map (·.ended) = some true ∧ ((filling false).op 0).map (·.ended) = some false := by decide +kernel
theorem test_long : (after (.longOpComplete 0) (filling false)).padBytes 0 0 16 9 = [0x11, 0x22, 0x33, 0x44, 0x55, 0x66, 0x77, 0x88, 0] ∧ ((after (.longOpComplete 0) (filling false)).op 0).map (fun r => (r.ended, r.status, r.progress)) = some (true, .ok, 24)
    ∧ (after (.abort 0) (filling true)).gwe.results.map (·.status) = [.alreadyDone] := by decide +kernel
/-- One piece of a container of 8 bytes. -/
def piece (off : Nat) (last : Bool) : PatchArgs := { total := 8, offset := off, last := last, data := [1, 2, 3, 4] }
/-- Its first half received. -/
def half : State := putPiece prov (piece 0 false)
theorem witness_Patch_pieces : prov.patchSlot = none ∧ (putPiece prov (piece 0 false)).plt.patchLast = false ∧ (putPiece half (piece 4 true)).plt.patchLast = true ∧ (putPiece half (piece 4 true)).plt.patchBuf.length = 8 ∧ half.freeOp = some 0 := by decide +kernel
/-- The same while a FILL runs: the patch waits. -/
def halfFill : State := putPiece (filling false) (piece 0 false)
theorem witness_Patch_waits : halfFill.Inv ∧ (startOp (putPiece halfFill (piece 4 true)) 1 .patch).2.opTurn 1 = false ∧ halfFill.freeOp = some 1 ∧ halfFill.patchSlot = none := ⟨inv_of _ (by decide +kernel), by decide +kernel⟩
/-- A verified patch at its turn. -/
def patching : State := { prov with plt := { prov.plt with nextOpid := 1, verified := true, ops := some ⟨0, false, .ok, .patch, 0, 0, 0, 0, 0, 0⟩ :: List.replicate 15 none } }
/-- The first bytes of a container that no vendor signed: in its turn it fails, and with it the operation. -/
theorem witness_Patch_unverified : ({ patching with plt := { patching.plt with verified := false } } : State).patchSlot = some 0 ∧ ({ patching with plt := { patching.plt with verified := false } } : State).opTurn 0 = true
    ∧ 0x400000 < ({ piece 0 false with total := 0x400001 } : PatchArgs).total ∧ (8 : Nat) < (6 + 4) ∧ (List.replicate 6 (0 : Byte)).length % 4 ≠ 0 := by decide +kernel
theorem witness_Patch_apply : patching.Inv ∧ patching.patchSlot = some 0 ∧ patching.opTurn 0 = true ∧ patching.plt.verified = true ∧ patching.plt.leadMove = none := ⟨inv_of _ (by decide +kernel), by decide +kernel⟩

/-! What the host is told. -/

/-- Two event records, the first sent. -/
def events : State := (let s := (linked running).queueEv pkg 0x8002 pkg 0 [1, 2]; let t := s.queueEv pkg 0x8004 pkg 0 []; { t with gwe := { t.gwe with evq := t.gwe.evq.map (fun e => { e with sent := decide (e.eseq = 0) }), evSent := some 0 } })
theorem witness_Host_evack : events.gwe.evSent = some 0 ∧ geHalf 0 (0 : Word).toNat = true ∧ geHalf 0 (1 : Word).toNat = false ∧ events.glb.mode.any = true := by decide
theorem witness_Host_events : events.hostPortOn = true ∧ events.evSession ≠ none ∧ events.silent = false ∧ (fitting (9600 - 12) ((events.gwe.evq.filter (fun e => !e.sent)).take (min 1 (events.evWindow - events.unacked)))).map (·.eseq) = [1] := by decide +kernel
theorem test_evack : (after (.evack 0) events).gwe.evq.map (·.eseq) = [1] ∧ (after (.evack 1) events).gwe.results.map (·.status) = [.badseq] := by decide +kernel
/-- R402: a record of two arguments has 24 bytes; the frame's sequence field is the first record's number. -/
theorem test_event_frame : (after (.eventSend 5) events).gwe.tx.map (fun x => (x.typ, x.seq, x.body.take 4)) = [(2, 1, [0x80, 0x04, 0, 0])] ∧ (after .eventRetransmit events).gwe.tx.map (fun x => x.body.length) = [24] := by decide +kernel
/-- An exception frame waits. -/
def exc0 : Exc := { die := 0, handle := mkHandle 0 0 0, mirror := none, info := List.replicate 36 0 }
theorem witness_Host_exception : ({ linked buf0 with gwe := { (linked buf0).gwe with excq := [exc0] } } : State).evSession ≠ none ∧ running.evSession = none ∧ (linked buf0).silent = false ∧ (linked buf0).hostPortOn = true ∧ (linked buf0).quayBad exc0.handle 0 (128 + cnum exc0.info 20 2) = false := by decide +kernel
theorem witness_Host_tell : events.canTell = true ∧ running.canTell = false ∧ (linked buf0).canTell = true ∧ (linked buf0).eventsWait = false ∧ events.eventsWait = true
    ∧ ({ linked buf0 with bpm := { (linked buf0).bpm with bad := [4] } } : State).quayBad exc0.handle 0 (128 + cnum exc0.info 20 2) = true := by decide +kernel
/-- R478: on an HX1620 with its die link down the host port's die is out of reach from die 1. -/
def cutLink : State := { linked buf0 with part := .hx1620, icu := { (linked buf0).icu with link := [(0, { lost := 34 })] }, gwe := { (linked buf0).gwe with excq := [{ exc0 with die := 1 }] } }
theorem witness_Host_unreached : cutLink.noRoute 1 cutLink.hostDie = true ∧ cutLink.noRoute 0 cutLink.hostDie = false ∧ cutLink.evSession ≠ none ∧ (after .exceptionSend cutLink).reg .PFB_ROUTE_DROP 1 [] = 1 ∧ (after .exceptionSend cutLink).gwe.excq = [] := by decide +kernel
/-- R405: the exception frame waits for the EVENT frame that can leave. -/
theorem test_exception_waits : (after .exceptionSend { events with gwe := { events.gwe with excq := [exc0] } }).gwe.excq = [exc0] ∧ (after .exceptionSend { linked buf0 with gwe := { (linked buf0).gwe with excq := [exc0] } }).gwe.tx.map (·.typ) = [3] := by decide +kernel
/-- The device's address under the UDP encapsulation. -/
def udp : State := ((linked running).setRf .GWE_ENCAP 0 [] 1 0 1).setReg .GWE_IP4 0 [] 0x0A000001
theorem witness_Host_arp : udp.hostPortOn = true ∧ udp.silent = false ∧ udp.isOurs false (0x0A000001 : BitVec 128).toNat = true := by decide +kernel
/-- An ARP frame on the standby attachment counts; the link comes up only in a mode that GWE_PORT_CFG enables. -/
theorem test_attachments : (after (.arpRequest true ⟨false, 0x0A000001⟩) udp).reg .GWE_STANDBY_DROP 0 [] = 1 ∧ (after (.arpRequest false ⟨false, 0x0A000001⟩) udp).gwe.answers = [(false, 0x0A000001)]
    ∧ [(3, true), (1, true), (1, false), (0, false)].map (fun x => (after (.hostAttachmentLink true ⟨true, x.2⟩) (running.setRf .GWE_PORT_CFG 0 [] 1 0 x.1)).gwe.linkB) = [true, false, true, false] := by decide +kernel
/-- Attachment A down, B up, FAILOVER_MS 5. -/
def failing : State := { running with gwe := { running.gwe with linkA := false, linkB := true } }.setRf .GWE_PORT_CFG 0 [] 31 16 5
theorem witness_Host_fails : failing.gwe.linkA = false ∧ failing.gwe.linkB = true ∧ failing.rf .GWE_PORT_CFG 0 [] 31 16 ≠ 0 ∧ (after .hostFailover failing).gwe.active = true ∧ (after .hostFailover (failing.setRf .GWE_PORT_CFG 0 [] 31 16 0)).gwe.active = false := by decide +kernel
theorem witness_Host_failover : (0 ∈ ({ running with lpx := { running.lpx with lost := [0] } } : State).lpx.lost) ∧ running.gwe.active = false ∧ (1 ∉ running.lpx.lost) ∧ running.hostPortOn = true := by decide
theorem witness_Host_watchdog : running.glb.mode = .run ∧ (running.setReg .GWE_WDOG 0 [] 0x00050005).rf .GWE_WDOG 0 [] 15 0 ≠ 0 ∧ (running.setReg .GWE_WDOG 0 [] 0x00050005).rf .GWE_WDOG 0 [] 31 16 ≠ 0
    ∧ ({ inMode .moored with glb := { (inMode .moored).glb with wdogMoored := true } } : State).glb.wdogMoored = true := by decide +kernel
def heardS (w : Word) : State := let s := running.setReg .GWE_WDOG 0 [] w; { s with gwe := { s.gwe with heard := true } }
theorem test_watchdog : (after .hostWdogExpiry (running.setReg .GWE_WDOG 0 [] 0x00050005)).glb.mode = .moored ∧ (after .hostWdogExpiry (heardS 0x00050005)).glb.mode = .run ∧ (after .hostWdogExpiry (useHeard (heardS 0x00050005))).glb.mode = .moored ∧ (after .hostWdogExpiry (running.setReg .GWE_WDOG 0 [] 0)).glb.mode = .run := by decide +kernel

/-! Modes and resets. -/

theorem witness_Modes_set : genOk (0xFFFF : BitVec 16).toNat (running.gen .GLB_MODE 0) = true ∧ setAllowed .run .drain = true ∧ setAllowed .provision .moored = false ∧ genOk (9 : BitVec 16).toNat (running.gen .GLB_MODE 0) = false ∧ running.glb.ordered = none ∧ running.Inv :=
  ⟨by decide +kernel, by decide, by decide, by decide +kernel, rfl, inv_of _ (by decide +kernel)⟩
theorem witness_Modes_seal : prov.ssc.busy = false ∧ prov.opRunning OpKind.isPatch = false ∧ prov.opRunning OpKind.isFill = false ∧ (sealStore prov).1 = true
    ∧ (sealStore { prov with plt := { prov.plt with mcsBad := prov.allDies.map (fun d => (d, 5)) } }).1 = false := by decide +kernel
theorem test_modes : (after (.modeSet 4 0xFFFF) running).glb.mode = .drain ∧ (after (.modeSet 2 0xFFFF) running).gwe.results.map (·.status) = [.mode] ∧ (after (.modeSet 4 9) running).gwe.results.map (·.status) = [.stale] := by decide +kernel
theorem witness_Modes_unit : 0 ∈ running.liveDies ∧ running.syuInUse 0 = false ∧ (running.putThr 0 5 (thr0 [])).syuInUse 0 = true ∧ ({ running with icu := { running.icu with unit := [(0, unitPrs)] } } : State).unitDown 0 unitPrs = true := by decide +kernel
/-- A unit restart on die 0 with something of each unit held. -/
def unitsS : State := let s := (fragS none).setLearnQ 0 [.move 7 0xAA 6]; { s with prs := { s.prs with eng := [(0, { frame := rxd, vec := [], cross := false })] }, cls := { s.cls with frag := [(3, frag0 none)] } }
theorem witness_Modes_restart : mrise 0 unitsS.prs.eng = true ∧ mrise 0 unitsS.cls.frag = true ∧ mrise 0 unitsS.fwt.learnq = true ∧ unitsS.Inv ∧ unitsS.learnQ 0 ≠ [] ∧ 0 ∈ unitsS.liveDies ∧ unitsS.syuInUse 0 = false := ⟨by decide +kernel, by decide +kernel, by decide +kernel, inv_of _ (by decide +kernel), by decide +kernel⟩
/-- R457: the parser's frame goes back to its queue, the learn queue is dropped and counted. -/
theorem test_restart : (after (.modeUnit 0 unitPrs 0xFFFF) unitsS).prs.eng = [] ∧ (after (.modeUnit 0 unitFwt 0xFFFF) unitsS).reg .FWT_LQ_DROP 0 [] = 1 ∧ (after (.modeUnit 0 unitCls 0xFFFF) unitsS).cls.frag = [] := by decide +kernel
theorem witness_Modes_ports : BitVec.ofNat 32 ((3 : Word).toNat % 2 ^ (4 * running.dies)) ≠ running.reg .GLB_INGRESS 0 [] ∧ prov.glb.mode ≠ .run ∧ prov.glb.mode ≠ .drain := by decide +kernel
theorem witness_Modes_drained : (inMode .drain).glb.mode = .drain ∧ (inMode .drain).glb.drainedSent = false ∧ (inMode .drain).occInflight = 0 ∧ (inMode .drain).occQuay = 0 ∧ (inMode .drain).occStaged = 0 := by decide +kernel
theorem witness_Modes_flush : bit (0xFFFF0001 : Word) 0 = true ∧ genOk (fld 0xFFFF0001 31 16) ((inMode .drain).gen .GLB_MODE 0) = true := by decide +kernel
theorem test_drained : (after .drained (inMode .drain)).gwe.evq.map (·.code) = [0x8002] ∧ (after .drained departing).gwe.evq = [] := by decide +kernel

/-- A reset ordered. -/
def ordered (c : Nat) : State := { departing with glb := { departing.glb with ordered := some c } }
theorem witness_Resets_ordered : (ordered 4).glb.mode.any = true ∧ (ordered 4).glb.ordered = some 4 ∧ (ordered 3).glb.ordered = some 3 := by decide
/-- Nothing on the wire, a staged frame in its segment, its mirror gone with the reset, and a ripple to be scanned. -/
def keeping : State := let s := segS .written 1; { s with fwt := { s.fwt with ripple := [0] }, glb := { s.glb with ordered := some 4 }, qba := { s.qba with lq := [(40000, { s.lq 40000 with items := [{ quayFrame with staged := true, seg := 6 }, quayFrame] })] } }
theorem witness_Resets_kept : keeping.Inv ∧ keeping.glb.ordered = some 4 ∧ mrise 0 keeping.ssc.seg = true ∧ keeping.cte.port = [] ∧ mrise 0 keeping.fwt.lpm = true ∧ keeping.fwt.ripple.Nodup ∧ 0 ∈ keeping.fwt.ripple
    ∧ (seg0 .written 1).left ≠ 0 ∧ keeping.seg 6 = some (seg0 .written 1) := ⟨inv_of _ (by decide +kernel), by decide +kernel⟩
/-- R450, R455: the staged frame stays in its segment, the other is gone. -/
theorem test_warm_keeps : ((after .warmReset keeping).lq 40000).items = [{ quayFrame with staged := true, seg := 6 }] ∧ (after .warmReset keeping).fwt.ripple = [] ∧ ((after .warmReset keeping).seg 6).map (·.st) = some .written := by decide +kernel
theorem witness_Resets_done : (after (.warmReset) (ordered 4)).glb.warm = some 4 := by decide +kernel
theorem test_warm : (after (.warmReset) (ordered 4)).glb.mode = .reset ∧ ((after (.warmReset) (ordered 4)).lq 0).items = [] ∧ (after .warmResetDone (after (.warmReset) (ordered 4))).glb.mode = .provision := by decide +kernel
theorem witness_Resets_start : State.reset.glb.mode = .reset ∧ State.reset.glb.warm = none ∧ State.reset.heldInReset = false ∧ 0 < State.reset.dies ∧ (0xFD : BitVec 8).getLsbD 0 = true ∧ (0xFD : BitVec 8).getLsbD 1 = false ∧ State.reset.icu.excl = 0 := by decide
theorem test_start : (after (.coldStart 0xFD (List.replicate 8 3)) State.reset).glb.mode = .listen ∧ (after (.coldStart 0xFD (List.replicate 8 3)) State.reset).excluded 1 = true ∧ (after (.coldStart 0xFD (List.replicate 8 3)) State.reset).excluded 0 = false := by decide +kernel
theorem witness_Resets_none : (∀ d, d < State.reset.dies → (0 : BitVec 8).getLsbD d = false) ∧ (∀ cause, (ordered cause).glb.warm = none) := ⟨by decide, fun _ => rfl⟩
theorem witness_Resets_takeover : ({ patching with plt := { patching.plt with leadMove := some 0, lead := 1 } } : State).plt.leadMove = some 0 ∧ patching.glb.warm = none ∧ patching.gwe.held = [] ∧ patching.Inv ∧ patching.patchSlot = some 0 := ⟨rfl, rfl, rfl, inv_of _ (by decide +kernel), by decide +kernel⟩

/-! Errors and containment. -/

theorem witness_Errors_mcs : running.excluded 0 = false ∧ running.mcsIsBad 0 5 = false ∧ ({ running with plt := { running.plt with mcsBad := [(0, 5)] } } : State).mcsIsBad 0 5 = true ∧ ({ running with plt := { running.plt with mcsBad := [(0, 5)] } } : State).mcsCopy 0 5 = true := by decide +kernel
theorem witness_Errors_mcs_bad : ({ running with plt := { running.plt with mcsBad := (List.range 8).map (fun d => (d, 12304)) } } : State).mcsIsBad 0 12304 = true ∧ ({ running with plt := { running.plt with mcsBad := (List.range 8).map (fun d => (d, 12304)) } } : State).mcsCopy 0 12304 = false
    ∧ running.gwe.evLost = 0 ∧ running.gwe.evq.length < 4096 ∧ running.Inv := ⟨by decide +kernel, by decide +kernel, rfl, by decide, inv_of _ (by decide +kernel)⟩
/-- R422: three wrong bits are reported, with the word on every die bad by the repair as well. -/
theorem test_mcs_report : (after (.mcsScrub 0 5 3) running).gwe.evq.map (fun e => (e.code, e.args)) = [(0x0E01, [0, 4, 5, 0])] ∧ (after (.mcsScrub 0 5 3) running).reg .MCS_UNCORR 0 [] = 1
    ∧ (after (.mcsRepair 0 12304) { running with plt := { running.plt with mcsBad := (List.range 8).map (fun d => (d, 12304)) } }).gwe.evq.map (fun e => (e.code, e.args)) = [(0x8202, [0, 12304])] := by decide +kernel
theorem witness_Errors_quay : buf0.bufferAt 0 (4 * 8) = some (0, mkHandle 0 0 0) ∧ buf0.allocated (mkHandle 0 0 0) = true ∧ 0 * 0x400000 + 4 ∉ buf0.bpm.bad := by decide +kernel
theorem witness_Errors_hbm : nbit running.ssc.lost 0 = false ∧ 100663295 ≤ 100663295 ∧ 7 < segTotal * 32 := by decide
/-- ICU_LIMIT at 4 errors a channel. -/
def limited : State := running.setRf .ICU_LIMIT 0 [] 15 0 4
theorem witness_Errors_piece : limited.Inv ∧ (0, 7) ∉ limited.ssc.bad ∧ limited.rf .ICU_CHAN_UE 0 [7 % 32 / 2] 15 0 + 1 < max 1 (limited.rf .ICU_LIMIT 0 [] 15 0) := ⟨inv_of _ (by decide +kernel), by decide, by decide +kernel⟩
/-- R467: the fourth piece of a channel that cannot be corrected loses the channel. -/
theorem test_channel_limit : bit (([7, 39, 71, 103].foldl (fun t p => after (.hbmScrub 0 p 2) t) limited).reg .SSC_STACK 0 []) 3 = true ∧ bit (([7, 39, 71].foldl (fun t p => after (.hbmScrub 0 p 2) t) limited).reg .SSC_STACK 0 []) 3 = false := by decide +kernel
theorem witness_Errors_table : ((0, entryNo false 7) ∉ running.icu.stuck) ∧ (0, entryNo true 7) ∈ ({ running with icu := { running.icu with restoring := [(0, 8199)] } } : State).icu.restoring := by decide
/-- A static entry bad on die 0 and good on die 1. -/
def staticS : State := let s := (running.setL2 0 9 (l2e true false false false)).setL2 1 30 (l2e true false false false); { s with icu := { s.icu with staticBad := [(0, 9)] } }
theorem witness_Errors_static : (0, 9) ∈ staticS.icu.staticBad ∧ staticS.l2At 0 9 = some (l2e true false false false) ∧ staticS.staticCopyL2 0 (l2e true false false false) = some (l2e true false false false) := by decide +kernel
theorem test_static : (after (.staticEntryRepair 0 .l2 9) staticS).icu.staticBad = [] := by decide +kernel

theorem witness_Failures_loss : running.excluded 2 = false ∧ running.isUp = true ∧ running.glb.mode.any = true ∧ fld 0xFFFF000A 2 0 = 2 ∧ bit (0xFFFF000A : Word) 3 = true ∧ genOk (fld 0xFFFF000A 31 16) (running.gen .DIE_HEALTH 0) = true
    ∧ running.excluded (partner 2) = false ∧ 1 < running.liveDies.length ∧ ({ running with icu := { running.icu with excl := 8 } } : State).excluded (partner 2) = true ∧ ({ running with icu := { running.icu with excl := 4 } } : State).excluded 2 = true
    ∧ (inMode .listen).glb.mode.any = false ∧ genOk (fld 0x0009000A 31 16) (running.gen .DIE_HEALTH 0) = false := by decide +kernel
/-- R430, R480: of dies 2 and 5 lost in one cycle each is excluded once, and the die that fails with it is found out already. -/
theorem test_loss_together : [2, 5].all (fun d => (after (.heartbeatLoss { die := 2, also := [(5, .heartbeat)] }) running).excluded d) = true ∧ (after (.heartbeatLoss { die := 5 }) (after (.heartbeatLoss { die := 2, also := [(5, .heartbeat)] }) running)).liveDies = [0, 1, 3, 4, 6, 7] := by decide +kernel
/-- R470: the host's exclusion of a die already excluded does nothing, unless its partner is excluded too. -/
theorem test_exclude_again : [4, 12].map (fun m => (after (.hostDieExclude ⟨0xFFFF000A, false⟩) { running with icu := { running.icu with excl := m } }).gwe.results.map (·.status)) = [[.ok], [.denied]] := by decide +kernel
theorem witness_Failures_out : ({ running with icu := { running.icu with excl := 4 } } : State).excluded 2 = true ∧ ({ running with icu := { running.icu with excl := 0xFB } } : State).liveDies.length ≤ 1 := by decide +kernel
/-- R480: of two exclusions of one die in the same cycle the host's does nothing and is answered as done. -/
theorem test_exclude_same : (after (.hostDieExclude ⟨0xFFFF000A, true⟩) { running with icu := { running.icu with excl := 4 } }).gwe.results.map (·.status) = [.ok] := by decide +kernel
theorem witness_Failures_links : running.linkState 2 0 < 2 ∧ (running.linkEnd 2 0).isSome = true ∧ running.linkLanes 2 0 ≠ 0 := by decide +kernel
/-- R473: the four lanes of an excluded die are bound to four contexts of its partner. -/
theorem test_fallbacks : ([0, 1, 2, 3].map (fun l => mfind (after (.hostDieExclude ⟨0xFFFF000A, false⟩) running).fwt.bound (2 * 4 + l))).eraseDups.length = 4 := by decide +kernel
theorem test_exclude : (after (.hostDieExclude ⟨0xFFFF000A, false⟩) running).excluded 2 = true ∧ (after (.hostDieExclude ⟨0xFFFF000A, false⟩) running).server 2 = 3 ∧ (after (.hostDieExclude ⟨0x0009000A, false⟩) running).gwe.results.map (·.status) = [.stale] := by decide +kernel

/-! Pins and the test access port. -/

/-- Supplies outside their range. -/
def supplyOut : State := { State.reset with glb := { State.reset.glb with supplyBad := true } }
theorem witness_Pins_supply : supplyOut.glb.supplyBad = true ∧ running.glb.supplyBad = false := by decide
theorem witness_Pins_clock : running.Inv ∧ running.glb.clkA = true ∧ running.glb.clocksLost = false ∧ running.onB = false ∧ running.glb.clkB = true ∧ ({ running with glb := { running.glb with clkB := false } } : State).glb.clkB = false
    ∧ ({ running with glb := { running.glb with clocksLost := true } } : State).glb.clocksLost = true := ⟨inv_of _ (by decide +kernel), by decide +kernel⟩
theorem witness_Pins_heat : running.senses 0 .compute = true ∧ ((running.rf .GLB_THERM_CFG 0 [] 7 0 : Nat) : Int) ≤ 116 ∧ 0 * 3 + sensorCode .compute ∉ running.glb.warned ∧ tripLevel .compute < 116 := by decide +kernel
theorem witness_Pins_hbm : running.senses 0 .hbm = true ∧ tripLevel .hbm < 200 := by decide +kernel
/-- A code in the instruction register. -/
def tapS (c : BitVec 8) : State := { running with glb := { running.glb with ir := c } }
theorem witness_Pins_tap : running.tap.holds = false ∧ [0x00, 0x04, 0x05, 0x0A, 0x0B].all (fun c => (tapS c).tap.holds) = true ∧ (0x07 : BitVec 8) ∉ ([0x00, 0x01, 0x02, 0x04, 0x05, 0x0A, 0x0B] : List (BitVec 8)) := by decide +kernel
/-- R519: the IDCODE register of an HX1680; R520: every code without a row is BYPASS, whose register is captured as 0. -/
theorem test_idcode : (after .idcode running).glb.dr = some 0x11680D57 ∧ (after .bypass running).glb.dr = some 0 ∧ (after .bypass running).tap = .bypass ∧ (tapS 0x07).tap = .bypass ∧ (after .extest running).tap = .extest := by decide +kernel
theorem witness_Pins_reset : ({ running with glb := { running.glb with mode := .reset } } : State).pinsReset = true := by decide
theorem test_clock : (after (.refclkLoss false) running).onB = true ∧ (after (.refclkLoss false) running).glb.mode = .run ∧ (after .extest running).glb.mode = .reset := by decide +kernel

/-! What was added last. -/

/-- A frame for another address, and one that verifies and carries something else. -/
theorem witness_Frames_other : ({ frameWith closeBytes with dst := Config.factoryAddress + 1 } : GwFrame).dst ≠ Config.factoryAddress
    ∧ (verifyFrame ((linked prov).bump .GWE_RX_FRAMES 0) { frameWith closeBytes with encap := .ether 0x0800 }).isSome = true ∧ ({ frameWith closeBytes with prot := false } : GwFrame).prot = false := by
  refine ⟨?_, by decide +kernel, rfl⟩
  simp
/-- A claim accepted under the association before this one, which may still send. -/
def rekeyed : State := { linked prov with gwe := { (linked prov).gwe with lastClaim := some (claimArgs, []), assoc := some { assoc0 with an := 1, old := some (0, 5), prior := some { keys := [], xpn := false, an := 0, pn := 4 } } } }
/-- R385: its repetition is answered under that one, with its next packet number; another frame under the present one. -/
theorem test_repeat_claim : rekeyed.repeatsClaim (frm [{ tag := 7, op := .claim claimArgs }]) = true ∧ rekeyed.repeatsClaim { frm [{ tag := 7, op := .claim claimArgs }] with an := 1 } = false
    ∧ (answerFrame rekeyed (frm [{ tag := 7, op := .claim claimArgs }]) cachedTx).gwe.tx.map (fun x => x.tag.map (fun t => (t.an, t.pn))) = [some (0, 5)]
    ∧ (answerFrame rekeyed (frm []) cachedTx).gwe.tx.map (fun x => x.tag.map (fun t => (t.an, t.pn))) = [some (1, 1)] := by decide +kernel

/-- A verified container of type 0 with the end record alone: 8 bytes of payload at byte 132. -/
def smallPatch : State := { patching with plt := { patching.plt with patchTotal := 252, patchBuf := [(35, 8), (132, 0xFF)] } }
theorem witness_Patch_abort : smallPatch.Inv ∧ smallPatch.patchSlot = some 0 ∧ smallPatch.opTurn 0 = true ∧ smallPatch.plt.verified = true ∧ (records smallPatch.container).isSome = true ∧ smallPatch.opSlot 0 = some 0 :=
  ⟨inv_of _ (by decide +kernel), by decide +kernel, by decide +kernel, by decide, by decide +kernel, by decide +kernel⟩
/-- R428: an abort behind the application finds it done, one before it ends it. -/
theorem test_patch_abort : (after (.abort 0) (after .patchApply smallPatch)).gwe.results.map (·.status) = [.alreadyDone] ∧ ((after .patchApply smallPatch).op 0).map (·.status) = some .ok
    ∧ ((after (.abort 0) smallPatch).op 0).map (·.status) = some .aborted := by decide +kernel
/-- R429: the operation keeps the key that is enrolled as it starts. -/
theorem test_patch_key : (startPatch { prov with gwe := { prov.gwe with ukey := [9] }, regs := (prov.setRf .MCS_CTRL 0 [] 1 1 1).regs } 0).plt.patchKey = some [9] ∧ (startPatch prov 0).plt.patchKey = none := by decide +kernel

theorem witness_Resets_cold : (ordered 3).glb.ordered = some 3 ∧ (ordered 4).glb.ordered ≠ some 3 ∧ ({ running with glb := { running.glb with supplyBad := true } } : State).glb.supplyBad = true ∧ running.glb.supplyBad = false := by decide
/-- R450, R451: a cold reset in RUN leaves no frame, session or event, and keeps fuses and pins; without an order there is none. -/
theorem test_cold : (after (.coldReset 3) (ordered 3)).qba.lq = [] ∧ (after (.coldReset 3) (ordered 3)).glb.mode = .reset ∧ (after (.coldReset 3) { ordered 3 with glb := { (ordered 3).glb with tripPin := true } }).glb.tripPin = true
    ∧ (after (.coldReset 2) (ordered 3)).glb.mode = .run ∧ (after (.coldReset 3) (ordered 3)).reg .GLB_RESET_CAUSE 0 [] = 3 := by decide +kernel

/-- A piece of segment 6, whose group has two stacks, or one with another piece of the stripe gone. -/
theorem witness_Errors_parity : (segS .written 1).parityServes 0 (6 * 32) = true ∧ ({ segS .written 1 with ssc := { (segS .written 1).ssc with bad := [(1, 6 * 32)] } } : State).parityServes 0 (6 * 32) = false := by decide +kernel
/-- R462: a chunk that parity serves raises no event, one that it cannot serve does. -/
theorem test_parity_event : [segS .written 1, { segS .written 1 with ssc := { (segS .written 1).ssc with bad := [(1, 6 * 32)] } }].map (fun s => (after (.hbmScrub 0 (6 * 32) 2) s).gwe.evq.map (fun e => (e.code, e.args))) = [[], [(0x0E01, [0, 15, 192, 1])]] := by decide +kernel
/-- R467: a pass that met the bad piece again does not lower the count; one that met none does. -/
theorem test_pass : [[(0, 3)], []].map (fun l => (passDone { running.setRf .ICU_CHAN_UE 0 [3] 15 0 2 with icu := { running.icu with passUe := l } } 0).rf .ICU_CHAN_UE 0 [3] 15 0) = [2, 1] := by decide +kernel

/-- A compute region that trips in the cycle of another die's loss. -/
def tripLoss : DieLoss := { die := 2, trips := [{ die := 5, sensor := .compute, temp := 116 }] }
theorem witness_Failures_trips : running.senses 5 .compute = true ∧ tripLevel .compute < 116 ∧ (5 : Fin 8).val < running.dies := by decide +kernel
/-- R430: both dies are excluded, one lead is elected, and the trip is reported. -/
theorem test_trip_together : [2, 5].all (fun d => (after (.heartbeatLoss tripLoss) running).excluded d) = true ∧ (after (.heartbeatLoss tripLoss) running).glb.tripPin = true
    ∧ ((after (.heartbeatLoss tripLoss) running).gwe.evq.filter (fun e => e.code = 0x8007)).map (·.args) = [[5, 0, 116]]
    ∧ (after (.thermtrip 0 .compute ⟨{ trips := [{ die := 1, sensor := .compute, temp := 120 }] }, 116⟩) running).gen .PLT_STATE 0 = (after (.thermtrip 0 .compute ⟨{}, 116⟩) running).gen .PLT_STATE 0 := by decide +kernel
theorem witness_Pins_level : running.senses 0 .island = true ∧ (120 : Int) ≤ tripLevel .island := by decide +kernel
/-- R517: at its level a sensor does not trip; R508: with the part in RESET the test inputs have no pull-up. -/
theorem test_trip_level : after (.thermtrip 0 .island ⟨{}, 120⟩) running = running ∧ running.testPin .tms = .pulledInput ∧ running.testPin .tck = .input ∧ State.reset.testPin .tdi = .input := by decide +kernel
end Sys2Proof.Tests
end

/-! PROOFS. What a step of the phase changes and what it leaves (spec/02 R42, R43, R51, R59, R536): the frames of the operations that a step runs, the phase after a step, and that a check which an input fails moves no step. -/

namespace Sys2Proof.Machine

/-! Frames. -/

/-- A frame of one part lies in every frame that lists the part. -/
theorem only_of_mem {p : Piece} {l : List Piece} {s t : State} (hp : p ∈ l) (h : only [p] s t) : only l s t :=
  only_mono (fun q hq => by rw [List.mem_singleton.mp hq]; exact hp) h

theorem phi_only (s : State) (x : Phi) : only [.phi] s { s with phi := x } := by
  intro p hp
  cases p
  case phi => exact absurd (List.mem_singleton.mpr rfl) hp
  all_goals rfl

theorem cte_only (s : State) (x : Cte) : only [.cte] s { s with cte := x } := by
  intro p hp
  cases p
  case cte => exact absurd (List.mem_singleton.mpr rfl) hp
  all_goals rfl

theorem ssc_only (s : State) (x : Ssc) : only [.ssc] s { s with ssc := x } := by
  intro p hp
  cases p
  case ssc => exact absurd (List.mem_singleton.mpr rfl) hp
  all_goals rfl

/-- A fold differs in no more parts than its steps do. -/
theorem foldl_only {α : Type} {l : List Piece} (f : State → α → State) (hf : ∀ t x, only l t (f t x)) (xs : List α) (s : State) :
    only l s (xs.foldl f s) :=
  foldl_keep (only l s) f (fun t x h => only_trans h (hf t x)) xs s (only_refl l s)

/-- Dies acted on in turn differ in no more parts than the action on one does. -/
theorem overDies_only {l : List Piece} (f : Nat → State → State) (hf : ∀ d t, only l t (f d t)) (ds : List Nat) (s : State) :
    only l s (overDies f ds s) :=
  foldl_only (fun t d => f d t) (fun t d => hf d t) ds s

/-! The ports and banks at a step. -/

theorem drainPorts_only (s : State) : only [.cte] s (drainPorts s) := cte_only s _

theorem settleRounds_only (s : State) : only [.cte] s (settleRounds s) :=
  foldl_only settleRound (fun t p => t.modPtx_only p _) _ s

theorem dropPf_only (s : State) (q j : Nat) : only [.cte, .qba, .ssc] s (dropPf s q j) :=
  only_trans (t := { s with cte := (dropPf s q j).cte }) (only_of_mem (p := .cte) (by decide) (cte_only s _))
    (only_of_mem (p := .ssc) (by decide) (ssc_only _ _))

theorem endRun_only (s : State) (b g : Nat) : only [.cte, .qba, .ssc] s (endRun s b g) := by
  unfold endRun
  refine only_trans (only_of_mem (p := .qba) (by decide) ?_) (foldl_only _ (fun t p => ?_) _ _)
  · exact foldl_only _ (fun t q => t.modLq_only q _) _ s
  · exact dropPf_only t p.q p.seg

theorem stepBank_only (s : State) (b : Nat) : only [.cte, .qba, .ssc] s (stepBank s b) := by
  have hbank : ∀ t f, only [.cte, .qba, .ssc] t (State.modBank t b f) := fun t f => only_of_mem (by decide) (t.modBank_only b f)
  have hends : ∀ t, only [.cte, .qba, .ssc] t ([0, 1, 2, 3].foldl
      (fun t g => if nbit (s.bank b).openG g ∧ ¬ nbit (s.openMask b) g then endRun t b g else t) t) := by
    refine foldl_only _ (fun t g => ?_) _
    split
    · exact endRun_only t b g
    · exact only_refl _ t
  have hopened : only [.cte, .qba, .ssc] s
      (if (s.bank b).openG = 0 ∧ s.openMask b ≠ 0 then s.modBank b (fun x => { x with runs := satAdd 32 x.runs 1 }) else s) := by
    split
    · exact hbank s _
    · exact only_refl _ s
  unfold stepBank
  dsimp only
  split
  · exact only_trans hopened (hends _)
  · exact only_trans (only_trans hopened (hends _)) (hbank _ _)

theorem stepBanks_only (s : State) : only [.cte, .qba, .ssc] s (stepBanks s) :=
  only_trans
    (only_trans (only_of_mem (by decide) (cte_only s _)) (foldl_only stepBank stepBank_only _ _))
    (only_of_mem (by decide) (settleRounds_only _))

@[simp] theorem stepBanks_phi (s : State) : (stepBanks s).phi = s.phi := stepBanks_only s .phi (by decide)

/-! The timing lanes and the begin of a crossing. -/

theorem laneStep_only (s : State) (lanes : List (Fin 8 × Nat)) : only [.phi] s (laneStep s lanes) := by
  refine foldl_only _ (fun t e => ?_) lanes s
  dsimp only
  split
  · exact phi_only t _
  · exact only_refl _ t

/-- A step on the timing lanes changes how the dies differ from the receiver die, in phase and in step count, and nothing else of the phase. -/
theorem laneStep_phi (s : State) (lanes : List (Fin 8 × Nat)) :
    (laneStep s lanes).phi = { s.phi with off := (laneStep s lanes).phi.off, cnt := (laneStep s lanes).phi.cnt } := by
  refine foldl_keep (fun t => t.phi = { s.phi with off := t.phi.off, cnt := t.phi.cnt }) _ (fun t e h => ?_) lanes s rfl
  dsimp only
  split
  · rw [h]
  · exact h

theorem recomputeBps_only (s : State) : only [.regs] s (recomputeBps s) :=
  foldl_only _ (fun t _ => t.setRf_only _ _ _ _ _ _) _ s

@[simp] theorem recomputeBps_phi (s : State) : (recomputeBps s).phi = s.phi := recomputeBps_only s .phi (by decide)

theorem skewDie_only (d : Nat) (s : State) : only [.regs, .phi, .gwe] s (skewDie d s) := by
  unfold skewDie
  dsimp only
  split
  · exact only_trans
      (only_trans (only_of_mem (by decide) (s.bumpF_only _ _ _ _ _ _)) (only_of_mem (by decide) (phi_only _ _)))
      (only_mono (by simp) (State.raiseEv_only _ _ _ _ _))
  · exact only_refl _ s

theorem skewDie_phi (d : Nat) (s : State) : (skewDie d s).phi = { s.phi with skewed := (skewDie d s).phi.skewed } := by
  unfold skewDie
  dsimp only
  split
  · simp only [State.raiseEv_phi, State.bumpF_phi]
  · rfl

theorem beginCrossing_only (s : State) (was : Nat) : only [.regs, .phi, .cte, .gwe] s (beginCrossing s was) := by
  unfold beginCrossing
  refine only_trans (only_trans ?_ (only_of_mem (p := .regs) (by decide) (recomputeBps_only _)))
    (overDies_only skewDie (fun d t => only_mono (by simp) (skewDie_only d t)) _ _)
  exact only_trans (t := { s with phi := { s.phi with wordIn := false } }) (only_of_mem (p := .phi) (by decide) (phi_only s _))
    (only_of_mem (p := .cte) (by decide) (cte_only _ _))

/-- The begin of a crossing changes nothing of the phase but that no word has ended in it yet and which dies are skewed. -/
theorem beginCrossing_phi (s : State) (was : Nat) :
    (beginCrossing s was).phi = { s.phi with wordIn := false, skewed := (beginCrossing s was).phi.skewed } := by
  refine overDies_keep (fun t => t.phi = { s.phi with wordIn := false, skewed := t.phi.skewed }) skewDie (fun d t h => ?_) _ _ ?_
  · rw [skewDie_phi, h]
  · rw [recomputeBps_phi]

/-! A step of the phase. -/

theorem advance_only (s : State) (lanes : List (Fin 8 × Nat)) : only [.regs, .phi, .cte, .qba, .ssc, .gwe] s (advance s lanes) := by
  have hlanes : ∀ x, only [.regs, .phi, .cte, .qba, .ssc, .gwe] s { laneStep (drainPorts s) lanes with phi := x } := fun x =>
    only_trans
      (only_trans (only_of_mem (by decide) (drainPorts_only s)) (only_of_mem (by decide) (laneStep_only _ lanes)))
      (only_of_mem (by decide) (phi_only _ x))
  unfold advance
  dsimp only
  refine only_trans ?_ (only_mono (by simp) (stepBanks_only _))
  split
  · exact only_trans (hlanes _) (only_mono (by simp) (beginCrossing_only _ _))
  · exact hlanes _

/-- The phase after a step (R42, R43, R44). -/
theorem advance_phi (s : State) (lanes : List (Fin 8 × Nat)) :
    (advance s lanes).phi = { s.phi with
      step := if s.xlen ≤ s.phi.step + 1 then 0 else s.phi.step + 1
      xing := if s.xlen ≤ s.phi.step + 1 then (s.phi.xing + 1) % 2 ^ 32 else s.phi.xing
      stepCnt := (s.phi.stepCnt + 1) % 2 ^ 64
      off := (laneStep (drainPorts s) lanes).phi.off
      cnt := (laneStep (drainPorts s) lanes).phi.cnt
      wordIn := (advance s lanes).phi.wordIn
      skewed := (advance s lanes).phi.skewed } := by
  have hl := laneStep_phi (drainPorts s) lanes
  by_cases hw : s.xlen ≤ s.phi.step + 1
  · simp only [advance, hw, decide_true, if_true, stepBanks_phi]
    rw [beginCrossing_phi]
    dsimp only
    rw [hl]
    rfl
  · simp only [advance, hw, decide_false, if_false, stepBanks_phi, Bool.false_eq_true]
    rw [hl]
    rfl

theorem advance_advancedTo (s : State) (lanes : List (Fin 8 × Nat)) : advancedTo lanes s (advance s lanes) := by
  refine ⟨by rw [advance_phi], by rw [advance_phi], by rw [advance_phi], ?_⟩
  rintro rfl
  exact ⟨by rw [advance_phi]; rfl, by rw [advance_phi]; rfl⟩

@[simp] theorem advance_st (s : State) (lanes : List (Fin 8 × Nat)) : (advance s lanes).phi.st = s.phi.st := by rw [advance_phi]
@[simp] theorem advance_src (s : State) (lanes : List (Fin 8 × Nat)) : (advance s lanes).phi.src = s.phi.src := by rw [advance_phi]
@[simp] theorem advance_estimated (s : State) (lanes : List (Fin 8 × Nat)) : (advance s lanes).phi.estimated = s.phi.estimated := by rw [advance_phi]
@[simp] theorem advance_coasted (s : State) (lanes : List (Fin 8 × Nat)) : (advance s lanes).phi.coasted = s.phi.coasted := by rw [advance_phi]

/-! What moves no step. -/

/-- The numbers that a step moves: the step number, the crossing number, the step count, and how the dies differ in phase and step count. -/
def Phi.clock (p : Phi) : Nat × Nat × Nat × SMap Int × SMap Int := (p.step, p.xing, p.stepCnt, p.off, p.cnt)

/-- From s to t the phase has made no step: its numbers are the same, and at most the registers, the phase receiver, the ports' rounds and the event queue differ. -/
structure NoStep (s t : State) : Prop where
  clock : t.phi.clock = s.phi.clock
  frame : only [.regs, .phi, .cte, .gwe] s t

theorem NoStep.refl (s : State) : NoStep s s := ⟨rfl, only_refl _ s⟩

theorem NoStep.trans {s t u : State} (h : NoStep s t) (k : NoStep t u) : NoStep s u := ⟨k.clock.trans h.clock, only_trans h.frame k.frame⟩

/-- A change of the phase receiver that leaves its numbers. -/
theorem NoStep.of_phi (s : State) (x : Phi) (h : x.clock = s.phi.clock) : NoStep s { s with phi := x } :=
  ⟨h, only_of_mem (by decide) (phi_only s x)⟩

theorem setEstimated_noStep (t : State) (e : Bool) : NoStep t { t with phi := { t.phi with estimated := e } } := .of_phi t _ rfl

theorem setCoasted_noStep (t : State) (n : Nat) : NoStep t { t with phi := { t.phi with coasted := n } } := .of_phi t _ rfl

/-- A change outside the phase receiver. -/
theorem NoStep.of_only {s t : State} (h : only [.regs, .cte, .gwe] s t) : NoStep s t :=
  ⟨congrArg Phi.clock (h .phi (by decide)), only_mono (by simp) h⟩

theorem NoStep.numbers {s t : State} (h : NoStep s t) :
    t.phi.step = s.phi.step ∧ t.phi.xing = s.phi.xing ∧ t.phi.stepCnt = s.phi.stepCnt ∧ t.phi.off = s.phi.off ∧ t.phi.cnt = s.phi.cnt := by
  simpa only [Phi.clock, Prod.mk.injEq] using h.clock

/-- Where no step is made before and after one, the phase has made that step. -/
theorem advancedTo_of_noStep {lanes : List (Fin 8 × Nat)} {s u v t : State} (hb : NoStep s u) (hx : u.xlen = s.xlen)
    (h : advancedTo lanes u v) (ha : NoStep v t) : advancedTo lanes s t := by
  obtain ⟨hbstep, hbxing, hbcnt, hboff, hbdie⟩ := hb.numbers
  obtain ⟨hastep, haxing, hacnt, haoff, hadie⟩ := ha.numbers
  unfold advancedTo at *
  rwa [hastep, haxing, hacnt, haoff, hadie, ← hx, ← hbstep, ← hbxing, ← hbcnt, ← hboff, ← hbdie]

theorem setPhIn_noStep (s : State) (i : PhInp) (x : PhIn) : NoStep s (s.setPhIn i x) := by
  cases i with
  | a => exact .of_phi s _ rfl
  | b => exact .of_phi s _ rfl

theorem phEvent_noStep (s : State) (code : Nat) (args : List Nat) : NoStep s (phEvent s code args) :=
  .of_only (only_mono (by simp) (s.raiseEv_only _ _ _ _))

theorem setPhase_noStep (s : State) (st : PhSt) (src : PhSrc) : NoStep s (setPhase s st src) := by
  unfold setPhase
  split
  · exact .refl s
  · refine NoStep.trans ?_ (.of_only (only_of_mem (p := .cte) (by decide) (settleRounds_only _)))
    refine NoStep.trans ?_ (.of_only (only_of_mem (p := .regs) (by decide) (State.bumpGen_only _ _ _)))
    exact .of_phi s _ rfl

theorem takePeriod_noStep (s : State) (i : PhInp) : NoStep s (takePeriod s i) := by
  unfold takePeriod
  dsimp only
  split
  · exact .refl s
  · exact .of_phi s _ rfl

theorem setAdopt_noStep (s : State) (a : Option PhInp) : NoStep s { s with phi := { s.phi with adopt := a } } := .of_phi s _ rfl

theorem consider_noStep (s : State) : NoStep s (consider s) := setAdopt_noStep s _

theorem toLost_noStep (s : State) : NoStep s (toLost s) := (setPhase_noStep s _ _).trans (phEvent_noStep _ _ _)

theorem toHoldover_noStep (s : State) : NoStep s (toHoldover s) := by
  unfold toHoldover
  split
  · exact toLost_noStep s
  · exact ((setCoasted_noStep s 0).trans (setPhase_noStep _ _ _)).trans (phEvent_noStep _ _ _)

theorem switchTo_noStep (s : State) (i : PhInp) : NoStep s (switchTo s i) :=
  ((takePeriod_noStep s i).trans (setPhase_noStep _ _ _)).trans (phEvent_noStep _ _ _)

/-- An input that becomes healthy moves no step: one that agrees is taken up where the phase stands, another waits for its step 0 (R49). -/
theorem becameHealthy_noStep (s : State) (i : PhInp) : NoStep s (becameHealthy s i) := by
  have hwaits : NoStep s (if s.phi.adopt = none then { s with phi := { s.phi with adopt := some i } } else s) := by
    split
    · exact setAdopt_noStep s _
    · exact .refl s
  unfold becameHealthy
  split
  case h_1 =>
    split
    · exact .refl s
    · exact phEvent_noStep s _ _
  case h_2 => exact consider_noStep s
  case h_3 =>
    split
    · exact ((((setAdopt_noStep s none).trans (takePeriod_noStep _ i)).trans (setPhase_noStep _ _ _)).trans (phEvent_noStep _ _ _)).trans
        (.of_only (only_of_mem (p := .regs) (by decide) (State.setReg_only _ _ _ _ _)))
    · exact hwaits
  case h_4 => exact hwaits
  case h_5 => exact .refl s

theorem inputFailed_noStep (s : State) (i : PhInp) (check : Nat) : NoStep s (inputFailed s i check) := by
  unfold inputFailed
  extract_lets was p t
  have hdrop : NoStep s t := by
    unfold t
    split
    · exact setAdopt_noStep s none
    · exact .refl s
  clear_value t
  have hnext : NoStep s (if was ∧ (t.phIn (otherInp i)).healthy then becameHealthy t (otherInp i) else t) := by
    split
    · exact hdrop.trans (becameHealthy_noStep _ _)
    · exact hdrop
  split
  case h_1 => exact hdrop.trans (consider_noStep _)
  case h_2 =>
    split
    · split
      · exact hdrop.trans (switchTo_noStep _ _)
      · exact hdrop.trans (toHoldover_noStep _)
    · exact hdrop.trans (phEvent_noStep _ _ _)
  case h_3 => exact hnext
  case h_4 => exact hnext
  case h_5 => exact hdrop

theorem failCheck_noStep (s : State) (i : PhInp) (check : Nat) : NoStep s (failCheck s i check) := by
  unfold failCheck
  dsimp only
  split
  · exact ((setPhIn_noStep s i _).trans (setEstimated_noStep _ _)).trans (inputFailed_noStep _ i check)
  · exact .refl s

/-! An edge of an input. -/

/-- An edge changes what is kept of its input, and counts a mark that failed. -/
theorem trackEdge_eq (s : State) (i : PhInp) (mark : Bool) (period : Nat) : ∃ (x : PhIn) (err : Bool),
    (trackEdge s i mark period).2 = if err then (s.setPhIn i x).bumpF .PHI_ERR 0 [inpNo i] 31 16 1 else s.setPhIn i x :=
  ⟨_, _, rfl⟩

theorem trackEdge_noStep (s : State) (i : PhInp) (mark : Bool) (period : Nat) : NoStep s (trackEdge s i mark period).2 := by
  obtain ⟨x, err, h⟩ := trackEdge_eq s i mark period
  rw [h]
  split
  · exact (setPhIn_noStep s i x).trans (.of_only (only_of_mem (by decide) (State.bumpF_only _ _ _ _ _ _ _)))
  · exact setPhIn_noStep s i x

@[simp] theorem setPhIn_st (s : State) (i : PhInp) (x : PhIn) : (s.setPhIn i x).phi.st = s.phi.st := by cases i <;> rfl
@[simp] theorem setPhIn_src (s : State) (i : PhInp) (x : PhIn) : (s.setPhIn i x).phi.src = s.phi.src := by cases i <;> rfl
@[simp] theorem setPhIn_regs (s : State) (i : PhInp) (x : PhIn) : (s.setPhIn i x).regs = s.regs := by cases i <;> rfl

/-- An edge by itself leaves the phase state and the source. -/
theorem trackEdge_state (s : State) (i : PhInp) (mark : Bool) (period : Nat) :
    (trackEdge s i mark period).2.phi.st = s.phi.st ∧ (trackEdge s i mark period).2.phi.src = s.phi.src := by
  obtain ⟨x, err, h⟩ := trackEdge_eq s i mark period
  cases err <;> simp [h]

/-- PHI_XLEN is a register's word, so equal words give the same crossing length. -/
theorem xlen_of_regs {s t : State} (h : t.regs = s.regs) : t.xlen = s.xlen := by
  unfold State.xlen State.rf State.reg
  rw [h]

/-- PHI_ERR of an input stands at another address than PHI_XLEN (R61). -/
theorem phiXlen_addr_ne (i : PhInp) : Reg.addr .PHI_XLEN 0 [] ≠ Reg.addr .PHI_ERR 0 [inpNo i] := by
  cases i <;> decide

theorem trackEdge_xlen (s : State) (i : PhInp) (mark : Bool) (period : Nat) (hr : mrise 0 s.regs = true) :
    (trackEdge s i mark period).2.xlen = s.xlen := by
  obtain ⟨x, err, h⟩ := trackEdge_eq s i mark period
  rw [h]
  split
  · have hreg : ((s.setPhIn i x).bumpF .PHI_ERR 0 [inpNo i] 31 16 1).reg .PHI_XLEN 0 [] = (s.setPhIn i x).reg .PHI_XLEN 0 [] :=
      State.reg_setRf_other _ _ _ _ _ _ _ _ _ _ (by rwa [setPhIn_regs]) (phiXlen_addr_ne i)
    calc _ = (s.setPhIn i x).xlen := congrArg (fun w => fld w 24 0) hreg
      _ = s.xlen := xlen_of_regs (setPhIn_regs s i x)
  · exact xlen_of_regs (setPhIn_regs s i x)

/-- The state with an edge of the active input taken in, before the step that it may add: the edge tracked, the period of an edge without a failure taken, no step estimated any longer. -/
def State.edgeTaken (s : State) (i : PhInp) (mark : Bool) (period : Nat) : State :=
  let t := if (trackEdge s i mark period).1.isNone then takePeriod (trackEdge s i mark period).2 i else (trackEdge s i mark period).2
  { t with phi := { t.phi with estimated := false } }

/-- What follows the step of an edge: a word that has ended in the crossing is noted, and a failure takes effect (R55, R74). -/
def State.edgeSettled (t : State) (i : PhInp) (bad : Option Nat) : State :=
  let u := if (t.phIn i).whole then { t with phi := { t.phi with wordIn := true } } else t
  match bad with
  | some c => failCheck u i c
  | none => u

theorem isActive_iff (s : State) (i : PhInp) : s.isActive i = true ↔ s.phi.st = .locked ∧ s.phi.src = inpSrc i := by
  simp [State.isActive]

/-- An edge of the active input is taken in, adds its step unless it comes too soon after an estimated one, and settles (R42, R46, R536). -/
theorem stepEdge_of_active {s : State} {i : PhInp} (mark : Bool) (period lag : Nat) (lanes : List (Fin 8 × Nat))
    (ha : s.isActive i = true) (hp : s.pinsReset = false) :
    stepEdge s i mark period lag lanes =
      (if s.phi.estimated = true ∧ 2 * lag ≤ s.phi.period then s.edgeTaken i mark period else advance (s.edgeTaken i mark period) lanes).edgeSettled i
        (trackEdge s i mark period).1 := by
  have hst : ¬ (s.phi.st = .self ∨ s.pinsReset = true) := by simp [((isActive_iff s i).mp ha).1, hp]
  unfold stepEdge
  rw [if_neg hst]
  simp only [ha, not_true, if_false, Bool.and_eq_true, decide_eq_true_eq]
  rfl

theorem edgeTaken_noStep (s : State) (i : PhInp) (mark : Bool) (period : Nat) : NoStep s (s.edgeTaken i mark period) := by
  refine NoStep.trans ?_ (setEstimated_noStep _ false)
  split
  · exact (trackEdge_noStep s i mark period).trans (takePeriod_noStep _ i)
  · exact trackEdge_noStep s i mark period

/-- Taking the period changes nothing of the phase receiver but its period, and nothing else. -/
theorem takePeriod_eq (s : State) (i : PhInp) : takePeriod s i = { s with phi := { s.phi with period := (takePeriod s i).phi.period } } := by
  unfold takePeriod
  dsimp only
  split <;> rfl

theorem edgeTaken_state (s : State) (i : PhInp) (mark : Bool) (period : Nat) :
    (s.edgeTaken i mark period).phi.st = s.phi.st ∧ (s.edgeTaken i mark period).phi.src = s.phi.src := by
  unfold State.edgeTaken
  dsimp only
  split
  · rw [takePeriod_eq]; exact trackEdge_state s i mark period
  · exact trackEdge_state s i mark period

@[simp] theorem edgeTaken_estimated (s : State) (i : PhInp) (mark : Bool) (period : Nat) : (s.edgeTaken i mark period).phi.estimated = false := rfl

theorem edgeTaken_xlen (s : State) (i : PhInp) (mark : Bool) (period : Nat) (hr : mrise 0 s.regs = true) :
    (s.edgeTaken i mark period).xlen = s.xlen := by
  rw [← trackEdge_xlen s i mark period hr]
  refine xlen_of_regs ?_
  unfold State.edgeTaken
  dsimp only
  split
  · rw [takePeriod_eq]
  · rfl

theorem edgeSettled_noStep (t : State) (i : PhInp) (bad : Option Nat) : NoStep t (t.edgeSettled i bad) := by
  have hword : NoStep t (if (t.phIn i).whole then { t with phi := { t.phi with wordIn := true } } else t) := by
    split
    · exact .of_phi t _ rfl
    · exact .refl t
  cases bad with
  | none => exact hword
  | some c => exact hword.trans (failCheck_noStep _ i c)

/-- An edge that fails no check leaves the phase state, the source and whether the last step was an estimated one. -/
theorem edgeSettled_none (t : State) (i : PhInp) :
    (t.edgeSettled i none).phi.estimated = t.phi.estimated ∧ (t.edgeSettled i none).phi.st = t.phi.st ∧ (t.edgeSettled i none).phi.src = t.phi.src := by
  unfold State.edgeSettled
  dsimp only
  split <;> exact ⟨rfl, rfl, rfl⟩

section
variable {s : State} {i : PhInp} {lag : Nat} (mark : Bool) (period : Nat) (lanes : List (Fin 8 × Nat))
  (ha : s.isActive i = true) (hp : s.pinsReset = false)
include ha hp

/-- An edge of the active input adds one step, whether or not it passes its checks (R42, R46, R55). -/
theorem stepEdge_advancedTo (hr : mrise 0 s.regs = true) (hl : ¬ (s.phi.estimated = true ∧ 2 * lag ≤ s.phi.period)) :
    advancedTo lanes s (stepEdge s i mark period lag lanes) := by
  rw [stepEdge_of_active mark period lag lanes ha hp, if_neg hl]
  exact advancedTo_of_noStep (edgeTaken_noStep s i mark period) (edgeTaken_xlen s i mark period hr) (advance_advancedTo _ lanes) (edgeSettled_noStep _ i _)

theorem stepEdge_only (hl : ¬ (s.phi.estimated = true ∧ 2 * lag ≤ s.phi.period)) :
    only [.regs, .phi, .cte, .qba, .ssc, .gwe] s (stepEdge s i mark period lag lanes) := by
  rw [stepEdge_of_active mark period lag lanes ha hp, if_neg hl]
  exact only_trans (only_trans (only_mono (by simp) (edgeTaken_noStep s i mark period).frame) (advance_only _ lanes))
    (only_mono (by simp) (edgeSettled_noStep _ i _).frame)

theorem stepEdge_st_of_passed (hl : ¬ (s.phi.estimated = true ∧ 2 * lag ≤ s.phi.period)) (hb : (trackEdge s i mark period).1 = none) :
    (stepEdge s i mark period lag lanes).phi.estimated = false ∧ (stepEdge s i mark period lag lanes).phi.st = s.phi.st
      ∧ (stepEdge s i mark period lag lanes).phi.src = s.phi.src := by
  rw [stepEdge_of_active mark period lag lanes ha hp, if_neg hl, hb]
  obtain ⟨he, hst, hsrc⟩ := edgeSettled_none (advance (s.edgeTaken i mark period) lanes) i
  rw [he, hst, hsrc, advance_estimated, advance_st, advance_src]
  exact ⟨edgeTaken_estimated s i mark period, edgeTaken_state s i mark period⟩

/-- An edge no later than half a period after an estimated step adds none (R536). -/
theorem stepEdge_noStep (hl : s.phi.estimated = true ∧ 2 * lag ≤ s.phi.period) : NoStep s (stepEdge s i mark period lag lanes) := by
  rw [stepEdge_of_active mark period lag lanes ha hp, if_pos hl]
  exact (edgeTaken_noStep s i mark period).trans (edgeSettled_noStep _ i _)

end

/-! The other steps. -/

/-- A coasted step is a step, which HOLDOVER counts (R51). -/
theorem advance_coast_noStep (s : State) (lanes : List (Fin 8 × Nat)) : NoStep (advance s lanes) (coast s lanes) := by
  unfold coast
  generalize advance s lanes = t
  dsimp only
  split
  · exact setCoasted_noStep t _
  · exact .refl t

theorem coast_advancedTo (s : State) (lanes : List (Fin 8 × Nat)) : advancedTo lanes s (coast s lanes) :=
  advancedTo_of_noStep (.refl s) rfl (advance_advancedTo s lanes) (advance_coast_noStep s lanes)

theorem coast_only (s : State) (lanes : List (Fin 8 × Nat)) : only [.regs, .phi, .cte, .qba, .ssc, .gwe] s (coast s lanes) :=
  only_trans (advance_only s lanes) (only_mono (by simp) (advance_coast_noStep s lanes).frame)

theorem coast_coasted (s : State) (lanes : List (Fin 8 × Nat)) :
    (coast s lanes).phi.coasted = if s.phi.st = .holdover then s.phi.coasted + 1 else s.phi.coasted := by
  unfold coast
  dsimp only
  split <;> simp

/-- Neither a locked phase nor self-phase coasts (R48, R51). -/
theorem st_of_coasts {s : State} (h : s.coasts = true) : s.phi.st ≠ .locked ∧ s.phi.st ≠ .self := by
  unfold State.coasts at h
  constructor <;> intro hs <;> simp [hs] at h

/-- The step that begins a crossing begins it at step 0 (R42). -/
theorem step_zero_of_advancedTo {lanes : List (Fin 8 × Nat)} {s t : State} (hx : s.xlen ≤ s.phi.step + 1) (h : advancedTo lanes s t) : t.phi.step = 0 := by
  rw [h.1, if_pos hx]

/-- CROSSING_BEGIN is the step of the phase state: self-phase's own, a coasted one, or the edge of the active input (R42, R51, R59). -/
theorem execCrossingBegin_self {s : State} (mark : Bool) (e : StepEdge) (hx : s.xlen ≤ s.phi.step + 1) (h : s.phi.st = .self) :
    execCrossingBegin mark e s = .next (advance s e.lanes) := by
  unfold execCrossingBegin
  rw [if_neg (by omega), h]

theorem execCrossingBegin_coasts {s : State} (mark : Bool) (e : StepEdge) (hx : s.xlen ≤ s.phi.step + 1) (h : s.coasts = true) :
    execCrossingBegin mark e s = .next (coast s e.lanes) := by
  obtain ⟨hl, hs⟩ := st_of_coasts h
  unfold execCrossingBegin
  rw [if_neg (by omega)]
  split
  case h_1 hst _ => exact absurd hst hl
  case h_2 hst _ => exact absurd hst hl
  case h_3 hst => exact absurd hst hs
  case h_4 => rw [if_pos h]

theorem execCrossingBegin_active {s : State} {i : PhInp} (mark : Bool) (e : StepEdge) (hx : s.xlen ≤ s.phi.step + 1) (h : s.isActive i = true) :
    execCrossingBegin mark e s = .next (stepEdge s i mark e.period e.lag e.lanes) := by
  obtain ⟨hst, hsrc⟩ := (isActive_iff s i).mp h
  unfold execCrossingBegin
  rw [if_neg (by omega), hst, hsrc]
  cases i <;> rfl

/-- CROSSING_BEGIN at the last step of a crossing: one step, which is step 0 (R42). -/
theorem crossingBegin_advances {s : State} (mark : Bool) (e : StepEdge) (hr : mrise 0 s.regs = true) (hx : s.xlen ≤ s.phi.step + 1)
    (h : s.phi.st = .self ∨ s.coasts = true ∨
      (s.pinsReset = false ∧ (∃ i, s.isActive i = true) ∧ ¬ (s.phi.estimated = true ∧ 2 * e.lag ≤ s.phi.period))) :
    ∃ t, execCrossingBegin mark e s = .next t ∧ advancedTo e.lanes s t ∧ t.phi.step = 0 ∧ only [.regs, .phi, .cte, .qba, .ssc, .gwe] s t := by
  obtain ⟨t, hrun, hadv, honly⟩ : ∃ t, execCrossingBegin mark e s = .next t ∧ advancedTo e.lanes s t ∧ only [.regs, .phi, .cte, .qba, .ssc, .gwe] s t := by
    rcases h with hself | hcoast | ⟨hp, ⟨i, ha⟩, hl⟩
    · exact ⟨_, execCrossingBegin_self mark e hx hself, advance_advancedTo s _, advance_only s _⟩
    · exact ⟨_, execCrossingBegin_coasts mark e hx hcoast, coast_advancedTo s _, coast_only s _⟩
    · exact ⟨_, execCrossingBegin_active mark e hx ha, stepEdge_advancedTo mark _ _ ha hp hr hl, stepEdge_only mark _ _ ha hp hl⟩
  exact ⟨t, hrun, hadv, step_zero_of_advancedTo hx hadv, honly⟩

/-- PHASE_STEP of the active input that adds its step (R42, R55). -/
theorem phaseStep_advances {s : State} {i : PhInp} (mark : Bool) (period : Nat) (x : StepLag) (hr : mrise 0 s.regs = true)
    (ha : s.isActive i = true) (hp : s.pinsReset = false) (hl : ¬ (s.phi.estimated = true ∧ 2 * x.lag ≤ s.phi.period)) :
    ∃ t, execPhaseStep i mark period x s = .next t ∧ advancedTo x.lanes s t ∧ only [.regs, .phi, .cte, .qba, .ssc, .gwe] s t
      ∧ ((trackEdge s i mark period).1 = none → t.phi.estimated = false ∧ t.phi.st = s.phi.st ∧ t.phi.src = s.phi.src) :=
  ⟨_, rfl, stepEdge_advancedTo mark period _ ha hp hr hl, stepEdge_only mark period _ ha hp hl, stepEdge_st_of_passed mark period _ ha hp hl⟩

/-- PHASE_STEP of the active input that comes too soon after an estimated step (R536). -/
theorem phaseStep_adds_none {s : State} {i : PhInp} (mark : Bool) (period : Nat) (x : StepLag)
    (ha : s.isActive i = true) (hp : s.pinsReset = false) (hl : s.phi.estimated = true ∧ 2 * x.lag ≤ s.phi.period) :
    ∃ t, execPhaseStep i mark period x s = .next t ∧ t.phi.step = s.phi.step ∧ t.phi.xing = s.phi.xing ∧ t.phi.stepCnt = s.phi.stepCnt
      ∧ only [.regs, .phi, .cte, .gwe] s t := by
  have h := stepEdge_noStep mark period x.lanes ha hp hl
  obtain ⟨hstep, hxing, hcnt, -⟩ := h.numbers
  exact ⟨_, rfl, hstep, hxing, hcnt, h.frame⟩

/-- ESTIMATED_STEP while the phase is locked: one step, noted as estimated (R536). -/
theorem estimatedStep_advances {s : State} (h : s.phi.st = .locked) :
    ∃ t, execEstimatedStep s = .next t ∧ advancedTo [] s t ∧ t.phi.estimated = true ∧ only [.regs, .phi, .cte, .qba, .ssc, .gwe] s t := by
  refine ⟨{ advance s [] with phi := { (advance s []).phi with estimated := true } }, ?_, ?_, rfl, ?_⟩
  · unfold execEstimatedStep
    rw [if_pos h]
  · exact advancedTo_of_noStep (.refl s) rfl (advance_advancedTo s []) (setEstimated_noStep _ true)
  · exact only_trans (advance_only s []) (only_mono (by simp) (setEstimated_noStep _ true).frame)

theorem coastedStep_advances {s : State} (h : s.coasts = true) :
    ∃ t, execCoastedStep s = .next t ∧ advancedTo [] s t ∧ t.phi.coasted = (if s.phi.st = .holdover then s.phi.coasted + 1 else s.phi.coasted)
      ∧ only [.regs, .phi, .cte, .qba, .ssc, .gwe] s t := by
  refine ⟨coast s [], ?_, coast_advancedTo s [], coast_coasted s [], coast_only s []⟩
  unfold execCoastedStep
  rw [if_pos h]

theorem selfPhaseStep_advances {s : State} (h : s.phi.st = .self) :
    ∃ t, execSelfPhaseStep s = .next t ∧ advancedTo [] s t ∧ only [.regs, .phi, .cte, .qba, .ssc, .gwe] s t := by
  refine ⟨advance s [], ?_, advance_advancedTo s [], advance_only s []⟩
  unfold execSelfPhaseStep
  rw [if_pos h]

/-- Settles O6: every step of the phase is one `advance`, and what surrounds it (the edge's tracking, a failed check, the coasted count) moves none of the phase's numbers. -/
theorem stepsAdvanceThePhase : Obligations.StepsAdvanceThePhase := by
  intro s lanes hinv
  obtain ⟨-, ⟨hr, -⟩, -⟩ := hinv
  refine ⟨fun i mark period lag ha hp => ⟨fun hl => ?_, fun he hl => ?_⟩, fun h => ?_, fun h => ?_, fun h => ?_, fun mark period lag hx h => ?_⟩
  · exact phaseStep_advances mark period ⟨lag, lanes⟩ hr ha hp hl
  · exact phaseStep_adds_none mark period ⟨lag, lanes⟩ ha hp ⟨he, hl⟩
  · exact estimatedStep_advances h
  · exact coastedStep_advances h
  · exact selfPhaseStep_advances h
  · exact crossingBegin_advances mark ⟨period, lag, lanes⟩ hr hx h

end Sys2Proof.Machine

/-! PROOFS. A slot whose instruction writes one register and goes on at PC + 1 (spec/09 R262, spec/10 R299), and the bit fields that BFX and BFI move (spec/10 R305). -/

namespace Sys2Proof.Machine

/-! The thread of a counted slot. -/

@[simp] theorem State.bump_thr (s : State) (r : Reg) (e : Nat) (idx : List Nat) (d n : Nat) : (s.bump r e idx).thr d n = s.thr d n := by
  simp only [State.thr, State.bump_cra]

/-- A slot counts toward its thread before the instruction has its effect (R279, R293). -/
@[simp] theorem countSlot_thr (s : State) (d n : Nat) : (countSlot s d n).thr d n = s.slotted d n := by
  have h : (s.modThr d n (fun _ => s.slotted d n)).thr d n = s.slotted d n := by
    rw [State.modThr_eq_putThr _ _ _ _ (fun h => absurd (congrArg Thr.since h) (Nat.succ_ne_zero _)), State.thr_putThr_self]
  unfold countSlot
  dsimp only
  split
  · rw [State.bump_thr]
    exact h
  · exact h

@[simp] theorem State.slotted_get (s : State) (d n r : Nat) : (s.slotted d n).get r = (s.thr d n).get r := rfl
@[simp] theorem State.slotted_pc (s : State) (d n : Nat) : (s.slotted d n).pc = (s.thr d n).pc := rfl

/-- A thread that has counted a slot is not the record of an idle one. -/
theorem State.slotted_since_ne_zero (s : State) (d n : Nat) : (s.slotted d n).since ≠ 0 := Nat.succ_ne_zero _

@[simp] theorem Thr.set_since (x : Thr) (r : Nat) (v : DWord) : (x.set r v).since = x.since := by unfold Thr.set; split <;> rfl
@[simp] theorem Thr.settle_since (x : Thr) : x.settle.since = x.since := by unfold Thr.settle; split <;> rfl

/-! A result written. -/

/-- Writing a result and settling the thread is one replacement of its record. -/
theorem putResult_settle (u : State) (d n rd : Nat) (v : DWord) (h : (u.thr d n).since ≠ 0) :
    (putResult u d n rd v).modThr d n Thr.settle = u.putThr d n ((u.thr d n).after rd v (nextPc (u.thr d n).pc)) := by
  have hput : putResult u d n rd v = u.putThr d n { ((u.thr d n).set rd v) with pc := nextPc (u.thr d n).pc } :=
    State.modThr_eq_putThr u d n _ (fun e => h ((Thr.set_since _ rd v).symm.trans (congrArg Thr.since e)))
  have hthr := u.thr_putThr_self d n { ((u.thr d n).set rd v) with pc := nextPc (u.thr d n).pc }
  rw [hput, State.modThr_eq_putThr, hthr, State.putThr_putThr]
  · rfl
  · rw [hthr]
    exact fun e => h (by simpa using congrArg Thr.since e)

/-- A Rolk command whose effect is to write v: the thread alone changes, beside the count of its slot (R262, R299). -/
theorem rolk_putResult {s : State} {d n : Nat} {op : ROp} {i : RIns} {f : RIns → State → State} {v : DWord} (h : s.issues d n op i)
    (hf : f i (countSlot s d n) = putResult (countSlot s d n) d n i.d v) :
    rolk s d n op f = .next (s.afterSlot d n ((s.slotted d n).after i.d v (nextPc (s.thr d n).pc))) := by
  rw [rolk_runs s d n op i f h, hf, putResult_settle, countSlot_thr, State.slotted_pc]
  · rfl
  · rw [countSlot_thr]
    exact s.slotted_since_ne_zero d n

/-! Bit fields. -/

@[simp] theorem onesD_getElem (w k : Nat) (hk : k < 64) : (onesD w)[k] = decide (k < w) := by
  simp [← BitVec.getLsbD_eq_getElem, onesD, ones, BitVec.getLsbD_ofNat, Nat.testBit_two_pow_sub_one, hk]

/-- BFX: the W bits from bit POS on, and zeros above them. -/
theorem bfxResult_getLsbD (m : Nat) (x : DWord) {k : Nat} (hk : k < 64) :
    (bfxResult m x).getLsbD k = (decide (k < bitsOf m 5 0 + 1) && x.getLsbD (k + bitsOf m 11 6)) := by
  simp [bfxResult, hk, Nat.add_comm (bitsOf m 11 6), Bool.and_comm]

/-- BFI: the low W bits from bit POS on, and the bits of gd elsewhere. -/
theorem bfiResult_getLsbD (m : Nat) (g x : DWord) {k : Nat} (hk : k < 64) :
    (bfiResult m g x).getLsbD k = if bitsOf m 11 6 ≤ k ∧ k < bitsOf m 11 6 + (bitsOf m 5 0 + 1) then x.getLsbD (k - bitsOf m 11 6) else g.getLsbD k := by
  unfold bfiResult
  generalize bitsOf m 11 6 = pos, bitsOf m 5 0 + 1 = w
  have hsub : k - pos < 64 := by omega
  by_cases hlow : k < pos
  · simp [hk, hlow, Nat.not_le.mpr hlow]
  · have hw : k - pos < w ↔ k < pos + w := Nat.sub_lt_iff_lt_add' (Nat.not_lt.mp hlow)
    by_cases hin : k < pos + w
    · simp [hk, hlow, hsub, hw, hin, Nat.not_lt.mp hlow]
    · simp [hk, hlow, hw, hin]

theorem bfx_writes {s : State} {d : Fin 8} {n : Fin 384} {i : RIns} (h : s.issues d n .bfxx i) :
    exec (.bfx d n) s = .next (s.afterSlot d n ((s.slotted d n).after i.d (bfxResult i.imm ((s.thr d n).get i.a)) (nextPc (s.thr d n).pc))) :=
  rolk_putResult h (by rw [bfxStep, countSlot_thr, State.slotted_get])

theorem bfi_writes {s : State} {d : Fin 8} {n : Fin 384} {i : RIns} (h : s.issues d n .bfix i) :
    exec (.bfi d n) s = .next (s.afterSlot d n ((s.slotted d n).after i.d (bfiResult i.imm ((s.thr d n).get i.d) ((s.thr d n).get i.a)) (nextPc (s.thr d n).pc))) :=
  rolk_putResult h (by rw [bfiStep, countSlot_thr, State.slotted_get, State.slotted_get])

/-- Settles O33: each of the two writes the result that the model names, whose bits are read off its shifts and masks. -/
theorem bitFieldsMove : Obligations.BitFieldsMove := by
  intro s d n i
  refine ⟨fun h => ⟨_, bfx_writes h, fun k hk => ?_⟩, fun h => ⟨_, bfi_writes h, fun k hk => ?_⟩⟩
  · exact bfxResult_getLsbD i.imm _ hk
  · exact bfiResult_getLsbD i.imm _ _ hk

end Sys2Proof.Machine

/-! PROOFS. The slots of the remaining instructions of the immediate class, and those that fault or ask for a reply (spec/09 R262, R265, R278; spec/10 R299 to R309). -/

namespace Sys2Proof.Machine

/-! How a slot ends. -/

@[simp] theorem Thr.settle_of_step (x : Thr) (h : x.step ≠ 2) : x.settle = x := by unfold Thr.settle; rw [if_neg (fun hs => h hs.1)]

@[simp] theorem Thr.settle_of_st (x : Thr) (h : x.st ≠ .run) : x.settle = x := by unfold Thr.settle; rw [if_neg (fun hs => h hs.2)]

/-- A thread's record put back and changed is the changed record put back. -/
theorem State.modThr_putThr (u : State) (d n : Nat) (x : Thr) (g : Thr → Thr) (h : g x ≠ {}) : (u.putThr d n x).modThr d n g = u.putThr d n (g x) := by
  rw [State.modThr_eq_putThr, State.thr_putThr_self, State.putThr_putThr]
  rwa [State.thr_putThr_self]

/-- A record with slots counted since the thread began is not the record of an idle thread. -/
theorem Thr.ne_idle_of_since {x : Thr} (h : x.since ≠ 0) : x ≠ {} := fun e => h (congrArg Thr.since e)

/-- A Rolk command whose effect puts one record back, beside what else it does to the state. -/
theorem rolk_putThr {s v : State} {d n : Nat} {op : ROp} {i : RIns} {f : RIns → State → State} {x : Thr} (h : s.issues d n op i)
    (hf : f i (countSlot s d n) = v.putThr d n x) (hx : x.since ≠ 0) : rolk s d n op f = .next (v.withThr d n x.settle) := by
  rw [rolk_runs s d n op i f h, hf, State.modThr_putThr]
  · rfl
  · exact Thr.ne_idle_of_since (by rwa [Thr.settle_since])

/-- A Rolk command whose effect is a change of its thread's record alone. -/
theorem rolk_modThr {s : State} {d n : Nat} {op : ROp} {i : RIns} {f : RIns → State → State} {g : Thr → Thr} (h : s.issues d n op i)
    (hf : f i (countSlot s d n) = (countSlot s d n).modThr d n g) (hg : (g (s.slotted d n)).since = (s.slotted d n).since) :
    rolk s d n op f = .next (s.afterSlot d n (g (s.slotted d n)).settle) := by
  have hs : (g (s.slotted d n)).since ≠ 0 := hg ▸ s.slotted_since_ne_zero d n
  refine rolk_putThr h ?_ hs
  rw [hf, State.modThr_eq_putThr, countSlot_thr]
  rw [countSlot_thr]
  exact Thr.ne_idle_of_since hs

/-- A Rolk command that sends its thread on to p. -/
theorem rolk_goTo {s : State} {d n p : Nat} {op : ROp} {i : RIns} {f : RIns → State → State} (h : s.issues d n op i)
    (hf : f i (countSlot s d n) = goTo (countSlot s d n) d n p) : rolk s d n op f = .next (s.afterSlot d n ((s.slotted d n).jumped p)) :=
  rolk_modThr (g := fun x => { x with pc := p }) h hf rfl

/-- A Rolk command that faults its thread (R278, R280). -/
theorem rolk_faultThread {s u : State} {d n code detail : Nat} {op : ROp} {i : RIns} {f : RIns → State → State} (h : s.issues d n op i)
    (hf : f i (countSlot s d n) = faultThread u d n code detail) : rolk s d n op f = .next (u.faulted d n code detail) := by
  rw [rolk_runs s d n op i f h, hf]
  rfl

/-- A Rolk command that leaves a request outstanding (R262, R265). -/
theorem rolk_request {s u : State} {d n rd err : Nat} {v : DWord} {w : Bool} {kind : PendKind} {op : ROp} {i : RIns} {f : RIns → State → State} (h : s.issues d n op i)
    (hf : f i (countSlot s d n) = request u d n rd v err w kind) : rolk s d n op f = .next (u.asked d n rd v err w kind) := by
  rw [rolk_runs s d n op i f h, hf, request_eq, State.modThr_putThr, Thr.settle_of_st]
  · rfl
  · simp [Thr.asks]
  · rw [Thr.settle_of_st _ (by simp [Thr.asks])]
    exact fun e => absurd (congrArg Thr.waited e) (by simp [Thr.asks])

/-- A Rolk command that leaves its thread waiting in SYNC (R265). -/
theorem rolk_waitOn {s u : State} {d n rd : Nat} {w : WaitOn} {m : DWord} {op : ROp} {i : RIns} {f : RIns → State → State} (h : s.issues d n op i)
    (hf : f i (countSlot s d n) = waitOn u d n rd w m) : rolk s d n op f = .next (u.waits d n rd w m) := by
  rw [rolk_runs s d n op i f h, hf, waitOn_eq, State.modThr_putThr, Thr.settle_of_st]
  · rfl
  · simp [Thr.syncs]
  · rw [Thr.settle_of_st _ (by simp [Thr.syncs])]
    exact fun e => absurd (congrArg Thr.waited e) (by simp [Thr.syncs])

/-! Registers. -/

/-- Settles O31: the register file is a rising list, of which register 0 is never a key read or written. -/
theorem registerZeroIsZero : Obligations.RegisterZeroIsZero := by
  intro x v hg
  refine ⟨rfl, rfl, fun r hr => ?_, fun r q hrq => ?_⟩
  · simp only [Thr.get, Thr.set, if_neg hr]
    exact mget_mset_self_rise _ _ _ _ hg
  · unfold Thr.get Thr.set
    by_cases hr : r = 0
    · rw [if_pos hr]
    · rw [if_neg hr]
      split
      · rfl
      · exact mget_mset_other_rise 0 0 _ _ _ _ hrq.symm hg

/-! The ALU (R304). -/

theorem aluOps_not_mem {op : ROp} (h : op ∈ aluOps) : op ∉ memOps := by revert op; decide
theorem brOps_not_mem {op : ROp} (h : op ∈ brOps) : op ∉ memOps := by revert op; decide
theorem unitOps_not_mem {op : ROp} {k : Nat} (h : op ∈ unitOps k) : op ∉ memOps := by
  unfold unitOps at h
  split at h <;> revert op <;> decide

theorem orShift_mem {op : ROp} (h : op ∈ [.or16x, .or32x, .or48x]) : op ∈ memOps := by revert op; decide

/-- Constants and the accesses of the scratchpad have the immediate form alone (R298). -/
theorem immForm_of_memOps {w : Word} {i : RIns} (h : decodeRolk w = some i) (hm : i.op ∈ memOps) : i.immForm = true := by
  unfold decodeRolk at h
  dsimp only at h
  split_ifs at h
  · unfold decodeAlu at h
    split_ifs at h
    split at h
    · cases h
    next op hop =>
      split_ifs at h
      cases h
      exact absurd hm (aluOps_not_mem (List.mem_of_getElem? hop))
  · unfold decodeJump at h
    dsimp only at h
    split_ifs at h <;> cases h <;> exact absurd hm (by simp [memOps])
  · unfold decodeFrame at h
    split at h
    · cases h
    split at h
    · cases h
      exact absurd hm (by simp [memOps])
    · cases h
      exact absurd hm (by simp [memOps])
    · dsimp only at h
      split at h <;> cases h
      exact absurd hm (by simp [memOps])
    · cases h
  · unfold decodeImm at h
    dsimp only at h
    split_ifs at h <;> [skip; (cases h; rfl); (cases h; rfl); (obtain ⟨op, -, rfl⟩ := Option.map_eq_some_iff.mp h; rfl); (cases h; rfl); (cases h; rfl)]
    split at h
    · split_ifs at h
      cases h
      rfl
    · cases h
  · unfold decodeBranch at h
    obtain ⟨op, hop, rfl⟩ := Option.map_eq_some_iff.mp h
    exact absurd hm (brOps_not_mem (List.mem_of_getElem? hop))
  · unfold decodeUnit at h
    dsimp only at h
    split at h
    · cases h
    next op hop =>
      split_ifs at h
      cases h
      exact absurd hm (unitOps_not_mem (List.mem_of_getElem? hop))

theorem State.issues.immForm {s : State} {d n : Nat} {op : ROp} {i : RIns} (h : s.issues d n op i) (hm : op ∈ memOps) : i.immForm = true := by
  obtain ⟨-, -, -, hw, rfl, -⟩ := h
  exact immForm_of_memOps hw hm

theorem State.issues.op_eq {s : State} {d n : Nat} {op : ROp} {i : RIns} (h : s.issues d n op i) : i.op = op := by
  obtain ⟨-, -, -, -, hop, -⟩ := h
  exact hop

@[simp] theorem RIns.second_slotted (i : RIns) (s : State) (d n : Nat) : i.second (s.slotted d n) = i.second (s.thr d n) := rfl

/-- An ALU command writes what R304 gives for its operation. -/
theorem alu_yields {s : State} {d n : Nat} {op : ROp} {c : Instr} {v : RIns → Thr → DWord} (hc : exec c s = rolk s d n op (aluStep d n))
    (hv : ∀ i, s.issues d n op i → aluResult op ((s.thr d n).get i.a) (i.second (s.thr d n)) = v i (s.thr d n)) : s.yields c d n op v := by
  intro i h
  rw [hc]
  refine rolk_putResult h ?_
  simp only [aluStep, countSlot_thr, State.slotted_get, RIns.second_slotted, h.op_eq, hv i h]

theorem minResult (x y : DWord) : aluResult .minx x y = if x.toInt ≤ y.toInt then x else y := by
  show (if y.slt x then y else x) = _
  by_cases h : y.toInt < x.toInt
  · rw [if_pos (BitVec.slt_iff_toInt_lt.mpr h), if_neg (not_le.mpr h)]
  · rw [if_neg (fun hs => h (BitVec.slt_iff_toInt_lt.mp hs)), if_pos (not_lt.mp h)]

theorem maxResult (x y : DWord) : aluResult .maxx x y = if y.toInt ≤ x.toInt then x else y := by
  show (if x.slt y then y else x) = _
  by_cases h : x.toInt < y.toInt
  · rw [if_pos (BitVec.slt_iff_toInt_lt.mpr h), if_neg (not_le.mpr h)]
  · rw [if_neg (fun hs => h (BitVec.slt_iff_toInt_lt.mp hs)), if_pos (not_lt.mp h)]

theorem shlResult (x y : DWord) : aluResult .shlx x y = BitVec.ofNat 64 (x.toNat * 2 ^ (y.toNat % 64)) := by
  apply BitVec.eq_of_toNat_eq
  simp [aluResult, BitVec.toNat_shiftLeft, Nat.shiftLeft_eq]

theorem shrResult (x y : DWord) : aluResult .shrx x y = BitVec.ofNat 64 (x.toNat / 2 ^ (y.toNat % 64)) := by
  apply BitVec.eq_of_toNat_eq
  have hlt : x.toNat / 2 ^ (y.toNat % 64) < 2 ^ 64 := lt_of_le_of_lt (Nat.div_le_self _ _) x.isLt
  simp only [aluResult, BitVec.toNat_ushiftRight, Nat.shiftRight_eq_div_pow, BitVec.toNat_ofNat, Nat.mod_eq_of_lt hlt]

theorem sarResult (x y : DWord) : aluResult .sarx x y = BitVec.ofInt 64 (x.toInt / 2 ^ (y.toNat % 64)) := by
  simp [aluResult, BitVec.sshiftRight_eq, Int.shiftRight_eq_div_pow]

theorem rotResult (x y : DWord) : aluResult .rotx x y = (x <<< (y.toNat % 64)) ||| (x >>> (64 - y.toNat % 64)) := by
  simp [aluResult, BitVec.rotateLeft_def]

theorem mulResult (x y : DWord) : aluResult .mulx x y = BitVec.ofNat 64 (x.toNat * y.toNat) := by
  apply BitVec.eq_of_toNat_eq
  simp [aluResult]

theorem popcResult (x y : DWord) : aluResult .popcx x y = BitVec.ofNat 64 ((List.range 64).countP (fun k => x.getLsbD k)) := by
  rw [List.countP_eq_length_filter]
  rfl

/-- The leading zeros of a word are the first shift that brings its top bit up (R304). -/
theorem clz64_eq_find (x : DWord) :
    ((List.range 65).find? (fun k => decide (2 ^ 64 ≤ x.toNat * 2 ^ (k + 1)) || decide (k = 64))).getD 64 = clz64 x := by
  suffices h : (List.range 65).find? (fun k => decide (2 ^ 64 ≤ x.toNat * 2 ^ (k + 1)) || decide (k = 64)) = some (clz64 x) by rw [h]; rfl
  simp only [List.find?_range_eq_some, List.mem_range, Bool.or_eq_true, decide_eq_true_eq, Bool.not_eq_true', Bool.or_eq_false_iff, decide_eq_false_iff_not, not_le]
  unfold clz64
  by_cases hx : x = 0
  · subst hx
    refine ⟨Or.inr rfl, by simp, fun j hj => ?_⟩
    rw [if_pos rfl] at hj
    exact ⟨by simp, by omega⟩
  · rw [if_neg hx]
    have hne : x.toNat ≠ 0 := fun h => hx (BitVec.eq_of_toNat_eq h)
    have hlog : x.toNat.log2 < 64 := (Nat.log2_lt hne).mpr x.isLt
    refine ⟨Or.inl ?_, by omega, fun j hj => ⟨?_, by omega⟩⟩
    · calc 2 ^ 64 = 2 ^ x.toNat.log2 * 2 ^ (63 - x.toNat.log2 + 1) := by rw [← pow_add]; congr 1; omega
        _ ≤ x.toNat * 2 ^ (63 - x.toNat.log2 + 1) := Nat.mul_le_mul_right _ (Nat.log2_self_le hne)
    · calc x.toNat * 2 ^ (j + 1) < 2 ^ (x.toNat.log2 + 1) * 2 ^ (j + 1) := Nat.mul_lt_mul_of_pos_right ((Nat.log2_lt hne).mp (Nat.lt_succ_self _)) (by positivity)
        _ = 2 ^ (x.toNat.log2 + 1 + (j + 1)) := (pow_add _ _ _).symm
        _ ≤ 2 ^ 64 := Nat.pow_le_pow_right (by norm_num) (by omega)

/-- A constant moved up by k bits (R304). -/
theorem shl_ofNat (m k : Nat) : (BitVec.ofNat 64 m) <<< k = BitVec.ofNat 64 (m * 2 ^ k) := by
  apply BitVec.eq_of_toNat_eq
  simp [BitVec.toNat_shiftLeft, Nat.shiftLeft_eq]

/-- The three constant operations take their immediate unextended (R304). -/
theorem RIns.second_orShift {s : State} {d n : Nat} {op : ROp} {i : RIns} (h : s.issues d n op i) (hop : op ∈ [.or16x, .or32x, .or48x]) (x : Thr) :
    i.second x = BitVec.ofNat 64 i.imm := by
  have himm := h.immForm (orShift_mem hop)
  obtain rfl := h.op_eq
  unfold RIns.second
  rw [if_pos himm]
  generalize i.op = op at hop
  fin_cases hop <;> rfl

theorem orShift_yields {s : State} {d n k : Nat} {op : ROp} {c : Instr} (hc : exec c s = rolk s d n op (aluStep d n)) (hop : op ∈ [.or16x, .or32x, .or48x])
    (hk : ∀ x y, aluResult op x y = x ||| (y <<< k)) : s.yields c d n op (fun i x => x.get i.a ||| BitVec.ofNat 64 (i.imm * 2 ^ k)) :=
  alu_yields hc (fun i h => by rw [hk, RIns.second_orShift h hop, shl_ofNat])

/-- Settles O32: every ALU slot is one `putResult` of `aluResult`, whose rows are the values of R304. -/
theorem aluInstructionsCompute : Obligations.AluInstructionsCompute := by
  intro s d n
  exact ⟨alu_yields rfl fun _ _ => rfl, alu_yields rfl fun _ _ => rfl, alu_yields rfl fun _ _ => rfl, alu_yields rfl fun _ _ => rfl, alu_yields rfl fun _ _ => rfl,
    alu_yields rfl fun _ _ => shlResult _ _, alu_yields rfl fun _ _ => shrResult _ _, alu_yields rfl fun _ _ => sarResult _ _, alu_yields rfl fun _ _ => rotResult _ _,
    alu_yields rfl fun _ _ => minResult _ _, alu_yields rfl fun _ _ => maxResult _ _, alu_yields rfl fun _ _ => mulResult _ _, alu_yields rfl fun _ _ => popcResult _ _,
    alu_yields rfl fun _ _ => congrArg (BitVec.ofNat 64) (clz64_eq_find _).symm,
    orShift_yields rfl (by decide) fun _ _ => rfl, orShift_yields rfl (by decide) fun _ _ => rfl, orShift_yields rfl (by decide) fun _ _ => rfl⟩

/-! Branches, jumps and NOP (R306, R307, R320). -/

/-- A branch command goes on at its target when its condition holds, else behind itself. -/
theorem branch_jumps {s : State} {d n : Nat} {op : ROp} {c : Instr} {p : RIns → Thr → Prop} [∀ i x, Decidable (p i x)]
    (hc : exec c s = rolk s d n op (branchStep d n)) (hp : ∀ i x, branchTaken op (x.get i.a) (x.get i.b) i.size = true ↔ p i x) :
    s.jumps c d n op (fun i x => if p i x then (x.pc + 1 + i.imm) % 32768 else nextPc x.pc) := by
  intro i h
  rw [hc]
  refine rolk_goTo h ?_
  simp only [branchStep, countSlot_thr, State.slotted_get, State.slotted_pc, h.op_eq, hp, branchTarget]

theorem jal_jumps {s : State} {d : Fin 8} {n : Fin 384} {i : RIns} (h : s.issues d n .jalx i) :
    exec (.jal d n) s = .next (s.afterSlot d n ((s.slotted d n).after i.d (BitVec.ofNat 64 (nextPc (s.thr d n).pc)) i.imm)) :=
  rolk_modThr (g := fun x => { (x.set i.d (BitVec.ofNat 64 (nextPc x.pc))) with pc := i.imm }) h rfl (Thr.set_since _ _ _)

theorem jr_jumps {s : State} {d : Fin 8} {n : Fin 384} {i : RIns} (h : s.issues d n .jrx i) (hx : ((s.thr d n).get i.a).toNat < 32768) :
    exec (.jr d n) s = .next (s.afterSlot d n ((s.slotted d n).after i.d (BitVec.ofNat 64 (nextPc (s.thr d n).pc)) ((s.thr d n).get i.a).toNat)) :=
  rolk_modThr (g := fun x => { (x.set i.d (BitVec.ofNat 64 (nextPc x.pc))) with pc := ((s.thr d n).get i.a).toNat }) h
    (by simp only [jrStep, countSlot_thr, State.slotted_get, if_neg (not_le.mpr hx)]) (Thr.set_since _ _ _)

theorem jr_faults {s : State} {d : Fin 8} {n : Fin 384} {i : RIns} (h : s.issues d n .jrx i) (hx : 32768 ≤ ((s.thr d n).get i.a).toNat) :
    exec (.jr d n) s = .next ((countSlot s d n).faulted d n 3 (((s.thr d n).get i.a).toNat % 2 ^ 32)) :=
  rolk_faultThread h (by simp only [jrStep, countSlot_thr, State.slotted_get, if_pos hx, tfRange])

/-- Settles O34: a branch is one `goTo` whose condition is read off `branchTaken`, and the links of JAL and JR are one change of the record. -/
theorem branchesAndJumps : Obligations.BranchesAndJumps := by
  intro s d n
  refine ⟨branch_jumps rfl fun _ _ => ?_, branch_jumps rfl fun _ _ => ?_, branch_jumps rfl fun _ _ => ?_, branch_jumps rfl fun _ _ => ?_, branch_jumps rfl fun _ _ => ?_,
    branch_jumps rfl fun _ _ => ?_, branch_jumps rfl fun _ _ => ?_, branch_jumps rfl fun _ _ => ?_, fun i h => rolk_goTo h rfl, fun i h => rolk_goTo h ?_,
    fun i h => jal_jumps h, fun i h => ⟨jr_jumps h, jr_faults h⟩⟩
  · simp [branchTaken]
  · simp [branchTaken]
  · exact BitVec.slt_iff_toInt_lt
  · simp [branchTaken, BitVec.slt_eq_decide]
  · exact BitVec.ult_iff_lt
  · simp [branchTaken, BitVec.ult_eq_decide]
  · simp [branchTaken]
  · simp [branchTaken]
  · simp only [nopStep, countSlot_thr, State.slotted_pc]

/-! Loads and stores (R308). -/

@[simp] theorem State.modThr_pad (s : State) (d n : Nat) (g : Thr → Thr) : (s.modThr d n g).cra.pad = s.cra.pad := rfl
@[simp] theorem State.modThr_padBad (s : State) (d n : Nat) (g : Thr → Thr) : (s.modThr d n g).cra.padBad = s.cra.padBad := rfl

@[simp] theorem countSlot_pad (s : State) (d n : Nat) : (countSlot s d n).cra.pad = s.cra.pad := by
  unfold countSlot
  dsimp only
  split <;> simp

@[simp] theorem countSlot_padBad (s : State) (d n : Nat) : (countSlot s d n).cra.padBad = s.cra.padBad := by
  unfold countSlot
  dsimp only
  split <;> simp

@[simp] theorem padRead_countSlot (s : State) (d n e k : Nat) (a : DWord) (l b : Nat) : padRead (countSlot s d n) e k a l b = padRead s e k a l b := by
  simp only [padRead, State.padErrors, countSlot_padBad]

@[simp] theorem padBytes_countSlot (s : State) (d n e k a l : Nat) : (countSlot s d n).padBytes e k a l = s.padBytes e k a l := by
  simp only [State.padBytes, countSlot_pad]

@[simp] theorem padAddr_slotted (i : RIns) (s : State) (d n : Nat) : padAddr i (s.slotted d n) = padAddr i (s.thr d n) := rfl

theorem load_loads {s : State} {d n k : Nat} {op : ROp} {c : Instr} (hc : exec c s = rolk s d n op (loadStep d n k)) : s.loads c d n op k := by
  intro i h
  refine ⟨fun hgood => ?_, fun e x hbad => ?_⟩
  · rw [hc]
    refine rolk_putResult h ?_
    simp only [loadStep, countSlot_thr, padAddr_slotted, padRead_countSlot, hgood, padBytes_countSlot]
    rfl
  · rw [hc]
    refine rolk_faultThread h ?_
    simp only [loadStep, countSlot_thr, padAddr_slotted, padRead_countSlot, hbad]

theorem State.putPad_thr (s : State) (e k a : Nat) (l : List Byte) (d n : Nat) : (s.putPad e k a l).thr d n = s.thr d n := rfl

theorem store_stores {s : State} {d n k : Nat} {op : ROp} {c : Instr} (hc : exec c s = rolk s d n op (storeStep d n k)) : s.stores c d n op k := by
  intro i h
  refine ⟨fun hgood => ?_, fun e x hbad => ?_⟩
  · rw [hc]
    refine rolk_putThr h (x := { (s.slotted d n) with pc := nextPc (s.thr d n).pc }) ?_ (s.slotted_since_ne_zero d n)
    simp only [storeStep, countSlot_thr, padAddr_slotted, hgood, State.slotted_get, State.slotted_pc, goTo]
    rw [State.modThr_eq_putThr, State.putPad_thr, countSlot_thr]
    rw [State.putPad_thr, countSlot_thr]
    exact Thr.ne_idle_of_since (s.slotted_since_ne_zero d n)
  · rw [hc]
    refine rolk_faultThread h ?_
    simp only [storeStep, countSlot_thr, padAddr_slotted, hbad]

/-- An access that fits and is aligned (R270). -/
theorem padAccess_good {a : DWord} {k : Nat} (hr : a.toNat + k ≤ 0x40000) (ha : a.toNat % k = 0) : padAccess a k k = .good := by
  unfold padAccess padSize
  rw [if_neg (not_lt.mpr hr), if_neg (not_not.mpr ha)]

theorem padAccess_range {a : DWord} {k : Nat} (hr : 0x40000 < a.toNat + k) : padAccess a k k = .bad 3 (a.toNat % 2 ^ 32) := by
  unfold padAccess padSize
  rw [if_pos hr]
  rfl

theorem padAccess_align {a : DWord} {k : Nat} (hr : a.toNat + k ≤ 0x40000) (ha : a.toNat % k ≠ 0) : padAccess a k k = .bad 2 (a.toNat % 2 ^ 32) := by
  unfold padAccess padSize
  rw [if_neg (not_lt.mpr hr), if_pos ha]
  rfl

/-- Settles O35: a load is one `putResult`, a store one `putPad` and one `goTo`; `padAccess` checks the range before the alignment. -/
theorem loadsAndStores : Obligations.LoadsAndStores := by
  refine ⟨fun s d n => ?_, fun a k _ => ⟨padAccess_good, padAccess_range, padAccess_align⟩, fun s d k a l h => ⟨s.putPad_memWf d k a l h, fun j hj => ?_, fun b hb => ?_⟩⟩
  · exact ⟨load_loads rfl, load_loads rfl, load_loads rfl, load_loads rfl, store_stores rfl, store_stores rfl, store_stores rfl, store_stores rfl⟩
  · obtain ⟨-, hpad, -⟩ := h
    exact putBytes_get _ _ _ _ hpad hj
  · obtain ⟨-, hpad, -⟩ := h
    exact putBytes_other _ _ _ _ hpad hb

/-! Frame access (R274, R309). -/

@[simp] theorem countSlot_bpm (s : State) (d n : Nat) : (countSlot s d n).bpm = s.bpm := countSlot_only s d n .bpm (by decide)

theorem frameOff_slotted (i : RIns) (s : State) (d n : Nat) : frameOff i (s.slotted d n) = frameOff i (s.thr d n) := rfl

theorem quayBad_countSlot (s : State) (d n h o l : Nat) : (countSlot s d n).quayBad h o l = s.quayBad h o l := by
  simp only [State.quayBad, countSlot_bpm]

theorem quayBytes_countSlot (s : State) (d n h o l : Nat) : (countSlot s d n).quayBytes h o l = s.quayBytes h o l := by
  simp only [State.quayBytes, countSlot_bpm]

/-- Settles O36: with the handle's check decided, each of the three is one request or one fault on the counted slot. -/
theorem frameAccess : Obligations.FrameAccess := by
  rintro s d n i _ _ _ _ rfl rfl rfl rfl
  refine ⟨fun hg => ⟨fun h => ⟨fun ho => rolk_request h ?_, fun ho => rolk_faultThread h ?_⟩, fun h => ⟨fun hl ho => rolk_request h ?_, fun ho => rolk_faultThread h ?_⟩, fun h => rolk_request h ?_⟩,
    fun hg => ⟨fun h => rolk_faultThread h ?_, fun h => rolk_faultThread h ?_, fun h => rolk_faultThread h ?_⟩⟩
  · simp only [fldStep, countSlot_thr, State.slotted_get, frameOff_slotted, hg, not_true, if_false, if_neg (not_lt.mpr ho), quayBad_countSlot, quayBytes_countSlot]
    rfl
  · simp only [fldStep, countSlot_thr, State.slotted_get, frameOff_slotted, hg, not_true, if_false, if_pos ho, tfRange]
  · simp only [fstStep, countSlot_thr, State.slotted_get, frameOff_slotted, hg, not_true, if_false]
    rw [if_neg (by omega)]
  · simp only [fstStep, countSlot_thr, State.slotted_get, frameOff_slotted, hg, not_true, if_false, if_pos ho, tfRange]
  · simp only [flenStep, countSlot_thr, State.slotted_get, hg, not_true, if_false, State.frameLen, quayBad_countSlot, quayBytes_countSlot]
    rfl
  · simp only [fldStep, countSlot_thr, State.slotted_get, hg, Bool.false_eq_true, not_false_eq_true, if_true]
    rfl
  · simp only [fstStep, countSlot_thr, State.slotted_get, hg, Bool.false_eq_true, not_false_eq_true, if_true]
    rfl
  · simp only [flenStep, countSlot_thr, State.slotted_get, hg, Bool.false_eq_true, not_false_eq_true, if_true]
    rfl

/-! Values asked for (R310, R315, R319). -/

@[simp] theorem countSlot_phi (s : State) (d n : Nat) : (countSlot s d n).phi = s.phi := countSlot_only s d n .phi (by decide)
@[simp] theorem countSlot_plt (s : State) (d n : Nat) : (countSlot s d n).plt = s.plt := countSlot_only s d n .plt (by decide)
@[simp] theorem countSlot_part (s : State) (d n : Nat) : (countSlot s d n).part = s.part := countSlot_only s d n .part (by decide)
@[simp] theorem countSlot_ssc (s : State) (d n : Nat) : (countSlot s d n).ssc = s.ssc := countSlot_only s d n .ssc (by decide)

/-- Counting a slot writes no register but CRA_SLOTS (R296). -/
theorem reg_countSlot_other (s : State) (d n : Nat) (q : Reg) (e : Nat) (jdx : List Nat) (h : mrise 0 s.regs = true)
    (ne : q.addr e jdx ≠ Reg.addr .CRA_SLOTS d [clusterOf n, 0]) : (countSlot s d n).reg q e jdx = s.reg q e jdx := by
  unfold countSlot
  dsimp only
  split
  · exact State.reg_setReg_other _ _ _ _ _ _ _ _ h ne
  · rfl

theorem hashSeed_addr_ne (d : Nat) (n : Fin 384) : Reg.addr .FWT_HASH_SEED d [] ≠ Reg.addr .CRA_SLOTS d [clusterOf n, 0] := by
  have := n.isLt
  simp [Reg.addr, Reg.info, dieBase, dimSum, clusterOf]
  omega

theorem phiXlen_ne_slots (d : Nat) (n : Fin 384) : Reg.addr .PHI_XLEN 0 [] ≠ Reg.addr .CRA_SLOTS d [clusterOf n, 0] := by
  simp [Reg.addr, Reg.info, dieBase, dimSum, clusterOf]
  omega

theorem phiTick_ne_slots (d : Nat) (n : Fin 384) : Reg.addr .PHI_TICK 0 [] ≠ Reg.addr .CRA_SLOTS d [clusterOf n, 0] := by
  simp [Reg.addr, Reg.info, dieBase, dimSum, clusterOf]
  omega

/-- The values of PHASE are those of the state in which the slot is used (R319). -/
theorem phaseValue_countSlot (s : State) (d : Nat) (n : Fin 384) (k : Nat) (h : mrise 0 s.regs = true) :
    (countSlot s d n).phaseValue d n k = s.phaseValue d n k := by
  have hx : (countSlot s d n).xlen = s.xlen := by
    unfold State.xlen State.rf
    rw [reg_countSlot_other s d n _ _ _ h (phiXlen_ne_slots d n)]
  have ht : (countSlot s d n).tickShift = s.tickShift := by
    unfold State.tickShift State.rf
    rw [reg_countSlot_other s d n _ _ _ h (phiTick_ne_slots d n)]
  unfold State.phaseValue
  split <;> simp only [State.xingOn, State.stepOn, State.stepsOn, State.ticksOn, State.cntOn, countSlot_phi, countSlot_plt, hx, ht]

theorem fwtHash_countSlot (s : State) (d : Nat) (n : Fin 384) (l : List Byte) (h : mrise 0 s.regs = true) : (countSlot s d n).fwtHash d l = s.fwtHash d l := by
  unfold State.fwtHash
  rw [reg_countSlot_other s d n _ _ _ h (hashSeed_addr_ne d n)]

theorem checkSeg_countSlot (s : State) (d n e h : Nat) : (countSlot s d n).checkSeg e h = s.checkSeg e h := by
  unfold State.checkSeg State.dies
  rw [countSlot_part, countSlot_ssc]

/-- The selectors of PHASE (R319). -/
theorem phaseValue_eq (s : State) (d : Nat) (n : Nat) (k : Nat) :
    s.phaseValue d n k = if k = 0 then s.phi.st.code * 2 ^ 60 + s.xingOn d * 2 ^ 25 + s.stepOn d else if k = 1 then s.ticksOn d else if k = 2 then s.cntOn d
      else (if s.plt.lead = d then 2 ^ 48 else 0) + d * 2 ^ 40 + n / 16 * 2 ^ 32 + n / 64 * 2 ^ 24 + n % 64 * 2 ^ 16 + n := by
  match k with
  | 0 => rfl
  | 1 => rfl
  | 2 => rfl
  | k + 3 =>
    rw [if_neg (by omega), if_neg (by omega), if_neg (by omega)]
    by_cases h : s.plt.lead = d <;> simp [State.phaseValue, h, b2n, coreOf, clusterOf]

/-- Settles O37: each of the four is one request for a value that the counted slot leaves as it was. -/
theorem valuesAreAskedFor : Obligations.ValuesAreAskedFor := by
  rintro s d n i _ _ ⟨-, ⟨hr, -⟩, -⟩ rfl rfl
  refine ⟨fun h => rolk_request h ?_, fun h => rolk_request h ?_, fun h => rolk_request h ?_, fun h => rolk_request h ?_⟩
  · simp only [crcStep, countSlot_thr, State.slotted_get, crcResult, answer]
  · simp only [hashStep, countSlot_thr, State.slotted_get, answer, fwtHash_countSlot s d n _ hr]
    rfl
  · simp only [phaseStep, answer, phaseValue_countSlot s d n _ hr, phaseValue_eq]
  · simp only [bcheckStep, countSlot_thr, State.slotted_get, answer, checkSeg_countSlot, outSpace]

/-! Buffers (R179 to R182). -/

theorem shareOf_countSlot (s : State) (d n h : Nat) : (countSlot s d n).shareOf h = s.shareOf h := by
  simp only [State.shareOf, countSlot_bpm]

theorem shareUsed_countSlot (s : State) (d n e : Nat) : (countSlot s d n).shareUsed e = s.shareUsed e := by
  simp only [State.shareUsed, countSlot_bpm]

/-- The outcomes of a BFREE by a thread (R182). -/
theorem bfree_ends {s t : State} {d : Fin 8} {n : Fin 384} {i : RIns} {r : FreeRes} (h : s.issues d n .bfreex i)
    (hf : bfree (countSlot s d n) d (handleOf ((s.thr d n).get i.a)) (threadCloser n) = (r, t)) :
    (r = .done → exec (.bfree d n) s = .next (t.asked d n i.d 0 0 i.u .other))
      ∧ ((r = .bad ∨ r = .double) → exec (.bfree d n) s = .next (t.faulted d n 4 (handleOf ((s.thr d n).get i.a) % 2 ^ 32)))
      ∧ (r = .notCloser → exec (.bfree d n) s = .next (t.faulted d n 6 (handleOf ((s.thr d n).get i.a) % 2 ^ 32)))
      ∧ (r = .early → exec (.bfree d n) s = .next (t.faulted d n 5 (handleOf ((s.thr d n).get i.a) % 2 ^ 32))) := by
  have hstep : bfreeStep d n i (countSlot s d n) = threadFree (countSlot s d n) d n (handleOf ((s.thr d n).get i.a)) (fun t => answer t d n i 0) := by
    simp only [bfreeStep, countSlot_thr, State.slotted_get]
  unfold threadFree at hstep
  rw [hf] at hstep
  refine ⟨?_, ?_, ?_, ?_⟩
  · rintro rfl
    exact rolk_request h hstep
  · rintro (rfl | rfl)
    · exact rolk_faultThread h hstep
    · exact rolk_faultThread h hstep
  · rintro rfl
    exact rolk_faultThread h hstep
  · rintro rfl
    exact rolk_faultThread h hstep

theorem ofNat_mod_closer (x : Nat) : BitVec.ofNat 16 (x % 65536) = BitVec.ofNat 16 x := BitVec.eq_of_toNat_eq (by simp)

/-- BSHARE once its handle, count and closer have passed: what remains is the share entry's (R180, R181). -/
theorem bshareStep_of_good {s : State} {d : Fin 8} {n : Fin 384} {i : RIns} (hg : (countSlot s d n).handleGood d (handleOf ((s.thr d n).get i.a)) = true)
    (h1 : 1 ≤ ((s.thr d n).get i.b).toNat) (h2 : ((s.thr d n).get i.b).toNat ≤ 65535) (hk : closerOk (((s.thr d n).get i.c).toNat % 65536) = true) :
    bshareStep d n i (countSlot s d n) =
      match s.shareOf (handleOf ((s.thr d n).get i.a)) with
      | some x =>
        if x.closer ≠ threadCloser n then faultThread (countSlot s d n) d n tfNotCloser (handleOf ((s.thr d n).get i.a) % 2 ^ 32)
        else if 65535 < x.refs + ((s.thr d n).get i.b).toNat then rangeFault (countSlot s d n) d n ((s.thr d n).get i.b)
        else answer ((countSlot s d n).setShare (handleOf ((s.thr d n).get i.a)) { x with refs := x.refs + ((s.thr d n).get i.b).toNat }) d n i 0
      | none =>
        if 4096 ≤ s.shareUsed d then outcome ((countSlot s d n).bump .BPM_SHARE_FULL d) d n i outShareFull
        else answer ((countSlot s d n).setShare (handleOf ((s.thr d n).get i.a)) { refs := ((s.thr d n).get i.b).toNat, closer := BitVec.ofNat 16 (((s.thr d n).get i.c).toNat % 65536) }) d n i 0 := by
  simp only [bshareStep, countSlot_thr, State.slotted_get, hg, not_true, if_false, hk, shareOf_countSlot, shareUsed_countSlot]
  exact if_neg (by omega)

/-- Settles O38: BALLOC and BFREE follow `allocBuf` and `bfree`; BSHARE checks its handle, count and closer before the share entry. -/
theorem bufferInstructions : Obligations.BufferInstructions := by
  rintro s d n i _ _ _ rfl rfl rfl
  refine ⟨fun h => ⟨fun b t ha => rolk_request h ?_, fun t ha => rolk_request h ?_⟩, fun h r t hf => bfree_ends h hf, fun h hg => rolk_faultThread h ?_,
    fun h hg hc => rolk_faultThread h ?_, fun h hg hc hc' hk => rolk_faultThread h ?_, fun h hg hc hc' hk => ?_⟩
  · simp only [ballocStep, regionOf, ha]
  · simp only [ballocStep, regionOf, ha, outcome, outEmpty]
  · simp only [bshareStep, countSlot_thr, State.slotted_get, hg, Bool.false_eq_true, not_false_eq_true, if_true]
    rfl
  · simp only [bshareStep, countSlot_thr, State.slotted_get, hg, not_true, if_false, if_pos hc, rangeFault, tfRange]
  · simp only [bshareStep, countSlot_thr, State.slotted_get, hg, not_true, if_false, hk, Bool.false_eq_true, not_false_eq_true, if_true, rangeFault, tfRange]
    rw [if_neg (by omega)]
  · have hstep := bshareStep_of_good hg hc hc' hk
    refine ⟨fun hs hu => rolk_request h ?_, fun hs hu => rolk_request h ?_, fun y hs => ⟨fun hy => rolk_faultThread h ?_, fun hy hm => rolk_faultThread h ?_, fun hy hm => rolk_request h ?_⟩⟩
    · rw [hstep, hs]
      simp only [if_neg (not_le.mpr hu), answer, ofNat_mod_closer]
    · rw [hstep, hs]
      simp only [if_pos hu, outcome, outShareFull]
    · rw [hstep, hs]
      simp only [if_pos hy, tfNotCloser]
    · rw [hstep, hs]
      simp only [hy, ne_eq, not_true, if_false, if_pos hm, rangeFault, tfRange]
    · rw [hstep, hs]
      simp only [hy, ne_eq, not_true, if_false, if_neg (not_lt.mpr hm), answer]

end Sys2Proof.Machine

/-! PROOFS. The slots of the instructions that ask a unit: tables, locks, events, channels and the supervisor's (spec/10 R316 to R320, spec/12 R351 to R360). -/

namespace Sys2Proof.Machine

@[simp] theorem countSlot_icu (s : State) (d n : Nat) : (countSlot s d n).icu = s.icu := countSlot_only s d n .icu (by decide)
@[simp] theorem countSlot_fwt (s : State) (d n : Nat) : (countSlot s d n).fwt = s.fwt := countSlot_only s d n .fwt (by decide)
@[simp] theorem countSlot_syu (s : State) (d n : Nat) : (countSlot s d n).syu = s.syu := countSlot_only s d n .syu (by decide)

@[simp] theorem unitDown_countSlot (s : State) (d n e k : Nat) : (countSlot s d n).unitDown e k = s.unitDown e k := by
  simp only [State.unitDown, countSlot_icu]

/-! Tables (R316). -/

/-- The request of a thread at the tables, its operands as its registers hold them now (log 48). -/
def tableReq (k : Nat) (x : Thr) (i : RIns) (key : List Byte) : LkpReq := { k := k, a := x.get i.a, b := x.get i.b, c := x.get i.c, key := key }

theorem tableRequest_served {s t : State} {d n : Nat} {i : RIns} {q : LkpReq} {v : DWord} (hu : s.unitDown d unitFwt = false) (hq : tableNow s d q = (v, t)) :
    tableRequest s d n i q = request t d n i.d v 0 i.u .other := by
  unfold tableRequest
  rw [hu, hq]
  rfl

theorem tableRequest_waits {s : State} {d n : Nat} {i : RIns} {q : LkpReq} (hu : s.unitDown d unitFwt = true) :
    tableRequest s d n i q = request s d n i.d 0 0 i.u (.fwt q) := by
  unfold tableRequest
  rw [if_pos hu]

/-- LKP for L2 and LPM goes to the tables as it is (R316). -/
theorem lkpStep_plain (s : State) (d n : Nat) {i : RIns} (hc : i.c = 1 ∨ i.c = 3 ∨ i.c = 4) :
    lkpStep d n i s = tableRequest s d n i (tableReq i.c (s.thr d n) i []) := by
  unfold lkpStep
  dsimp only
  rw [if_neg (by omega), if_neg (by omega), if_neg (by omega)]
  rfl

/-- LKP for a flow key reads the key from the scratchpad first (R140, R316). -/
theorem lkpStep_flow {s : State} {d n : Nat} {i : RIns} (hc : i.c = 2) (hr : padRead s d (clusterOf n) ((s.thr d n).get i.b) 40 8 = .good) :
    lkpStep d n i s = tableRequest s d n i (tableReq 2 (s.thr d n) i (s.padBytes d (clusterOf n) ((s.thr d n).get i.b).toNat 40)) := by
  unfold lkpStep
  dsimp only
  rw [if_pos hc, hr]
  simp only [tableReq, hc]

theorem lkpStep_flow_bad {s : State} {d n c y : Nat} {i : RIns} (hc : i.c = 2) (hr : padRead s d (clusterOf n) ((s.thr d n).get i.b) 40 8 = .bad c y) :
    lkpStep d n i s = faultThread s d n c y := by
  unfold lkpStep
  dsimp only
  rw [if_pos hc, hr]

/-- LKP for a context: its die, then its offset (R141, R316). -/
theorem lkpStep_ctx (s : State) (d n : Nat) {i : RIns} (hc : i.c = 5 ∨ i.c = 6) :
    lkpStep d n i s = (if bitsOf ((s.thr d n).get i.a).toNat 18 16 ≠ d then rangeFault s d n ((s.thr d n).get i.a)
      else if 56 < ((s.thr d n).get i.b).toNat ∨ ((s.thr d n).get i.b).toNat % 8 ≠ 0 then rangeFault s d n ((s.thr d n).get i.b)
      else tableRequest s d n i (tableReq i.c (s.thr d n) i [])) := by
  have h5 : 5 ≤ i.c := by omega
  unfold lkpStep
  dsimp only
  rw [if_neg (by omega)]
  simp only [h5, true_and]
  rfl

/-- The request of LRN at the tables (R146). -/
def learnReq (x : Thr) (i : RIns) : LkpReq := { k := 0, a := x.get i.a, b := x.get i.b, c := 0, key := [] }

theorem lrnStep_good {s : State} {d n : Nat} {i : RIns} (hp : s.isPort (d * 4 + bitsOf ((s.thr d n).get i.b).toNat 1 0) = true) :
    lrnStep d n i s = tableRequest s d n i (learnReq (s.thr d n) i) := by
  unfold lrnStep
  dsimp only
  rw [if_neg (by simp [hp])]
  rfl

theorem lrnStep_bad {s : State} {d n : Nat} {i : RIns} (hp : s.isPort (d * 4 + bitsOf ((s.thr d n).get i.b).toNat 1 0) = false) :
    lrnStep d n i s = rangeFault s d n ((s.thr d n).get i.b) := by
  unfold lrnStep
  dsimp only
  rw [if_pos (by simp [hp])]

theorem ctx_countSlot (s : State) (d n e c : Nat) : (countSlot s d n).ctx e c = s.ctx e c := by
  simp only [State.ctx, countSlot_fwt]

/-! What the tables answer at once. -/

theorem tableNow_l2 {s t : State} {d : Nat} {x : Thr} {i : RIns} {key : List Byte} {w : Word}
    (h : l2Lookup s d (bitsOf (x.get i.a).toNat 59 48) (bitsOf (x.get i.a).toNat 47 0) = (w, t)) : tableNow s d (tableReq 1 x i key) = (BitVec.ofNat 64 w.toNat, t) := by
  simp only [tableNow, lkpNow, tableReq, h]
  rfl

theorem tableNow_flow_hit {s t : State} {d : Nat} {x : Thr} {i : RIns} {key : List Byte} {e : FlowEnt}
    (h : flowLookup s d (bitsOf (x.get i.a).toNat 3 0) key = (some e, t)) : tableNow s d (tableReq 2 x i key) = (BitVec.ofNat 64 (flowRes e).toNat, t) := by
  simp only [tableNow, lkpNow, tableReq, h]
  rfl

theorem tableNow_flow_miss {s t : State} {d : Nat} {x : Thr} {i : RIns} {key : List Byte}
    (h : flowLookup s d (bitsOf (x.get i.a).toNat 3 0) key = (none, t)) : tableNow s d (tableReq 2 x i key) = (0, t) := by
  simp only [tableNow, lkpNow, tableReq, h]
  rfl

theorem tableNow_lpm4 (s : State) (d : Nat) (x : Thr) (i : RIns) (key : List Byte) :
    tableNow s d (tableReq 3 x i key) = (BitVec.ofNat 64 (s.lpmLookup d false (bitsOf (x.get i.a).toNat 15 0) (bitsOf (x.get i.b).toNat 31 0 * 2 ^ 96)).toNat, s) := rfl

theorem tableNow_lpm6 (s : State) (d : Nat) (x : Thr) (i : RIns) (key : List Byte) :
    tableNow s d (tableReq 4 x i key) = (BitVec.ofNat 64 (s.lpmLookup d true (bitsOf (x.get i.a).toNat 15 0) ((x.get i.b).toNat * 2 ^ 64 + (x.get i.c).toNat)).toNat, s) := rfl

theorem tableNow_ctxRead (s : State) (d : Nat) (x : Thr) (i : RIns) (key : List Byte) :
    tableNow s d (tableReq 5 x i key)
      = (BitVec.ofNat 64 (beNat ((s.ctx d (bitsOf (x.get i.a).toNat 15 0)).userBytes (x.get i.b).toNat)), (touchCtx s d (bitsOf (x.get i.a).toNat 15 0)).2) := rfl

/-- A context's user bytes with eight of them replaced, in the form that an unlisted context has when they are all zero (R141). -/
def ctxWritten (z : FCtx → List Byte) (y : FCtx) : FCtx := { y with user := if z y = List.replicate 64 0 then [] else z y }

theorem tableNow_ctxWrite (s : State) (d : Nat) {x : Thr} {i : RIns} {key : List Byte} {z : FCtx → List Byte}
    (hz : ∀ y : FCtx, z y = replaceAt (padTo 64 y.user) (x.get i.b).toNat (beBytes 8 (x.get i.c).toNat)) :
    tableNow s d (tableReq 6 x i key) = (0, (touchCtx s d (bitsOf (x.get i.a).toNat 15 0)).2.modCtx d (bitsOf (x.get i.a).toNat 15 0) (ctxWritten z)) := by
  obtain rfl : z = fun y => replaceAt (padTo 64 y.user) (x.get i.b).toNat (beBytes 8 (x.get i.c).toNat) := funext hz
  rfl

/-- What LRN returns for the outcome of its learn request (R302, R316). -/
def LearnRes.word : LearnRes → DWord
  | .done => 0
  | .noRoom => codeWord 0x18
  | .full => codeWord 0x19

theorem tableNow_learnOff {s : State} {d : Nat} {x : Thr} {i : RIns} (h : s.learnOn d (d * 4 + bitsOf (x.get i.b).toNat 1 0) = false) :
    tableNow s d (learnReq x i) = (codeWord 0x1A, s) := by
  simp only [tableNow, lrnNow, learnReq, h]
  rfl

theorem tableNow_learn {s t : State} {d : Nat} {x : Thr} {i : RIns} {r : LearnRes} (h : s.learnOn d (d * 4 + bitsOf (x.get i.b).toNat 1 0) = true)
    (hr : learnRequest s d (bitsOf (x.get i.a).toNat 59 48) (bitsOf (x.get i.a).toNat 47 0) (d * 4 + bitsOf (x.get i.b).toNat 1 0) = (r, t)) :
    tableNow s d (learnReq x i) = (r.word, t) := by
  simp only [tableNow, lrnNow, learnReq, h, hr]
  cases r <;> rfl

@[simp] theorem tableReq_slotted (k : Nat) (s : State) (d n : Nat) (i : RIns) (key : List Byte) : tableReq k (s.slotted d n) i key = tableReq k (s.thr d n) i key := rfl

/-- LKP for L2 and LPM as a request at the tables that serve it (R316). -/
theorem lkp_plain {s t : State} {d : Fin 8} {n : Fin 384} {i : RIns} {k : Nat} {v : DWord} (h : s.issues d n .lkpx i) (hu : s.unitDown d unitFwt = false) (hk : i.c = k)
    (hc : k = 1 ∨ k = 3 ∨ k = 4) (hq : tableNow (countSlot s d n) d (tableReq k (s.thr d n) i []) = (v, t)) : exec (.lkp d n) s = .next (t.asked d n i.d v 0 i.u .other) := by
  subst hk
  refine rolk_request h ?_
  rw [lkpStep_plain _ _ _ hc, countSlot_thr, tableReq_slotted]
  exact tableRequest_served (by rwa [unitDown_countSlot]) hq

/-- LKP for a flow key whose bytes can be read (R140, R316). -/
theorem lkp_flow {s t : State} {d : Fin 8} {n : Fin 384} {i : RIns} {v : DWord} (h : s.issues d n .lkpx i) (hu : s.unitDown d unitFwt = false) (hc : i.c = 2)
    (hr : padRead s d (clusterOf n) ((s.thr d n).get i.b) 40 8 = .good)
    (hq : tableNow (countSlot s d n) d (tableReq 2 (s.thr d n) i (s.padBytes d (clusterOf n) ((s.thr d n).get i.b).toNat 40)) = (v, t)) :
    exec (.lkp d n) s = .next (t.asked d n i.d v 0 i.u .other) := by
  refine rolk_request h ?_
  rw [lkpStep_flow hc (by rwa [countSlot_thr, padRead_countSlot]), countSlot_thr, padBytes_countSlot, tableReq_slotted]
  exact tableRequest_served (by rwa [unitDown_countSlot]) hq

/-- LKP for a context of its die at an offset that holds eight bytes (R141, R316). -/
theorem lkp_ctx {s t : State} {d : Fin 8} {n : Fin 384} {i : RIns} {k : Nat} {v : DWord} (h : s.issues d n .lkpx i) (hu : s.unitDown d unitFwt = false) (hk : i.c = k) (hc : k = 5 ∨ k = 6)
    (hd : bitsOf ((s.thr d n).get i.a).toNat 18 16 = d) (hb : ((s.thr d n).get i.b).toNat ≤ 56) (hb' : ((s.thr d n).get i.b).toNat % 8 = 0)
    (hq : tableNow (countSlot s d n) d (tableReq k (s.thr d n) i []) = (v, t)) : exec (.lkp d n) s = .next (t.asked d n i.d v 0 i.u .other) := by
  subst hk
  refine rolk_request h ?_
  rw [lkpStep_ctx _ _ _ hc, countSlot_thr, State.slotted_get, State.slotted_get, if_neg (not_not.mpr hd), if_neg (by omega), tableReq_slotted]
  exact tableRequest_served (by rwa [unitDown_countSlot]) hq

/-- The faults of LKP for a context (R141, R316). -/
theorem lkp_ctx_faults {s : State} {d : Fin 8} {n : Fin 384} {i : RIns} (h : s.issues d n .lkpx i) (hc : i.c = 5 ∨ i.c = 6) :
    (bitsOf ((s.thr d n).get i.a).toNat 18 16 ≠ d → exec (.lkp d n) s = .next ((countSlot s d n).faulted d n 3 (((s.thr d n).get i.a).toNat % 2 ^ 32)))
      ∧ (bitsOf ((s.thr d n).get i.a).toNat 18 16 = d → (56 < ((s.thr d n).get i.b).toNat ∨ ((s.thr d n).get i.b).toNat % 8 ≠ 0) →
        exec (.lkp d n) s = .next ((countSlot s d n).faulted d n 3 (((s.thr d n).get i.b).toNat % 2 ^ 32))) := by
  refine ⟨fun hd => rolk_faultThread h ?_, fun hd hb => rolk_faultThread h ?_⟩
  · rw [lkpStep_ctx _ _ _ hc, countSlot_thr, State.slotted_get, if_pos hd]
    rfl
  · rw [lkpStep_ctx _ _ _ hc, countSlot_thr, State.slotted_get, State.slotted_get, if_neg (not_not.mpr hd), if_pos hb]
    rfl

/-- LRN while the FWT serves it (R146, R316). -/
theorem lrn_served {s t : State} {d : Fin 8} {n : Fin 384} {i : RIns} {v : DWord} (h : s.issues d n .lrnx i)
    (hp : (countSlot s d n).isPort (d * 4 + bitsOf ((s.thr d n).get i.b).toNat 1 0) = true) (hu : s.unitDown d unitFwt = false)
    (hq : tableNow (countSlot s d n) d (learnReq (s.thr d n) i) = (v, t)) :
    exec (.lrn d n) s = .next (t.asked d n i.d v 0 i.u .other) := by
  refine rolk_request h ?_
  rw [lrnStep_good (by rwa [countSlot_thr]), countSlot_thr]
  exact tableRequest_served (by rwa [unitDown_countSlot]) hq

/-- Settles O39: LKP and LRN check their operands, and what passes is one request at the tables, served now or left to wait for the FWT. -/
theorem tableInstructions : Obligations.TableInstructions := by
  rintro s d n i _ _ rfl rfl
  refine ⟨fun h hu => ⟨fun hc w t hl => ?_, fun hc hr => ⟨fun e t hl => ?_, fun t hl => ?_⟩, fun hc => ?_, fun hc => ?_, fun c hc hd hb hb' => ⟨fun hk => ?_, fun hk z hz => ?_⟩⟩,
    fun h hc => lkp_ctx_faults h hc, fun h hu hc => rolk_request h ?_, fun h hu hc hr => rolk_request h ?_, fun h hc c y hr => rolk_faultThread h ?_,
    fun h hp hu => ⟨fun hl => ?_, fun hl r t hr => ?_⟩, fun h hp hu => rolk_request h ?_, fun h hp => rolk_faultThread h ?_⟩
  · exact lkp_plain h hu hc (by decide) (tableNow_l2 hl)
  · exact lkp_flow h hu hc hr (tableNow_flow_hit hl)
  · exact lkp_flow h hu hc hr (tableNow_flow_miss hl)
  · exact lkp_plain h hu hc (by decide) (tableNow_lpm4 _ _ _ _ _)
  · exact lkp_plain h hu hc (by decide) (tableNow_lpm6 _ _ _ _ _)
  · subst hc
    rw [← ctx_countSlot s d n]
    exact lkp_ctx h hu hk (by decide) hd hb hb' (tableNow_ctxRead _ _ _ _ _)
  · subst hc
    exact lkp_ctx h hu hk (by decide) hd hb hb' (tableNow_ctxWrite _ _ hz)
  · rw [lkpStep_plain _ _ _ hc, countSlot_thr]
    exact tableRequest_waits (by rwa [unitDown_countSlot])
  · rw [lkpStep_flow hc (by rwa [countSlot_thr, padRead_countSlot]), countSlot_thr, padBytes_countSlot]
    exact tableRequest_waits (by rwa [unitDown_countSlot])
  · exact lkpStep_flow_bad hc (by rwa [countSlot_thr, padRead_countSlot])
  · exact lrn_served h hp hu (tableNow_learnOff hl)
  · refine (lrn_served h hp hu (tableNow_learn hl hr)).trans ?_
    cases r <;> rfl
  · rw [lrnStep_good (by rwa [countSlot_thr]), countSlot_thr]
    exact tableRequest_waits (by rwa [unitDown_countSlot])
  · rw [lrnStep_bad (by rwa [countSlot_thr]), countSlot_thr]
    rfl

/-! Locks (R352 to R355). -/

theorem lock_countSlot (s : State) (d n e l : Nat) : (countSlot s d n).lock e l = s.lock e l := by
  simp only [State.lock, State.lockDef, countSlot_syu]

/-- A request at the SYU out of range, during a restart, and else (R276, R317). -/
theorem syuRequest_range {s : State} {d n lim : Nat} {i : RIns} {f : Nat → State} (h : lim < ((s.thr d n).get i.a).toNat) :
    syuRequest s d n i lim f = faultThread s d n 3 (((s.thr d n).get i.a).toNat % 2 ^ 32) := by
  unfold syuRequest
  rw [if_pos h]
  rfl

theorem syuRequest_down {s : State} {d n lim : Nat} {i : RIns} {f : Nat → State} (h : ((s.thr d n).get i.a).toNat ≤ lim) (hu : s.unitDown d unitSyu = true) :
    syuRequest s d n i lim f = request s d n i.d 0 2 i.u .syu := by
  unfold syuRequest
  dsimp only
  rw [if_neg (by omega), if_pos hu]
  rfl

theorem syuRequest_up {s : State} {d n lim : Nat} {i : RIns} {f : Nat → State} (h : ((s.thr d n).get i.a).toNat ≤ lim) (hu : s.unitDown d unitSyu = false) :
    syuRequest s d n i lim f = f ((s.thr d n).get i.a).toNat := by
  unfold syuRequest
  dsimp only
  rw [if_neg (by omega), if_neg (by simp [hu])]

theorem syuWait_range {s : State} {d n lim : Nat} {i : RIns} {f : Nat → State} (h : lim < ((s.thr d n).get i.a).toNat) :
    syuWait s d n i lim f = faultThread s d n 3 (((s.thr d n).get i.a).toNat % 2 ^ 32) := by
  unfold syuWait
  rw [if_pos h]
  rfl

theorem syuWait_down {s : State} {d n lim : Nat} {i : RIns} {f : Nat → State} (h : ((s.thr d n).get i.a).toNat ≤ lim) (hu : s.unitDown d unitSyu = true) :
    syuWait s d n i lim f = stayAt s d n := by
  unfold syuWait
  dsimp only
  rw [if_neg (by omega), if_pos hu]

theorem syuWait_up {s : State} {d n lim : Nat} {i : RIns} {f : Nat → State} (h : ((s.thr d n).get i.a).toNat ≤ lim) (hu : s.unitDown d unitSyu = false) :
    syuWait s d n i lim f = f ((s.thr d n).get i.a).toNat := by
  unfold syuWait
  dsimp only
  rw [if_neg (by omega), if_neg (by simp [hu])]

/-- A field of 32 bits raised by one is not zero: it saturates (R6). -/
theorem setFld_raised_ne_zero (w : Word) : setFld w 31 0 (min (ones (31 + 1 - 0)) (fld w 31 0 + 1)) ≠ 0 := by
  intro h
  have hf := fld_setFld w 0 32 (min (ones (31 + 1 - 0)) (fld w 31 0 + 1)) (by decide) (by decide)
  rw [show 0 + 32 - 1 = 31 from rfl, h] at hf
  have h0 : fld (0 : Word) 31 0 = 0 := rfl
  rw [h0, Nat.mod_eq_of_lt (by unfold ones; omega)] at hf
  unfold ones at hf
  omega

/-- A counter that resets to zero is listed once it has counted, so no other word moves, whatever the form of the register list (R6). -/
theorem State.reg_bump_other (s : State) (r q : Reg) (d e : Nat) (idx jdx : List Nat) (hr : r.resetWord idx = 0) (ne : q.addr e jdx ≠ r.addr d idx) :
    (s.bump r d idx).reg q e jdx = s.reg q e jdx := by
  have hw : setFld (s.reg r d idx) 31 0 (min (ones (31 + 1 - 0)) (s.rf r d idx 31 0 + 1)) ≠ 0 := setFld_raised_ne_zero _
  show mget (q.resetWord jdx) (mset (r.resetWord idx) s.regs (r.addr d idx) _) (q.addr e jdx) = _
  rw [hr]
  unfold mset
  rw [if_neg hw]
  exact congrArg (Option.getD · _) (mfind_minsert_other _ _ _ ne _)

theorem reg_countSlot (s : State) (d n : Nat) (q : Reg) (e : Nat) (jdx : List Nat) (ne : q.addr e jdx ≠ Reg.addr .CRA_SLOTS d [clusterOf n, 0]) :
    (countSlot s d n).reg q e jdx = s.reg q e jdx := by
  unfold countSlot
  dsimp only
  split
  · exact State.reg_bump_other _ _ _ _ _ _ _ rfl ne
  · rfl

theorem craCfg_ne_slots (d : Nat) (n : Fin 384) : Reg.addr .CRA_CFG d [] ≠ Reg.addr .CRA_SLOTS d [clusterOf n, 0] := by
  have := n.isLt
  simp [Reg.addr, Reg.info, dieBase, dimSum, clusterOf]
  omega

theorem craSuper_ne_slots (d : Nat) (n : Fin 384) : Reg.addr .CRA_SUPER d [clusterOf n] ≠ Reg.addr .CRA_SLOTS d [clusterOf n, 0] := by
  have := n.isLt
  simp [Reg.addr, Reg.info, dieBase, dimSum, clusterOf]
  omega

@[simp] theorem exempt_countSlot (s : State) (d : Nat) (n : Fin 384) : (countSlot s d n).exempt d n = s.exempt d n := by
  unfold State.exempt State.superOf
  rw [reg_countSlot _ _ _ _ _ _ (craCfg_ne_slots d n), reg_countSlot _ _ _ _ _ _ (craSuper_ne_slots d n)]

/-! Waits that end at once, and waits that stay. -/

@[simp] theorem Thr.settle_settle (x : Thr) : x.settle.settle = x.settle := by
  unfold Thr.settle
  split
  · rw [if_neg (by simp)]
  · rfl

/-- A satisfied wait has settled already (R293). -/
@[simp] theorem Thr.settle_done (x : Thr) (rd : Nat) (v : DWord) : (x.done rd v).settle = x.done rd v := by
  unfold Thr.done
  dsimp only
  split
  · next h => exact Thr.settle_of_st _ (by simp [h])
  · next h => exact Thr.settle_of_st _ (by simp [h])
  · exact Thr.settle_settle _

@[simp] theorem Thr.done_since (x : Thr) (rd : Nat) (v : DWord) : (x.done rd v).since = x.since := by
  unfold Thr.done
  dsimp only
  split <;> simp

/-- A Rolk command whose wait is satisfied at once, beside what it does to the unit (R279, R301). -/
theorem rolk_satisfied {s v : State} {d : Fin 8} {n : Fin 384} {rd : Nat} {w : DWord} {op : ROp} {i : RIns} {f : RIns → State → State} (h : s.issues d n op i)
    (hf : f i (countSlot s d n) = satisfied v d n rd w) (ht : v.thr d n = s.slotted d n) (he : v.exempt d n = s.exempt d n) :
    rolk s d n op f = .next (v.withThr d n ((s.waited d n).done rd w)) := by
  have hsince : ((s.waited d n).done rd w).since ≠ 0 := by
    rw [Thr.done_since]
    exact s.slotted_since_ne_zero d n
  have hput : satisfied v d n rd w = v.putThr d n ((s.waited d n).done rd w) := by
    unfold satisfied
    rw [he, State.modThr_eq_putThr, ht]
    · rfl
    · rw [ht]
      exact Thr.ne_idle_of_since hsince
  rw [rolk_putThr h (hf.trans hput) hsince, Thr.settle_done]

/-- A Rolk command that stays at its wait (R279, R293; log 50). -/
theorem rolk_stayAt {s : State} {d : Fin 8} {n : Fin 384} {op : ROp} {i : RIns} {f : RIns → State → State} (h : s.issues d n op i)
    (hf : f i (countSlot s d n) = stayAt (countSlot s d n) d n) :
    rolk s d n op f = .next ((countSlot s d n).withThr d n { (s.waited d n) with step := if (s.thr d n).step = 1 ∨ (s.thr d n).step = 2 then 1 else (s.thr d n).step, waited := true }) := by
  have hstep : (if (s.slotted d n).step = 2 then 1 else (s.slotted d n).step) = if (s.thr d n).step = 1 ∨ (s.thr d n).step = 2 then 1 else (s.thr d n).step := by
    simp only [State.slotted]
    split_ifs <;> simp_all
  rw [rolk_modThr h (hf.trans (by unfold stayAt; rw [exempt_countSlot])) rfl, hstep, Thr.settle_of_step]
  · rfl
  · dsimp only
    split_ifs <;> omega

theorem setLock_thr (s : State) (e l : Nat) (x : Lock) (d n : Nat) : (s.setLock e l x).thr d n = s.thr d n := rfl
theorem setLock_exempt (s : State) (e l : Nat) (x : Lock) (d n : Nat) : (s.setLock e l x).exempt d n = s.exempt d n := rfl

theorem ofNat_b2n (b : Bool) : BitVec.ofNat 64 (b2n b) = if b then 1 else 0 := by cases b <;> rfl

section
variable {s : State} {d : Fin 8} {n : Fin 384} {i : RIns} {l : Nat}

/-- A lock that may be named is looked at in the state of the counted slot (R317). -/
theorem syuRequest_lock {f : Nat → State} (hl : ((s.thr d n).get i.a).toNat = l) (hlt : l < 16384) (hu : s.unitDown d unitSyu = false) :
    syuRequest (countSlot s d n) d n i 16383 f = f l := by
  rw [syuRequest_up (by rw [countSlot_thr, State.slotted_get]; omega) (by rwa [unitDown_countSlot]), countSlot_thr, State.slotted_get, hl]

theorem syuWait_lock {f : Nat → State} (hl : ((s.thr d n).get i.a).toNat = l) (hlt : l < 16384) (hu : s.unitDown d unitSyu = false) :
    syuWait (countSlot s d n) d n i 16383 f = f l := by
  rw [syuWait_up (by rw [countSlot_thr, State.slotted_get]; omega) (by rwa [unitDown_countSlot]), countSlot_thr, State.slotted_get, hl]

/-- LOCK (R352). -/
theorem lock_outcomes (hl : ((s.thr d n).get i.a).toNat = l) (hlt : l < 16384) (hu : s.unitDown d unitSyu = false) (h : s.issues d n .lockx i) :
    ((s.lock d l).holder = none → exec (.lock d n) s = .next (((countSlot s d n).setLock d l { s.lock d l with holder := some n }).withThr d n ((s.waited d n).done i.d (if (s.lock d l).abandoned then 1 else 0))))
      ∧ (∀ m, (s.lock d l).holder = some m → m ≠ n →
        exec (.lock d n) s = .next ((((countSlot s d n).setLock d l { s.lock d l with waiters := (s.lock d l).waiters ++ [n.val] }).bump .SYU_LK_CONTEND d).waits d n i.d (.lock l) 0))
      ∧ ((s.lock d l).holder = some n.val → exec (.lock d n) s = .next ((countSlot s d n).faulted d n 3 l)) := by
  refine ⟨fun hh => rolk_satisfied h ?_ ?_ ?_, fun m hh hm => rolk_waitOn h ?_, fun hh => rolk_faultThread h ?_⟩
  · rw [lockStep, syuWait_lock hl hlt hu]
    simp only [lock_countSlot, hh, ofNat_b2n]
  · rw [setLock_thr, countSlot_thr]
  · rw [setLock_exempt, exempt_countSlot]
  · rw [lockStep, syuWait_lock hl hlt hu]
    simp only [lock_countSlot, hh, if_neg hm]
  · rw [lockStep, syuWait_lock hl hlt hu]
    simp only [lock_countSlot, hh, if_true, tfRange]

/-- TRYLOCK (R352). -/
theorem trylock_outcomes (hl : ((s.thr d n).get i.a).toNat = l) (hlt : l < 16384) (hu : s.unitDown d unitSyu = false) (h : s.issues d n .trylockx i) :
    ((s.lock d l).holder = none → exec (.trylock d n) s = .next (((countSlot s d n).setLock d l { s.lock d l with holder := some n }).asked d n i.d (if (s.lock d l).abandoned then 1 else 0) 0 i.u (.grant l)))
      ∧ (∀ m, (s.lock d l).holder = some m → m ≠ n → exec (.trylock d n) s = .next ((countSlot s d n).asked d n i.d (codeWord 0x20) 0 i.u .syu))
      ∧ ((s.lock d l).holder = some n.val → exec (.trylock d n) s = .next ((countSlot s d n).faulted d n 3 l)) := by
  refine ⟨fun hh => rolk_request h ?_, fun m hh hm => rolk_request h ?_, fun hh => rolk_faultThread h ?_⟩ <;> rw [trylockStep, syuRequest_lock hl hlt hu]
  · simp only [lock_countSlot, hh, ofNat_b2n]
  · simp only [lock_countSlot, hh, if_neg hm, replyAt, outHeld]
  · simp only [lock_countSlot, hh, if_true, tfRange]

/-- UNLOCK (R352, R353). -/
theorem unlock_outcomes (hl : ((s.thr d n).get i.a).toNat = l) (hlt : l < 16384) (hu : s.unitDown d unitSyu = false) (h : s.issues d n .unlockx i) :
    ((s.lock d l).holder = some n.val → exec (.unlock d n) s = .next ((passLock (countSlot s d n) d l).asked d n i.d 0 0 i.u .syu))
      ∧ ((s.lock d l).holder ≠ some n.val → exec (.unlock d n) s = .next ((countSlot s d n).asked d n i.d 0 0x88 i.u .syu)) := by
  refine ⟨fun hh => rolk_request h ?_, fun hh => rolk_request h ?_⟩ <;> rw [unlockStep, syuRequest_lock hl hlt hu]
  · simp only [lock_countSlot, if_pos hh, replyAt]
  · simp only [lock_countSlot, if_neg hh, replyAt, errNotHeld]

/-- LKCLEAN (R352). -/
theorem lkclean_outcomes (hl : ((s.thr d n).get i.a).toNat = l) (hlt : l < 16384) (hu : s.unitDown d unitSyu = false) (h : s.issues d n .lkcleanx i) :
    ((s.lock d l).holder = some n.val → exec (.lkclean d n) s = .next (((countSlot s d n).setLock d l { s.lock d l with abandoned := false }).asked d n i.d 0 0 i.u .syu))
      ∧ ((s.lock d l).holder ≠ some n.val → exec (.lkclean d n) s = .next ((countSlot s d n).asked d n i.d 0 0x88 i.u .syu)) := by
  refine ⟨fun hh => rolk_request h ?_, fun hh => rolk_request h ?_⟩ <;> rw [lkcleanStep, syuRequest_lock hl hlt hu]
  · simp only [lock_countSlot, if_pos hh, replyAt]
  · simp only [lock_countSlot, if_neg hh, replyAt, errNotHeld]

/-- LKFORCE by the supervisor (R355, R368). -/
theorem lkforce_outcomes (hl : ((s.thr d n).get i.a).toNat = l) (hlt : l < 16384) (hu : s.unitDown d unitSyu = false) (h : s.issues d n .lkforcex i)
    (hs : (countSlot s d n).superOf d (clusterOf n) = some n.val) (same : Bool) :
    (same = false → (s.lock d l).holder.isSome = true → exec (.lkforce d ⟨n, same⟩) s = .next ((forceLock (countSlot s d n) d l).asked d n i.d 0 0 i.u .syu))
      ∧ ((same = true ∨ (s.lock d l).holder = none) → exec (.lkforce d ⟨n, same⟩) s = .next ((countSlot s d n).asked d n i.d (codeWord 0x21) 0 i.u .syu)) := by
  refine ⟨fun hm hh => rolk_request h ?_, fun hh => rolk_request h ?_⟩ <;> dsimp only [lkforceStep] <;>
    rw [supervisorOnly, if_pos hs, syuRequest_lock hl hlt hu]
  · simp only [lock_countSlot, hh, hm, Bool.false_eq_true, not_false_eq_true, and_self, if_true, replyAt]
  · rw [lock_countSlot, if_neg (by rcases hh with hh | hh <;> simp [hh])]
    rfl

/-- A lock number out of range (R317; log 47). -/
theorem lock_range (hl : ((s.thr d n).get i.a).toNat = l) (hlt : 16384 ≤ l) :
    (s.issues d n .lockx i → exec (.lock d n) s = .next ((countSlot s d n).faulted d n 3 (l % 2 ^ 32)))
      ∧ (s.issues d n .trylockx i → exec (.trylock d n) s = .next ((countSlot s d n).faulted d n 3 (l % 2 ^ 32)))
      ∧ (s.issues d n .unlockx i → exec (.unlock d n) s = .next ((countSlot s d n).faulted d n 3 (l % 2 ^ 32)))
      ∧ (s.issues d n .lkcleanx i → exec (.lkclean d n) s = .next ((countSlot s d n).faulted d n 3 (l % 2 ^ 32)))
      ∧ (s.issues d n .lkforcex i → (countSlot s d n).superOf d (clusterOf n) = some n.val → ∀ same,
        exec (.lkforce d ⟨n, same⟩) s = .next ((countSlot s d n).faulted d n 3 (l % 2 ^ 32))) := by
  have hx : ((((countSlot s d n)).thr d n).get i.a).toNat = l := by rw [countSlot_thr, State.slotted_get, hl]
  have hlim : 16383 < ((((countSlot s d n)).thr d n).get i.a).toNat := by omega
  refine ⟨fun h => rolk_faultThread h ?_, fun h => rolk_faultThread h ?_, fun h => rolk_faultThread h ?_, fun h => rolk_faultThread h ?_, fun h hs same => rolk_faultThread h ?_⟩
  · rw [lockStep, syuWait_range hlim, hx]
  · rw [trylockStep, syuRequest_range hlim, hx]
  · rw [unlockStep, syuRequest_range hlim, hx]
  · rw [lkcleanStep, syuRequest_range hlim, hx]
  · dsimp only [lkforceStep]
    rw [supervisorOnly, if_pos hs, syuRequest_range hlim, hx]

/-- Locks during a restart of the unit (R276; log 50). -/
theorem lock_down (hl : ((s.thr d n).get i.a).toNat = l) (hlt : l < 16384) (hu : s.unitDown d unitSyu = true) :
    (s.issues d n .trylockx i → exec (.trylock d n) s = .next ((countSlot s d n).asked d n i.d 0 2 i.u .syu))
      ∧ (s.issues d n .unlockx i → exec (.unlock d n) s = .next ((countSlot s d n).asked d n i.d 0 2 i.u .syu))
      ∧ (s.issues d n .lkcleanx i → exec (.lkclean d n) s = .next ((countSlot s d n).asked d n i.d 0 2 i.u .syu))
      ∧ (s.issues d n .lkforcex i → (countSlot s d n).superOf d (clusterOf n) = some n.val → ∀ same, exec (.lkforce d ⟨n, same⟩) s = .next ((countSlot s d n).asked d n i.d 0 2 i.u .syu))
      ∧ (s.issues d n .lockx i → exec (.lock d n) s = .next ((countSlot s d n).withThr d n
        { (s.waited d n) with step := if (s.thr d n).step = 1 ∨ (s.thr d n).step = 2 then 1 else (s.thr d n).step, waited := true })) := by
  have hlim : ((((countSlot s d n)).thr d n).get i.a).toNat ≤ 16383 := by rw [countSlot_thr, State.slotted_get]; omega
  have hd : (countSlot s d n).unitDown d unitSyu = true := by rwa [unitDown_countSlot]
  refine ⟨fun h => rolk_request h ?_, fun h => rolk_request h ?_, fun h => rolk_request h ?_, fun h hs same => rolk_request h ?_, fun h => rolk_stayAt h ?_⟩
  · rw [trylockStep, syuRequest_down hlim hd]
  · rw [unlockStep, syuRequest_down hlim hd]
  · rw [lkcleanStep, syuRequest_down hlim hd]
  · dsimp only [lkforceStep]
    rw [supervisorOnly, if_pos hs, syuRequest_down hlim hd]
  · rw [lockStep, syuWait_down hlim hd]

end

/-- A wait's end leaves no record of an idle thread: the thread runs, is halted or is stopped (R265). -/
theorem Thr.done_ne_idle (x : Thr) (rd : Nat) (v : DWord) : x.done rd v ≠ {} := by
  intro e
  have hst := congrArg Thr.st e
  unfold Thr.done at hst
  dsimp only at hst
  split at hst
  · next h => simp [h] at hst
  · next h => simp [h] at hst
  · unfold Thr.settle at hst
    split at hst <;> simp at hst

theorem lockGrant_returns {s : State} {d k m : Nat} {p : Pend} (hg : s.granted d k = some m) (hp : (s.thr d m).pend = some p) :
    lockGrant s d k = s.putThr d m ((s.thr d m).done p.rd p.value) := by
  unfold lockGrant
  rw [hg]
  dsimp only
  rw [State.modThr_eq_putThr] <;> rw [hp]
  exact Thr.done_ne_idle _ _ _

/-- Settles O41: each lock instruction is one request, one wait or one fault, chosen by the lock's holder, its number and the unit's restart. -/
theorem lockInstructions : Obligations.LockInstructions := by
  rintro s d n i _ _ l rfl rfl hl
  refine ⟨fun hlt hu => ⟨lock_outcomes hl.symm hlt hu, trylock_outcomes hl.symm hlt hu, unlock_outcomes hl.symm hlt hu, lkclean_outcomes hl.symm hlt hu, lkforce_outcomes hl.symm hlt hu⟩,
    fun h hs same => rolk_faultThread h ?_, lock_range hl.symm, lock_down hl.symm, fun hd k m p hg hp => ?_⟩
  · dsimp only [lkforceStep]
    rw [supervisorOnly, if_neg hs]
    rfl
  · show onCra s d (lockGrant s d k) = _
    rw [onCra_live _ _ _ hd, lockGrant_returns hg hp]
    rfl

/-! Events and channels (R356 to R360). -/

theorem ev_countSlot (s : State) (d n e k j : Nat) : (countSlot s d n).ev e k j = s.ev e k j := by simp only [State.ev, countSlot_syu]
theorem chan_countSlot (s : State) (d n e k c : Nat) : (countSlot s d n).chan e k c = s.chan e k c := by simp only [State.chan, countSlot_syu]

/-- A Rolk command that changes its thread's record and leaves a request outstanding (R262, R265). -/
theorem rolk_request_modThr {s v : State} {d : Fin 8} {n : Fin 384} {rd err : Nat} {w : DWord} {b : Bool} {kind : PendKind} {op : ROp} {i : RIns} {f : RIns → State → State}
    {g : Thr → Thr} (h : s.issues d n op i) (hf : f i (countSlot s d n) = request (v.modThr d n g) d n rd w err b kind) (hg : (g (s.slotted d n)).since = (s.slotted d n).since)
    (ht : v.thr d n = s.slotted d n) (he : v.exempt d n = s.exempt d n) :
    rolk s d n op f = .next ((markWait v d n).withThr d n ((g (s.slotted d n)).asks (s.exempt d n) rd w err b kind)) := by
  have hput : v.modThr d n g = v.putThr d n (g (s.slotted d n)) := by
    rw [State.modThr_eq_putThr, ht]
    rw [ht]
    exact Thr.ne_idle_of_since (hg ▸ s.slotted_since_ne_zero d n)
  rw [rolk_request h (hf.trans (by rw [hput])), State.asked, State.thr_putThr_self, ← he]
  exact congrArg (fun t => Host.Outcome.next (lapse t d)) (State.putThr_putThr (markWait v d n) d n _ _)

section
variable {s : State} {d : Fin 8} {n : Fin 384} {i : RIns} {e : Nat}

/-- The operand of a counted slot is that of its thread. -/
theorem operand_countSlot (he : ((s.thr d n).get i.a).toNat = e) : (((countSlot s d n).thr d n).get i.a).toNat = e := by
  rw [countSlot_thr, State.slotted_get, he]

theorem syuRequest_object {lim : Nat} {f : Nat → State} (he : ((s.thr d n).get i.a).toNat = e) (hlt : e ≤ lim) (hu : s.unitDown d unitSyu = false) :
    syuRequest (countSlot s d n) d n i lim f = f e := by
  rw [syuRequest_up (by rwa [operand_countSlot he]) (by rwa [unitDown_countSlot]), operand_countSlot he]

theorem syuWait_object {lim : Nat} {f : Nat → State} (he : ((s.thr d n).get i.a).toNat = e) (hlt : e ≤ lim) (hu : s.unitDown d unitSyu = false) :
    syuWait (countSlot s d n) d n i lim f = f e := by
  rw [syuWait_up (by rwa [operand_countSlot he]) (by rwa [unitDown_countSlot]), operand_countSlot he]

/-- EVWAIT (R356). -/
theorem evwait_outcomes (he : ((s.thr d n).get i.a).toNat = e) (hu : s.unitDown d unitSyu = false) (h : s.issues d n .evwaitx i) (hlt : e < 1024) :
    ((s.ev d (clusterOf n) e).count = 0 → exec (.evwait d n) s = .next (((countSlot s d n).setEv d (clusterOf n) e
        { s.ev d (clusterOf n) e with waiters := (s.ev d (clusterOf n) e).waiters ++ [n.val] }).waits d n i.d (.event e) 0))
      ∧ ((s.ev d (clusterOf n) e).count ≠ 0 → exec (.evwait d n) s = .next (((countSlot s d n).setEv d (clusterOf n) e
        { s.ev d (clusterOf n) e with count := (s.ev d (clusterOf n) e).count - 1 }).withThr d n ((s.waited d n).done i.d (BitVec.ofNat 64 ((s.ev d (clusterOf n) e).count - 1))))) := by
  refine ⟨fun hc => rolk_waitOn h ?_, fun hc => rolk_satisfied h ?_ ?_ ?_⟩
  · rw [evwaitStep, syuWait_object he (by omega) hu]
    simp only [ev_countSlot, if_pos hc]
  · rw [evwaitStep, syuWait_object he (by omega) hu]
    simp only [ev_countSlot, if_neg hc]
  · exact countSlot_thr s d n
  · exact exempt_countSlot s d n

/-- CHPUT (R359). -/
theorem chput_outcomes (he : ((s.thr d n).get i.a).toNat = e) (hu : s.unitDown d unitSyu = false) (h : s.issues d n .chputx i) (hlt : e < 256) :
    ((s.thr d n).staged.length < 8 → ((s.thr d n).staged = [] ∨ (s.thr d n).stagedCh = e) → exec (.chput d n) s = .next ((markWait (countSlot s d n) d n).withThr d n
        { ((s.slotted d n).asks (s.exempt d n) i.d 0 0 i.u .syu) with staged := (s.thr d n).staged ++ [(s.thr d n).get i.b], stagedCh := e }))
      ∧ (8 ≤ (s.thr d n).staged.length → exec (.chput d n) s = .next ((countSlot s d n).asked d n i.d 0 0x90 i.u .syu))
      ∧ ((s.thr d n).staged.length < 8 → (s.thr d n).staged ≠ [] → (s.thr d n).stagedCh ≠ e → exec (.chput d n) s = .next ((countSlot s d n).asked d n i.d 0 0x91 i.u .syu)) := by
  have hst : ((countSlot s d n).thr d n).staged = (s.thr d n).staged := by rw [countSlot_thr]; rfl
  have hch : ((countSlot s d n).thr d n).stagedCh = (s.thr d n).stagedCh := by rw [countSlot_thr]; rfl
  refine ⟨fun hl hc => rolk_request_modThr (g := fun x => { x with staged := x.staged ++ [(s.thr d n).get i.b], stagedCh := e }) h ?_ rfl
    (countSlot_thr s d n) (exempt_countSlot s d n), fun hl => rolk_request h ?_, fun hl hs hc => rolk_request h ?_⟩
  · rw [chputStep, syuRequest_object he (by omega) hu]
    simp only [hst, hch]
    rw [if_neg (by omega), if_neg (by rcases hc with hc | hc <;> simp [hc]), countSlot_thr]
    rfl
  · rw [chputStep, syuRequest_object he (by omega) hu]
    simp only [hst, if_pos hl, replyAt, errStaging]
  · rw [chputStep, syuRequest_object he (by omega) hu]
    simp only [hst, hch]
    rw [if_neg (by omega), if_pos ⟨by simpa using hs, hc⟩]
    rfl

/-- CHCLOSE (R358, R359). -/
theorem chclose_outcomes (he : ((s.thr d n).get i.a).toNat = e) (hu : s.unitDown d unitSyu = false) (h : s.issues d n .chclosex i) (hlt : e < 256) :
    (((s.thr d n).staged = [] ∨ (s.thr d n).stagedCh ≠ e) → exec (.chclose d n) s = .next ((countSlot s d n).asked d n i.d 0 0x92 i.u .syu))
      ∧ ((s.thr d n).staged ≠ [] → (s.thr d n).stagedCh = e → (countSlot s d n).chFull d (clusterOf n) e (s.thr d n).staged.length = true →
        exec (.chclose d n) s = .next (((countSlot s d n).bump .SYU_CH_FULL d).asked d n i.d (codeWord 0x28) 0 i.u .syu))
      ∧ ((s.thr d n).staged ≠ [] → (s.thr d n).stagedCh = e → (countSlot s d n).chFull d (clusterOf n) e (s.thr d n).staged.length = false →
        exec (.chclose d n) s = .next ((commitMsg ((countSlot s d n).putThr d n { (s.slotted d n) with staged := [], stagedCh := 0 }) d (clusterOf n) e (s.thr d n).staged).asked d n i.d 0 0 i.u .syu)) := by
  have hst : ((countSlot s d n).thr d n).staged = (s.thr d n).staged := by rw [countSlot_thr]; rfl
  have hch : ((countSlot s d n).thr d n).stagedCh = (s.thr d n).stagedCh := by rw [countSlot_thr]; rfl
  have hput : (countSlot s d n).modThr d n (fun x => { x with staged := [], stagedCh := 0 }) = (countSlot s d n).putThr d n { (s.slotted d n) with staged := [], stagedCh := 0 } := by
    rw [State.modThr_eq_putThr, countSlot_thr]
    rw [countSlot_thr]
    exact Thr.ne_idle_of_since (s.slotted_since_ne_zero d n)
  refine ⟨fun hc => rolk_request h ?_, fun hs hc hf => rolk_request h ?_, fun hs hc hf => rolk_request h ?_⟩ <;>
    rw [chcloseStep, syuRequest_object he (by omega) hu] <;> simp only [hst, hch]
  · rw [if_pos (by simpa using hc)]
    rfl
  · rw [if_neg (by simp [hs, hc]), if_pos hf]
    rfl
  · rw [if_neg (by simp [hs, hc]), if_neg (by simp [hf]), hput]
    rfl

/-- CHGET (R360). -/
theorem chget_outcomes (he : ((s.thr d n).get i.a).toNat = e) (hu : s.unitDown d unitSyu = false) (h : s.issues d n .chgetx i) (hlt : e < 256)
    (hp : padAccess ((s.thr d n).get i.b) 64 8 = .good) :
    (∀ m r, (s.chan d (clusterOf n) e).msgs = m :: r → exec (.chget d n) s = .next ((((countSlot s d n).setChan d (clusterOf n) e { s.chan d (clusterOf n) e with msgs := r }).putPad d (clusterOf n)
        ((s.thr d n).get i.b).toNat (wordBytes m)).withThr d n ((s.waited d n).done i.d (BitVec.ofNat 64 m.length))))
      ∧ ((s.chan d (clusterOf n) e).msgs = [] → exec (.chget d n) s = .next (((countSlot s d n).setChan d (clusterOf n) e
        { s.chan d (clusterOf n) e with waiters := (s.chan d (clusterOf n) e).waiters ++ [n.val] }).waits d n i.d (.channel e) ((s.thr d n).get i.b))) := by
  refine ⟨fun m r hm => rolk_satisfied h ?_ ?_ ?_, fun hm => rolk_waitOn h ?_⟩
  · simp only [chgetStep, countSlot_thr, State.slotted_get, hp, syuWait_object he (show e ≤ 255 by omega) hu, chan_countSlot, hm]
  · exact countSlot_thr s d n
  · exact exempt_countSlot s d n
  · simp only [chgetStep, countSlot_thr, State.slotted_get, hp, syuWait_object he (show e ≤ 255 by omega) hu, chan_countSlot, hm]

end

/-- Settles O42: each of the instructions is one request, one wait or one fault, chosen by the object's record, its number and the unit's restart. -/
theorem eventAndChannelInstructions : Obligations.EventAndChannelInstructions := by
  rintro s d n i _ _ _ e rfl rfl rfl he
  have hx := operand_countSlot (n := n) he.symm
  refine ⟨fun hu => ⟨evwait_outcomes he.symm hu, fun h hlt => rolk_request h ?_, chput_outcomes he.symm hu, chclose_outcomes he.symm hu, chget_outcomes he.symm hu⟩,
    fun h hlt => rolk_faultThread h ?_, fun h hlt => rolk_faultThread h ?_, fun hlt => ⟨fun h => rolk_faultThread h ?_, fun h => rolk_faultThread h ?_, fun h hp => rolk_faultThread h ?_⟩,
    fun h c y hp => rolk_faultThread h ?_, fun hu => ?_⟩
  · rw [evsigStep, syuRequest_object he.symm (by omega) hu]
    rfl
  · rw [evsigStep, syuRequest_range (by omega), hx]
  · rw [evwaitStep, syuWait_range (by omega), hx]
  · rw [chputStep, syuRequest_range (by omega), hx]
  · rw [chcloseStep, syuRequest_range (by omega), hx]
  · simp only [chgetStep, countSlot_thr, State.slotted_get, hp]
    rw [syuWait_range (by omega), hx]
  · simp only [chgetStep, countSlot_thr, State.slotted_get, hp]
  · have hd : (countSlot s d n).unitDown d unitSyu = true := by rwa [unitDown_countSlot]
    refine ⟨fun h hlt => rolk_request h ?_, fun h hlt => rolk_request h ?_, fun h hlt => rolk_request h ?_, fun y hy => ?_⟩
    · rw [evsigStep, syuRequest_down (by omega) hd]
    · rw [chputStep, syuRequest_down (by omega) hd]
    · rw [chcloseStep, syuRequest_down (by omega) hd]
    · subst hy
      refine ⟨fun h hlt => rolk_stayAt h ?_, fun h hlt hp => rolk_stayAt h ?_⟩
      · rw [evwaitStep, syuWait_down (by omega) hd]
      · simp only [chgetStep, countSlot_thr, State.slotted_get, hp]
        rw [syuWait_down (by omega) hd]

/-! Tasks: a state in which a trace record changes what the statement reads of the state before (R279, R345). -/

/-- A die whose register list is out of order: TDX_TRC_CTL, listed before words of lower address, hides them, and a supervisor with SUP_EXEMPT is among these. Its thread 0 runs a task, and stands at a TDONE; the next trace record ends the trace (R345). -/
def hiddenExemption : State := { State.reset with
  glb := { State.reset.glb with mode := .run }
  regs := [(Reg.addr .TDX_TRC_CTL 0 [], 0x80001000), (Reg.addr .CRA_CFG 0 [], 0x20000000), (Reg.addr .CRA_SUPER 0 [0], 0x80000000)]
  tdx := { State.reset.tdx with trc := [(0, { post := some 1 })] }
  cra := { State.reset.cra with thr := [(0, { st := .run, task := true })], ps := [(psKey 0 0 0, 0xC4000001)] } }

/-- TDONE of format E with every field zero (R314). -/
def plainTdone : RIns := { op := .tdonex, d := 0, a := 0, b := 0, c := 0, u := false, immForm := false, imm := 0 }

theorem hiddenExemption_issues : hiddenExemption.issues (0 : Fin 8) (0 : Fin 384) .tdonex plainTdone := by
  refine ⟨by decide, by decide +kernel, by decide +kernel, by decide +kernel, rfl, by decide +kernel⟩

/-- Whether thread 0 counts slots of which the model keeps no number, after a command that answers. -/
def helpedAfter (r : Res) : Bool :=
  match r with
  | .next t => (t.thr 0 0).helped
  | _ => false

/-- Refutes O40: the statement asks no invariant of its state. In a state whose register list is out of order the trace record of TDONE stops the trace, with that TDX_TRC_CTL leaves the list, and the exemption of the thread that it hid holds: the thread counts no slots in HELPER, where the statement says by the state before that it does. -/
theorem not_taskInstructions : ¬ Obligations.TaskInstructions := by
  intro h
  obtain ⟨-, -, hdone, -⟩ := h hiddenExemption 0 0 plainTdone _ _ rfl rfl
  obtain ⟨hup, -⟩ := hdone hiddenExemption_issues (by decide +kernel)
  have hran := congrArg helpedAfter (hup (by decide +kernel))
  have hmodel : helpedAfter (exec (.tdone 0 0) hiddenExemption) = false := by decide +kernel
  rw [hmodel] at hran
  revert hran
  decide +kernel
end Sys2Proof.Machine

/-! PROOFS. What every operation keeps: `Keeps l s t` says of two states that they differ in the parts listed at most and that the invariant goes over from the first to the second. One rule for each way to put operations together, and one for each part of the state replaced. -/

namespace Sys2Proof.Machine

/-- A list of parts lies within another, both being given. -/
theorem within {m l : List Piece} (h : m.all (fun p => l.contains p) = true) : m ⊆ l :=
  fun p hp => List.contains_iff_mem.mp (List.all_eq_true.mp h p hp)

/-- From s to t the parts listed differ at most, and the invariant is kept. -/
structure Keeps (l : List Piece) (s t : State) : Prop where
  frame : only l s t
  inv : s.Inv → t.Inv

namespace Keeps

variable {l m : List Piece} {s t u : State}

theorem refl : Keeps l s s := ⟨only_refl l s, id⟩

theorem mono (h : Keeps m s t) (hm : m ⊆ l := by exact within rfl) : Keeps l s t := ⟨only_mono (fun _ hp => hm hp) h.frame, h.inv⟩

/-- One operation behind another. -/
theorem comp (k : Keeps l t u) (h : Keeps l s t) : Keeps l s u := ⟨only_trans h.frame k.frame, fun hs => k.inv (h.inv hs)⟩

/-- An operation that touches fewer parts behind others. -/
theorem after (k : Keeps m t u) (h : Keeps l s t) (hm : m ⊆ l := by exact within rfl) : Keeps l s u := (k.mono hm).comp h

theorem ite {c : Prop} [Decidable c] (ht : Keeps l s t) (hu : Keeps l s u) : Keeps l s (if c then t else u) := by
  split
  · exact ht
  · exact hu

theorem foldl {α : Type} {f : State → α → State} {xs : List α} (hf : ∀ t x, Keeps l t (f t x)) (h : Keeps l s t) : Keeps l s (xs.foldl f t) :=
  foldl_keep (Keeps l s) f (fun t x k => (hf t x).comp k) xs t h

/-- The operations of a list with an answer handed on from each to the next. -/
theorem foldl_snd {α β : Type} {f : β × State → α → β × State} {xs : List α} (hf : ∀ a x, Keeps l a.2 (f a x).2) {a : β × State} (h : Keeps l s a.2) : Keeps l s (xs.foldl f a).2 := by
  induction xs generalizing a with
  | nil => exact h
  | cons x xs ih => exact ih ((hf a x).comp h)

theorem foldr {α : Type} {f : α → State → State} {xs : List α} (hf : ∀ x t, Keeps l t (f x t)) (h : Keeps l s t) : Keeps l s (xs.foldr f t) := by
  rw [List.foldr_eq_foldl_reverse]
  exact foldl (fun t x => hf x t) h

theorem overDies {f : Nat → State → State} {ds : List Nat} (hf : ∀ d t, Keeps l t (f d t)) (h : Keeps l s t) : Keeps l s (overDies f ds t) :=
  foldl (fun t d => hf d t) h

/-- The state of an answer, where the answer is known. -/
theorem of_eq {α : Type} {p : α × State} {a : α} (h : Keeps l s p.2) (e : p = (a, t)) : Keeps l s t := by rwa [e] at h

theorem of_eq₂ {α β : Type} {p : α × β × State} {a : α} {b : β} (h : Keeps l s p.2.2) (e : p = (a, b, t)) : Keeps l s t := by rwa [e] at h

/-- The state of an answer that stands as a pair. -/
theorem snd {α : Type} {a : α} (h : Keeps l s t) : Keeps l s (a, t).2 := h

theorem snd₂ {α β : Type} {a : α} {b : β} (h : Keeps l s t) : Keeps l s (a, b, t).2.2 := h

theorem ite_snd {α : Type} {c : Prop} [Decidable c] {a b : α × State} (ha : Keeps l s a.2) (hb : Keeps l s b.2) : Keeps l s (if c then a else b).2 := by
  split
  · exact ha
  · exact hb

theorem snd₃ {α β γ : Type} {a : α} {b : β} {c : γ} (h : Keeps l s t) : Keeps l s (a, b, c, t).2.2.2 := h

end Keeps

/-! A command's outcome. -/

/-- A command answers a next state, from which it keeps what it keeps. -/
def Answers (l : List Piece) (s : State) (r : Res) : Prop := ∃ t, r = .next t ∧ Keeps l s t

namespace Answers

variable {l m : List Piece} {s t : State}

theorem next (h : Keeps l s t) : Answers l s (.next t) := ⟨t, rfl, h⟩

theorem ite {c : Prop} [Decidable c] {r q : Res} (hr : Answers l s r) (hq : Answers l s q) : Answers l s (if c then r else q) := by
  split
  · exact hr
  · exact hq

theorem mono {r : Res} (h : Answers m s r) (hm : m ⊆ l := by exact within rfl) : Answers l s r := by
  obtain ⟨t, e, k⟩ := h
  exact ⟨t, e, k.mono hm⟩

theorem onDie {d : Nat} (h : Keeps l s t) : Answers l s (onDie s d t) := next (.ite h .refl)

end Answers

/-! One part replaced. -/

theorem regs_only (s : State) (x : SMap Word) : only [.regs] s { s with regs := x } := by
  intro p hp
  cases p
  case regs => exact absurd (List.mem_singleton.mpr rfl) hp
  all_goals rfl

theorem glb_only (s : State) (x : Glb) : only [.glb] s { s with glb := x } := by
  intro p hp
  cases p
  case glb => exact absurd (List.mem_singleton.mpr rfl) hp
  all_goals rfl

theorem lpx_only (s : State) (x : Lpx) : only [.lpx] s { s with lpx := x } := by
  intro p hp
  cases p
  case lpx => exact absurd (List.mem_singleton.mpr rfl) hp
  all_goals rfl

theorem prs_only (s : State) (x : Prs) : only [.prs] s { s with prs := x } := by
  intro p hp
  cases p
  case prs => exact absurd (List.mem_singleton.mpr rfl) hp
  all_goals rfl

theorem cls_only (s : State) (x : Cls) : only [.cls] s { s with cls := x } := by
  intro p hp
  cases p
  case cls => exact absurd (List.mem_singleton.mpr rfl) hp
  all_goals rfl

theorem fwt_only (s : State) (x : Fwt) : only [.fwt] s { s with fwt := x } := by
  intro p hp
  cases p
  case fwt => exact absurd (List.mem_singleton.mpr rfl) hp
  all_goals rfl

theorem bpm_only (s : State) (x : Bpm) : only [.bpm] s { s with bpm := x } := by
  intro p hp
  cases p
  case bpm => exact absurd (List.mem_singleton.mpr rfl) hp
  all_goals rfl

theorem qba_only (s : State) (x : Qba) : only [.qba] s { s with qba := x } := by
  intro p hp
  cases p
  case qba => exact absurd (List.mem_singleton.mpr rfl) hp
  all_goals rfl

theorem rsq_only (s : State) (x : Rsq) : only [.rsq] s { s with rsq := x } := by
  intro p hp
  cases p
  case rsq => exact absurd (List.mem_singleton.mpr rfl) hp
  all_goals rfl

theorem cra_only (s : State) (x : Cra) : only [.cra] s { s with cra := x } := by
  intro p hp
  cases p
  case cra => exact absurd (List.mem_singleton.mpr rfl) hp
  all_goals rfl

theorem tdx_only (s : State) (x : Tdx) : only [.tdx] s { s with tdx := x } := by
  intro p hp
  cases p
  case tdx => exact absurd (List.mem_singleton.mpr rfl) hp
  all_goals rfl

theorem syu_only (s : State) (x : Syu) : only [.syu] s { s with syu := x } := by
  intro p hp
  cases p
  case syu => exact absurd (List.mem_singleton.mpr rfl) hp
  all_goals rfl

theorem gwe_only (s : State) (x : Gwe) : only [.gwe] s { s with gwe := x } := by
  intro p hp
  cases p
  case gwe => exact absurd (List.mem_singleton.mpr rfl) hp
  all_goals rfl

theorem plt_only (s : State) (x : Plt) : only [.plt] s { s with plt := x } := by
  intro p hp
  cases p
  case plt => exact absurd (List.mem_singleton.mpr rfl) hp
  all_goals rfl

theorem icu_only (s : State) (x : Icu) : only [.icu] s { s with icu := x } := by
  intro p hp
  cases p
  case icu => exact absurd (List.mem_singleton.mpr rfl) hp
  all_goals rfl

theorem lineTx_only (s : State) (x : List LineTx) : only [.lineTx] s { s with lineTx := x } := by
  intro p hp
  cases p
  case lineTx => exact absurd (List.mem_singleton.mpr rfl) hp
  all_goals rfl

theorem free_only (s : State) (x : Nat) : only [.free] s { s with free := x } := by
  intro p hp
  cases p
  case free => exact absurd (List.mem_singleton.mpr rfl) hp
  all_goals rfl

theorem pending_only (s : State) (x : List Instr) : only [.pending] s { s with pending := x } := by
  intro p hp
  cases p
  case pending => exact absurd (List.mem_singleton.mpr rfl) hp
  all_goals rfl

section
variable {s : State}

theorem keeps_glb {x : Glb} : Keeps [.glb] s { s with glb := x } := ⟨glb_only s x, id⟩

theorem keeps_phi {x : Phi} : Keeps [.phi] s { s with phi := x } := ⟨phi_only s x, id⟩

theorem keeps_cte {x : Cte} : Keeps [.cte] s { s with cte := x } := ⟨cte_only s x, id⟩

theorem keeps_lpx {x : Lpx} : Keeps [.lpx] s { s with lpx := x } := ⟨lpx_only s x, id⟩

theorem keeps_prs {x : Prs} : Keeps [.prs] s { s with prs := x } := ⟨prs_only s x, id⟩

theorem keeps_cls {x : Cls} : Keeps [.cls] s { s with cls := x } := ⟨cls_only s x, id⟩

theorem keeps_fwt {x : Fwt} : Keeps [.fwt] s { s with fwt := x } := ⟨fwt_only s x, id⟩

theorem keeps_rsq {x : Rsq} : Keeps [.rsq] s { s with rsq := x } := ⟨rsq_only s x, id⟩

theorem keeps_tdx {x : Tdx} : Keeps [.tdx] s { s with tdx := x } := ⟨tdx_only s x, id⟩

theorem keeps_syu {x : Syu} : Keeps [.syu] s { s with syu := x } := ⟨syu_only s x, id⟩

theorem keeps_icu {x : Icu} : Keeps [.icu] s { s with icu := x } := ⟨icu_only s x, id⟩

theorem keeps_lineTx {x : List LineTx} : Keeps [.lineTx] s { s with lineTx := x } := ⟨lineTx_only s x, id⟩

theorem keeps_free {x : Nat} : Keeps [.free] s { s with free := x } := ⟨free_only s x, id⟩

theorem keeps_pending {x : List Instr} : Keeps [.pending] s { s with pending := x } := ⟨pending_only s x, id⟩

/-! A part of which the invariant speaks: what it says of the part has to be kept. -/

theorem keeps_regs {x : SMap Word} (hx : mrise 0 s.regs = true → mrise 0 x = true) : Keeps [.regs] s { s with regs := x } :=
  ⟨regs_only s x, fun ⟨hm, ⟨hr, hl⟩, hb⟩ => ⟨hm, ⟨hx hr, hl⟩, hb⟩⟩

theorem keeps_bpm {x : Bpm} (hq : mwf 0 s.bpm.quay = true → mwf 0 x.quay = true := by exact fun h => h) : Keeps [.bpm] s { s with bpm := x } :=
  ⟨bpm_only s x, fun ⟨⟨hw, hm⟩, hl⟩ => ⟨⟨hq hw, hm⟩, hl⟩⟩

theorem keeps_qba {x : Qba} (hq : mrise 0 s.qba.lq = true → mrise 0 x.lq = true := by exact fun h => h) : Keeps [.qba] s { s with qba := x } :=
  ⟨qba_only s x, fun ⟨hm, ⟨hr, ht, hg, hl⟩, hb⟩ => ⟨hm, ⟨hr, ht, hg, hq hl⟩, hb⟩⟩

theorem keeps_ssc {x : Ssc} (hd : mwf 0 s.ssc.data = true → mwf 0 x.data = true := by exact fun h => h) (hp : mwf 0 s.ssc.par = true → mwf 0 x.par = true := by exact fun h => h) :
    Keeps [.ssc] s { s with ssc := x } :=
  ⟨ssc_only s x, fun ⟨⟨hq, ha, hw, hv⟩, hl⟩ => ⟨⟨hq, ha, hd hw, hp hv⟩, hl⟩⟩

theorem keeps_cra {x : Cra} (hp : mwf 0 s.cra.pad = true → mwf 0 x.pad = true := by exact fun h => h)
    (ht : mrise 0 s.cra.thr = true → mrise 0 x.thr = true := by exact fun h => h)
    (hg : s.cra.thr.all (fun e => mrise 0 e.2.g) = true → x.thr.all (fun e => mrise 0 e.2.g) = true := by exact fun h => h) : Keeps [.cra] s { s with cra := x } :=
  ⟨cra_only s x, fun ⟨⟨hq, ha, hm⟩, ⟨hr, hi, hj, hl⟩, hb⟩ => ⟨⟨hq, hp ha, hm⟩, ⟨hr, ht hi, hg hj, hl⟩, hb⟩⟩

theorem keeps_gwe {x : Gwe} (hs : s.gwe.sess.length = 4 → x.sess.length = 4 := by exact fun h => h) (he : s.gwe.evq.length ≤ 4096 → x.evq.length ≤ 4096 := by exact fun h => h) :
    Keeps [.gwe] s { s with gwe := x } :=
  ⟨gwe_only s x, fun ⟨hm, hl, hi, ho, hv⟩ => ⟨hm, hl, hs hi, ho, he hv⟩⟩

theorem keeps_plt {x : Plt} (ho : s.plt.ops.length = 16 → x.ops.length = 16 := by exact fun h => h) : Keeps [.plt] s { s with plt := x } :=
  ⟨plt_only s x, fun ⟨hm, hl, hi, hp, hv⟩ => ⟨hm, hl, hi, ho hp, hv⟩⟩

end

/-! A part replaced last, in a state known only whole: what is left to show is the same state with that part as it was. -/

namespace Keeps

section
variable {l : List Piece} {s t : State}

theorem and_phi (h : Keeps l s { t with phi := s.phi }) (hm : [.phi] ⊆ l := by exact within rfl) : Keeps l s t := (keeps_phi (s := { t with phi := s.phi }) (x := t.phi)).after h hm

theorem and_cte (h : Keeps l s { t with cte := s.cte }) (hm : [.cte] ⊆ l := by exact within rfl) : Keeps l s t := (keeps_cte (s := { t with cte := s.cte }) (x := t.cte)).after h hm

theorem and_cls (h : Keeps l s { t with cls := s.cls }) (hm : [.cls] ⊆ l := by exact within rfl) : Keeps l s t := (keeps_cls (s := { t with cls := s.cls }) (x := t.cls)).after h hm

theorem and_fwt (h : Keeps l s { t with fwt := s.fwt }) (hm : [.fwt] ⊆ l := by exact within rfl) : Keeps l s t := (keeps_fwt (s := { t with fwt := s.fwt }) (x := t.fwt)).after h hm

theorem and_rsq (h : Keeps l s { t with rsq := s.rsq }) (hm : [.rsq] ⊆ l := by exact within rfl) : Keeps l s t := (keeps_rsq (s := { t with rsq := s.rsq }) (x := t.rsq)).after h hm

theorem and_tdx (h : Keeps l s { t with tdx := s.tdx }) (hm : [.tdx] ⊆ l := by exact within rfl) : Keeps l s t := (keeps_tdx (s := { t with tdx := s.tdx }) (x := t.tdx)).after h hm

theorem and_syu (h : Keeps l s { t with syu := s.syu }) (hm : [.syu] ⊆ l := by exact within rfl) : Keeps l s t := (keeps_syu (s := { t with syu := s.syu }) (x := t.syu)).after h hm

theorem and_icu (h : Keeps l s { t with icu := s.icu }) (hm : [.icu] ⊆ l := by exact within rfl) : Keeps l s t := (keeps_icu (s := { t with icu := s.icu }) (x := t.icu)).after h hm

theorem and_bpm (h : Keeps l s { t with bpm := s.bpm }) (hq : mwf 0 s.bpm.quay = true → mwf 0 t.bpm.quay = true := by exact fun h => h) (hm : [.bpm] ⊆ l := by exact within rfl) :
    Keeps l s t := (keeps_bpm (s := { t with bpm := s.bpm }) (x := t.bpm) hq).after h hm

theorem and_qba (h : Keeps l s { t with qba := s.qba }) (hq : mrise 0 s.qba.lq = true → mrise 0 t.qba.lq = true := by exact fun h => h) (hm : [.qba] ⊆ l := by exact within rfl) :
    Keeps l s t := (keeps_qba (s := { t with qba := s.qba }) (x := t.qba) hq).after h hm

theorem and_ssc (h : Keeps l s { t with ssc := s.ssc }) (hd : mwf 0 s.ssc.data = true → mwf 0 t.ssc.data = true := by exact fun h => h)
    (hp : mwf 0 s.ssc.par = true → mwf 0 t.ssc.par = true := by exact fun h => h) (hm : [.ssc] ⊆ l := by exact within rfl) :
    Keeps l s t := (keeps_ssc (s := { t with ssc := s.ssc }) (x := t.ssc) hd hp).after h hm

theorem and_cra (h : Keeps l s { t with cra := s.cra }) (hp : mwf 0 s.cra.pad = true → mwf 0 t.cra.pad = true := by exact fun h => h)
    (ht : mrise 0 s.cra.thr = true → mrise 0 t.cra.thr = true := by exact fun h => h)
    (hg : s.cra.thr.all (fun e => mrise 0 e.2.g) = true → t.cra.thr.all (fun e => mrise 0 e.2.g) = true := by exact fun h => h) (hm : [.cra] ⊆ l := by exact within rfl) :
    Keeps l s t := (keeps_cra (s := { t with cra := s.cra }) (x := t.cra) hp ht hg).after h hm

theorem and_gwe (h : Keeps l s { t with gwe := s.gwe }) (hs : s.gwe.sess.length = 4 → t.gwe.sess.length = 4 := by exact fun h => h)
    (he : s.gwe.evq.length ≤ 4096 → t.gwe.evq.length ≤ 4096 := by exact fun h => h) (hm : [.gwe] ⊆ l := by exact within rfl) :
    Keeps l s t := (keeps_gwe (s := { t with gwe := s.gwe }) (x := t.gwe) hs he).after h hm

theorem and_plt (h : Keeps l s { t with plt := s.plt }) (ho : s.plt.ops.length = 16 → t.plt.ops.length = 16 := by exact fun h => h) (hm : [.plt] ⊆ l := by exact within rfl) :
    Keeps l s t := (keeps_plt (s := { t with plt := s.plt }) (x := t.plt) ho).after h hm

end

end Keeps

/-! What holds of every value of a map. -/

section
variable {α : Type} {p : α → Bool}

theorem minsert_all (key : Nat) (v : α) : ∀ m : SMap α, m.all (fun e => p e.2) = true → p v = true → (minsert key v m).all (fun e => p e.2) = true
  | [], _, hv => by simp [minsert, hv]
  | (k, x) :: r, h, hv => by
    obtain ⟨hx, hr⟩ := Bool.and_eq_true_iff.mp (List.all_cons ▸ h)
    unfold minsert
    split
    · simp only [List.all_cons, hv, hr, Bool.and_self]
    split
    · simp only [List.all_cons, hv, hx, hr, Bool.and_self]
    · simp only [List.all_cons, hx, minsert_all key v r hr hv, Bool.and_self]

theorem mremove_all (key : Nat) : ∀ m : SMap α, m.all (fun e => p e.2) = true → (mremove key m).all (fun e => p e.2) = true
  | [], _ => rfl
  | (k, x) :: r, h => by
    obtain ⟨hx, hr⟩ := Bool.and_eq_true_iff.mp (List.all_cons ▸ h)
    unfold mremove
    split
    · exact hr
    split
    · exact h
    · simp only [List.all_cons, hx, mremove_all key r hr, Bool.and_self]

theorem mset_all [DecidableEq α] (d : α) (m : SMap α) (key : Nat) (v : α) (h : m.all (fun e => p e.2) = true) (hv : p v = true) :
    (mset d m key v).all (fun e => p e.2) = true := by
  unfold mset
  split
  · exact mremove_all key m h
  · exact minsert_all key v m h hv

theorem mget_all (d : α) (key : Nat) (hd : p d = true) : ∀ m : SMap α, m.all (fun e => p e.2) = true → p (mget d m key) = true
  | [], _ => hd
  | (k, x) :: r, h => by
    obtain ⟨hx, hr⟩ := Bool.and_eq_true_iff.mp (List.all_cons ▸ h)
    have ih := mget_all d key hd r hr
    unfold mget mfind
    split
    · exact hx
    split
    · exact hd
    · exact ih

/-- A change of values that keeps p of each. -/
theorem mmap_all (f : Nat × α → Nat × α) (hf : ∀ e, p e.2 = true → p (f e).2 = true) (m : SMap α) (h : m.all (fun e => p e.2) = true) :
    (m.map f).all (fun e => p e.2) = true := by
  rw [List.all_map]
  exact List.all_eq_true.mpr (fun e he => hf e (List.all_eq_true.mp h e he))

theorem mfilter_all (q : Nat × α → Bool) (m : SMap α) (h : m.all (fun e => p e.2) = true) : (m.filter q).all (fun e => p e.2) = true :=
  List.all_eq_true.mpr (fun e he => List.all_eq_true.mp h e (List.mem_filter.mp he).1)

end

/-! A thread's registers stay listed by rising number. -/

theorem Thr.set_rise {t : Thr} (rd : Nat) (v : DWord) (h : mrise 0 t.g = true) : mrise 0 (t.set rd v).g = true := by
  unfold Thr.set
  split
  · exact h
  · exact mset_rise _ _ _ _ h

theorem Thr.settle_g (t : Thr) : t.settle.g = t.g := by
  unfold Thr.settle
  split
  · rfl
  · rfl

theorem Thr.settle_rise {t : Thr} (h : mrise 0 t.g = true) : mrise 0 t.settle.g = true := (Thr.settle_g t).symm ▸ h

theorem Thr.done_rise {t : Thr} (rd : Nat) (v : DWord) (h : mrise 0 t.g = true) : mrise 0 (t.done rd v).g = true := by
  unfold Thr.done
  dsimp only
  split
  · exact Thr.set_rise rd v h
  · exact h
  · exact Thr.settle_rise (Thr.set_rise rd v h)

theorem Thr.syuLost_g (t : Thr) : t.syuLost.g = t.g := by
  unfold Thr.syuLost
  split
  · split
    · rfl
    · split
      · rfl
      · rfl
    · rfl
    · rfl
  · split
    · rfl
    · rfl

end Sys2Proof.Machine

/-! PROOFS. What each operation of the model keeps, in the model's order: the parts that it can change, and the invariant. The proof of each follows its definition, citing what the operations it calls keep; the last is that of `exec`. -/

namespace Sys2Proof.Machine

-- In order, since each cites the ones before it: elaborated side by side they would wait for one another in more threads than the box has memory for.
set_option Elab.async false


theorem State.setReg_keeps {s : State} {r : Reg} {d : Nat} {idx : List Nat} {w : Word} : Keeps [.regs] s (s.setReg r d idx w) :=
  keeps_regs (mset_rise _ _ _ _)

theorem State.setRf_keeps {s : State} {r : Reg} {d : Nat} {idx : List Nat} {hi lo v : Nat} : Keeps [.regs] s (s.setRf r d idx hi lo v) := by
  unfold State.setRf
  exact State.setReg_keeps

theorem State.bumpGen_keeps {s : State} {r : Reg} {d : Nat} : Keeps [.regs] s (s.bumpGen r d) := by
  unfold State.bumpGen
  exact State.setRf_keeps

theorem State.bumpF_keeps {s : State} {r : Reg} {d : Nat} {idx : List Nat} {hi lo n : Nat} : Keeps [.regs] s (s.bumpF r d idx hi lo n) := by
  unfold State.bumpF
  exact State.setRf_keeps

theorem State.bumpN_keeps {s : State} {r : Reg} {d : Nat} {idx : List Nat} {n : Nat} : Keeps [.regs] s (s.bumpN r d idx n) := by
  unfold State.bumpN
  exact State.bumpF_keeps

theorem State.bump_keeps {s : State} {r : Reg} {d : Nat} {idx : optParam (List Nat) []} : Keeps [.regs] s (s.bump r d idx) := by
  unfold State.bump
  exact State.bumpN_keeps

theorem State.queueEv_keeps {s : State} {at_ code die gen : Nat} {args : List Nat} : Keeps [.regs, .gwe] s (s.queueEv at_ code die gen args) := by
  unfold State.queueEv
  split
  · exact (keeps_gwe (he := fun _ => by rwa [List.length_append])).mono
  · exact (keeps_gwe).after State.bump_keeps.mono

theorem State.raiseAt_keeps {s : State} {at_ code die gen : Nat} {args : List Nat} : Keeps [.regs, .gwe] s (s.raiseAt at_ code die gen args) := by
  unfold State.raiseAt
  dsimp -proj only
  exact .ite State.queueEv_keeps (State.queueEv_keeps.after (State.queueEv_keeps.after (keeps_gwe).mono))

theorem State.raiseEv_keeps {s : State} {code die gen : Nat} {args : List Nat} : Keeps [.regs, .gwe] s (s.raiseEv code die gen args) := by
  unfold State.raiseEv
  exact State.raiseAt_keeps

theorem State.takeFree_keeps {s : State} : Keeps [.free] s (s.takeFree).2 := by
  unfold State.takeFree
  exact .snd keeps_free

theorem State.closeTails_keeps {before s : State} : Keeps [.lpx] s (State.closeTails before s) := by
  unfold State.closeTails
  exact keeps_lpx

theorem State.setMode_keeps {s : State} {m : Mode} {cause : Nat} : Keeps [.regs, .glb, .lpx, .gwe] s (s.setMode m cause) := by
  unfold State.setMode
  dsimp -proj only
  exact State.raiseEv_keeps.after (State.bumpGen_keeps.after (State.setRf_keeps.after (State.setRf_keeps.after (State.closeTails_keeps.after keeps_glb.mono))))

theorem wrResult_keeps {a : Ans} : Keeps [.gwe] a.2 (wrResult a) :=
  keeps_gwe

theorem hostDieWr_answers {l : List Piece} {s : State} {d : Nat} {p : Bool} {f : State → Ans} (h : Keeps l s (f s).2) (hg : [.gwe] ⊆ l := by exact within rfl) :
    Answers l s (hostDieWr s d p f) := by
  refine .next (wrResult_keeps.after ?_ hg)
  split
  · exact .refl
  split
  · exact .refl
  · exact h

theorem hostWr_answers {l : List Piece} {s : State} {f : State → Ans} (h : Keeps l s (f s).2) (hg : [.gwe] ⊆ l := by exact within rfl) :
    Answers l s (hostWr s f) := by
  refine .next (wrResult_keeps.after ?_ hg)
  split
  · exact h
  · exact .refl

theorem State.putQuay_keeps {s : State} {h o : Nat} {l : List Byte} : Keeps [.bpm] s (s.putQuay h o l) :=
  keeps_bpm (putBytes_wf l _ _)

theorem State.setHead_keeps {s : State} {d i h : Nat} : Keeps [.bpm] s (s.setHead d i h) := by
  unfold State.setHead
  exact keeps_bpm

theorem State.setAlloc_keeps {s : State} {h : Nat} {b : Bool} : Keeps [.bpm] s (s.setAlloc h b) := by
  unfold State.setAlloc
  exact keeps_bpm

theorem State.noteLow_keeps {s : State} {d i : Nat} : Keeps [.bpm] s (s.noteLow d i) := by
  unfold State.noteLow
  dsimp -proj only
  exact keeps_bpm

theorem State.quarantine_keeps {s : State} {d i badLink : Nat} : Keeps [.regs, .bpm, .gwe] s (s.quarantine d i badLink) := by
  unfold State.quarantine
  dsimp -proj only
  exact State.raiseEv_keeps.after (State.bump_keeps.after (State.bumpGen_keeps.after (keeps_bpm).mono))

theorem allocBuf_keeps {s : State} {d r c : Nat} : Keeps [.regs, .bpm, .gwe] s (allocBuf s d r c).2 := by
  unfold allocBuf
  dsimp -proj only
  split
  · exact .snd (State.bump_keeps.after State.bump_keeps.mono)
  · split
    · exact .snd State.bump_keeps.mono
    · split
      · exact .snd (State.quarantine_keeps.after State.bump_keeps.mono)
      · exact .snd (State.noteLow_keeps.after (State.setAlloc_keeps.after State.setHead_keeps.mono))

theorem freeBuf_keeps {s : State} {h : Nat} : Keeps [.bpm] s (freeBuf s h) := by
  unfold freeBuf
  dsimp -proj only
  split
  · exact .refl
  · exact .ite ((keeps_bpm).after State.setAlloc_keeps) (State.setHead_keeps.after (State.putQuay_keeps.after ((keeps_bpm).after State.setAlloc_keeps)))

theorem threadList_keeps {s : State} {d i : Nat} : ∀ {l : List Nat}, Keeps [.bpm] s (threadList s d i l)
  | [] => State.setHead_keeps
  | _ :: _ => State.setHead_keeps.after (State.putQuay_keeps.after threadList_keeps)

theorem rebuildPool_keeps {s : State} {d i : Nat} : Keeps [.bpm] s (rebuildPool s d i) := by
  unfold rebuildPool
  dsimp -proj only
  exact threadList_keeps.after keeps_bpm

theorem clearPool_keeps {s : State} {d i : Nat} : Keeps [.bpm] s (clearPool s d i) := by
  unfold clearPool
  dsimp -proj only
  exact rebuildPool_keeps.after keeps_bpm

theorem State.setShare_keeps {s : State} {h : Nat} {x : Share} : Keeps [.bpm] s (s.setShare h x) := by
  unfold State.setShare
  exact keeps_bpm

theorem State.dropShare_keeps {s : State} {h : Nat} : Keeps [.bpm] s (s.dropShare h) := by
  unfold State.dropShare
  exact keeps_bpm

theorem bfree_keeps {s : State} {d h : Nat} {by_ : BitVec 16} : Keeps [.regs, .bpm] s (bfree s d h by_).2 := by
  unfold bfree
  split
  · exact .snd State.bump_keeps.mono
  · split
    · exact .snd State.bump_keeps.mono
    · split
      · exact .snd freeBuf_keeps.mono
      · split
        · split
          · exact .snd (freeBuf_keeps.after State.dropShare_keeps.mono)
          · exact .refl
        · split
          · exact .snd State.setShare_keeps.mono
          · split
            · exact .snd (State.bump_keeps.after (freeBuf_keeps.after State.dropShare_keeps.mono))
            · exact .refl

theorem releaseShared_keeps {s : State} {h : Nat} : Keeps [.bpm] s (releaseShared s h) := by
  unfold releaseShared
  split
  · exact freeBuf_keeps
  · exact .ite (freeBuf_keeps.after State.dropShare_keeps) State.setShare_keeps

theorem freeMirror_keeps {s : State} {x : Option Nat} : Keeps [.bpm] s (freeMirror s x) := by
  unfold freeMirror
  split
  · exact freeBuf_keeps
  · exact .refl

theorem freeBoth_keeps {s : State} {h : Nat} {m : Option Nat} : Keeps [.bpm] s (freeBoth s h m) := by
  unfold freeBoth
  exact freeMirror_keeps.after (.ite freeBuf_keeps .refl)

theorem wrPoolBase_keeps {s : State} {d i : Nat} {w : Word} : Keeps [.bpm] s (wrPoolBase s d i w).2 := by
  unfold wrPoolBase
  dsimp -proj only
  split
  · exact .snd keeps_bpm
  · split
    · exact .refl
    · exact .refl

theorem wrPoolCount_keeps {s : State} {d i : Nat} {w : Word} : Keeps [.regs, .bpm] s (wrPoolCount s d i w).2 := by
  unfold wrPoolCount
  dsimp -proj only
  split
  · split
    · exact .snd (clearPool_keeps.after (State.setRf_keeps.after (State.setRf_keeps.after ((keeps_bpm).after clearPool_keeps.mono))))
    · exact .refl
  · split
    · exact .refl
    · exact .refl

theorem wrPfArea_keeps {s : State} {d : Nat} {w : Word} : Keeps [.regs] s (wrPfArea s d w).2 := by
  unfold wrPfArea
  dsimp -proj only
  split
  · exact .refl
  · split
    · split
      · exact .refl
      · exact .snd State.setRf_keeps
    · split
      · exact .refl
      · exact .refl

/-- The definition and its handle are named first: applied, the kernel would evaluate the handle's number. -/
theorem wrHostFree_keeps {s : State} {d : Nat} {w : Word} : Keeps [.regs, .bpm] s (wrHostFree s d w).2 := by
  obtain ⟨f, e⟩ : ∃ f, f = @wrHostFree := ⟨_, rfl⟩
  obtain ⟨h, hh⟩ : ∃ h, h = fld w 7 0 * 2 ^ 32 + (s.reg .BPM_HOST_FREE_LO d []).toNat := ⟨_, rfl⟩
  rw [← e]
  delta wrHostFree at e
  rw [e]
  beta_reduce
  rw [← hh]
  dsimp only
  split
  · rename_i t he
    exact bfree_keeps.of_eq he
  all_goals exact .refl

theorem execPoolBaseWrite_keeps {d i : Fin 8} {w : Word} {s : State} : Answers [.bpm, .gwe] s (execPoolBaseWrite d i w s) := by
  unfold execPoolBaseWrite
  exact hostDieWr_answers wrPoolBase_keeps.mono

theorem execPoolCountCommit_keeps {d i : Fin 8} {w : Word} {s : State} : Answers [.regs, .bpm, .gwe] s (execPoolCountCommit d i w s) := by
  unfold execPoolCountCommit
  exact hostDieWr_answers wrPoolCount_keeps.mono

theorem execPoolRebuildDone_keeps {d i : Fin 8} {s : State} : Answers [.regs, .bpm, .gwe] s (execPoolRebuildDone d i s) := by
  unfold execPoolRebuildDone
  refine .onDie ?_
  dsimp -proj only
  exact .ite (State.raiseEv_keeps.after (State.bumpGen_keeps.after ((keeps_bpm).after rebuildPool_keeps.mono))) .refl

theorem State.setTt_keeps {s : State} {off : Nat} {w : Word} : Keeps [.cte] s (s.setTt off w) := by
  unfold State.setTt
  exact keeps_cte

theorem State.setLq_keeps {s : State} {q : Nat} {x : LQ} : Keeps [.qba] s (s.setLq q x) :=
  keeps_qba (mset_rise _ _ _ _)

theorem State.modLq_keeps {s : State} {q : Nat} {f : LQ → LQ} : Keeps [.qba] s (s.modLq q f) := by
  unfold State.modLq
  exact State.setLq_keeps

theorem State.modBank_keeps {s : State} {b : Nat} {f : BankSt → BankSt} : Keeps [.cte] s (s.modBank b f) := by
  unfold State.modBank
  exact keeps_cte

theorem State.modPtx_keeps {s : State} {p : Nat} {f : PortTx → PortTx} : Keeps [.cte] s (s.modPtx p f) := by
  unfold State.modPtx
  exact keeps_cte

theorem State.setSeg_keeps {s : State} {j : Nat} {x : Seg} : Keeps [.ssc] s (s.setSeg j x) := by
  unfold State.setSeg
  exact keeps_ssc

theorem xorChunk_wf {data par : Mem} {j k : Nat} (h : mwf 0 par = true) : mwf 0 (xorChunk data par j k) = true := by
  unfold xorChunk
  generalize mpick _ data = l
  induction l generalizing par with
  | nil => exact h
  | cons c l ih => exact ih (mset_wf _ _ _ _ h)

theorem addParity_keeps {s : State} {j : Nat} {ks : List Nat} : Keeps [.ssc] s (addParity s j ks) := by
  refine keeps_ssc (hp := ?_)
  generalize s.ssc.par = par
  intro h
  induction ks generalizing par with
  | nil => exact h
  | cons k ks ih => exact ih _ (xorChunk_wf h)

theorem emptyParity_keeps {s : State} {j : Nat} : Keeps [.ssc] s (emptyParity s j) :=
  keeps_ssc (hp := by intro h; dsimp only; exact mdrop_wf _ _ _ h)

theorem State.putSeg_keeps {s : State} {j b : Nat} {l : List Byte} : Keeps [.ssc] s (s.putSeg j b l) :=
  keeps_ssc (hd := putBytes_wf _ _ _)

theorem borrowBatch_keeps {s : State} {d : Nat} : Keeps [.ssc] s (borrowBatch s d) := by
  unfold borrowBatch
  dsimp -proj only
  split
  · exact .refl
  · exact keeps_ssc

theorem takeSegment_keeps {s : State} {d pick : Nat} : Keeps [.ssc] s (takeSegment s d pick).2 := by
  unfold takeSegment
  dsimp -proj only
  split
  · exact .snd (.ite borrowBatch_keeps .refl)
  · exact .snd ((keeps_ssc).after (.ite borrowBatch_keeps .refl))

theorem pushReq_keeps {s : State} {d port : Nat} {write : Bool} {what : ReqWhat} {mask target : Nat} {deadline : Option Nat} : Keeps [.ssc] s (pushReq s d port write what mask target deadline) := by
  unfold pushReq
  dsimp -proj only
  exact .ite .refl keeps_ssc

theorem pushPort_keeps {s : State} {d port : Nat} {write : Bool} {what : ReqWhat} {mask : Nat} : Keeps [.ssc] s (pushPort s d port write what mask) := by
  unfold pushPort
  exact pushReq_keeps

theorem writeRecord_keeps {s : State} {port j : Nat} : Keeps [.ssc] s (writeRecord s port j) := by
  unfold writeRecord
  dsimp -proj only
  exact (keeps_ssc).after (pushPort_keeps.after pushPort_keeps)

theorem relink_keeps {s : State} {port q : Nat} {before : Option Nat} : Keeps [.ssc] s (relink s port q before) := by
  unfold relink
  split
  · split
    · exact .ite writeRecord_keeps .refl
    · exact .refl
  · exact .refl

theorem writeChunks_keeps {s : State} {port j smask : Nat} {ks : List Nat} : Keeps [.ssc] s (writeChunks s port j smask ks) := by
  unfold writeChunks
  exact .foldl (fun _ _ => pushPort_keeps) addParity_keeps

theorem appendTo_keeps {s : State} {port j : Nat} {x : Seg} {l : List Byte} : Keeps [.ssc] s (appendTo s port j x l) := by
  unfold appendTo
  dsimp -proj only
  exact writeChunks_keeps.after (State.setSeg_keeps.after State.putSeg_keeps)

theorem finishSegment_keeps {s : State} {port j : Nat} {x : Seg} : Keeps [.ssc] s (finishSegment s port j x) := by
  unfold finishSegment
  dsimp -proj only
  refine writeRecord_keeps.after (State.setSeg_keeps.after ?_)
  split
  · exact pushPort_keeps.after (.ite State.putSeg_keeps (writeChunks_keeps.after State.putSeg_keeps))
  · exact .ite State.putSeg_keeps (writeChunks_keeps.after State.putSeg_keeps)

theorem closeSegment_keeps {s : State} {j : Nat} {part : Bool} : Keeps [.regs, .qba, .ssc] s (closeSegment s j part) := by
  unfold closeSegment
  dsimp -proj only
  split
  · exact .refl
  · exact .ite .refl (.ite (State.bump_keeps.after (State.bump_keeps.after (State.modLq_keeps.after ((keeps_ssc).after finishSegment_keeps.mono)))) (State.bump_keeps.after (State.modLq_keeps.after ((keeps_ssc).after finishSegment_keeps.mono))))

theorem freeSegment_keeps {s : State} {j : Nat} : Keeps [.cte, .qba, .ssc] s (freeSegment s j) := by
  unfold freeSegment
  dsimp -proj only
  split
  · exact .refl
  · exact relink_keeps.after (writeRecord_keeps.after (State.modLq_keeps.after (.and_ssc keeps_cte.mono)))

theorem leaveSegment_keeps {s : State} {j : Nat} {aged : Bool} : Keeps [.regs, .cte, .qba, .ssc] s (leaveSegment s j aged) := by
  unfold leaveSegment
  dsimp -proj only
  split
  · exact .refl
  · exact .ite (.ite (State.bump_keeps.after (freeSegment_keeps.after State.setSeg_keeps.mono)) (freeSegment_keeps.after State.setSeg_keeps.mono)) State.setSeg_keeps.mono

theorem claimSlot_keeps {s : State} {d : Nat} : Keeps [.regs, .qba, .ssc] s (claimSlot s d) := by
  unfold claimSlot
  dsimp -proj only
  split
  · exact .refl
  · split
    · exact State.bump_keeps.after closeSegment_keeps
    · exact .refl

theorem openSegment_keeps {s : State} {d q j : Nat} : Keeps [.regs, .qba, .ssc] s (openSegment s d q j) := by
  unfold openSegment
  dsimp -proj only
  exact relink_keeps.after (writeRecord_keeps.after (State.modLq_keeps.after (emptyParity_keeps.after ((keeps_ssc).after (State.setSeg_keeps.after claimSlot_keeps)))))

theorem packInto_keeps {s : State} {j len edit flow etick : Nat} {frame : List Byte} : Keeps [.regs, .qba, .ssc] s (packInto s j len edit flow etick frame).2 := by
  unfold packInto
  dsimp -proj only
  split
  · exact .refl
  · exact .snd (.ite (closeSegment_keeps.after ((keeps_ssc).after appendTo_keeps.mono)) ((keeps_ssc).after appendTo_keeps.mono))

theorem packFrame_keeps {s : State} {d q len edit flow etick pick : Nat} {frame : List Byte} : Keeps [.regs, .qba, .ssc] s (packFrame s d q len edit flow etick pick frame).2 := by
  unfold packFrame
  dsimp -proj only
  split
  · exact .refl
  · split
    · exact .snd packInto_keeps
    · split
      · exact .snd (State.bump_keeps.after takeSegment_keeps.mono)
      · refine .snd ?_
        refine packInto_keeps.after (openSegment_keeps.after ?_)
        split
        · exact closeSegment_keeps.after takeSegment_keeps.mono
        · exact takeSegment_keeps.mono

theorem bumpSsc_keeps {s : State} : Keeps [.regs] s (bumpSsc s) := by
  unfold bumpSsc
  exact .overDies (fun _ _ => State.bumpGen_keeps) .refl

theorem setSsc_keeps {s : State} {hi lo v : Nat} : Keeps [.regs] s (setSsc s hi lo v) := by
  unfold setSsc
  exact .overDies (fun _ _ => State.setRf_keeps) .refl

theorem evRebuild_keeps {s : State} {stage : Nat} : Keeps [.regs, .gwe] s (evRebuild s stage) := by
  unfold evRebuild
  exact State.raiseEv_keeps

theorem startRebuild_keeps {s : State} : Keeps [.regs, .ssc, .gwe] s (startRebuild s) := by
  unfold startRebuild
  dsimp -proj only
  exact evRebuild_keeps.after (bumpSsc_keeps.after ((keeps_ssc).after (.overDies (fun _ _ => State.setReg_keeps.after State.setReg_keeps.mono) .refl)))

theorem State.takeStaged_keeps {s : State} {q j : Nat} : Keeps [.bpm, .qba] s (s.takeStaged q j) := by
  unfold State.takeStaged
  dsimp -proj only
  exact State.modLq_keeps.after (.foldl (fun _ _ => freeMirror_keeps.mono) .refl)

theorem dropSegments_keeps {s : State} {gone : List Nat} : Keeps [.regs, .cte, .bpm, .qba, .ssc, .gwe] s (dropSegments s gone) := by
  unfold dropSegments
  dsimp -proj only
  split
  · exact .refl
  · refine State.raiseEv_keeps.after (.foldl (fun t x => ?_) .refl)
    split
    · exact .refl
    · exact freeSegment_keeps.after (State.takeStaged_keeps.after (State.bumpN_keeps.after State.bump_keeps.mono))

theorem stageLoss_keeps {s : State} {now : Nat} : Keeps [.regs, .cte, .bpm, .qba, .ssc, .gwe] s (stageLoss s now) := by
  unfold stageLoss
  dsimp -proj only
  exact dropSegments_keeps

theorem checkRecords_keeps {s : State} {js : List Nat} : Keeps [.regs, .cte, .bpm, .qba, .ssc, .gwe] s (checkRecords s js) := by
  unfold checkRecords
  dsimp -proj only
  exact .ite .refl (dropSegments_keeps.after bumpSsc_keeps.mono)

theorem State.setRebuild_keeps {s : State} {r : Option Rebuild} : Keeps [.ssc] s (s.setRebuild r) := by
  unfold State.setRebuild
  exact keeps_ssc

theorem closeFresh_keeps {s : State} {part : Bool} : Keeps [.regs, .ssc] s (closeFresh s part) := by
  unfold closeFresh
  dsimp -proj only
  split
  · exact .refl
  · split
    · exact .refl
    · split
      · exact .ite (.ite (State.bump_keeps.after (State.bump_keeps.after (finishSegment_keeps.after State.setRebuild_keeps.mono))) (State.bump_keeps.after (finishSegment_keeps.after State.setRebuild_keeps.mono))) State.setRebuild_keeps.mono
      · exact State.setRebuild_keeps.mono

theorem readParity_keeps {s : State} {by_ j m port mask target : Nat} {deadline : Option Nat} : Keeps [.regs, .ssc] s (readParity s by_ j m port mask target deadline) := by
  unfold readParity
  split
  · exact .refl
  · exact .foldl (fun _ _ => pushReq_keeps.mono) State.bumpN_keeps.mono

theorem moveRead_keeps {s : State} {r : HbmReq} : Keeps [.regs, .ssc] s (moveRead s r) := by
  unfold moveRead
  split
  · exact readParity_keeps
  · exact .ite pushReq_keeps.mono .refl
  · exact .refl

theorem State.modTrc_keeps {s : State} {d : Nat} {f : Trc → Trc} : Keeps [.tdx] s (s.modTrc d f) := by
  unfold State.modTrc
  exact keeps_tdx

theorem stopTrace_keeps {s : State} {d : Nat} : Keeps [.regs, .tdx] s (stopTrace s d) := by
  unfold stopTrace
  exact State.modTrc_keeps.after State.setRf_keeps.mono

theorem stopWriting_keeps {s : State} {d : Nat} : Keeps [.regs, .tdx] s (stopWriting s d) := by
  unfold stopWriting
  exact State.setRf_keeps.after stopTrace_keeps

theorem loseSpill_keeps {s : State} {d : Nat} : Keeps [.regs, .tdx] s (loseSpill s d) := by
  unfold loseSpill
  dsimp -proj only
  exact .ite (stopWriting_keeps.after keeps_tdx.mono) keeps_tdx.mono

theorem loseStack_keeps {s : State} {d : Nat} {cause : StackCause} : Keeps [.regs, .cte, .bpm, .qba, .ssc, .tdx, .gwe] s (loseStack s d cause) := by
  unfold loseStack
  dsimp -proj only
  exact .ite .refl (.ite (startRebuild_keeps.after (closeFresh_keeps.after (.ite (setSsc_keeps.after (setSsc_keeps.after (setSsc_keeps.after (setSsc_keeps.after (.foldl (fun _ _ => moveRead_keeps.mono) (loseSpill_keeps.after (checkRecords_keeps.after (stageLoss_keeps.after (State.raiseEv_keeps.after (bumpSsc_keeps.after (State.setRf_keeps.after (keeps_ssc).mono))))))))))) (setSsc_keeps.after (setSsc_keeps.after (setSsc_keeps.after (.foldl (fun _ _ => moveRead_keeps.mono) (loseSpill_keeps.after (checkRecords_keeps.after (stageLoss_keeps.after (State.raiseEv_keeps.after (bumpSsc_keeps.after (State.setRf_keeps.after (keeps_ssc).mono))))))))))))) (State.setRebuild_keeps.after (closeFresh_keeps.after (.ite (setSsc_keeps.after (setSsc_keeps.after (setSsc_keeps.after (setSsc_keeps.after (.foldl (fun _ _ => moveRead_keeps.mono) (loseSpill_keeps.after (checkRecords_keeps.after (stageLoss_keeps.after (State.raiseEv_keeps.after (bumpSsc_keeps.after (State.setRf_keeps.after (keeps_ssc).mono))))))))))) (setSsc_keeps.after (setSsc_keeps.after (setSsc_keeps.after (.foldl (fun _ _ => moveRead_keeps.mono) (loseSpill_keeps.after (checkRecords_keeps.after (stageLoss_keeps.after (State.raiseEv_keeps.after (bumpSsc_keeps.after (State.setRf_keeps.after (keeps_ssc).mono))))))))))))))

theorem makeMirror_keeps {s : State} {h : Nat} : Keeps [.regs, .bpm, .gwe] s (makeMirror s h).2 := by
  unfold makeMirror
  split
  · rename_i t he
    exact .snd (State.putQuay_keeps.after (allocBuf_keeps.of_eq he))
  · rename_i t he
    exact .snd (allocBuf_keeps.of_eq he)

theorem enqueue_keeps {s : State} {q : Nat} {i : LQItem} : Keeps [.qba] s (enqueue s q i) := by
  unfold enqueue
  exact State.modLq_keeps

theorem releaseCopy_keeps {s : State} {a : Admit} : Keeps [.bpm] s (releaseCopy s a) := by
  unfold releaseCopy
  exact .ite .refl (.ite releaseShared_keeps freeBuf_keeps)

theorem admitStaged_keeps {s : State} {a : Admit} {pick : Nat} : Keeps [.regs, .bpm, .qba, .ssc] s (admitStaged s a pick) := by
  unfold admitStaged
  dsimp -proj only
  split
  · rename_i t he
    exact State.bump_keeps.after (State.modLq_keeps.after (enqueue_keeps.after (freeMirror_keeps.after (releaseCopy_keeps.after ((packFrame_keeps.of_eq he).mono)))))
  · rename_i t he
    exact State.bump_keeps.after (State.modLq_keeps.after (freeMirror_keeps.after (releaseCopy_keeps.after ((packFrame_keeps.of_eq he).mono))))

theorem landBuffer_keeps {s : State} {a : Admit} : Keeps [.regs, .bpm, .gwe] s (landBuffer s a).2 := by
  unfold landBuffer
  split
  · exact .refl
  · split
    · rename_i t he
      exact .snd (State.putQuay_keeps.after (allocBuf_keeps.of_eq he))
    · rename_i t he
      exact .snd (allocBuf_keeps.of_eq he)

theorem landMirror_keeps {s : State} {a : Admit} {h : Nat} : Keeps [.regs, .bpm, .gwe] s (landMirror s a h).2.2 := by
  unfold landMirror
  dsimp -proj only
  split
  · exact .snd₂ freeMirror_keeps.mono
  · split
    · exact .snd₂ (State.bump_keeps.after freeMirror_keeps.mono)
    · split
      · exact .refl
      · split
        · rename_i t he
          exact .snd₂ (makeMirror_keeps.of_eq he)
        · rename_i t he
          exact .snd₂ (State.bump_keeps.after (makeMirror_keeps.of_eq he))

theorem settleSource_keeps {s : State} {h : Nat} {m : Option Nat} : Keeps [.bpm] s (settleSource s h m) := by
  unfold settleSource
  exact .ite .refl freeBoth_keeps

theorem settleLocal_keeps {s : State} {id : Nat} : Keeps [.bpm, .rsq] s (settleLocal s id) := by
  unfold settleLocal
  dsimp -proj only
  split
  · exact .ite .refl (settleSource_keeps.after keeps_rsq.mono)
  · exact .refl

theorem markCopied_keeps {s : State} {hand : Option Nat} : Keeps [.bpm, .rsq] s (markCopied s hand) := by
  unfold markCopied
  dsimp -proj only
  split
  · exact .refl
  · exact settleLocal_keeps.after keeps_rsq.mono

theorem admitOne_keeps {s : State} {a : Admit} {pick : Nat} : Keeps [.regs, .bpm, .qba, .ssc, .rsq, .gwe] s (admitOne s a pick) := by
  unfold admitOne
  dsimp -proj only
  split
  · exact markCopied_keeps.after (State.bump_keeps.after (freeMirror_keeps.after releaseCopy_keeps.mono))
  · split
    · split
      · rename_i t he
        exact markCopied_keeps.after (admitStaged_keeps.after ((landBuffer_keeps.of_eq he).mono))
      · rename_i t he
        split
        · rename_i t1 he1
          exact markCopied_keeps.after (State.bump_keeps.after (enqueue_keeps.after ((landMirror_keeps.of_eq₂ he1).after ((landBuffer_keeps.of_eq he).mono))))
        · rename_i t1 he1
          exact markCopied_keeps.after (admitStaged_keeps.after ((landMirror_keeps.of_eq₂ he1).after ((landBuffer_keeps.of_eq he).mono)))
    · exact markCopied_keeps.after admitStaged_keeps.mono

theorem offerItem_keeps {s : State} {q pick : Nat} {i : LQItem} : Keeps [.regs, .bpm, .qba, .ssc] s (offerItem s q pick i) := by
  unfold offerItem
  dsimp -proj only
  split
  · exact State.bump_keeps.after (State.modLq_keeps.after (freeMirror_keeps.after (.ite releaseShared_keeps.mono freeBuf_keeps.mono)))
  · split
    · rename_i t he
      exact State.bump_keeps.after (State.modLq_keeps.after (.ite (releaseShared_keeps.after (State.modLq_keeps.after ((packFrame_keeps.of_eq he).mono))) (freeBuf_keeps.after (State.modLq_keeps.after ((packFrame_keeps.of_eq he).mono)))))
    · rename_i t he
      exact State.bump_keeps.after (State.modLq_keeps.after ((packFrame_keeps.of_eq he).mono))

theorem admitNext_keeps {s : State} {a : Admit} {pick : Nat} : Keeps [.regs, .bpm, .qba, .ssc, .rsq, .gwe] s (admitNext s a pick) := by
  unfold admitNext
  dsimp -proj only
  split
  · exact admitOne_keeps
  · exact State.bump_keeps.after (.ite .refl (settleSource_keeps.after keeps_rsq.mono))

theorem execAdmitFrame_keeps {d : Fin 8} {pick : Nat} {s : State} : Answers [.regs, .bpm, .qba, .ssc, .rsq, .gwe] s (execAdmitFrame d pick s) := by
  unfold execAdmitFrame
  refine .onDie ?_
  dsimp -proj only
  split
  · exact .refl
  · exact admitNext_keeps.after (keeps_qba).mono

theorem execDwellStage_keeps {q : Fin 262144} {pick : Nat} {s : State} : Answers [.regs, .bpm, .qba, .ssc] s (execDwellStage q pick s) := by
  unfold execDwellStage
  refine .onDie ?_
  split
  · exact .refl
  · split
    · exact .refl
    · exact offerItem_keeps

theorem wrQsel_keeps {s : State} {d : Nat} {w : Word} : Keeps [.regs] s (wrQsel s d w).2 := by
  unfold wrQsel
  dsimp -proj only
  exact .snd (.foldl (fun _ _ => State.setReg_keeps) State.setReg_keeps)

theorem rdQdata_keeps {s : State} {d i : Nat} : Keeps [.regs, .qba] s (rdQdata s d i).2 := by
  unfold rdQdata
  dsimp -proj only
  split
  · exact .refl
  · exact .snd (State.modLq_keeps.after State.setReg_keeps.mono)

theorem rdResult_keeps {l : List Piece} {s : State} {a : Word × State} (h : Keeps l s a.2) (hg : [.gwe] ⊆ l := by exact within rfl) : Keeps l s (rdResult s a) :=
  .ite ((keeps_gwe).after h hg) ((keeps_gwe).mono hg)

theorem hostDieRd_answers {l : List Piece} {s : State} {d : Nat} {f : State → Word × State} (h : Keeps l s (f s).2) (hg : [.gwe] ⊆ l := by exact within rfl) :
    Answers l s (hostDieRd s d f) :=
  .next (.ite ((keeps_gwe).mono hg) (rdResult_keeps h hg))

theorem execQbaQselWrite_keeps {d : Fin 8} {w : Word} {s : State} : Answers [.regs, .gwe] s (execQbaQselWrite d w s) := by
  unfold execQbaQselWrite
  exact hostDieWr_answers wrQsel_keeps.mono

theorem execQbaQdataRead_keeps {d : Fin 8} {i : Fin 5} {s : State} : Answers [.regs, .qba, .gwe] s (execQbaQdataRead d i s) := by
  unfold execQbaQdataRead
  exact hostDieRd_answers rdQdata_keeps.mono

theorem State.setMcs_keeps {s : State} {w : Nat} {v : BitVec 128} : Keeps [.plt] s (s.setMcs w v) := by
  unfold State.setMcs
  exact keeps_plt

/-- The write is named first: applied, the kernel would evaluate the handle's number. -/
theorem execHostFree_keeps {d : Fin 8} {w : Word} {s : State} : Answers [.regs, .bpm, .gwe] s (execHostFree d w s) := by
  have h : Keeps [.regs, .bpm, .gwe] s (wrHostFree s d w).2 := wrHostFree_keeps.mono
  unfold execHostFree
  generalize e : (fun s => wrHostFree s ↑d w) = f
  rw [show wrHostFree s d w = f s by rw [← e]] at h
  exact hostDieWr_answers h

theorem wrEditProg_keeps {s : State} {d n : Nat} {w : Word} : Keeps [.regs] s (wrEditProg s d n w).2 := by
  unfold wrEditProg
  dsimp -proj only
  split
  · exact .refl
  · split
    · split
      · exact .snd State.setReg_keeps
      · exact .refl
    · split
      · exact .refl
      · exact .refl

theorem wrPortData_keeps {s : State} {d l w : Nat} {v : Word} : Keeps [.regs, .rsq] s (wrPortData s d l w v).2 := by
  unfold wrPortData
  dsimp -proj only
  split
  · exact .snd keeps_rsq.mono
  · refine .snd ?_
    refine keeps_rsq.after (State.setReg_keeps.after (.foldl (fun t x => ?_) .refl))
    split
    · exact State.setReg_keeps.mono
    · exact .refl

theorem execEditProgWrite_keeps {d : Fin 8} {n : Fin 256} {w : Word} {s : State} : Answers [.regs, .gwe] s (execEditProgWrite d n w s) := by
  unfold execEditProgWrite
  exact hostDieWr_answers wrEditProg_keeps.mono

theorem execPortDataCommit_keeps {d : Fin 8} {l : Fin 4} {w : Word} {s : State} : Answers [.regs, .rsq, .gwe] s (execPortDataCommit d l w s) := by
  unfold execPortDataCommit
  exact hostDieWr_answers wrPortData_keeps.mono

theorem recomputeBps_keeps {s : State} : Keeps [.regs] s (recomputeBps s) := by
  unfold recomputeBps
  exact .foldl (fun _ _ => State.setRf_keeps) .refl

theorem readChunk_keeps {s : State} {j smask k port target : Nat} {deadline : Option Nat} : Keeps [.regs, .ssc] s (readChunk s j smask k port target deadline) := by
  unfold readChunk
  dsimp -proj only
  exact .ite readParity_keeps pushReq_keeps.mono

theorem issuePf_keeps {s : State} {p : Pf} : Keeps [.regs, .ssc] s (issuePf s p) := by
  unfold issuePf
  dsimp -proj only
  split
  · exact .refl
  · exact .foldl (fun _ _ => readChunk_keeps) .refl

theorem requestSeg_keeps {s : State} {q j deadline run : Nat} {counts : Bool} : Keeps [.regs, .cte, .ssc] s (requestSeg s q j deadline run counts) := by
  unfold requestSeg
  dsimp -proj only
  exact .ite (issuePf_keeps.after keeps_cte.mono) (State.bump_keeps.after keeps_cte.mono)

theorem State.modPf_keeps {s : State} {q j : Nat} {f : Pf → Pf} : Keeps [.cte] s (s.modPf q j f) := by
  unfold State.modPf
  exact keeps_cte

theorem dropPf_keeps {s : State} {q j : Nat} : Keeps [.cte, .ssc] s (dropPf s q j) := by
  unfold dropPf
  exact .and_ssc keeps_cte.mono

theorem requestSome_keeps {s : State} {q deadline run : Nat} {counts : Bool} {js : List Nat} : Keeps [.regs, .cte, .ssc] s (requestSome s q deadline run counts js) := by
  unfold requestSome
  dsimp -proj only
  exact .foldl (fun _ _ => requestSeg_keeps) .refl

theorem keepForRun_keeps {s : State} {q run : Nat} {js : List Nat} : Keeps [.cte] s (keepForRun s q run js) := by
  unfold keepForRun
  exact keeps_cte

theorem prefetchAt_keeps {s : State} {b g : Nat} : Keeps [.regs, .cte, .qba, .ssc] s (prefetchAt s b g) := by
  unfold prefetchAt
  dsimp -proj only
  split
  · refine .foldl (fun t x => ?_) .refl
    split
    · refine requestSome_keeps.after (keepForRun_keeps.after ?_)
      split
      · exact .ite (closeFresh_keeps.after closeSegment_keeps.mono) closeSegment_keeps.mono
      · exact .ite (closeFresh_keeps.after .refl) .refl
    · split
      · exact .ite (closeFresh_keeps.after closeSegment_keeps.mono) closeSegment_keeps.mono
      · exact .ite (closeFresh_keeps.after .refl) .refl
  · exact .refl

theorem dueRead_keeps {s : State} {q : Nat} : Keeps [.regs, .cte, .ssc] s (dueRead s q) := by
  unfold dueRead
  exact .ite requestSome_keeps .refl

theorem skipHeads_keeps {s : State} {b : Nat} {qs : List Nat} : Keeps [.cte, .qba] s (skipHeads s b qs) := by
  unfold skipHeads
  exact .foldl (fun _ _ => State.modBank_keeps.after State.modLq_keeps.mono) .refl

theorem drrPick_keeps {s : State} {b g : Nat} {qs : List Nat} : Keeps [.qba] s (drrPick s b g qs).2.2 := by
  unfold drrPick
  dsimp -proj only
  split
  · exact .refl
  · exact .snd₂ (.foldl (fun _ _ => .ite .refl State.modLq_keeps) .refl)

theorem settleRound_keeps {s : State} {p : Nat} : Keeps [.cte] s (settleRound s p) := by
  unfold settleRound
  exact State.modPtx_keeps

theorem settleRounds_keeps {s : State} : Keeps [.cte] s (settleRounds s) := by
  unfold settleRounds
  exact .foldl (fun _ _ => settleRound_keeps) .refl

theorem assignEngines_keeps {s : State} : Keeps [.cte] s (assignEngines s) := by
  unfold assignEngines
  refine .foldl (fun t x => ?_) .refl
  split
  · exact State.modPtx_keeps
  · exact .refl

theorem releaseItem_keeps {s : State} {q : Nat} {i : LQItem} {aged : optParam Bool false} : Keeps [.regs, .cte, .bpm, .qba, .ssc] s (releaseItem s q i aged) := by
  unfold releaseItem
  dsimp -proj only
  exact .ite (.ite (freeMirror_keeps.after leaveSegment_keeps.mono) (dropPf_keeps.after (freeMirror_keeps.after leaveSegment_keeps.mono))) (freeMirror_keeps.after (.ite releaseShared_keeps.mono freeBuf_keeps.mono))

theorem requestNext_keeps {s : State} {q : Nat} {i : LQItem} {bps : Nat} : Keeps [.regs, .cte, .ssc] s (requestNext s q i bps) := by
  unfold requestNext
  dsimp -proj only
  split
  · exact .refl
  · split
    · exact .refl
    · split
      · exact .refl
      · split
        · exact State.modPf_keeps.mono
        · exact requestSeg_keeps.after State.modPf_keeps.mono

theorem startFrame_keeps {s : State} {p q bps : Nat} : Keeps [.regs, .cte, .bpm, .qba, .ssc] s (startFrame s p q bps) := by
  unfold startFrame
  dsimp -proj only
  split
  · exact .refl
  · split
    · exact State.bump_keeps.after (releaseItem_keeps.after (State.modPtx_keeps.after (requestNext_keeps.after State.setLq_keeps.mono)))
    · split
      · exact State.bump_keeps.after (releaseItem_keeps.after (State.modPtx_keeps.after (requestNext_keeps.after State.setLq_keeps.mono)))
      · split
        · exact State.bump_keeps.after (releaseItem_keeps.after (State.modPtx_keeps.after (requestNext_keeps.after State.setLq_keeps.mono)))
        · exact State.modPtx_keeps.after (State.modPtx_keeps.after (requestNext_keeps.after State.setLq_keeps.mono))

theorem endRun_keeps {s : State} {b g : Nat} : Keeps [.cte, .qba, .ssc] s (endRun s b g) := by
  unfold endRun
  dsimp -proj only
  exact .foldl (fun _ _ => dropPf_keeps.mono) (.foldl (fun _ _ => State.modLq_keeps.mono) .refl)

theorem stepBank_keeps {s : State} {b : Nat} : Keeps [.cte, .qba, .ssc] s (stepBank s b) := by
  unfold stepBank
  dsimp -proj only
  exact .ite (.foldl (fun _ _ => .ite endRun_keeps .refl) (.ite State.modBank_keeps.mono .refl)) (State.modBank_keeps.after (.foldl (fun _ _ => .ite endRun_keeps .refl) (.ite State.modBank_keeps.mono .refl)))

theorem stepBanks_keeps {s : State} : Keeps [.cte, .qba, .ssc] s (stepBanks s) := by
  unfold stepBanks
  dsimp -proj only
  exact settleRounds_keeps.after (.foldl (fun _ _ => stepBank_keeps) keeps_cte.mono)

theorem drainPorts_keeps {s : State} : Keeps [.cte] s (drainPorts s) := by
  unfold drainPorts
  exact keeps_cte

theorem abortPort_keeps {s : State} {p : Nat} : Keeps [.regs, .cte, .bpm, .qba, .ssc] s (abortPort s p) := by
  unfold abortPort
  dsimp -proj only
  exact assignEngines_keeps.after (State.modPtx_keeps.after (.foldl (fun _ _ => .ite State.modLq_keeps.mono (releaseItem_keeps.after State.modLq_keeps.mono)) .refl))

theorem ageDrop_keeps {s : State} {q : Nat} : Keeps [.regs, .cte, .bpm, .qba, .ssc] s (ageDrop s q) := by
  unfold ageDrop
  dsimp -proj only
  exact .ite .refl (.foldl (fun _ _ => releaseItem_keeps) State.setLq_keeps.mono)

theorem swapTo_keeps {s : State} {copy xing : Nat} : Keeps [.regs, .cte] s (swapTo s copy xing) := by
  unfold swapTo
  dsimp -proj only
  exact State.bumpF_keeps.after (State.setReg_keeps.after keeps_cte.mono)

theorem hostSwap_keeps {s : State} {xing : Nat} : Keeps [.regs, .cte, .gwe] s (hostSwap s xing) := by
  unfold hostSwap
  dsimp -proj only
  exact State.raiseEv_keeps.after (State.bumpGen_keeps.after (keeps_cte.after swapTo_keeps.mono))

theorem wrSwap_keeps {s : State} {w : Word} : Keeps [.regs, .cte, .gwe] s (wrSwap s w).2 := by
  unfold wrSwap
  dsimp -proj only
  split
  · exact .refl
  · split
    · exact .refl
    · split
      · split
        · exact .refl
        · split
          · exact .refl
          · split
            · exact .snd (State.bumpGen_keeps.after keeps_cte.mono)
            · exact .snd State.bumpF_keeps.mono
      · split
        · split
          · exact .refl
          · split
            · exact .snd (State.bumpGen_keeps.after keeps_cte.mono)
            · exact .refl
        · split
          · split
            · exact .refl
            · split
              · exact .refl
              · split
                · exact .refl
                · exact .snd hostSwap_keeps
          · exact .refl

theorem wrSwapXing_keeps {s : State} {w : Word} : Keeps [.regs] s (wrSwapXing s w).2 := by
  unfold wrSwapXing
  split
  · exact .refl
  · exact .snd State.setReg_keeps

theorem execCteSwapArm_keeps {exp : BitVec 16} {s : State} : Answers [.regs, .cte, .gwe] s (execCteSwapArm exp s) := by
  unfold execCteSwapArm
  exact hostWr_answers wrSwap_keeps

theorem execCteSwapCancel_keeps {exp : BitVec 16} {s : State} : Answers [.regs, .cte, .gwe] s (execCteSwapCancel exp s) := by
  unfold execCteSwapCancel
  exact hostWr_answers wrSwap_keeps

theorem execCteSwapNow_keeps {exp : BitVec 16} {s : State} : Answers [.regs, .cte, .gwe] s (execCteSwapNow exp s) := by
  unfold execCteSwapNow
  exact hostWr_answers wrSwap_keeps

theorem dueSwap_keeps {s : State} : Keeps [.regs, .cte, .gwe] s (dueSwap s) := by
  unfold dueSwap
  split
  · exact .ite hostSwap_keeps .refl
  · exact .refl

theorem execTimetableSwap_keeps {s : State} : Answers [.regs, .cte, .gwe] s (execTimetableSwap s) := by
  unfold execTimetableSwap
  exact .next dueSwap_keeps

theorem settleCopy_keeps {s : State} : Keeps [.regs, .cte, .gwe] s (settleCopy s) := by
  unfold settleCopy
  dsimp -proj only
  split
  · exact .ite (.ite (keeps_cte.after dueSwap_keeps) (swapTo_keeps.after (keeps_cte.after dueSwap_keeps))) .refl
  · exact .refl

theorem execCopySelect_keeps {s : State} : Answers [.regs, .cte, .gwe] s (execCopySelect s) := by
  unfold execCopySelect
  exact .next settleCopy_keeps

theorem execPrefetchPoint_keeps {b : Fin 8192} {g : Fin 4} {s : State} : Answers [.regs, .cte, .qba, .ssc] s (execPrefetchPoint b g s) := by
  unfold execPrefetchPoint
  exact .onDie prefetchAt_keeps

theorem execPrefetchLand_keeps {q : Fin 262144} {seg : Nat} {s : State} : Answers [.cte] s (execPrefetchLand q seg s) := by
  unfold execPrefetchLand
  refine .onDie ?_
  split
  · exact .ite State.modPf_keeps .refl
  · exact .refl

theorem execPrefetchDeadline_keeps {q : Fin 262144} {seg : Nat} {s : State} : Answers [.regs, .cte] s (execPrefetchDeadline q seg s) := by
  unfold execPrefetchDeadline
  refine .onDie ?_
  split
  · exact .ite (State.bump_keeps.after (State.modBank_keeps.after State.modPf_keeps.mono)) .refl
  · exact .refl

theorem execDueQueueRead_keeps {q : Fin 262144} {s : State} : Answers [.regs, .cte, .ssc] s (execDueQueueRead q s) := by
  unfold execDueQueueRead
  exact .onDie dueRead_keeps

theorem execPrefetchAreaWait_keeps {d : Fin 8} {s : State} : Answers [.regs, .cte, .ssc] s (execPrefetchAreaWait d s) := by
  unfold execPrefetchAreaWait
  refine .onDie ?_
  split
  · exact .ite (issuePf_keeps.after State.modPf_keeps.mono) .refl
  · exact .refl

theorem execLinkStateApply_keeps {p : Fin 32} {s : State} : Answers [.cte] s (execLinkStateApply p s) := by
  unfold execLinkStateApply
  refine .onDie ?_
  dsimp -proj only
  split
  · exact State.modPtx_keeps.after keeps_cte
  · exact .refl

theorem execAgeDrop_keeps {q : Fin 262144} {s : State} : Answers [.regs, .cte, .bpm, .qba, .ssc] s (execAgeDrop q s) := by
  unfold execAgeDrop
  exact .onDie ageDrop_keeps

theorem execFrameLeaveQuay_keeps {p : Fin 32} {s : State} : Answers [.regs, .cte, .bpm, .qba, .ssc] s (execFrameLeaveQuay p s) := by
  unfold execFrameLeaveQuay
  refine .onDie ?_
  dsimp -proj only
  split
  · exact .ite .refl (assignEngines_keeps.after (releaseItem_keeps.after (State.modLq_keeps.after State.modPtx_keeps.mono)))
  · exact .refl

theorem execFrameTransmitEnd_keeps {p : Fin 32} {s : State} : Answers [.regs, .cte, .lpx, .lineTx] s (execFrameTransmitEnd p s) := by
  unfold execFrameTransmitEnd
  refine .onDie ?_
  dsimp -proj only
  split
  · exact .ite (keeps_lpx.after (State.bumpN_keeps.after (State.bump_keeps.after (State.modPtx_keeps.after keeps_lineTx.mono)))) .refl
  · exact .refl

theorem State.at_keeps {s : State} {now : Nat} : Keeps [.ssc] s (s.at_ now) := by
  unfold State.at_
  exact keeps_ssc

theorem countRaw_keeps {s : State} {d pc : Nat} : Keeps [.regs, .ssc] s (countRaw s d pc) := by
  unfold countRaw
  dsimp -proj only
  exact (keeps_ssc).after State.bumpN_keeps.mono

theorem servePc_keeps {s : State} {id pc : Nat} : Keeps [.ssc] s (servePc s id pc) := by
  unfold servePc
  exact keeps_ssc

theorem execUrgencyLate_keeps {id now : Nat} {s : State} : Answers [.regs, .ssc] s (execUrgencyLate id now s) := by
  unfold execUrgencyLate
  dsimp -proj only
  refine .next ?_
  split
  · exact .ite (State.bump_keeps.after ((keeps_ssc).after State.at_keeps.mono)) State.at_keeps.mono
  · exact State.at_keeps.mono

theorem closeRow_keeps {s : State} {d pc bank : Nat} : Keeps [.ssc] s (closeRow s d pc bank) := by
  unfold closeRow
  exact keeps_ssc

theorem execRowIdleClose_keeps {d : Fin 8} {pc : Fin 32} {bank : Nat} {s : State} : Answers [.ssc] s (execRowIdleClose d pc bank s) := by
  unfold execRowIdleClose
  exact .onDie (.ite .refl closeRow_keeps)

theorem State.setCredit_keeps {s : State} {d pc v : Nat} : Keeps [.ssc] s (s.setCredit d pc v) := by
  unfold State.setCredit
  exact keeps_ssc

theorem execRefreshDue_keeps {d : Fin 8} {pc : Fin 32} {bank : Nat} {s : State} : Answers [.regs, .ssc] s (execRefreshDue d pc bank s) := by
  unfold execRefreshDue
  refine .onDie ?_
  dsimp -proj only
  exact .ite (.ite (State.bump_keeps.after State.setCredit_keeps.mono) (State.bump_keeps.after closeRow_keeps.mono)) (State.setCredit_keeps.after closeRow_keeps.mono)

theorem execStackTempHot_keeps {d : Fin 8} {hot : Bool} {s : State} : Answers [.regs] s (execStackTempHot d hot s) := by
  unfold execStackTempHot
  exact .onDie State.setRf_keeps

theorem setGroup_keeps {s : State} {smask : Nat} : Keeps [.regs, .ssc] s (setGroup s smask) := by
  unfold setGroup
  dsimp -proj only
  exact setSsc_keeps.after (setSsc_keeps.after (setSsc_keeps.after (keeps_ssc).mono))

theorem execTrainingDone_keeps {passed : BitVec 8} {s : State} : Answers [.regs, .ssc, .gwe] s (execTrainingDone passed s) := by
  unfold execTrainingDone
  refine .next ?_
  dsimp -proj only
  exact .ite .refl (.overDies (fun _ _ => State.raiseEv_keeps.after State.setRf_keeps.mono) (bumpSsc_keeps.after (setGroup_keeps.after (.overDies (fun _ _ => State.setRf_keeps.mono) (keeps_ssc).mono))))

theorem spareRemap_keeps {s : State} {d unit : Nat} : Keeps [.regs, .ssc, .gwe] s (spareRemap s d unit) := by
  unfold spareRemap
  dsimp -proj only
  split
  · exact .refl
  · split
    · exact setSsc_keeps.mono
    · split
      · refine State.raiseEv_keeps.after (State.setRf_keeps.after ((keeps_ssc).after (pushPort_keeps.after ?_)))
        split
        · exact .foldl (fun _ _ => pushPort_keeps.mono) .refl
        · exact .refl
      · refine State.setRf_keeps.after ((keeps_ssc).after (pushPort_keeps.after ?_))
        split
        · exact .foldl (fun _ _ => pushPort_keeps.mono) .refl
        · exact .refl

theorem execSpareRemap_keeps {d : Fin 8} {unit : Nat} {s : State} : Answers [.regs, .ssc, .gwe] s (execSpareRemap d unit s) := by
  unfold execSpareRemap
  exact .onDie spareRemap_keeps

theorem loseChannel_keeps {s : State} {d c : Nat} : Keeps [.regs, .cte, .bpm, .qba, .ssc, .tdx, .gwe] s (loseChannel s d c) := by
  unfold loseChannel
  dsimp -proj only
  exact .ite .refl (.ite (loseStack_keeps.after (checkRecords_keeps.after (State.raiseEv_keeps.after (bumpSsc_keeps.after (setSsc_keeps.after State.setRf_keeps.mono))))) (checkRecords_keeps.after (State.raiseEv_keeps.after (bumpSsc_keeps.after (setSsc_keeps.after State.setRf_keeps.mono)))))

theorem eccNote_keeps {s : State} {d mem a : Nat} : Keeps [.regs] s (eccNote s d mem a) := by
  unfold eccNote
  exact State.bumpGen_keeps.after State.setReg_keeps

theorem eccReport_keeps {s : State} {d mem a outcome : Nat} : Keeps [.regs, .gwe] s (eccReport s d mem a outcome) := by
  unfold eccReport
  dsimp -proj only
  exact State.raiseEv_keeps.after eccNote_keeps.mono

theorem pieceLost_keeps {s : State} {d piece : Nat} : Keeps [.regs, .cte, .bpm, .qba, .ssc, .tdx, .gwe] s (pieceLost s d piece) := by
  unfold pieceLost
  dsimp -proj only
  exact .ite (.ite (eccNote_keeps.after (keeps_ssc).mono) (eccReport_keeps.after (keeps_ssc).mono)) (.ite (eccReport_keeps.after (keeps_tdx.after (keeps_ssc).mono)) (.ite (checkRecords_keeps.after (eccReport_keeps.after (keeps_ssc).mono)) (eccReport_keeps.after (keeps_ssc).mono)))

theorem pieceError_keeps {s : State} {d piece : Nat} : Keeps [.regs, .cte, .bpm, .qba, .ssc, .tdx, .gwe] s (pieceError s d piece) := by
  unfold pieceError
  dsimp -proj only
  exact .ite .refl (.ite (loseChannel_keeps.after (pieceLost_keeps.after State.bumpF_keeps.mono)) (pieceLost_keeps.after State.bumpF_keeps.mono))

theorem readOutcome_keeps {s : State} {d piece bad : Nat} : Keeps [.regs, .cte, .bpm, .qba, .ssc, .tdx, .gwe] s (readOutcome s d piece bad) := by
  unfold readOutcome
  exact .ite .refl (.ite State.bump_keeps.mono pieceError_keeps)

theorem reconstruct_keeps {s : State} {r : HbmReq} {pc : Nat} : Keeps [.regs, .ssc] s (reconstruct s r pc) := by
  unfold reconstruct
  split
  · exact .refl
  · split
    · exact readParity_keeps
    · exact .ite pushReq_keeps.mono .refl
    · exact .refl

theorem useRow_keeps {s : State} {d piece : Nat} : Keeps [.ssc] s (useRow s d piece) := by
  unfold useRow
  dsimp -proj only
  exact keeps_ssc

theorem issueNext_keeps {s : State} {d pc bad : Nat} : Keeps [.regs, .cte, .bpm, .qba, .ssc, .tdx, .gwe] s (issueNext s d pc bad) := by
  unfold issueNext
  dsimp -proj only
  split
  · exact countRaw_keeps.mono
  · exact reconstruct_keeps.after (.ite (useRow_keeps.after (servePc_keeps.after countRaw_keeps.mono)) (readOutcome_keeps.after (useRow_keeps.after (servePc_keeps.after countRaw_keeps.mono))))

theorem execHbmRequestIssue_keeps {d : Fin 8} {pc : Fin 32} {now : HbmServe} {s : State} : Answers [.regs, .cte, .bpm, .qba, .ssc, .tdx, .gwe] s (execHbmRequestIssue d pc now s) := by
  unfold execHbmRequestIssue
  exact .onDie (issueNext_keeps.after State.at_keeps.mono)

theorem execChannelLost_keeps {d : Fin 8} {c : Fin 16} {s : State} : Answers [.regs, .cte, .bpm, .qba, .ssc, .tdx, .gwe] s (execChannelLost d c s) := by
  unfold execChannelLost
  exact .onDie loseChannel_keeps

theorem execStackLost_keeps {d : Fin 8} {cause : StackCause} {s : State} : Answers [.regs, .cte, .bpm, .qba, .ssc, .tdx, .gwe] s (execStackLost d cause s) := by
  unfold execStackLost
  exact .onDie loseStack_keeps

theorem execSegFlushExpiry_keeps {seg : Nat} {s : State} : Answers [.regs, .qba, .ssc] s (execSegFlushExpiry seg s) := by
  unfold execSegFlushExpiry
  refine .next ?_
  dsimp -proj only
  split
  · exact .ite closeSegment_keeps .refl
  · exact .refl

theorem windowPiece_keeps {s : State} {j b : Nat} : Keeps [.regs, .ssc] s (windowPiece s j b) := by
  unfold windowPiece
  dsimp -proj only
  exact .ite readParity_keeps pushPort_keeps.mono

theorem windowSpill_keeps {s : State} {d i : Nat} : Keeps [.ssc] s (windowSpill s d i) := by
  unfold windowSpill
  exact pushPort_keeps

theorem dropStagedMirrors_keeps {s : State} {q j : Nat} : Keeps [.bpm, .qba] s (dropStagedMirrors s q j) := by
  unfold dropStagedMirrors
  dsimp -proj only
  exact State.modLq_keeps.after (.foldl (fun _ _ => freeMirror_keeps.mono) .refl)

theorem execSegmentWritten_keeps {seg : Nat} {s : State} : Answers [.regs, .cte, .bpm, .qba, .ssc] s (execSegmentWritten seg s) := by
  unfold execSegmentWritten
  refine .next ?_
  dsimp -proj only
  split
  · exact .ite (.ite (.ite (State.bump_keeps.after (freeSegment_keeps.after (dropStagedMirrors_keeps.after State.setSeg_keeps.mono))) (freeSegment_keeps.after (dropStagedMirrors_keeps.after State.setSeg_keeps.mono))) (dropStagedMirrors_keeps.after State.setSeg_keeps.mono)) .refl
  · exact .refl

theorem freshRoom_keeps {s : State} {q old n pick : Nat} : Keeps [.regs, .qba, .ssc] s (freshRoom s q old n pick).2 := by
  unfold freshRoom
  dsimp -proj only
  split
  · exact .refl
  · split
    · rename_i t he
      exact .snd ((takeSegment_keeps.of_eq he).after closeFresh_keeps.mono)
    · rename_i t he
      exact .snd (State.setRebuild_keeps.after (relink_keeps.after (writeRecord_keeps.after (State.modLq_keeps.after (emptyParity_keeps.after (State.setSeg_keeps.after ((takeSegment_keeps.of_eq he).after closeFresh_keeps.mono)))))))

theorem rebuildWait_keeps {s : State} : Keeps [.regs, .ssc, .gwe] s (rebuildWait s) := by
  unfold rebuildWait
  exact evRebuild_keeps.after (bumpSsc_keeps.after State.setRebuild_keeps.mono)

theorem rebuildDone_keeps {s : State} : Keeps [.regs, .ssc, .gwe] s (rebuildDone s) := by
  unfold rebuildDone
  exact evRebuild_keeps.after (bumpSsc_keeps.after (setSsc_keeps.after State.setRebuild_keeps.mono))

theorem rebuildReads_keeps {s : State} {q j : Nat} : Keeps [.regs, .ssc] s (rebuildReads s q j) := by
  unfold rebuildReads
  dsimp -proj only
  split
  · exact .foldl (fun _ _ => readChunk_keeps) (State.setRebuild_keeps.after (.overDies (fun _ _ => State.setRf_keeps.mono) .refl))
  · exact State.setRebuild_keeps.after (.overDies (fun _ _ => State.setRf_keeps.mono) .refl)

theorem execRebuildResume_keeps {s : State} : Answers [.regs, .ssc, .gwe] s (execRebuildResume s) := by
  unfold execRebuildResume
  refine .next ?_
  split
  · exact .ite (evRebuild_keeps.after (bumpSsc_keeps.after State.setRebuild_keeps.mono)) .refl
  · exact .refl

theorem State.setPhIn_keeps {s : State} {i : PhInp} {x : PhIn} : Keeps [.phi] s (s.setPhIn i x) := by
  unfold State.setPhIn
  dsimp -proj only
  split
  · exact keeps_phi
  · exact keeps_phi

theorem phEvent_keeps {s : State} {code : Nat} {args : List Nat} : Keeps [.regs, .gwe] s (phEvent s code args) := by
  unfold phEvent
  exact State.raiseEv_keeps

theorem laneStep_keeps {s : State} {lanes : List (Fin 8 × Nat)} : Keeps [.phi] s (laneStep s lanes) := by
  unfold laneStep
  refine .foldl (fun t x => ?_) .refl
  dsimp -proj only
  exact .ite keeps_phi .refl

theorem skewDie_keeps {d : Nat} {s : State} : Keeps [.regs, .phi, .gwe] s (skewDie d s) := by
  unfold skewDie
  dsimp -proj only
  exact .ite (State.raiseEv_keeps.after (keeps_phi.after State.bumpF_keeps.mono)) .refl

theorem beginCrossing_keeps {s : State} {was : Nat} : Keeps [.regs, .phi, .cte, .gwe] s (beginCrossing s was) := by
  unfold beginCrossing
  dsimp -proj only
  exact .overDies (fun _ _ => skewDie_keeps.mono) (recomputeBps_keeps.after (.and_cte keeps_phi.mono))

theorem advance_keeps {s : State} {lanes : List (Fin 8 × Nat)} : Keeps [.regs, .phi, .cte, .qba, .ssc, .gwe] s (advance s lanes) := by
  unfold advance
  dsimp -proj only
  exact stepBanks_keeps.after (.ite (beginCrossing_keeps.after (keeps_phi.after (laneStep_keeps.after drainPorts_keeps.mono))) (keeps_phi.after (laneStep_keeps.after drainPorts_keeps.mono)))

theorem setPhase_keeps {s : State} {st : PhSt} {src : PhSrc} : Keeps [.regs, .phi, .cte] s (setPhase s st src) := by
  unfold setPhase
  exact .ite .refl (settleRounds_keeps.after (State.bumpGen_keeps.after keeps_phi.mono))

theorem consider_keeps {s : State} : Keeps [.phi] s (consider s) := by
  unfold consider
  dsimp -proj only
  exact keeps_phi

theorem toLost_keeps {s : State} : Keeps [.regs, .phi, .cte, .gwe] s (toLost s) := by
  unfold toLost
  dsimp -proj only
  exact phEvent_keeps.after setPhase_keeps.mono

theorem toHoldover_keeps {s : State} : Keeps [.regs, .phi, .cte, .gwe] s (toHoldover s) := by
  unfold toHoldover
  dsimp -proj only
  exact .ite toLost_keeps (phEvent_keeps.after (setPhase_keeps.after keeps_phi.mono))

theorem takePeriod_keeps {s : State} {i : PhInp} : Keeps [.phi] s (takePeriod s i) := by
  unfold takePeriod
  dsimp -proj only
  exact .ite .refl keeps_phi

theorem switchTo_keeps {s : State} {i : PhInp} : Keeps [.regs, .phi, .cte, .gwe] s (switchTo s i) := by
  unfold switchTo
  dsimp -proj only
  exact phEvent_keeps.after (setPhase_keeps.after takePeriod_keeps.mono)

theorem becameHealthy_keeps {s : State} {i : PhInp} : Keeps [.regs, .phi, .cte, .gwe] s (becameHealthy s i) := by
  unfold becameHealthy
  dsimp -proj only
  split
  · exact .ite .refl phEvent_keeps.mono
  · exact consider_keeps.mono
  · exact .ite (State.setReg_keeps.after (phEvent_keeps.after (setPhase_keeps.after (takePeriod_keeps.after keeps_phi.mono)))) (.ite keeps_phi.mono .refl)
  · exact .ite keeps_phi.mono .refl
  · exact .refl

theorem inputFailed_keeps {s : State} {i : PhInp} {check : Nat} : Keeps [.regs, .phi, .cte, .gwe] s (inputFailed s i check) := by
  unfold inputFailed
  dsimp -proj only
  split
  · exact consider_keeps.after (.ite keeps_phi.mono .refl)
  · exact .ite (.ite (switchTo_keeps.after (.ite keeps_phi.mono .refl)) (toHoldover_keeps.after (.ite keeps_phi.mono .refl))) (phEvent_keeps.after (.ite keeps_phi.mono .refl))
  · exact .ite (becameHealthy_keeps.after (.ite keeps_phi.mono .refl)) (.ite keeps_phi.mono .refl)
  · exact .ite (becameHealthy_keeps.after (.ite keeps_phi.mono .refl)) (.ite keeps_phi.mono .refl)
  · exact .ite keeps_phi.mono .refl

theorem failCheck_keeps {s : State} {i : PhInp} {check : Nat} : Keeps [.regs, .phi, .cte, .gwe] s (failCheck s i check) := by
  unfold failCheck
  dsimp -proj only
  exact .ite (inputFailed_keeps.after (keeps_phi.after State.setPhIn_keeps.mono)) .refl

theorem trackEdge_keeps {s : State} {i : PhInp} {mark : Bool} {period : Nat} : Keeps [.regs, .phi] s (trackEdge s i mark period).2 := by
  unfold trackEdge
  dsimp -proj only
  split
  · exact .ite (State.bumpF_keeps.after State.setPhIn_keeps.mono) State.setPhIn_keeps.mono
  · exact .ite (State.bumpF_keeps.after State.setPhIn_keeps.mono) State.setPhIn_keeps.mono

theorem stepEdge_keeps {s : State} {i : PhInp} {mark : Bool} {period lag : Nat} {lanes : List (Fin 8 × Nat)} : Keeps [.regs, .phi, .cte, .qba, .ssc, .gwe] s (stepEdge s i mark period lag lanes) := by
  unfold stepEdge
  dsimp -proj only
  split
  · exact .refl
  · split
    · exact failCheck_keeps.after (.ite trackEdge_keeps.mono (.ite (keeps_phi.after (.ite (keeps_phi.after (.ite (takePeriod_keeps.after trackEdge_keeps.mono) trackEdge_keeps.mono)) (advance_keeps.after (keeps_phi.after (.ite (takePeriod_keeps.after trackEdge_keeps.mono) trackEdge_keeps.mono))))) (.ite (keeps_phi.after (.ite (takePeriod_keeps.after trackEdge_keeps.mono) trackEdge_keeps.mono)) (advance_keeps.after (keeps_phi.after (.ite (takePeriod_keeps.after trackEdge_keeps.mono) trackEdge_keeps.mono))))))
    · exact .ite trackEdge_keeps.mono (.ite (keeps_phi.after (.ite (keeps_phi.after (.ite (takePeriod_keeps.after trackEdge_keeps.mono) trackEdge_keeps.mono)) (advance_keeps.after (keeps_phi.after (.ite (takePeriod_keeps.after trackEdge_keeps.mono) trackEdge_keeps.mono))))) (.ite (keeps_phi.after (.ite (takePeriod_keeps.after trackEdge_keeps.mono) trackEdge_keeps.mono)) (advance_keeps.after (keeps_phi.after (.ite (takePeriod_keeps.after trackEdge_keeps.mono) trackEdge_keeps.mono)))))

theorem coast_keeps {s : State} {lanes : List (Fin 8 × Nat)} : Keeps [.regs, .phi, .cte, .qba, .ssc, .gwe] s (coast s lanes) := by
  unfold coast
  dsimp -proj only
  exact .ite (keeps_phi.after advance_keeps) advance_keeps

theorem execPhaseStep_keeps {inp : PhInp} {mark : Bool} {period : Nat} {lag : StepLag} {s : State} : Answers [.regs, .phi, .cte, .qba, .ssc, .gwe] s (execPhaseStep inp mark period lag s) := by
  unfold execPhaseStep
  exact .next stepEdge_keeps

theorem execEstimatedStep_keeps {s : State} : Answers [.regs, .phi, .cte, .qba, .ssc, .gwe] s (execEstimatedStep s) := by
  unfold execEstimatedStep
  refine .next ?_
  dsimp -proj only
  exact .ite (keeps_phi.after advance_keeps) .refl

theorem execCoastedStep_keeps {s : State} : Answers [.regs, .phi, .cte, .qba, .ssc, .gwe] s (execCoastedStep s) := by
  unfold execCoastedStep
  exact .next (.ite coast_keeps .refl)

theorem execSelfPhaseStep_keeps {s : State} : Answers [.regs, .phi, .cte, .qba, .ssc, .gwe] s (execSelfPhaseStep s) := by
  unfold execSelfPhaseStep
  exact .next (.ite advance_keeps .refl)

theorem execTick_keeps {s : State} : Answers [.glb, .phi] s (execTick s) := by
  unfold execTick
  exact .next (.ite (.and_phi keeps_glb.mono) .refl)

theorem execCrossingBegin_keeps {mark : Bool} {edge : StepEdge} {s : State} : Answers [.regs, .phi, .cte, .qba, .ssc, .gwe] s (execCrossingBegin mark edge s) := by
  unfold execCrossingBegin
  refine .next ?_
  split
  · exact .refl
  · split
    · exact stepEdge_keeps
    · exact stepEdge_keeps
    · exact advance_keeps
    · exact .ite coast_keeps .refl

theorem selectCopy_keeps {s : State} {i : PhInp} {w : BitVec 56} : Keeps [.regs, .cte, .gwe] s (selectCopy s i w) := by
  unfold selectCopy
  dsimp -proj only
  exact .ite (keeps_cte.after settleCopy_keeps) .refl

theorem badWord_keeps {s : State} {i : PhInp} : Keeps [.regs, .phi, .cte, .gwe] s (badWord s i) := by
  unfold badWord
  dsimp -proj only
  exact .ite (failCheck_keeps.after (State.bumpF_keeps.after State.setPhIn_keeps.mono)) (State.bumpF_keeps.after State.setPhIn_keeps.mono)

theorem goodWord_keeps {s : State} {i : PhInp} {w : BitVec 56} : Keeps [.regs, .phi, .cte, .gwe] s (goodWord s i w) := by
  unfold goodWord
  dsimp -proj only
  exact .ite (becameHealthy_keeps.after State.setPhIn_keeps.mono) State.setPhIn_keeps.mono

theorem execPhaseWord_keeps {inp : PhInp} {w : BitVec 56} {s : State} : Answers [.regs, .phi, .cte, .gwe] s (execPhaseWord inp w s) := by
  unfold execPhaseWord
  dsimp -proj only
  exact .next (.ite .refl (.ite (selectCopy_keeps.after (goodWord_keeps.after State.setPhIn_keeps.mono)) (badWord_keeps.after State.setPhIn_keeps.mono)))

theorem execStepPresenceFail_keeps {inp : PhInp} {s : State} : Answers [.regs, .phi, .cte, .gwe] s (execStepPresenceFail inp s) := by
  unfold execStepPresenceFail
  dsimp -proj only
  exact .next (.ite .refl (failCheck_keeps.after State.setPhIn_keeps.mono))

theorem reportJump_keeps {s : State} {had : Bool} {held : Nat} : Keeps [.regs, .gwe] s (reportJump s had held) := by
  unfold reportJump
  dsimp -proj only
  exact .ite (.ite State.setReg_keeps.mono (phEvent_keeps.after State.setReg_keeps.mono)) .refl

theorem adoptPhase_keeps {s : State} {i : PhInp} : Keeps [.regs, .phi, .cte, .qba, .ssc, .gwe] s (adoptPhase s i) := by
  unfold adoptPhase
  dsimp -proj only
  exact stepBanks_keeps.after (beginCrossing_keeps.after (reportJump_keeps.after (phEvent_keeps.after (setPhase_keeps.after (takePeriod_keeps.after (keeps_phi.after drainPorts_keeps.mono))))))

theorem execPhaseAdopt_keeps {s : State} : Answers [.regs, .phi, .cte, .qba, .ssc, .gwe] s (execPhaseAdopt s) := by
  unfold execPhaseAdopt
  refine .next ?_
  split
  · exact .ite adoptPhase_keeps .refl
  · exact .refl

theorem execHoldoverExpiry_keeps {s : State} : Answers [.regs, .phi, .cte, .gwe] s (execHoldoverExpiry s) := by
  unfold execHoldoverExpiry
  exact .next (.ite toLost_keeps .refl)

theorem execPhaseRevert_keeps {s : State} : Answers [.regs, .phi, .cte, .gwe] s (execPhaseRevert s) := by
  unfold execPhaseRevert
  dsimp -proj only
  exact .next (.ite switchTo_keeps .refl)

theorem execPhaseRealign_keeps {d : Fin 8} {s : State} : Answers [.regs, .phi] s (execPhaseRealign d s) := by
  unfold execPhaseRealign
  exact .onDie (.ite (State.setRf_keeps.after keeps_phi.mono) .refl)

theorem rdNowXing_keeps {s : State} : Keeps [.regs] s (rdNowXing s).2 := by
  unfold rdNowXing
  dsimp -proj only
  exact .snd (State.setReg_keeps.after (State.setReg_keeps.after (State.setReg_keeps.after State.setReg_keeps)))

theorem execPhiNowXingRead_keeps {s : State} : Answers [.regs, .gwe] s (execPhiNowXingRead s) := by
  unfold execPhiNowXingRead
  exact .next (rdResult_keeps rdNowXing_keeps.mono)

theorem State.modLnk_keeps {s : State} {p : Nat} {f : LinkSt → LinkSt} : Keeps [.lpx] s (s.modLnk p f) := by
  unfold State.modLnk
  exact keeps_lpx

theorem reportLink_keeps {s : State} {p : Nat} {up : Bool} : Keeps [.regs, .cte, .lpx, .bpm, .qba, .ssc, .gwe] s (reportLink s p up) := by
  unfold reportLink
  dsimp -proj only
  exact .ite (keeps_cte.after (State.raiseEv_keeps.after (.ite (State.bumpGen_keeps.after State.modLnk_keeps.mono) (State.bump_keeps.after (State.bumpGen_keeps.after State.modLnk_keeps.mono))))) (abortPort_keeps.after (keeps_cte.after (State.raiseEv_keeps.after (.ite (State.bumpGen_keeps.after State.modLnk_keeps.mono) (State.bump_keeps.after (State.bumpGen_keeps.after State.modLnk_keeps.mono))))))

theorem holdsAfter_keeps {s : State} {p : Nat} : Keeps [.lpx] s (holdsAfter s p) := by
  unfold holdsAfter
  dsimp -proj only
  exact State.modLnk_keeps

theorem execLinkTrainingDone_keeps {p : Fin 32} {s : State} : Answers [.lpx] s (execLinkTrainingDone p s) := by
  unfold execLinkTrainingDone
  exact .onDie (.ite (holdsAfter_keeps.after State.modLnk_keeps) .refl)

theorem countFec_keeps {s : State} {p corrected uncorrectable : Nat} : Keeps [.regs] s (countFec s p corrected uncorrectable) := by
  unfold countFec
  exact .ite (State.bumpN_keeps.after State.bumpN_keeps) .refl

theorem execLinkConditionsMet_keeps {p : Fin 32} {cond : LinkCond} {s : State} : Answers [.regs, .lpx] s (execLinkConditionsMet p cond s) := by
  unfold execLinkConditionsMet
  exact .onDie (.ite (holdsAfter_keeps.after (State.modLnk_keeps.after countFec_keeps.mono)) .refl)

theorem execLinkFailureDetect_keeps {p : Fin 32} {cond : LinkCond} {s : State} : Answers [.regs, .lpx] s (execLinkFailureDetect p cond s) := by
  unfold execLinkFailureDetect
  exact .onDie (.ite (holdsAfter_keeps.after (State.modLnk_keeps.after countFec_keeps.mono)) .refl)

theorem execLinkDownReport_keeps {p : Fin 32} {s : State} : Answers [.regs, .cte, .lpx, .bpm, .qba, .ssc, .gwe] s (execLinkDownReport p s) := by
  unfold execLinkDownReport
  exact .onDie (.ite reportLink_keeps .refl)

theorem execLinkUpReport_keeps {p : Fin 32} {s : State} : Answers [.regs, .cte, .lpx, .bpm, .qba, .ssc, .gwe] s (execLinkUpReport p s) := by
  unfold execLinkUpReport
  exact .onDie (.ite reportLink_keeps .refl)

theorem restartLink_keeps {s : State} {p : Nat} : Keeps [.regs, .cte, .lpx, .bpm, .qba, .ssc] s (restartLink s p) := by
  unfold restartLink
  exact abortPort_keeps.after (holdsAfter_keeps.after State.modLnk_keeps.mono)

theorem wrPortCfg_keeps {s : State} {d l : Nat} {w : Word} : Keeps [.regs, .cte, .lpx, .bpm, .qba, .ssc] s (wrPortCfg s d l w).2 := by
  unfold wrPortCfg
  dsimp -proj only
  split
  · exact .refl
  · split
    · exact .refl
    · split
      · exact .refl
      · split
        · exact .refl
        · exact .snd (.ite (restartLink_keeps.after (.ite (State.setRf_keeps.after State.setReg_keeps.mono) State.setReg_keeps.mono)) (.ite (State.setRf_keeps.after State.setReg_keeps.mono) State.setReg_keeps.mono))

theorem execPortConfigWrite_keeps {d : Fin 8} {l : Fin 4} {w : Word} {s : State} : Answers [.regs, .cte, .lpx, .bpm, .qba, .ssc, .gwe] s (execPortConfigWrite d l w s) := by
  unfold execPortConfigWrite
  exact hostDieWr_answers wrPortCfg_keeps.mono

theorem nextArrival_keeps {s : State} {d : Nat} : Keeps [.prs] s (nextArrival s d).2 := by
  unfold nextArrival
  dsimp -proj only
  exact .snd keeps_prs

theorem joinParse_keeps {s : State} {d region : Nat} {f : Frame} : Keeps [.prs] s (joinParse s d region f) := by
  unfold joinParse
  exact keeps_prs

theorem noteRx_keeps {s : State} {d : Nat} : Keeps [.icu] s (noteRx s d) := by
  unfold noteRx
  exact .ite .refl keeps_icu

theorem receiveFrame_keeps {s : State} {p : Nat} {l : List Byte} : Keeps [.regs, .prs, .bpm, .gwe] s (receiveFrame s p l) := by
  unfold receiveFrame
  dsimp -proj only
  split
  · exact State.bump_keeps.mono
  · split
    · exact nextArrival_keeps.mono
    · split
      · rename_i t he
        exact (allocBuf_keeps.of_eq he).after nextArrival_keeps.mono
      · rename_i t he
        split
        · exact joinParse_keeps.after (State.putQuay_keeps.after ((allocBuf_keeps.of_eq he).after nextArrival_keeps.mono))
        · split
          · rename_i t1 he1
            exact joinParse_keeps.after ((makeMirror_keeps.of_eq he1).after (State.putQuay_keeps.after ((allocBuf_keeps.of_eq he).after nextArrival_keeps.mono)))
          · rename_i t1 he1
            exact State.bump_keeps.after (freeBuf_keeps.after ((makeMirror_keeps.of_eq he1).after (State.putQuay_keeps.after ((allocBuf_keeps.of_eq he).after nextArrival_keeps.mono))))

theorem rxError_keeps {s : State} {p : Nat} {r : Reg} : Keeps [.regs] s (rxError s p r) := by
  unfold rxError
  exact State.bump_keeps.after State.bump_keeps

theorem countRx_keeps {s : State} {p n : Nat} : Keeps [.regs, .lpx] s (countRx s p n) := by
  unfold countRx
  dsimp -proj only
  exact State.modLnk_keeps.after (State.bumpN_keeps.after State.bump_keeps.mono)

theorem noteTail_keeps {s : State} {p : Nat} : Keeps [.lpx] s (noteTail s p) := by
  unfold noteTail
  exact .ite keeps_lpx .refl

theorem checkFrame_keeps {s : State} {p : Nat} {f : RxFrame} : Keeps [.regs, .glb, .lpx, .prs, .bpm, .gwe, .icu] s (checkFrame s p f) := by
  unfold checkFrame
  dsimp -proj only
  exact .ite rxError_keeps.mono (.ite rxError_keeps.mono (.ite rxError_keeps.mono (.ite rxError_keeps.mono (.ite (State.bump_keeps.after countRx_keeps.mono) (.ite (State.bump_keeps.after countRx_keeps.mono) (.ite (keeps_glb.after (State.bump_keeps.after countRx_keeps.mono)) (.ite (State.bump_keeps.after countRx_keeps.mono) (receiveFrame_keeps.after (noteRx_keeps.after countRx_keeps.mono)))))))))

theorem execFrameReceive_keeps {p : Fin 32} {f : RxFrame} {s : State} : Answers [.regs, .glb, .lpx, .prs, .bpm, .gwe, .icu] s (execFrameReceive p f s) := by
  unfold execFrameReceive
  refine .onDie ?_
  dsimp -proj only
  exact .ite (.ite (noteTail_keeps.after (checkFrame_keeps.after (State.modLnk_keeps.after countFec_keeps.mono))) (State.modLnk_keeps.after countFec_keeps.mono)) .refl

theorem loseFrame_keeps {s : State} {f : Frame} : Keeps [.bpm] s (loseFrame s f) := by
  unfold loseFrame
  exact freeBoth_keeps

theorem startParse_keeps {s : State} {d e : Nat} : Keeps [.regs, .prs, .bpm] s (startParse s d e) := by
  unfold startParse
  dsimp -proj only
  split
  · exact .refl
  · split
    · exact .refl
    · exact .ite (State.bump_keeps.after (loseFrame_keeps.after keeps_prs.mono)) (.ite keeps_prs.mono (State.bump_keeps.after keeps_prs.mono))

theorem execParseFrame_keeps {d : Fin 8} {e : Fin 16} {s : State} : Answers [.regs, .prs, .bpm] s (execParseFrame d e s) := by
  unfold execParseFrame
  exact .onDie startParse_keeps

theorem countParse_keeps {s : State} {d p : Nat} {v : List Byte} : Keeps [.regs] s (countParse s d p v) := by
  unfold countParse
  dsimp -proj only
  exact .ite (State.bumpF_keeps.after (.ite (State.bumpF_keeps.after (.ite (State.bumpF_keeps.after (.ite (State.bumpF_keeps.after (State.setRf_keeps.after (.ite (State.bump_keeps.after (State.bumpN_keeps.after State.bump_keeps)) (State.bumpN_keeps.after State.bump_keeps)))) (State.setRf_keeps.after (.ite (State.bump_keeps.after (State.bumpN_keeps.after State.bump_keeps)) (State.bumpN_keeps.after State.bump_keeps))))) (.ite (State.bumpF_keeps.after (State.setRf_keeps.after (.ite (State.bump_keeps.after (State.bumpN_keeps.after State.bump_keeps)) (State.bumpN_keeps.after State.bump_keeps)))) (State.setRf_keeps.after (.ite (State.bump_keeps.after (State.bumpN_keeps.after State.bump_keeps)) (State.bumpN_keeps.after State.bump_keeps)))))) (.ite (State.bumpF_keeps.after (.ite (State.bumpF_keeps.after (State.setRf_keeps.after (.ite (State.bump_keeps.after (State.bumpN_keeps.after State.bump_keeps)) (State.bumpN_keeps.after State.bump_keeps)))) (State.setRf_keeps.after (.ite (State.bump_keeps.after (State.bumpN_keeps.after State.bump_keeps)) (State.bumpN_keeps.after State.bump_keeps))))) (.ite (State.bumpF_keeps.after (State.setRf_keeps.after (.ite (State.bump_keeps.after (State.bumpN_keeps.after State.bump_keeps)) (State.bumpN_keeps.after State.bump_keeps)))) (State.setRf_keeps.after (.ite (State.bump_keeps.after (State.bumpN_keeps.after State.bump_keeps)) (State.bumpN_keeps.after State.bump_keeps))))))) (.ite (State.bumpF_keeps.after (.ite (State.bumpF_keeps.after (.ite (State.bumpF_keeps.after (State.setRf_keeps.after (.ite (State.bump_keeps.after (State.bumpN_keeps.after State.bump_keeps)) (State.bumpN_keeps.after State.bump_keeps)))) (State.setRf_keeps.after (.ite (State.bump_keeps.after (State.bumpN_keeps.after State.bump_keeps)) (State.bumpN_keeps.after State.bump_keeps))))) (.ite (State.bumpF_keeps.after (State.setRf_keeps.after (.ite (State.bump_keeps.after (State.bumpN_keeps.after State.bump_keeps)) (State.bumpN_keeps.after State.bump_keeps)))) (State.setRf_keeps.after (.ite (State.bump_keeps.after (State.bumpN_keeps.after State.bump_keeps)) (State.bumpN_keeps.after State.bump_keeps)))))) (.ite (State.bumpF_keeps.after (.ite (State.bumpF_keeps.after (State.setRf_keeps.after (.ite (State.bump_keeps.after (State.bumpN_keeps.after State.bump_keeps)) (State.bumpN_keeps.after State.bump_keeps)))) (State.setRf_keeps.after (.ite (State.bump_keeps.after (State.bumpN_keeps.after State.bump_keeps)) (State.bumpN_keeps.after State.bump_keeps))))) (.ite (State.bumpF_keeps.after (State.setRf_keeps.after (.ite (State.bump_keeps.after (State.bumpN_keeps.after State.bump_keeps)) (State.bumpN_keeps.after State.bump_keeps)))) (State.setRf_keeps.after (.ite (State.bump_keeps.after (State.bumpN_keeps.after State.bump_keeps)) (State.bumpN_keeps.after State.bump_keeps))))))

theorem State.setL2_keeps {s : State} {d slot : Nat} {e : L2Ent} : Keeps [.fwt] s (s.setL2 d slot e) := by
  unfold State.setL2
  exact keeps_fwt

theorem State.dropL2_keeps {s : State} {d slot : Nat} : Keeps [.fwt, .icu] s (s.dropL2 d slot) := by
  unfold State.dropL2
  exact .and_icu keeps_fwt.mono

theorem State.setFlow_keeps {s : State} {d slot : Nat} {e : FlowEnt} : Keeps [.fwt] s (s.setFlow d slot e) := by
  unfold State.setFlow
  exact keeps_fwt

theorem State.modCtx_keeps {s : State} {d c : Nat} {f : FCtx → FCtx} : Keeps [.fwt] s (s.modCtx d c f) := by
  unfold State.modCtx
  exact keeps_fwt

theorem bumpFwt_keeps {s : State} {d : Nat} : Keeps [.regs] s (bumpFwt s d) := by
  unfold bumpFwt
  exact State.bumpGen_keeps

theorem l2Lookup_keeps {s : State} {d dom mac : Nat} : Keeps [.fwt] s (l2Lookup s d dom mac).2 := by
  unfold l2Lookup
  split
  · split
    · exact .snd State.setL2_keeps
    · exact .refl
  · exact .refl

theorem flowLookup_keeps {s : State} {d prof : Nat} {key : List Byte} : Keeps [.fwt] s (flowLookup s d prof key).2 := by
  unfold flowLookup
  split
  · exact .snd State.setFlow_keeps
  · exact .refl

theorem State.setLpm_keeps {s : State} {d i : Nat} {e : LpmEnt} : Keeps [.fwt] s (s.setLpm d i e) := by
  unfold State.setLpm
  exact keeps_fwt

theorem writeBack_keeps {s : State} {d c : Nat} : Keeps [.ssc] s (writeBack s d c) := by
  unfold writeBack
  dsimp -proj only
  exact .ite pushPort_keeps (pushPort_keeps.after pushPort_keeps)

theorem cacheIn_keeps {s : State} {d c : Nat} : Keeps [.fwt, .ssc] s (cacheIn s d c) := by
  unfold cacheIn
  dsimp -proj only
  split
  · exact writeBack_keeps.after keeps_fwt.mono
  · exact keeps_fwt.mono

theorem fetchCtx_keeps {s : State} {d c : Nat} : Keeps [.ssc] s (fetchCtx s d c) := by
  unfold fetchCtx
  exact pushPort_keeps

theorem touchCtx_keeps {s : State} {d c : Nat} : Keeps [.regs, .fwt, .ssc] s (touchCtx s d c).2 := by
  unfold touchCtx
  dsimp -proj only
  split
  · exact .snd cacheIn_keeps.mono
  · split
    · exact .snd State.bump_keeps.mono
    · exact .snd (fetchCtx_keeps.after (keeps_fwt.after State.bump_keeps.mono))

theorem bindCtx_keeps {s : State} {d c : Nat} : Keeps [.fwt, .ssc] s (bindCtx s d c) := by
  unfold bindCtx
  exact cacheIn_keeps.after State.modCtx_keeps.mono

theorem unbindCtx_keeps {s : State} {d c : Nat} : Keeps [.fwt] s (unbindCtx s d c) := by
  unfold unbindCtx
  exact State.modCtx_keeps

theorem dropFlow_keeps {s : State} {d slot : Nat} : Keeps [.fwt, .icu] s (dropFlow s d slot) := by
  unfold dropFlow
  dsimp -proj only
  split
  · exact unbindCtx_keeps.after (.and_icu keeps_fwt.mono)
  · exact .refl

theorem flowInsert_keeps {s : State} {d prof : Nat} {key : List Byte} : Keeps [.regs, .fwt, .ssc, .free] s (flowInsert s d prof key).2 := by
  unfold flowInsert
  dsimp -proj only
  split
  · exact .snd (bumpFwt_keeps.after (bindCtx_keeps.after (State.setFlow_keeps.after State.takeFree_keeps.mono)))
  · exact .snd State.bump_keeps.mono

theorem State.setLearnQ_keeps {s : State} {d : Nat} {l : List LearnReq} : Keeps [.fwt] s (s.setLearnQ d l) := by
  unfold State.setLearnQ
  exact keeps_fwt

theorem learnRequest_keeps {s : State} {d dom mac p : Nat} : Keeps [.regs, .fwt] s (learnRequest s d dom mac p).2 := by
  unfold learnRequest
  dsimp -proj only
  split
  · split
    · exact .snd (.ite .refl State.setL2_keeps.mono)
    · split
      · exact .snd (State.bump_keeps.after (.ite .refl State.setL2_keeps.mono))
      · exact .snd (State.setLearnQ_keeps.after (.ite .refl State.setL2_keeps.mono))
  · split
    · exact .snd State.bump_keeps.mono
    · split
      · exact .snd State.bump_keeps.mono
      · exact .snd (bumpFwt_keeps.after (State.setLearnQ_keeps.after State.setL2_keeps.mono))

theorem sendNotice_keeps {s : State} {d dom mac p : Nat} : Keeps [.fwt] s (sendNotice s d dom mac p) := by
  unfold sendNotice
  dsimp -proj only
  exact .ite keeps_fwt .refl

theorem applyInsert_keeps {s : State} {d slot dom mac p : Nat} : Keeps [.regs, .fwt] s (applyInsert s d slot dom mac p) := by
  unfold applyInsert
  dsimp -proj only
  split
  · exact .ite (sendNotice_keeps.after (bumpFwt_keeps.after (State.bump_keeps.after State.setL2_keeps.mono))) .refl
  · exact .refl

theorem applyMove_keeps {s : State} {d dom mac p : Nat} : Keeps [.regs, .fwt, .gwe] s (applyMove s d dom mac p) := by
  unfold applyMove
  dsimp -proj only
  split
  · exact .refl
  · exact .ite .refl (.ite State.bump_keeps.mono (.ite State.bump_keeps.mono (.ite (State.raiseEv_keeps.after (State.bump_keeps.after (bumpFwt_keeps.after State.setL2_keeps.mono))) (sendNotice_keeps.after (bumpFwt_keeps.after (State.bump_keeps.after State.setL2_keeps.mono))))))

theorem applyNotice_keeps {s : State} {d : Nat} {n : Notice} : Keeps [.regs, .fwt] s (applyNotice s d n) := by
  unfold applyNotice
  split
  · exact .ite (bumpFwt_keeps.after State.setL2_keeps.mono) State.bump_keeps.mono
  · split
    · exact bumpFwt_keeps.after State.setL2_keeps.mono
    · exact State.bump_keeps.mono

theorem popLearn_keeps {s : State} {d : Nat} : Keeps [.fwt] s (popLearn s d).2 := by
  unfold popLearn
  split
  · exact .refl
  · split
    · exact .refl
    · exact .snd State.setLearnQ_keeps

theorem execLearnApply_keeps {d : Fin 8} {s : State} : Answers [.regs, .fwt] s (execLearnApply d s) := by
  unfold execLearnApply
  refine .onDie ?_
  split
  · rename_i t he
    exact applyInsert_keeps.after ((popLearn_keeps.of_eq he).mono)
  · exact .refl

theorem execMoveApply_keeps {d : Fin 8} {s : State} : Answers [.regs, .fwt, .gwe] s (execMoveApply d s) := by
  unfold execMoveApply
  refine .onDie ?_
  split
  · rename_i t he
    exact applyMove_keeps.after ((popLearn_keeps.of_eq he).mono)
  · exact .refl

theorem execLearnNoticeApply_keeps {d : Fin 8} {s : State} : Answers [.regs, .fwt] s (execLearnNoticeApply d s) := by
  unfold execLearnNoticeApply
  refine .onDie ?_
  split
  · rename_i t he
    exact applyNotice_keeps.after ((popLearn_keeps.of_eq he).mono)
  · exact .refl

theorem execLearnNotice_keeps {d : Fin 8} {n : Notice} {s : State} : Answers [.regs, .fwt] s (execLearnNotice d n s) := by
  unfold execLearnNotice
  refine .onDie ?_
  dsimp -proj only
  exact .ite (.ite (State.setLearnQ_keeps.after keeps_fwt.mono) (State.bump_keeps.after keeps_fwt.mono)) .refl

theorem ageVisit_keeps {s : State} {d : Nat} {t : Tbl} {i : Nat} {hit : Bool} : Keeps [.regs, .fwt, .icu] s (ageVisit s d t i hit) := by
  unfold ageVisit
  dsimp -proj only
  split
  · split
    · exact .ite .refl (.ite (State.setL2_keeps.after keeps_fwt.mono) (bumpFwt_keeps.after (State.bump_keeps.after (State.dropL2_keeps.after keeps_fwt.mono))))
    · exact .refl
  · split
    · exact .ite .refl (.ite (State.setFlow_keeps.after keeps_fwt.mono) (bumpFwt_keeps.after (State.bump_keeps.after (dropFlow_keeps.after keeps_fwt.mono))))
    · exact .refl
  · exact .refl

theorem execAgerVisit_keeps {d : Fin 8} {t : Tbl} {i : Tied Nat} {s : State} : Answers [.regs, .fwt, .icu] s (execAgerVisit d t i s) := by
  unfold execAgerVisit
  exact .onDie (.ite ageVisit_keeps .refl)

theorem execPinRelease_keeps {d : Fin 8} {i : Fin 32768} {s : State} : Answers [.regs, .fwt] s (execPinRelease d i s) := by
  unfold execPinRelease
  refine .onDie ?_
  split
  · exact .ite (bumpFwt_keeps.after State.setL2_keeps.mono) .refl
  · exact .refl

theorem dropLearned_keeps {s : State} {d : Nat} : Keeps [.fwt, .icu] s (dropLearned s d) := by
  unfold dropLearned
  dsimp -proj only
  exact .foldl (fun _ _ => dropFlow_keeps) keeps_fwt.mono

theorem wrHashSeed_keeps {s : State} {d : Nat} {w : Word} : Keeps [.regs, .fwt, .icu] s (wrHashSeed s d w).2 := by
  unfold wrHashSeed
  dsimp -proj only
  split
  · exact .refl
  · split
    · exact .snd (dropLearned_keeps.after State.setReg_keeps.mono)
    · exact .refl

theorem execHashSeedWrite_keeps {d : Fin 8} {w : Word} {s : State} : Answers [.regs, .fwt, .gwe, .icu] s (execHashSeedWrite d w s) := by
  unfold execHashSeedWrite
  exact hostDieWr_answers wrHashSeed_keeps.mono

theorem oneDie_keeps {l : List Piece} {s : State} {a : TblArgs} {f : TblAns} (h : Keeps l s f.2.2) : Keeps l s (oneDie s a f).2.2 := by
  unfold oneDie
  split
  · exact .refl
  split
  · exact .refl
  · exact h

theorem tblSearch_keeps {s : State} {a : TblArgs} : Keeps [] s (tblSearch s a).2.2 := by
  unfold tblSearch
  split
  · exact .refl
  · refine oneDie_keeps ?_
    split
    · exact .refl
    · exact .refl

theorem tblNext_keeps {s : State} {a : TblArgs} : Keeps [] s (tblNext s a).2.2 := by
  unfold tblNext
  dsimp -proj only
  split
  · exact .refl
  · refine oneDie_keeps ?_
    split
    · exact .refl
    · exact .refl

theorem tblRemove_keeps {s : State} {table d i : Nat} : Keeps [.fwt, .icu] s (tblRemove s table d i) := by
  unfold tblRemove
  exact .ite State.dropL2_keeps (.ite dropFlow_keeps State.setLpm_keeps.mono)

theorem tblDelete_keeps {s : State} {a : TblArgs} : Keeps [.fwt, .icu] s (tblDelete s a).2.2 := by
  unfold tblDelete
  dsimp -proj only
  split
  · exact .refl
  · split
    · split
      · exact .refl
      · split
        · exact .refl
        · refine .snd₂ ?_
          refine .overDies (fun d t => ?_) .refl
          split
          · exact tblRemove_keeps
          · exact .refl
    · split
      · exact .refl
      · refine oneDie_keeps ?_
        refine .snd₂ ?_
        refine .overDies (fun d t => ?_) .refl
        split
        · exact tblRemove_keeps
        · exact .refl

theorem tblFlush_keeps {s : State} {a : TblArgs} : Keeps [.fwt] s (tblFlush s a).2.2 := by
  unfold tblFlush
  dsimp -proj only
  split
  · exact .refl
  · exact .snd₂ keeps_fwt

theorem hostOp_keeps {l : List Piece} {s : State} {op : Nat} {f : TblAns} (h : Keeps l s f.2.2) (hg : [.gwe] ⊆ l := by exact within rfl) : Keeps l s (hostOp s op f) :=
  .ite ((keeps_gwe).after h hg) ((keeps_gwe).mono hg)

theorem execTblSearch_keeps {a : TblArgs} {s : State} : Answers [.gwe] s (execTblSearch a s) := by
  unfold execTblSearch
  exact .next (hostOp_keeps tblSearch_keeps.mono)

theorem execTblNext_keeps {a : TblArgs} {s : State} : Answers [.gwe] s (execTblNext a s) := by
  unfold execTblNext
  exact .next (hostOp_keeps tblNext_keeps.mono)

theorem execTblDelete_keeps {a : TblArgs} {s : State} : Answers [.fwt, .gwe, .icu] s (execTblDelete a s) := by
  unfold execTblDelete
  exact .next (hostOp_keeps tblDelete_keeps.mono)

theorem execTblFlushPort_keeps {a : TblArgs} {s : State} : Answers [.fwt, .gwe] s (execTblFlushPort a s) := by
  unfold execTblFlushPort
  exact .next (hostOp_keeps tblFlush_keeps.mono)

theorem lpmScan_keeps {s : State} {d : Nat} : Keeps [.regs, .fwt, .icu] s (lpmScan s d) := by
  unfold lpmScan
  dsimp -proj only
  exact .foldl (fun _ _ => State.bump_keeps.after tblRemove_keeps.mono) .refl

theorem fwtWarm_keeps {s : State} {d : Nat} : Keeps [.regs, .fwt, .icu] s (fwtWarm s d) := by
  unfold fwtWarm
  dsimp -proj only
  exact .ite (lpmScan_keeps.after (keeps_fwt.after (keeps_fwt.after dropLearned_keeps.mono))) (keeps_fwt.after dropLearned_keeps.mono)

theorem State.setRob_keeps {s : State} {d t : Nat} {r : Rob} : Keeps [.rsq] s (s.setRob d t r) := by
  unfold State.setRob
  exact keeps_rsq

theorem noteRob_keeps {s : State} {d n : Nat} : Keeps [.regs] s (noteRob s d n) := by
  unfold noteRob
  dsimp -proj only
  exact .ite State.setRf_keeps (State.bumpGen_keeps.after (State.setRf_keeps.after State.setRf_keeps))

theorem putRob_keeps {s : State} {d t : Nat} {r : Rob} : Keeps [.regs, .rsq] s (putRob s d t r) := by
  unfold putRob
  exact noteRob_keeps.after State.setRob_keeps.mono

theorem dropRob_keeps {s : State} {d t : Nat} : Keeps [.regs, .rsq] s (dropRob s d t) := by
  unfold dropRob
  exact noteRob_keeps.after keeps_rsq.mono

theorem regap_keeps {s : State} {d c : Nat} {advanced : Bool} : Keeps [.rsq] s (regap s d c advanced) := by
  unfold regap
  dsimp -proj only
  exact .ite (.ite keeps_rsq .refl) keeps_rsq

theorem dropFrame_keeps {s : State} {f : Frame} : Keeps [.bpm] s (dropFrame s f) := by
  unfold dropFrame
  exact loseFrame_keeps

theorem unhold_keeps {s : State} {d t : Nat} : Keeps [.cra] s (unhold s d t) := by
  refine keeps_cra (ht := mmap_rise _ (fun e => ?_) _ _) (hg := mmap_all (p := fun x : Thr => mrise 0 x.g) _ (fun e he => ?_) _)
  · split <;> rfl
  · split
    · exact he
    · exact he

theorem endTicket_keeps {s : State} {d t : Nat} {e : Ending} : Keeps [.regs, .bpm, .rsq, .cra] s (endTicket s d t e) := by
  unfold endTicket
  dsimp -proj only
  split
  · exact .refl
  · split
    · exact dropRob_keeps.after (State.bump_keeps.after (.ite (freeMirror_keeps.after unhold_keeps.mono) (dropFrame_keeps.after unhold_keeps.mono)))
    · refine regap_keeps.after ?_
      split
      · exact State.setRob_keeps.after unhold_keeps.mono
      · exact State.setRob_keeps.after (State.bump_keeps.after (.ite (freeMirror_keeps.after unhold_keeps.mono) (dropFrame_keeps.after unhold_keeps.mono)))
      · exact State.setRob_keeps.after unhold_keeps.mono
    · exact .refl

theorem retireNotice_keeps {s : State} {d c : Nat} : Keeps [.regs, .fwt, .ssc] s (retireNotice s d c) := by
  unfold retireNotice
  dsimp -proj only
  exact State.modCtx_keeps.after touchCtx_keeps

theorem pushAdmit_keeps {s : State} {a : Admit} : Keeps [.qba] s (pushAdmit s a) := by
  unfold pushAdmit
  exact keeps_qba

theorem pushHand_keeps {s : State} {a b : Nat} {r : Rob} {flood : Bool} : Keeps [.qba, .rsq] s (pushHand s a b r flood).2 := by
  unfold pushHand
  dsimp -proj only
  exact .snd (.and_rsq (keeps_qba).mono)

theorem sendOne_keeps {s : State} {d : Nat} {r : Rob} {q : Nat} : Keeps [.regs, .bpm, .qba, .rsq] s (sendOne s d r q) := by
  unfold sendOne
  dsimp -proj only
  exact .ite pushAdmit_keeps.mono (.ite (State.bump_keeps.after dropFrame_keeps.mono) (State.bump_keeps.after (pushAdmit_keeps.after pushHand_keeps.mono)))

theorem copyBuffer_keeps {s : State} {o r : Nat} {f : Frame} : Keeps [.regs, .bpm, .gwe] s (copyBuffer s o r f).2 := by
  unfold copyBuffer
  split
  · rename_i t he
    exact .snd (State.putQuay_keeps.after (allocBuf_keeps.of_eq he))
  · rename_i t he
    exact .snd (allocBuf_keeps.of_eq he)

theorem floodStaged_keeps {id : Nat} {f : Frame} {a : Admit} {s : State} {q : Nat} : Keeps [.qba] s (floodStaged id f a s q) := by
  unfold floodStaged
  exact pushAdmit_keeps

theorem floodOne_keeps {id : Nat} {f : Frame} {a : Admit} {s : State} {q : Nat} : Keeps [.regs, .bpm, .qba, .gwe] s (floodOne id f a s q) := by
  unfold floodOne
  split
  · rename_i t he
    exact pushAdmit_keeps.after ((copyBuffer_keeps.of_eq he).mono)
  · rename_i t he
    exact floodStaged_keeps.after ((copyBuffer_keeps.of_eq he).mono)

theorem floodCopies_keeps {s : State} {id : Nat} {f : Frame} {a : Admit} {qs : List Nat} : Keeps [.regs, .bpm, .qba, .gwe] s (floodCopies s id f a qs) := by
  unfold floodCopies
  split
  · exact .foldl (fun _ _ => floodOne_keeps) State.bump_keeps.mono
  · split
    · rename_i t he
      exact .foldl (fun _ _ => pushAdmit_keeps.mono) (State.setShare_keeps.after ((copyBuffer_keeps.of_eq he).mono))
    · rename_i t he
      exact .foldl (fun _ _ => floodStaged_keeps.mono) ((copyBuffer_keeps.of_eq he).mono)

theorem floodDie_keeps {r : Rob} {d : Nat} {qs : List Nat} {s : State} {o : Nat} : Keeps [.regs, .bpm, .qba, .rsq, .gwe] s (floodDie r d qs s o) := by
  unfold floodDie
  dsimp -proj only
  exact .ite .refl (.ite State.bumpN_keeps.mono (.ite (.ite (floodCopies_keeps.after (pushHand_keeps.after State.bumpN_keeps.mono)) (keeps_rsq.after (floodCopies_keeps.after (pushHand_keeps.after State.bumpN_keeps.mono)))) (State.bump_keeps.after (floodCopies_keeps.after (pushHand_keeps.after State.bumpN_keeps.mono)))))

theorem flood_keeps {s : State} {d : Nat} {r : Rob} : Keeps [.regs, .bpm, .qba, .rsq, .gwe] s (flood s d r) := by
  unfold flood
  dsimp -proj only
  exact .ite (State.bump_keeps.after dropFrame_keeps.mono) (.ite (State.bump_keeps.after dropFrame_keeps.mono) (settleSource_keeps.after (.foldl (fun _ _ => floodDie_keeps) .refl)))

theorem toGwe_keeps {s : State} {d : Nat} {r : Rob} : Keeps [.regs, .bpm, .gwe] s (toGwe s d r) := by
  unfold toGwe
  exact .ite (State.bump_keeps.after dropFrame_keeps.mono) (.ite (State.bump_keeps.after dropFrame_keeps.mono) (keeps_gwe).mono)

theorem releaseHead_keeps {s : State} {d c t : Nat} {r : Rob} {risk : Bool} : Keeps [.regs, .fwt, .bpm, .qba, .ssc, .rsq, .gwe] s (releaseHead s d c t r risk) := by
  unfold releaseHead
  dsimp -proj only
  split
  · exact .ite (flood_keeps.after (.ite (State.bump_keeps.after (State.bump_keeps.after (retireNotice_keeps.after dropRob_keeps.mono))) (State.bump_keeps.after (retireNotice_keeps.after dropRob_keeps.mono)))) (sendOne_keeps.after (.ite (State.bump_keeps.after (State.bump_keeps.after (retireNotice_keeps.after dropRob_keeps.mono))) (State.bump_keeps.after (retireNotice_keeps.after dropRob_keeps.mono))))
  · exact toGwe_keeps.after (.ite (State.bump_keeps.after (State.bump_keeps.after (retireNotice_keeps.after dropRob_keeps.mono))) (State.bump_keeps.after (retireNotice_keeps.after dropRob_keeps.mono)))
  · exact retireNotice_keeps.after dropRob_keeps.mono

theorem rsqRelease_keeps {s : State} {d c : Nat} : Keeps [.regs, .fwt, .bpm, .qba, .ssc, .rsq, .gwe] s (rsqRelease s d c) := by
  unfold rsqRelease
  split
  · exact .ite (regap_keeps.after releaseHead_keeps) .refl
  · exact .refl

theorem skipHead_keeps {s : State} {d c : Nat} : Keeps [.regs, .fwt, .ssc, .rsq] s (skipHead s d c) := by
  unfold skipHead
  split
  · exact retireNotice_keeps.after (State.bump_keeps.after State.setRob_keeps.mono)
  · exact .refl

theorem wrRsqCfg_keeps {s : State} {d : Nat} {w : Word} : Keeps [.regs, .rsq] s (wrRsqCfg s d w).2 := by
  unfold wrRsqCfg
  dsimp -proj only
  exact .snd (State.setRf_keeps.after keeps_rsq.mono)

theorem handAck_keeps {s : State} {id : Nat} : Keeps [.bpm, .rsq] s (handAck s id) := by
  unfold handAck
  dsimp -proj only
  split
  · exact .ite (settleSource_keeps.after keeps_rsq.mono) .refl
  · exact .refl

theorem execRsqRelease_keeps {d : Fin 8} {c : Fin 65536} {s : State} : Answers [.regs, .fwt, .bpm, .qba, .ssc, .rsq, .gwe] s (execRsqRelease d c s) := by
  unfold execRsqRelease
  exact .onDie rsqRelease_keeps

theorem execHandoffAck_keeps {id : Nat} {s : State} : Answers [.bpm, .rsq] s (execHandoffAck id s) := by
  unfold execHandoffAck
  exact .next handAck_keeps

/-- A change of one thread's record that leaves its registers listed by rising number. -/
theorem State.modThr_keeps {s : State} {d n : Nat} {f : Thr → Thr} (hf : ∀ x, mrise 0 x.g = true → mrise 0 (f x).g = true := by exact fun _ h => h) :
    Keeps [.cra] s (s.modThr d n f) :=
  keeps_cra (ht := mmod_rise _ _ _ _) (hg := fun h => mset_all (p := fun x : Thr => mrise 0 x.g) _ _ _ _ h (hf _ (mget_all (p := fun x : Thr => mrise 0 x.g) _ _ rfl _ h)))

theorem bumpCra_keeps {s : State} {d : Nat} : Keeps [.regs] s (bumpCra s d) := by
  unfold bumpCra
  exact State.bumpGen_keeps

theorem markWait_keeps {s : State} {d n : Nat} : Keeps [.cra] s (markWait s d n) := by
  unfold markWait
  exact keeps_cra

theorem ringPut_keeps {s : State} {d : Nat} {r : TrIn} : Keeps [.regs, .tdx, .free] s (ringPut s d r) := by
  unfold ringPut
  dsimp -proj only
  exact .ite (stopWriting_keeps.after (State.modTrc_keeps.after (.ite (State.setRf_keeps.after (State.setRf_keeps.after (keeps_tdx.after State.takeFree_keeps.mono))) (State.setRf_keeps.after (keeps_tdx.after State.takeFree_keeps.mono))))) (State.modTrc_keeps.after (.ite (State.setRf_keeps.after (State.setRf_keeps.after (keeps_tdx.after State.takeFree_keeps.mono))) (State.setRf_keeps.after (keeps_tdx.after State.takeFree_keeps.mono))))

theorem countPost_keeps {s : State} {d : Nat} : Keeps [.regs, .tdx] s (countPost s d) := by
  unfold countPost
  split
  · exact .ite stopTrace_keeps State.modTrc_keeps.mono
  · exact .refl

theorem trigger_keeps {s : State} {d i : Nat} : Keeps [.regs, .tdx, .gwe] s (trigger s d i) := by
  unfold trigger
  dsimp -proj only
  exact .ite (.ite (stopTrace_keeps.after (State.raiseEv_keeps.after (State.bumpGen_keeps.after State.setRf_keeps.mono))) (State.modTrc_keeps.after (State.raiseEv_keeps.after (State.bumpGen_keeps.after State.setRf_keeps.mono)))) (State.raiseEv_keeps.after (State.bumpGen_keeps.after State.setRf_keeps.mono))

theorem putRecord_keeps {s : State} {d : Nat} {r : TrIn} : Keeps [.regs, .tdx, .gwe, .free] s (putRecord s d r) := by
  unfold putRecord
  dsimp -proj only
  exact .ite (trigger_keeps.after ringPut_keeps.mono) (.ite (countPost_keeps.after ringPut_keeps.mono) ringPut_keeps.mono)

theorem lostRecord_keeps {s : State} {d : Nat} : Keeps [.regs, .tdx, .gwe, .free] s (lostRecord s d) := by
  unfold lostRecord
  dsimp -proj only
  exact .ite .refl (.ite (putRecord_keeps.after State.modTrc_keeps.mono) State.modTrc_keeps.mono)

theorem trace_keeps {s : State} {d : Nat} {r : TrIn} : Keeps [.regs, .tdx, .gwe, .free] s (trace s d r) := by
  unfold trace
  dsimp -proj only
  exact .ite .refl (.ite (State.modTrc_keeps.after State.bump_keeps.mono) (.ite lostRecord_keeps (.ite (State.modTrc_keeps.after (State.bump_keeps.after lostRecord_keeps)) (putRecord_keeps.after lostRecord_keeps))))

theorem State.putPad_keeps {s : State} {d k a : Nat} {l : List Byte} : Keeps [.cra] s (s.putPad d k a l) :=
  keeps_cra (hp := putBytes_wf _ _ _)

theorem State.setLock_keeps {s : State} {d l : Nat} {x : Lock} : Keeps [.syu] s (s.setLock d l x) := by
  unfold State.setLock
  exact keeps_syu

theorem State.setEv_keeps {s : State} {d k e : Nat} {x : Ev} : Keeps [.syu] s (s.setEv d k e x) := by
  unfold State.setEv
  exact keeps_syu

theorem State.setChan_keeps {s : State} {d k c : Nat} {x : Chan} : Keeps [.syu] s (s.setChan d k c x) := by
  unfold State.setChan
  exact keeps_syu

theorem bumpSyu_keeps {s : State} {d : Nat} : Keeps [.regs] s (bumpSyu s d) := by
  unfold bumpSyu
  exact State.bumpGen_keeps

theorem grantTo_keeps {s : State} {d n l : Nat} {marked : Bool} : Keeps [.cra] s (grantTo s d n l marked) := by
  unfold grantTo
  exact State.modThr_keeps

theorem passLock_keeps {s : State} {d l : Nat} : Keeps [.cra, .syu] s (passLock s d l) := by
  unfold passLock
  dsimp -proj only
  split
  · exact State.setLock_keeps.mono
  · exact grantTo_keeps.after State.setLock_keeps.mono

theorem abandonLock_keeps {s : State} {d l : Nat} : Keeps [.regs, .cra, .syu] s (abandonLock s d l) := by
  unfold abandonLock
  exact bumpSyu_keeps.after (State.bump_keeps.after (passLock_keeps.after State.setLock_keeps.mono))

theorem forceLock_keeps {s : State} {d l : Nat} : Keeps [.regs, .cra, .syu] s (forceLock s d l) := by
  unfold forceLock
  exact .ite (bumpSyu_keeps.after (State.bump_keeps.after abandonLock_keeps)) .refl

theorem signalEv_keeps {s : State} {d k e : Nat} : Keeps [.regs, .cra, .syu] s (signalEv s d k e) := by
  unfold signalEv
  dsimp -proj only
  split
  · exact (State.modThr_keeps fun _ => Thr.done_rise _ _).after State.setEv_keeps.mono
  · exact .ite State.setEv_keeps.mono State.bump_keeps.mono

theorem giveMessage_keeps {s : State} {d n c : Nat} {m : List DWord} : Keeps [.cra] s (giveMessage s d n c m) := by
  unfold giveMessage
  dsimp -proj only
  exact .ite State.modThr_keeps ((State.modThr_keeps fun _ => Thr.done_rise _ _).after State.putPad_keeps)

theorem commitMsg_keeps {s : State} {d k c : Nat} {m : List DWord} : Keeps [.cra, .syu] s (commitMsg s d k c m) := by
  unfold commitMsg
  dsimp -proj only
  split
  · exact giveMessage_keeps.after State.setChan_keeps.mono
  · exact State.setChan_keeps.mono

theorem returnMsg_keeps {s : State} {d k c : Nat} {m : List DWord} : Keeps [.cra, .syu] s (returnMsg s d k c m) := by
  unfold returnMsg
  dsimp -proj only
  split
  · exact giveMessage_keeps.after State.setChan_keeps.mono
  · exact State.setChan_keeps.mono

theorem leaveQueues_keeps {s : State} {d n : Nat} : Keeps [.syu] s (leaveQueues s d n) := by
  unfold leaveQueues
  dsimp -proj only
  split
  · exact State.setLock_keeps
  · exact State.setEv_keeps
  · exact State.setChan_keeps
  · exact .refl

theorem State.setWatch_keeps {s : State} {d k : Nat} {w : Watch} : Keeps [.syu] s (s.setWatch d k w) := by
  unfold State.setWatch
  exact keeps_syu

theorem lapseOne_keeps {d : Nat} {s : State} {k : Nat} : Keeps [.regs, .syu] s (lapseOne d s k) := by
  unfold lapseOne
  exact .ite (bumpSyu_keeps.after (State.setRf_keeps.after State.setWatch_keeps.mono)) .refl

theorem lapse_keeps {s : State} {d : Nat} : Keeps [.regs, .syu] s (lapse s d) := by
  unfold lapse
  exact .foldl (fun _ _ => lapseOne_keeps) .refl

theorem onCra_answers {l : List Piece} {s : State} {d : Nat} {t : State} (h : Keeps l s t) (hm : [.regs, .syu] ⊆ l := by exact within rfl) : Answers l s (onCra s d t) :=
  .onDie (lapse_keeps.after h hm)

theorem strandReport_keeps {s : State} {d k : Nat} : Keeps [.regs, .cra, .syu, .gwe] s (strandReport s d k) := by
  unfold strandReport
  dsimp -proj only
  exact State.raiseEv_keeps.after (bumpSyu_keeps.after (State.bump_keeps.after (State.setRf_keeps.after (State.setWatch_keeps.after (signalEv_keeps.after (.ite State.putPad_keeps.mono .refl))))))

theorem execStrandedReport_keeps {d : Fin 8} {k : Fin 6} {s : State} : Answers [.regs, .cra, .syu, .gwe] s (execStrandedReport d k s) := by
  unfold execStrandedReport
  exact onCra_answers (.ite strandReport_keeps .refl)

theorem hostForce_keeps {s : State} {d : Nat} {w : Word} {same : Bool} : Keeps [.regs, .cra, .syu] s (hostForce s d w same).2 := by
  unfold hostForce
  split
  · exact .refl
  · exact .snd (.ite .refl forceLock_keeps)

theorem wrLkForce_keeps {s : State} {d : Nat} {w : Word} : Keeps [.regs, .cra, .syu] s (wrLkForce s d w).2 := by
  unfold wrLkForce
  exact hostForce_keeps

theorem wrEvHsig_keeps {s : State} {d : Nat} {w : Word} : Keeps [.regs, .cra, .syu] s (wrEvHsig s d w).2 := by
  unfold wrEvHsig
  split
  · exact .refl
  · exact .snd signalEv_keeps

theorem wrChHput_keeps {s : State} {d : Nat} {w : Word} : Keeps [.regs, .cra, .syu] s (wrChHput s d w).2 := by
  unfold wrChHput
  dsimp -proj only
  split
  · exact .refl
  · split
    · exact .snd State.bump_keeps.mono
    · exact .snd commitMsg_keeps.mono

theorem wrInspSel_keeps {s : State} {d : Nat} {w : Word} : Keeps [.regs] s (wrInspSel s d w).2 := by
  unfold wrInspSel
  dsimp -proj only
  split
  · exact .refl
  · exact .snd (State.setReg_keeps.after State.setReg_keeps)

theorem clearMarks_keeps {s : State} {d : Nat} : Keeps [.syu] s (clearMarks s d) := by
  unfold clearMarks
  dsimp -proj only
  exact keeps_syu

theorem wrSyuCfg_keeps {s : State} {d : Nat} {w : Word} : Keeps [.syu] s (wrSyuCfg s d w).2 := by
  unfold wrSyuCfg
  split
  · exact .refl
  · split
    · exact .snd clearMarks_keeps
    · exact .refl

theorem execInspectSelect_keeps {d : Fin 8} {w : Word} {s : State} : Answers [.regs, .gwe] s (execInspectSelect d w s) := by
  unfold execInspectSelect
  exact hostDieWr_answers wrInspSel_keeps.mono

theorem execClearAbandon_keeps {d : Fin 8} {w : Word} {s : State} : Answers [.syu, .gwe] s (execClearAbandon d w s) := by
  unfold execClearAbandon
  exact hostDieWr_answers wrSyuCfg_keeps.mono

theorem syuReset_keeps {s : State} {d : Nat} : Keeps [.cra, .syu] s (syuReset s d) := by
  refine .and_syu (.mono (m := [.cra]) (keeps_cra (ht := fun h => mfilter_rise _ _ _ (mmap_rise _ (fun e => ?_) _ _ h)) (hg := fun h => mfilter_all (p := fun x : Thr => mrise 0 x.g) _ _ (mmap_all (p := fun x : Thr => mrise 0 x.g) _ (fun e he => ?_) _ h))))
  · split
    · rfl
    · rfl
  · split
    · exact (Thr.syuLost_g _).symm ▸ he
    · exact he

theorem State.setFaultQ_keeps {s : State} {d k : Nat} {l : List FaultRec} : Keeps [.cra] s (s.setFaultQ d k l) := by
  unfold State.setFaultQ
  exact keeps_cra

theorem queueRecord_keeps {s : State} {d n : Nat} {b : BitVec 128} : Keeps [.regs, .cra] s (queueRecord s d n b) := by
  unfold queueRecord
  dsimp -proj only
  exact .ite (State.bump_keeps.after State.setFaultQ_keeps.mono) State.setFaultQ_keeps.mono

theorem deliverRecord_keeps {s : State} {d n : Nat} {b : BitVec 128} : Keeps [.regs, .cra, .syu, .gwe] s (deliverRecord s d n b) := by
  unfold deliverRecord
  dsimp -proj only
  exact .ite (signalEv_keeps.after queueRecord_keeps.mono) ((keeps_cra).after (State.raiseEv_keeps.after State.bump_keeps.mono))

theorem faultThread_keeps {s : State} {d n code detail : Nat} : Keeps [.regs, .cra, .tdx, .syu, .gwe, .free] s (faultThread s d n code detail) := by
  unfold faultThread
  dsimp -proj only
  exact deliverRecord_keeps.after (trace_keeps.after (bumpCra_keeps.after (State.bump_keeps.after (State.modThr_keeps).mono)))

theorem replyThread_keeps {s : State} {d n : Nat} {p : Pend} {err : Nat} : Keeps [.regs, .cra, .tdx, .syu, .gwe, .free] s (replyThread s d n p err) := by
  unfold replyThread
  exact .ite ((State.modThr_keeps fun _ => Thr.done_rise _ _).mono) (.ite ((State.modThr_keeps fun _ => Thr.done_rise _ _).mono) (.ite (State.modThr_keeps).mono faultThread_keeps))

theorem lkpNow_keeps {s : State} {d : Nat} {q : LkpReq} : Keeps [.regs, .fwt, .ssc] s (lkpNow s d q).2 := by
  unfold lkpNow
  dsimp -proj only
  split
  · exact .snd l2Lookup_keeps.mono
  · split
    · rename_i t he
      exact .snd ((flowLookup_keeps.of_eq he).mono)
    · rename_i t he
      exact .snd ((flowLookup_keeps.of_eq he).mono)
  · exact .refl
  · exact .refl
  · exact .snd touchCtx_keeps
  · exact .snd (State.modCtx_keeps.after touchCtx_keeps)

theorem lrnNow_keeps {s : State} {d : Nat} {q : LkpReq} : Keeps [.regs, .fwt] s (lrnNow s d q).2 := by
  unfold lrnNow
  dsimp -proj only
  split
  · exact .refl
  · split
    · rename_i t he
      exact .snd (learnRequest_keeps.of_eq he)
    · rename_i t he
      exact .snd (learnRequest_keeps.of_eq he)
    · rename_i t he
      exact .snd (learnRequest_keeps.of_eq he)

theorem tableNow_keeps {s : State} {d : Nat} {q : LkpReq} : Keeps [.regs, .fwt, .ssc] s (tableNow s d q).2 := by
  unfold tableNow
  split
  · exact lrnNow_keeps.mono
  · exact lkpNow_keeps

theorem undoPend_keeps {s : State} {d n : Nat} {p : Pend} : Keeps [.regs, .fwt, .bpm, .ssc, .cra, .syu] s (undoPend s d n p) := by
  unfold undoPend
  dsimp -proj only
  split
  · exact .ite freeBuf_keeps.mono .refl
  · exact .ite abandonLock_keeps.mono .refl
  · exact returnMsg_keeps.mono
  · exact .ite (keeps_cra).mono tableNow_keeps.mono
  · exact .refl

theorem helperTimeout_keeps {s : State} {d n : Nat} : Keeps [.regs, .fwt, .bpm, .ssc, .cra, .tdx, .syu, .gwe, .free] s (helperTimeout s d n) := by
  unfold helperTimeout
  dsimp -proj only
  split
  · exact .ite (replyThread_keeps.after (undoPend_keeps.after State.bump_keeps.mono)) .refl
  · exact .refl

theorem startThread_keeps {s : State} {d n : Nat} : Keeps [.cra] s (startThread s d n) := by
  unfold startThread
  exact State.modThr_keeps

theorem startIdle_keeps {s : State} {d : Nat} : Keeps [.cra] s (startIdle s d) := by
  unfold startIdle
  exact .foldl (fun _ _ => .ite startThread_keeps .refl) .refl

theorem bfreeQuiet_keeps {s : State} {d h : Nat} : Keeps [.regs, .bpm] s (bfreeQuiet s d h) := by
  unfold bfreeQuiet
  split
  · rename_i t he
    exact (bfree_keeps.of_eq he)
  · exact .refl

theorem retireTicket_keeps {s : State} {d t : Nat} : Keeps [.regs, .bpm, .rsq, .cra] s (retireTicket s d t) := by
  unfold retireTicket
  split
  · exact .ite (endTicket_keeps.after bfreeQuiet_keeps.mono) .refl
  · exact .refl

theorem releaseClosed_keeps {s : State} {d n : Nat} : Keeps [.bpm] s (releaseClosed s d n) := by
  unfold releaseClosed
  refine .foldl (fun t x => ?_) .refl
  dsimp -proj only
  split
  · split
    · exact freeBuf_keeps.after State.dropShare_keeps
    · exact .refl
  · exact keeps_bpm

theorem releaseHeld_keeps {s : State} {d n : Nat} : Keeps [.regs, .fwt, .bpm, .ssc, .rsq, .cra, .syu] s (releaseHeld s d n) := by
  unfold releaseHeld
  dsimp -proj only
  split
  · refine undoPend_keeps.after ?_
    split
    · refine leaveQueues_keeps.after (.foldl (fun _ _ => abandonLock_keeps.mono) (releaseClosed_keeps.after ?_))
      split
      · exact .ite (State.bump_keeps.after retireTicket_keeps.mono) retireTicket_keeps.mono
      · exact .refl
    · refine State.bump_keeps.after (leaveQueues_keeps.after (.foldl (fun _ _ => abandonLock_keeps.mono) (releaseClosed_keeps.after ?_)))
      split
      · exact .ite (State.bump_keeps.after retireTicket_keeps.mono) retireTicket_keeps.mono
      · exact .refl
  · split
    · refine leaveQueues_keeps.after (.foldl (fun _ _ => abandonLock_keeps.mono) (releaseClosed_keeps.after ?_))
      split
      · exact .ite (State.bump_keeps.after retireTicket_keeps.mono) retireTicket_keeps.mono
      · exact .refl
    · refine State.bump_keeps.after (leaveQueues_keeps.after (.foldl (fun _ _ => abandonLock_keeps.mono) (releaseClosed_keeps.after ?_)))
      split
      · exact .ite (State.bump_keeps.after retireTicket_keeps.mono) retireTicket_keeps.mono
      · exact .refl

theorem stopThread_keeps {s : State} {d n : Nat} : Keeps [.regs, .cra] s (stopThread s d n) := by
  unfold stopThread
  dsimp -proj only
  exact .ite .refl (bumpCra_keeps.after (State.modThr_keeps).mono)

theorem haltThread_keeps {s : State} {d n : Nat} : Keeps [.regs, .cra] s (haltThread s d n) := by
  unfold haltThread
  dsimp -proj only
  split
  · exact .refl
  · exact .refl
  · exact .refl
  · exact .refl
  · exact bumpCra_keeps.after (State.modThr_keeps).mono

theorem takeUp_keeps {s : State} {d n step : Nat} : Keeps [.regs, .cra, .tdx, .syu, .gwe, .free] s (takeUp s d n step) := by
  unfold takeUp
  dsimp -proj only
  split
  · exact .ite (faultThread_keeps.after ((State.modThr_keeps).after (.ite (markWait_keeps.after (State.modThr_keeps).mono) (State.modThr_keeps).mono))) ((State.modThr_keeps).after (.ite (markWait_keeps.after (State.modThr_keeps).mono) (State.modThr_keeps).mono))
  · exact .ite ((State.modThr_keeps).after ((State.modThr_keeps).after (.ite (markWait_keeps.after (State.modThr_keeps).mono) (State.modThr_keeps).mono))) ((State.modThr_keeps).after (.ite (markWait_keeps.after (State.modThr_keeps).mono) (State.modThr_keeps).mono))

theorem resumeThread_keeps {s : State} {d n : Nat} : Keeps [.regs, .cra, .tdx, .syu, .gwe, .free] s (resumeThread s d n) := by
  unfold resumeThread
  exact .ite (bumpCra_keeps.after takeUp_keeps) .refl

theorem stepThread_keeps {s : State} {d n : Nat} : Keeps [.regs, .cra, .tdx, .syu, .gwe, .free] s (stepThread s d n) := by
  unfold stepThread
  exact .ite takeUp_keeps .refl

theorem stopUnless_keeps {s : State} {d n : Nat} {same : Bool} : Keeps [.regs, .cra] s (stopUnless s d n same) := by
  unfold stopUnless
  exact .ite .refl stopThread_keeps

theorem execHelperTimeout_keeps {d : Fin 8} {n : Fin 384} {s : State} : Answers [.regs, .fwt, .bpm, .ssc, .cra, .tdx, .syu, .gwe, .free] s (execHelperTimeout d n s) := by
  unfold execHelperTimeout
  exact onCra_answers helperTimeout_keeps

theorem runaway_keeps {s : State} {d n : Nat} : Keeps [.regs, .cra, .tdx, .syu, .gwe, .free] s (runaway s d n) := by
  unfold runaway
  dsimp -proj only
  exact .ite .refl (.ite faultThread_keeps (.ite (faultThread_keeps.after State.takeFree_keeps.mono) .refl))

theorem execRunaway_keeps {d : Fin 8} {n : Fin 384} {s : State} : Answers [.regs, .cra, .tdx, .syu, .gwe, .free] s (execRunaway d n s) := by
  unfold execRunaway
  exact onCra_answers runaway_keeps

theorem execBreakpointHit_keeps {d : Fin 8} {n : Fin 384} {s : State} : Answers [.regs, .cra, .syu] s (execBreakpointHit d n s) := by
  unfold execBreakpointHit
  exact onCra_answers (.ite (State.bump_keeps.after haltThread_keeps.mono) .refl)

theorem wrPsCheck_keeps {s : State} {d : Nat} {w : Word} : Keeps [.regs] s (wrPsCheck s d w).2 := by
  unfold wrPsCheck
  split
  · exact .snd State.setRf_keeps
  · exact .refl

theorem execPsCheckStart_keeps {d : Fin 8} {s : State} : Answers [.regs, .gwe] s (execPsCheckStart d s) := by
  unfold execPsCheckStart
  exact hostDieWr_answers wrPsCheck_keeps.mono

theorem execPsCheckDone_keeps {d : Fin 8} {s : State} : Answers [.regs] s (execPsCheckDone d s) := by
  unfold execPsCheckDone
  refine .onDie ?_
  dsimp -proj only
  exact .ite (State.setReg_keeps.after (State.setRf_keeps.after State.setRf_keeps)) .refl

theorem psRepair_keeps {s : State} {d k a : Nat} : Keeps [.regs, .cra, .tdx, .syu, .gwe, .free] s (psRepair s d k a) := by
  unfold psRepair
  dsimp -proj only
  split
  · split
    · exact State.bump_keeps.after ((keeps_cra).after (.foldl (fun _ _ => (State.modThr_keeps).mono) .refl))
    · exact .foldl (fun _ _ => faultThread_keeps) .refl
  · exact .refl

theorem execPsFetchRepair_keeps {d : Fin 8} {k : Fin 6} {a : FetchWord} {s : State} : Answers [.regs, .cra, .tdx, .syu, .gwe, .free] s (execPsFetchRepair d k a s) := by
  unfold execPsFetchRepair
  exact onCra_answers (.ite State.bump_keeps.mono psRepair_keeps)

theorem rdDbgLo_keeps {s : State} {d : Nat} : Keeps [.regs] s (rdDbgLo s d).2.2 := by
  unfold rdDbgLo
  dsimp -proj only
  split
  · exact .snd₂ (State.setReg_keeps.after State.setReg_keeps)
  · exact .refl

theorem wrDbgLo_keeps {s : State} {d : Nat} {w : Word} : Keeps [.regs] s (wrDbgLo s d w).2 := by
  unfold wrDbgLo
  dsimp -proj only
  split
  · exact .refl
  · split
    · exact .refl
    · exact .snd State.setReg_keeps

theorem hostDieRdSt_answers {l : List Piece} {s : State} {d : Nat} {f : State → Status × Word × State} (h : Keeps l s (f s).2.2) (hg : [.gwe] ⊆ l := by exact within rfl) :
    Answers l s (hostDieRdSt s d f) :=
  .next (.ite ((keeps_gwe).mono hg) (.ite ((keeps_gwe).mono hg) (.ite ((keeps_gwe).after h hg) ((keeps_gwe).after h hg))))

theorem execDbgRegRead_keeps {d : Fin 8} {s : State} : Answers [.regs, .gwe] s (execDbgRegRead d s) := by
  unfold execDbgRegRead
  exact hostDieRdSt_answers rdDbgLo_keeps.mono

theorem noteHelped_keeps {o s : State} {d : Nat} {l : List Nat} : Keeps [.cra] s (noteHelped o s d l) := by
  unfold noteHelped
  refine .foldl (fun t x => ?_) .refl
  dsimp -proj only
  exact .ite State.modThr_keeps .refl

theorem wrCraCfg_keeps {s : State} {d : Nat} {w : Word} : Keeps [.regs, .cra, .tdx, .syu, .gwe, .free] s (wrCraCfg s d w).2 := by
  unfold wrCraCfg
  dsimp -proj only
  split
  · exact .snd (.foldl (fun _ _ => resumeThread_keeps) (noteHelped_keeps.after State.setReg_keeps.mono))
  · exact .snd (noteHelped_keeps.after State.setReg_keeps.mono)

theorem wrThreadEn_keeps {s : State} {d c : Nat} {w : Word} : Keeps [.regs, .cra] s (wrThreadEn s d c w).2 := by
  unfold wrThreadEn
  dsimp -proj only
  exact .snd (.foldl (fun _ _ => .ite (.ite startThread_keeps.mono .refl) (.ite (State.modThr_keeps).mono .refl)) State.setReg_keeps.mono)

theorem wrBp_keeps {s : State} {d c b : Nat} {w : Word} : Keeps [.regs] s (wrBp s d c b w).2 := by
  unfold wrBp
  split
  · exact .snd State.setReg_keeps
  · exact .refl

theorem wrDbgSel_keeps {s : State} {d : Nat} {w : Word} : Keeps [.regs] s (wrDbgSel s d w).2 := by
  unfold wrDbgSel
  split
  · exact .refl
  · split
    · exact .refl
    · exact .snd State.setReg_keeps

theorem State.setReady_keeps {s : State} {d l : Nat} {x : List Task} : Keeps [.tdx] s (s.setReady d l x) := by
  unfold State.setReady
  exact keeps_tdx

theorem State.setDelay_keeps {s : State} {d i : Nat} {x : List DTask} : Keeps [.tdx] s (s.setDelay d i x) := by
  unfold State.setDelay
  exact keeps_tdx

theorem placeReady_keeps {s : State} {d : Nat} {t : Task} : Keeps [.tdx] s (placeReady s d t) := by
  unfold placeReady
  exact State.setReady_keeps

theorem tryPost_keeps {s : State} {d : Nat} {t : Task} {delay : Nat} : Keeps [.regs, .tdx, .gwe, .free] s (tryPost s d t delay).2 := by
  unfold tryPost
  dsimp -proj only
  split
  · split
    · exact .snd placeReady_keeps.mono
    · exact .snd State.bump_keeps.mono
  · split
    · exact .snd (trace_keeps.after State.setDelay_keeps.mono)
    · exact .snd State.bump_keeps.mono

theorem postRec_keeps {s : State} {d dst : Nat} {remote : Bool} {n : Option Nat} {t : Task} {delay : Nat} : Keeps [.regs, .tdx, .gwe, .free] s (postRec s d dst remote n t delay) := by
  unfold postRec
  exact trace_keeps

theorem modTask_keeps {s : State} {d : Nat} {t u : Task} : Keeps [.tdx] s (modTask s d t u) := by
  unfold modTask
  exact State.setReady_keeps

theorem waitUnserved_keeps {s : State} {d : Nat} {t : Task} {c : Nat} : Keeps [.regs, .tdx, .gwe, .free] s (waitUnserved s d t c) := by
  unfold waitUnserved
  exact trace_keeps.after (State.bump_keeps.after modTask_keeps.mono)

theorem delayExpiry_keeps {s : State} {d : Nat} : Keeps [.regs, .tdx, .gwe, .free] s (delayExpiry s d) := by
  unfold delayExpiry
  dsimp -proj only
  split
  · exact trace_keeps.after (.ite (State.bump_keeps.after (placeReady_keeps.after State.setDelay_keeps.mono)) (placeReady_keeps.after State.setDelay_keeps.mono))
  · exact .refl

theorem execDelayExpiry_keeps {d : Fin 8} {s : State} : Answers [.regs, .tdx, .gwe, .free] s (execDelayExpiry d s) := by
  unfold execDelayExpiry
  exact .onDie (.ite delayExpiry_keeps .refl)

theorem answerPost_keeps {s : State} {f : Flight} {code : Nat} : Keeps [.cra] s (answerPost s f code) := by
  refine State.modThr_keeps (fun x hx => ?_)
  split
  · split
    · exact hx
    · exact hx
  · exact hx

theorem remoteArrive_keeps {s : State} {d : Nat} : Keeps [.regs, .cra, .tdx, .gwe, .free] s (remoteArrive s d) := by
  unfold remoteArrive
  dsimp -proj only
  split
  · exact .refl
  · exact .ite (answerPost_keeps.after keeps_tdx.mono) (answerPost_keeps.after (.ite (State.bump_keeps.after (State.bump_keeps.after (tryPost_keeps.after keeps_tdx.mono))) (tryPost_keeps.after keeps_tdx.mono)))

theorem execRemoteTaskArrive_keeps {d : Fin 8} {s : State} : Answers [.regs, .cra, .tdx, .syu, .gwe, .free] s (execRemoteTaskArrive d s) := by
  unfold execRemoteTaskArrive
  exact onCra_answers remoteArrive_keeps.mono

theorem injectTask_keeps {s : State} {a : InjectArgs} : Keeps [.regs, .tdx, .gwe, .free] s (injectTask s a).2.2 := by
  unfold injectTask
  dsimp -proj only
  split
  · exact .refl
  · split
    · exact .refl
    · split
      · exact .snd₂ (postRec_keeps.after (State.bump_keeps.after tryPost_keeps))
      · exact .snd₂ tryPost_keeps

theorem hostOpRun_keeps {l : List Piece} {s : State} {op : Nat} {f : TblAns} (h : Keeps l s f.2.2) (hg : [.gwe] ⊆ l := by exact within rfl) : Keeps l s (hostOpRun s op f) := by
  refine hostOp_keeps ?_ hg
  split
  · exact h
  · exact .refl

theorem execTaskInject_keeps {a : InjectArgs} {s : State} : Answers [.regs, .tdx, .gwe, .free] s (execTaskInject a s) := by
  unfold execTaskInject
  exact .next (hostOpRun_keeps injectTask_keeps)

theorem emptyLists_keeps {s : State} {d : Nat} : Keeps [.tdx] s (emptyLists s d) := by
  unfold emptyLists
  exact keeps_tdx

theorem clearAff_keeps {s : State} {d : Nat} : Keeps [.tdx] s (clearAff s d) := by
  unfold clearAff
  exact keeps_tdx

theorem wrTdxCfg_keeps {s : State} {d : Nat} {w : Word} : Keeps [.regs, .tdx] s (wrTdxCfg s d w).2 := by
  unfold wrTdxCfg
  dsimp -proj only
  exact .snd (.ite (clearAff_keeps.after State.setRf_keeps.mono) State.setRf_keeps.mono)

theorem execAffinityClear_keeps {d : Fin 8} {w : Word} {s : State} : Answers [.regs, .tdx, .gwe] s (execAffinityClear d w s) := by
  unfold execAffinityClear
  exact hostDieWr_answers wrTdxCfg_keeps.mono

theorem wrTrcCtl_keeps {s : State} {d : Nat} {w : Word} : Keeps [.regs, .tdx] s (wrTrcCtl s d w).2 := by
  unfold wrTrcCtl
  dsimp -proj only
  exact .snd (State.modTrc_keeps.after (.ite (State.setRf_keeps.after State.setReg_keeps.mono) State.setReg_keeps.mono))

theorem execTraceControlWrite_keeps {d : Fin 8} {w : Word} {s : State} : Answers [.regs, .tdx, .gwe] s (execTraceControlWrite d w s) := by
  unfold execTraceControlWrite
  exact hostDieWr_answers wrTrcCtl_keeps.mono

theorem wrTrcMark_keeps {s : State} {d : Nat} {w : Word} : Keeps [.regs, .tdx, .gwe, .free] s (wrTrcMark s d w).2 := by
  unfold wrTrcMark
  exact .snd trace_keeps

theorem execTraceMark_keeps {d : Fin 8} {w : Word} {s : State} : Answers [.regs, .tdx, .gwe, .free] s (execTraceMark d w s) := by
  unfold execTraceMark
  exact hostDieWr_answers wrTrcMark_keeps

theorem roomBack_keeps {s : State} {d : Nat} : Keeps [.regs, .tdx, .gwe, .free] s (roomBack s d) := by
  unfold roomBack
  exact .ite lostRecord_keeps .refl

theorem traceSpill_keeps {s : State} {d : Nat} : Keeps [.regs, .ssc, .tdx, .gwe, .free] s (traceSpill s d) := by
  unfold traceSpill
  dsimp -proj only
  exact .ite .refl (.ite stopWriting_keeps.mono (roomBack_keeps.after (.ite (.ite (stopWriting_keeps.after (State.modTrc_keeps.after (State.setRf_keeps.after (pushPort_keeps.after keeps_tdx.mono)))) (State.setRf_keeps.after (State.modTrc_keeps.after (State.setRf_keeps.after (pushPort_keeps.after keeps_tdx.mono))))) (State.modTrc_keeps.after (State.setRf_keeps.after (pushPort_keeps.after keeps_tdx.mono))))))

theorem execTraceSpill_keeps {d : Fin 8} {s : State} : Answers [.regs, .ssc, .tdx, .gwe, .free] s (execTraceSpill d s) := by
  unfold execTraceSpill
  exact .onDie traceSpill_keeps

theorem State.setTc_keeps {s : State} {d i w : Nat} {v : Word} : Keeps [.cls] s (s.setTc d i w v) := by
  unfold State.setTc
  exact keeps_cls

theorem tcSearch_keeps {s : State} {d : Nat} {v : List Byte} : Keeps [.cls] s (tcSearch s d v).2 := by
  unfold tcSearch
  split
  · exact .snd State.setTc_keeps
  · exact .refl

theorem takeDefault_keeps {s : State} {d p : Nat} : Keeps [.regs] s (takeDefault s d p).2 := by
  unfold takeDefault
  dsimp -proj only
  exact .snd State.bump_keeps

theorem runLookups_keeps {s : State} {d : Nat} {a : BitVec 128} {v : List Byte} : Keeps [.fwt] s (runLookups s d a v).2.2 := by
  unfold runLookups
  dsimp -proj only
  refine .snd₂ ?_
  split
  · exact l2Lookup_keeps
  · exact .refl

theorem runLearn_keeps {s : State} {d p : Nat} {a : BitVec 128} {v : List Byte} : Keeps [.regs, .fwt] s (runLearn s d p a v).2 := by
  unfold runLearn
  split
  · split
    · rename_i t he
      exact .snd (learnRequest_keeps.of_eq he)
    · rename_i t _ he
      exact .snd (learnRequest_keeps.of_eq he)
  · exact .refl

theorem applyRecorded_keeps {s : State} {d p : Nat} {dec : Decision} {v : List Byte} : Keeps [.regs, .fwt] s (applyRecorded s d p dec v).2 := by
  unfold applyRecorded
  dsimp -proj only
  split
  · exact .snd State.bump_keeps.mono
  · exact .snd (runLearn_keeps.after (runLookups_keeps.after State.bump_keeps.mono))

theorem State.setClsWait_keeps {s : State} {d : Nat} {l : List CFrame} : Keeps [.cls] s (s.setClsWait d l) := by
  unfold State.setClsWait
  exact keeps_cls

theorem joinWait_keeps {s : State} {d after sub : Nat} {f : Frame} {v : List Byte} {x : Verdict} : Keeps [.regs, .cls, .fwt, .ssc] s (joinWait s d after sub f v x) := by
  unfold joinWait
  dsimp -proj only
  exact State.setClsWait_keeps.after touchCtx_keeps.mono

theorem joinDefault_keeps {s : State} {d : Nat} {f : Frame} {v : List Byte} : Keeps [.regs, .cls, .fwt, .ssc] s (joinDefault s d f v) := by
  unfold joinDefault
  exact joinWait_keeps.after takeDefault_keeps.mono

theorem State.setFrag_keeps {s : State} {d i : Nat} {x : Frag} : Keeps [.cls] s (s.setFrag d i x) := by
  unfold State.setFrag
  exact keeps_cls

theorem State.dropFrag_keeps {s : State} {d i : Nat} : Keeps [.cls] s (s.dropFrag d i) := by
  unfold State.dropFrag
  exact keeps_cls

theorem laterFrag_keeps {s : State} {d : Nat} {f : Frame} {v : List Byte} : Keeps [.regs, .cls, .fwt, .ssc] s (laterFrag s d f v) := by
  unfold laterFrag
  split
  · split
    · dsimp -proj only
      exact joinWait_keeps.after (applyRecorded_keeps.after State.setFrag_keeps.mono)
    · exact .ite (joinDefault_keeps.after State.bump_keeps.mono) (.ite State.setFrag_keeps.mono (joinDefault_keeps.after State.bump_keeps.mono))
  · split
    · exact joinDefault_keeps.after State.bump_keeps.mono
    · split
      · exact State.setFrag_keeps.mono
      · exact joinDefault_keeps.after State.bump_keeps.mono

theorem expireHeld_keeps {s : State} {d i : Nat} {x : Frag} : Keeps [.regs, .cls, .fwt, .ssc] s (expireHeld s d i x) := by
  unfold expireHeld
  exact .foldl (fun _ _ => joinDefault_keeps.after State.bump_keeps.mono) State.dropFrag_keeps.mono

theorem execFragHoldExpiry_keeps {d : Fin 8} {i : Fin 4096} {s : State} : Answers [.regs, .cls, .fwt, .ssc] s (execFragHoldExpiry d i s) := by
  unfold execFragHoldExpiry
  refine .onDie ?_
  split
  · exact .ite expireHeld_keeps .refl
  · exact .refl

theorem execFragLifeExpiry_keeps {d : Fin 8} {i : Fin 4096} {s : State} : Answers [.cls] s (execFragLifeExpiry d i s) := by
  unfold execFragLifeExpiry
  refine .onDie ?_
  split
  · exact .ite State.dropFrag_keeps .refl
  · exact .refl

theorem complete_keeps {s : State} {d t : Nat} {c : Decision} : Keeps [.regs, .bpm, .rsq, .cra] s (complete s d t c) := by
  unfold complete
  dsimp -proj only
  exact .ite (.ite (endTicket_keeps.after State.bump_keeps.mono) endTicket_keeps) (.ite endTicket_keeps (.ite (.ite (endTicket_keeps.after State.bump_keeps.mono) (.ite (endTicket_keeps.after State.bump_keeps.mono) endTicket_keeps)) endTicket_keeps))

theorem giveNumber_keeps {s : State} {d : Nat} {c : CFrame} {t : Nat} : Keeps [.regs, .cls, .fwt, .bpm, .ssc, .rsq, .cra, .tdx] s (giveNumber s d c t) := by
  unfold giveNumber
  dsimp -proj only
  exact .ite (placeReady_keeps.after (putRob_keeps.after (cacheIn_keeps.after (State.modCtx_keeps.after State.setClsWait_keeps.mono)))) (complete_keeps.after (putRob_keeps.after (cacheIn_keeps.after (State.modCtx_keeps.after State.setClsWait_keeps.mono))))

theorem assignNext_keeps {s : State} {d : Nat} : Keeps [.regs, .cls, .fwt, .bpm, .ssc, .rsq, .cra, .tdx] s (assignNext s d) := by
  unfold assignNext
  split
  · exact .refl
  · split
    · exact .refl
    · split
      · exact giveNumber_keeps
      · exact .ite .refl (State.bump_keeps.after State.setClsWait_keeps.mono)

theorem execSequenceAssign_keeps {d : Fin 8} {s : State} : Answers [.regs, .cls, .fwt, .bpm, .ssc, .rsq, .cra, .tdx] s (execSequenceAssign d s) := by
  unfold execSequenceAssign
  exact .onDie assignNext_keeps

theorem execRobEntryWait_keeps {d : Fin 8} {s : State} : Answers [.regs, .cls, .fwt, .bpm, .ssc, .rsq, .cra, .tdx] s (execRobEntryWait d s) := by
  unfold execRobEntryWait
  refine .onDie ?_
  split
  · exact .ite assignNext_keeps .refl
  · exact .refl

theorem ctxFetched_keeps {s : State} {d c : Nat} : Keeps [.cls, .fwt, .ssc] s (ctxFetched s d c) := by
  unfold ctxFetched
  dsimp -proj only
  exact .ite (cacheIn_keeps.after (State.setClsWait_keeps.after keeps_fwt.mono)) .refl

theorem execFlowContextFetch_keeps {d : Fin 8} {c : Fin 65536} {s : State} : Answers [.cls, .fwt, .ssc] s (execFlowContextFetch d c s) := by
  unfold execFlowContextFetch
  exact .onDie ctxFetched_keeps

theorem countSlot_keeps {s : State} {d n : Nat} : Keeps [.regs, .cra] s (countSlot s d n) := by
  unfold countSlot
  dsimp -proj only
  exact .ite (State.bump_keeps.after ((keeps_cra).after (State.modThr_keeps).mono)) ((keeps_cra).after (State.modThr_keeps).mono)

theorem issue_keeps {l : List Piece} {s : State} {d n : Nat} {op : ROp} {f : RIns → State → State} (hf : ∀ i t, Keeps l t (f i t))
    (hm : [.regs, .cra, .tdx, .syu, .gwe, .free] ⊆ l := by exact within rfl) : Keeps l s (issue s d n op f) := by
  have hc : Keeps l s (countSlot s d n) := countSlot_keeps.mono (List.Subset.trans (l₂ := [.regs, .cra, .tdx, .syu, .gwe, .free]) (within rfl) hm)
  have hr : Keeps l s (runaway s d n) := runaway_keeps.mono (List.Subset.trans (l₂ := [.regs, .cra, .tdx, .syu, .gwe, .free]) (within rfl) hm)
  unfold issue
  split
  · exact .refl
  split
  · exact (State.bump_keeps.after (haltThread_keeps.mono (l := [.regs, .cra, .tdx, .syu, .gwe, .free]))).mono hm
  split
  · exact .ite hr (faultThread_keeps.after hc (List.Subset.trans (l₂ := [.regs, .cra, .tdx, .syu, .gwe, .free]) (within rfl) hm))
  split
  · exact .refl
  split
  · exact hr
  · exact (State.modThr_keeps fun _ => Thr.settle_rise).after ((hf _ _).comp hc) (List.Subset.trans (l₂ := [.regs, .cra, .tdx, .syu, .gwe, .free]) (within rfl) hm)

theorem rolk_answers {l : List Piece} {s : State} {d n : Nat} {op : ROp} {f : RIns → State → State} (hf : ∀ i t, Keeps l t (f i t))
    (hm : [.regs, .cra, .tdx, .syu, .gwe, .free] ⊆ l := by exact within rfl) : Answers l s (rolk s d n op f) :=
  onCra_answers (issue_keeps hf hm) (List.Subset.trans (l₂ := [.regs, .cra, .tdx, .syu, .gwe, .free]) (within rfl) hm)

theorem goTo_keeps {s : State} {d n p : Nat} : Keeps [.cra] s (goTo s d n p) := by
  unfold goTo
  exact State.modThr_keeps

theorem branchStep_keeps {d n : Nat} {i : RIns} {s : State} : Keeps [.cra] s (branchStep d n i s) := by
  unfold branchStep
  dsimp -proj only
  exact goTo_keeps

theorem jStep_keeps {d n : Nat} {i : RIns} {s : State} : Keeps [.cra] s (jStep d n i s) := by
  unfold jStep
  exact goTo_keeps

theorem trapStep_keeps {d n : Nat} {i : RIns} {s : State} : Keeps [.regs, .cra, .tdx, .syu, .gwe, .free] s (trapStep d n i s) := by
  unfold trapStep
  exact faultThread_keeps

theorem nopStep_keeps {d n : Nat} {x : RIns} {s : State} : Keeps [.cra] s (nopStep d n x s) := by
  unfold nopStep
  exact goTo_keeps

theorem execBeq_keeps {d : Fin 8} {n : Fin 384} {s : State} : Answers [.regs, .cra, .tdx, .syu, .gwe, .free] s (execBeq d n s) := by
  unfold execBeq
  exact rolk_answers (fun _ _ => branchStep_keeps.mono)

theorem execBne_keeps {d : Fin 8} {n : Fin 384} {s : State} : Answers [.regs, .cra, .tdx, .syu, .gwe, .free] s (execBne d n s) := by
  unfold execBne
  exact rolk_answers (fun _ _ => branchStep_keeps.mono)

theorem execBlt_keeps {d : Fin 8} {n : Fin 384} {s : State} : Answers [.regs, .cra, .tdx, .syu, .gwe, .free] s (execBlt d n s) := by
  unfold execBlt
  exact rolk_answers (fun _ _ => branchStep_keeps.mono)

theorem execBge_keeps {d : Fin 8} {n : Fin 384} {s : State} : Answers [.regs, .cra, .tdx, .syu, .gwe, .free] s (execBge d n s) := by
  unfold execBge
  exact rolk_answers (fun _ _ => branchStep_keeps.mono)

theorem execBltu_keeps {d : Fin 8} {n : Fin 384} {s : State} : Answers [.regs, .cra, .tdx, .syu, .gwe, .free] s (execBltu d n s) := by
  unfold execBltu
  exact rolk_answers (fun _ _ => branchStep_keeps.mono)

theorem execBgeu_keeps {d : Fin 8} {n : Fin 384} {s : State} : Answers [.regs, .cra, .tdx, .syu, .gwe, .free] s (execBgeu d n s) := by
  unfold execBgeu
  exact rolk_answers (fun _ _ => branchStep_keeps.mono)

theorem execBbs_keeps {d : Fin 8} {n : Fin 384} {s : State} : Answers [.regs, .cra, .tdx, .syu, .gwe, .free] s (execBbs d n s) := by
  unfold execBbs
  exact rolk_answers (fun _ _ => branchStep_keeps.mono)

theorem execBbc_keeps {d : Fin 8} {n : Fin 384} {s : State} : Answers [.regs, .cra, .tdx, .syu, .gwe, .free] s (execBbc d n s) := by
  unfold execBbc
  exact rolk_answers (fun _ _ => branchStep_keeps.mono)

theorem execJ_keeps {d : Fin 8} {n : Fin 384} {s : State} : Answers [.regs, .cra, .tdx, .syu, .gwe, .free] s (execJ d n s) := by
  unfold execJ
  exact rolk_answers (fun _ _ => jStep_keeps.mono)

theorem execTrap_keeps {d : Fin 8} {n : Fin 384} {s : State} : Answers [.regs, .cra, .tdx, .syu, .gwe, .free] s (execTrap d n s) := by
  unfold execTrap
  exact rolk_answers (fun _ _ => trapStep_keeps)

theorem execNop_keeps {d : Fin 8} {n : Fin 384} {s : State} : Answers [.regs, .cra, .tdx, .syu, .gwe, .free] s (execNop d n s) := by
  unfold execNop
  exact rolk_answers (fun _ _ => nopStep_keeps.mono)

theorem storeStep_keeps {d n size : Nat} {i : RIns} {s : State} : Keeps [.regs, .cra, .tdx, .syu, .gwe, .free] s (storeStep d n size i s) := by
  unfold storeStep
  dsimp -proj only
  split
  · exact faultThread_keeps
  · exact goTo_keeps.after State.putPad_keeps.mono

theorem request_keeps {s : State} {d n rd : Nat} {v : DWord} {err : Nat} {u : Bool} {kind : PendKind} : Keeps [.cra] s (request s d n rd v err u kind) := by
  unfold request
  exact (State.modThr_keeps).after markWait_keeps

theorem badHandle_keeps {s : State} {d n h : Nat} : Keeps [.regs, .cra, .tdx, .syu, .gwe, .free] s (badHandle s d n h) := by
  unfold badHandle
  exact faultThread_keeps.after State.bump_keeps.mono

theorem fldStep_keeps {d n : Nat} {i : RIns} {s : State} : Keeps [.regs, .cra, .tdx, .syu, .gwe, .free] s (fldStep d n i s) := by
  unfold fldStep
  dsimp -proj only
  exact .ite badHandle_keeps (.ite faultThread_keeps request_keeps.mono)

theorem fstStep_keeps {d n : Nat} {i : RIns} {s : State} : Keeps [.regs, .bpm, .cra, .tdx, .syu, .gwe, .free] s (fstStep d n i s) := by
  unfold fstStep
  dsimp -proj only
  exact .ite badHandle_keeps.mono (.ite faultThread_keeps.mono (request_keeps.after State.putQuay_keeps.mono))

theorem flenStep_keeps {d n : Nat} {i : RIns} {s : State} : Keeps [.regs, .cra, .tdx, .syu, .gwe, .free] s (flenStep d n i s) := by
  unfold flenStep
  dsimp -proj only
  exact .ite badHandle_keeps request_keeps.mono

theorem execSt8_keeps {d : Fin 8} {n : Fin 384} {s : State} : Answers [.regs, .cra, .tdx, .syu, .gwe, .free] s (execSt8 d n s) := by
  unfold execSt8
  exact rolk_answers (fun _ _ => storeStep_keeps)

theorem execSt16_keeps {d : Fin 8} {n : Fin 384} {s : State} : Answers [.regs, .cra, .tdx, .syu, .gwe, .free] s (execSt16 d n s) := by
  unfold execSt16
  exact rolk_answers (fun _ _ => storeStep_keeps)

theorem execSt32_keeps {d : Fin 8} {n : Fin 384} {s : State} : Answers [.regs, .cra, .tdx, .syu, .gwe, .free] s (execSt32 d n s) := by
  unfold execSt32
  exact rolk_answers (fun _ _ => storeStep_keeps)

theorem execSt64_keeps {d : Fin 8} {n : Fin 384} {s : State} : Answers [.regs, .cra, .tdx, .syu, .gwe, .free] s (execSt64 d n s) := by
  unfold execSt64
  exact rolk_answers (fun _ _ => storeStep_keeps)

theorem execFld_keeps {d : Fin 8} {n : Fin 384} {s : State} : Answers [.regs, .cra, .tdx, .syu, .gwe, .free] s (execFld d n s) := by
  unfold execFld
  exact rolk_answers (fun _ _ => fldStep_keeps)

theorem execFst_keeps {d : Fin 8} {n : Fin 384} {s : State} : Answers [.regs, .bpm, .cra, .tdx, .syu, .gwe, .free] s (execFst d n s) := by
  unfold execFst
  exact rolk_answers (fun _ _ => fstStep_keeps)

theorem execFlen_keeps {d : Fin 8} {n : Fin 384} {s : State} : Answers [.regs, .cra, .tdx, .syu, .gwe, .free] s (execFlen d n s) := by
  unfold execFlen
  exact rolk_answers (fun _ _ => flenStep_keeps)

theorem answer_keeps {s : State} {d n : Nat} {i : RIns} {v : DWord} : Keeps [.cra] s (answer s d n i v) := by
  unfold answer
  exact request_keeps

theorem outcome_keeps {s : State} {d n : Nat} {i : RIns} {c : Nat} : Keeps [.cra] s (outcome s d n i c) := by
  unfold outcome
  exact request_keeps

theorem replyAt_keeps {k : PendKind} {s : State} {d n : Nat} {i : RIns} {v : DWord} {err : Nat} : Keeps [.cra] s (replyAt k s d n i v err) := by
  unfold replyAt
  exact request_keeps

theorem errorReply_keeps {s : State} {d n : Nat} {i : RIns} {c : Nat} : Keeps [.cra] s (errorReply s d n i c) := by
  unfold errorReply
  exact request_keeps

theorem rangeFault_keeps {s : State} {d n : Nat} {x : DWord} : Keeps [.regs, .cra, .tdx, .syu, .gwe, .free] s (rangeFault s d n x) := by
  unfold rangeFault
  exact faultThread_keeps

theorem crcStep_keeps {d n : Nat} {i : RIns} {s : State} : Keeps [.cra] s (crcStep d n i s) := by
  unfold crcStep
  dsimp -proj only
  exact answer_keeps

theorem hashStep_keeps {d n : Nat} {i : RIns} {s : State} : Keeps [.cra] s (hashStep d n i s) := by
  unfold hashStep
  dsimp -proj only
  exact answer_keeps

theorem slotCount_keeps {s : State} {d n : Nat} : Keeps [.free] s (slotCount s d n).2 := by
  unfold slotCount
  split
  · dsimp -proj only
    exact .snd State.takeFree_keeps
  · exact .refl

theorem endRecord_keeps {s : State} {d n code : Nat} {tkt : Option (Nat × Nat)} : Keeps [.regs, .tdx, .gwe, .free] s (endRecord s d n code tkt) := by
  unfold endRecord
  dsimp -proj only
  exact trace_keeps.after slotCount_keeps.mono

theorem twaitStep_keeps {d n : Nat} {i : RIns} {s : State} : Keeps [.regs, .cra, .tdx, .syu, .gwe, .free] s (twaitStep d n i s) := by
  unfold twaitStep
  dsimp -proj only
  split
  · exact faultThread_keeps
  · split
    · split
      · exact (State.modThr_keeps).after endRecord_keeps.mono
      · exact (State.modThr_keeps).after endRecord_keeps.mono
    · split
      · exact (State.modThr_keeps).mono
      · exact (State.modThr_keeps).mono

theorem tdoneStep_keeps {d n : Nat} {i : RIns} {s : State} : Keeps [.regs, .cra, .tdx, .syu, .gwe, .free] s (tdoneStep d n i s) := by
  unfold tdoneStep
  dsimp -proj only
  split
  · exact faultThread_keeps
  · exact .ite (replyAt_keeps.after (State.modThr_keeps).mono) (replyAt_keeps.after ((State.modThr_keeps).after (.ite endRecord_keeps.mono .refl)))

theorem postRemote_keeps {s : State} {d n : Nat} {i : RIns} {dst delay : Nat} {t : Task} : Keeps [.regs, .cra, .tdx, .gwe, .free] s (postRemote s d n i dst delay t) := by
  unfold postRemote
  dsimp -proj only
  exact .ite replyAt_keeps.mono (request_keeps.after (postRec_keeps.after keeps_tdx.mono))

theorem postLocal_keeps {s : State} {d n : Nat} {i : RIns} {delay : Nat} {t : Task} : Keeps [.regs, .cra, .tdx, .gwe, .free] s (postLocal s d n i delay t) := by
  unfold postLocal
  exact .ite (request_keeps.after (postRec_keeps.after (State.bump_keeps.after tryPost_keeps.mono))) (request_keeps.after tryPost_keeps.mono)

theorem tpostStep_keeps {d n : Nat} {i : RIns} {s : State} : Keeps [.regs, .cra, .tdx, .syu, .gwe, .free] s (tpostStep d n i s) := by
  unfold tpostStep
  dsimp -proj only
  split
  · exact rangeFault_keeps
  · split
    · exact faultThread_keeps
    · exact .ite errorReply_keeps.mono (.ite postRemote_keeps.mono postLocal_keeps.mono)

theorem deferTicket_keeps {s : State} {d n : Nat} {i : RIns} {k : Nat} {r : Rob} {desc at_ : Nat} {key : DWord} : Keeps [.regs, .cra, .tdx, .gwe, .free] s (deferTicket s d n i k r desc at_ key) := by
  unfold deferTicket
  dsimp -proj only
  exact .ite ((State.modThr_keeps).after (request_keeps.after (postRec_keeps.after (State.bump_keeps.after (endRecord_keeps.after tryPost_keeps.mono))))) (request_keeps.after tryPost_keeps.mono)

theorem tdeferStep_keeps {d n : Nat} {i : RIns} {s : State} : Keeps [.regs, .cra, .tdx, .syu, .gwe, .free] s (tdeferStep d n i s) := by
  unfold tdeferStep
  dsimp -proj only
  split
  · exact faultThread_keeps
  · split
    · exact rangeFault_keeps
    · split
      · exact faultThread_keeps
      · split
        · exact errorReply_keeps.mono
        · split
          · exact deferTicket_keeps.mono
          · exact faultThread_keeps

theorem ballocStep_keeps {d n : Nat} {i : RIns} {s : State} : Keeps [.regs, .bpm, .cra, .gwe] s (ballocStep d n i s) := by
  unfold ballocStep
  split
  · rename_i t he
    exact request_keeps.after ((allocBuf_keeps.of_eq he).mono)
  · rename_i t he
    exact outcome_keeps.after ((allocBuf_keeps.of_eq he).mono)

theorem bshareStep_keeps {d n : Nat} {i : RIns} {s : State} : Keeps [.regs, .bpm, .cra, .tdx, .syu, .gwe, .free] s (bshareStep d n i s) := by
  unfold bshareStep
  dsimp -proj only
  split
  · exact badHandle_keeps.mono
  · split
    · exact rangeFault_keeps.mono
    · split
      · exact rangeFault_keeps.mono
      · split
        · exact .ite faultThread_keeps.mono (.ite rangeFault_keeps.mono (answer_keeps.after State.setShare_keeps.mono))
        · exact .ite (outcome_keeps.after State.bump_keeps.mono) (answer_keeps.after State.setShare_keeps.mono)

theorem bcheckStep_keeps {d n : Nat} {i : RIns} {s : State} : Keeps [.cra] s (bcheckStep d n i s) := by
  unfold bcheckStep
  dsimp -proj only
  exact answer_keeps

theorem tableRequest_keeps {s : State} {d n : Nat} {i : RIns} {q : LkpReq} : Keeps [.regs, .fwt, .ssc, .cra] s (tableRequest s d n i q) := by
  unfold tableRequest
  split
  · exact request_keeps.mono
  · dsimp -proj only
    exact answer_keeps.after tableNow_keeps.mono

theorem lkpStep_keeps {d n : Nat} {i : RIns} {s : State} : Keeps [.regs, .fwt, .ssc, .cra, .tdx, .syu, .gwe, .free] s (lkpStep d n i s) := by
  unfold lkpStep
  dsimp -proj only
  split
  · split
    · exact faultThread_keeps.mono
    · exact tableRequest_keeps.mono
  · exact .ite rangeFault_keeps.mono (.ite rangeFault_keeps.mono tableRequest_keeps.mono)

theorem lrnStep_keeps {d n : Nat} {i : RIns} {s : State} : Keeps [.regs, .fwt, .ssc, .cra, .tdx, .syu, .gwe, .free] s (lrnStep d n i s) := by
  unfold lrnStep
  dsimp -proj only
  exact .ite rangeFault_keeps.mono tableRequest_keeps.mono

theorem syuRequest_keeps {l : List Piece} {s : State} {d n lim : Nat} {i : RIns} {f : Nat → State} (hf : ∀ x, Keeps l s (f x))
    (hm : [.regs, .cra, .tdx, .syu, .gwe, .free] ⊆ l := by exact within rfl) : Keeps l s (syuRequest s d n i lim f) := by
  unfold syuRequest
  dsimp only
  split
  · exact rangeFault_keeps.mono (List.Subset.trans (l₂ := [.regs, .cra, .tdx, .syu, .gwe, .free]) (within rfl) hm)
  split
  · exact replyAt_keeps.mono (List.Subset.trans (l₂ := [.regs, .cra, .tdx, .syu, .gwe, .free]) (within rfl) hm)
  · exact hf _

theorem stayAt_keeps {s : State} {d n : Nat} : Keeps [.cra] s (stayAt s d n) := by
  unfold stayAt
  exact State.modThr_keeps

theorem syuWait_keeps {l : List Piece} {s : State} {d n lim : Nat} {i : RIns} {f : Nat → State} (hf : ∀ x, Keeps l s (f x))
    (hm : [.regs, .cra, .tdx, .syu, .gwe, .free] ⊆ l := by exact within rfl) : Keeps l s (syuWait s d n i lim f) := by
  unfold syuWait
  dsimp only
  split
  · exact rangeFault_keeps.mono (List.Subset.trans (l₂ := [.regs, .cra, .tdx, .syu, .gwe, .free]) (within rfl) hm)
  split
  · exact stayAt_keeps.mono (List.Subset.trans (l₂ := [.regs, .cra, .tdx, .syu, .gwe, .free]) (within rfl) hm)
  · exact hf _

theorem waitOn_keeps {s : State} {d n rd : Nat} {w : WaitOn} {m : DWord} : Keeps [.cra] s (waitOn s d n rd w m) := by
  unfold waitOn
  exact (State.modThr_keeps).after markWait_keeps

theorem trylockStep_keeps {d n : Nat} {i : RIns} {s : State} : Keeps [.regs, .cra, .tdx, .syu, .gwe, .free] s (trylockStep d n i s) := by
  unfold trylockStep
  refine syuRequest_keeps (fun x => ?_)
  dsimp -proj only
  split
  · exact request_keeps.after State.setLock_keeps.mono
  · exact .ite faultThread_keeps replyAt_keeps.mono

theorem unlockStep_keeps {d n : Nat} {i : RIns} {s : State} : Keeps [.regs, .cra, .tdx, .syu, .gwe, .free] s (unlockStep d n i s) := by
  unfold unlockStep
  exact syuRequest_keeps (fun _ => .ite (replyAt_keeps.after passLock_keeps.mono) replyAt_keeps.mono)

theorem lkcleanStep_keeps {d n : Nat} {i : RIns} {s : State} : Keeps [.regs, .cra, .tdx, .syu, .gwe, .free] s (lkcleanStep d n i s) := by
  unfold lkcleanStep
  refine syuRequest_keeps (fun x => ?_)
  dsimp -proj only
  exact .ite (replyAt_keeps.after State.setLock_keeps.mono) replyAt_keeps.mono

theorem supervisorOnly_keeps {l : List Piece} {s : State} {d n : Nat} {t : State} (h : Keeps l s t)
    (hm : [.regs, .cra, .tdx, .syu, .gwe, .free] ⊆ l := by exact within rfl) : Keeps l s (supervisorOnly s d n t) :=
  .ite h (faultThread_keeps.mono (List.Subset.trans (l₂ := [.regs, .cra, .tdx, .syu, .gwe, .free]) (within rfl) hm))

theorem lkforceStep_keeps {same : Bool} {d n : Nat} {i : RIns} {s : State} : Keeps [.regs, .cra, .tdx, .syu, .gwe, .free] s (lkforceStep same d n i s) := by
  unfold lkforceStep
  exact supervisorOnly_keeps (syuRequest_keeps (fun _ => .ite (replyAt_keeps.after forceLock_keeps.mono) replyAt_keeps.mono))

theorem evsigStep_keeps {d n : Nat} {i : RIns} {s : State} : Keeps [.regs, .cra, .tdx, .syu, .gwe, .free] s (evsigStep d n i s) := by
  unfold evsigStep
  exact syuRequest_keeps (fun _ => replyAt_keeps.after signalEv_keeps.mono)

theorem chputStep_keeps {d n : Nat} {i : RIns} {s : State} : Keeps [.regs, .cra, .tdx, .syu, .gwe, .free] s (chputStep d n i s) := by
  unfold chputStep
  refine syuRequest_keeps (fun x => ?_)
  dsimp -proj only
  exact .ite replyAt_keeps.mono (.ite replyAt_keeps.mono (replyAt_keeps.after (State.modThr_keeps).mono))

theorem chcloseStep_keeps {d n : Nat} {i : RIns} {s : State} : Keeps [.regs, .cra, .tdx, .syu, .gwe, .free] s (chcloseStep d n i s) := by
  unfold chcloseStep
  refine syuRequest_keeps (fun x => ?_)
  dsimp -proj only
  exact .ite replyAt_keeps.mono (.ite (replyAt_keeps.after State.bump_keeps.mono) (replyAt_keeps.after (commitMsg_keeps.after (State.modThr_keeps).mono)))

theorem endChecked_keeps {l : List Piece} {s : State} {d n : Nat} {i : RIns} {ok sh : Bool} {f : Nat → Rob → State} (hf : ∀ k r, Keeps l s (f k r))
    (hm : [.regs, .cra, .tdx, .syu, .gwe, .free] ⊆ l := by exact within rfl) : Keeps l s (endChecked s d n i ok sh f) := by
  have hr (x : DWord) : Keeps l s (rangeFault s d n x) := rangeFault_keeps.mono (List.Subset.trans (l₂ := [.regs, .cra, .tdx, .syu, .gwe, .free]) (within rfl) hm)
  have hb (h : Nat) : Keeps l s (badHandle s d n h) := badHandle_keeps.mono (List.Subset.trans (l₂ := [.regs, .cra, .tdx, .syu, .gwe, .free]) (within rfl) hm)
  unfold endChecked
  dsimp only
  split
  · exact hr _
  split
  · exact hr _
  split
  · exact hb _
  split
  · exact hb _
  split
  · exact hr _
  · exact hf _ _

theorem endBy_keeps {s : State} {d n : Nat} {i : RIns} {code k : Nat} {r : Rob} {e : Ending} : Keeps [.regs, .bpm, .rsq, .cra, .tdx, .gwe, .free] s (endBy s d n i code k r e) := by
  unfold endBy
  exact answer_keeps.after (endTicket_keeps.after endRecord_keeps.mono)

theorem emitStep_keeps {staging : Bool} {d n : Nat} {i : RIns} {s : State} : Keeps [.regs, .bpm, .rsq, .cra, .tdx, .syu, .gwe, .free] s (emitStep staging d n i s) := by
  unfold emitStep
  dsimp -proj only
  exact endChecked_keeps (fun _ _ => endBy_keeps.mono)

theorem tohostStep_keeps {d n : Nat} {i : RIns} {s : State} : Keeps [.regs, .bpm, .rsq, .cra, .tdx, .syu, .gwe, .free] s (tohostStep d n i s) := by
  unfold tohostStep
  dsimp -proj only
  exact endChecked_keeps (fun _ _ => endBy_keeps.mono)

theorem phaseStep_keeps {d n : Nat} {i : RIns} {s : State} : Keeps [.cra] s (phaseStep d n i s) := by
  unfold phaseStep
  exact answer_keeps

theorem supValue_keeps {s : State} {d k m sel : Nat} : Keeps [.cra] s (supValue s d k m sel).2 := by
  unfold supValue
  dsimp -proj only
  split
  · exact .refl
  · split
    · exact .refl
    · split
      · exact .refl
      · exact .snd State.setFaultQ_keeps

theorem onTarget_keeps {l : List Piece} {s : State} {d n : Nat} {i : RIns} {own : Bool} {f : Nat → State} (hf : ∀ m, Keeps l s (f m))
    (hm : [.regs, .cra, .tdx, .syu, .gwe, .free] ⊆ l := by exact within rfl) : Keeps l s (onTarget s d n i own f) :=
  supervisorOnly_keeps (.ite (rangeFault_keeps.mono (List.Subset.trans (l₂ := [.regs, .cra, .tdx, .syu, .gwe, .free]) (within rfl) hm)) (hf _)) hm

theorem supreadStep_keeps {d n : Nat} {i : RIns} {s : State} : Keeps [.regs, .cra, .tdx, .syu, .gwe, .free] s (supreadStep d n i s) := by
  unfold supreadStep
  refine onTarget_keeps (fun x => ?_)
  dsimp -proj only
  exact .ite rangeFault_keeps (answer_keeps.after supValue_keeps.mono)

theorem supstopStep_keeps {same : Bool} {d n : Nat} {i : RIns} {s : State} : Keeps [.regs, .cra, .tdx, .syu, .gwe, .free] s (supstopStep same d n i s) := by
  unfold supstopStep
  exact onTarget_keeps (fun _ => answer_keeps.after stopUnless_keeps.mono)

theorem helperReply_keeps {s : State} {d n : Nat} {uncorr : Bool} : Keeps [.regs, .fwt, .ssc, .cra, .tdx, .syu, .gwe, .free] s (helperReply s d n uncorr) := by
  unfold helperReply
  dsimp -proj only
  split
  · exact .refl
  · split
    · exact .refl
    · split
      · exact .refl
      · exact .ite .refl (replyThread_keeps.after tableNow_keeps.mono)
      · exact replyThread_keeps.mono

theorem execHelperReply_keeps {d : Fin 8} {n : Fin 384} {uncorr : Bool} {s : State} : Answers [.regs, .fwt, .ssc, .cra, .tdx, .syu, .gwe, .free] s (execHelperReply d n uncorr s) := by
  unfold execHelperReply
  exact onCra_answers helperReply_keeps

theorem execCrc32c_keeps {d : Fin 8} {n : Fin 384} {s : State} : Answers [.regs, .cra, .tdx, .syu, .gwe, .free] s (execCrc32c d n s) := by
  unfold execCrc32c
  exact rolk_answers (fun _ _ => crcStep_keeps.mono)

theorem execHash_keeps {d : Fin 8} {n : Fin 384} {s : State} : Answers [.regs, .cra, .tdx, .syu, .gwe, .free] s (execHash d n s) := by
  unfold execHash
  exact rolk_answers (fun _ _ => hashStep_keeps.mono)

theorem execTwait_keeps {d : Fin 8} {n : Fin 384} {s : State} : Answers [.regs, .cra, .tdx, .syu, .gwe, .free] s (execTwait d n s) := by
  unfold execTwait
  exact rolk_answers (fun _ _ => twaitStep_keeps)

theorem execTdone_keeps {d : Fin 8} {n : Fin 384} {s : State} : Answers [.regs, .cra, .tdx, .syu, .gwe, .free] s (execTdone d n s) := by
  unfold execTdone
  exact rolk_answers (fun _ _ => tdoneStep_keeps)

theorem execTpost_keeps {d : Fin 8} {n : Fin 384} {s : State} : Answers [.regs, .cra, .tdx, .syu, .gwe, .free] s (execTpost d n s) := by
  unfold execTpost
  exact rolk_answers (fun _ _ => tpostStep_keeps)

theorem execTdefer_keeps {d : Fin 8} {n : Fin 384} {s : State} : Answers [.regs, .cra, .tdx, .syu, .gwe, .free] s (execTdefer d n s) := by
  unfold execTdefer
  exact rolk_answers (fun _ _ => tdeferStep_keeps)

theorem execBalloc_keeps {d : Fin 8} {n : Fin 384} {s : State} : Answers [.regs, .bpm, .cra, .tdx, .syu, .gwe, .free] s (execBalloc d n s) := by
  unfold execBalloc
  exact rolk_answers (fun _ _ => ballocStep_keeps.mono)

theorem execBshare_keeps {d : Fin 8} {n : Fin 384} {s : State} : Answers [.regs, .bpm, .cra, .tdx, .syu, .gwe, .free] s (execBshare d n s) := by
  unfold execBshare
  exact rolk_answers (fun _ _ => bshareStep_keeps)

theorem execBcheck_keeps {d : Fin 8} {n : Fin 384} {s : State} : Answers [.regs, .cra, .tdx, .syu, .gwe, .free] s (execBcheck d n s) := by
  unfold execBcheck
  exact rolk_answers (fun _ _ => bcheckStep_keeps.mono)

theorem execLkp_keeps {d : Fin 8} {n : Fin 384} {s : State} : Answers [.regs, .fwt, .ssc, .cra, .tdx, .syu, .gwe, .free] s (execLkp d n s) := by
  unfold execLkp
  exact rolk_answers (fun _ _ => lkpStep_keeps)

theorem execLrn_keeps {d : Fin 8} {n : Fin 384} {s : State} : Answers [.regs, .fwt, .ssc, .cra, .tdx, .syu, .gwe, .free] s (execLrn d n s) := by
  unfold execLrn
  exact rolk_answers (fun _ _ => lrnStep_keeps)

theorem execTrylock_keeps {d : Fin 8} {n : Fin 384} {s : State} : Answers [.regs, .cra, .tdx, .syu, .gwe, .free] s (execTrylock d n s) := by
  unfold execTrylock
  exact rolk_answers (fun _ _ => trylockStep_keeps)

theorem execUnlock_keeps {d : Fin 8} {n : Fin 384} {s : State} : Answers [.regs, .cra, .tdx, .syu, .gwe, .free] s (execUnlock d n s) := by
  unfold execUnlock
  exact rolk_answers (fun _ _ => unlockStep_keeps)

theorem execLkclean_keeps {d : Fin 8} {n : Fin 384} {s : State} : Answers [.regs, .cra, .tdx, .syu, .gwe, .free] s (execLkclean d n s) := by
  unfold execLkclean
  exact rolk_answers (fun _ _ => lkcleanStep_keeps)

theorem execLkforce_keeps {d : Fin 8} {n : Tied (Fin 384)} {s : State} : Answers [.regs, .cra, .tdx, .syu, .gwe, .free] s (execLkforce d n s) := by
  unfold execLkforce
  exact rolk_answers (fun _ _ => lkforceStep_keeps)

theorem execEvsig_keeps {d : Fin 8} {n : Fin 384} {s : State} : Answers [.regs, .cra, .tdx, .syu, .gwe, .free] s (execEvsig d n s) := by
  unfold execEvsig
  exact rolk_answers (fun _ _ => evsigStep_keeps)

theorem execChput_keeps {d : Fin 8} {n : Fin 384} {s : State} : Answers [.regs, .cra, .tdx, .syu, .gwe, .free] s (execChput d n s) := by
  unfold execChput
  exact rolk_answers (fun _ _ => chputStep_keeps)

theorem execChclose_keeps {d : Fin 8} {n : Fin 384} {s : State} : Answers [.regs, .cra, .tdx, .syu, .gwe, .free] s (execChclose d n s) := by
  unfold execChclose
  exact rolk_answers (fun _ _ => chcloseStep_keeps)

theorem execEmit_keeps {d : Fin 8} {n : Fin 384} {s : State} : Answers [.regs, .bpm, .rsq, .cra, .tdx, .syu, .gwe, .free] s (execEmit d n s) := by
  unfold execEmit
  exact rolk_answers (fun _ _ => emitStep_keeps)

theorem execTohost_keeps {d : Fin 8} {n : Fin 384} {s : State} : Answers [.regs, .bpm, .rsq, .cra, .tdx, .syu, .gwe, .free] s (execTohost d n s) := by
  unfold execTohost
  exact rolk_answers (fun _ _ => tohostStep_keeps)

theorem execStage_keeps {d : Fin 8} {n : Fin 384} {s : State} : Answers [.regs, .bpm, .rsq, .cra, .tdx, .syu, .gwe, .free] s (execStage d n s) := by
  unfold execStage
  exact rolk_answers (fun _ _ => emitStep_keeps)

theorem execPhase_keeps {d : Fin 8} {n : Fin 384} {s : State} : Answers [.regs, .cra, .tdx, .syu, .gwe, .free] s (execPhase d n s) := by
  unfold execPhase
  exact rolk_answers (fun _ _ => phaseStep_keeps.mono)

theorem execSupread_keeps {d : Fin 8} {n : Fin 384} {s : State} : Answers [.regs, .cra, .tdx, .syu, .gwe, .free] s (execSupread d n s) := by
  unfold execSupread
  exact rolk_answers (fun _ _ => supreadStep_keeps)

theorem execSupstop_keeps {d : Fin 8} {n : Tied (Fin 384)} {s : State} : Answers [.regs, .cra, .tdx, .syu, .gwe, .free] s (execSupstop d n s) := by
  unfold execSupstop
  exact rolk_answers (fun _ _ => supstopStep_keeps)

theorem freeCopy_keeps {s : State} {flood : Bool} {h : Nat} {m : Option Nat} : Keeps [.bpm] s (freeCopy s flood h m) := by
  unfold freeCopy
  exact freeMirror_keeps.after (.ite releaseShared_keeps freeBuf_keeps)

theorem returnStarted_keeps {s : State} {d : Nat} {qs : List Nat} : Keeps [.cte, .qba] s (returnStarted s d qs) := by
  unfold returnStarted
  dsimp -proj only
  exact .foldr (fun _ _ => State.modLq_keeps.mono) keeps_cte.mono

theorem readmit_keeps {s : State} {a : Admit} {i : LQItem} : Keeps [.regs, .bpm, .qba, .ssc, .rsq, .gwe] s (readmit s a i) := by
  unfold readmit
  dsimp -proj only
  exact .ite (State.modLq_keeps.after (admitOne_keeps.after State.modLq_keeps.mono)) (admitOne_keeps.after State.modLq_keeps.mono)

theorem refloodTo_keeps {p : Nat} {h : Hand} {places : List (Nat × LQItem)} {ws : List Admit} {s : State} : Keeps [.regs, .bpm, .qba, .ssc, .rsq, .gwe] s (refloodTo p h places ws s) := by
  unfold refloodTo
  dsimp -proj only
  split
  · exact .refl
  · exact .foldl (fun _ _ => readmit_keeps) ((keeps_qba).after floodCopies_keeps.mono)

theorem resend_keeps {p : Nat} {ws : List Admit} {s : State} {h : Hand} : Keeps [.regs, .bpm, .qba, .ssc, .rsq, .gwe] s (resend p ws s h) := by
  unfold resend
  dsimp -proj only
  exact .ite .refl (settleLocal_keeps.after (.ite (refloodTo_keeps.after (keeps_rsq.after State.bump_keeps.mono)) (.foldl (fun _ _ => pushAdmit_keeps.mono) (.foldl (fun _ _ => readmit_keeps) (keeps_rsq.after State.bump_keeps.mono)))))

theorem redirectHands_keeps {s : State} {d : Nat} {ws : List Admit} : Keeps [.regs, .bpm, .qba, .ssc, .rsq, .gwe] s (redirectHands s d ws) := by
  unfold redirectHands
  dsimp -proj only
  exact .foldl (fun _ _ => resend_keeps) (keeps_qba).mono

theorem answerPosts_keeps {s : State} {d : Nat} : Keeps [.cra, .tdx] s (answerPosts s d) := by
  unfold answerPosts
  dsimp -proj only
  exact keeps_tdx.after (.foldl (fun _ _ => answerPost_keeps.mono) .refl)

theorem adoptQueues_keeps {s : State} {takes : Bool} {again : LQItem → Bool} {p : Nat} {qs : List Nat} : Keeps [.regs, .bpm, .qba] s (adoptQueues s takes again p qs).2 := by
  unfold adoptQueues
  dsimp -proj only
  exact .snd (State.bumpN_keeps.after (.foldl (fun _ _ => State.modLq_keeps.mono) (.foldl (fun _ _ => freeMirror_keeps.mono) .refl)))

theorem dropOpen_keeps {s : State} {d p : Nat} : Keeps [.regs, .cte, .bpm, .qba, .ssc] s (dropOpen s d p) := by
  unfold dropOpen
  dsimp -proj only
  refine (keeps_ssc).after (.foldl (fun t x => ?_) .refl)
  split
  · exact .refl
  · exact freeSegment_keeps.after (State.takeStaged_keeps.after State.bumpN_keeps.mono)

theorem dropPrefetch_keeps {s : State} {qs : List Nat} : Keeps [.cte, .ssc] s (dropPrefetch s qs) := by
  unfold dropPrefetch
  exact assignEngines_keeps.after (.foldl (fun _ _ => dropPf_keeps) .refl)

theorem adoptTask_keeps {s : State} {p : Nat} {t : Task} {e : Option Nat} : Keeps [.regs, .tdx] s (adoptTask s p t e).2 := by
  unfold adoptTask
  dsimp -proj only
  split
  · split
    · exact .snd placeReady_keeps.mono
    · exact .snd State.bump_keeps.mono
  · split
    · exact .snd State.setDelay_keeps.mono
    · exact .snd State.bump_keeps.mono

theorem bindFallback_keeps {s : State} {d p : Nat} : Keeps [.fwt] s (bindFallback s d p) := by
  unfold bindFallback
  refine .foldl (fun t x => ?_) .refl
  dsimp -proj only
  split
  · exact keeps_fwt.after State.modCtx_keeps
  · exact .refl

theorem elect_keeps {s : State} : Keeps [.regs, .plt] s (elect s) := by
  unfold elect
  dsimp -proj only
  exact State.bumpGen_keeps.after (keeps_plt).mono

theorem idlePorts_keeps {s : State} {d : Nat} : Keeps [.regs, .cte, .lpx, .bpm, .qba, .ssc, .gwe] s (idlePorts s d) := by
  unfold idlePorts
  refine .foldl (fun t x => ?_) .refl
  dsimp -proj only
  exact .ite reportLink_keeps State.modPtx_keeps.mono

theorem takeOver_keeps {s : State} {d : Nat} : Keeps [.regs] s (takeOver s d) := by
  unfold takeOver
  dsimp -proj only
  exact State.bumpGen_keeps.after State.setRf_keeps

theorem moveReceiver_keeps {s : State} {d : Nat} : Keeps [.regs, .phi] s (moveReceiver s d) := by
  unfold moveReceiver
  dsimp -proj only
  exact .ite .refl (State.bumpGen_keeps.after keeps_phi.mono)

theorem loseDie_keeps {s : State} {d : Nat} : Keeps [.regs, .cte, .lpx, .bpm, .qba, .ssc, .gwe] s (loseDie s d) := by
  unfold loseDie
  dsimp -proj only
  exact idlePorts_keeps.after (.ite (idlePorts_keeps.after State.setRf_keeps.mono) .refl)

theorem noteTemp_keeps {s : State} {d : Nat} {x : Sensor} {temp : Int} : Keeps [.regs, .glb] s (noteTemp s d x temp) := by
  unfold noteTemp
  dsimp -proj only
  exact .ite (State.setRf_keeps.after keeps_glb.mono) keeps_glb.mono

theorem noteTrip_keeps {s : State} {x : DieTrip} : Keeps [.regs, .glb, .gwe] s (noteTrip s x) := by
  unfold noteTrip
  dsimp -proj only
  exact State.raiseAt_keeps.after (State.bumpGen_keeps.after (State.setRf_keeps.after (keeps_glb.after noteTemp_keeps.mono)))

theorem execHeartbeat_keeps {d : Fin 8} {s : State} : Answers [.icu] s (execHeartbeat d s) := by
  unfold execHeartbeat
  exact .onDie (.ite .refl keeps_icu)

theorem laneFail_keeps {s : State} {d l : Nat} : Keeps [.regs, .gwe, .icu] s (laneFail s d l) := by
  unfold laneFail
  dsimp -proj only
  split
  · exact .refl
  · exact .ite .refl (.ite keeps_icu.mono (State.raiseEv_keeps.after (State.bumpGen_keeps.after (State.bumpGen_keeps.after keeps_icu.mono))))

theorem execLaneFail_keeps {d : Fin 8} {l : Fin 5} {s : State} : Answers [.regs, .gwe, .icu] s (execLaneFail d l s) := by
  unfold execLaneFail
  exact .onDie laneFail_keeps

theorem execFlitRetry_keeps {d : Fin 8} {l : Fin 5} {s : State} : Answers [.regs] s (execFlitRetry d l s) := by
  unfold execFlitRetry
  exact .onDie (.ite State.bump_keeps .refl)

theorem execPortIslandLost_keeps {d : Fin 8} {s : State} : Answers [.regs, .cte, .lpx, .bpm, .qba, .ssc, .gwe] s (execPortIslandLost d s) := by
  unfold execPortIslandLost
  exact .onDie (idlePorts_keeps.after keeps_lpx.mono)

theorem eccQuay_keeps {s : State} {d a : Nat} : Keeps [.regs, .bpm, .gwe] s (eccQuay s d a).2 := by
  unfold eccQuay
  dsimp -proj only
  split
  · split
    · exact .snd (keeps_bpm).mono
    · split
      · exact .snd (.ite (keeps_bpm).mono (State.quarantine_keeps.after (keeps_bpm).mono))
      · exact .refl
  · exact .refl

theorem eccPad_keeps {s : State} {d a : Nat} : Keeps [.cra] s (eccPad s d a).2 := by
  unfold eccPad
  dsimp -proj only
  split
  · exact .snd keeps_cra
  · exact .refl

theorem eccPs_keeps {s : State} {d a : Nat} : Keeps [.cra] s (eccPs s d a).2 := by
  unfold eccPs
  dsimp -proj only
  split
  · exact .snd keeps_cra
  · exact .refl

theorem eccHash_keeps {s : State} {d a : Nat} : Keeps [.regs, .fwt, .icu] s (eccHash s d a).2 := by
  unfold eccHash
  dsimp -proj only
  split
  · split
    · split
      · split
        · exact .snd keeps_icu.mono
        · exact .snd State.dropL2_keeps.mono
      · exact .snd (bumpFwt_keeps.after State.dropL2_keeps.mono)
    · exact .refl
  · split
    · split
      · exact .snd keeps_icu.mono
      · exact .snd (bumpFwt_keeps.after dropFlow_keeps.mono)
    · exact .refl

theorem failEntry_keeps {s : State} {d i : Nat} : Keeps [.icu] s (failEntry s d i) := by
  unfold failEntry
  exact .ite .refl keeps_icu

theorem eccTt_keeps {s : State} {d a : Nat} : Keeps [.cte] s (eccTt s d a).2 := by
  unfold eccTt
  exact .snd keeps_cte

theorem loseTask_keeps {s : State} {d : Nat} {t : Task} : Keeps [.regs, .bpm, .rsq, .cra] s (loseTask s d t) := by
  unfold loseTask
  dsimp -proj only
  split
  · exact retireTicket_keeps.after State.bump_keeps.mono
  · exact State.bump_keeps.mono

theorem eccTdx_keeps {s : State} {d a : Nat} : Keeps [.regs, .bpm, .rsq, .cra, .tdx] s (eccTdx s d a).2 := by
  unfold eccTdx
  dsimp -proj only
  split
  · split
    · exact .snd (loseTask_keeps.after State.setReady_keeps.mono)
    · exact .refl
  · split
    · split
      · exact .snd (loseTask_keeps.after State.setDelay_keeps.mono)
      · exact .refl
    · exact .snd keeps_tdx.mono

theorem eccSyu_keeps {s : State} {d a : Nat} : Keeps [.regs, .cra, .syu] s (eccSyu s d a).2 := by
  unfold eccSyu
  dsimp -proj only
  split
  · exact .snd abandonLock_keeps
  · split
    · exact .snd State.setEv_keeps.mono
    · split
      · exact .snd (State.bump_keeps.after State.setChan_keeps.mono)
      · exact .refl

theorem dropLearnReq_keeps {s : State} {d : Nat} {x : LearnReq} : Keeps [.fwt, .icu] s (dropLearnReq s d x) := by
  unfold dropLearnReq
  split
  · split
    · exact .ite State.dropL2_keeps .refl
    · exact .refl
  · exact .refl

theorem eccFrag_keeps {s : State} {d a : Nat} : Keeps [.regs, .cls, .fwt, .ssc, .icu] s (eccFrag s d a).2 := by
  unfold eccFrag
  split
  · split
    · exact .snd expireHeld_keeps.mono
    · exact .refl
  · split
    · exact .snd (State.bump_keeps.after (State.setLearnQ_keeps.after dropLearnReq_keeps.mono))
    · exact .refl

theorem mcsLast_keeps {s : State} {d kind a : Nat} : Keeps [.regs] s (mcsLast s d kind a) := by
  unfold mcsLast
  exact State.setReg_keeps

theorem mcsFound_keeps {s : State} {d a bits : Nat} : Keeps [.regs, .gwe, .plt] s (mcsFound s d a bits) := by
  unfold mcsFound
  dsimp -proj only
  exact .ite .refl (.ite (mcsLast_keeps.after State.bump_keeps.mono) (.ite (mcsLast_keeps.after State.bump_keeps.mono) (eccReport_keeps.after (mcsLast_keeps.after (State.bump_keeps.after (keeps_plt).mono)))))

theorem execMcsScrub_keeps {d : Fin 8} {a : Fin 16384} {bits : Nat} {s : State} : Answers [.regs, .gwe, .plt] s (execMcsScrub d a bits s) := by
  unfold execMcsScrub
  exact .onDie (.ite .refl mcsFound_keeps)

theorem mcsRepair_keeps {s : State} {d a : Nat} : Keeps [.regs, .gwe, .plt] s (mcsRepair s d a) := by
  unfold mcsRepair
  exact .ite (.ite (State.bump_keeps.after (keeps_plt).mono) State.raiseAt_keeps.mono) .refl

theorem execMcsRepair_keeps {d : Fin 8} {a : Fin 16384} {s : State} : Answers [.regs, .gwe, .plt] s (execMcsRepair d a s) := by
  unfold execMcsRepair
  exact .onDie (.ite .refl mcsRepair_keeps)

theorem passDone_keeps {s : State} {d : Nat} : Keeps [.regs, .icu] s (passDone s d) := by
  unfold passDone
  dsimp -proj only
  exact State.bump_keeps.after (keeps_icu.after (.foldl (fun _ _ => State.setRf_keeps.mono) .refl))

theorem hbmScrub_keeps {s : State} {d piece bad : Nat} : Keeps [.regs, .cte, .bpm, .qba, .ssc, .tdx, .gwe, .icu] s (hbmScrub s d piece bad) := by
  unfold hbmScrub
  dsimp -proj only
  exact .ite (passDone_keeps.after (.ite (readOutcome_keeps.after (pushPort_keeps.after (.ite .refl keeps_icu.mono))) (readParity_keeps.after (readOutcome_keeps.after (pushPort_keeps.after (.ite .refl keeps_icu.mono)))))) (.ite (readOutcome_keeps.after (pushPort_keeps.after (.ite .refl keeps_icu.mono))) (readParity_keeps.after (readOutcome_keeps.after (pushPort_keeps.after (.ite .refl keeps_icu.mono)))))

theorem execHbmScrub_keeps {d : Fin 8} {piece bad : Nat} {s : State} : Answers [.regs, .cte, .bpm, .qba, .ssc, .tdx, .gwe, .icu] s (execHbmScrub d piece bad s) := by
  unfold execHbmScrub
  exact .onDie (.ite .refl hbmScrub_keeps)

theorem execTableShadowCheck_keeps {d : Fin 8} {lpm : Bool} {i : Nat} {differs : Bool} {s : State} : Answers [.icu] s (execTableShadowCheck d lpm i differs s) := by
  unfold execTableShadowCheck
  exact .onDie (.ite .refl failEntry_keeps)

theorem tableRestore_keeps {s : State} {d : Nat} {lpm : Bool} {i : Nat} {good : Bool} : Keeps [.regs, .gwe, .icu] s (tableRestore s d lpm i good) := by
  unfold tableRestore
  dsimp -proj only
  exact .ite (.ite (State.bump_keeps.after keeps_icu.mono) (State.raiseEv_keeps.after (State.bumpGen_keeps.after (State.bumpF_keeps.after (keeps_icu.after (State.bump_keeps.after keeps_icu.mono)))))) .refl

theorem execTableRestore_keeps {d : Fin 8} {lpm : Bool} {i : Nat} {good : Bool} {s : State} : Answers [.regs, .gwe, .icu] s (execTableRestore d lpm i good s) := by
  unfold execTableRestore
  exact .onDie (.ite .refl tableRestore_keeps)

theorem staticRepair_keeps {s : State} {d : Nat} {t : Tbl} {i : Nat} : Keeps [.regs, .fwt, .gwe, .icu] s (staticRepair s d t i) := by
  unfold staticRepair
  dsimp -proj only
  split
  · split
    · exact .refl
    · split
      · split
        · split
          · exact State.bump_keeps.after (State.setL2_keeps.after keeps_icu.mono)
          · exact eccReport_keeps.after (bumpFwt_keeps.after (State.dropL2_keeps.after keeps_icu.mono))
        · exact keeps_icu.mono
      · split
        · split
          · exact State.bump_keeps.after (State.setFlow_keeps.after keeps_icu.mono)
          · exact eccReport_keeps.after (bumpFwt_keeps.after (dropFlow_keeps.after keeps_icu.mono))
        · exact keeps_icu.mono
      · exact .refl
  · split
    · exact .refl
    · split
      · split
        · split
          · exact State.bump_keeps.after (State.setL2_keeps.after keeps_icu.mono)
          · exact eccReport_keeps.after (bumpFwt_keeps.after (State.dropL2_keeps.after keeps_icu.mono))
        · exact keeps_icu.mono
      · split
        · split
          · exact State.bump_keeps.after (State.setFlow_keeps.after keeps_icu.mono)
          · exact eccReport_keeps.after (bumpFwt_keeps.after (dropFlow_keeps.after keeps_icu.mono))
        · exact keeps_icu.mono
      · exact .refl

theorem execStaticEntryRepair_keeps {d : Fin 8} {t : Tbl} {i : Nat} {s : State} : Answers [.regs, .fwt, .gwe, .icu] s (execStaticEntryRepair d t i s) := by
  unfold execStaticEntryRepair
  exact .onDie (.ite .refl staticRepair_keeps)

theorem execTimetableEntryRestore_keeps {off : Nat} {s : State} : Answers [.cte] s (execTimetableEntryRestore off s) := by
  unfold execTimetableEntryRestore
  exact .next keeps_cte

theorem execDrained_keeps {s : State} : Answers [.regs, .glb, .gwe] s (execDrained s) := by
  unfold execDrained
  exact .next (.ite (State.raiseEv_keeps.after keeps_glb.mono) .refl)

theorem repairStore_keeps {s : State} {a b : Nat} : Keeps [.regs, .plt] s (repairStore s a b) := by
  unfold repairStore
  dsimp -proj only
  exact .foldl (fun _ _ => State.bump_keeps.mono) (keeps_plt).mono

theorem putDigest_keeps {h : List Byte} {s : State} : Keeps [.regs] s (putDigest h s) := by
  unfold putDigest
  exact .foldl (fun _ _ => State.setReg_keeps) .refl

theorem sealFail_keeps {s : State} {hi lo v : Nat} : Keeps [.regs] s (sealFail s hi lo v) := by
  unfold sealFail
  exact State.setRf_keeps.after State.setRf_keeps

theorem sealStore_keeps {s : State} : Keeps [.regs, .plt] s (sealStore s).2 := by
  unfold sealStore
  dsimp -proj only
  split
  · exact .snd sealFail_keeps.mono
  · split
    · exact .snd (sealFail_keeps.after repairStore_keeps)
    · split
      · split
        · exact .snd (sealFail_keeps.after (repairStore_keeps.after repairStore_keeps))
        · split
          · exact .snd (sealFail_keeps.after (repairStore_keeps.after repairStore_keeps))
          · exact .snd (State.bumpGen_keeps.after (State.setRf_keeps.after (State.setRf_keeps.after (putDigest_keeps.after (repairStore_keeps.after repairStore_keeps)))))
      · split
        · exact .snd (sealFail_keeps.after repairStore_keeps)
        · split
          · exact .snd (sealFail_keeps.after repairStore_keeps)
          · exact .snd (State.bumpGen_keeps.after (State.setRf_keeps.after (State.setRf_keeps.after (putDigest_keeps.after repairStore_keeps))))

theorem enterMode_keeps {s : State} {m : Mode} {cause : Nat} : Keeps [.regs, .glb, .cte, .lpx, .cra, .gwe] s (enterMode s m cause) := by
  unfold enterMode
  dsimp -proj only
  exact .ite (.overDies (fun _ _ => startIdle_keeps.mono) (settleRounds_keeps.after State.setMode_keeps.mono)) (settleRounds_keeps.after State.setMode_keeps.mono)

theorem enterRun_keeps {s : State} : Keeps [.regs, .glb, .cte, .lpx, .cra, .gwe, .plt] s (enterRun s).2 := by
  unfold enterRun
  split
  · exact .refl
  · split
    · rename_i t he
      exact .snd (enterMode_keeps.after ((sealStore_keeps.of_eq he).mono))
    · rename_i t he
      exact .snd ((sealStore_keeps.of_eq he).mono)

theorem modeSet_keeps {s : State} {target : Nat} : Keeps [.regs, .glb, .cte, .lpx, .cra, .gwe, .plt] s (modeSet s target).2 := by
  unfold modeSet
  split
  · exact .refl
  · split
    · exact .refl
    · split
      · exact enterRun_keeps
      · split
        · exact .snd enterMode_keeps.mono
        · exact .refl

theorem orderReset_keeps {s : State} {cause : Nat} : Keeps [.glb] s (orderReset s cause).2 := by
  unfold orderReset
  exact .snd keeps_glb

theorem portDrain_keeps {s : State} {ports : Word} : Keeps [.regs, .lpx] s (portDrain s ports).2 := by
  unfold portDrain
  dsimp -proj only
  split
  · split
    · exact .refl
    · exact .snd (State.bumpGen_keeps.after (State.closeTails_keeps.after State.setReg_keeps.mono))
  · exact .refl

theorem abandonParse_keeps {d : Nat} {s : State} {x : Nat × Parsing} : Keeps [.prs] s (abandonParse d s x) := by
  unfold abandonParse
  dsimp -proj only
  exact keeps_prs

theorem prsRestart_keeps {s : State} {d : Nat} : Keeps [.prs] s (prsRestart s d) := by
  unfold prsRestart
  exact .foldl (fun _ _ => abandonParse_keeps) .refl

theorem clsRestart_keeps {s : State} {d : Nat} : Keeps [.regs, .cls, .fwt, .ssc] s (clsRestart s d) := by
  unfold clsRestart
  exact .foldl (fun _ _ => expireHeld_keeps) .refl

theorem fwtRestart_keeps {s : State} {d : Nat} : Keeps [.regs, .fwt] s (fwtRestart s d) := by
  unfold fwtRestart
  dsimp -proj only
  exact bumpFwt_keeps.after (keeps_fwt.after (State.setLearnQ_keeps.after State.bumpN_keeps.mono))

theorem unitStart_keeps {s : State} {d u : Nat} {t : State} : Keeps [.icu] t (unitStart s d u t).2 := by
  unfold unitStart
  exact .snd keeps_icu

theorem serveLate_keeps {s : State} {d : Nat} : Keeps [.regs, .fwt, .ssc, .cra] s (serveLate s d) := by
  unfold serveLate
  exact .foldl (fun _ _ => tableNow_keeps.mono) (keeps_cra).mono

theorem endOp_keeps {s : State} {slot : Nat} {st : Status} : Keeps [.regs, .gwe, .plt] s (endOp s slot st) := by
  unfold endOp
  split
  · next r hr =>
    split
    · exact .refl
    have hop : Keeps [.regs, .gwe, .plt] s { s with plt := { s.plt with ops := setNth s.plt.ops slot (some { r with ended := true, status := st, xing := s.phi.xing, step := s.phi.step }) } } :=
      (keeps_plt (ho := fun h => (List.length_set ..).trans h)).mono
    refine State.raiseEv_keeps.after ?_
    split
    · exact State.setRf_keeps.after ((keeps_plt).after hop)
    · exact hop
  · exact .refl

theorem abortOps_keeps {s : State} : Keeps [.regs, .gwe, .plt] s (abortOps s) := by
  unfold abortOps
  exact .foldl (fun _ _ => endOp_keeps) .refl

theorem finishWire_keeps {s : State} {p : Nat} : Keeps [.regs, .cte, .bpm, .qba, .ssc] s (finishWire s p) := by
  unfold finishWire
  dsimp -proj only
  exact State.modPtx_keeps.after (.foldl (fun _ _ => releaseItem_keeps.after State.modLq_keeps.mono) .refl)

theorem settleWrites_keeps {s : State} : Keeps [.cte, .bpm, .qba, .ssc] s (settleWrites s) := by
  unfold settleWrites
  dsimp -proj only
  refine (keeps_ssc).after (.foldl (fun t x => ?_) .refl)
  split
  · exact .ite (freeSegment_keeps.after (dropStagedMirrors_keeps.after State.setSeg_keeps.mono)) (dropStagedMirrors_keeps.after State.setSeg_keeps.mono)
  · exact .refl

theorem closeAll_keeps {s : State} : Keeps [.regs, .cte, .bpm, .qba, .ssc] s (closeAll s) := by
  unfold closeAll
  dsimp -proj only
  exact settleWrites_keeps.after (.foldl (fun _ _ => closeSegment_keeps.mono) closeFresh_keeps.mono)

theorem clearDie_keeps {s : State} {d : Nat} : Keeps [.regs, .fwt, .bpm, .cra, .tdx, .syu, .icu] s (clearDie s d) := by
  unfold clearDie
  dsimp -proj only
  exact .foldl (fun _ _ => clearPool_keeps.mono) (clearAff_keeps.after (syuReset_keeps.after (State.modTrc_keeps.after (emptyLists_keeps.after fwtWarm_keeps.mono))))

theorem warmMcs_keeps {s : State} : Keeps [.regs, .gwe, .plt] s (warmMcs s) := by
  unfold warmMcs
  exact .foldl (fun _ _ => .ite mcsRepair_keeps .refl) .refl

theorem startDone_keeps {s : State} {kind cause : Nat} : Keeps [.regs, .free] s (startDone s kind cause) := by
  unfold startDone
  exact State.setReg_keeps.after (State.setReg_keeps.after State.takeFree_keeps.mono)

theorem warmFinish_keeps {s : State} : Keeps [.regs, .glb, .cte, .lpx, .bpm, .qba, .ssc, .gwe, .plt, .free] s (warmFinish s) := by
  unfold warmFinish
  dsimp -proj only
  split
  · exact .refl
  · exact State.raiseEv_keeps.after (State.setMode_keeps.after (keeps_glb.after (startDone_keeps.after (elect_keeps.after (warmMcs_keeps.after checkRecords_keeps.mono)))))

theorem useHeard_keeps {s : State} : Keeps [.gwe] s (useHeard s) := by
  unfold useHeard
  exact keeps_gwe

theorem execHostWdogExpiry_keeps {s : State} : Answers [.regs, .glb, .cte, .lpx, .gwe] s (execHostWdogExpiry s) := by
  unfold execHostWdogExpiry
  refine .next ?_
  dsimp -proj only
  exact .ite useHeard_keeps.mono (.ite (State.raiseEv_keeps.after (State.bumpGen_keeps.after (keeps_glb.after (settleRounds_keeps.after State.setMode_keeps.mono)))) .refl)

theorem execHostAttachmentLink_keeps {b : Bool} {up : LinkReport} {s : State} : Answers [.gwe] s (execHostAttachmentLink b up s) := by
  cases b
  · exact .next (.ite (keeps_gwe) .refl)
  · exact .next (.ite (keeps_gwe) .refl)

theorem execHostFailover_keeps {s : State} : Answers [.regs, .gwe] s (execHostFailover s) := by
  unfold execHostFailover
  refine .next ?_
  dsimp -proj only
  exact .ite (State.raiseEv_keeps.after (State.bumpGen_keeps.after (keeps_gwe).mono)) .refl

theorem startFail_keeps {steps : List Nat} {d : Nat} {s : State} : Keeps [.regs] s (startFail steps d s) := by
  unfold startFail
  exact State.setRf_keeps

theorem releaseTrip_keeps {s : State} : Keeps [.glb] s (releaseTrip s) := by
  unfold releaseTrip
  exact keeps_glb

theorem loadIr_keeps {s : State} {c : BitVec 8} : Keeps [.glb] s (loadIr s c) := by
  unfold loadIr
  dsimp -proj only
  exact keeps_glb.after keeps_glb

theorem powerTap_keeps {s : State} : Keeps [.glb] s (powerTap s) := by
  unfold powerTap
  exact loadIr_keeps

theorem execResetNRelease_keeps {s : State} : Answers [.glb] s (execResetNRelease s) := by
  unfold execResetNRelease
  exact .next keeps_glb

theorem relock_keeps {s : State} : Keeps [.lpx, .gwe] s (relock s) := by
  unfold relock
  dsimp -proj only
  exact (keeps_gwe).after (.foldl (fun _ _ => holdsAfter_keeps.after State.modLnk_keeps.mono) .refl)

theorem clockEvent_keeps {s : State} {b : Bool} : Keeps [.regs, .gwe] s (clockEvent s b) := by
  unfold clockEvent
  dsimp -proj only
  exact State.raiseEv_keeps.after State.bumpGen_keeps.mono

theorem thermWarn_keeps {s : State} {d : Nat} {x : Sensor} {temp : Int} : Keeps [.regs, .glb, .gwe] s (thermWarn s d x temp) := by
  unfold thermWarn
  dsimp -proj only
  exact .ite (State.raiseAt_keeps.after (State.bumpGen_keeps.after (keeps_glb.after noteTemp_keeps.mono))) (.ite (keeps_glb.after noteTemp_keeps.mono) noteTemp_keeps.mono)

theorem execThermWarn_keeps {d : Fin 8} {s : Sensor} {temp : Int} {st : State} : Answers [.regs, .glb, .gwe] st (execThermWarn d s temp st) := by
  unfold execThermWarn
  exact .onDie (.ite thermWarn_keeps .refl)

theorem clearRc_keeps {s : State} {r : Reg} {d : Nat} {idx : List Nat} : Keeps [.regs] s (clearRc s r d idx) := by
  unfold clearRc
  dsimp -proj only
  exact .ite .refl State.setReg_keeps

theorem rdWaitSlots_keeps {s : State} {d k : Nat} : Keeps [.cra, .free] s (rdWaitSlots s d k).2.2 := by
  unfold rdWaitSlots
  dsimp -proj only
  split
  · exact .snd₂ ((keeps_cra).after State.takeFree_keeps.mono)
  · exact .refl

theorem readReg_keeps {s : State} {r : Reg} {d : Nat} {idx : List Nat} : Keeps [.regs, .bpm, .qba, .cra, .free] s (readReg s r d idx).2.2 := by
  unfold readReg
  dsimp -proj only
  split
  · exact .snd₂ rdNowXing_keeps.mono
  · exact .snd₂ rdQdata_keeps.mono
  · exact rdDbgLo_keeps.mono
  · split
    · exact .refl
    · exact .refl
  · split
    · exact rdWaitSlots_keeps.mono
    · exact .snd₂ clearRc_keeps.mono
  · exact .snd₂ (keeps_bpm).mono
  · exact .snd₂ clearRc_keeps.mono

theorem retick_keeps {s : State} {old : Nat} : Keeps [.phi] s (retick s old) := by
  unfold retick
  exact keeps_phi

theorem wrPlain_keeps {s : State} {r : Reg} {d : Nat} {idx : List Nat} {w : Word} : Keeps [.regs, .phi] s (wrPlain s r d idx w).2 := by
  unfold wrPlain
  dsimp -proj only
  split
  · exact .refl
  · split
    · exact .refl
    · split
      · exact .refl
      · exact .snd (.ite (retick_keeps.after State.setReg_keeps.mono) State.setReg_keeps.mono)

theorem okBytes_keeps {s : State} {l : List Byte} : Keeps [] s (okBytes s l).2.2 := by
  unfold okBytes
  exact .refl

theorem freeBytesRead_keeps {s : State} {n : Nat} : Keeps [.free] s (freeBytesRead s n).2.2 := by
  unfold freeBytesRead
  exact .snd₂ State.takeFree_keeps

theorem noUnit_keeps {s : State} : Keeps [] s (noUnit s).2.2 := by
  unfold noUnit
  exact .refl

theorem readRegUnit_keeps {s : State} {off : Nat} : Keeps [.regs, .bpm, .qba, .cra, .free] s (readRegUnit s off).2.2 := by
  unfold readRegUnit
  split
  · split
    · rename_i t he
      split
      · exact .snd₂ (readReg_keeps.of_eq₂ he)
      · exact .refl
  · exact noUnit_keeps.mono

theorem readMcs_keeps {s : State} {off : Nat} : Keeps [.free] s (readMcs s off).2.2 := by
  unfold readMcs
  split
  · split
    · exact noUnit_keeps.mono
    · split
      · exact freeBytesRead_keeps
      · split
        · exact okBytes_keeps.mono
        · exact okBytes_keeps.mono
  · exact noUnit_keeps.mono

theorem dropMcsHeld_keeps {s : State} {w : Nat} : Keeps [.plt] s (dropMcsHeld s w) := by
  unfold dropMcsHeld
  exact keeps_plt

theorem storeMcs_keeps {s : State} {w : Nat} {v : BitVec 128} : Keeps [.regs, .plt] s (storeMcs s w v) := by
  unfold storeMcs
  dsimp -proj only
  exact State.setRf_keeps.after ((keeps_plt).after State.setMcs_keeps.mono)

theorem commitMcs_keeps {s : State} {w : Nat} {v : Word} : Keeps [.regs, .plt] s (commitMcs s w v).2 := by
  unfold commitMcs
  dsimp -proj only
  split
  · exact .snd dropMcsHeld_keeps.mono
  · exact .snd (storeMcs_keeps.after dropMcsHeld_keeps.mono)

theorem writeMcs_keeps {s : State} {off : Nat} {v : Word} : Keeps [.regs, .plt] s (writeMcs s off v).2 := by
  unfold writeMcs
  dsimp -proj only
  split
  · split
    · exact .refl
    · split
      · exact .refl
      · split
        · exact commitMcs_keeps
        · split
          · exact .refl
          · exact .snd (keeps_plt).mono
  · split
    · exact .refl
    · exact .refl
  · exact .refl

theorem readPad_keeps {s : State} {unit off : Nat} : Keeps [.free] s (readPad s unit off).2.2 := by
  unfold readPad
  split
  · split
    · exact freeBytesRead_keeps
    · exact okBytes_keeps.mono
  · exact noUnit_keeps.mono

theorem writePad_keeps {s : State} {off : Nat} {l : List Byte} : Keeps [.cra] s (writePad s off l).2 := by
  unfold writePad
  split
  · exact .snd State.putPad_keeps
  · exact .refl

theorem readQuay_keeps {s : State} {unit off : Nat} : Keeps [.free] s (readQuay s unit off).2.2 := by
  unfold readQuay
  split
  · split
    · exact freeBytesRead_keeps
    · exact okBytes_keeps.mono
  · exact noUnit_keeps.mono

theorem writeQuay_keeps {s : State} {off : Nat} {l : List Byte} : Keeps [.bpm] s (writeQuay s off l).2 := by
  unfold writeQuay
  split
  · exact .refl
  split
  · exact .refl
  · exact keeps_bpm (hq := putBytes_wf _ _ _)

theorem readStage_keeps {s : State} {unit off : Nat} : Keeps [.regs, .ssc] s (readStage s unit off).2.2 := by
  unfold readStage
  split
  · exact okBytes_keeps.after windowPiece_keeps
  · exact noUnit_keeps.mono

theorem readPs_keeps {s : State} {off : Nat} : Keeps [.free] s (readPs s off).2.2 := by
  unfold readPs
  split
  · split
    · split
      · exact freeBytesRead_keeps
      · exact okBytes_keeps.mono
  · exact noUnit_keeps.mono

theorem storePs_keeps {s : State} {w : Nat} {v : Word} : Keeps [.cra] s (storePs s w v) := by
  unfold storePs
  exact .foldl (fun _ _ => keeps_cra) .refl

theorem writePs_keeps {s : State} {off : Nat} {v : Word} : Keeps [.cra] s (writePs s off v).2 := by
  unfold writePs
  split
  · split
    · exact .refl
    · split
      · exact .refl
      · exact .snd storePs_keeps
  · exact .refl

theorem readBankCnt_keeps {s : State} {b i : Nat} : Keeps [.cte] s (readBankCnt s b i).2.2 := by
  unfold readBankCnt
  dsimp -proj only
  split
  · exact .snd₂ State.modBank_keeps
  · exact .snd₂ State.modBank_keeps
  · exact .snd₂ State.modBank_keeps
  · exact okBytes_keeps.mono

theorem readQueueCnt_keeps {s : State} {q i : Nat} : Keeps [.qba] s (readQueueCnt s q i).2.2 := by
  unfold readQueueCnt
  dsimp -proj only
  split
  · exact .snd₂ State.modLq_keeps
  · exact .snd₂ State.modLq_keeps
  · exact .snd₂ State.modLq_keeps
  · exact .snd₂ State.modLq_keeps
  · exact okBytes_keeps.mono
  · exact okBytes_keeps.mono

theorem readTt_keeps {s : State} {off : Nat} : Keeps [.cte, .qba] s (readTt s off).2.2 := by
  unfold readTt
  split
  · exact readBankCnt_keeps.mono
  · exact readQueueCnt_keeps.mono
  · exact okBytes_keeps.mono
  · exact noUnit_keeps.mono

theorem dropWinHeld_keeps {s : State} {copy b w : Nat} : Keeps [.cte] s (dropWinHeld s copy b w) := by
  unfold dropWinHeld
  exact keeps_cte

theorem putWindow_keeps {s : State} {copy b w : Nat} {w0 w1 w2 w3 : Word} : Keeps [.cte] s (putWindow s copy b w w0 w1 w2 w3) := by
  unfold putWindow
  dsimp -proj only
  exact keeps_cte.after (State.setTt_keeps.after (State.setTt_keeps.after (State.setTt_keeps.after State.setTt_keeps)))

theorem commitWindow_keeps {s : State} {copy b w : Nat} {v : Word} : Keeps [.cte] s (commitWindow s copy b w v).2 := by
  unfold commitWindow
  dsimp -proj only
  split
  · exact .snd dropWinHeld_keeps
  · split
    · exact .snd (putWindow_keeps.after dropWinHeld_keeps)
    · exact .snd dropWinHeld_keeps

theorem holdWindow_keeps {s : State} {copy b w i : Nat} {v : Word} : Keeps [.cte] s (holdWindow s copy b w i v).2 := by
  unfold holdWindow
  dsimp -proj only
  split
  · exact .refl
  · exact .snd keeps_cte

theorem holdServed_keeps {s : State} {b off : Nat} : Keeps [.cte] s (holdServed s b off) := by
  unfold holdServed
  dsimp -proj only
  exact .ite State.modPtx_keeps .refl

theorem putTt_keeps {s : State} {off : Nat} {v : Word} : Keeps [.cte] s (putTt s off v).2 := by
  unfold putTt
  dsimp -proj only
  exact .snd (keeps_cte.after State.setTt_keeps)

theorem writeBank_keeps {s : State} {b off : Nat} {v : Word} : Keeps [.cte] s (writeBank s b off v).2 := by
  unfold writeBank
  dsimp -proj only
  split
  · exact .refl
  · exact putTt_keeps.after holdServed_keeps

theorem writeTt_keeps {s : State} {off : Nat} {v : Word} : Keeps [.cte] s (writeTt s off v).2 := by
  unfold writeTt
  split
  · split
    · exact commitWindow_keeps
    · exact holdWindow_keeps
  · split
    · exact writeBank_keeps
    · exact .refl
  · exact putTt_keeps.after (.ite holdServed_keeps .refl)
  · exact .refl
  · exact .refl

theorem readTc_keeps {s : State} {off : Nat} : Keeps [] s (readTc s off).2.2 := by
  unfold readTc
  split
  · exact okBytes_keeps
  · exact noUnit_keeps

theorem writeTcCtl_keeps {s : State} {d i : Nat} {v : Word} : Keeps [.cls] s (writeTcCtl s d i v).2 := by
  unfold writeTcCtl
  dsimp -proj only
  split
  · split
    · exact .refl
    · split
      · exact .refl
      · exact .snd (State.setTc_keeps.after State.setTc_keeps)
  · exact .snd State.setTc_keeps

theorem writeTc_keeps {s : State} {off : Nat} {v : Word} : Keeps [.cls] s (writeTc s off v).2 := by
  unfold writeTc
  split
  · split
    · exact .refl
    · split
      · split
        · exact .refl
        · exact .snd State.setTc_keeps
      · split
        · exact writeTcCtl_keeps
        · exact .refl
  · exact .refl

theorem readLpm_keeps {s : State} {off : Nat} : Keeps [] s (readLpm s off).2.2 := by
  unfold readLpm
  split
  · exact okBytes_keeps
  · exact noUnit_keeps

theorem writeLpm_keeps {s : State} {off : Nat} {v : Word} : Keeps [.fwt] s (writeLpm s off v).2 := by
  unfold writeLpm
  split
  · split
    · exact .refl
    · exact .snd State.setLpm_keeps
  · exact .refl

theorem readTrace_keeps {s : State} {unit off : Nat} : Keeps [.ssc] s (readTrace s unit off).2.2 := by
  unfold readTrace
  dsimp -proj only
  split
  · exact okBytes_keeps.after (.ite .refl windowSpill_keeps)
  · exact noUnit_keeps.mono

theorem readUnit_keeps {s : State} {space unit off : Nat} : Keeps [.regs, .cte, .bpm, .qba, .ssc, .cra, .free] s (readUnit s space unit off).2.2 := by
  unfold readUnit
  split
  · exact readRegUnit_keeps.mono
  · exact readMcs_keeps.mono
  · exact readPad_keeps.mono
  · exact readQuay_keeps.mono
  · exact readStage_keeps.mono
  · exact readPs_keeps.mono
  · exact readTt_keeps.mono
  · exact readTc_keeps.mono
  · exact readLpm_keeps.mono
  · exact readTrace_keeps.mono
  · exact noUnit_keeps.mono

theorem State.setOp_keeps {s : State} {i : Nat} {r : Option OpRec} : Keeps [.plt] s (s.setOp i r) :=
  keeps_plt (fun h => by rw [← h]; exact List.length_set)

theorem startOp_keeps {s : State} {i : Nat} {kind : OpKind} : Keeps [.plt] s (startOp s i kind).2 := by
  unfold startOp
  dsimp -proj only
  exact .snd ((keeps_plt).after State.setOp_keeps)

theorem takeOp_keeps {s : State} {kind : OpKind} : Keeps [.plt] s (takeOp s kind).2.2 := by
  unfold takeOp
  split
  · exact .refl
  · split
    · rename_i t he
      exact .snd₂ (startOp_keeps.of_eq he)

theorem longFill_keeps {s : State} {a : LongArgs} : Keeps [.plt] s (longFill s a).2.2 := by
  unfold longFill
  split
  · exact takeOp_keeps
  · exact .refl

theorem longCrc_keeps {s : State} {a : LongArgs} : Keeps [.plt] s (longCrc s a).2.2 := by
  unfold longCrc
  split
  · exact takeOp_keeps
  · exact .refl

theorem longClear_keeps {s : State} {a : LongArgs} : Keeps [.plt] s (longClear s a).2.2 := by
  unfold longClear
  split
  · exact .refl
  · split
    · exact .refl
    · exact takeOp_keeps

theorem longOp_keeps {s : State} {kind : Nat} {a : LongArgs} : Keeps [.plt] s (longOp s kind a).2.2 := by
  unfold longOp
  split
  · exact longFill_keeps
  · exact longCrc_keeps
  · exact longClear_keeps
  · exact .refl

theorem execLongFill_keeps {a : LongArgs} {s : State} : Answers [.gwe, .plt] s (execLongFill a s) := by
  unfold execLongFill
  exact .next (hostOp_keeps longFill_keeps.mono)

theorem execLongCrc_keeps {a : LongArgs} {s : State} : Answers [.gwe, .plt] s (execLongCrc a s) := by
  unfold execLongCrc
  exact .next (hostOp_keeps longCrc_keeps.mono)

theorem execLongTblClear_keeps {a : LongArgs} {s : State} : Answers [.gwe, .plt] s (execLongTblClear a s) := by
  unfold execLongTblClear
  exact .next (hostOp_keeps longClear_keeps.mono)

theorem abortOp_keeps {s : State} {opid : Nat} : Keeps [.regs, .gwe, .plt] s (abortOp s opid).2.2 := by
  unfold abortOp
  split
  · exact .refl
  · split
    · split
      · exact .refl
      · exact .snd₂ endOp_keeps
    · exact .refl

theorem statusOp_keeps {s : State} {opid : Nat} {release : Bool} : Keeps [.plt] s (statusOp s opid release).2.2 := by
  unfold statusOp
  split
  · exact .refl
  · split
    · exact .refl
    · split
      · exact .refl
      · split
        · exact .refl
        · split
          · exact .refl
          · exact .snd₂ State.setOp_keeps

theorem execAbort_keeps {opid : BitVec 16} {s : State} : Answers [.regs, .gwe, .plt] s (execAbort opid s) := by
  unfold execAbort
  exact .next (hostOp_keeps abortOp_keeps)

theorem execStatus_keeps {opid : BitVec 16} {release : Bool} {s : State} : Answers [.gwe, .plt] s (execStatus opid release s) := by
  unfold execStatus
  exact .next (hostOp_keeps statusOp_keeps.mono)

theorem verifyPatch_keeps {s : State} {i : Nat} : Keeps [.regs, .gwe, .plt, .free] s (verifyPatch s i) := by
  unfold verifyPatch
  dsimp -proj only
  split
  · exact .refl
  · split
    · exact endOp_keeps.after (State.setOp_keeps.after State.takeFree_keeps.mono)
    · exact (keeps_plt).after State.setOp_keeps.mono

theorem putPiece_keeps {s : State} {a : PatchArgs} : Keeps [.plt] s (putPiece s a) := by
  unfold putPiece
  dsimp -proj only
  exact keeps_plt

theorem startPatch_keeps {s : State} {i : Nat} : Keeps [.regs, .plt] s (startPatch s i) := by
  unfold startPatch
  dsimp -proj only
  exact State.setRf_keeps.after ((keeps_plt).after startOp_keeps.mono)

theorem patchOp_keeps {s : State} {a : PatchArgs} : Keeps [.regs, .gwe, .plt, .free] s (patchOp s a).2.2 := by
  unfold patchOp
  dsimp -proj only
  split
  · exact .refl
  · split
    · exact .refl
    · split
      · split
        · exact .refl
        · exact .snd₂ (.ite (verifyPatch_keeps.after (startPatch_keeps.after putPiece_keeps.mono)) (startPatch_keeps.after putPiece_keeps.mono))
      · exact .snd₂ putPiece_keeps.mono

theorem execPatch_keeps {a : PatchArgs} {s : State} : Answers [.regs, .gwe, .plt, .free] s (execPatch a s) := by
  unfold execPatch
  refine .next (hostOp_keeps ?_)
  split
  · exact patchOp_keeps
  · exact .refl

theorem logPatch_keeps {s : State} {typ pver : Nat} {p : Payload} : Keeps [.regs] s (logPatch s typ pver p) := by
  unfold logPatch
  dsimp -proj only
  exact State.setReg_keeps.after (.ite (State.setReg_keeps.after State.setReg_keeps) .refl)

theorem keepPatch_keeps {s : State} {typ pver : Nat} {p : Payload} : Keeps [.regs, .plt] s (keepPatch s typ pver p) := by
  unfold keepPatch
  dsimp -proj only
  exact .ite (.ite (State.setRf_keeps.after (keeps_plt).mono) (keeps_plt).mono) (keeps_plt).mono

theorem storeCode_keeps {s : State} {a : Nat} {w : Word} : Keeps [.plt] s (storeCode s a w) := by
  unfold storeCode
  exact keeps_plt

theorem applyPatch_keeps {s : State} {i : Nat} : Keeps [.regs, .gwe, .plt] s (applyPatch s i) := by
  unfold applyPatch
  dsimp -proj only
  split
  · exact .refl
  · exact endOp_keeps.after (State.setRf_keeps.after (keepPatch_keeps.after (logPatch_keeps.after (.foldl (fun _ _ => storeCode_keeps.mono) (.foldl (fun _ _ => storeMcs_keeps.mono) .refl)))))

theorem patchApply_keeps {s : State} : Keeps [.regs, .gwe, .plt, .free] s (patchApply s) := by
  unfold patchApply
  dsimp -proj only
  split
  · exact .refl
  · exact .ite .refl (.ite (applyPatch_keeps.after (.ite .refl verifyPatch_keeps)) (.ite .refl verifyPatch_keeps))

theorem execPatchApply_keeps {s : State} : Answers [.regs, .gwe, .plt, .free] s (execPatchApply s) := by
  unfold execPatchApply
  exact .next patchApply_keeps

theorem usePn_keeps {s : State} : Keeps [.regs, .gwe] s (usePn s) := by
  unfold usePn
  dsimp -proj only
  split
  · exact .refl
  · exact .ite (State.raiseEv_keeps.after (keeps_gwe).mono) (keeps_gwe).mono

theorem putTx_keeps {s : State} {x : GwTx} {tag : Option SecTag} : Keeps [.regs, .gwe] s (putTx s x tag) := by
  unfold putTx
  exact State.bump_keeps.after (keeps_gwe).mono

theorem transmit_keeps {s : State} {x : GwTx} : Keeps [.regs, .gwe] s (transmit s x) := by
  unfold transmit
  dsimp -proj only
  exact .ite .refl (putTx_keeps.after (.ite usePn_keeps .refl))

theorem usePrior_keeps {s : State} : Keeps [.gwe] s (usePrior s) := by
  unfold usePrior
  exact keeps_gwe

theorem transmitPrior_keeps {s : State} {x : GwTx} : Keeps [.regs, .gwe] s (transmitPrior s x) := by
  unfold transmitPrior
  exact .ite .refl (putTx_keeps.after usePrior_keeps.mono)

theorem identifyOp_keeps {s : State} {hnonce : List Byte} : Keeps [.gwe] s (identifyOp s hnonce).2.2 := by
  unfold identifyOp
  exact .snd₂ keeps_gwe

theorem newAssoc_keeps {s : State} {a : ClaimArgs} : Keeps [.free] s (newAssoc s a).2 := by
  unfold newAssoc
  dsimp -proj only
  split
  · split
    · exact .refl
    · exact .snd State.takeFree_keeps
  · exact .refl

theorem enrolKey_keeps {s : State} {k : List Byte} : Keeps [.regs, .gwe, .plt] s (enrolKey s k) := by
  unfold enrolKey
  dsimp -proj only
  exact State.setRf_keeps.after ((keeps_gwe).after (.ite .refl (keeps_plt).mono))

theorem dropSessions_keeps {s : State} : Keeps [.regs, .gwe] s (dropSessions s) :=
  .foldl (fun _ _ => State.bumpGen_keeps.mono) ((keeps_gwe (hs := fun _ => rfl)).mono)

theorem startTraining_keeps {s : State} : Keeps [.ssc] s (startTraining s) := by
  unfold startTraining
  exact .ite .refl keeps_ssc

theorem acceptClaim_keeps {s : State} {a : ClaimArgs} : Keeps [.regs, .glb, .lpx, .ssc, .gwe, .plt, .free] s (acceptClaim s a).2 := by
  unfold acceptClaim
  dsimp -proj only
  exact .snd (.ite (startTraining_keeps.after (State.setMode_keeps.after (State.bumpGen_keeps.after ((keeps_gwe).after (.ite (dropSessions_keeps.after (enrolKey_keeps.after newAssoc_keeps.mono)) (enrolKey_keeps.after newAssoc_keeps.mono)))))) (State.bumpGen_keeps.after ((keeps_gwe).after (.ite (dropSessions_keeps.after (enrolKey_keeps.after newAssoc_keeps.mono)) (enrolKey_keeps.after newAssoc_keeps.mono)))))

theorem claimOp_keeps {s : State} {a : ClaimArgs} : Keeps [.regs, .glb, .lpx, .ssc, .gwe, .plt, .free] s (claimOp s a).2.2 := by
  unfold claimOp
  split
  · split
    · exact .refl
    · split
      · exact .refl
      · exact .snd₂ acceptClaim_keeps
  · split
    · exact .refl
    · exact .snd₂ acceptClaim_keeps

theorem State.modSess_keeps {s : State} {i : Nat} {f : Sess → Sess} : Keeps [.gwe] s (s.modSess i f) :=
  keeps_gwe (hs := fun h => (List.length_set ..).trans h)

theorem openOp_keeps {s : State} {i seq : Nat} {evt : Bool} : Keeps [.regs, .gwe] s (openOp s i seq evt).2.2 := by
  unfold openOp
  exact .snd₂ (State.bumpGen_keeps.after State.modSess_keeps.mono)

theorem closeSess_keeps {s : State} {i : Nat} : Keeps [.regs, .gwe] s (closeSess s i) := by
  unfold closeSess
  exact .ite (State.bumpGen_keeps.after State.modSess_keeps.mono) .refl

theorem winSetOp_keeps {s : State} {i space unit off : Nat} : Keeps [.gwe] s (winSetOp s i space unit off).2.2 := by
  unfold winSetOp
  split
  · exact .refl
  · exact .snd₂ State.modSess_keeps

theorem moveWindow_keeps {s : State} {i n : Nat} : Keeps [.gwe] s (moveWindow s i n) := by
  unfold moveWindow
  exact State.modSess_keeps

theorem hostSess_keeps {l : List Piece} {s : State} {op i : Nat} {f : TblAns} (h : Keeps l s f.2.2) (hg : [.gwe] ⊆ l := by exact within rfl) : Keeps l s (hostSess s op i f) := by
  refine hostOp_keeps ?_ hg
  split
  · exact h
  · exact .refl

theorem hostOpIn_keeps {l : List Piece} {s : State} {op : Nat} {ok : Bool} {f : TblAns} (h : Keeps l s f.2.2) (hg : [.gwe] ⊆ l := by exact within rfl) : Keeps l s (hostOpIn s op ok f) := by
  cases ok
  · exact (keeps_gwe).mono hg
  · exact (keeps_gwe).after h hg

theorem execIdentify_keeps {hnonce : List Byte} {s : State} : Answers [.gwe] s (execIdentify hnonce s) := by
  unfold execIdentify
  exact .next (hostOpIn_keeps identifyOp_keeps)

theorem execClaim_keeps {a : ClaimArgs} {s : State} : Answers [.regs, .glb, .lpx, .ssc, .gwe, .plt, .free] s (execClaim a s) := by
  unfold execClaim
  exact .next (hostOpIn_keeps claimOp_keeps)

theorem execOpenSession_keeps {i : Fin 4} {seq : Word} {evt : Bool} {s : State} : Answers [.regs, .gwe] s (execOpenSession i seq evt s) := by
  unfold execOpenSession
  exact .next (hostOp_keeps openOp_keeps)

theorem execClose_keeps {i : Fin 4} {s : State} : Answers [.regs, .gwe] s (execClose i s) := by
  unfold execClose
  exact .next (hostSess_keeps closeSess_keeps)

theorem execWinSet_keeps {i : Fin 4} {space unit : Nat} {off : BitVec 64} {s : State} : Answers [.gwe] s (execWinSet i space unit off s) := by
  unfold execWinSet
  exact .next (hostSess_keeps winSetOp_keeps)

theorem evackOp_keeps {s : State} {n : Nat} : Keeps [.gwe] s (evackOp s n).2.2 := by
  unfold evackOp
  split
  · exact .refl
  split
  · exact keeps_gwe (he := fun h => (List.length_filter_le ..).trans h)
  · exact .refl

theorem refuse_keeps {s : State} {f : GwReq} {st : Status} : Keeps [.regs, .gwe] s (refuse s f st) := by
  unfold refuse
  exact transmit_keeps

theorem raiseH_keeps {s : State} {f : GwReq} : Keeps [.gwe] s (raiseH s f) := by
  unfold raiseH
  exact .ite .refl State.modSess_keeps

theorem keepReply_keeps {s : State} {f : GwReq} {r : GwTx} : Keeps [.gwe] s (keepReply s f r) := by
  unfold keepReply
  exact .ite .refl State.modSess_keeps

theorem answerFrame_keeps {s : State} {f : GwReq} {r : GwTx} : Keeps [.regs, .gwe] s (answerFrame s f r) := by
  unfold answerFrame
  exact .ite transmitPrior_keeps transmit_keeps

theorem sendReply_keeps {before s : State} {f : GwReq} {r : GwTx} : Keeps [.regs, .gwe] s (sendReply before s f r) := by
  unfold sendReply
  exact .ite answerFrame_keeps (.ite .refl (putTx_keeps.after (.ite usePrior_keeps.mono .refl)))

theorem noteHost_keeps {s : State} {peer : Option (Nat × Nat)} : Keeps [.gwe] s (noteHost s peer) := by
  unfold noteHost
  dsimp -proj only
  split
  · exact keeps_gwe
  · exact .refl

theorem holdFrame_keeps {s : State} {f : GwFrame} : Keeps [.gwe] s (holdFrame s f) := by
  unfold holdFrame
  exact keeps_gwe

theorem losePatch_keeps {s : State} : Keeps [.regs, .gwe, .plt] s (losePatch s) := by
  unfold losePatch
  dsimp -proj only
  refine (keeps_plt).after ?_
  split
  · exact endOp_keeps
  · exact .refl

theorem execEvack_keeps {eseq : Word} {s : State} : Answers [.gwe] s (execEvack eseq s) := by
  unfold execEvack
  exact .next (hostOp_keeps evackOp_keeps)

theorem markSent_keeps {l : List EvRec} {s : State} : Keeps [.gwe] s (markSent l s) :=
  keeps_gwe (he := fun h => (List.length_map ..).trans_le h)

theorem eventSend_keeps {s : State} {n : Nat} : Keeps [.regs, .gwe] s (eventSend s n) := by
  unfold eventSend
  dsimp -proj only
  exact .ite .refl (markSent_keeps.after transmit_keeps)

theorem execEventSend_keeps {n : Nat} {s : State} : Answers [.regs, .gwe] s (execEventSend n s) := by
  unfold execEventSend
  exact .next eventSend_keeps

theorem freeExc_keeps {s : State} {e : Exc} : Keeps [.bpm] s (freeExc s e) := by
  unfold freeExc
  exact freeBoth_keeps

theorem exceptionSend_keeps {s : State} : Keeps [.regs, .bpm, .gwe] s (exceptionSend s) := by
  unfold exceptionSend
  dsimp -proj only
  split
  · exact .refl
  · exact .ite (State.bump_keeps.after (freeExc_keeps.after (keeps_gwe).mono)) (.ite (State.bump_keeps.after (freeExc_keeps.after (keeps_gwe).mono)) (.ite .refl (.ite (State.bump_keeps.after (freeExc_keeps.after (keeps_gwe).mono)) (State.bump_keeps.after (freeExc_keeps.after (transmit_keeps.after ((keeps_gwe).after (keeps_gwe).mono)))))))

theorem execExceptionSend_keeps {s : State} : Answers [.regs, .bpm, .gwe] s (execExceptionSend s) := by
  unfold execExceptionSend
  exact .next exceptionSend_keeps

theorem execArpRequest_keeps {b : Bool} {target : ArpTarget} {s : State} : Answers [.regs, .gwe] s (execArpRequest b target s) := by
  unfold execArpRequest
  exact .next (.ite .refl (.ite State.bump_keeps.mono (.ite (keeps_gwe).mono .refl)))

theorem lockGrant_keeps {s : State} {d l : Nat} : Keeps [.cra] s (lockGrant s d l) := by
  unfold lockGrant
  split
  · refine State.modThr_keeps (fun x hx => ?_)
    split
    · exact Thr.done_rise _ _ hx
    · exact hx
  · exact .refl

theorem execLockGrant_keeps {d : Fin 8} {l : Fin 16384} {s : State} : Answers [.regs, .cra, .syu] s (execLockGrant d l s) := by
  unfold execLockGrant
  exact onCra_answers lockGrant_keeps.mono

theorem dbgSet_keeps {s : State} {d n r : Nat} {v : DWord} : Keeps [.cra] s (dbgSet s d n r v) := by
  refine State.modThr_keeps (fun x hx => ?_)
  split
  · split
    · exact hx
    · exact hx
  · exact Thr.set_rise _ _ hx

theorem wrDbgHi_keeps {s : State} {d : Nat} {w : Word} : Keeps [.regs, .cra] s (wrDbgHi s d w).2 := by
  unfold wrDbgHi
  dsimp -proj only
  split
  · exact .refl
  · split
    · exact .refl
    · exact .snd (dbgSet_keeps.after State.setReg_keeps.mono)

theorem execDbgRegWrite_keeps {d : Fin 8} {w : Word} {s : State} : Answers [.regs, .cra, .gwe] s (execDbgRegWrite d w s) := by
  unfold execDbgRegWrite
  exact hostDieWr_answers wrDbgHi_keeps.mono

/-- The word that is kept is named first: applied, the kernel would evaluate it. -/
theorem wrSuper_keeps {s : State} {d k : Nat} {w : Word} : Keeps [.regs, .cra] s (wrSuper s d k w).2 := by
  obtain ⟨f, e⟩ : ∃ f, f = @wrSuper := ⟨_, rfl⟩
  obtain ⟨keep, hk⟩ : ∃ x, x = packWord [(31, fld w 31 31), (0, fld w 5 0)] := ⟨_, rfl⟩
  rw [← e]
  delta wrSuper at e
  rw [e]
  beta_reduce
  rw [← hk]
  dsimp only
  split
  · exact .refl
  · exact .snd (bumpCra_keeps.after (noteHelped_keeps.after State.setReg_keeps.mono))

theorem runFlow_keeps {s : State} {d p : Nat} {a : BitVec 128} {v : List Byte} : Keeps [.regs, .fwt, .ssc, .free] s (runFlow s d p a v).2.2.2 := by
  have hl (prof : Nat) (key : List Byte) := flowLookup_keeps (s := s) (d := d) (prof := prof) (key := key)
  unfold runFlow
  split
  · exact .refl
  dsimp only
  split
  · rename_i e t he
    exact ((hl _ _).of_eq he).mono
  · rename_i t he
    have ht := ((hl _ _).of_eq he).mono (l := [.regs, .fwt, .ssc, .free])
    split
    · rename_i c u hu
      exact (flowInsert_keeps.of_eq hu).comp ht
    · rename_i u hu
      exact .snd₃ (State.bump_keeps.after ((flowInsert_keeps.of_eq hu).comp ht))

theorem applyRule_keeps {s : State} {d p i : Nat} {a : BitVec 128} {v : List Byte} : Keeps [.regs, .fwt, .ssc, .free] s (applyRule s d p i a v).2 := by
  unfold applyRule
  exact .snd (runLearn_keeps.after (runFlow_keeps.comp runLookups_keeps.mono))

theorem selectGroups_keeps {s : State} {b off bps : Nat} {x : List Nat} : Keeps [.cte, .qba] s (selectGroups s b off bps x).2 := by
  induction x generalizing s with
  | nil =>
    unfold selectGroups
    exact .refl
  | cons y x ih =>
    unfold selectGroups
    dsimp -proj only
    split
    · split
      · rename_i t he
        exact .snd (skipHeads_keeps.after ((drrPick_keeps.of_eq₂ he).mono))
      · rename_i t he
        exact ih.comp (skipHeads_keeps.after ((drrPick_keeps.of_eq₂ he).mono))
    · exact ih.mono

theorem portPick_keeps {p off bps x : Nat} {x1 : Bool} {x2 : State} : Keeps [.cte, .qba] x2 (portPick p off bps x x1 x2).2 := by
  induction x generalizing x1 x2 with
  | zero =>
    unfold portPick
    exact .refl
  | succ x ih =>
    unfold portPick
    dsimp -proj only
    split
    · split
      · split
        · rename_i t he
          exact .snd (State.modPtx_keeps.after (selectGroups_keeps.of_eq he))
        · rename_i t he
          exact ih.comp (State.modPtx_keeps.after (selectGroups_keeps.of_eq he))
      · exact ih.comp State.modPtx_keeps.mono
    · split
      · exact ih.comp State.modPtx_keeps.mono
      · split
        · exact .refl
        · exact ih.comp State.modPtx_keeps.mono

theorem startOn_keeps {s : State} {p : Nat} : Keeps [.regs, .cte, .bpm, .qba, .ssc] s (startOn s p) := by
  unfold startOn
  dsimp -proj only
  split
  · split
    · rename_i t he
      exact startFrame_keeps.after ((portPick_keeps.of_eq he).after settleRound_keeps.mono)
    · rename_i t he
      exact (portPick_keeps.of_eq he).after settleRound_keeps.mono
  · exact .refl

theorem execDepartureStart_keeps {p : Fin 32} {s : State} : Answers [.regs, .cte, .bpm, .qba, .ssc] s (execDepartureStart p s) := by
  unfold execDepartureStart
  exact .onDie startOn_keeps

theorem copyFrames_keeps {q old : Nat} {x : List LQItem} {x1 : List Nat} {x2 : State} : Keeps [.regs, .qba, .ssc] x2 (copyFrames q old x x1 x2).2 := by
  induction x generalizing x1 x2 with
  | nil =>
    unfold copyFrames
    exact .refl
  | cons y x ih =>
    unfold copyFrames
    dsimp -proj only
    split
    · rename_i t he
      exact .snd (freshRoom_keeps.of_eq he)
    · rename_i t he
      split
      · exact .snd (freshRoom_keeps.of_eq he)
      · refine ih.comp ?_
        split
        · refine closeFresh_keeps.after ?_
          split
          · exact State.setSeg_keeps.after (State.modLq_keeps.after (appendTo_keeps.after (freshRoom_keeps.of_eq he)))
          · exact State.modLq_keeps.after (appendTo_keeps.after (freshRoom_keeps.of_eq he))
        · split
          · exact State.setSeg_keeps.after (State.modLq_keeps.after (appendTo_keeps.after (freshRoom_keeps.of_eq he)))
          · exact State.modLq_keeps.after (appendTo_keeps.after (freshRoom_keeps.of_eq he))

theorem rebuildOne_keeps {s : State} {q j : Nat} {picks : List Nat} : Keeps [.regs, .cte, .qba, .ssc, .gwe] s (rebuildOne s q j picks) := by
  unfold rebuildOne
  dsimp -proj only
  split
  · exact rebuildWait_keeps.after State.setRebuild_keeps.mono
  · rename_i t he
    exact .ite (closeFresh_keeps.after (.overDies (fun _ _ => State.bump_keeps.mono) (freeSegment_keeps.after ((copyFrames_keeps.of_eq he).after State.setRebuild_keeps.mono)))) (.overDies (fun _ _ => State.bump_keeps.mono) (freeSegment_keeps.after ((copyFrames_keeps.of_eq he).after State.setRebuild_keeps.mono)))

theorem execRebuildSegment_keeps {picks : List Nat} {s : State} : Answers [.regs, .cte, .qba, .ssc, .gwe] s (execRebuildSegment picks s) := by
  unfold execRebuildSegment
  refine .next ?_
  dsimp -proj only
  split
  · exact .refl
  · split
    · exact .refl
    · split
      · exact .ite (.ite closeFresh_keeps.mono .refl) (rebuildDone_keeps.after (.ite closeFresh_keeps.mono .refl))
      · split
        · split
          · exact closeFresh_keeps.mono
          · split
            · exact closeFresh_keeps.mono
            · exact .ite (rebuildReads_keeps.after closeFresh_keeps.mono) (.ite closeFresh_keeps.mono (rebuildOne_keeps.after closeFresh_keeps.mono))
        · split
          · exact .refl
          · split
            · exact .refl
            · exact .ite rebuildReads_keeps.mono (.ite .refl rebuildOne_keeps)

theorem applySource_keeps {s : State} {src : Nat} : Keeps [.regs, .phi, .cte, .qba, .ssc, .gwe] s (applySource s src) := by
  have ht : Keeps [.regs, .phi, .cte, .qba, .ssc, .gwe] s (setPhase { s with phi := { s.phi with adopt := none } } .none .none) := setPhase_keeps.after keeps_phi.mono
  unfold applySource
  generalize setPhase _ _ _ = t at ht ⊢
  dsimp only
  split
  · exact consider_keeps.after (setPhase_keeps.after ht)
  · refine stepBanks_keeps.after (beginCrossing_keeps.after (reportJump_keeps.after (phEvent_keeps.after (setPhase_keeps.after ?_))))
    exact .comp (t := t) (.and_cte keeps_phi.mono) ht
  · exact ht

theorem wrPhiCtrl_keeps {s : State} {w : Word} : Keeps [.regs, .phi, .cte, .qba, .ssc, .gwe] s (wrPhiCtrl s w).2 := by
  unfold wrPhiCtrl
  dsimp -proj only
  split
  · exact .refl
  · split
    · exact .refl
    · split
      · exact .refl
      · split
        · exact .refl
        · exact .snd (.ite (State.setReg_keeps.after (keeps_cte.after settleCopy_keeps.mono)) (applySource_keeps.after (State.setReg_keeps.after (keeps_cte.after settleCopy_keeps.mono))))

theorem execPhiSourceSelect_keeps {w : Word} {s : State} : Answers [.regs, .phi, .cte, .qba, .ssc, .gwe] s (execPhiSourceSelect w s) := by
  unfold execPhiSourceSelect
  exact hostWr_answers wrPhiCtrl_keeps

theorem ripple_keeps {s : State} {d hole : Nat} {x : List Nat} : Keeps [.regs, .fwt] s (ripple s d hole x).2 := by
  induction x generalizing s hole with
  | nil =>
    unfold ripple
    exact .refl
  | cons y x ih =>
    unfold ripple
    dsimp -proj only
    exact ih.comp (State.bump_keeps.after (State.setLpm_keeps.after State.setLpm_keeps.mono))

/-! One die's part of a table write. -/

theorem l2Write_keeps {s t : State} {d : Nat} {body : List Byte} (h : l2Write s d body = some t) : Keeps [.fwt, .icu] s t := by
  unfold l2Write at h
  dsimp only at h
  split at h
  · obtain rfl := Option.some.inj h
    exact State.setL2_keeps.after State.dropL2_keeps
  · obtain ⟨slot, -, rfl⟩ := Option.map_eq_some_iff.mp h
    exact State.setL2_keeps.mono

theorem flowWrite_keeps {s t : State} {d : Nat} {body : List Byte} (h : flowWrite s d body = some t) : Keeps [.fwt, .icu] s t := by
  unfold flowWrite at h
  dsimp only at h
  split at h
  · obtain rfl := Option.some.inj h
    exact State.modCtx_keeps.after (State.setFlow_keeps.after dropFlow_keeps)
  · obtain ⟨slot, -, rfl⟩ := Option.map_eq_some_iff.mp h
    exact State.modCtx_keeps.after State.setFlow_keeps.mono

theorem lpmWrite_keeps {s t : State} {d : Nat} {body : List Byte} (h : lpmWrite s d body = some t) : Keeps [.regs, .fwt] s t := by
  unfold lpmWrite at h
  dsimp only at h
  split at h
  · obtain rfl := Option.some.inj h
    exact State.setLpm_keeps.mono
  split at h
  · exact nomatch h
  split at h
  · obtain rfl := Option.some.inj h
    exact State.setLpm_keeps.mono
  · obtain rfl := Option.some.inj h
    exact State.setLpm_keeps.after ripple_keeps

theorem tblWrite_keeps {s t : State} {table d : Nat} {body : List Byte} (h : tblWrite s table d body = some t) : Keeps [.regs, .fwt, .icu] s t := by
  unfold tblWrite at h
  split at h
  · exact (l2Write_keeps h).mono
  split at h
  · exact (flowWrite_keeps h).mono
  · exact (lpmWrite_keeps h).mono

theorem tblInsert_keeps {s : State} {a : TblArgs} : Keeps [.regs, .fwt, .icu] s (tblInsert s a).2.2 := by
  unfold tblInsert
  dsimp only
  split
  · exact .refl
  split
  · exact .refl
  split
  · exact .refl
  refine .snd₂ (.overDies (fun d t => ?_) .refl)
  cases h : tblWrite t a.table d a.body with
  | none => exact .refl
  | some u => exact tblWrite_keeps h

theorem releaseRun_keeps {s : State} {d c x : Nat} : Keeps [.regs, .fwt, .bpm, .qba, .ssc, .rsq, .gwe] s (releaseRun s d c x) := by
  induction x generalizing s with
  | zero =>
    unfold releaseRun
    exact .refl
  | succ x ih =>
    unfold releaseRun
    split
    · exact .ite (ih.comp releaseHead_keeps) .refl
    · exact .refl

theorem skipRun_keeps {s : State} {d c x : Nat} : Keeps [.regs, .fwt, .ssc, .rsq] s (skipRun s d c x) := by
  induction x generalizing s with
  | zero =>
    unfold skipRun
    exact .refl
  | succ x ih =>
    unfold skipRun
    split
    · exact .ite .refl (ih.comp skipHead_keeps)
    · exact .refl

theorem skipGap_keeps {s : State} {d c : Nat} : Keeps [.regs, .fwt, .bpm, .qba, .ssc, .rsq, .gwe] s (skipGap s d c) := by
  unfold skipGap
  dsimp -proj only
  exact regap_keeps.after (releaseRun_keeps.after skipRun_keeps.mono)

theorem gapTimeout_keeps {s : State} {d c : Nat} : Keeps [.regs, .fwt, .bpm, .qba, .ssc, .rsq, .gwe] s (gapTimeout s d c) := by
  unfold gapTimeout
  dsimp -proj only
  split
  · exact .ite skipGap_keeps .refl
  · exact .refl

theorem robError_keeps {s : State} {d t : Nat} : Keeps [.regs, .fwt, .bpm, .qba, .ssc, .rsq, .gwe] s (robError s d t) := by
  unfold robError
  dsimp -proj only
  split
  · exact .refl
  · split
    · exact .ite (regap_keeps.after (releaseRun_keeps.after (retireNotice_keeps.after (State.setRob_keeps.after State.bump_keeps.mono)))) (regap_keeps.after (State.setRob_keeps.after State.bump_keeps.mono))
    · exact .refl
    · exact .ite (regap_keeps.after (releaseRun_keeps.after (retireNotice_keeps.after (dropRob_keeps.after State.bump_keeps.mono)))) (regap_keeps.after (dropRob_keeps.after State.bump_keeps.mono))
    · exact .ite (regap_keeps.after (releaseRun_keeps.after (retireNotice_keeps.after (dropRob_keeps.after (State.bump_keeps.after (dropFrame_keeps.after State.bump_keeps.mono)))))) (regap_keeps.after (dropRob_keeps.after (State.bump_keeps.after (dropFrame_keeps.after State.bump_keeps.mono))))

theorem execGapTimeout_keeps {d : Fin 8} {c : Fin 65536} {s : State} : Answers [.regs, .fwt, .bpm, .qba, .ssc, .rsq, .gwe] s (execGapTimeout d c s) := by
  unfold execGapTimeout
  exact .onDie gapTimeout_keeps

theorem hostCraWr_answers {l : List Piece} {s : State} {d : Nat} {f : State → Ans} (h : Keeps l s (f s).2) (hm : [.regs, .syu, .gwe] ⊆ l := by exact within rfl) :
    Answers l s (hostCraWr s d f) := by
  have hl : [.regs, .syu] ⊆ l := List.Subset.trans (l₂ := [.regs, .syu, .gwe]) (within rfl) hm
  have hg : [.gwe] ⊆ l := List.Subset.trans (l₂ := [.regs, .syu, .gwe]) (within rfl) hm
  exact hostDieWr_answers (f := fun s => ((f s).1, lapse (f s).2 d)) (.snd (lapse_keeps.after h hl)) hg

theorem execHostLockForce_keeps {d : Fin 8} {w : Tied Word} {s : State} : Answers [.regs, .cra, .syu, .gwe] s (execHostLockForce d w s) := by
  unfold execHostLockForce
  exact hostCraWr_answers hostForce_keeps.mono

theorem execHostEventSignal_keeps {d : Fin 8} {w : Word} {s : State} : Answers [.regs, .cra, .syu, .gwe] s (execHostEventSignal d w s) := by
  unfold execHostEventSignal
  exact hostCraWr_answers wrEvHsig_keeps.mono

theorem execHostChannelPut_keeps {d : Fin 8} {w : Word} {s : State} : Answers [.regs, .cra, .syu, .gwe] s (execHostChannelPut d w s) := by
  unfold execHostChannelPut
  exact hostCraWr_answers wrChHput_keeps.mono

theorem restartThread_keeps {s : State} {d n who : Nat} : Keeps [.regs, .fwt, .bpm, .ssc, .rsq, .cra, .tdx, .syu, .gwe, .free] s (restartThread s d n who) := by
  unfold restartThread
  dsimp -proj only
  split
  · exact .refl
  · exact trace_keeps.after ((keeps_cra).after (bumpCra_keeps.after (State.bump_keeps.after (.comp (.mono (m := [.cra]) (State.modThr_keeps fun _ _ => rfl)) releaseHeld_keeps.mono))))

theorem threadCtl_keeps {s : State} {d op n exp : Nat} : Keeps [.regs, .fwt, .bpm, .ssc, .rsq, .cra, .tdx, .syu, .gwe, .free] s (threadCtl s d op n exp).2 := by
  unfold threadCtl
  split
  · exact .refl
  · split
    · exact .refl
    · split
      · exact .snd stopThread_keeps.mono
      · split
        · exact .snd restartThread_keeps
        · split
          · exact .refl
          · split
            · exact .snd haltThread_keeps.mono
            · split
              · exact .snd resumeThread_keeps.mono
              · exact .snd stepThread_keeps.mono

theorem wrThreadCtl_keeps {s : State} {d : Nat} {w : Word} : Keeps [.regs, .fwt, .bpm, .ssc, .rsq, .cra, .tdx, .syu, .gwe, .free] s (wrThreadCtl s d w).2 := by
  unfold wrThreadCtl
  exact threadCtl_keeps

theorem execThreadStop_keeps {d : Fin 8} {n : Fin 384} {exp : Tied (BitVec 16)} {s : State} : Answers [.regs, .cra, .syu, .gwe] s (execThreadStop d n exp s) := by
  unfold execThreadStop
  refine hostCraWr_answers ?_
  split
  · exact .snd stopUnless_keeps.mono
  · exact .refl

theorem execThreadRestart_keeps {d : Fin 8} {n : Fin 384} {exp : BitVec 16} {s : State} : Answers [.regs, .fwt, .bpm, .ssc, .rsq, .cra, .tdx, .syu, .gwe, .free] s (execThreadRestart d n exp s) := by
  unfold execThreadRestart
  exact hostCraWr_answers threadCtl_keeps

theorem execThreadHalt_keeps {d : Fin 8} {n : Fin 384} {exp : BitVec 16} {s : State} : Answers [.regs, .fwt, .bpm, .ssc, .rsq, .cra, .tdx, .syu, .gwe, .free] s (execThreadHalt d n exp s) := by
  unfold execThreadHalt
  exact hostCraWr_answers threadCtl_keeps

theorem execThreadResume_keeps {d : Fin 8} {n : Fin 384} {exp : BitVec 16} {s : State} : Answers [.regs, .fwt, .bpm, .ssc, .rsq, .cra, .tdx, .syu, .gwe, .free] s (execThreadResume d n exp s) := by
  unfold execThreadResume
  exact hostCraWr_answers threadCtl_keeps

theorem execThreadStep_keeps {d : Fin 8} {n : Fin 384} {exp : BitVec 16} {s : State} : Answers [.regs, .fwt, .bpm, .ssc, .rsq, .cra, .tdx, .syu, .gwe, .free] s (execThreadStep d n exp s) := by
  unfold execThreadStep
  exact hostCraWr_answers threadCtl_keeps

theorem execPilotThreadRestart_keeps {d : Fin 8} {n : Fin 384} {s : State} : Answers [.regs, .fwt, .bpm, .ssc, .rsq, .cra, .tdx, .syu, .gwe, .free] s (execPilotThreadRestart d n s) := by
  unfold execPilotThreadRestart
  exact onCra_answers (.ite restartThread_keeps .refl)

theorem execDebugEnClear_keeps {d : Fin 8} {w : Word} {s : State} : Answers [.regs, .cra, .tdx, .syu, .gwe, .free] s (execDebugEnClear d w s) := by
  unfold execDebugEnClear
  exact hostCraWr_answers wrCraCfg_keeps

theorem loadArgs_rise {t : Thr} (a : List DWord) (h : mrise 0 t.g = true) : mrise 0 (loadArgs t a).g = true := by
  unfold loadArgs
  generalize List.range 6 = l
  induction l generalizing t with
  | nil => exact h
  | cons i l ih => exact ih (Thr.set_rise _ _ h)

theorem deliver_keeps {s : State} {d n : Nat} {t : Task} {hit : Bool} : Keeps [.regs, .cra, .tdx, .gwe, .free] s (deliver s d n t hit) := by
  unfold deliver
  generalize hu : s.setReady d t.list (lrem t (s.readyList d t.list)) = u
  have ku : Keeps [.regs, .cra, .tdx, .gwe, .free] s u := hu ▸ State.setReady_keeps.mono
  dsimp -proj only
  refine trace_keeps.after (State.takeFree_keeps.after ?_)
  have kv : Keeps [.regs, .cra, .tdx, .gwe, .free] s ((u.modThr d n (fun x => (({ loadArgs x t.args with pc := t.entry, st := .run, ticket := t.ticket, task := t.ticket.isNone, list := t.list, slots := 0, helped := false, since := 0, waited := false } : Thr).settle))).bump .TDX_DELIVERED d) :=
    State.bump_keeps.after (.comp (.mono (m := [.cra]) (State.modThr_keeps fun _ h => Thr.settle_rise (loadArgs_rise _ h))) ku)
  generalize State.bump _ _ _ = v at kv ⊢
  exact .ite (keeps_tdx.after (.ite (State.bump_keeps.after kv) kv)) (.ite (State.bump_keeps.after kv) kv)

theorem tryFallback_keeps {s : State} {d : Nat} {t : Task} : Keeps [.regs, .cra, .tdx, .gwe, .free] s (tryFallback s d t).2 := by
  unfold tryFallback
  split
  · split
    rename_i v u he
    split
    · exact .snd (deliver_keeps.comp (State.takeFree_keeps.of_eq he).mono)
    · exact .refl
  · exact .refl

theorem considerTask_keeps {s : State} {d : Nat} {t : Task} : Keeps [.regs, .cra, .tdx, .gwe, .free] s (considerTask s d t).2 := by
  unfold considerTask
  split
  · exact tryFallback_keeps
  · split
    · exact tryFallback_keeps
    · split
      · split
        · exact tryFallback_keeps.after waitUnserved_keeps.mono
        · exact .snd (.ite .refl modTask_keeps.mono)
      · dsimp -proj only
        split
        · exact .snd (deliver_keeps.after State.takeFree_keeps.mono)
        · exact .refl

theorem considerList_keeps {s : State} {d : Nat} {x : List Task} : Keeps [.regs, .cra, .tdx, .gwe, .free] s (considerList s d x).2 := by
  induction x generalizing s with
  | nil =>
    unfold considerList
    exact .refl
  | cons y x ih =>
    unfold considerList
    dsimp -proj only
    split
    · exact .snd considerTask_keeps
    · exact ih.comp considerTask_keeps

theorem tryLists_keeps {s : State} {d prio : Nat} {x : List Nat} : Keeps [.regs, .cra, .tdx, .gwe, .free] s (tryLists s d prio x).2 := by
  induction x generalizing s with
  | nil =>
    unfold tryLists
    exact .refl
  | cons y x ih =>
    unfold tryLists
    dsimp -proj only
    split
    · exact .snd (keeps_tdx.after considerList_keeps)
    · exact ih.comp considerList_keeps

theorem tryPrios_keeps {s : State} {d : Nat} {x : List Nat} : Keeps [.regs, .cra, .tdx, .gwe, .free] s (tryPrios s d x) := by
  induction x generalizing s with
  | nil =>
    unfold tryPrios
    exact .refl
  | cons y x ih =>
    unfold tryPrios
    dsimp -proj only
    exact .ite tryLists_keeps (ih.comp tryLists_keeps)

theorem execTaskDeliver_keeps {d : Fin 8} {s : State} : Answers [.regs, .cra, .tdx, .syu, .gwe, .free] s (execTaskDeliver d s) := by
  unfold execTaskDeliver
  exact onCra_answers (.ite tryPrios_keeps.mono .refl)

theorem affWaitEnd_keeps {s : State} {d l : Nat} : Keeps [.regs, .cra, .tdx, .gwe, .free] s (affWaitEnd s d l) := by
  unfold affWaitEnd
  split
  · exact .refl
  · split
    · exact .ite (tryFallback_keeps.after waitUnserved_keeps.mono) considerTask_keeps
    · exact considerTask_keeps

theorem execAffinityWaitEnd_keeps {d : Fin 8} {l : Fin 64} {s : State} : Answers [.regs, .cra, .tdx, .syu, .gwe, .free] s (execAffinityWaitEnd d l s) := by
  unfold execAffinityWaitEnd
  exact onCra_answers (.ite affWaitEnd_keeps.mono .refl)

theorem failRequest_rise {t : Thr} (back : List Nat) (h : mrise 0 t.g = true) : mrise 0 (failRequest back t).g = true := by
  unfold failRequest
  split
  · split
    · exact h
    · exact h
    · split
      · exact h
      · exact h
    · exact h
  · exact h

theorem tdxRestart_keeps {s : State} {d : Nat} : Keeps [.regs, .bpm, .rsq, .cra, .tdx] s (tdxRestart s d) := by
  unfold tdxRestart
  generalize (s.deferring d).filter _ = back
  generalize s.allTasks d = tasks
  dsimp -proj only
  refine State.bumpGen_keeps.after (.comp (.mono (m := [.cra]) (keeps_cra (ht := mmap_rise _ (fun e => ?_) _ _) (hg := mmap_all (p := fun x : Thr => mrise 0 x.g) _ (fun e he => ?_) _))) (.foldl (fun t x => ?_) emptyLists_keeps.mono))
  · split
    · rfl
    · rfl
  · split
    · exact failRequest_rise _ he
    · exact he
  · split
    · exact .ite .refl (State.bump_keeps.after retireTicket_keeps.mono)
    · exact State.bump_keeps.mono

theorem releaseFrags_keeps {s : State} {d after : Nat} {dec : Decision} {x : Nat} {x1 : List (Frame × List Byte)} : Keeps [.regs, .cls, .fwt, .ssc] s (releaseFrags s d after dec x x1) := by
  induction x1 generalizing s x with
  | nil =>
    unfold releaseFrags
    exact .refl
  | cons y x1 ih =>
    unfold releaseFrags
    dsimp -proj only
    exact ih.comp (joinWait_keeps.after applyRecorded_keeps.mono)

theorem recordFrag_keeps {s : State} {d : Nat} {f : Frame} {v : List Byte} {dec : Decision} : Keeps [.regs, .cls, .fwt, .ssc] s (recordFrag s d f v dec) := by
  unfold recordFrag
  split
  · exact .ite .refl (releaseFrags_keeps.after State.setFrag_keeps.mono)
  · split
    · exact State.setFrag_keeps.mono
    · exact State.bump_keeps.mono

theorem classify_keeps {s : State} {d : Nat} {f : Frame} {v : List Byte} {m : Option (Nat × BitVec 128)} : Keeps [.regs, .cls, .fwt, .ssc, .free] s (classify s d f v m) := by
  unfold classify
  dsimp -proj only
  split
  · exact laterFrag_keeps.mono
  · split
    · refine recordFrag_keeps.after (joinWait_keeps.after ?_)
      split
      · exact applyRule_keeps.mono
      · exact takeDefault_keeps.mono
    · refine joinWait_keeps.after ?_
      split
      · exact applyRule_keeps.mono
      · exact takeDefault_keeps.mono

theorem parseEnd_keeps {s : State} {d e : Nat} : Keeps [.regs, .prs, .cls, .fwt, .bpm, .ssc, .free] s (parseEnd s d e) := by
  unfold parseEnd
  dsimp -proj only
  split
  · exact .refl
  · split
    · exact .refl
    · split
      · refine keeps_cls.after ?_
        split
        · exact .snd (countParse_keeps.after (State.putQuay_keeps.after keeps_prs.mono))
        · exact tcSearch_keeps.after (countParse_keeps.after (State.putQuay_keeps.after keeps_prs.mono))
      · refine classify_keeps.after ?_
        split
        · exact .snd (countParse_keeps.after (State.putQuay_keeps.after keeps_prs.mono))
        · exact tcSearch_keeps.after (countParse_keeps.after (State.putQuay_keeps.after keeps_prs.mono))

theorem execParseEnd_keeps {d : Fin 8} {e : Fin 16} {s : State} : Answers [.regs, .prs, .cls, .fwt, .bpm, .ssc, .free] s (execParseEnd d e s) := by
  unfold execParseEnd
  exact .onDie parseEnd_keeps

theorem resumeLate_keeps {s : State} {d : Nat} : Keeps [.regs, .cls, .fwt, .ssc, .free] s (resumeLate s d) := by
  unfold resumeLate
  dsimp -proj only
  exact .foldl (fun _ _ => classify_keeps) keeps_cls.mono

theorem putResult_keeps {s : State} {d n rd : Nat} {v : DWord} : Keeps [.cra] s (putResult s d n rd v) := by
  unfold putResult
  exact State.modThr_keeps fun _ => Thr.set_rise _ _

theorem aluStep_keeps {d n : Nat} {i : RIns} {s : State} : Keeps [.cra] s (aluStep d n i s) := by
  unfold aluStep
  dsimp -proj only
  exact putResult_keeps

theorem bfxStep_keeps {d n : Nat} {i : RIns} {s : State} : Keeps [.cra] s (bfxStep d n i s) := by
  unfold bfxStep
  exact putResult_keeps

theorem bfiStep_keeps {d n : Nat} {i : RIns} {s : State} : Keeps [.cra] s (bfiStep d n i s) := by
  unfold bfiStep
  exact putResult_keeps

theorem jalStep_keeps {d n : Nat} {i : RIns} {s : State} : Keeps [.cra] s (jalStep d n i s) := by
  unfold jalStep
  exact State.modThr_keeps fun _ => Thr.set_rise _ _

theorem jrStep_keeps {d n : Nat} {i : RIns} {s : State} : Keeps [.regs, .cra, .tdx, .syu, .gwe, .free] s (jrStep d n i s) := by
  unfold jrStep
  dsimp -proj only
  exact .ite faultThread_keeps (.mono (m := [.cra]) (State.modThr_keeps fun _ => Thr.set_rise _ _))

theorem execAdd_keeps {d : Fin 8} {n : Fin 384} {s : State} : Answers [.regs, .cra, .tdx, .syu, .gwe, .free] s (execAdd d n s) := by
  unfold execAdd
  exact rolk_answers (fun _ _ => aluStep_keeps.mono)

theorem execSub_keeps {d : Fin 8} {n : Fin 384} {s : State} : Answers [.regs, .cra, .tdx, .syu, .gwe, .free] s (execSub d n s) := by
  unfold execSub
  exact rolk_answers (fun _ _ => aluStep_keeps.mono)

theorem execAndd_keeps {d : Fin 8} {n : Fin 384} {s : State} : Answers [.regs, .cra, .tdx, .syu, .gwe, .free] s (execAndd d n s) := by
  unfold execAndd
  exact rolk_answers (fun _ _ => aluStep_keeps.mono)

theorem execOrr_keeps {d : Fin 8} {n : Fin 384} {s : State} : Answers [.regs, .cra, .tdx, .syu, .gwe, .free] s (execOrr d n s) := by
  unfold execOrr
  exact rolk_answers (fun _ _ => aluStep_keeps.mono)

theorem execXorr_keeps {d : Fin 8} {n : Fin 384} {s : State} : Answers [.regs, .cra, .tdx, .syu, .gwe, .free] s (execXorr d n s) := by
  unfold execXorr
  exact rolk_answers (fun _ _ => aluStep_keeps.mono)

theorem execShl_keeps {d : Fin 8} {n : Fin 384} {s : State} : Answers [.regs, .cra, .tdx, .syu, .gwe, .free] s (execShl d n s) := by
  unfold execShl
  exact rolk_answers (fun _ _ => aluStep_keeps.mono)

theorem execShr_keeps {d : Fin 8} {n : Fin 384} {s : State} : Answers [.regs, .cra, .tdx, .syu, .gwe, .free] s (execShr d n s) := by
  unfold execShr
  exact rolk_answers (fun _ _ => aluStep_keeps.mono)

theorem execSar_keeps {d : Fin 8} {n : Fin 384} {s : State} : Answers [.regs, .cra, .tdx, .syu, .gwe, .free] s (execSar d n s) := by
  unfold execSar
  exact rolk_answers (fun _ _ => aluStep_keeps.mono)

theorem execRot_keeps {d : Fin 8} {n : Fin 384} {s : State} : Answers [.regs, .cra, .tdx, .syu, .gwe, .free] s (execRot d n s) := by
  unfold execRot
  exact rolk_answers (fun _ _ => aluStep_keeps.mono)

theorem execMinn_keeps {d : Fin 8} {n : Fin 384} {s : State} : Answers [.regs, .cra, .tdx, .syu, .gwe, .free] s (execMinn d n s) := by
  unfold execMinn
  exact rolk_answers (fun _ _ => aluStep_keeps.mono)

theorem execMaxx_keeps {d : Fin 8} {n : Fin 384} {s : State} : Answers [.regs, .cra, .tdx, .syu, .gwe, .free] s (execMaxx d n s) := by
  unfold execMaxx
  exact rolk_answers (fun _ _ => aluStep_keeps.mono)

theorem execMul_keeps {d : Fin 8} {n : Fin 384} {s : State} : Answers [.regs, .cra, .tdx, .syu, .gwe, .free] s (execMul d n s) := by
  unfold execMul
  exact rolk_answers (fun _ _ => aluStep_keeps.mono)

theorem execPopc_keeps {d : Fin 8} {n : Fin 384} {s : State} : Answers [.regs, .cra, .tdx, .syu, .gwe, .free] s (execPopc d n s) := by
  unfold execPopc
  exact rolk_answers (fun _ _ => aluStep_keeps.mono)

theorem execClz_keeps {d : Fin 8} {n : Fin 384} {s : State} : Answers [.regs, .cra, .tdx, .syu, .gwe, .free] s (execClz d n s) := by
  unfold execClz
  exact rolk_answers (fun _ _ => aluStep_keeps.mono)

theorem execOrShift16_keeps {d : Fin 8} {n : Fin 384} {s : State} : Answers [.regs, .cra, .tdx, .syu, .gwe, .free] s (execOrShift16 d n s) := by
  unfold execOrShift16
  exact rolk_answers (fun _ _ => aluStep_keeps.mono)

theorem execOrShift32_keeps {d : Fin 8} {n : Fin 384} {s : State} : Answers [.regs, .cra, .tdx, .syu, .gwe, .free] s (execOrShift32 d n s) := by
  unfold execOrShift32
  exact rolk_answers (fun _ _ => aluStep_keeps.mono)

theorem execOrShift48_keeps {d : Fin 8} {n : Fin 384} {s : State} : Answers [.regs, .cra, .tdx, .syu, .gwe, .free] s (execOrShift48 d n s) := by
  unfold execOrShift48
  exact rolk_answers (fun _ _ => aluStep_keeps.mono)

theorem execBfx_keeps {d : Fin 8} {n : Fin 384} {s : State} : Answers [.regs, .cra, .tdx, .syu, .gwe, .free] s (execBfx d n s) := by
  unfold execBfx
  exact rolk_answers (fun _ _ => bfxStep_keeps.mono)

theorem execBfi_keeps {d : Fin 8} {n : Fin 384} {s : State} : Answers [.regs, .cra, .tdx, .syu, .gwe, .free] s (execBfi d n s) := by
  unfold execBfi
  exact rolk_answers (fun _ _ => bfiStep_keeps.mono)

theorem execJal_keeps {d : Fin 8} {n : Fin 384} {s : State} : Answers [.regs, .cra, .tdx, .syu, .gwe, .free] s (execJal d n s) := by
  unfold execJal
  exact rolk_answers (fun _ _ => jalStep_keeps.mono)

theorem execJr_keeps {d : Fin 8} {n : Fin 384} {s : State} : Answers [.regs, .cra, .tdx, .syu, .gwe, .free] s (execJr d n s) := by
  unfold execJr
  exact rolk_answers (fun _ _ => jrStep_keeps)

theorem loadStep_keeps {d n size : Nat} {i : RIns} {s : State} : Keeps [.regs, .cra, .tdx, .syu, .gwe, .free] s (loadStep d n size i s) := by
  unfold loadStep
  dsimp -proj only
  split
  · exact faultThread_keeps
  · exact putResult_keeps.mono

theorem execLd8_keeps {d : Fin 8} {n : Fin 384} {s : State} : Answers [.regs, .cra, .tdx, .syu, .gwe, .free] s (execLd8 d n s) := by
  unfold execLd8
  exact rolk_answers (fun _ _ => loadStep_keeps)

theorem execLd16_keeps {d : Fin 8} {n : Fin 384} {s : State} : Answers [.regs, .cra, .tdx, .syu, .gwe, .free] s (execLd16 d n s) := by
  unfold execLd16
  exact rolk_answers (fun _ _ => loadStep_keeps)

theorem execLd32_keeps {d : Fin 8} {n : Fin 384} {s : State} : Answers [.regs, .cra, .tdx, .syu, .gwe, .free] s (execLd32 d n s) := by
  unfold execLd32
  exact rolk_answers (fun _ _ => loadStep_keeps)

theorem execLd64_keeps {d : Fin 8} {n : Fin 384} {s : State} : Answers [.regs, .cra, .tdx, .syu, .gwe, .free] s (execLd64 d n s) := by
  unfold execLd64
  exact rolk_answers (fun _ _ => loadStep_keeps)

theorem suprestartStep_keeps {d n : Nat} {i : RIns} {s : State} : Keeps [.regs, .fwt, .bpm, .ssc, .rsq, .cra, .tdx, .syu, .gwe, .free] s (suprestartStep d n i s) := by
  unfold suprestartStep
  exact onTarget_keeps (fun _ => answer_keeps.after restartThread_keeps)

theorem execSuprestart_keeps {d : Fin 8} {n : Fin 384} {s : State} : Answers [.regs, .fwt, .bpm, .ssc, .rsq, .cra, .tdx, .syu, .gwe, .free] s (execSuprestart d n s) := by
  unfold execSuprestart
  exact rolk_answers (fun _ _ => suprestartStep_keeps)

theorem reinject_keeps {p : Nat} {x : List Frame} {x1 : State} : Keeps [.prs] x1 (reinject p x x1) := by
  induction x generalizing x1 with
  | nil =>
    unfold reinject
    exact .refl
  | cons y x ih =>
    unfold reinject
    dsimp -proj only
    split
    · exact keeps_prs.after (ih.comp nextArrival_keeps)
    · exact ih.comp nextArrival_keeps

theorem rehome_keeps {p : Nat} {x : List (Task × Option Nat)} {x1 : Nat} {x2 : State} : Keeps [.regs, .tdx] x2 (rehome p x x1 x2).2 := by
  induction x generalizing x1 x2 with
  | nil =>
    unfold rehome
    exact .snd State.bumpN_keeps.mono
  | cons y x ih =>
    unfold rehome
    dsimp -proj only
    exact ih.comp adoptTask_keeps

theorem adoptDie_keeps {s : State} {d : Nat} {again : List Frame} {tasks : List (Task × Option Nat)} : Keeps [.regs, .prs, .fwt, .tdx] s (adoptDie s d again tasks).2 := by
  unfold adoptDie
  dsimp -proj only
  exact .snd (bindFallback_keeps.after (rehome_keeps.after (State.bumpN_keeps.after (reinject_keeps.after takeOver_keeps.mono))))

theorem eccRob_keeps {s : State} {d t : Nat} : Keeps [.regs, .fwt, .bpm, .qba, .ssc, .rsq, .gwe] s (eccRob s d t).2 := by
  unfold eccRob
  split
  · exact .refl
  · exact .snd robError_keeps

theorem eccEffect_keeps {s : State} {d mem a : Nat} : Keeps [.regs, .cte, .cls, .fwt, .bpm, .qba, .ssc, .rsq, .cra, .tdx, .syu, .gwe, .icu] s (eccEffect s d mem a).2 := by
  unfold eccEffect
  split
  · exact eccQuay_keeps.mono
  · exact eccPad_keeps.mono
  · exact eccPs_keeps.mono
  · exact eccHash_keeps.mono
  · exact .snd failEntry_keeps.mono
  · exact .snd failEntry_keeps.mono
  · exact eccTt_keeps.mono
  · exact eccRob_keeps.mono
  · exact eccTdx_keeps.mono
  · exact eccSyu_keeps.mono
  · exact eccFrag_keeps.mono
  · exact .refl

theorem sramError_keeps {s : State} {d mem a : Nat} : Keeps [.regs, .cte, .cls, .fwt, .bpm, .qba, .ssc, .rsq, .cra, .tdx, .syu, .gwe, .icu] s (sramError s d mem a) := by
  unfold sramError
  split
  · exact .refl
  · dsimp -proj only
    exact eccReport_keeps.after (State.bump_keeps.after eccEffect_keeps)

theorem sramScrub_keeps {s : State} {d : Nat} {f : EccFind} : Keeps [.regs, .cte, .cls, .fwt, .bpm, .qba, .ssc, .rsq, .cra, .tdx, .syu, .gwe, .plt, .icu] s (sramScrub s d f) := by
  unfold sramScrub
  exact .ite State.bump_keeps.mono (.ite mcsFound_keeps.mono (.ite .refl (.ite State.bump_keeps.mono sramError_keeps.mono)))

theorem execSramScrub_keeps {d : Fin 8} {f : EccFind} {s : State} : Answers [.regs, .cte, .cls, .fwt, .bpm, .qba, .ssc, .rsq, .cra, .tdx, .syu, .gwe, .plt, .icu] s (execSramScrub d f s) := by
  unfold execSramScrub
  exact onCra_answers (.ite .refl sramScrub_keeps)

theorem modeUnit_keeps {s : State} {d u : Nat} : Keeps [.regs, .prs, .cls, .fwt, .bpm, .ssc, .rsq, .cra, .tdx, .syu, .icu] s (modeUnit s d u).2 := by
  unfold modeUnit
  split
  · exact .refl
  · split
    · exact unitStart_keeps.after prsRestart_keeps.mono
    · split
      · exact unitStart_keeps.after clsRestart_keeps.mono
      · split
        · exact unitStart_keeps.after fwtRestart_keeps.mono
        · split
          · exact unitStart_keeps.after tdxRestart_keeps.mono
          · split
            · split
              · exact .refl
              · exact unitStart_keeps.after (bumpSyu_keeps.after syuReset_keeps.mono)
            · exact .refl

theorem unitDone_keeps {s : State} {d u : Nat} : Keeps [.regs, .cls, .fwt, .ssc, .cra, .icu, .free] s (unitDone s d u) := by
  unfold unitDone
  dsimp -proj only
  exact .ite (.ite (serveLate_keeps.after (resumeLate_keeps.after keeps_icu.mono)) keeps_icu.mono) .refl

theorem execUnitRestartDone_keeps {d : Fin 8} {u : Fin 16} {s : State} : Answers [.regs, .cls, .fwt, .ssc, .cra, .icu, .free] s (execUnitRestartDone d u s) := by
  unfold execUnitRestartDone
  exact .onDie unitDone_keeps

theorem offerQueue_keeps {q : Nat} {x : List LQItem} {x1 : List Nat} {x2 : State} : Keeps [.regs, .bpm, .qba, .ssc] x2 (offerQueue q x x1 x2).2 := by
  induction x generalizing x1 x2 with
  | nil =>
    unfold offerQueue
    exact .refl
  | cons y x ih =>
    unfold offerQueue
    exact ih.comp offerItem_keeps

theorem quayFlush_keeps {s : State} {picks : List Nat} : Keeps [.regs, .bpm, .qba, .ssc] s (quayFlush s picks) := by
  unfold quayFlush
  exact .foldl_snd (fun _ _ => offerQueue_keeps) .refl

theorem wrGlbCtrl_keeps {s : State} {w : Word} {picks : List Nat} : Keeps [.regs, .bpm, .qba, .ssc] s (wrGlbCtrl s w picks).2 := by
  unfold wrGlbCtrl
  split
  · exact .refl
  · split
    · exact .refl
    · split
      · exact .snd quayFlush_keeps
      · exact .refl

theorem execQuayFlush_keeps {w : Word} {picks : List Nat} {s : State} : Answers [.regs, .bpm, .qba, .ssc, .gwe] s (execQuayFlush w picks s) := by
  unfold execQuayFlush
  exact hostWr_answers wrGlbCtrl_keeps.mono

theorem wrDie_keeps {s : State} {r : Reg} {d : Nat} {idx : List Nat} {w : Word} : Keeps [.regs, .phi, .cte, .lpx, .fwt, .bpm, .qba, .ssc, .rsq, .cra, .tdx, .syu, .gwe, .icu, .free] s (wrDie s r d idx w).2 := by
  unfold wrDie
  dsimp -proj only
  split
  · exact wrPfArea_keeps.mono
  · exact wrHashSeed_keeps.mono
  · exact wrPoolBase_keeps.mono
  · exact wrPoolCount_keeps.mono
  · exact .snd State.setReg_keeps.mono
  · exact wrHostFree_keeps.mono
  · exact wrQsel_keeps.mono
  · exact wrRsqCfg_keeps.mono
  · exact wrEditProg_keeps.mono
  · exact wrPortData_keeps.mono
  · exact wrCraCfg_keeps.mono
  · exact wrSuper_keeps.mono
  · exact wrThreadEn_keeps.mono
  · exact wrThreadCtl_keeps.mono
  · exact wrBp_keeps.mono
  · exact wrDbgSel_keeps.mono
  · exact wrDbgLo_keeps.mono
  · exact wrDbgHi_keeps.mono
  · exact wrPsCheck_keeps.mono
  · exact wrTdxCfg_keeps.mono
  · exact wrTrcCtl_keeps.mono
  · exact wrTrcMark_keeps.mono
  · exact wrSyuCfg_keeps.mono
  · exact wrLkForce_keeps.mono
  · exact wrEvHsig_keeps.mono
  · exact wrChHput_keeps.mono
  · exact wrInspSel_keeps.mono
  · exact wrPortCfg_keeps.mono
  · exact wrPlain_keeps.mono

theorem readAll_keeps {x : List RegRef} {x1 : State} : Keeps [.regs, .bpm, .qba, .cra, .free] x1 (readAll x x1).2.2 := by
  induction x generalizing x1 with
  | nil =>
    unfold readAll
    exact .refl
  | cons y x ih =>
    unfold readAll
    split
    · rename_i t he
      split
      · exact .refl
      · split
        · rename_i t1 he1
          split
          · exact .snd₂ ((ih.of_eq₂ he1).comp (readReg_keeps.of_eq₂ he))
          · exact .snd₂ ((ih.of_eq₂ he1).comp (readReg_keeps.of_eq₂ he))

theorem rdOp_keeps {s : State} {a n : Nat} : Keeps [.regs, .bpm, .qba, .cra, .free] s (rdOp s a n).2.2 := by
  unfold rdOp
  split
  · exact .refl
  · split
    · exact .refl
    · exact readAll_keeps

theorem execRd_keeps {a : Word} {count : Nat} {s : State} : Answers [.regs, .bpm, .qba, .cra, .gwe, .free] s (execRd a count s) := by
  unfold execRd
  exact .next (hostOpIn_keeps rdOp_keeps.mono)

theorem tblOp_keeps {s : State} {sub : Nat} {a : TblArgs} : Keeps [.regs, .fwt, .icu] s (tblOp s sub a).2.2 := by
  unfold tblOp
  split
  · exact tblSearch_keeps.mono
  · exact tblNext_keeps.mono
  · exact tblInsert_keeps
  · exact tblDelete_keeps.mono
  · exact tblFlush_keeps.mono
  · exact .refl

theorem dbgOp_keeps {s : State} {a : DbgArgs} : Keeps [.regs, .fwt, .bpm, .ssc, .rsq, .cra, .tdx, .syu, .gwe, .free] s (dbgOp s a).2.2 := by
  unfold dbgOp
  dsimp -proj only
  split
  · exact .refl
  · split
    · split
      · exact .snd₂ (lapse_keeps.after threadCtl_keeps)
      · exact .snd₂ threadCtl_keeps
    · split
      · exact .refl
      · split
        · exact .refl
        · split
          · exact .refl
          · split
            · exact .refl
            · split
              · exact .refl
              · exact .snd₂ dbgSet_keeps.mono

theorem execDbg_keeps {a : DbgArgs} {s : State} : Answers [.regs, .fwt, .bpm, .ssc, .rsq, .cra, .tdx, .syu, .gwe, .free] s (execDbg a s) := by
  unfold execDbg
  exact .next (hostOp_keeps dbgOp_keeps)

theorem sendAgain_keeps {x : Nat} {x1 : List EvRec} {x2 : State} : Keeps [.regs, .gwe] x2 (sendAgain x x1 x2) := by
  induction x generalizing x1 x2 with
  | zero =>
    unfold sendAgain
    exact .refl
  | succ x ih =>
    unfold sendAgain
    dsimp -proj only
    exact .ite .refl (ih.comp (State.bump_keeps.after transmit_keeps))

theorem eventRetransmit_keeps {s : State} : Keeps [.regs, .gwe] s (eventRetransmit s) := by
  unfold eventRetransmit
  dsimp -proj only
  exact .ite .refl sendAgain_keeps

theorem execEventRetransmit_keeps {s : State} : Answers [.regs, .gwe] s (execEventRetransmit s) := by
  unfold execEventRetransmit
  exact .next eventRetransmit_keeps

theorem putStaged_keeps {s : State} {j b : Nat} {l : List Byte} : Keeps [.ssc] s (putStaged s j b l) := by
  induction l generalizing s b with
  | nil => exact .refl
  | cons v l ih =>
    unfold putStaged
    refine ih.comp (keeps_ssc (hd := mset_wf _ _ _ _) (hp := fun h => ?_))
    split
    · exact mset_wf _ _ _ _ h
    · exact h

theorem windowWrite_keeps {s : State} {j b : Nat} {l : List Byte} : Keeps [.ssc] s (windowWrite s j b l) := by
  unfold windowWrite
  refine .foldl (fun t x => ?_) putStaged_keeps
  dsimp -proj only
  split
  · exact .ite (pushPort_keeps.after pushPort_keeps) pushPort_keeps
  · exact pushPort_keeps

theorem rippleTorn_keeps {s : State} {d hole n : Nat} {l : List Nat} : Keeps [.regs, .fwt] s (rippleTorn s d hole n l) := by
  induction l generalizing s hole n with
  | nil =>
    unfold rippleTorn
    exact .refl
  | cons i l ih =>
    cases n with
    | zero =>
      unfold rippleTorn
      exact State.setLpm_keeps.mono
    | succ n =>
      unfold rippleTorn
      exact ih.comp ripple_keeps

theorem lpmTorn_keeps {s : State} {d : Nat} {body : List Byte} {n : Nat} : Keeps [.regs, .fwt] s (lpmTorn s d body n) := by
  unfold lpmTorn
  dsimp -proj only
  split
  · exact .refl
  · split
    · exact .refl
    · exact keeps_fwt.after rippleTorn_keeps

theorem tornInsert_keeps {s : State} {a : TblArgs} : Keeps [.regs, .fwt, .gwe] s (tornInsert s a) := by
  unfold tornInsert
  exact .foldl (fun _ _ => .ite lpmTorn_keeps.mono .refl) (keeps_gwe).mono

theorem execTblInsert_keeps {a : TblArgs} {s : State} : Answers [.regs, .fwt, .gwe, .icu] s (execTblInsert a s) := by
  unfold execTblInsert
  exact .next (.ite tornInsert_keeps.mono (hostOp_keeps tblInsert_keeps.mono))

/-- The write is named first: applied, the kernel would evaluate the word that is kept. -/
theorem execSupervisorSet_keeps {d : Fin 8} {k : Fin 6} {w : Word} {s : State} : Answers [.regs, .cra, .syu, .gwe] s (execSupervisorSet d k w s) := by
  have h : Keeps [.regs, .cra, .syu, .gwe] s (wrSuper s d k w).2 := wrSuper_keeps.mono
  unfold execSupervisorSet
  generalize e : (fun s => wrSuper s ↑d ↑k w) = f
  rw [show wrSuper s d k w = f s by rw [← e]] at h
  exact hostCraWr_answers h

theorem threadFree_keeps {l : List Piece} {s : State} {d n h : Nat} {next : State → State} (hn : ∀ t, Keeps l t (next t))
    (hm : [.regs, .bpm, .cra, .tdx, .syu, .gwe, .free] ⊆ l := by exact within rfl) : Keeps l s (threadFree s d n h next) := by
  have hb : Keeps l s (bfree s d h (threadCloser n)).2 := bfree_keeps.mono (List.Subset.trans (l₂ := [.regs, .bpm, .cra, .tdx, .syu, .gwe, .free]) (within rfl) hm)
  have hf {t : State} {code x : Nat} (ht : Keeps l s t) : Keeps l s (faultThread t d n code x) :=
    faultThread_keeps.after ht (List.Subset.trans (l₂ := [.regs, .bpm, .cra, .tdx, .syu, .gwe, .free]) (within rfl) hm)
  unfold threadFree
  split
  · rename_i t he
    exact (hn t).comp (hb.of_eq he)
  · rename_i t he
    exact hf (hb.of_eq he)
  · rename_i t he
    exact hf (hb.of_eq he)
  · rename_i t he
    exact hf (hb.of_eq he)
  · rename_i t he
    exact hf (hb.of_eq he)

theorem bfreeStep_keeps {d n : Nat} {i : RIns} {s : State} : Keeps [.regs, .bpm, .cra, .tdx, .syu, .gwe, .free] s (bfreeStep d n i s) := by
  unfold bfreeStep
  exact threadFree_keeps (fun _ => answer_keeps.mono)

theorem satisfied_keeps {s : State} {d n rd : Nat} {v : DWord} : Keeps [.cra] s (satisfied s d n rd v) :=
  State.modThr_keeps (fun x h => Thr.done_rise (t := { x with helped := x.helped || !s.exempt d n }) rd v h)

theorem lockStep_keeps {d n : Nat} {i : RIns} {s : State} : Keeps [.regs, .cra, .tdx, .syu, .gwe, .free] s (lockStep d n i s) := by
  unfold lockStep
  refine syuWait_keeps (fun x => ?_)
  dsimp -proj only
  split
  · exact satisfied_keeps.after State.setLock_keeps.mono
  · exact .ite faultThread_keeps (waitOn_keeps.after (State.bump_keeps.after State.setLock_keeps.mono))

theorem evwaitStep_keeps {d n : Nat} {i : RIns} {s : State} : Keeps [.regs, .cra, .tdx, .syu, .gwe, .free] s (evwaitStep d n i s) := by
  unfold evwaitStep
  refine syuWait_keeps (fun x => ?_)
  dsimp -proj only
  exact .ite (waitOn_keeps.after State.setEv_keeps.mono) (satisfied_keeps.after State.setEv_keeps.mono)

theorem chgetStep_keeps {d n : Nat} {i : RIns} {s : State} : Keeps [.regs, .cra, .tdx, .syu, .gwe, .free] s (chgetStep d n i s) := by
  unfold chgetStep
  dsimp -proj only
  split
  · exact faultThread_keeps
  · refine syuWait_keeps (fun x => ?_)
    split
    · exact satisfied_keeps.after (State.putPad_keeps.after State.setChan_keeps.mono)
    · exact waitOn_keeps.after State.setChan_keeps.mono

theorem retireStep_keeps {d n : Nat} {i : RIns} {s : State} : Keeps [.regs, .bpm, .rsq, .cra, .tdx, .syu, .gwe, .free] s (retireStep d n i s) := by
  unfold retireStep
  exact endChecked_keeps (fun _ _ => threadFree_keeps (fun _ => endBy_keeps.mono))

theorem execBfree_keeps {d : Fin 8} {n : Fin 384} {s : State} : Answers [.regs, .bpm, .cra, .tdx, .syu, .gwe, .free] s (execBfree d n s) := by
  unfold execBfree
  exact rolk_answers (fun _ _ => bfreeStep_keeps)

theorem execLock_keeps {d : Fin 8} {n : Fin 384} {s : State} : Answers [.regs, .cra, .tdx, .syu, .gwe, .free] s (execLock d n s) := by
  unfold execLock
  exact rolk_answers (fun _ _ => lockStep_keeps)

theorem execEvwait_keeps {d : Fin 8} {n : Fin 384} {s : State} : Answers [.regs, .cra, .tdx, .syu, .gwe, .free] s (execEvwait d n s) := by
  unfold execEvwait
  exact rolk_answers (fun _ _ => evwaitStep_keeps)

theorem execChget_keeps {d : Fin 8} {n : Fin 384} {s : State} : Answers [.regs, .cra, .tdx, .syu, .gwe, .free] s (execChget d n s) := by
  unfold execChget
  exact rolk_answers (fun _ _ => chgetStep_keeps)

theorem execRetire_keeps {d : Fin 8} {n : Fin 384} {s : State} : Answers [.regs, .bpm, .rsq, .cra, .tdx, .syu, .gwe, .free] s (execRetire d n s) := by
  unfold execRetire
  exact rolk_answers (fun _ _ => retireStep_keeps)

theorem dropCopies_keeps {s : State} {h : Hand} : Keeps [.bpm, .qba] s (dropCopies s h) := by
  refine .foldl (fun _ _ => freeCopy_keeps.mono) (.foldl (fun _ _ => freeCopy_keeps.mono) (.mono (m := [.qba]) (keeps_qba (hq := fun h => ?_))))
  refine mfilter_rise _ _ _ (mmap_rise _ (fun e => ?_) _ _ h)
  rfl

theorem purgeDie_keeps {s : State} {d : Nat} : Keeps [.prs, .cls, .fwt, .bpm, .qba, .rsq, .cra, .tdx, .syu, .gwe, .icu] s (purgeDie s d) := by
  have ht : Keeps [.prs, .cls, .fwt, .bpm, .qba, .rsq, .cra, .tdx, .syu, .gwe, .icu] s (emptyLists s d) := emptyLists_keeps.mono
  unfold purgeDie
  generalize emptyLists s d = t at ht ⊢
  refine .comp (t := t) (.and_icu (.and_gwe (.and_syu (.and_tdx (.and_cra (ht := mfilter_rise _ _ _) (hg := fun h => ?_) (.and_rsq (.and_qba (.and_bpm (.and_fwt (.and_cls keeps_prs.mono)))))))))) ht
  exact mfilter_all (p := fun x : Thr => mrise 0 x.g) _ _ h

theorem settleDie_keeps {s t : State} {d : Nat} : Keeps [.regs, .phi, .cte, .lpx, .prs, .cls, .fwt, .bpm, .qba, .ssc, .rsq, .cra, .tdx, .syu, .gwe, .icu] t (settleDie s t d).2 := by
  unfold settleDie
  dsimp -proj only
  refine .snd ?_
  refine moveReceiver_keeps.after (loseStack_keeps.after ?_)
  split
  · exact adoptDie_keeps.after (redirectHands_keeps.after (purgeDie_keeps.after (dropPrefetch_keeps.after (dropOpen_keeps.after (adoptQueues_keeps.after (.foldl (fun _ _ => freeMirror_keeps.mono) answerPosts_keeps.mono))))))
  · exact .snd (loseDie_keeps.after (redirectHands_keeps.after (purgeDie_keeps.after (dropPrefetch_keeps.after (dropOpen_keeps.after (adoptQueues_keeps.after (.foldl (fun _ _ => freeMirror_keeps.mono) answerPosts_keeps.mono)))))))

theorem modeOp_keeps {s : State} {op target die unit exp : Nat} {ports : Word} : Keeps [.regs, .glb, .cte, .lpx, .prs, .cls, .fwt, .bpm, .ssc, .rsq, .cra, .tdx, .syu, .gwe, .plt, .icu] s (modeOp s op target die unit exp ports).2.2 := by
  unfold modeOp
  refine .snd₂ (.ite_snd .refl (.ite_snd .refl ?_))
  split
  · exact modeSet_keeps.mono
  · exact orderReset_keeps.mono
  · exact orderReset_keeps.mono
  · exact modeUnit_keeps.mono
  · exact portDrain_keeps.mono

theorem execModeSet_keeps {target : Nat} {exp : BitVec 16} {s : State} : Answers [.regs, .glb, .cte, .lpx, .prs, .cls, .fwt, .bpm, .ssc, .rsq, .cra, .tdx, .syu, .gwe, .plt, .icu] s (execModeSet target exp s) := by
  unfold execModeSet
  exact .next (hostOp_keeps modeOp_keeps)

theorem execModeWarm_keeps {exp : BitVec 16} {s : State} : Answers [.regs, .glb, .cte, .lpx, .prs, .cls, .fwt, .bpm, .ssc, .rsq, .cra, .tdx, .syu, .gwe, .plt, .icu] s (execModeWarm exp s) := by
  unfold execModeWarm
  exact .next (hostOp_keeps modeOp_keeps)

theorem execModeCold_keeps {exp : BitVec 16} {s : State} : Answers [.regs, .glb, .cte, .lpx, .prs, .cls, .fwt, .bpm, .ssc, .rsq, .cra, .tdx, .syu, .gwe, .plt, .icu] s (execModeCold exp s) := by
  unfold execModeCold
  exact .next (hostOp_keeps modeOp_keeps)

theorem execModeUnit_keeps {die unit : Nat} {exp : BitVec 16} {s : State} : Answers [.regs, .glb, .cte, .lpx, .prs, .cls, .fwt, .bpm, .ssc, .rsq, .cra, .tdx, .syu, .gwe, .plt, .icu] s (execModeUnit die unit exp s) := by
  unfold execModeUnit
  exact .next (hostOp_keeps modeOp_keeps)

theorem execPortDrain_keeps {ports : Word} {exp : BitVec 16} {s : State} : Answers [.regs, .glb, .cte, .lpx, .prs, .cls, .fwt, .bpm, .ssc, .rsq, .cra, .tdx, .syu, .gwe, .plt, .icu] s (execPortDrain ports exp s) := by
  unfold execPortDrain
  exact .next (hostOp_keeps modeOp_keeps)

theorem coldReset_keeps {s : State} {cause : Nat} :
    Keeps [.regs, .glb, .phi, .cte, .lpx, .prs, .cls, .fwt, .bpm, .qba, .ssc, .rsq, .cra, .tdx, .syu, .gwe, .plt, .icu] s (coldReset s cause) where
  frame p hp := by
    cases p
    case part | lineTx | free | pending => rfl
    all_goals exact absurd (by decide) hp
  inv _ := ⟨⟨rfl, rfl, rfl, rfl⟩, ⟨mset_rise _ _ _ _ (mset_rise _ _ _ _ rfl), rfl, rfl, rfl⟩, rfl, rfl, Nat.zero_le _⟩

theorem execColdReset_keeps {cause : Nat} {s : State} : Answers [.regs, .glb, .phi, .cte, .lpx, .prs, .cls, .fwt, .bpm, .qba, .ssc, .rsq, .cra, .tdx, .syu, .gwe, .plt, .icu] s (execColdReset cause s) := by
  unfold execColdReset
  exact .next (.ite coldReset_keeps .refl)

theorem execSupplyValid_keeps {s : State} : Answers [.regs, .glb, .phi, .cte, .lpx, .prs, .cls, .fwt, .bpm, .qba, .ssc, .rsq, .cra, .tdx, .syu, .gwe, .plt, .icu] s (execSupplyValid s) := by
  unfold execSupplyValid
  exact .next (.ite (coldReset_keeps.after (powerTap_keeps.after (releaseTrip_keeps.after keeps_glb.mono))) .refl)

theorem execSupplyExcursion_keeps {s : State} : Answers [.regs, .glb, .phi, .cte, .lpx, .prs, .cls, .fwt, .bpm, .qba, .ssc, .rsq, .cra, .tdx, .syu, .gwe, .plt, .icu] s (execSupplyExcursion s) := by
  unfold execSupplyExcursion
  exact .next (.ite .refl (coldReset_keeps.after (powerTap_keeps.after (releaseTrip_keeps.after keeps_glb.mono))))

theorem execResetNAssert_keeps {s : State} : Answers [.regs, .glb, .phi, .cte, .lpx, .prs, .cls, .fwt, .bpm, .qba, .ssc, .rsq, .cra, .tdx, .syu, .gwe, .plt, .icu] s (execResetNAssert s) := by
  unfold execResetNAssert
  refine .next ?_
  dsimp -proj only
  exact .ite keeps_glb.mono (coldReset_keeps.after (releaseTrip_keeps.after keeps_glb.mono))

theorem clockHold_keeps {s : State} : Keeps [.regs, .glb, .phi, .cte, .lpx, .prs, .cls, .fwt, .bpm, .qba, .ssc, .rsq, .cra, .tdx, .syu, .gwe, .plt, .icu] s (clockHold s) := by
  unfold clockHold
  exact coldReset_keeps.after keeps_glb.mono

theorem execRefclkLoss_keeps {b : Bool} {s : State} : Answers [.regs, .glb, .phi, .cte, .lpx, .prs, .cls, .fwt, .bpm, .qba, .ssc, .rsq, .cra, .tdx, .syu, .gwe, .plt, .icu] s (execRefclkLoss b s) := by
  unfold execRefclkLoss
  refine .next ?_
  dsimp -proj only
  exact .ite (.ite keeps_glb.mono keeps_glb.mono) (.ite (.ite (clockEvent_keeps.after (.ite keeps_glb.mono keeps_glb.mono)) (.ite keeps_glb.mono keeps_glb.mono)) (.ite (.ite (clockEvent_keeps.after (relock_keeps.after (State.setRf_keeps.after (.ite keeps_glb.mono keeps_glb.mono)))) (State.setRf_keeps.after (.ite keeps_glb.mono keeps_glb.mono))) (clockHold_keeps.after (.ite keeps_glb.mono keeps_glb.mono))))

theorem execRefclkReturn_keeps {b : Bool} {s : State} : Answers [.regs, .glb, .phi, .cte, .lpx, .prs, .cls, .fwt, .bpm, .qba, .ssc, .rsq, .cra, .tdx, .syu, .gwe, .plt, .icu] s (execRefclkReturn b s) := by
  unfold execRefclkReturn
  refine .next ?_
  dsimp -proj only
  exact .ite (coldReset_keeps.after (keeps_glb.after (.ite keeps_glb.mono keeps_glb.mono))) (.ite keeps_glb.mono keeps_glb.mono)

theorem setTap_keeps {s : State} {c : BitVec 8} : Keeps [.regs, .glb, .phi, .cte, .lpx, .prs, .cls, .fwt, .bpm, .qba, .ssc, .rsq, .cra, .tdx, .syu, .gwe, .plt, .icu] s (setTap s c) := by
  unfold setTap
  dsimp -proj only
  exact .ite .refl (.ite (coldReset_keeps.after loadIr_keeps.mono) loadIr_keeps.mono)

theorem execExtest_keeps {s : State} : Answers [.regs, .glb, .phi, .cte, .lpx, .prs, .cls, .fwt, .bpm, .qba, .ssc, .rsq, .cra, .tdx, .syu, .gwe, .plt, .icu] s (execExtest s) := by
  unfold execExtest
  exact .next setTap_keeps

theorem execIdcode_keeps {s : State} : Answers [.regs, .glb, .phi, .cte, .lpx, .prs, .cls, .fwt, .bpm, .qba, .ssc, .rsq, .cra, .tdx, .syu, .gwe, .plt, .icu] s (execIdcode s) := by
  unfold execIdcode
  exact .next setTap_keeps

theorem execSamplePreload_keeps {s : State} : Answers [.regs, .glb, .phi, .cte, .lpx, .prs, .cls, .fwt, .bpm, .qba, .ssc, .rsq, .cra, .tdx, .syu, .gwe, .plt, .icu] s (execSamplePreload s) := by
  unfold execSamplePreload
  exact .next setTap_keeps

theorem execClamp_keeps {s : State} : Answers [.regs, .glb, .phi, .cte, .lpx, .prs, .cls, .fwt, .bpm, .qba, .ssc, .rsq, .cra, .tdx, .syu, .gwe, .plt, .icu] s (execClamp s) := by
  unfold execClamp
  exact .next setTap_keeps

theorem execHighz_keeps {s : State} : Answers [.regs, .glb, .phi, .cte, .lpx, .prs, .cls, .fwt, .bpm, .qba, .ssc, .rsq, .cra, .tdx, .syu, .gwe, .plt, .icu] s (execHighz s) := by
  unfold execHighz
  exact .next setTap_keeps

theorem execExtestPulse_keeps {s : State} : Answers [.regs, .glb, .phi, .cte, .lpx, .prs, .cls, .fwt, .bpm, .qba, .ssc, .rsq, .cra, .tdx, .syu, .gwe, .plt, .icu] s (execExtestPulse s) := by
  unfold execExtestPulse
  exact .next setTap_keeps

theorem execExtestTrain_keeps {s : State} : Answers [.regs, .glb, .phi, .cte, .lpx, .prs, .cls, .fwt, .bpm, .qba, .ssc, .rsq, .cra, .tdx, .syu, .gwe, .plt, .icu] s (execExtestTrain s) := by
  unfold execExtestTrain
  exact .next setTap_keeps

theorem execBypass_keeps {s : State} : Answers [.regs, .glb, .phi, .cte, .lpx, .prs, .cls, .fwt, .bpm, .qba, .ssc, .rsq, .cra, .tdx, .syu, .gwe, .plt, .icu] s (execBypass s) := by
  unfold execBypass
  exact .next setTap_keeps

theorem execTapHoldEnd_keeps {s : State} : Answers [.regs, .glb, .phi, .cte, .lpx, .prs, .cls, .fwt, .bpm, .qba, .ssc, .rsq, .cra, .tdx, .syu, .gwe, .plt, .icu] s (execTapHoldEnd s) := by
  unfold execTapHoldEnd
  exact .next (.ite setTap_keeps .refl)

theorem execTapReset_keeps {s : State} : Answers [.regs, .glb, .phi, .cte, .lpx, .prs, .cls, .fwt, .bpm, .qba, .ssc, .rsq, .cra, .tdx, .syu, .gwe, .plt, .icu] s (execTapReset s) := by
  unfold execTapReset
  exact .next setTap_keeps

theorem writeStage_keeps {s : State} {off : Nat} {l : List Byte} : Keeps [.ssc] s (writeStage s off l).2 := by
  unfold writeStage
  split
  · exact .refl
  · split
    · exact .refl
    · exact .snd windowWrite_keeps

theorem clearOne_keeps {a : LongArgs} {x : OpRec × State} {e : Nat × Nat} : Keeps [.fwt, .icu] x.2 (clearOne a x e).2 := by
  unfold clearOne
  dsimp -proj only
  split
  · exact .refl
  · exact .snd tblRemove_keeps

theorem clearSome_keeps {s : State} {r : OpRec} {a : LongArgs} {n : Nat} : Keeps [.fwt, .icu] s (clearSome s r a n).2.2 := by
  unfold clearSome
  dsimp -proj only
  split
  · exact .refl
  · refine .snd₂ ?_
    refine .foldl_snd (fun a x => ?_) .refl
    refine clearOne_keeps.after ?_
    exact .refl

theorem fenceHands_keeps {s : State} {d : Nat} : Keeps [.regs, .bpm, .qba, .rsq] s (fenceHands s d) := by
  have ht : Keeps [.regs, .bpm, .qba, .rsq] s (((s.openHands d).foldl dropCopies s).bumpN .PFB_HANDOFF_DISCARD d [] (s.openHands d).length) :=
    State.bumpN_keeps.after (.foldl (fun _ _ => dropCopies_keeps.mono) .refl)
  unfold fenceHands
  dsimp -proj only
  generalize State.bumpN _ _ _ _ _ = t at ht ⊢
  exact .comp (t := t) (.and_rsq (keeps_qba).mono) ht

theorem fenceDie_keeps {s : State} {d : Nat} {cause : DieCause} : Keeps [.regs, .bpm, .qba, .rsq, .icu] s (fenceDie s d cause) := by
  unfold fenceDie
  dsimp -proj only
  exact State.bumpGen_keeps.after (State.bumpGen_keeps.after (State.setRf_keeps.after (State.bumpN_keeps.after (fenceHands_keeps.after keeps_icu.mono))))

theorem excludeAll_keeps {s : State} {l : List (Nat × DieCause)} :
    Keeps [.regs, .phi, .cte, .lpx, .prs, .cls, .fwt, .bpm, .qba, .ssc, .rsq, .cra, .tdx, .syu, .gwe, .plt, .icu] s (excludeAll s l) := by
  unfold excludeAll
  have hs : Keeps [.regs, .phi, .cte, .lpx, .prs, .cls, .fwt, .bpm, .qba, .ssc, .rsq, .cra, .tdx, .syu, .gwe, .plt, .icu] s (l.foldl (fun t x => returnStarted t x.1 (t.queuesOn x.1)) s) :=
    .foldl (fun _ _ => returnStarted_keeps.mono) .refl
  generalize l.foldl (fun t x => returnStarted t x.1 (t.queuesOn x.1)) s = u at hs ⊢
  refine .comp (t := u) ?_ hs
  dsimp -proj only
  exact .foldl (fun _ _ => State.raiseEv_keeps.mono) (elect_keeps.after (.foldl_snd (fun _ _ => .snd settleDie_keeps.mono) (.foldl (fun _ _ => fenceDie_keeps.mono) .refl)))

theorem excludeNow_keeps {s : State} {d : Nat} {cause : DieCause} : Keeps [.regs, .phi, .cte, .lpx, .prs, .cls, .fwt, .bpm, .qba, .ssc, .rsq, .cra, .tdx, .syu, .gwe, .plt, .icu] s (excludeNow s d cause) := by
  unfold excludeNow
  exact excludeAll_keeps

theorem excludeDie_keeps {s : State} {d : Nat} {cause : DieCause} : Keeps [.regs, .phi, .cte, .lpx, .prs, .cls, .fwt, .bpm, .qba, .ssc, .rsq, .cra, .tdx, .syu, .gwe, .plt, .icu] s (excludeDie s d cause) := by
  unfold excludeDie
  exact .ite .refl excludeNow_keeps

theorem fallTogether_keeps {s : State} {first : List (Nat × DieCause)} {x : SameCycle} : Keeps [.regs, .glb, .phi, .cte, .lpx, .prs, .cls, .fwt, .bpm, .qba, .ssc, .rsq, .cra, .tdx, .syu, .gwe, .plt, .icu] s (fallTogether s first x) := by
  unfold fallTogether
  dsimp -proj only
  exact .foldl (fun _ _ => loseStack_keeps.mono) (.ite (.foldl (fun _ _ => noteTrip_keeps.mono) .refl) (excludeAll_keeps.after (.foldl (fun _ _ => noteTrip_keeps.mono) .refl)))

theorem loseDies_keeps {s : State} {x : DieLoss} {cause : DieCause} : Keeps [.regs, .glb, .phi, .cte, .lpx, .prs, .cls, .fwt, .bpm, .qba, .ssc, .rsq, .cra, .tdx, .syu, .gwe, .plt, .icu] s (loseDies s x cause) := by
  unfold loseDies
  exact fallTogether_keeps

theorem execHeartbeatLoss_keeps {x : DieLoss} {s : State} : Answers [.regs, .glb, .phi, .cte, .lpx, .prs, .cls, .fwt, .bpm, .qba, .ssc, .rsq, .cra, .tdx, .syu, .gwe, .plt, .icu] s (execHeartbeatLoss x s) := by
  unfold execHeartbeatLoss
  exact .onDie loseDies_keeps

theorem wrDieCtl_keeps {s : State} {w : Word} : Keeps [.regs, .phi, .cte, .lpx, .prs, .cls, .fwt, .bpm, .qba, .ssc, .rsq, .cra, .tdx, .syu, .gwe, .plt, .icu] s (wrDieCtl s w).2 := by
  unfold wrDieCtl
  dsimp -proj only
  split
  · exact .refl
  · split
    · exact .refl
    · split
      · exact .refl
      · split
        · exact .refl
        · split
          · exact .refl
          · exact .snd excludeDie_keeps

theorem hostExclude_keeps {s : State} {w : Word} {same : Bool} : Keeps [.regs, .phi, .cte, .lpx, .prs, .cls, .fwt, .bpm, .qba, .ssc, .rsq, .cra, .tdx, .syu, .gwe, .plt, .icu] s (hostExclude s w same).2 := by
  unfold hostExclude
  split
  · exact .refl
  · exact wrDieCtl_keeps

theorem execHostDieExclude_keeps {w : Tied Word} {s : State} : Answers [.regs, .phi, .cte, .lpx, .prs, .cls, .fwt, .bpm, .qba, .ssc, .rsq, .cra, .tdx, .syu, .gwe, .plt, .icu] s (execHostDieExclude w s) := by
  unfold execHostDieExclude
  exact hostWr_answers hostExclude_keeps

theorem execDieSupplyFault_keeps {x : DieLoss} {s : State} : Answers [.regs, .glb, .phi, .cte, .lpx, .prs, .cls, .fwt, .bpm, .qba, .ssc, .rsq, .cra, .tdx, .syu, .gwe, .plt, .icu] s (execDieSupplyFault x s) := by
  unfold execDieSupplyFault
  exact .onDie loseDies_keeps

theorem execPilotRamError_keeps {x : DieLoss} {s : State} : Answers [.regs, .glb, .phi, .cte, .lpx, .prs, .cls, .fwt, .bpm, .qba, .ssc, .rsq, .cra, .tdx, .syu, .gwe, .plt, .icu] s (execPilotRamError x s) := by
  unfold execPilotRamError
  exact .onDie loseDies_keeps

theorem warmStart_keeps {s : State} {cause : Nat} :
    Keeps [.regs, .glb, .cte, .lpx, .prs, .cls, .fwt, .bpm, .qba, .ssc, .rsq, .cra, .tdx, .syu, .gwe, .plt, .icu] s (warmStart s cause) := by
  unfold warmStart
  extract_lets a _ b c d quay flight e f _ _ _ _ _ _ _ _ _ _ _ _ _ g
  have ha : Keeps [.regs, .tdx] s a := .overDies (fun _ _ => stopTrace_keeps.mono) .refl
  have hb : Keeps [.glb] a b := keeps_glb
  have hc : Keeps [.regs, .glb, .lpx, .gwe] b c := State.setMode_keeps
  have hd : Keeps [.regs, .cte, .bpm, .qba, .ssc] c d := closeAll_keeps.after (.foldl (fun _ _ => finishWire_keeps.mono) .refl)
  have hf : Keeps [.regs, .gwe, .plt] d f := abortOps_keeps.after (State.bumpN_keeps.after State.bumpN_keeps.mono)
  have hg : Keeps [.regs, .glb, .cte, .prs, .cls, .fwt, .bpm, .qba, .ssc, .rsq, .cra, .tdx, .syu, .gwe, .icu] f g := by
    unfold g
    clear_value f
    constructor
    · intro p hp
      cases p
      case part | phi | lpx | plt | lineTx | free | pending => rfl
      all_goals exact absurd (by decide) hp
    · rintro ⟨⟨_, ha, hd, hp⟩, ⟨hr, _, _, hl⟩, hb⟩
      refine ⟨⟨?_, ha, hd, hp⟩, ⟨mfilter_rise _ _ _ hr, ?_, ?_, mfilter_rise _ _ _ (mmap_rise _ ?_ _ _ hl)⟩, hb⟩
      · exact (rfl : mwf 0 ([] : Mem) = true)
      · exact (rfl : mrise 0 ([] : SMap Thr) = true)
      · exact (rfl : ([] : SMap Thr).all (fun e => mrise 0 e.2.g) = true)
      · exact fun _ => rfl
  exact .overDies (fun _ _ => clearDie_keeps.mono) (hg.mono.comp (hf.mono.comp (hd.mono.comp (hc.mono.comp (hb.mono.comp ha.mono)))))

theorem execWarmReset_keeps {s : State} : Answers [.regs, .glb, .cte, .lpx, .prs, .cls, .fwt, .bpm, .qba, .ssc, .rsq, .cra, .tdx, .syu, .gwe, .plt, .icu] s (execWarmReset s) := by
  unfold execWarmReset
  exact .next (.ite warmStart_keeps .refl)

theorem execWdogEscalation_keeps {s : State} : Answers [.regs, .glb, .cte, .lpx, .prs, .cls, .fwt, .bpm, .qba, .ssc, .rsq, .cra, .tdx, .syu, .gwe, .plt, .icu] s (execWdogEscalation s) := by
  unfold execWdogEscalation
  exact .next (.ite useHeard_keeps.mono (.ite warmStart_keeps .refl))

theorem coldStart_keeps {s : State} {passed : Nat} {steps : List Nat} :
    Keeps [.regs, .glb, .phi, .cte, .lpx, .prs, .cls, .fwt, .bpm, .qba, .ssc, .rsq, .cra, .tdx, .syu, .gwe, .plt, .icu, .free] s (coldStart s passed steps) := by
  unfold coldStart
  generalize fld (s.reg .GLB_RESET_CAUSE 0 []) 3 0 = cause
  generalize s.allDies.filter (fun d => passed.testBit d) = ok
  generalize s.allDies.filter (fun d => !passed.testBit d) = bad
  dsimp -proj only
  refine .ite .refl (State.setMode_keeps.after ?_)
  have hx : Keeps [.regs, .glb, .phi, .cte, .lpx, .prs, .cls, .fwt, .bpm, .qba, .ssc, .rsq, .cra, .tdx, .syu, .gwe, .plt, .icu, .free] s
      (startDone ((excludeAll (overDies (startFail steps) bad s) (bad.map (fun d => (d, .start)))).setRf .PLT_STATE 0 [] 7 0 (maskOf ok)) 0 cause) :=
    startDone_keeps.after (State.setRf_keeps.after (excludeAll_keeps.after (.overDies (fun _ _ => startFail_keeps.mono) .refl)))
  generalize startDone _ _ _ = u at hx ⊢
  exact .comp (t := u) (.and_plt keeps_glb.mono) hx

theorem execColdStart_keeps {passed : BitVec 8} {steps : List Nat} {s : State} : Answers [.regs, .glb, .phi, .cte, .lpx, .prs, .cls, .fwt, .bpm, .qba, .ssc, .rsq, .cra, .tdx, .syu, .gwe, .plt, .icu, .free] s (execColdStart passed steps s) := by
  unfold execColdStart
  exact .next (.ite coldStart_keeps .refl)

theorem execThermtrip_keeps {d : Fin 8} {s : Sensor} {temp : TripTemp} {st : State} : Answers [.regs, .glb, .phi, .cte, .lpx, .prs, .cls, .fwt, .bpm, .qba, .ssc, .rsq, .cra, .tdx, .syu, .gwe, .plt, .icu] st (execThermtrip d s temp st) := by
  unfold execThermtrip
  exact .onDie fallTogether_keeps

theorem wrGlob_keeps {s : State} {r : Reg} {idx : List Nat} {w : Word} : Keeps [.regs, .phi, .cte, .lpx, .prs, .cls, .fwt, .bpm, .qba, .ssc, .rsq, .cra, .tdx, .syu, .gwe, .plt, .icu] s (wrGlob s r idx w).2 := by
  unfold wrGlob
  split
  · exact wrPhiCtrl_keeps.mono
  · exact wrSwap_keeps.mono
  · exact wrSwapXing_keeps.mono
  · exact wrGlbCtrl_keeps.mono
  · exact wrDieCtl_keeps
  · exact wrPlain_keeps.mono

theorem writeReg_keeps {s : State} {x : RegRef} {w : Word} : Keeps [.regs, .phi, .cte, .lpx, .prs, .cls, .fwt, .bpm, .qba, .ssc, .rsq, .cra, .tdx, .syu, .gwe, .plt, .icu, .free] s (writeReg s x w).2 := by
  unfold writeReg
  dsimp -proj only
  split
  · exact wrGlob_keeps.mono
  · exact .snd (.ite (lapse_keeps.after wrDie_keeps.mono) wrDie_keeps.mono)

theorem bcastWrite_keeps {s : State} {off : Nat} {w : Word} : Keeps [.regs, .phi, .cte, .lpx, .prs, .cls, .fwt, .bpm, .qba, .ssc, .rsq, .cra, .tdx, .syu, .gwe, .plt, .icu, .free] s (bcastWrite s off w).2 := by
  unfold bcastWrite
  dsimp -proj only
  split
  · exact .refl
  · split
    · exact .refl
    · split
      · exact .refl
      · split
        · exact .refl
        · exact .snd (.overDies (fun _ _ => writeReg_keeps) .refl)

theorem writeAddr_keeps {s : State} {a : Nat} {w : Word} : Keeps [.regs, .phi, .cte, .lpx, .prs, .cls, .fwt, .bpm, .qba, .ssc, .rsq, .cra, .tdx, .syu, .gwe, .plt, .icu, .free] s (writeAddr s a w).2 := by
  unfold writeAddr
  split
  · exact bcastWrite_keeps
  · split
    · exact writeReg_keeps
    · exact .refl

theorem execRegisterWrite_keeps {a w : Word} {s : State} : Answers [.regs, .phi, .cte, .lpx, .prs, .cls, .fwt, .bpm, .qba, .ssc, .rsq, .cra, .tdx, .syu, .gwe, .plt, .icu, .free] s (execRegisterWrite a w s) := by
  unfold execRegisterWrite
  exact hostWr_answers writeAddr_keeps

theorem execBroadcastWrite_keeps {off : Nat} {w : Word} {s : State} : Answers [.regs, .phi, .cte, .lpx, .prs, .cls, .fwt, .bpm, .qba, .ssc, .rsq, .cra, .tdx, .syu, .gwe, .plt, .icu, .free] s (execBroadcastWrite off w s) := by
  unfold execBroadcastWrite
  refine hostWr_answers ?_
  split
  · exact bcastWrite_keeps
  · exact .refl

theorem writeAll_keeps {a done : Nat} {x : List Word} {x1 : State} : Keeps [.regs, .phi, .cte, .lpx, .prs, .cls, .fwt, .bpm, .qba, .ssc, .rsq, .cra, .tdx, .syu, .gwe, .plt, .icu, .free] x1 (writeAll a done x x1).2.2 := by
  induction x generalizing a done x1 with
  | nil =>
    unfold writeAll
    exact .refl
  | cons y x ih =>
    unfold writeAll
    split
    · rename_i t he
      exact ih.comp (writeAddr_keeps.of_eq he)
    · rename_i t _ he
      exact .snd₂ (writeAddr_keeps.of_eq he)

theorem wrOp_keeps {s : State} {a : Nat} {l : List Word} : Keeps [.regs, .phi, .cte, .lpx, .prs, .cls, .fwt, .bpm, .qba, .ssc, .rsq, .cra, .tdx, .syu, .gwe, .plt, .icu, .free] s (wrOp s a l).2.2 := by
  unfold wrOp
  split
  · exact .refl
  · split
    · rename_i t he
      exact .snd₂ (writeAll_keeps.of_eq₂ he)

theorem rmwOp_keeps {s : State} {a : Nat} {mask value : Word} : Keeps [.regs, .phi, .cte, .lpx, .prs, .cls, .fwt, .bpm, .qba, .ssc, .rsq, .cra, .tdx, .syu, .gwe, .plt, .icu, .free] s (rmwOp s a mask value).2.2 := by
  unfold rmwOp
  split
  · exact .refl
  · split
    · exact .refl
    · split
      · rename_i t he
        split
        · rename_i t1 he1
          split
          · exact .snd₂ ((writeReg_keeps.of_eq he1).after ((readReg_keeps.of_eq₂ he).mono))
          · exact .snd₂ ((writeReg_keeps.of_eq he1).after ((readReg_keeps.of_eq₂ he).mono))
      · exact .refl

theorem writeUnit_keeps {s : State} {space off : Nat} {l : List Byte} : Keeps [.regs, .phi, .cte, .lpx, .prs, .cls, .fwt, .bpm, .qba, .ssc, .rsq, .cra, .tdx, .syu, .gwe, .plt, .icu, .free] s (writeUnit s space off l).2 := by
  unfold writeUnit
  dsimp -proj only
  split
  · split
    · exact writeAddr_keeps
    · exact .refl
  · exact writeMcs_keeps.mono
  · exact writePad_keeps.mono
  · exact writeQuay_keeps.mono
  · exact writeStage_keeps.mono
  · exact writePs_keeps.mono
  · exact writeTt_keeps.mono
  · exact writeTc_keeps.mono
  · exact writeLpm_keeps.mono
  · exact .refl
  · exact .refl

theorem readUnits_keeps {space unit n off : Nat} {s : State} : Keeps [.regs, .cte, .bpm, .qba, .ssc, .cra, .free] s (readUnits space unit n off s).2.2.2 := by
  induction n generalizing off s with
  | zero => exact .refl
  | succ n ih =>
    unfold readUnits
    split
    · rename_i l t he
      exact .snd₃ (ih.comp (readUnit_keeps.of_eq₂ he))
    · exact .refl

theorem writeUnits_keeps {space unit off : Nat} {x : List (List Byte)} {x1 : State} : Keeps [.regs, .phi, .cte, .lpx, .prs, .cls, .fwt, .bpm, .qba, .ssc, .rsq, .cra, .tdx, .syu, .gwe, .plt, .icu, .free] x1 (writeUnits space unit off x x1).2.2 := by
  induction x generalizing off x1 with
  | nil =>
    unfold writeUnits
    exact .refl
  | cons y x ih =>
    unfold writeUnits
    split
    · rename_i t he
      split
      · rename_i t1 he1
        exact .snd₂ ((ih.of_eq₂ he1).comp (writeUnit_keeps.of_eq he))
    · rename_i t _ he
      exact .snd₂ (writeUnit_keeps.of_eq he)

theorem fillSome_keeps {s : State} {r : OpRec} {a : LongArgs} {n : Nat} : Keeps [.regs, .phi, .cte, .lpx, .prs, .cls, .fwt, .bpm, .qba, .ssc, .rsq, .cra, .tdx, .syu, .gwe, .plt, .icu, .free] s (fillSome s r a n).2.2 := by
  unfold fillSome
  dsimp -proj only
  exact .snd₂ writeUnits_keeps

theorem crcSome_keeps {s : State} {r : OpRec} {a : LongArgs} {n : Nat} : Keeps [.regs, .cte, .bpm, .qba, .ssc, .cra, .free] s (crcSome s r a n).2.2 := by
  unfold crcSome
  dsimp -proj only
  split
  · exact .snd₂ readUnits_keeps
  · split
    · exact .snd₂ readUnits_keeps
    · exact .snd₂ readUnits_keeps

theorem opSome_keeps {s : State} {r : OpRec} {units entries : Nat} : Keeps [.regs, .phi, .cte, .lpx, .prs, .cls, .fwt, .bpm, .qba, .ssc, .rsq, .cra, .tdx, .syu, .gwe, .plt, .icu, .free] s (opSome s r units entries).2.2 := by
  unfold opSome
  split
  · exact fillSome_keeps
  · exact crcSome_keeps.mono
  · exact clearSome_keeps.mono
  · exact .refl

theorem runOp_keeps {s : State} {i units entries : Nat} : Keeps [.regs, .phi, .cte, .lpx, .prs, .cls, .fwt, .bpm, .qba, .ssc, .rsq, .cra, .tdx, .syu, .gwe, .plt, .icu, .free] s (runOp s i units entries) := by
  unfold runOp
  dsimp -proj only
  split
  · exact .refl
  · split
    · exact .refl
    · split
      · exact endOp_keeps.after (State.setOp_keeps.after opSome_keeps)
      · exact State.setOp_keeps.after opSome_keeps

theorem execLongOpCheckpoint_keeps {slot : Fin 16} {s : State} : Answers [.regs, .phi, .cte, .lpx, .prs, .cls, .fwt, .bpm, .qba, .ssc, .rsq, .cra, .tdx, .syu, .gwe, .plt, .icu, .free] s (execLongOpCheckpoint slot s) := by
  unfold execLongOpCheckpoint
  exact .next runOp_keeps

theorem execLongOpComplete_keeps {slot : Fin 16} {s : State} : Answers [.regs, .phi, .cte, .lpx, .prs, .cls, .fwt, .bpm, .qba, .ssc, .rsq, .cra, .tdx, .syu, .gwe, .plt, .icu, .free] s (execLongOpComplete slot s) := by
  unfold execLongOpComplete
  exact .next runOp_keeps

theorem winRdOp_keeps {s : State} {i count : Nat} : Keeps [.regs, .cte, .bpm, .qba, .ssc, .cra, .gwe, .free] s (winRdOp s i count).2.2 := by
  unfold winRdOp
  dsimp -proj only
  split
  · exact .refl
  · exact .snd₂ (moveWindow_keeps.after readUnits_keeps.mono)

theorem winWrOp_keeps {s : State} {i : Nat} {data : List Byte} : Keeps [.regs, .phi, .cte, .lpx, .prs, .cls, .fwt, .bpm, .qba, .ssc, .rsq, .cra, .tdx, .syu, .gwe, .plt, .icu, .free] s (winWrOp s i data).2.2 := by
  unfold winWrOp
  dsimp -proj only
  split
  · exact .refl
  · exact .snd₂ (moveWindow_keeps.after writeUnits_keeps)

theorem execWr_keeps {a : Word} {ws : List Word} {s : State} : Answers [.regs, .phi, .cte, .lpx, .prs, .cls, .fwt, .bpm, .qba, .ssc, .rsq, .cra, .tdx, .syu, .gwe, .plt, .icu, .free] s (execWr a ws s) := by
  unfold execWr
  exact .next (hostOp_keeps wrOp_keeps)

theorem execRmw_keeps {a mask value : Word} {s : State} : Answers [.regs, .phi, .cte, .lpx, .prs, .cls, .fwt, .bpm, .qba, .ssc, .rsq, .cra, .tdx, .syu, .gwe, .plt, .icu, .free] s (execRmw a mask value s) := by
  unfold execRmw
  exact .next (hostOp_keeps rmwOp_keeps)

theorem execWinRd_keeps {i : Fin 4} {count : Nat} {s : State} : Answers [.regs, .cte, .bpm, .qba, .ssc, .cra, .gwe, .free] s (execWinRd i count s) := by
  unfold execWinRd
  exact .next (hostSess_keeps winRdOp_keeps)

theorem execWinWr_keeps {i : Fin 4} {data : List Byte} {s : State} : Answers [.regs, .phi, .cte, .lpx, .prs, .cls, .fwt, .bpm, .qba, .ssc, .rsq, .cra, .tdx, .syu, .gwe, .plt, .icu, .free] s (execWinWr i data s) := by
  unfold execWinWr
  exact .next (hostSess_keeps winWrOp_keeps)

theorem runOpcode_keeps {s : State} {f : GwReq} {first : Bool} {x : GwOp} : Keeps [.regs, .glb, .phi, .cte, .lpx, .prs, .cls, .fwt, .bpm, .qba, .ssc, .rsq, .cra, .tdx, .syu, .gwe, .plt, .icu, .free] s (runOpcode s f first x).2.2 := by
  unfold runOpcode
  split
  · exact identifyOp_keeps.mono
  · exact claimOp_keeps.mono
  · split
    · exact openOp_keeps.mono
    · exact .refl
  · exact .refl
  · exact rdOp_keeps.mono
  · exact wrOp_keeps.mono
  · exact rmwOp_keeps.mono
  · exact winSetOp_keeps.mono
  · exact winRdOp_keeps.mono
  · exact winWrOp_keeps.mono
  · exact tblOp_keeps.mono
  · exact longOp_keeps.mono
  · exact abortOp_keeps.mono
  · exact statusOp_keeps.mono
  · exact modeOp_keeps.mono
  · exact evackOp_keeps.mono
  · exact injectTask_keeps.mono
  · exact dbgOp_keeps.mono
  · exact patchOp_keeps.mono
  · exact .refl
  · exact .refl

theorem runCmd_keeps {s : State} {f : GwReq} {first : Bool} {c : GwCmd} : Keeps [.regs, .glb, .phi, .cte, .lpx, .prs, .cls, .fwt, .bpm, .qba, .ssc, .rsq, .cra, .tdx, .syu, .gwe, .plt, .icu, .free] s (runCmd s f first c).2.2 := by
  unfold runCmd
  dsimp -proj only
  split
  · split
    · exact runOpcode_keeps
    · exact .refl
  · split
    · exact runOpcode_keeps
    · exact .refl

theorem runCmds_keeps {f : GwReq} {x x1 : Bool} {x2 : List GwCmd} {x3 : State} : Keeps [.regs, .glb, .phi, .cte, .lpx, .prs, .cls, .fwt, .bpm, .qba, .ssc, .rsq, .cra, .tdx, .syu, .gwe, .plt, .icu, .free] x3 (runCmds f x x1 x2 x3).2.2 := by
  induction x2 generalizing x x1 x3 with
  | nil =>
    unfold runCmds
    exact .refl
  | cons y x2 ih =>
    unfold runCmds
    dsimp -proj only
    refine .snd₂ ?_
    refine ih.comp ?_
    split
    · exact .refl
    · exact runCmd_keeps

theorem executeFrame_keeps {s : State} {f : GwReq} : Keeps [.regs, .glb, .phi, .cte, .lpx, .prs, .cls, .fwt, .bpm, .qba, .ssc, .rsq, .cra, .tdx, .syu, .gwe, .plt, .icu, .free] s (executeFrame s f) := by
  unfold executeFrame
  dsimp -proj only
  exact .ite (closeSess_keeps.after (sendReply_keeps.after (keepReply_keeps.after (.ite (runCmds_keeps.after raiseH_keeps.mono) (noteHost_keeps.after (runCmds_keeps.after raiseH_keeps.mono)))))) (sendReply_keeps.after (keepReply_keeps.after (.ite (runCmds_keeps.after raiseH_keeps.mono) (noteHost_keeps.after (runCmds_keeps.after raiseH_keeps.mono)))))

theorem checkFrameReq_keeps {s : State} {f : GwReq} : Keeps [.regs, .glb, .phi, .cte, .lpx, .prs, .cls, .fwt, .bpm, .qba, .ssc, .rsq, .cra, .tdx, .syu, .gwe, .plt, .icu, .free] s (checkFrameReq s f) := by
  unfold checkFrameReq
  dsimp -proj only
  split
  · exact refuse_keeps.after State.bump_keeps.mono
  · split
    · exact answerFrame_keeps.after State.bump_keeps.mono
    · exact .ite refuse_keeps.mono (.ite (refuse_keeps.after State.bump_keeps.mono) (.ite refuse_keeps.mono executeFrame_keeps))

theorem processFrame_keeps {s : State} {f : GwFrame} : Keeps [.regs, .glb, .phi, .cte, .lpx, .prs, .cls, .fwt, .bpm, .qba, .ssc, .rsq, .cra, .tdx, .syu, .gwe, .plt, .icu, .free] s (processFrame s f) := by
  unfold processFrame
  split
  · exact refuse_keeps.after State.bump_keeps.mono
  · exact checkFrameReq_keeps

theorem takeFrame_keeps {s : State} {f : GwFrame} : Keeps [.regs, .glb, .phi, .cte, .lpx, .prs, .cls, .fwt, .bpm, .qba, .ssc, .rsq, .cra, .tdx, .syu, .gwe, .plt, .icu, .free] s (takeFrame s f) := by
  unfold takeFrame
  exact .ite holdFrame_keeps.mono processFrame_keeps

theorem processHeld_keeps {before s : State} {f : GwFrame} : Keeps [.regs, .glb, .phi, .cte, .lpx, .prs, .cls, .fwt, .bpm, .qba, .ssc, .rsq, .cra, .tdx, .syu, .gwe, .plt, .icu, .free] s (processHeld before s f) := by
  unfold processHeld
  dsimp -proj only
  exact .ite State.bump_keeps.mono processFrame_keeps

theorem runHeld_keeps {s : State} : Keeps [.regs, .glb, .phi, .cte, .lpx, .prs, .cls, .fwt, .bpm, .qba, .ssc, .rsq, .cra, .tdx, .syu, .gwe, .plt, .icu, .free] s (runHeld s) := by
  unfold runHeld
  dsimp -proj only
  exact .ite .refl (.foldl (fun _ _ => processHeld_keeps) (keeps_gwe).mono)

theorem execWarmResetDone_keeps {s : State} : Answers [.regs, .glb, .phi, .cte, .lpx, .prs, .cls, .fwt, .bpm, .qba, .ssc, .rsq, .cra, .tdx, .syu, .gwe, .plt, .icu, .free] s (execWarmResetDone s) := by
  unfold execWarmResetDone
  exact .next (.ite (runHeld_keeps.after (recomputeBps_keeps.after warmFinish_keeps.mono)) .refl)

theorem takeover_keeps {s : State} : Keeps [.regs, .glb, .phi, .cte, .lpx, .prs, .cls, .fwt, .bpm, .qba, .ssc, .rsq, .cra, .tdx, .syu, .gwe, .plt, .icu, .free] s (takeover s) := by
  unfold takeover
  dsimp -proj only
  split
  · exact .refl
  · exact runHeld_keeps.after (State.raiseEv_keeps.after ((keeps_plt).after (State.bumpGen_keeps.after (State.bump_keeps.after losePatch_keeps.mono))))

theorem execLeadTakeover_keeps {s : State} : Answers [.regs, .glb, .phi, .cte, .lpx, .prs, .cls, .fwt, .bpm, .qba, .ssc, .rsq, .cra, .tdx, .syu, .gwe, .plt, .icu, .free] s (execLeadTakeover s) := by
  unfold execLeadTakeover
  exact .next takeover_keeps

theorem verifyFrame_gwe {s u : State} {f : GwFrame} (h : verifyFrame s f = some u) : ∃ a, u = { s with gwe := { s.gwe with assoc := a, heard := f.tied } } := by
  unfold verifyFrame at h
  split at h
  · exact nomatch h
  split at h
  · exact nomatch h
  · obtain ⟨b, -, rfl⟩ := Option.map_eq_some_iff.mp h
    exact ⟨_, rfl⟩

theorem arrive_keeps {s : State} {f : GwFrame} :
    Keeps [.regs, .glb, .phi, .cte, .lpx, .prs, .cls, .fwt, .bpm, .qba, .ssc, .rsq, .cra, .tdx, .syu, .gwe, .plt, .icu, .free] s (arrive s f) := by
  unfold arrive
  split
  · exact .refl
  split
  · exact State.bump_keeps.mono
  split
  · exact .refl
  dsimp -proj only
  split
  · split
    · exact State.bump_keeps.after State.bump_keeps.mono
    · rename_i u hu
      obtain ⟨a, rfl⟩ := verifyFrame_gwe hu
      split
      · exact takeFrame_keeps.after (noteHost_keeps.after ((keeps_gwe).after State.bump_keeps.mono))
      · exact (keeps_gwe).mono
  · exact .ite (takeFrame_keeps.after State.bump_keeps.mono) .refl

theorem execCommandFrame_keeps {f : GwFrame} {s : State} : Answers [.regs, .glb, .phi, .cte, .lpx, .prs, .cls, .fwt, .bpm, .qba, .ssc, .rsq, .cra, .tdx, .syu, .gwe, .plt, .icu, .free] s (execCommandFrame f s) := by
  unfold execCommandFrame
  exact .next arrive_keeps

theorem exec_keeps {i : Instr} {s : State} : Answers [.regs, .glb, .phi, .cte, .lpx, .prs, .cls, .fwt, .bpm, .qba, .ssc, .rsq, .cra, .tdx, .syu, .gwe, .plt, .icu, .lineTx, .free] s (exec i s) := by
  unfold exec
  split
  · exact execPhaseStep_keeps.mono
  · exact execEstimatedStep_keeps.mono
  · exact execCoastedStep_keeps.mono
  · exact execSelfPhaseStep_keeps.mono
  · exact execTick_keeps.mono
  · exact execCrossingBegin_keeps.mono
  · exact execPhaseWord_keeps.mono
  · exact execStepPresenceFail_keeps.mono
  · exact execPhaseAdopt_keeps.mono
  · exact execHoldoverExpiry_keeps.mono
  · exact execPhaseRevert_keeps.mono
  · exact execPhaseRealign_keeps.mono
  · exact execCopySelect_keeps.mono
  · exact execPhiSourceSelect_keeps.mono
  · exact execPhiNowXingRead_keeps.mono
  · exact execCteSwapArm_keeps.mono
  · exact execCteSwapCancel_keeps.mono
  · exact execCteSwapNow_keeps.mono
  · exact execTimetableSwap_keeps.mono
  · exact execDepartureStart_keeps.mono
  · exact execPrefetchPoint_keeps.mono
  · exact execPrefetchLand_keeps.mono
  · exact execPrefetchDeadline_keeps.mono
  · exact execDueQueueRead_keeps.mono
  · exact execPrefetchAreaWait_keeps.mono
  · exact execLinkStateApply_keeps.mono
  · exact execAgeDrop_keeps.mono
  · exact execFrameReceive_keeps.mono
  · exact execParseFrame_keeps.mono
  · exact execParseEnd_keeps.mono
  · exact execFragHoldExpiry_keeps.mono
  · exact execFragLifeExpiry_keeps.mono
  · exact execSequenceAssign_keeps.mono
  · exact execFlowContextFetch_keeps.mono
  · exact execRobEntryWait_keeps.mono
  · exact execLearnApply_keeps.mono
  · exact execMoveApply_keeps.mono
  · exact execLearnNotice_keeps.mono
  · exact execLearnNoticeApply_keeps.mono
  · exact execAgerVisit_keeps.mono
  · exact execPinRelease_keeps.mono
  · exact execHashSeedWrite_keeps.mono
  · exact execTblSearch_keeps.mono
  · exact execTblNext_keeps.mono
  · exact execTblInsert_keeps.mono
  · exact execTblDelete_keeps.mono
  · exact execTblFlushPort_keeps.mono
  · exact execPoolBaseWrite_keeps.mono
  · exact execPoolCountCommit_keeps.mono
  · exact execPoolRebuildDone_keeps.mono
  · exact execHostFree_keeps.mono
  · exact execAdmitFrame_keeps.mono
  · exact execDwellStage_keeps.mono
  · exact execQbaQselWrite_keeps.mono
  · exact execQbaQdataRead_keeps.mono
  · exact execSegFlushExpiry_keeps.mono
  · exact execSegmentWritten_keeps.mono
  · exact execHbmRequestIssue_keeps.mono
  · exact execUrgencyLate_keeps.mono
  · exact execRowIdleClose_keeps.mono
  · exact execRefreshDue_keeps.mono
  · exact execTrainingDone_keeps.mono
  · exact execSpareRemap_keeps.mono
  · exact execChannelLost_keeps.mono
  · exact execStackLost_keeps.mono
  · exact execRebuildSegment_keeps.mono
  · exact execRebuildResume_keeps.mono
  · exact execRsqRelease_keeps.mono
  · exact execGapTimeout_keeps.mono
  · exact execHandoffAck_keeps.mono
  · exact execFrameLeaveQuay_keeps.mono
  · exact execEditProgWrite_keeps.mono
  · exact execPortDataCommit_keeps.mono
  · exact execHelperReply_keeps.mono
  · exact execHelperTimeout_keeps.mono
  · exact execPilotThreadRestart_keeps.mono
  · exact execRunaway_keeps.mono
  · exact execBreakpointHit_keeps.mono
  · exact execThreadStop_keeps.mono
  · exact execThreadRestart_keeps.mono
  · exact execThreadHalt_keeps.mono
  · exact execThreadResume_keeps.mono
  · exact execThreadStep_keeps.mono
  · exact execPsCheckStart_keeps.mono
  · exact execPsCheckDone_keeps.mono
  · exact execPsFetchRepair_keeps.mono
  · exact execDbgRegRead_keeps.mono
  · exact execDbgRegWrite_keeps.mono
  · exact execDebugEnClear_keeps.mono
  · exact execSupervisorSet_keeps.mono
  · exact execAdd_keeps.mono
  · exact execSub_keeps.mono
  · exact execAndd_keeps.mono
  · exact execOrr_keeps.mono
  · exact execXorr_keeps.mono
  · exact execShl_keeps.mono
  · exact execShr_keeps.mono
  · exact execSar_keeps.mono
  · exact execRot_keeps.mono
  · exact execMinn_keeps.mono
  · exact execMaxx_keeps.mono
  · exact execMul_keeps.mono
  · exact execPopc_keeps.mono
  · exact execClz_keeps.mono
  · exact execOrShift16_keeps.mono
  · exact execOrShift32_keeps.mono
  · exact execOrShift48_keeps.mono
  · exact execBfx_keeps.mono
  · exact execBfi_keeps.mono
  · exact execLd8_keeps.mono
  · exact execLd16_keeps.mono
  · exact execLd32_keeps.mono
  · exact execLd64_keeps.mono
  · exact execSt8_keeps.mono
  · exact execSt16_keeps.mono
  · exact execSt32_keeps.mono
  · exact execSt64_keeps.mono
  · exact execFld_keeps.mono
  · exact execFst_keeps.mono
  · exact execFlen_keeps.mono
  · exact execBeq_keeps.mono
  · exact execBne_keeps.mono
  · exact execBlt_keeps.mono
  · exact execBge_keeps.mono
  · exact execBltu_keeps.mono
  · exact execBgeu_keeps.mono
  · exact execBbs_keeps.mono
  · exact execBbc_keeps.mono
  · exact execJ_keeps.mono
  · exact execJal_keeps.mono
  · exact execJr_keeps.mono
  · exact execCrc32c_keeps.mono
  · exact execHash_keeps.mono
  · exact execTwait_keeps.mono
  · exact execTdone_keeps.mono
  · exact execTpost_keeps.mono
  · exact execTdefer_keeps.mono
  · exact execBalloc_keeps.mono
  · exact execBfree_keeps.mono
  · exact execBshare_keeps.mono
  · exact execBcheck_keeps.mono
  · exact execLkp_keeps.mono
  · exact execLrn_keeps.mono
  · exact execLock_keeps.mono
  · exact execLockGrant_keeps.mono
  · exact execTrylock_keeps.mono
  · exact execUnlock_keeps.mono
  · exact execLkclean_keeps.mono
  · exact execLkforce_keeps.mono
  · exact execEvwait_keeps.mono
  · exact execEvsig_keeps.mono
  · exact execChput_keeps.mono
  · exact execChclose_keeps.mono
  · exact execChget_keeps.mono
  · exact execEmit_keeps.mono
  · exact execRetire_keeps.mono
  · exact execTohost_keeps.mono
  · exact execStage_keeps.mono
  · exact execPhase_keeps.mono
  · exact execSupread_keeps.mono
  · exact execSupstop_keeps.mono
  · exact execSuprestart_keeps.mono
  · exact execTrap_keeps.mono
  · exact execNop_keeps.mono
  · exact execTaskDeliver_keeps.mono
  · exact execAffinityWaitEnd_keeps.mono
  · exact execDelayExpiry_keeps.mono
  · exact execRemoteTaskArrive_keeps.mono
  · exact execAffinityClear_keeps.mono
  · exact execTraceControlWrite_keeps.mono
  · exact execTraceMark_keeps.mono
  · exact execTraceSpill_keeps.mono
  · exact execHostLockForce_keeps.mono
  · exact execHostEventSignal_keeps.mono
  · exact execHostChannelPut_keeps.mono
  · exact execInspectSelect_keeps.mono
  · exact execClearAbandon_keeps.mono
  · exact execStrandedReport_keeps.mono
  · exact execCommandFrame_keeps.mono
  · exact execIdentify_keeps.mono
  · exact execClaim_keeps.mono
  · exact execOpenSession_keeps.mono
  · exact execClose_keeps.mono
  · exact execRd_keeps.mono
  · exact execWr_keeps.mono
  · exact execRmw_keeps.mono
  · exact execWinSet_keeps.mono
  · exact execWinRd_keeps.mono
  · exact execWinWr_keeps.mono
  · exact execLongFill_keeps.mono
  · exact execLongCrc_keeps.mono
  · exact execLongTblClear_keeps.mono
  · exact execLongOpCheckpoint_keeps.mono
  · exact execLongOpComplete_keeps.mono
  · exact execAbort_keeps.mono
  · exact execStatus_keeps.mono
  · exact execModeSet_keeps.mono
  · exact execModeWarm_keeps.mono
  · exact execModeCold_keeps.mono
  · exact execModeUnit_keeps.mono
  · exact execUnitRestartDone_keeps.mono
  · exact execPortDrain_keeps.mono
  · exact execEvack_keeps.mono
  · exact execTaskInject_keeps.mono
  · exact execDbg_keeps.mono
  · exact execPatch_keeps.mono
  · exact execPatchApply_keeps.mono
  · exact execEventSend_keeps.mono
  · exact execEventRetransmit_keeps.mono
  · exact execExceptionSend_keeps.mono
  · exact execHostWdogExpiry_keeps.mono
  · exact execWdogEscalation_keeps.mono
  · exact execHostFailover_keeps.mono
  · exact execColdStart_keeps.mono
  · exact execLeadTakeover_keeps.mono
  · exact execMcsScrub_keeps.mono
  · exact execMcsRepair_keeps.mono
  · exact execWarmReset_keeps.mono
  · exact execWarmResetDone_keeps.mono
  · exact execColdReset_keeps.mono
  · exact execQuayFlush_keeps.mono
  · exact execDrained_keeps.mono
  · exact execSramScrub_keeps.mono
  · exact execHbmScrub_keeps.mono
  · exact execTableShadowCheck_keeps.mono
  · exact execTableRestore_keeps.mono
  · exact execStaticEntryRepair_keeps.mono
  · exact execTimetableEntryRestore_keeps.mono
  · exact execHeartbeat_keeps.mono
  · exact execHeartbeatLoss_keeps.mono
  · exact execHostDieExclude_keeps.mono
  · exact execDieSupplyFault_keeps.mono
  · exact execFlitRetry_keeps.mono
  · exact execLaneFail_keeps.mono
  · exact execPortConfigWrite_keeps.mono
  · exact execLinkTrainingDone_keeps.mono
  · exact execLinkFailureDetect_keeps.mono
  · exact execLinkDownReport_keeps.mono
  · exact execLinkUpReport_keeps.mono
  · exact execFrameTransmitEnd_keeps.mono
  · exact execSupplyValid_keeps.mono
  · exact execSupplyExcursion_keeps.mono
  · exact execResetNAssert_keeps.mono
  · exact execResetNRelease_keeps.mono
  · exact execRefclkLoss_keeps.mono
  · exact execRefclkReturn_keeps.mono
  · exact execThermWarn_keeps.mono
  · exact execThermtrip_keeps.mono
  · exact execExtest_keeps.mono
  · exact execIdcode_keeps.mono
  · exact execSamplePreload_keeps.mono
  · exact execClamp_keeps.mono
  · exact execHighz_keeps.mono
  · exact execExtestPulse_keeps.mono
  · exact execExtestTrain_keeps.mono
  · exact execBypass_keeps.mono
  · exact execTapHoldEnd_keeps.mono
  · exact execTapReset_keeps.mono
  · exact execBroadcastWrite_keeps.mono
  · exact execRegisterWrite_keeps.mono
  · exact execHostAttachmentLink_keeps.mono
  · exact execArpRequest_keeps.mono
  · exact execPortIslandLost_keeps.mono
  · exact execPilotRamError_keeps.mono
  · exact execStackTempHot_keeps.mono
  · exact execLinkConditionsMet_keeps.mono

end Sys2Proof.Machine

/-! PROOFS. The invariant at reset and behind every step, and that every command completes. -/

namespace Sys2Proof.Machine

/-- Settles O1: the step's two cases are its definition. -/
theorem stepRunsFront : Obligations.StepRunsFront := by
  intro c rest s
  refine ⟨rfl, fun h => ?_⟩
  unfold step
  rw [h]

/-- Settles O2: the state after reset is written out. -/
theorem resetHoldsNothing : Obligations.ResetHoldsNothing :=
  ⟨rfl, rfl, rfl, rfl, rfl, rfl, rfl, fun _ => rfl, fun _ => rfl, fun _ _ => rfl, fun _ _ => rfl, rfl, rfl, rfl, rfl, rfl, rfl, rfl, rfl⟩

/-- Settles O3: each clause of the invariant evaluates on the state after reset. -/
theorem resetInv : Obligations.ResetInv :=
  ⟨⟨rfl, rfl, rfl, rfl⟩, ⟨by decide, rfl, rfl, rfl⟩, rfl, rfl, Nat.zero_le _⟩

/-- Settles O4: taking the command off the queue touches no part of which the invariant speaks, and every command keeps it. -/
theorem stepKeepsInv : Obligations.StepKeepsInv := by
  intro s t hs h
  unfold step at h
  split at h
  · obtain rfl := Host.Outcome.next.inj h
    exact hs
  · rename_i c rest hp
    obtain ⟨u, hu, ku⟩ := exec_keeps (i := c) (s := { s with pending := rest })
    obtain rfl := Host.Outcome.next.inj (hu.symm.trans h)
    exact ku.inv (keeps_pending.inv hs)

/-! Commands on a die that the part lacks. -/

/-- A command's outcome is a next state with nothing but the Gangway's answer changed. -/
def Stays (s : State) (r : Res) : Prop := ∃ t, r = .next t ∧ only [.gwe] s t

section
variable {s : State} {d : Nat} (h : s.dies ≤ d)
include h

theorem onDie_stays {t : State} : Stays s (onDie s d t) := ⟨s, onDie_absent s t d h, only_refl _ s⟩

theorem onCra_stays {t : State} : Stays s (onCra s d t) := onDie_stays h

theorem rolk_stays {n : Nat} {op : ROp} {f : RIns → State → State} : Stays s (rolk s d n op f) := onCra_stays h

theorem hostDieWr_stays {p : Bool} {f : State → Ans} : Stays s (hostDieWr s d p f) := by
  obtain ⟨e, he⟩ := hostDieWr_absent s d p f h
  exact ⟨_, he, wrResult_only e s⟩

theorem hostCraWr_stays {f : State → Ans} : Stays s (hostCraWr s d f) := hostDieWr_stays h

theorem hostDieRd_stays {f : State → Word × State} : Stays s (hostDieRd s d f) := by
  refine ⟨_, rfl, ?_⟩
  rw [if_pos (Or.inl h)]
  exact gwe_only s _

theorem hostDieRdSt_stays {f : State → Status × Word × State} : Stays s (hostDieRdSt s d f) := by
  refine ⟨_, rfl, ?_⟩
  dsimp only
  split
  · exact gwe_only s _
  · rw [if_pos (Or.inl h)]
    exact gwe_only s _

end

theorem exec_stays {c : Instr} {s : State} {d : Nat} (hd : c.die = some d) (h : s.dies ≤ d) : Stays s (exec c s) := by
  cases c
  case phaseRealign | departureStart | prefetchPoint | prefetchLand | prefetchDeadline | dueQueueRead | prefetchAreaWait | linkStateApply | ageDrop
       | frameReceive | parseFrame | parseEnd | fragHoldExpiry | fragLifeExpiry | sequenceAssign | flowContextFetch | robEntryWait | learnApply
       | moveApply | learnNotice | learnNoticeApply | agerVisit | pinRelease | poolRebuildDone | admitFrame | dwellStage | hbmRequestIssue
       | rowIdleClose | refreshDue | spareRemap | channelLost | stackLost | rsqRelease | gapTimeout | frameLeaveQuay | psCheckDone | delayExpiry
       | traceSpill | unitRestartDone | mcsScrub | mcsRepair | hbmScrub | tableShadowCheck | tableRestore | staticEntryRepair | heartbeat
       | heartbeatLoss | dieSupplyFault | flitRetry | laneFail | linkTrainingDone | linkFailureDetect | linkDownReport | linkUpReport
       | frameTransmitEnd | thermWarn | thermtrip | portIslandLost | pilotRamError | stackTempHot | linkConditionsMet =>
    all_goals exact onDie_stays (h.trans_eq (Option.some.inj hd).symm)
  case hashSeedWrite | poolBaseWrite | poolCountCommit | hostFree | qbaQselWrite | editProgWrite | portDataCommit | psCheckStart | dbgRegWrite
       | affinityClear | traceControlWrite | traceMark | inspectSelect | clearAbandon | portConfigWrite =>
    all_goals
      unfold exec
      exact hostDieWr_stays (h.trans_eq (Option.some.inj hd).symm)
  case qbaQdataRead =>
    unfold exec
    exact hostDieRd_stays (h.trans_eq (Option.some.inj hd).symm)
  case helperReply | helperTimeout | pilotThreadRestart | runaway | breakpointHit | psFetchRepair | lockGrant | taskDeliver | affinityWaitEnd
       | remoteTaskArrive | strandedReport | sramScrub =>
    all_goals exact onCra_stays (h.trans_eq (Option.some.inj hd).symm)
  case threadStop | threadRestart | threadHalt | threadResume | threadStep | debugEnClear | supervisorSet | hostLockForce | hostEventSignal
       | hostChannelPut =>
    all_goals
      unfold exec
      exact hostCraWr_stays (h.trans_eq (Option.some.inj hd).symm)
  case dbgRegRead =>
    unfold exec
    exact hostDieRdSt_stays (h.trans_eq (Option.some.inj hd).symm)
  case add | sub | andd | orr | xorr | shl | shr | sar | rot | minn | maxx | mul | popc | clz | orShift16 | orShift32 | orShift48 | bfx | bfi | ld8
       | ld16 | ld32 | ld64 | st8 | st16 | st32 | st64 | fld | fst | flen | beq | bne | blt | bge | bltu | bgeu | bbs | bbc | j | jal | jr | crc32c
       | hash | twait | tdone | tpost | tdefer | balloc | bfree | bshare | bcheck | lkp | lrn | lock | trylock | unlock | lkclean | lkforce | evwait
       | evsig | chput | chclose | chget | emit | retire | tohost | stage | phase | supread | supstop | suprestart | trap | nop =>
    all_goals exact rolk_stays (h.trans_eq (Option.some.inj hd).symm)
  all_goals exact nomatch hd

/-- Settles O5: every command answers a next state, and each that names a die is guarded by the part's number of dies. -/
theorem everyCommandCompletes : Obligations.EveryCommandCompletes := by
  refine ⟨fun c s => ?_, fun s h => ?_, fun c s d hd h => exec_stays hd h⟩
  · obtain ⟨t, ht, -⟩ := exec_keeps (i := c) (s := s)
    exact ⟨t, ht⟩
  · unfold stops step at h
    split at h
    · exact h _ rfl
    · obtain ⟨t, ht, -⟩ := exec_keeps
      exact h t ht

end Sys2Proof.Machine

/-! PROOFS. Which register words an operation may write: the layer for the obligations that read a register after others were written. -/

namespace Sys2Proof.Machine

theorem State.Inv.rise {s : State} (h : s.Inv) : mrise 0 s.regs = true := h.2.1.1

theorem reg_of_regs {s t : State} (h : t.regs = s.regs) (q : Reg) (e : Nat) (jdx : List Nat) : t.reg q e jdx = s.reg q e jdx := by
  unfold State.reg
  rw [h]

theorem rf_of_regs {s t : State} (h : t.regs = s.regs) (q : Reg) (e : Nat) (jdx : List Nat) (hi lo : Nat) : t.rf q e jdx hi lo = s.rf q e jdx hi lo := by
  unfold State.rf
  rw [reg_of_regs h]

theorem gen_of_regs {s t : State} (h : t.regs = s.regs) (q : Reg) (e : Nat) : t.gen q e = s.gen q e := rf_of_regs h q e [] 31 16

/-- From s to t at most the register words at the addresses of A changed, and the words stay listed by rising address. -/
structure Writes (A : List Nat) (s t : State) : Prop where
  rise : mrise 0 s.regs = true → mrise 0 t.regs = true
  same : mrise 0 s.regs = true → ∀ a, a ∉ A → mfind t.regs a = mfind s.regs a

namespace Writes

variable {A B : List Nat} {s t u : State}

theorem of_eq (h : t.regs = s.regs) : Writes A s t := ⟨fun hr => h ▸ hr, fun _ _ _ => by rw [h]⟩

theorem refl (s : State) : Writes A s s := of_eq rfl

theorem trans (h : Writes A s t) (k : Writes A t u) : Writes A s u :=
  ⟨fun hr => k.rise (h.rise hr), fun hr a ha => (k.same (h.rise hr) a ha).trans (h.same hr a ha)⟩

theorem mono (h : Writes A s t) (hA : A ⊆ B) : Writes B s t := ⟨h.rise, fun hr a ha => h.same hr a (fun m => ha (hA m))⟩

/-- A frame without the registers writes none. -/
theorem of_only {l : List Piece} (h : only l s t) (hl : Piece.regs ∉ l) : Writes A s t := of_eq (h .regs hl)

theorem of_keeps {l : List Piece} (h : Keeps l s t) (hl : Piece.regs ∉ l) : Writes A s t := of_only h.frame hl

/-- A register at an address outside A reads as before. -/
theorem reg (h : Writes A s t) (hr : mrise 0 s.regs = true) {q : Reg} {e : Nat} {jdx : List Nat} (hq : q.addr e jdx ∉ A) : t.reg q e jdx = s.reg q e jdx := by
  unfold State.reg mget
  rw [h.same hr _ hq]

theorem rf (h : Writes A s t) (hr : mrise 0 s.regs = true) {q : Reg} {e hi lo : Nat} {jdx : List Nat} (hq : q.addr e jdx ∉ A) :
    t.rf q e jdx hi lo = s.rf q e jdx hi lo := by
  unfold State.rf
  rw [h.reg hr hq]

theorem gen (h : Writes A s t) (hr : mrise 0 s.regs = true) {q : Reg} {e : Nat} (hq : q.addr e [] ∉ A) : t.gen q e = s.gen q e := h.rf hr hq

theorem ite {c : Prop} [Decidable c] (h : Writes A s t) (k : Writes A s u) : Writes A s (if c then t else u) := by
  split
  · exact h
  · exact k

theorem foldl {α : Type} {f : State → α → State} {xs : List α} (hf : ∀ t x, Writes A t (f t x)) (s : State) : Writes A s (xs.foldl f s) :=
  foldl_keep (Writes A s) f (fun t x h => h.trans (hf t x)) xs s (refl s)

end Writes

section
variable {A : List Nat} (s : State) (r : Reg) (d : Nat) (idx : List Nat)

theorem State.setReg_writes (w : Word) (h : r.addr d idx ∈ A := by simp) : Writes A s (s.setReg r d idx w) :=
  ⟨s.setReg_rise r d idx w, fun hr a ha => by
    have ne : a ≠ r.addr d idx := fun e => ha (e ▸ h)
    unfold State.setReg mset
    dsimp only
    split
    · exact mfind_mremove_other_rise _ _ ne _ 0 hr
    · exact mfind_minsert_other _ _ _ ne _⟩

theorem State.setRf_writes (hi lo v : Nat) (h : r.addr d idx ∈ A := by simp) : Writes A s (s.setRf r d idx hi lo v) := s.setReg_writes r d idx _ h

theorem State.bumpF_writes (hi lo n : Nat) (h : r.addr d idx ∈ A := by simp) : Writes A s (s.bumpF r d idx hi lo n) := s.setRf_writes r d idx _ _ _ h

theorem State.bumpN_writes (n : Nat) (h : r.addr d idx ∈ A := by simp) : Writes A s (s.bumpN r d idx n) := s.bumpF_writes r d idx _ _ _ h

theorem State.bump_writes (h : r.addr d idx ∈ A := by simp) : Writes A s (s.bump r d idx) := s.bumpN_writes r d idx _ h

theorem State.bumpGen_writes (h : r.addr d [] ∈ A := by simp) : Writes A s (s.bumpGen r d) := s.setRf_writes r d [] _ _ _ h

theorem State.queueEv_writes (at_ code die gen : Nat) (args : List Nat) (h : Reg.addr .GWE_EVT_LOST 0 [] ∈ A := by simp) :
    Writes A s (s.queueEv at_ code die gen args) := by
  unfold State.queueEv
  split
  · exact .of_eq rfl
  · exact (s.bump_writes .GWE_EVT_LOST 0 [] h).trans (.of_eq rfl)

theorem State.raiseAt_writes (at_ code die gen : Nat) (args : List Nat) (h : Reg.addr .GWE_EVT_LOST 0 [] ∈ A := by simp) :
    Writes A s (s.raiseAt at_ code die gen args) := by
  unfold State.raiseAt
  split
  · exact s.queueEv_writes _ _ _ _ _ h
  · extract_lets n _ t
    have ht : Writes A s t := .of_eq rfl
    exact (ht.trans (t.queueEv_writes _ _ _ _ _ h)).trans (State.queueEv_writes _ _ _ _ _ _ h)

theorem State.raiseEv_writes (code die gen : Nat) (args : List Nat) (h : Reg.addr .GWE_EVT_LOST 0 [] ∈ A := by simp) :
    Writes A s (s.raiseEv code die gen args) := s.raiseAt_writes _ _ _ _ _ h

end

/-! Counters. -/

/-- A counter field counts up and stands at its top (R6). -/
theorem State.rf_bumpF_self (s : State) (r : Reg) (d : Nat) (idx : List Nat) (lo k n : Nat) (h : mrise 0 s.regs = true) (hk : 0 < k) (hl : lo + k ≤ 32) :
    (s.bumpF r d idx (lo + k - 1) lo n).rf r d idx (lo + k - 1) lo = min (2 ^ k - 1) (s.rf r d idx (lo + k - 1) lo + n) := by
  unfold State.bumpF
  rw [State.rf_setRf_self _ _ _ _ _ _ _ h hk hl, show lo + k - 1 + 1 - lo = k by omega]
  have hp : 0 < 2 ^ k := by positivity
  exact Nat.mod_eq_of_lt (lt_of_le_of_lt (min_le_left _ _) (by unfold ones; omega))

theorem fld_word (w : Word) : fld w 31 0 = w.toNat := by
  unfold fld bitsOf
  have := w.isLt
  omega

theorem counts_bumpN (s : State) (r : Reg) (d : Nat) (idx : List Nat) (n : Nat) (h : mrise 0 s.regs = true) : counts s (s.bumpN r d idx n) r d idx n := by
  have hb := s.rf_bumpF_self r d idx 0 32 n h (by decide) (by decide)
  unfold State.rf at hb
  rwa [fld_word, fld_word] at hb

theorem counts_bump (s : State) (r : Reg) (d : Nat) (idx : List Nat) (h : mrise 0 s.regs = true) : counts s (s.bump r d idx) r d idx 1 := counts_bumpN s r d idx 1 h

/-- A counter that goes up between two stretches that do not write it. -/
theorem counts.after {A : List Nat} {s t u : State} {r : Reg} {d : Nat} {idx : List Nat} {n : Nat} (h : counts s t r d idx n) (k : Writes A t u)
    (hr : mrise 0 t.regs = true) (ha : r.addr d idx ∉ A) : counts s u r d idx n := by
  unfold counts
  rw [k.reg hr ha]
  exact h

theorem counts.before {A : List Nat} {s t u : State} {r : Reg} {d : Nat} {idx : List Nat} {n : Nat} (k : Writes A s t) (h : counts t u r d idx n)
    (hr : mrise 0 s.regs = true) (ha : r.addr d idx ∉ A) : counts s u r d idx n := by
  unfold counts at h ⊢
  rwa [k.reg hr ha] at h

/-! Events. -/

theorem tells_raiseAt (s : State) (at_ code die gen : Nat) (args : List Nat) : tells s (s.raiseAt at_ code die gen args) code die args := by
  intro hl hq
  unfold State.raiseAt
  rw [if_pos (Or.inl hl)]
  unfold State.queueEv
  rw [if_pos hq]
  exact ⟨_, rfl, rfl, rfl, rfl⟩

theorem tells_raiseEv (s : State) (code die gen : Nat) (args : List Nat) : tells s (s.raiseEv code die gen args) code die args :=
  tells_raiseAt s die code die gen args

/-- Steps before and behind a report that leave the Gangway alone. -/
theorem tells.of_gwe {s s' t t' : State} {code die : Nat} {args : List Nat} (h : tells s t code die args) (hs : s.gwe = s'.gwe) (ht : t'.gwe = t.gwe) :
    tells s' t' code die args := by
  unfold tells
  rw [ht, ← hs]
  exact h

end Sys2Proof.Machine

/-! PROOFS. Ticks, the latched read of the phase, and the changes of the phase state (spec/02). -/

namespace Sys2Proof.Machine

theorem execTick_next {s : State} (h : s.phi.tickDone ≠ s.ticks) : exec .tick s = .next { s with
    phi := { s.phi with tickDone := (s.phi.tickDone + 1) % (2 ^ 64 / 2 ^ s.tickShift) }
    glb := { s.glb with ageCnt := if s.glb.mode = .moored then s.glb.ageCnt else s.glb.ageCnt + 1 } } := by
  show execTick s = _
  unfold execTick
  rw [if_pos h]

/-- The words that a read of PHI_NOW_XING latches stand in the registers of the step number and the tick count (R58). -/
theorem rdNowXing_latches {s : State} (h : mrise 0 s.regs = true) :
    (rdNowXing s).2.reg .PHI_NOW_STEP 0 [] = BitVec.ofNat 32 s.phi.step ∧ (rdNowXing s).2.reg .PHI_TICKS_LO 0 [] = BitVec.ofNat 32 s.ticks
      ∧ (rdNowXing s).2.reg .PHI_TICKS_HI 0 [] = BitVec.ofNat 32 (s.ticks / 2 ^ 32) := by
  unfold rdNowXing
  extract_lets x t0 t1 t2
  have h0 : mrise 0 t0.regs = true := s.setReg_rise _ _ _ _ h
  have h1 : mrise 0 t1.regs = true := t0.setReg_rise _ _ _ _ h0
  have h2 : mrise 0 t2.regs = true := t1.setReg_rise _ _ _ _ h1
  refine ⟨?_, ?_, t2.reg_setReg_self _ _ _ _ h2⟩
  · rw [t2.reg_setReg_other _ _ _ _ _ _ _ h2 (by decide), t1.reg_setReg_other _ _ _ _ _ _ _ h1 (by decide), t0.reg_setReg_self _ _ _ _ h0]
  · rw [t2.reg_setReg_other _ _ _ _ _ _ _ h2 (by decide), t1.reg_setReg_self _ _ _ _ h1]

/-- A read in a claimed mode answers the word that it has read (R387, R388). -/
theorem rdResult_any {s : State} {a : Word × State} (h : s.glb.mode.any = true) :
    rdResult s a = { a.2 with gwe := { a.2.gwe with results := [{ opcode := 0x10, tag := 0, status := .ok, data := beBytes 4 a.1.toNat }] } } := by
  unfold rdResult
  rw [if_pos h]

/-- Settles O7: a tick by its own equation, a read by the words that it latches. -/
theorem ticksAndPhaseReads : Obligations.TicksAndPhaseReads := by
  refine fun s => ⟨execTick_next, fun hi hm => ?_⟩
  obtain ⟨t, ht, k⟩ := execPhiNowXingRead_keeps (s := s)
  refine ⟨t, ht, ?_⟩
  obtain rfl := Host.Outcome.next.inj ht
  have hframe := k.frame
  rw [rdResult_any hm] at hframe ⊢
  obtain ⟨hstep, hlo, hhi⟩ := rdNowXing_latches (s := s) hi.rise
  exact ⟨rfl, hstep, hlo, hhi, hframe⟩

/-! What the changes of the phase state leave of the phase receiver. -/

@[simp] theorem phEvent_phi (s : State) (code : Nat) (args : List Nat) : (phEvent s code args).phi = s.phi := phEvent_keeps.frame .phi (by decide)
@[simp] theorem reportJump_phi (s : State) (had : Bool) (held : Nat) : (reportJump s had held).phi = s.phi := reportJump_keeps.frame .phi (by decide)
@[simp] theorem settleCopy_phi (s : State) : (settleCopy s).phi = s.phi := settleCopy_keeps.frame .phi (by decide)
@[simp] theorem drainPorts_phi (s : State) : (drainPorts s).phi = s.phi := drainPorts_keeps.frame .phi (by decide)
@[simp] theorem settleRounds_phi (s : State) : (settleRounds s).phi = s.phi := settleRounds_keeps.frame .phi (by decide)

/-- A new phase state or source, of which LOCKED and SELF establish the phase (R49, R51). -/
theorem setPhase_phi {s : State} {st : PhSt} {src : PhSrc} (h : ¬ (s.phi.st = st ∧ s.phi.src = src)) :
    (setPhase s st src).phi = { s.phi with st := st, src := src, ever := s.phi.ever || decide (st = .locked ∨ st = .self) } := by
  unfold setPhase
  rw [if_neg h, settleRounds_phi, State.bumpGen_phi]

/-- Whatever state and source stand before, those set stand behind. -/
theorem setPhase_phi_ever (s : State) (st : PhSt) (src : PhSrc) :
    (setPhase s st src).phi = { s.phi with st := st, src := src, ever := (setPhase s st src).phi.ever } := by
  by_cases h : s.phi.st = st ∧ s.phi.src = src
  · obtain ⟨rfl, rfl⟩ := h
    unfold setPhase
    rw [if_pos ⟨rfl, rfl⟩]
  · rw [setPhase_phi h]

theorem takePeriod_phi (s : State) (i : PhInp) :
    (takePeriod s i).phi = { s.phi with period := if (s.phIn i).measured = 0 then s.phi.period else (s.phIn i).measured } := by
  unfold takePeriod
  dsimp only
  split <;> rfl

theorem toLost_phi {s : State} (h : s.phi.st = .holdover) : (toLost s).phi = { s.phi with st := .lost, src := .none } := by
  unfold toLost
  dsimp only
  rw [phEvent_phi, setPhase_phi (by simp [h])]
  simp

theorem switchTo_phi {s : State} {i : PhInp} (h : s.phi.st = .locked) (ha : s.isActive i = false) :
    (switchTo s i).phi = { s.phi with
      src := inpSrc i, ever := true, period := if (s.phIn i).measured = 0 then s.phi.period else (s.phIn i).measured } := by
  have hsrc : s.phi.src ≠ inpSrc i := fun e => by simp [State.isActive, h, e] at ha
  unfold switchTo
  dsimp only
  rw [phEvent_phi, setPhase_phi (by rw [takePeriod_phi]; exact fun e => hsrc e.2), takePeriod_phi]
  simp [h]

theorem adoptPhase_phi (s : State) (i : PhInp) :
    (adoptPhase s i).phi.st = .locked ∧ (adoptPhase s i).phi.src = inpSrc i ∧ (adoptPhase s i).phi.step = 0 ∧ (adoptPhase s i).phi.xing = (s.phIn i).xing
      ∧ (adoptPhase s i).phi.stepCnt = (s.phi.stepCnt + 1) % 2 ^ 64 ∧ (adoptPhase s i).phi.adopt = none := by
  unfold adoptPhase
  extract_lets x had held t0 _ t1 t2 t3
  have h3 : t3.phi = { t1.phi with st := .locked, src := inpSrc i, ever := t2.phi.ever, period := (takePeriod t1 i).phi.period } := by
    rw [phEvent_phi, setPhase_phi_ever, takePeriod_phi]
  rw [stepBanks_phi, beginCrossing_phi, reportJump_phi, h3]
  exact ⟨rfl, rfl, rfl, rfl, by rw [← drainPorts_phi s], rfl⟩

/-- A new source takes the phase to no source, to acquisition or to the self-phase (R49, R59). -/
theorem applySource_phi (s : State) {src : Nat} (h : src ≠ 3) (hs : src < 4) :
    (applySource s src).phi.st = (if src = 1 then .acquire else if src = 2 then .self else .none)
      ∧ (applySource s src).phi.src = (if src = 2 then .self else .none) ∧ (applySource s src).phi.stepCnt = s.phi.stepCnt
      ∧ (src = 2 → (applySource s src).phi.step = 0 ∧ (applySource s src).phi.xing = (s.reg .PHI_SELF_START 0 []).toNat) := by
  unfold applySource
  extract_lets _ t start _ _ u u1 u2
  have ht : t.phi = { s.phi with adopt := none, st := .none, src := .none, ever := t.phi.ever } := setPhase_phi_ever _ _ _
  have hu2 : u2.phi = { u.phi with st := .self, src := .self, ever := u1.phi.ever } := by rw [phEvent_phi, setPhase_phi_ever]
  clear_value t
  split
  · dsimp only [consider]
    rw [setPhase_phi_ever, ht]
    simp
  · rw [stepBanks_phi, beginCrossing_phi, reportJump_phi, hu2]
    have hcnt : t.phi.stepCnt = s.phi.stepCnt := by rw [ht]
    exact ⟨rfl, rfl, hcnt, fun _ => ⟨rfl, rfl⟩⟩
  · rename_i h1 h2
    rw [if_neg h1, if_neg h2, if_neg h2, ht]
    exact ⟨rfl, rfl, rfl, fun e => absurd e h2⟩

/-! Which registers a copy taken over by a phase word writes. -/

/-- The words that a swap of the copies writes (R78, R81). -/
def swapRegs : List Nat := [Reg.addr .CTE_LAST_SWAP 0 [], Reg.addr .CTE_SWAP_CNT 0 [], Reg.addr .CTE_STATE 0 [], Reg.addr .GWE_EVT_LOST 0 []]

theorem swapTo_writes (s : State) (copy xing : Nat) : Writes swapRegs s (swapTo s copy xing) := by
  unfold swapTo
  extract_lets _ t
  have ht : Writes swapRegs s t := .of_eq rfl
  exact (ht.trans (t.setReg_writes _ _ _ _ (by simp [swapRegs]))).trans (State.bumpF_writes _ _ _ _ _ _ _ (by simp [swapRegs]))

theorem hostSwap_writes (s : State) (xing : Nat) : Writes swapRegs s (hostSwap s xing) := by
  unfold hostSwap
  extract_lets t0 _ t1 t2
  have h1 : Writes swapRegs s t1 := (swapTo_writes s _ xing).trans (.of_eq rfl)
  have h2 : Writes swapRegs t1 t2 := t1.bumpGen_writes _ _ (by simp [swapRegs])
  exact (h1.trans h2).trans (State.raiseEv_writes _ _ _ _ _ (by simp [swapRegs]))

theorem dueSwap_writes (s : State) : Writes swapRegs s (dueSwap s) := by
  unfold dueSwap
  split
  · exact .ite (hostSwap_writes s _) (.refl s)
  · exact .refl s

theorem settleCopy_writes (s : State) : Writes swapRegs s (settleCopy s) := by
  unfold settleCopy
  split
  · extract_lets t0 _ t1
    have h1 : Writes swapRegs s t1 := (dueSwap_writes s).trans (.of_eq rfl)
    exact .ite (.ite h1 (h1.trans (swapTo_writes t1 _ _))) (.refl s)
  · exact .refl s

/-! The source of PHI_CTRL. -/

/-- The writable bits of PHI_CTRL keep SRC as written (R61). -/
theorem phiCtrl_src (w : Word) : fld (BitVec.ofNat 32 (w.toNat &&& 0x3B)) 1 0 = fld w 1 0 := by
  unfold fld bitsOf
  rw [BitVec.toNat_ofNat]
  have h : w.toNat &&& 0x3B < 2 ^ 32 := lt_of_le_of_lt Nat.and_le_right (by decide)
  rw [Nat.mod_eq_of_lt h, pow_zero, Nat.div_one, Nat.div_one]
  show (w.toNat &&& 0x3B) % 2 ^ 2 = w.toNat % 2 ^ 2
  rw [Nat.and_mod_two_pow]
  exact Nat.and_two_pow_sub_one_of_lt_two_pow (Nat.mod_lt _ (by decide))

/-- A write of PHI_CTRL in PROVISION with another source takes the copy that waits, stores the word and applies the source (R6, R41, R49). -/
theorem wrPhiCtrl_source {s : State} {w : Word} (hm : s.glb.mode = .provision) (hg : genOk (fld w 31 16) (s.gen .PHI_STATE 0) = true)
    (h3 : fld w 1 0 ≠ 3) (hn : fld w 1 0 ≠ s.rf .PHI_CTRL 0 [] 1 0) :
    ∃ u, wrPhiCtrl s w = (.ok, applySource u (fld w 1 0)) ∧ u.phi = s.phi
      ∧ (mrise 0 s.regs = true → u.reg .PHI_SELF_START 0 [] = s.reg .PHI_SELF_START 0 []) := by
  have hf := phiCtrl_src w
  unfold wrPhiCtrl
  extract_lets old new t0 _ t1 t2
  have hd : fld new 1 0 ≠ fld old 1 0 := by rw [hf]; exact hn
  rw [if_neg (by simp [hg]), if_neg h3, if_neg (fun e => hd (by rw [e])), if_neg (by simp [hm]), if_neg hd, hf]
  refine ⟨t2, rfl, settleCopy_phi s, fun hr => ?_⟩
  have h1 : Writes swapRegs s t1 := (settleCopy_writes s).trans (.of_eq rfl)
  have hw : Writes (Reg.addr .PHI_CTRL 0 [] :: swapRegs) s t2 :=
    (h1.mono (List.subset_cons_self _ _)).trans (t1.setReg_writes .PHI_CTRL 0 [] new List.mem_cons_self)
  exact hw.reg hr (by decide)

/-- Settles O9: each command's guard holds, and the phase receiver behind it is known field by field. -/
theorem phaseStateChanges : Obligations.PhaseStateChanges := by
  refine fun s => ⟨fun i ha hh hn hs => ?adopt, fun hs hx => ?expiry, fun hs ha hb h0 hh hw hg => ?revert, fun d hd h0 hk => ?realign, fun w hm hg h3 hn => ?source⟩
  case adopt =>
    obtain ⟨t, ht, k⟩ := execPhaseAdopt_keeps (s := s)
    have e : t = adoptPhase s i := by
      have := Host.Outcome.next.inj ht
      rw [ha] at this
      exact this.symm.trans (if_pos ⟨hh, hn, hs⟩)
    subst e
    obtain ⟨h1, h2, h3, h4, h5, h6⟩ := adoptPhase_phi s i
    exact ⟨_, ht, h1, h2, h3, h4, h5, h6, k.frame⟩
  case expiry =>
    obtain ⟨t, ht, k⟩ := execHoldoverExpiry_keeps (s := s)
    have e : t = toLost s := (Host.Outcome.next.inj ht).symm.trans (if_pos ⟨hs, hx⟩)
    exact ⟨t, ht, e ▸ toLost_phi hs, k.frame⟩
  case revert =>
    obtain ⟨t, ht, k⟩ := execPhaseRevert_keeps (s := s)
    have e : t = switchTo s s.prefInp := (Host.Outcome.next.inj ht).symm.trans (if_pos ⟨hs, by simp [ha], hb, h0, hh, hw, hg⟩)
    exact ⟨t, ht, e ▸ switchTo_phi hs ha, k.frame⟩
  case realign =>
    obtain ⟨t, ht, k⟩ := execPhaseRealign_keeps (d := d) (s := s)
    refine ⟨t, ht, ?_, k.frame⟩
    unfold execPhaseRealign at ht
    rw [onDie_live _ _ _ hd, if_pos ⟨h0, hk⟩] at ht
    obtain rfl := Host.Outcome.next.inj ht
    rfl
  case source =>
    obtain ⟨u, hu, hphi, hstart⟩ := wrPhiCtrl_source hm hg h3 hn
    obtain ⟨t, ht, k⟩ := execPhiSourceSelect_keeps (w := w) (s := s)
    refine ⟨t, ht, ?_⟩
    have hframe := k.frame
    unfold execPhiSourceSelect at ht
    rw [hostWr_any _ _ (by rw [hm]; rfl), hu] at ht
    obtain rfl := Host.Outcome.next.inj ht
    have hlt : fld w 1 0 < 4 := Nat.mod_lt _ (by decide)
    obtain ⟨h1, h2, h4, h5⟩ := applySource_phi u h3 hlt
    refine ⟨h1, h2, h4.trans (congrArg Phi.stepCnt hphi), rfl, fun hi hsrc => ?_, hframe⟩
    rw [← hstart hi.rise]
    exact h5 hsrc

/-! A write of CTE_SWAP. -/

theorem bit_eq_decide (w : Word) (n : Nat) : bit w n = decide (w.toNat / 2 ^ n % 2 = 1) := by
  unfold bit
  rw [← BitVec.testBit_toNat, Nat.testBit_eq_decide_div_mod_eq]

/-- The word that a command of CTE_SWAP writes: the expected generation and one of its three bits (R101). -/
theorem swapWord (exp : BitVec 16) (k : Nat) (hk : k < 3) :
    fld (packWord [(16, exp.toNat), (k, 1)]) 31 16 = exp.toNat ∧ ∀ j, j < 3 → bit (packWord [(16, exp.toNat), (k, 1)]) j = decide (j = k) := by
  have he := exp.isLt
  have hp : 2 ^ k < 65536 := Nat.pow_lt_pow_right (n := 16) (by decide) (by omega)
  have hw : (packWord [(16, exp.toNat), (k, 1)]).toNat = exp.toNat * 65536 + 2 ^ k := by
    unfold packWord
    simp only [List.foldl_cons, List.foldl_nil, BitVec.toNat_ofNat]
    omega
  constructor
  · unfold fld bitsOf
    rw [hw]
    generalize 2 ^ k = m at *
    omega
  · intro j hj
    rw [bit_eq_decide, hw, decide_eq_decide]
    obtain rfl | rfl | rfl : k = 0 ∨ k = 1 ∨ k = 2 := by omega
    all_goals
      obtain rfl | rfl | rfl : j = 0 ∨ j = 1 ∨ j = 2 := by omega
      all_goals omega

section
variable {s : State} {w : Word} {e : Nat} (hg : fld w 31 16 = e)
include hg

theorem wrSwap_arm (h0 : bit w 0 = true) (h1 : bit w 1 = false) (h2 : bit w 2 = false) :
    wrSwap s w = if ¬ genOk e (s.gen .CTE_STATE 0) then (.stale, s)
      else if s.copySrc then (.denied, s)
      else if s.cte.swap.isSome then (.busy, s)
      else if s.earlyFor (s.reg .CTE_SWAP_XING 0 []).toNat then
        (.ok, ({ s with cte := { s.cte with swap := some (s.reg .CTE_SWAP_XING 0 []).toNat } } : State).bumpGen .CTE_STATE 0)
      else (.denied, s.bumpF .CTE_SWAP_CNT 0 [] 31 16 1) := by
  unfold wrSwap
  rw [hg, h0, h1, h2]
  dsimp only
  rw [if_neg (by decide : ¬ 1 < b2n true + b2n false + b2n false), if_pos rfl]

theorem wrSwap_cancel_none (h0 : bit w 0 = false) (h1 : bit w 1 = true) (h2 : bit w 2 = false) (hs : s.cte.swap = none) :
    wrSwap s w = if ¬ genOk e (s.gen .CTE_STATE 0) then (.stale, s) else (.ok, s) := by
  unfold wrSwap
  rw [hg, h0, h1, h2, hs]
  dsimp only
  rw [if_neg (by decide : ¬ 1 < b2n false + b2n true + b2n false), if_neg Bool.false_ne_true, if_pos rfl]

theorem wrSwap_cancel_some {n : Nat} (h0 : bit w 0 = false) (h1 : bit w 1 = true) (h2 : bit w 2 = false) (hs : s.cte.swap = some n) :
    wrSwap s w = if ¬ genOk e (s.gen .CTE_STATE 0) then (.stale, s)
      else if s.earlyFor n then (.ok, ({ s with cte := { s.cte with swap := none } } : State).bumpGen .CTE_STATE 0) else (.denied, s) := by
  unfold wrSwap
  rw [hg, h0, h1, h2, hs]
  dsimp only
  rw [if_neg (by decide : ¬ 1 < b2n false + b2n true + b2n false), if_neg Bool.false_ne_true, if_pos rfl]

theorem wrSwap_now (h0 : bit w 0 = false) (h1 : bit w 1 = false) (h2 : bit w 2 = true) :
    wrSwap s w = if ¬ genOk e (s.gen .CTE_STATE 0) then (.stale, s)
      else if s.glb.mode ≠ .provision then (.mode, s)
      else if s.copySrc then (.denied, s)
      else if s.cte.swap.isSome then (.busy, s)
      else (.ok, hostSwap s s.phi.xing) := by
  unfold wrSwap
  rw [hg, h0, h1, h2]
  dsimp only
  rw [if_neg (by decide : ¬ 1 < b2n false + b2n false + b2n true), if_neg Bool.false_ne_true, if_neg Bool.false_ne_true, if_pos rfl]

end

theorem execCteSwapArm_eq {s : State} (exp : BitVec 16) (hm : s.glb.mode.any = true) :
    exec (.cteSwapArm exp) s = .next (wrResult (wrSwap s (packWord [(16, exp.toNat), (0, 1)]))) := by
  show execCteSwapArm exp s = _
  unfold execCteSwapArm
  rw [hostWr_any _ _ hm]

theorem execCteSwapCancel_eq {s : State} (exp : BitVec 16) (hm : s.glb.mode.any = true) :
    exec (.cteSwapCancel exp) s = .next (wrResult (wrSwap s (packWord [(16, exp.toNat), (1, 1)]))) := by
  show execCteSwapCancel exp s = _
  unfold execCteSwapCancel
  rw [hostWr_any _ _ hm]

theorem execCteSwapNow_eq {s : State} (exp : BitVec 16) (hm : s.glb.mode.any = true) :
    exec (.cteSwapNow exp) s = .next (wrResult (wrSwap s (packWord [(16, exp.toNat), (2, 1)]))) := by
  show execCteSwapNow exp s = _
  unfold execCteSwapNow
  rw [hostWr_any _ _ hm]

/-! What a swap records. -/

/-- Where the event queue has room, a report touches the Gangway alone. -/
theorem raiseEv_regs_of_room {s : State} (code die gen : Nat) (args : List Nat) (hl : s.gwe.evLost = 0) (hq : s.gwe.evq.length < 4096) :
    (s.raiseEv code die gen args).regs = s.regs := by
  unfold State.raiseEv State.raiseAt
  rw [if_pos (Or.inl hl)]
  unfold State.queueEv
  rw [if_pos hq]

@[simp] theorem swapTo_gwe (s : State) (c x : Nat) : (swapTo s c x).gwe = s.gwe := swapTo_keeps.frame .gwe (by decide)

/-- A swap records its crossing and counts, and leaves the generation (R78, R81). -/
theorem swapTo_records {s : State} (c x : Nat) (hr : mrise 0 s.regs = true) :
    (swapTo s c x).reg .CTE_LAST_SWAP 0 [] = BitVec.ofNat 32 x ∧ (swapTo s c x).gen .CTE_STATE 0 = s.gen .CTE_STATE 0
      ∧ (swapTo s c x).rf .CTE_SWAP_CNT 0 [] 15 0 = min 65535 (s.rf .CTE_SWAP_CNT 0 [] 15 0 + 1) := by
  unfold swapTo
  extract_lets _ t
  have ht : mrise 0 t.regs = true := hr
  have h1 : mrise 0 (t.setReg .CTE_LAST_SWAP 0 [] (BitVec.ofNat 32 x)).regs = true := t.setReg_rise _ _ _ _ ht
  have hlast : Writes [Reg.addr .CTE_LAST_SWAP 0 []] t (t.setReg .CTE_LAST_SWAP 0 [] (BitVec.ofNat 32 x)) := t.setReg_writes _ _ _ _
  have hcnt : Writes [Reg.addr .CTE_SWAP_CNT 0 []] (t.setReg .CTE_LAST_SWAP 0 [] (BitVec.ofNat 32 x))
      ((t.setReg .CTE_LAST_SWAP 0 [] (BitVec.ofNat 32 x)).bumpF .CTE_SWAP_CNT 0 [] 15 0 1) := State.bumpF_writes _ _ _ _ _ _ _
  refine ⟨?_, ?_, ?_⟩
  · rw [hcnt.reg h1 (by decide), t.reg_setReg_self _ _ _ _ ht]
  · rw [hcnt.gen h1 (by decide), hlast.gen ht (by decide)]
    rfl
  · rw [State.rf_bumpF_self _ _ _ _ 0 16 1 h1 (by decide) (by decide), hlast.rf ht (by decide)]
    rfl

theorem hostSwap_cte (s : State) (x : Nat) : (hostSwap s x).cte = { s.cte with active := 1 - s.cte.active, swap := none } := by
  unfold hostSwap
  rw [State.raiseEv_cte, State.bumpGen_cte]
  rfl

theorem hostSwap_swapped (s : State) : s.swapped (hostSwap s s.phi.xing) := by
  unfold State.swapped hostSwap
  extract_lets t0 _ t1 t2
  have hgwe : t2.gwe = s.gwe := (State.bumpGen_gwe _ _ _).trans (swapTo_gwe s (1 - s.cte.active) s.phi.xing)
  have hact : t2.cte.active = (t2.raiseEv 0x8401 pkg (t2.gen .CTE_STATE 0) [s.phi.xing, t2.cte.active, t2.gen .CTE_STATE 0]).cte.active := by
    rw [State.raiseEv_cte]
  refine ⟨fun hi => ?_, fun hl hq => ?_⟩
  · obtain ⟨h1, h2, h3⟩ := swapTo_records (s := s) (1 - s.cte.active) s.phi.xing hi.rise
    have hr1 : mrise 0 t1.regs = true := (swapTo_writes s (1 - s.cte.active) s.phi.xing).rise hi.rise
    have hr2 : mrise 0 t2.regs = true := t1.bumpGen_rise _ _ hr1
    have hgen : Writes [Reg.addr .CTE_STATE 0 []] t1 t2 := t1.bumpGen_writes _ _
    have hev : Writes [Reg.addr .GWE_EVT_LOST 0 []] t2 (t2.raiseEv 0x8401 pkg (t2.gen .CTE_STATE 0) [s.phi.xing, t2.cte.active, t2.gen .CTE_STATE 0]) :=
      t2.raiseEv_writes _ _ _ _
    refine ⟨?_, ?_, ?_⟩
    · rw [hev.reg hr2 (by decide), hgen.reg hr1 (by decide)]
      exact h1
    · rw [hev.gen hr2 (by decide), t1.gen_bumpGen _ _ hr1]
      exact congrArg (fun g => (g + 1) % 2 ^ 16) h2
    · rw [hev.rf hr2 (by decide), hgen.rf hr1 (by decide)]
      exact h3
  · rw [← hgwe] at hl hq
    have hsame := gen_of_regs (raiseEv_regs_of_room 0x8401 pkg (t2.gen .CTE_STATE 0) [s.phi.xing, t2.cte.active, t2.gen .CTE_STATE 0] hl hq) .CTE_STATE 0
    rw [hsame, ← hact, ← hgwe]
    exact tells_raiseEv t2 0x8401 pkg (t2.gen .CTE_STATE 0) [s.phi.xing, t2.cte.active, t2.gen .CTE_STATE 0] hl hq

section
variable {s : State}

theorem dueSwap_due {n : Nat} (hs : s.cte.swap = some n) (hn : reaches s.phi.xing n = true) : dueSwap s = hostSwap s s.phi.xing := by
  unfold dueSwap
  rw [hs]
  exact if_pos hn

theorem dueSwap_none (hs : s.cte.swap = none) : dueSwap s = s := by
  unfold dueSwap
  rw [hs]

theorem settleCopy_due {c x : Nat} (hc : s.cte.nextCopy = some (c, some x)) (hsrc : s.copySrc = true) :
    settleCopy s =
      (if c = (dueSwap s).cte.active then { dueSwap s with cte := { (dueSwap s).cte with nextCopy := none } }
       else swapTo { dueSwap s with cte := { (dueSwap s).cte with nextCopy := none } } c x) := by
  unfold settleCopy
  rw [hc]
  exact if_pos hsrc

theorem settleCopy_none (h : s.copySrc = false ∨ ∀ c x, s.cte.nextCopy ≠ some (c, some x)) : settleCopy s = s := by
  unfold settleCopy
  split
  · rename_i c x hc
    rw [if_neg]
    rcases h with h | h
    · simp [h]
    · exact absurd hc (h c x)
  · rfl

/-- The copy that a word selected is the active one behind COPY_SELECT, and no copy waits any longer (R41). -/
theorem settleCopy_selects {c x : Nat} (hc : s.cte.nextCopy = some (c, some x)) (hsrc : s.copySrc = true) :
    (settleCopy s).cte.active = c ∧ (settleCopy s).cte.nextCopy = none := by
  rw [settleCopy_due hc hsrc]
  split
  · rename_i h
    exact ⟨h.symm, rfl⟩
  · exact ⟨rfl, rfl⟩

/-- With no swap armed, COPY_SELECT records the copy's swap alone (R78, R81). -/
theorem settleCopy_alone {c x : Nat} (hc : s.cte.nextCopy = some (c, some x)) (hsrc : s.copySrc = true) (hs : s.cte.swap = none) :
    (settleCopy s).cte = { s.cte with active := c, nextCopy := none } ∧ (settleCopy s).gwe = s.gwe
      ∧ (c = s.cte.active → (settleCopy s).regs = s.regs)
      ∧ (c ≠ s.cte.active → s.Inv → (settleCopy s).reg .CTE_LAST_SWAP 0 [] = BitVec.ofNat 32 x ∧ (settleCopy s).gen .CTE_STATE 0 = s.gen .CTE_STATE 0
          ∧ (settleCopy s).rf .CTE_SWAP_CNT 0 [] 15 0 = min 65535 (s.rf .CTE_SWAP_CNT 0 [] 15 0 + 1)) := by
  rw [settleCopy_due hc hsrc, dueSwap_none hs]
  split
  · rename_i h
    exact ⟨by rw [h], rfl, fun _ => rfl, fun hn => absurd h hn⟩
  · rename_i h
    refine ⟨rfl, swapTo_gwe _ _ _, fun e => absurd e h, fun _ hi => ?_⟩
    exact swapTo_records (s := { s with cte := { s.cte with nextCopy := none } }) c x hi.rise

theorem Mode.any_of_provision (h : s.glb.mode = .provision) : s.glb.mode.any = true := by
  rw [h]
  rfl

/-- An arm that comes too late counts (R77). -/
theorem lateArm_counts (hi : s.Inv) : (s.bumpF .CTE_SWAP_CNT 0 [] 31 16 1).rf .CTE_SWAP_CNT 0 [] 31 16 = min 65535 (s.rf .CTE_SWAP_CNT 0 [] 31 16 + 1) :=
  s.rf_bumpF_self .CTE_SWAP_CNT 0 [] 16 16 1 hi.rise (by decide) (by decide)

end

section
variable {s : State} {exp : BitVec 16}

/-- The three writes of CTE_SWAP by their checks in order (R77, R80, R81). -/
theorem cteSwapArm_outcomes (hm : s.glb.mode.any = true) :
    exec (.cteSwapArm exp) s = .next (wrResult (if ¬ genOk exp.toNat (s.gen .CTE_STATE 0) then (.stale, s)
      else if s.copySrc then (.denied, s)
      else if s.cte.swap.isSome then (.busy, s)
      else if s.earlyFor (s.reg .CTE_SWAP_XING 0 []).toNat then
        (.ok, ({ s with cte := { s.cte with swap := some (s.reg .CTE_SWAP_XING 0 []).toNat } } : State).bumpGen .CTE_STATE 0)
      else (.denied, s.bumpF .CTE_SWAP_CNT 0 [] 31 16 1))) := by
  obtain ⟨hg, hb⟩ := swapWord exp 0 (by decide)
  rw [execCteSwapArm_eq exp hm, wrSwap_arm hg (hb 0 (by decide)) (hb 1 (by decide)) (hb 2 (by decide))]

theorem cteSwapCancel_none (hm : s.glb.mode.any = true) (hs : s.cte.swap = none) :
    exec (.cteSwapCancel exp) s = .next (wrResult (if ¬ genOk exp.toNat (s.gen .CTE_STATE 0) then (.stale, s) else (.ok, s))) := by
  obtain ⟨hg, hb⟩ := swapWord exp 1 (by decide)
  rw [execCteSwapCancel_eq exp hm, wrSwap_cancel_none hg (hb 0 (by decide)) (hb 1 (by decide)) (hb 2 (by decide)) hs]

theorem cteSwapCancel_some {n : Nat} (hm : s.glb.mode.any = true) (hs : s.cte.swap = some n) :
    exec (.cteSwapCancel exp) s = .next (wrResult (if ¬ genOk exp.toNat (s.gen .CTE_STATE 0) then (.stale, s)
      else if s.earlyFor n then (.ok, ({ s with cte := { s.cte with swap := none } } : State).bumpGen .CTE_STATE 0) else (.denied, s))) := by
  obtain ⟨hg, hb⟩ := swapWord exp 1 (by decide)
  rw [execCteSwapCancel_eq exp hm, wrSwap_cancel_some hg (hb 0 (by decide)) (hb 1 (by decide)) (hb 2 (by decide)) hs]

theorem cteSwapNow_outcomes (hm : s.glb.mode.any = true) :
    exec (.cteSwapNow exp) s = .next (wrResult (if ¬ genOk exp.toNat (s.gen .CTE_STATE 0) then (.stale, s)
      else if s.glb.mode ≠ .provision then (.mode, s)
      else if s.copySrc then (.denied, s)
      else if s.cte.swap.isSome then (.busy, s)
      else (.ok, hostSwap s s.phi.xing))) := by
  obtain ⟨hg, hb⟩ := swapWord exp 2 (by decide)
  rw [execCteSwapNow_eq exp hm, wrSwap_now hg (hb 0 (by decide)) (hb 1 (by decide)) (hb 2 (by decide))]

end

/-- Settles O10: each write of CTE_SWAP by the check that decides it, a swap by what it records. -/
theorem timetableSwaps : Obligations.TimetableSwaps := by
  refine fun s => ⟨?arm, ?refusals, ?stale, ?cancel, ?now, ?armed, ?selected, ?none⟩
  case arm =>
    intro exp hm hg hsrc hs he
    rw [cteSwapArm_outcomes hm]
    simp [hg, hsrc, hs, he]
  case refusals =>
    intro exp hm hg
    rw [cteSwapArm_outcomes hm, cteSwapNow_outcomes hm]
    refine ⟨?_, ?_, ?_, ?_, ?_, ?_, ?_, ?_⟩
    · intro hsrc; simp [hg, hsrc]
    · intro hsrc hs; simp [hg, hsrc, hs]
    · intro hsrc hs he
      exact ⟨_, by simp [hg, hsrc, hs, he], State.bumpF_only _ _ _ _ _ _ _, lateArm_counts⟩
    · intro hs; simp [cteSwapCancel_none hm hs, hg]
    · intro n hs he; simp [cteSwapCancel_some hm hs, hg, he]
    · intro hp; simp [hg, hp]
    · intro hp hsrc; simp [hg, hp, hsrc]
    · intro hp hsrc hs; simp [hg, hp, hsrc, hs]
  case stale =>
    intro exp hm hg
    rw [cteSwapArm_outcomes hm, cteSwapNow_outcomes hm]
    refine ⟨by simp [hg], ?_, by simp [hg]⟩
    cases hs : s.cte.swap with
    | none => simp [cteSwapCancel_none hm hs, hg]
    | some n => simp [cteSwapCancel_some hm hs, hg]
  case cancel =>
    intro exp n hm hg hs he
    simp [cteSwapCancel_some hm hs, hg, he]
  case now =>
    intro exp hp hg hsrc hs
    have he : exec (.cteSwapNow exp) s = .next (wrResult (.ok, hostSwap s s.phi.xing)) := by
      rw [cteSwapNow_outcomes (Mode.any_of_provision hp)]
      simp [hg, hp, hsrc, hs]
    refine ⟨_, he, (hostSwap_cte s _).trans (by rw [← hs]), rfl, hostSwap_swapped s, ?_⟩
    exact only_trans (only_mono (by simp) hostSwap_keeps.frame) (only_mono (by simp) (wrResult_only _ _))
  case armed =>
    intro n hs hn
    exact ⟨_, congrArg Host.Outcome.next (dueSwap_due hs hn), hostSwap_cte s _, hostSwap_swapped s, hostSwap_keeps.frame⟩
  case selected =>
    intro c x hc hsrc
    obtain ⟨ha, hn⟩ := settleCopy_selects hc hsrc
    exact ⟨_, rfl, ha, hn, settleCopy_keeps.frame, settleCopy_alone hc hsrc⟩
  case none => exact fun h => congrArg Host.Outcome.next (settleCopy_none h)

end Sys2Proof.Machine

/-! PROOFS. Free lists, pools and their placement (spec/06 R168 to R184). -/

namespace Sys2Proof.Machine

/-! Numbers as bytes. -/

theorem bytesAt_putBytes (m : Mem) (a : Nat) (l : List Byte) (h : mwf 0 m = true) : bytesAt (putBytes m a l) a l.length = l := by
  unfold bytesAt
  refine List.ext_getElem (by simp) fun i h1 h2 => ?_
  have hi : i < l.length := by simpa using h2
  rw [List.getElem_map, List.getElem_range, putBytes_get l m a i h hi, List.getD_eq_getElem l 0 hi]

theorem beBytes_length (n v : Nat) : (beBytes n v).length = n := by
  induction n with
  | zero => rfl
  | succ n ih => simp [beBytes, ih]

/-- The bytes of a number, read after x, are the number. -/
theorem foldl_beBytes (n v x : Nat) : (beBytes n v).foldl (fun x b => x * 256 + b.toNat) x = x * 256 ^ n + v % 256 ^ n := by
  induction n generalizing x with
  | zero => simp [beBytes, Nat.mod_one]
  | succ n ih =>
    have hsplit : v % 256 ^ (n + 1) = v / 256 ^ n % 256 * 256 ^ n + v % 256 ^ n := by
      rw [pow_succ, Nat.mod_mul, Nat.add_comm, Nat.mul_comm (256 ^ n)]
    simp only [beBytes, List.foldl_cons, ih, BitVec.toNat_ofNat, hsplit, show 2 ^ 8 = 256 from rfl]
    ring

theorem natAt_putBytes (m : Mem) (a n v : Nat) (h : mwf 0 m = true) (hv : v < 256 ^ n) : natAt (putBytes m a (beBytes n v)) a n = v := by
  have hb := bytesAt_putBytes m a (beBytes n v) h
  rw [beBytes_length] at hb
  unfold natAt
  rw [hb, foldl_beBytes, Nat.mod_eq_of_lt hv]
  omega

/-! Allocation. -/

theorem mget_mset_ne {α : Type} [DecidableEq α] {d v : α} (m : SMap α) (k : Nat) (h : v ≠ d) : mget d (mset d m k v) k = v := by
  unfold mget mset
  rw [if_neg h, mfind_minsert_self]
  rfl

theorem State.allocated_setAlloc (s : State) (h : Nat) : (s.setAlloc h true).allocated h = true := mget_mset_ne (d := false) (v := true) _ _ (by decide)

theorem State.link_setHead (s : State) (d i h x : Nat) : (s.setHead d i h).link x = s.link x := rfl

/-- A link written into a buffer is read back. -/
theorem State.link_putQuay (s : State) (h v : Nat) (hw : mwf 0 s.bpm.quay = true) (hv : v < 2 ^ 64) : (s.putQuay h 0 (beBytes 8 v)).link h = v := by
  unfold State.link State.putQuay
  dsimp only
  rw [Nat.add_zero]
  exact natAt_putBytes _ _ 8 v hw (lt_of_lt_of_eq hv (by norm_num))

section
variable {s : State} {d r c : Nat}

/-- A pool that is quarantined, not placed or empty gives no buffer (R173, R175). -/
theorem allocBuf_unavailable (h : s.quarantined d (r * 4 + c) = true ∨ s.poolCount d (r * 4 + c) = 0 ∨ s.poolHead d (r * 4 + c) = 0) :
    allocBuf s d r c = (none, if s.quarantined d (r * 4 + c) then (s.bump .BPM_ALLOC_FAIL d [c]).bump .BPM_QUAR_FAIL d else s.bump .BPM_ALLOC_FAIL d [c]) := by
  unfold allocBuf
  dsimp only
  by_cases hq : s.quarantined d (r * 4 + c) = true
  · rw [if_pos hq, if_pos hq]
  · rw [if_neg hq, if_neg hq, if_pos (h.resolve_left hq)]

theorem allocBuf_available (hq : s.quarantined d (r * 4 + c) = false) (hc : s.poolCount d (r * 4 + c) ≠ 0) (hh : s.poolHead d (r * 4 + c) ≠ 0) :
    allocBuf s d r c =
      (if s.allocated (s.poolHead d (r * 4 + c)) = true ∨ s.linkGood d (r * 4 + c) (bitsOf (s.link (s.poolHead d (r * 4 + c))) 39 0) = false then
        (none, (s.bump .BPM_ALLOC_FAIL d [c]).quarantine d (r * 4 + c) (bitsOf (s.link (s.poolHead d (r * 4 + c))) 39 0))
       else (some (s.poolHead d (r * 4 + c)),
        ((s.setHead d (r * 4 + c) (bitsOf (s.link (s.poolHead d (r * 4 + c))) 39 0)).setAlloc (s.poolHead d (r * 4 + c)) true).noteLow d (r * 4 + c))) := by
  unfold allocBuf
  dsimp only
  rw [if_neg (by simp [hq]), if_neg (by simp [hc, hh])]
  simp only [Bool.not_eq_true]

theorem allocFail_ne_quarFail (d c : Nat) (hc : c < 4) : Reg.addr .BPM_ALLOC_FAIL d [c] ≠ Reg.addr .BPM_QUAR_FAIL d [] := by
  simp [Reg.addr, Reg.info, dimSum]
  omega

theorem quarantine_quarantined (s : State) (d i l : Nat) : (s.quarantine d i l).quarantined d i = true := by
  unfold State.quarantine State.quarantined
  rw [State.raiseEv_bpm, State.bump_bpm, State.bumpGen_bpm]
  simp only [decide_eq_true_eq]
  unfold ladd
  split
  · assumption
  · simp

theorem freeBuf_pushes {h i : Nat} (hp : s.poolOf h = some i) (hq : s.quarantined (hDie h) i = false) :
    freeBuf s h = (({ s.setAlloc h false with bpm := { (s.setAlloc h false).bpm with bad := clearWords s.bpm.bad (hKey h) (classSize (i % 4)) } } : State).putQuay h 0
      (beBytes 8 (s.poolHead (hDie h) i))).setHead (hDie h) i h := by
  unfold freeBuf
  rw [hp]
  dsimp only
  rw [if_neg (by simp [hq])]
  rfl

end

/-- Settles O22: an allocation by the state of its pool, a free by what it writes. -/
theorem freeListsAreStacks : Obligations.FreeListsAreStacks := by
  refine fun s d r c => ⟨fun h ha => ?taken, fun hu => ?unavailable, fun hq hc hh hb => ?bad, fun h i hp hq h0 => ?freed⟩
  case taken =>
    have hq : s.quarantined d (r * 4 + c) = false ∧ s.poolCount d (r * 4 + c) ≠ 0 ∧ s.poolHead d (r * 4 + c) ≠ 0 := by
      by_contra hn
      rw [allocBuf_unavailable (by
        simp only [ne_eq, not_and_or, not_not, Bool.not_eq_false] at hn
        exact hn)] at ha
      exact absurd ha (by simp)
    obtain ⟨hq, hc, hh⟩ := hq
    rw [allocBuf_available hq hc hh] at ha ⊢
    split at ha
    · exact absurd ha (by simp)
    · rename_i hg
      rw [if_neg hg]
      obtain rfl := Option.some.inj ha
      refine ⟨rfl, ?_, State.allocated_setAlloc _ _, rfl, rfl, ?_⟩
      · simpa using fun e => hg (Or.inl e)
      · intro p hp
        cases p
        case bpm => exact absurd (by decide) hp
        all_goals rfl
  case unavailable =>
    rw [allocBuf_unavailable hu]
    refine ⟨rfl, ?_, fun hi hc => ?_⟩
    · split
      · exact only_trans (s.bump_only _ _ _) (State.bump_only _ _ _ _)
      · exact s.bump_only _ _ _
    · have hcnt := counts_bump s .BPM_ALLOC_FAIL d [c] hi.rise
      have hr := s.bump_rise .BPM_ALLOC_FAIL d [c] 1 hi.rise
      dsimp only
      split
      · exact hcnt.after ((s.bump .BPM_ALLOC_FAIL d [c]).bump_writes (A := [Reg.addr .BPM_QUAR_FAIL d []]) .BPM_QUAR_FAIL d [] (by simp)) hr
          (by simpa using allocFail_ne_quarFail d c hc)
      · exact hcnt
  case bad =>
    rw [allocBuf_available hq hc hh, if_pos hb]
    exact ⟨rfl, quarantine_quarantined _ _ _ _, only_trans (only_mono (by simp) (s.bump_only _ _ _)) (State.quarantine_keeps.frame)⟩
  case freed =>
    rw [freeBuf_pushes hp hq]
    refine ⟨mget_mset_ne _ _ h0, ?_, fun hi hv => ?_⟩
    swap
    · rw [State.link_setHead]
      exact State.link_putQuay _ _ _ hi.1.1 hv
    intro p hp
    cases p
    case bpm => exact absurd (by decide) hp
    all_goals rfl

/-! Free lists made anew. -/

/-- A list threaded through buffers clears the words that hold its links (R174, R462). -/
theorem threadList_bad (s : State) (d i : Nat) (l : List Nat) :
    (threadList s d i l).bpm.bad = s.bpm.bad.filter (fun k => !l.any (fun h => decide (8 * k = hKey h))) := by
  induction l with
  | nil => simp [threadList, State.setHead]
  | cons h r ih =>
    have hc : (threadList s d i (h :: r)).bpm.bad = clearWords (threadList s d i r).bpm.bad (hKey h) 8 := by
      show clearWords (threadList s d i r).bpm.bad (hKey h + 0) (beBytes 8 (r.headD 0)).length = _
      rw [beBytes_length, Nat.add_zero]
    rw [hc, ih]
    unfold clearWords
    rw [List.filter_filter]
    refine List.filter_congr fun k _ => ?_
    rw [List.any_cons, Bool.not_or]
    congr 2
    rw [← Bool.decide_and, decide_eq_decide]
    omega

theorem linkStep_ofBad {u v : State} (d i h : Nat) (l : List Byte) (e : u.bpm = { v.bpm with bad := u.bpm.bad }) :
    ((u.putQuay h 0 l).setHead d i h).bpm = { ((v.putQuay h 0 l).setHead d i h).bpm with bad := ((u.putQuay h 0 l).setHead d i h).bpm.bad } := by
  unfold State.setHead State.putQuay
  dsimp only
  rw [e]

/-- Which words have errors does not change what is threaded. -/
theorem threadList_ofBad (s : State) (d i : Nat) (x : List Nat) (l : List Nat) :
    (threadList { s with bpm := { s.bpm with bad := x } } d i l).bpm
      = { (threadList s d i l).bpm with bad := (threadList { s with bpm := { s.bpm with bad := x } } d i l).bpm.bad } := by
  induction l with
  | nil => rfl
  | cons h r ih => exact linkStep_ofBad d i h _ ih

theorem classSize_mod (c : Nat) : classSize c % 8 = 0 := by
  match c with
  | 0 | 1 | 2 | 3 | _ + 4 => rfl

/-- The buffers of a pool lie at whole words (R168, R169). -/
theorem hKey_clearBuffers {s : State} {d i h : Nat} (hm : h ∈ s.clearBuffers d i) : hKey h % 8 = 0 := by
  unfold State.clearBuffers at hm
  obtain ⟨hm, -⟩ := List.mem_filter.mp hm
  obtain ⟨j, -, rfl⟩ := List.mem_map.mp hm
  have hj : j * classSize (i % 4) % 8 = 0 := by rw [Nat.mul_mod, classSize_mod, Nat.mul_zero, Nat.zero_mod]
  generalize j * classSize (i % 4) = o at *
  unfold hKey quayKey hOff bitsOf mkHandle State.poolBase
  omega

/-- A rebuild threads the free buffers whatever their words held, each link being written anew (R176). -/
theorem rebuildPool_bpm (s : State) (d i : Nat) : (rebuildPool s d i).bpm = (threadList s d i (s.clearBuffers d i)).bpm := by
  have hkey : ∀ k, (s.clearBuffers d i).any (fun h => decide (8 * k = hKey h)) = (s.clearBuffers d i).any (fun h => decide (hKey h / 8 = k)) := by
    intro k
    rw [Bool.eq_iff_iff, List.any_eq_true, List.any_eq_true]
    refine exists_congr fun h => and_congr_right fun hm => ?_
    have := hKey_clearBuffers hm
    rw [decide_eq_true_eq, decide_eq_true_eq]
    omega
  unfold rebuildPool
  dsimp only
  rw [threadList_ofBad, threadList_bad]
  dsimp only
  rw [List.filter_filter]
  have hbad : (threadList s d i (s.clearBuffers d i)).bpm.bad
      = s.bpm.bad.filter (fun k => !(s.clearBuffers d i).any (fun h => decide (8 * k = hKey h)) && !(s.clearBuffers d i).any (fun h => decide (hKey h / 8 = k))) := by
    rw [threadList_bad]
    refine List.filter_congr fun k _ => ?_
    rw [hkey, Bool.and_self]
  rw [← hbad]

/-! Placement. -/

theorem threadList_alloc (s : State) (d i : Nat) (l : List Nat) : (threadList s d i l).bpm.alloc = s.bpm.alloc := by
  induction l with
  | nil => rfl
  | cons h r ih => exact ih

theorem threadList_quar (s : State) (d i : Nat) (l : List Nat) : (threadList s d i l).bpm.quar = s.bpm.quar := by
  induction l with
  | nil => rfl
  | cons h r ih => exact ih

theorem clearPool_alloc (s : State) (d i : Nat) :
    (clearPool s d i).bpm.alloc = mdrop (fun k => k / 0x2000000 = d ∧ s.inPool d i (k % 0x2000000)) s.bpm.alloc := by
  unfold clearPool
  dsimp only
  rw [rebuildPool_bpm, threadList_alloc]

theorem clearPool_not_quarantined (s : State) (d i : Nat) : (clearPool s d i).quarantined d i = false := by
  unfold State.quarantined clearPool
  dsimp only
  rw [rebuildPool_bpm, threadList_quar]
  simp

@[simp] theorem clearPool_regs (s : State) (d i : Nat) : (clearPool s d i).regs = s.regs := clearPool_keeps.frame .regs (by decide)
@[simp] theorem clearPool_part (s : State) (d i : Nat) : (clearPool s d i).part = s.part := clearPool_keeps.frame .part (by decide)

/-- A key that is dropped from a map reads as an unlisted one. -/
theorem mget_mdrop {α : Type} (v : α) (p : Nat → Bool) (m : SMap α) (k : Nat) (hp : p k = true) : mget v (mdrop p m) k = v := by
  have hnone : ∀ l : SMap α, mfind (l.filter (fun e => !p e.1)) k = none := by
    intro l
    induction l with
    | nil => rfl
    | cons e r ih =>
      rw [List.filter_cons]
      split
      · rename_i he
        have hne : e.1 ≠ k := fun h => by simp [h, hp] at he
        unfold mfind
        rw [if_neg hne]
        split
        · rfl
        · exact ih
      · exact ih
  unfold mget mdrop
  rw [hnone]
  rfl

theorem inPool_of_poolOf {s : State} {h i : Nat} (hp : s.poolOf h = some i) : s.inPool (hDie h) i (hOff h) = true := by
  unfold State.poolOf at hp
  dsimp only at hp
  split at hp
  · split at hp
    · rename_i hin
      rwa [Option.some.inj hp] at hin
    · split at hp
      · rename_i hin
        rwa [Option.some.inj hp] at hin
      · exact absurd hp (by simp)
  · exact absurd hp (by simp)

/-- Every buffer of a pool just cleared is free, where the pool lies within the quay (R168, R169). -/
theorem allocated_clearPool {s : State} {d i h : Nat} (hd : hDie h = d) (hp : (clearPool s d i).poolOf h = some i)
    (hsize : s.poolCount d i = 0 ∨ s.poolBase d i + s.poolCount d i * classSize (i % 4) ≤ 0x2000000) : (clearPool s d i).allocated h = false := by
  have hin : s.inPool d i (hOff h) = true := by
    have := inPool_of_poolOf hp
    rw [hd] at this
    unfold State.inPool State.poolBase State.poolCount at this ⊢
    simpa only [rf_of_regs (clearPool_regs s d i)] using this
  have hoff : hOff h < 0x2000000 := by
    unfold State.inPool at hin
    simp only [Bool.and_eq_true, decide_eq_true_eq] at hin
    obtain ⟨⟨hlo, hhi⟩, -⟩ := hin
    rcases hsize with h0 | hle
    · rw [h0] at hhi
      omega
    · omega
  have hkey : hKey h / 0x2000000 = d ∧ hKey h % 0x2000000 = hOff h := by
    unfold hKey quayKey
    rw [hd]
    omega
  unfold State.allocated
  rw [clearPool_alloc]
  exact mget_mdrop _ _ _ _ (by rw [hkey.1, hkey.2, hin]; simp)

/-- A placement that passes its check lies below the prefetch area of its half (R168, R169). -/
theorem placeGood_bound {s : State} {d i base cnt : Nat} (hi : i < 8) (h : s.placeGood d i base cnt = true) :
    cnt = 0 ∨ base + cnt * classSize (i % 4) ≤ 0x1800000 := by
  unfold State.placeGood areaStart at h
  simp only [Bool.or_eq_true, decide_eq_true_eq, Bool.and_eq_true] at h
  rcases h with h | ⟨⟨-, he⟩, -⟩
  · exact Or.inl h
  · have : i / 4 < 2 := by omega
    generalize cnt * classSize (i % 4) = m at *
    omega

theorem poolCnt_ne_poolBase (d i j : Nat) : Reg.addr .BPM_POOL_CNT d [i] ≠ Reg.addr .BPM_POOL_BASE d [j] := by
  simp [Reg.addr, Reg.info, dimSum]
  omega

/-- A count that commits a good placement places the pool where its held base says, with every buffer free (R169). -/
theorem wrPoolCount_commits {s : State} {d i base : Nat} {w : Word} (hi : i < 8) (hm : s.glb.mode = .provision) (hr : mrise 0 s.regs = true)
    (hb : base = (mfind s.bpm.baseHeld (d * 8 + i)).getD (s.rf .BPM_POOL_BASE d [i] 17 0)) (hg : s.placeGood d i (base * 128) (fld w 15 0) = true) :
    ∃ u, wrPoolCount s d i w = (.ok, u) ∧ u.poolCount d i = fld w 15 0 ∧ u.poolBase d i = base % 2 ^ 18 * 128 ∧ u.quarantined d i = false
      ∧ ∀ h, hDie h = d → u.poolOf h = some i → u.allocated h = false := by
  subst hb
  unfold wrPoolCount
  extract_lets v b t0 _ t1 t2
  rw [if_pos hm, if_pos hg]
  have h1 : mrise 0 t1.regs = true := by
    show mrise 0 t0.regs = true
    rw [clearPool_regs]
    exact hr
  have h2 : mrise 0 (t1.setRf .BPM_POOL_BASE d [i] 17 0 b).regs = true := t1.setRf_rise _ _ _ _ _ _ h1
  have hcnt : t2.poolCount d i = v := by
    have := (t1.setRf .BPM_POOL_BASE d [i] 17 0 b).rf_setRf_self .BPM_POOL_CNT d [i] 0 16 v h2 (by decide) (by decide)
    have hv : v < 2 ^ 16 := Nat.mod_lt _ (by decide)
    exact this.trans (Nat.mod_eq_of_lt hv)
  have hbase : t2.poolBase d i = b % 2 ^ 18 * 128 := by
    have hself := t1.rf_setRf_self .BPM_POOL_BASE d [i] 0 18 b h1 (by decide) (by decide)
    have hother : t2.rf .BPM_POOL_BASE d [i] 17 0 = (t1.setRf .BPM_POOL_BASE d [i] 17 0 b).rf .BPM_POOL_BASE d [i] 17 0 :=
      ((t1.setRf .BPM_POOL_BASE d [i] 17 0 b).setRf_writes (A := [Reg.addr .BPM_POOL_CNT d [i]]) _ _ _ _ _ _ (by simp)).rf h2
        (by simpa using (poolCnt_ne_poolBase d i i).symm)
    unfold State.poolBase
    rw [hother]
    exact congrArg (· * 128) hself
  refine ⟨_, rfl, ?_, ?_, clearPool_not_quarantined _ _ _, fun h hd hp => allocated_clearPool hd hp ?_⟩
  · unfold State.poolCount at hcnt ⊢
    rw [rf_of_regs (clearPool_regs t2 d i), hcnt]
  · unfold State.poolBase at hbase ⊢
    rw [rf_of_regs (clearPool_regs t2 d i), hbase]
  · rw [hcnt, hbase]
    refine (placeGood_bound hi hg).imp id fun hle => ?_
    have hmod : b % 2 ^ 18 ≤ b := Nat.mod_le _ _
    have hb : b * 128 + v * classSize (i % 4) ≤ 0x1800000 := hle
    generalize v * classSize (i % 4) = m at *
    omega

theorem wrPoolCount_refuses {s : State} {d i base : Nat} {w : Word} (hm : s.glb.mode = .provision)
    (hb : base = (mfind s.bpm.baseHeld (d * 8 + i)).getD (s.rf .BPM_POOL_BASE d [i] 17 0)) (hg : s.placeGood d i (base * 128) (fld w 15 0) = false) :
    wrPoolCount s d i w = (.badaddr, s) := by
  unfold wrPoolCount
  dsimp only
  rw [if_pos hm, ← hb, if_neg (by simp [hg])]

/-- How a BFREE by the host answers (R183). -/
def FreeRes.status : FreeRes → Status
  | .done => .ok
  | .bad | .double => .badaddr
  | .notCloser | .early => .denied

/-- A free by the host changes the state where it is done, and only there. The definition and its handle are named first: applied, the kernel would evaluate the handle's number. -/
theorem wrHostFree_eq {s t : State} {d h : Nat} {w : Word} {r : FreeRes} (hh : h = fld w 7 0 * 2 ^ 32 + (s.reg .BPM_HOST_FREE_LO d []).toNat)
    (hb : bfree s d h hostCloser = (r, t)) : wrHostFree s d w = (r.status, if r = .done then t else s) := by
  obtain ⟨f, e⟩ : ∃ f, f = @wrHostFree := ⟨_, rfl⟩
  rw [← e]
  delta wrHostFree at e
  rw [e]
  beta_reduce
  rw [← hh]
  dsimp only
  rw [hb]
  cases r <;> rfl

theorem execHostFree_eq {s t : State} {d : Fin 8} {h : Nat} {w : Word} {r : FreeRes} (hd : d < s.dies) (hm : s.glb.mode.any = true) (hx : s.excluded d = false)
    (hh : h = fld w 7 0 * 2 ^ 32 + (s.reg .BPM_HOST_FREE_LO d []).toNat) (hb : bfree s d h hostCloser = (r, t)) :
    exec (.hostFree d w) s = .next (wrResult (r.status, if r = .done then t else s)) := by
  have he := wrHostFree_eq hh hb
  show execHostFree d w s = _
  unfold execHostFree
  generalize e : (fun s => wrHostFree s ↑d w) = f
  rw [show wrHostFree s d w = f s by rw [← e]] at he
  rw [hostDieWr_live _ _ _ _ hd hm (Or.inl hx), he]

theorem execPoolBaseWrite_live {s : State} {d i : Fin 8} {w : Word} (hd : d < s.dies) (hm : s.glb.mode.any = true) (hx : s.excluded d = false) :
    exec (.poolBaseWrite d i w) s = .next (wrResult (wrPoolBase s d i w)) := by
  show execPoolBaseWrite d i w s = _
  unfold execPoolBaseWrite
  rw [hostDieWr_live _ _ _ _ hd hm (Or.inl hx)]

theorem execPoolCountCommit_live {s : State} {d i : Fin 8} {w : Word} (hd : d < s.dies) (hm : s.glb.mode.any = true) (hx : s.excluded d = false) :
    exec (.poolCountCommit d i w) s = .next (wrResult (wrPoolCount s d i w)) := by
  show execPoolCountCommit d i w s = _
  unfold execPoolCountCommit
  rw [hostDieWr_live _ _ _ _ hd hm (Or.inl hx)]

/-- Settles O21: a placement by what it clears and stores, a rebuild by the list that it threads, a free by its outcome. -/
theorem poolsArePlacedAndFreed : Obligations.PoolsArePlacedAndFreed := by
  refine fun s d hd => ⟨fun i w hm hx => ?base, fun i w base hi hm hx hb => ⟨fun hg => ?commits, fun hg => ?refuses⟩, fun i w ha hm hx => ⟨fun hv => ?baseMode, fun hv => ?countMode⟩,
    fun i hq => ?rebuild, fun w h r t ha hx hh hr => ?free⟩
  case base =>
    rw [execPoolBaseWrite_live hd (Mode.any_of_provision hm) hx]
    unfold wrPoolBase
    rw [if_pos hm]
  case commits =>
    obtain ⟨u, hu, hcnt, hbase, hquar, hfree⟩ := wrPoolCount_commits i.isLt hm hi.rise hb hg
    have hframe : only [.regs, .bpm] s u := by
      have := (wrPoolCount_keeps (s := s) (d := d) (i := i) (w := w)).frame
      rwa [hu] at this
    exact ⟨_, by rw [execPoolCountCommit_live hd (Mode.any_of_provision hm) hx, hu], rfl,
      only_trans (only_mono (by simp) hframe) (only_mono (by simp) (wrResult_only _ _)), hcnt, hbase, hquar, hfree⟩
  case refuses => rw [execPoolCountCommit_live hd (Mode.any_of_provision hm) hx, wrPoolCount_refuses hm hb hg]
  case baseMode =>
    rw [execPoolBaseWrite_live hd ha hx]
    unfold wrPoolBase
    dsimp only
    rw [if_neg hm, if_neg hv]
  case countMode =>
    rw [execPoolCountCommit_live hd ha hx]
    unfold wrPoolCount
    dsimp only
    rw [if_neg hm, if_neg hv]
  case rebuild =>
    obtain ⟨t, ht, k⟩ := execPoolRebuildDone_keeps (d := d) (i := i) (s := s)
    refine ⟨t, ht, ?_, k.frame⟩
    unfold execPoolRebuildDone at ht
    rw [onDie_live _ _ _ hd, if_pos hq] at ht
    obtain rfl := Host.Outcome.next.inj ht
    dsimp only
    rw [State.raiseEv_bpm, State.bumpGen_bpm, rebuildPool_bpm]
  case free =>
    rw [execHostFree_eq hd ha hx hh hr]
    refine ⟨fun h => ?_, fun h => ?_, fun h => ?_⟩
    · rw [h]; rfl
    · rcases h with h | h <;> rw [h] <;> rfl
    · rcases h with h | h <;> rw [h] <;> rfl

end Sys2Proof.Machine

/-! PROOFS. Queue values that are latched (spec/06 R196), and the edit programs and port data (spec/08 R247 to R256). -/

namespace Sys2Proof.Machine

/-! Words of an array of registers stored in turn. -/

/-- The first n words of a register array, each stored where v gives it a word. -/
def storeWords (r : Reg) (d : Nat) (ix : Nat → List Nat) (v : Nat → Option Word) (n : Nat) (s : State) : State :=
  (List.range n).foldl (fun t i => (v i).elim t (t.setReg r d (ix i))) s

section
variable {r : Reg} {d : Nat} {ix : Nat → List Nat} {v : Nat → Option Word} {s : State}

theorem storeWords_succ (n : Nat) : storeWords r d ix v (n + 1) s = (v n).elim (storeWords r d ix v n s) ((storeWords r d ix v n s).setReg r d (ix n)) := by
  unfold storeWords
  rw [List.range_succ, List.foldl_append]
  rfl

theorem storeWords_rise (n : Nat) (h : mrise 0 s.regs = true) : mrise 0 (storeWords r d ix v n s).regs = true := by
  induction n with
  | zero => exact h
  | succ n ih =>
    rw [storeWords_succ]
    cases v n with
    | none => exact ih
    | some w => exact State.setReg_rise _ _ _ _ _ ih

/-- Every word reads as stored, or as before where none was. -/
theorem storeWords_reg (hi : ∀ i j, r.addr d (ix i) = r.addr d (ix j) → i = j) (h : mrise 0 s.regs = true) (n i : Nat) :
    (storeWords r d ix v n s).reg r d (ix i) = if i < n then (v i).getD (s.reg r d (ix i)) else s.reg r d (ix i) := by
  induction n with
  | zero => rfl
  | succ n ih =>
    rw [storeWords_succ]
    have hr : mrise 0 (storeWords r d ix v n s).regs = true := storeWords_rise n h
    by_cases he : i = n
    · subst he
      rw [if_pos (Nat.lt_succ_self i)]
      rw [if_neg (Nat.lt_irrefl i)] at ih
      cases v i with
      | none => exact ih
      | some w => exact State.reg_setReg_self _ _ _ _ _ hr
    · have hlt : (i < n + 1) = (i < n) := propext ⟨fun _ => by omega, fun _ => by omega⟩
      simp only [hlt]
      rw [← ih]
      cases v n with
      | none => rfl
      | some w => exact State.reg_setReg_other _ _ _ _ _ _ _ _ hr (fun e => he (hi i n e))

end

/-! The latched queue values. -/

theorem qdata_addr_inj (d i j : Nat) (h : Reg.addr .QBA_QDATA d [i] = Reg.addr .QBA_QDATA d [j]) : i = j := by
  simp [Reg.addr, Reg.info, dimSum] at h
  omega

/-- The five values of a queue in the order of QBA_QDATA (R196). -/
def State.queueValues (s : State) (q : Nat) : List Nat := [(s.lq q).occ, s.charged q (s.lq q).opened, (s.lq q).admitDrop, (s.lq q).qStaged, (s.lq q).qDwell]

theorem wrQsel_latches {s : State} {d : Nat} {w : Word} (hr : mrise 0 s.regs = true) (i : Fin 5) :
    (wrQsel s d w).2.reg .QBA_QDATA d [i] = BitVec.ofNat 32 ((s.queueValues (d * 32768 + fld w 14 0)).getD i 0) := by
  unfold wrQsel
  extract_lets q l t v
  have ht : mrise 0 t.regs = true := s.setReg_rise _ _ _ _ hr
  have hs : (List.range 5).foldl (fun t i => t.setReg .QBA_QDATA d [i] (BitVec.ofNat 32 (v.getD i 0))) t
      = storeWords .QBA_QDATA d (fun i => [i]) (fun i => some (BitVec.ofNat 32 (v.getD i 0))) 5 t := rfl
  rw [hs, storeWords_reg (qdata_addr_inj d) ht 5 i, if_pos i.isLt]
  rfl

theorem execQbaQselWrite_live {s : State} {d : Fin 8} {w : Word} (hd : d < s.dies) (hm : s.glb.mode.any = true) (hx : s.excluded d = false) :
    exec (.qbaQselWrite d w) s = .next (wrResult (wrQsel s d w)) := by
  show execQbaQselWrite d w s = _
  unfold execQbaQselWrite
  rw [hostDieWr_live _ _ _ _ hd hm (Or.inl hx)]

theorem execQbaQdataRead_live {s : State} {d : Fin 8} {i : Fin 5} (hd : d < s.dies) (hx : s.excluded d = false) :
    exec (.qbaQdataRead d i) s = .next (rdResult s (rdQdata s d i)) := by
  show execQbaQdataRead d i s = _
  unfold execQbaQdataRead hostDieRd
  rw [if_neg (by simp [hx, hd])]

/-- The queue that QBA_QSEL selects (R196). -/
def State.selected (s : State) (d : Nat) : Nat := d * 32768 + s.rf .QBA_QSEL d [] 14 0

theorem rdQdata_word (s : State) (d i : Nat) : (rdQdata s d i).1 = s.reg .QBA_QDATA d [i] := by
  unfold rdQdata
  dsimp only
  split <;> rfl

theorem rdQdata_low {s : State} {d i : Nat} (hi : i < 2) : (rdQdata s d i).2 = s := by
  unfold rdQdata
  dsimp only
  rw [if_pos hi]

/-- A read of words 2 to 4 clears the word and takes it off the queue's counter (R196). -/
theorem rdQdata_high {s : State} {d i : Nat} (hi : 2 ≤ i) (h : mrise 0 s.regs = true) (hq : mrise 0 s.qba.lq = true) :
    (rdQdata s d i).2.reg .QBA_QDATA d [i] = 0
      ∧ (rdQdata s d i).2.lq (s.selected d) =
        (if i = 2 then { s.lq (s.selected d) with admitDrop := (s.lq (s.selected d)).admitDrop - (s.reg .QBA_QDATA d [i]).toNat }
         else if i = 3 then { s.lq (s.selected d) with qStaged := (s.lq (s.selected d)).qStaged - (s.reg .QBA_QDATA d [i]).toNat }
         else { s.lq (s.selected d) with qDwell := (s.lq (s.selected d)).qDwell - (s.reg .QBA_QDATA d [i]).toNat }) := by
  unfold rdQdata
  extract_lets v q t
  rw [if_neg (Nat.not_lt.mpr hi)]
  have hclear : t.reg .QBA_QDATA d [i] = 0 := s.reg_setReg_self _ _ _ _ h
  exact ⟨hclear, mget_mset_self_rise _ _ _ _ hq⟩

theorem wrResult_reg (a : Ans) (r : Reg) (d : Nat) (idx : List Nat) : (wrResult a).reg r d idx = a.2.reg r d idx := rfl

/-- Settles O24: the latch by the words stored in turn, a read by the word and the counter that it clears. -/
theorem queueValuesAreLatched : Obligations.QueueValuesAreLatched := by
  refine fun s d hi hd hm hx => ⟨fun w => ?_, fun i => ?_⟩
  · refine ⟨_, execQbaQselWrite_live hd hm hx, (wrResult_keeps.after wrQsel_keeps.mono).frame, fun i => ?_⟩
    exact (wrResult_reg _ _ _ _).trans (wrQsel_latches hi.rise i)
  · obtain ⟨-, -, -, hq⟩ := hi.2.1
    have hhigh := fun h2 : 2 ≤ i.val => rdQdata_high (d := d) h2 hi.rise hq
    have hlow := fun h2 : i.val < 2 => rdQdata_low (s := s) (d := d) h2
    have hframe := (rdResult_keeps (l := [.regs, .qba, .gwe]) (s := s) (rdQdata_keeps (s := s) (d := d) (i := i)).mono).frame
    rw [rdResult_any hm, rdQdata_word] at hframe
    refine ⟨_, by rw [execQbaQdataRead_live hd hx, rdResult_any hm, rdQdata_word], rfl, hframe, fun h => ?_, fun h => ?_, fun h => ?_, fun h => ?_, fun h => (hhigh h).1⟩
    · rw [hlow h]
      exact ⟨rfl, rfl⟩
    · have := (hhigh (by omega)).2
      rw [if_pos h] at this
      exact congrArg LQ.admitDrop this
    · have := (hhigh (by omega)).2
      rw [if_neg (by omega), if_pos h] at this
      exact congrArg LQ.qStaged this
    · have := (hhigh (by omega)).2
      rw [if_neg (by omega), if_neg (by omega)] at this
      exact congrArg LQ.qDwell this

/-! Edit programs and port data. -/

section
variable {s : State} {d : Fin 8} {w : Word}

theorem execEditProgWrite_live {n : Fin 256} (hd : d < s.dies) (hm : s.glb.mode.any = true) (hx : s.excluded d = false) :
    exec (.editProgWrite d n w) s = .next (wrResult (wrEditProg s d n w)) := by
  show execEditProgWrite d n w s = _
  unfold execEditProgWrite
  rw [hostDieWr_live _ _ _ _ hd hm (Or.inl hx)]

theorem execPortDataCommit_live {l : Fin 4} (hd : d < s.dies) (hm : s.glb.mode.any = true) :
    exec (.portDataCommit d l w) s = .next (wrResult (wrPortData s d l 15 w)) := by
  show execPortDataCommit d l w s = _
  unfold execPortDataCommit
  rw [hostDieWr_live _ _ _ _ hd hm (Or.inr rfl)]

end

theorem wrEditProg_provision {s : State} {d n : Nat} {w : Word} (hn : n ≠ 0) (hm : s.glb.mode = .provision) :
    wrEditProg s d n w = if s.editProgGood (BitVec.ofNat 32 (w.toNat &&& 0xBFFF00FF)) then (.ok, s.setReg .RSQ_EDIT_PROG d [n] (BitVec.ofNat 32 (w.toNat &&& 0xBFFF00FF)))
      else (.badaddr, s) := by
  unfold wrEditProg
  dsimp only
  rw [if_neg hn, if_pos hm]

theorem wrEditProg_later {s : State} {d n : Nat} {w : Word} (hn : n ≠ 0) (hm : s.glb.mode ≠ .provision)
    (hv : BitVec.ofNat 32 (w.toNat &&& 0xBFFF00FF) ≠ s.reg .RSQ_EDIT_PROG d [n]) : wrEditProg s d n w = (.mode, s) := by
  unfold wrEditProg
  dsimp only
  rw [if_neg hn, if_neg hm, if_neg hv]

theorem portData_addr_inj (d l i j : Nat) (h : Reg.addr .RSQ_PORT_DATA d [l, i] = Reg.addr .RSQ_PORT_DATA d [l, j]) : i = j := by
  simp [Reg.addr, Reg.info, dimSum] at h
  omega

/-- Word 15 of a port's data stores the words held for it with itself (R256). -/
theorem wrPortData_commits {s : State} {d l : Nat} {w : Word} (hr : mrise 0 s.regs = true) :
    (wrPortData s d l 15 w).2.reg .RSQ_PORT_DATA d [l, 15] = w
      ∧ ∀ i, i < 15 → (wrPortData s d l 15 w).2.reg .RSQ_PORT_DATA d [l, i] = (mfind s.rsq.pdHeld ((d * 4 + l) * 16 + i)).getD (s.reg .RSQ_PORT_DATA d [l, i]) := by
  unfold wrPortData
  extract_lets k _ t u
  rw [if_neg (Nat.lt_irrefl 15)]
  have ht : t = storeWords .RSQ_PORT_DATA d (fun i => [l, i]) (fun i => mfind s.rsq.pdHeld (k + i)) 15 s := by
    unfold storeWords
    refine congrArg (fun f => (List.range 15).foldl f s) (funext fun t => funext fun i => ?_)
    dsimp only
    cases mfind s.rsq.pdHeld (k + i) <;> rfl
  have htr : mrise 0 t.regs = true := ht ▸ storeWords_rise 15 hr
  have hself : u.reg .RSQ_PORT_DATA d [l, 15] = w := t.reg_setReg_self _ _ _ _ htr
  refine ⟨hself, fun i hi => ?_⟩
  have hu : u.reg .RSQ_PORT_DATA d [l, i] = t.reg .RSQ_PORT_DATA d [l, i] :=
    t.reg_setReg_other _ _ _ _ _ _ _ htr fun e => absurd (portData_addr_inj d l i 15 e) (by omega)
  refine hu.trans ?_
  rw [ht, storeWords_reg (portData_addr_inj d l) hr 15 i, if_pos hi]

/-- Settles O30: a program by its check, a port's data by the words stored in turn. -/
theorem editProgramsAndPortData : Obligations.EditProgramsAndPortData := by
  refine fun s d w hd hm => ⟨fun hx => ⟨fun n hn hp => ⟨fun hg => ?_, fun hg => ?_⟩, fun n hn hp hv => ?_, ?_⟩, fun l hi => ?_⟩
  · rw [execEditProgWrite_live hd hm hx, wrEditProg_provision (fun e => hn (Fin.ext e)) hp, if_pos hg]
  · rw [execEditProgWrite_live hd hm hx, wrEditProg_provision (fun e => hn (Fin.ext e)) hp, if_neg (Bool.not_eq_true _ ▸ hg)]
  · rw [execEditProgWrite_live hd hm hx, wrEditProg_later (fun e => hn (Fin.ext e)) hp hv]
  · rw [execEditProgWrite_live hd hm hx]
    rfl
  · obtain ⟨h15, hlow⟩ := wrPortData_commits (d := d) (l := l) (w := w) hi.rise
    refine ⟨_, execPortDataCommit_live hd hm, (wrResult_keeps.after wrPortData_keeps.mono).frame, ?_, fun i => ?_⟩
    · rw [wrResult_reg, h15]
    · rw [wrResult_reg, hlow i i.isLt]

end Sys2Proof.Machine

/-! PROOFS. Threads under the supervisor, the host and the helpers (spec/09 R262 to R296). -/

namespace Sys2Proof.Machine

/-! Which operations leave the threads. -/

theorem State.Inv.thrRise {s : State} (h : s.Inv) : mrise 0 s.cra.thr = true := h.2.1.2.1

theorem thr_of_cra {s t : State} (h : t.cra.thr = s.cra.thr) (d n : Nat) : t.thr d n = s.thr d n := by
  unfold State.thr
  rw [h]

@[simp] theorem trace_cra (s : State) (d : Nat) (r : TrIn) : (trace s d r).cra = s.cra := trace_keeps.frame .cra (by decide)
@[simp] theorem lapse_cra (s : State) (d : Nat) : (lapse s d).cra = s.cra := lapse_keeps.frame .cra (by decide)
@[simp] theorem bumpCra_cra (s : State) (d : Nat) : (bumpCra s d).cra = s.cra := bumpCra_keeps.frame .cra (by decide)
@[simp] theorem lapse_thr (s : State) (d e n : Nat) : (lapse s d).thr e n = s.thr e n := thr_of_cra (by rw [lapse_cra]) e n
@[simp] theorem trace_thr (s : State) (d : Nat) (r : TrIn) (e n : Nat) : (trace s d r).thr e n = s.thr e n := thr_of_cra (by rw [trace_cra]) e n
@[simp] theorem bumpCra_thr (s : State) (d e n : Nat) : (bumpCra s d).thr e n = s.thr e n := thr_of_cra (by rw [bumpCra_cra]) e n
@[simp] theorem wrResult_thr (a : Ans) (e n : Nat) : (wrResult a).thr e n = a.2.thr e n := rfl

/-! A thread's record. -/

theorem thrKey_inj {d m n : Nat} (h : thrKey d m = thrKey d n) : m = n := by
  unfold thrKey at h
  omega

theorem State.thr_modThr_self {s : State} (d n : Nat) (f : Thr → Thr) (h : mrise 0 s.cra.thr = true) : (s.modThr d n f).thr d n = f (s.thr d n) :=
  mget_mset_self_rise _ _ _ _ h

theorem State.thr_modThr_other {s : State} {d n m : Nat} (f : Thr → Thr) (h : mrise 0 s.cra.thr = true) (ne : m ≠ n) : (s.modThr d n f).thr d m = s.thr d m :=
  mget_mset_other_rise _ _ _ _ _ _ (fun e => ne (thrKey_inj e)) h

/-- A record other than that of an idle thread is listed, whatever stood before. -/
theorem State.thr_modThr_ne_idle {s : State} (d n : Nat) {f : Thr → Thr} (h : f (s.thr d n) ≠ {}) : (s.modThr d n f).thr d n = f (s.thr d n) :=
  mget_mset_ne _ _ h

theorem State.thr_withThr_self (u : State) (d n : Nat) (x : Thr) : (u.withThr d n x).thr d n = x := by
  unfold State.withThr
  rw [lapse_thr, State.thr_putThr_self]

theorem State.thr_withThr_other (u : State) {d n m : Nat} (x : Thr) (ne : m ≠ n) : (u.withThr d n x).thr d m = u.thr d m := by
  unfold State.withThr
  rw [lapse_thr, State.thr_putThr_other _ _ _ _ _ _ (fun e => ne (thrKey_inj e))]

/-- What a request leaves: its thread waits in HELPER, every other thread is as it was. -/
theorem State.asked_st (u : State) (d n rd : Nat) (v : DWord) (err : Nat) (w : Bool) (kind : PendKind) : ((u.asked d n rd v err w kind).thr d n).st = .helper := by
  unfold State.asked
  rw [State.thr_withThr_self]
  rfl

theorem State.asked_thr_other (u : State) {d n m : Nat} (rd : Nat) (v : DWord) (err : Nat) (w : Bool) (kind : PendKind) (ne : m ≠ n) :
    (u.asked d n rd v err w kind).thr d m = u.thr d m := by
  unfold State.asked
  rw [State.thr_withThr_other _ _ ne, markWait_thr]

/-! The counted slot. -/

theorem craEntry_ne_slots (d : Nat) (n : Fin 384) : Reg.addr .CRA_ENTRY d [] ≠ Reg.addr .CRA_SLOTS d [clusterOf n, 0] := by
  simp [Reg.addr, Reg.info, dimSum, clusterOf]
  omega

theorem restartPc_countSlot (s : State) (d : Nat) (n : Fin 384) : (countSlot s d n).restartPc d = s.restartPc d := by
  unfold State.restartPc State.rf
  rw [reg_countSlot _ _ _ _ _ _ (craEntry_ne_slots d n)]

theorem superOf_countSlot (s : State) (d : Nat) (n : Fin 384) : (countSlot s d n).superOf d (clusterOf n) = s.superOf d (clusterOf n) := by
  unfold State.superOf
  rw [reg_countSlot _ _ _ _ _ _ (craSuper_ne_slots d n)]

theorem thr_countSlot_other {s : State} {d n m : Nat} (h : mrise 0 s.cra.thr = true) (ne : m ≠ n) : (countSlot s d n).thr d m = s.thr d m := by
  unfold countSlot
  extract_lets k r t
  have ht : t.thr d m = s.thr d m := State.thr_modThr_other _ h ne
  split
  · exact ht
  · exact ht

/-- A counted slot leaves of every thread what the supervisor reads: its registers, its PC, its state, its ticket and staged words. -/
theorem countSlot_view {s : State} (d n m : Nat) (h : mrise 0 s.cra.thr = true) :
    ((countSlot s d n).thr d m).g = (s.thr d m).g ∧ ((countSlot s d n).thr d m).pc = (s.thr d m).pc ∧ ((countSlot s d n).thr d m).st = (s.thr d m).st
      ∧ ((countSlot s d n).thr d m).ticket = (s.thr d m).ticket ∧ ((countSlot s d n).thr d m).staged = (s.thr d m).staged := by
  by_cases e : m = n
  · subst e
    rw [countSlot_thr]
    exact ⟨rfl, rfl, rfl, rfl, rfl⟩
  · rw [thr_countSlot_other h e]
    exact ⟨rfl, rfl, rfl, rfl, rfl⟩

theorem faultQ_countSlot (s : State) (d n e k : Nat) : (countSlot s d n).faultQ e k = s.faultQ e k := by
  unfold State.faultQ countSlot
  extract_lets k' r t
  split <;> rfl

/-! The supervisor. -/

theorem get_of_g {x y : Thr} (h : x.g = y.g) (r : Nat) : x.get r = y.get r := by
  unfold Thr.get
  rw [h]

theorem locksHeld_countSlot (s : State) (d n e m : Nat) : (countSlot s d n).locksHeld e m = s.locksHeld e m := by
  unfold State.locksHeld
  rw [countSlot_syu]

theorem threadStat_countSlot {s : State} (d n m : Nat) (h : mrise 0 s.cra.thr = true) : (countSlot s d n).threadStat d m = s.threadStat d m := by
  obtain ⟨-, hpc, hst, htk, hstaged⟩ := countSlot_view (s := s) d n m h
  unfold State.threadStat
  dsimp only
  rw [hpc, hst, htk, hstaged, locksHeld_countSlot]

theorem dbgValue_countSlot {s : State} (d n m r : Nat) (h : mrise 0 s.cra.thr = true) : (countSlot s d n).dbgValue d m r = s.dbgValue d m r := by
  obtain ⟨hg, hpc, -⟩ := countSlot_view (s := s) d n m h
  unfold State.dbgValue
  dsimp only
  rw [hpc, get_of_g hg]

section
variable {s : State} {d : Fin 8} {n : Fin 384} {i : RIns} {own : Bool} {f : Nat → State}

theorem get_countSlot (s : State) (d n r : Nat) : ((countSlot s d n).thr d n).get r = (s.thr d n).get r := by
  rw [countSlot_thr]
  rfl

/-- A supervisor instruction of another thread faults (R285). -/
theorem onTarget_other (h : s.superOf d (clusterOf n) ≠ some n.val) : onTarget (countSlot s d n) d n i own f = faultThread (countSlot s d n) d n 9 0 := by
  unfold onTarget supervisorOnly
  rw [superOf_countSlot, if_neg h]
  rfl

/-- One with a target out of range, or with itself as a target that may not be its own, faults too (R320). -/
theorem onTarget_range (h : s.superOf d (clusterOf n) = some n.val)
    (hx : 63 < ((s.thr d n).get i.a).toNat ∨ (own = false ∧ clusterOf n * 64 + ((s.thr d n).get i.a).toNat = n)) :
    onTarget (countSlot s d n) d n i own f = faultThread (countSlot s d n) d n 3 (((s.thr d n).get i.a).toNat % 2 ^ 32) := by
  unfold onTarget supervisorOnly
  dsimp only
  rw [superOf_countSlot, if_pos h, get_countSlot, if_pos (by simpa using hx)]
  rfl

theorem onTarget_acts (h : s.superOf d (clusterOf n) = some n.val) (hx : ((s.thr d n).get i.a).toNat ≤ 63)
    (hm : own = true ∨ clusterOf n * 64 + ((s.thr d n).get i.a).toNat ≠ n) :
    onTarget (countSlot s d n) d n i own f = f (clusterOf n * 64 + ((s.thr d n).get i.a).toNat) := by
  unfold onTarget supervisorOnly
  dsimp only
  rw [superOf_countSlot, if_pos h, get_countSlot, if_neg]
  simp only [not_or, Nat.not_lt, not_and, Bool.not_eq_true]
  exact ⟨hx, fun ho => hm.resolve_left (by simp [ho])⟩

end

/-! Stops and restarts. -/

theorem stopThread_st {s : State} {d m : Nat} (h : (s.thr d m).st ≠ .idle) : ((stopThread s d m).thr d m).st = .stopped := by
  unfold stopThread
  dsimp only
  split
  · rename_i hs
    exact hs.resolve_left h
  · rw [bumpCra_thr, State.thr_modThr_ne_idle d m (f := fun t => { t with st := .stopped, step := 0 })]
    exact fun e => absurd (congrArg Thr.st e) (by simp)

/-- A restarted thread stands in RUN at the restart entry with nothing else (R288). -/
theorem restartThread_thr {s : State} {d m : Nat} (who : Nat) (h : (s.thr d m).st ≠ .idle) : (restartThread s d m who).thr d m = { st := .run, pc := s.restartPc d } := by
  unfold restartThread
  extract_lets t u v w _ x
  rw [if_neg h, trace_thr]
  have hv : v.thr d m = { st := .run, pc := s.restartPc d } :=
    State.thr_modThr_ne_idle d m (f := fun _ => { st := .run, pc := s.restartPc d }) fun e => absurd (congrArg Thr.st e) (by simp)
  have hw : w.thr d m = v.thr d m := (bumpCra_thr _ d d m).trans (thr_of_cra rfl d m)
  have hx : x.thr d m = w.thr d m := thr_of_cra (s := w) (t := x) rfl d m
  rw [hx, hw, hv]

section
variable {s : State} {d : Fin 8} {n : Fin 384} {i : RIns} {m : Nat}

/-- SUPREAD of a selector up to 35 answers its value, and takes the oldest record off with 35 (R285). -/
theorem supread_answers {v : DWord} {t : State} (hs : s.superOf d (clusterOf n) = some n.val) (hx : ((s.thr d n).get i.a).toNat ≤ 63)
    (h : s.issues d n .supreadx i) (hsel : ((s.thr d n).get i.b).toNat ≤ 35)
    (hv : supValue (countSlot s d n) d (clusterOf n) (clusterOf n * 64 + ((s.thr d n).get i.a).toNat) ((s.thr d n).get i.b).toNat = (v, t)) :
    exec (.supread d n) s = .next (t.asked d n i.d v 0 i.u .other) := by
  refine rolk_request h ?_
  unfold supreadStep
  rw [onTarget_acts hs hx (Or.inl rfl)]
  dsimp only
  rw [get_countSlot, if_neg (Nat.not_lt.mpr hsel), hv]
  rfl

theorem supread_range (hs : s.superOf d (clusterOf n) = some n.val) (hx : ((s.thr d n).get i.a).toNat ≤ 63)
    (h : s.issues d n .supreadx i) (hsel : 35 < ((s.thr d n).get i.b).toNat) :
    exec (.supread d n) s = .next ((countSlot s d n).faulted d n 3 (((s.thr d n).get i.b).toNat % 2 ^ 32)) := by
  refine rolk_faultThread h ?_
  unfold supreadStep
  rw [onTarget_acts hs hx (Or.inl rfl)]
  dsimp only
  rw [get_countSlot, if_pos hsel]
  rfl

/-- What a selector reads (R285): a register or the PC, the status, the oldest fault record's low word, or its high word, which takes the record. -/
theorem supValue_register (hr : mrise 0 s.cra.thr = true) {k sel : Nat} (h : sel ≤ 32) :
    supValue (countSlot s d n) d k m sel = (if sel = 32 then BitVec.ofNat 64 (s.thr d m).pc else (s.thr d m).get sel, countSlot s d n) := by
  unfold supValue
  dsimp only
  rw [if_pos h, dbgValue_countSlot _ _ _ _ hr]
  rfl

theorem supValue_status (hr : mrise 0 s.cra.thr = true) {k sel : Nat} (h : sel = 33) :
    supValue (countSlot s d n) d k m sel = (BitVec.ofNat 64 (s.threadStat d m).toNat, countSlot s d n) := by
  subst h
  unfold supValue
  dsimp only
  rw [if_neg (by decide), if_pos rfl, threadStat_countSlot _ _ _ hr]

/-- The bits of the oldest record of a cluster, zero without one. -/
def State.oldestFault (s : State) (d k : Nat) : Nat := ((s.faultQ d k).head?.map (fun r => r.bits.toNat)).getD 0

theorem supValue_oldest {k sel : Nat} (h : sel = 34) : supValue (countSlot s d n) d k m sel = (BitVec.ofNat 64 (s.oldestFault d k), countSlot s d n) := by
  subst h
  unfold supValue State.oldestFault
  rw [faultQ_countSlot]
  cases s.faultQ d k <;> rfl

theorem supValue_taken {k sel : Nat} (h : sel = 35) :
    supValue (countSlot s d n) d k m sel = (BitVec.ofNat 64 (s.oldestFault d k / 2 ^ 64), (countSlot s d n).setFaultQ d k ((s.faultQ d k).drop 1)) := by
  subst h
  unfold supValue State.oldestFault
  rw [faultQ_countSlot]
  cases s.faultQ d k <;> rfl

/-- SUPSTOP and SUPRESTART of another thread (R286, R288). -/
theorem supstop_acts (hs : s.superOf d (clusterOf n) = some n.val) (hx : ((s.thr d n).get i.a).toNat ≤ 63) (h : s.issues d n .supstopx i)
    (hm : m = clusterOf n * 64 + ((s.thr d n).get i.a).toNat) (ne : m ≠ n) (same : Bool) :
    exec (.supstop d ⟨n, same⟩) s = .next ((stopUnless (countSlot s d n) d m same).asked d n i.d 0 0 i.u .other) := by
  subst hm
  refine rolk_request h ?_
  unfold supstopStep
  rw [onTarget_acts hs hx (Or.inr ne)]
  rfl

theorem suprestart_acts (hs : s.superOf d (clusterOf n) = some n.val) (hx : ((s.thr d n).get i.a).toNat ≤ 63) (h : s.issues d n .suprestartx i)
    (hm : m = clusterOf n * 64 + ((s.thr d n).get i.a).toNat) (ne : m ≠ n) :
    exec (.suprestart d n) s = .next ((restartThread (countSlot s d n) d m 0).asked d n i.d 0 0 i.u .other) := by
  subst hm
  refine rolk_request h ?_
  unfold suprestartStep
  rw [onTarget_acts hs hx (Or.inr ne)]
  rfl

theorem State.asked_only (u : State) (d n rd : Nat) (v : DWord) (err : Nat) (w : Bool) (kind : PendKind) : only [.regs, .cra, .syu] u (u.asked d n rd v err w kind) := by
  unfold State.asked State.withThr
  exact only_trans (only_trans (only_mono (by simp) (markWait_only u d n)) (only_mono (by simp) (State.putThr_only _ _ _ _))) (only_mono (by simp) lapse_keeps.frame)

end

/-- Settles O44: an instruction by whether its thread is the supervisor, whether its target is in range, and what it then does. -/
theorem supervisorInstructions : Obligations.SupervisorInstructions := by
  rintro s d n i u x m k hi rfl rfl rfl rfl
  refine ⟨fun hs => ⟨fun h => ?_, fun h same => ?_, fun h => ?_⟩, fun hs hx => ⟨fun h => ?read, fun h ne hst same => ?stop, fun h ne hst => ?restart, fun e => ⟨fun h same => ?_, fun h => ?_⟩⟩,
    fun hs hx => ⟨fun h => ?_, fun h same => ?_, fun h => ?_⟩⟩
  case read =>
    refine ⟨fun hsel => ?_, fun hsel => ?_, fun hsel => ?_, fun hsel => ?_, supread_range hs hx h⟩
    · exact supread_answers hs hx h (by omega) (supValue_register hi.thrRise hsel)
    · exact supread_answers hs hx h (by omega) (supValue_status hi.thrRise hsel)
    · exact supread_answers hs hx h (by omega) (supValue_oldest hsel)
    · exact supread_answers hs hx h (by omega) (supValue_taken hsel)
  case stop =>
    have hst' : ((countSlot s d n).thr d (clusterOf n * 64 + ((s.thr d n).get i.a).toNat)).st ≠ .idle := by
      rwa [thr_countSlot_other hi.thrRise ne]
    refine ⟨fun hsame hf => ?_, fun hno => ⟨_, supstop_acts hs hx h rfl ne same, ?_, State.asked_st _ _ _ _ _ _ _ _, ?_⟩⟩
    · rw [supstop_acts hs hx h rfl ne same]
      unfold stopUnless
      rw [thr_countSlot_other hi.thrRise ne, if_pos ⟨hsame, hf⟩]
    · rw [State.asked_thr_other _ _ _ _ _ _ ne]
      unfold stopUnless
      rw [thr_countSlot_other hi.thrRise ne, if_neg hno]
      exact stopThread_st hst'
    · exact only_trans (only_trans (only_mono (by simp) (countSlot_only s d n)) (only_mono (by simp) stopUnless_keeps.frame)) (State.asked_only _ _ _ _ _ _ _ _)
  case restart =>
    have hst' : ((countSlot s d n).thr d (clusterOf n * 64 + ((s.thr d n).get i.a).toNat)).st ≠ .idle := by
      rwa [thr_countSlot_other hi.thrRise ne]
    refine ⟨_, suprestart_acts hs hx h rfl ne, ?_, State.asked_st _ _ _ _ _ _ _ _⟩
    rw [State.asked_thr_other _ _ _ _ _ _ ne, restartThread_thr 0 hst', restartPc_countSlot]
  · exact rolk_faultThread h (onTarget_other hs)
  · exact rolk_faultThread h (onTarget_other hs)
  · exact rolk_faultThread h (onTarget_other hs)
  · have hr := onTarget_range (own := false) (f := fun m => answer (stopUnless (countSlot s d n) d m same) d n i 0) hs (Or.inr ⟨rfl, e⟩)
    rw [Nat.mod_eq_of_lt (by omega)] at hr
    exact rolk_faultThread h hr
  · have hr := onTarget_range (own := false) (f := fun m => answer (restartThread (countSlot s d n) d m 0) d n i 0) hs (Or.inr ⟨rfl, e⟩)
    rw [Nat.mod_eq_of_lt (by omega)] at hr
    exact rolk_faultThread h hr
  · exact rolk_faultThread h (onTarget_range hs (Or.inl hx))
  · exact rolk_faultThread h (onTarget_range hs (Or.inl hx))
  · exact rolk_faultThread h (onTarget_range hs (Or.inl hx))

end Sys2Proof.Machine

/-! PROOFS. Thread control by the host (spec/09 R286 to R296). -/

namespace Sys2Proof.Machine

theorem hostCraWr_live {s : State} {d : Nat} {f : State → Ans} (hd : d < s.dies) (hm : s.glb.mode.any = true) (hx : s.excluded d = false) :
    hostCraWr s d f = .next (wrResult ((f s).1, lapse (f s).2 d)) := by
  unfold hostCraWr
  rw [hostDieWr_live _ _ _ _ hd hm (Or.inl hx)]

/-- An answer of a host write that acts on threads keeps the frame of what it did. -/
theorem craResult_only {l : List Piece} {s t : State} {e : Status} {d : Nat} (h : only l s t) (hl : l ⊆ [.regs, .cra, .syu, .gwe]) :
    only [.regs, .cra, .syu, .gwe] s (wrResult (e, lapse t d)) :=
  only_trans (only_trans (only_mono (fun p hp => hl hp) h) (only_mono (by simp) lapse_keeps.frame)) (only_mono (by simp) (wrResult_only _ _))

section
variable {s : State} {d : Fin 8} {n : Fin 384} {exp : BitVec 16} (hd : d < s.dies) (hm : s.glb.mode.any = true) (hx : s.excluded d = false)
include hd hm hx

theorem execThreadStop_live (same : Bool) :
    exec (.threadStop d n ⟨exp, same⟩) s = .next (wrResult (if genOk exp.toNat (s.gen .CRA_STATE d) = true then (.ok, lapse (stopUnless s d n same) d) else (.stale, lapse s d))) := by
  show execThreadStop d n ⟨exp, same⟩ s = _
  unfold execThreadStop
  rw [hostCraWr_live hd hm hx]
  dsimp only
  split <;> rfl

theorem execThreadRestart_live : exec (.threadRestart d n exp) s = .next (wrResult ((threadCtl s d 2 n exp.toNat).1, lapse (threadCtl s d 2 n exp.toNat).2 d)) := by
  show execThreadRestart d n exp s = _
  unfold execThreadRestart
  rw [hostCraWr_live hd hm hx]

theorem execThreadHalt_live : exec (.threadHalt d n exp) s = .next (wrResult ((threadCtl s d 3 n exp.toNat).1, lapse (threadCtl s d 3 n exp.toNat).2 d)) := by
  show execThreadHalt d n exp s = _
  unfold execThreadHalt
  rw [hostCraWr_live hd hm hx]

theorem execThreadResume_live : exec (.threadResume d n exp) s = .next (wrResult ((threadCtl s d 4 n exp.toNat).1, lapse (threadCtl s d 4 n exp.toNat).2 d)) := by
  show execThreadResume d n exp s = _
  unfold execThreadResume
  rw [hostCraWr_live hd hm hx]

theorem execThreadStep_live : exec (.threadStep d n exp) s = .next (wrResult ((threadCtl s d 5 n exp.toNat).1, lapse (threadCtl s d 5 n exp.toNat).2 d)) := by
  show execThreadStep d n exp s = _
  unfold execThreadStep
  rw [hostCraWr_live hd hm hx]

end

/-- The operations of CRA_THREAD_CTL on a thread that is there, by their checks in order (R287, R289, R296). -/
theorem threadCtl_stale {s : State} {d op n e : Nat} (hg : genOk e (s.gen .CRA_STATE d) = false) : threadCtl s d op n e = (.stale, s) := by
  unfold threadCtl
  rw [if_pos (by simp [hg])]

theorem threadCtl_restart {s : State} {d n e : Nat} (hg : genOk e (s.gen .CRA_STATE d) = true) (hn : n < 384) : threadCtl s d 2 n e = (.ok, restartThread s d n 1) := by
  unfold threadCtl
  rw [if_neg (by simp [hg]), if_neg (by omega), if_neg (by decide), if_pos rfl]

theorem threadCtl_denied {s : State} {d op n e : Nat} (hg : genOk e (s.gen .CRA_STATE d) = true) (hn : n < 384) (ho : 3 ≤ op ∧ op ≤ 5) (hb : s.debugEn d = false) :
    threadCtl s d op n e = (.denied, s) := by
  unfold threadCtl
  rw [if_neg (by simp [hg]), if_neg (by omega), if_neg (by omega), if_neg (by omega), if_pos (by simp [hb])]

theorem threadCtl_debug {s : State} {d op n e : Nat} (hg : genOk e (s.gen .CRA_STATE d) = true) (hn : n < 384) (ho : 3 ≤ op ∧ op ≤ 5) (hb : s.debugEn d = true) :
    threadCtl s d op n e = (.ok, if op = 3 then haltThread s d n else if op = 4 then resumeThread s d n else stepThread s d n) := by
  unfold threadCtl
  rw [if_neg (by simp [hg]), if_neg (by omega), if_neg (by omega), if_neg (by omega), if_neg (by simp [hb])]
  split
  · rfl
  · split <;> rfl

/-! Halts, resumes and steps. -/

theorem State.modThr_rise {s : State} (d n : Nat) (f : Thr → Thr) (h : mrise 0 s.cra.thr = true) : mrise 0 (s.modThr d n f).cra.thr = true := by
  unfold State.modThr
  exact mmod_rise _ _ _ _ h

theorem Thr.ne_idle_of_waited {x : Thr} (h : x.waited = true) : x ≠ {} := fun e => by simp [congrArg Thr.waited e] at h

/-- A halt of a thread in states 1 to 4 keeps its state beside (R291). -/
theorem haltThread_thr {s : State} {d n : Nat} (h : (s.thr d n).st = .run ∨ (s.thr d n).st = .helper ∨ (s.thr d n).st = .sync ∨ (s.thr d n).st = .twait) :
    (haltThread s d n).thr d n = { s.thr d n with st := .halted, was := (s.thr d n).st, step := 0, waited := true } := by
  have hmod : ∀ st, (s.modThr d n (fun t => { t with st := .halted, was := st, step := 0, waited := true })).thr d n
      = { s.thr d n with st := .halted, was := st, step := 0, waited := true } := fun st => State.thr_modThr_ne_idle d n (Thr.ne_idle_of_waited rfl)
  unfold haltThread
  dsimp only
  split
  · rename_i e; simp [e] at h
  · rename_i e; simp [e] at h
  · rename_i e; simp [e] at h
  · rename_i e; simp [e] at h
  · rw [bumpCra_thr, hmod]

/-- A halt leaves any other thread as it is (R265). -/
theorem haltThread_none {s : State} {d n : Nat} (h : (s.thr d n).st = .idle ∨ (s.thr d n).st = .halted ∨ (s.thr d n).st = .faulted ∨ (s.thr d n).st = .stopped) :
    haltThread s d n = s := by
  unfold haltThread
  rcases h with h | h | h | h <;> simp only [h]

/-- What taking a halted thread up makes of its record: the state it held, HELPER with slots that count (R279, R293, R296). -/
def State.resumed (s : State) (d n step : Nat) : Thr :=
  { s.thr d n with st := (s.thr d n).was, step := step, helped := (s.thr d n).helped || (decide ((s.thr d n).was = .helper) && !s.exempt d n) }

theorem takeUp_thr {s : State} {d n step : Nat} (hr : mrise 0 s.cra.thr = true) (hp : ∀ p, (s.thr d n).pend = some p → p.arrived = false)
    (hw : (s.thr d n).was = .twait → s.thrEn d n = true) : (takeUp s d n step).thr d n = s.resumed d n step ∧ only [.cra] s (takeUp s d n step) := by
  unfold takeUp
  extract_lets u1 u2 u3 t
  have h1 : u1.thr d n = { s.thr d n with st := (s.thr d n).was, step := step } := State.thr_modThr_self d n _ hr
  have h2 : u2.thr d n = u1.thr d n := by
    dsimp only [u2]
    split
    · rw [markWait_thr]
    · rfl
  have hr2 : mrise 0 u2.cra.thr = true := by
    have hr1 : mrise 0 u1.cra.thr = true := State.modThr_rise _ _ _ hr
    dsimp only [u2]
    split
    · exact hr1
    · exact hr1
  have h3 : u3.thr d n = s.resumed d n step := by
    refine (State.thr_modThr_self d n _ hr2).trans ?_
    rw [h2, h1]
    rfl
  have hf : only [.cra] s u3 := by
    have h1 : only [.cra] s u1 := s.modThr_only _ _ _
    have h2 : only [.cra] u1 u2 := by
      dsimp only [u2]
      split
      · exact markWait_only _ _ _
      · exact only_refl _ _
    exact only_trans (only_trans h1 h2) (u2.modThr_only _ _ _)
  have ht : t = s.resumed d n step := h3
  split
  · rename_i p e
    have ha : p.arrived = false := hp p (by rw [ht] at e; exact e)
    rw [if_neg (by simp [ha])]
    exact ⟨h3, hf⟩
  · rw [if_neg]
    · exact ⟨h3, hf⟩
    · rintro ⟨hst, hen⟩
      rw [ht] at hst
      exact hen (hw hst)

theorem resumeThread_thr {s : State} {d n : Nat} (hr : mrise 0 s.cra.thr = true) (hs : (s.thr d n).st = .halted) (hp : ∀ p, (s.thr d n).pend = some p → p.arrived = false)
    (hw : (s.thr d n).was = .twait → s.thrEn d n = true) : (resumeThread s d n).thr d n = s.resumed d n 0 ∧ only [.regs, .cra] s (resumeThread s d n) := by
  obtain ⟨h, hf⟩ := takeUp_thr (step := 0) hr hp hw
  unfold resumeThread
  rw [if_pos hs, bumpCra_thr]
  exact ⟨h, only_trans (only_mono (by simp) hf) (only_mono (by simp) bumpCra_keeps.frame)⟩

theorem stepThread_thr {s : State} {d n : Nat} (hr : mrise 0 s.cra.thr = true) (hs : (s.thr d n).st = .halted) (hp : ∀ p, (s.thr d n).pend = some p → p.arrived = false)
    (hw : (s.thr d n).was = .twait → s.thrEn d n = true) : (stepThread s d n).thr d n = s.resumed d n 1 ∧ only [.cra] s (stepThread s d n) := by
  unfold stepThread
  rw [if_pos hs]
  exact takeUp_thr hr hp hw

/-- A resume or a step leaves a thread that is not HALTED (R265). -/
theorem resumeThread_none {s : State} {d n : Nat} (h : (s.thr d n).st ≠ .halted) : resumeThread s d n = s := if_neg h
theorem stepThread_none {s : State} {d n : Nat} (h : (s.thr d n).st ≠ .halted) : stepThread s d n = s := if_neg h

/-- A stop leaves a thread its registers (R286). -/
theorem stopThread_get {s : State} {d n : Nat} (r : Nat) : ((stopThread s d n).thr d n).get r = (s.thr d n).get r := by
  unfold stopThread
  dsimp only
  split
  · rfl
  · rw [bumpCra_thr, State.thr_modThr_ne_idle d n (f := fun t => { t with st := .stopped, step := 0 })]
    · rfl
    · exact fun e => absurd (congrArg Thr.st e) (by simp)

/-- Settles O47: each command by the check that decides it and the state that its thread is in. -/
theorem hostControlsThreads : Obligations.HostControlsThreads := by
  refine fun s d n exp hi hd hm hx => ⟨fun hg => ⟨fun same hst => ⟨fun hsame hf => ?_, fun hno => ?_⟩, fun hst => ?_, fun hb => ⟨fun hs => ?_, fun hs => ?_, fun hs hp hw => ⟨?_, ?_⟩, fun hs => ⟨?_, ?_⟩⟩,
    fun hb => ⟨?_, ?_, ?_⟩⟩, fun hg => ⟨fun same => ?_, ?_, ?_, ?_, ?_⟩⟩
  · rw [execThreadStop_live hd hm hx, if_pos hg]
    unfold stopUnless
    rw [if_pos ⟨hsame, hf⟩]
  · refine ⟨_, (execThreadStop_live hd hm hx same).trans (by rw [if_pos hg]), ?_, fun r => ?_, craResult_only stopUnless_keeps.frame (by simp)⟩
    · rw [wrResult_thr, lapse_thr]
      unfold stopUnless
      rw [if_neg hno]
      exact stopThread_st hst
    · rw [wrResult_thr, lapse_thr]
      unfold stopUnless
      rw [if_neg hno]
      exact stopThread_get r
  · refine ⟨_, execThreadRestart_live hd hm hx, ?_⟩
    rw [threadCtl_restart hg n.isLt, wrResult_thr, lapse_thr]
    exact restartThread_thr 1 hst
  · refine ⟨_, execThreadHalt_live hd hm hx, ?_⟩
    rw [threadCtl_debug hg n.isLt (by decide) hb, if_pos rfl]
    exact ⟨by rw [wrResult_thr, lapse_thr]; exact haltThread_thr hs, craResult_only haltThread_keeps.frame (by simp)⟩
  · rw [execThreadHalt_live hd hm hx, threadCtl_debug hg n.isLt (by decide) hb, if_pos rfl, haltThread_none hs]
  · refine ⟨_, execThreadResume_live hd hm hx, ?_⟩
    obtain ⟨h, hf⟩ := resumeThread_thr hi.thrRise hs hp hw
    rw [threadCtl_debug hg n.isLt (by decide) hb, if_neg (by decide), if_pos rfl]
    exact ⟨by rw [wrResult_thr, lapse_thr]; exact h, craResult_only hf (by simp)⟩
  · refine ⟨_, execThreadStep_live hd hm hx, ?_⟩
    obtain ⟨h, hf⟩ := stepThread_thr hi.thrRise hs hp hw
    rw [threadCtl_debug hg n.isLt (by decide) hb, if_neg (by decide), if_neg (by decide)]
    exact ⟨by rw [wrResult_thr, lapse_thr]; exact h, craResult_only hf (by simp)⟩
  · rw [execThreadResume_live hd hm hx, threadCtl_debug hg n.isLt (by decide) hb, if_neg (by decide), if_pos rfl, resumeThread_none hs]
  · rw [execThreadStep_live hd hm hx, threadCtl_debug hg n.isLt (by decide) hb, if_neg (by decide), if_neg (by decide), stepThread_none hs]
  · rw [execThreadHalt_live hd hm hx, threadCtl_denied hg n.isLt (by decide) hb]
  · rw [execThreadResume_live hd hm hx, threadCtl_denied hg n.isLt (by decide) hb]
  · rw [execThreadStep_live hd hm hx, threadCtl_denied hg n.isLt (by decide) hb]
  · rw [execThreadStop_live hd hm hx, if_neg (by simp [hg])]
  · rw [execThreadRestart_live hd hm hx, threadCtl_stale hg]
  · rw [execThreadHalt_live hd hm hx, threadCtl_stale hg]
  · rw [execThreadResume_live hd hm hx, threadCtl_stale hg]
  · rw [execThreadStep_live hd hm hx, threadCtl_stale hg]

end Sys2Proof.Machine

/-! PROOFS. Replies, timeouts, runaways, breakpoints and restarts by the Pilot (spec/09 R262 to R290). -/

namespace Sys2Proof.Machine

/-- What a view of the state shows is the same in t as in s. -/
def Fixes {α : Type} (view : State → α) (s t : State) : Prop := view t = view s

namespace Fixes

variable {α : Type} {view : State → α} {s t u : State}

theorem refl (s : State) : Fixes view s s := rfl
theorem after (k : Fixes view t u) (h : Fixes view s t) : Fixes view s u := Eq.trans k h

theorem ite {c : Prop} [Decidable c] (h : Fixes view s t) (k : Fixes view s u) : Fixes view s (if c then t else u) := by
  split
  · exact h
  · exact k

theorem foldl {β : Type} {f : State → β → State} {xs : List β} (hf : ∀ t x, Fixes view t (f t x)) (s : State) : Fixes view s (xs.foldl f s) :=
  foldl_keep (Fixes view s) f (fun t x h => (hf t x).after h) xs s (refl s)

end Fixes

/-! A restart takes its own thread alone off those whose records the Pilot received. -/

/-- The threads whose records the Pilot received and has not yet restarted (R283). -/
def State.escalated (s : State) : List Nat := s.cra.esc

/-- An operation whose frame leaves the cores leaves them. -/
theorem Fixes.escalated_of_keeps {l : List Piece} {s t : State} (h : Keeps l s t) (hl : Piece.cra ∉ l) : Fixes State.escalated s t :=
  congrArg Cra.esc (h.frame .cra hl)

theorem passLock_escalated (s : State) (d l : Nat) : Fixes State.escalated s (passLock s d l) := by
  unfold passLock
  dsimp only
  split <;> rfl

theorem abandonLock_escalated (s : State) (d l : Nat) : Fixes State.escalated s (abandonLock s d l) := by
  unfold abandonLock
  have h : ∀ x, Fixes State.escalated s (s.setLock d l x) := fun _ => rfl
  have hb : ∀ t : State, Fixes State.escalated t (t.bump .SYU_LK_ABANDON d) := fun _ => .escalated_of_keeps State.bump_keeps (by decide)
  have hg : ∀ t : State, Fixes State.escalated t (bumpSyu t d) := fun _ => .escalated_of_keeps bumpSyu_keeps (by decide)
  exact (hg _).after ((hb _).after ((passLock_escalated _ d l).after (h _)))

theorem giveMessage_escalated (s : State) (d n c : Nat) (m : List DWord) : Fixes State.escalated s (giveMessage s d n c m) := by
  unfold giveMessage
  dsimp only
  split <;> rfl

theorem returnMsg_escalated (s : State) (d k c : Nat) (m : List DWord) : Fixes State.escalated s (returnMsg s d k c m) := by
  unfold returnMsg
  dsimp only
  split
  · exact (giveMessage_escalated _ _ _ _ _).after rfl
  · rfl

theorem undoPend_escalated (s : State) (d n : Nat) (p : Pend) : Fixes State.escalated s (undoPend s d n p) := by
  unfold undoPend
  split
  · exact .ite (.escalated_of_keeps freeBuf_keeps (by decide)) (.refl s)
  · exact .ite (abandonLock_escalated s d _) (.refl s)
  · exact returnMsg_escalated s d _ _ _
  · exact .ite rfl (.escalated_of_keeps tableNow_keeps (by decide))
  · exact .refl s

theorem endTicket_escalated (s : State) (d t : Nat) (e : Ending) : Fixes State.escalated s (endTicket s d t e) := by
  have hu : Fixes State.escalated s (unhold s d t) := rfl
  have hr : ∀ (u : State) x, Fixes State.escalated u (u.setRob d t x) := fun _ _ => .escalated_of_keeps State.setRob_keeps (by decide)
  unfold endTicket
  split
  · exact .refl s
  · extract_lets freed lose u
    have hl : Fixes State.escalated s (lose u) :=
      Fixes.after (.ite (.escalated_of_keeps freeMirror_keeps (by decide)) (.escalated_of_keeps dropFrame_keeps (by decide))) hu
    have hb : ∀ r, Fixes State.escalated s ((lose u).bump r d) := fun _ => (Fixes.escalated_of_keeps State.bump_keeps (by decide)).after hl
    split
    · exact (Fixes.escalated_of_keeps dropRob_keeps (by decide)).after (hb _)
    · refine (Fixes.escalated_of_keeps regap_keeps (by decide)).after ?_
      cases e with
      | emit => exact (hr _ _).after hu
      | retire => exact (hr _ _).after (hb _)
      | host => exact (hr _ _).after hu
    · exact .refl s

theorem retireTicket_escalated (s : State) (d t : Nat) : Fixes State.escalated s (retireTicket s d t) := by
  unfold retireTicket
  split
  · exact .ite ((endTicket_escalated _ d t _).after (.escalated_of_keeps bfreeQuiet_keeps (by decide))) (.refl s)
  · exact .refl s

theorem leaveQueues_escalated (s : State) (d n : Nat) : Fixes State.escalated s (leaveQueues s d n) := by
  unfold leaveQueues
  split <;> rfl

theorem releaseHeld_escalated (s : State) (d n : Nat) : Fixes State.escalated s (releaseHeld s d n) := by
  unfold releaseHeld
  extract_lets t u1 u2 u3 u4 u5
  have hb : ∀ (u : State) r, Fixes State.escalated u (u.bump r d) := fun _ _ => .escalated_of_keeps State.bump_keeps (by decide)
  have h1 : Fixes State.escalated s u1 := by
    dsimp only [u1]
    split
    · exact .ite ((hb _ _).after (retireTicket_escalated s d _)) (retireTicket_escalated s d _)
    · exact .refl s
  have h2 : Fixes State.escalated u1 u2 := .escalated_of_keeps (l := [.bpm]) releaseClosed_keeps (by decide)
  have h3 : Fixes State.escalated u2 u3 := .foldl (fun _ _ => abandonLock_escalated _ _ _) u2
  have h4 : Fixes State.escalated u3 u4 := leaveQueues_escalated _ _ _
  have h5 : Fixes State.escalated u4 u5 := .ite (.refl _) (hb _ _)
  have h : Fixes State.escalated s u5 := h5.after (h4.after (h3.after (h2.after h1)))
  split
  · exact (undoPend_escalated _ _ _ _).after h
  · exact h

/-- A restart takes its thread off those whose records the Pilot received (R283). -/
theorem restartThread_esc {s : State} {d n : Nat} (who : Nat) (h : (s.thr d n).st ≠ .idle) : (restartThread s d n who).cra.esc = lrem (thrKey d n) s.cra.esc := by
  unfold restartThread
  extract_lets t u v w _ x
  have hu : u.cra.esc = s.cra.esc := releaseHeld_escalated s d n
  have hv : v.cra.esc = s.cra.esc := hu
  have hk : Keeps [.regs] v w := bumpCra_keeps.after State.bump_keeps.mono
  have hw : w.cra.esc = v.cra.esc := congrArg Cra.esc (hk.frame .cra (by decide))
  rw [if_neg h, trace_cra]
  show lrem (thrKey d n) w.cra.esc = _
  rw [hw, hv]

/-! Replies. -/

/-- The reply to an outstanding request whose answer is not an error (R262). -/
theorem replyThread_value {u : State} {d n : Nat} {p : Pend} : lapse (replyThread u d n p 0) d = u.withThr d n ((u.thr d n).done p.rd p.value) := by
  unfold replyThread State.withThr
  rw [if_pos rfl, State.modThr_eq_putThr _ _ _ _ (Thr.done_ne_idle _ _ _)]

/-- An error is written as a code word where U is 0 (R277), -/
theorem replyThread_code {u : State} {d n : Nat} {p : Pend} {e : Nat} (he : e ≠ 0) (hu : p.u = false) :
    lapse (replyThread u d n p e) d = u.withThr d n ((u.thr d n).done p.rd (codeWord e)) := by
  unfold replyThread State.withThr
  rw [if_neg he, if_pos (by simp [hu]), State.modThr_eq_putThr _ _ _ _ (Thr.done_ne_idle _ _ _)]

/-- and faults where it is 1, but for a halted thread. -/
theorem replyThread_fault {u : State} {d n : Nat} {p : Pend} {e : Nat} (he : e ≠ 0) (hu : p.u = true) (hs : (u.thr d n).st ≠ .halted) :
    replyThread u d n p e = faultThread u d n 7 e := by
  unfold replyThread
  rw [if_neg he, if_neg (by simp [hu]), if_neg hs]
  rfl

section
variable {s : State} {d : Fin 8} {n : Fin 384} {p : Pend}

theorem helperReply_plain (hp : (s.thr d n).pend = some p) (hs : (s.thr d n).st = .helper) (ha : p.arrived = false) (hr : ∀ k, p.kind ≠ .remote k) (hf : ∀ q, p.kind ≠ .fwt q) (uncorr : Bool) :
    helperReply s d n uncorr = replyThread s d n p (if uncorr then 3 else p.err) := by
  unfold helperReply
  dsimp only
  rw [hp]
  dsimp only
  rw [if_neg (by simp [hs, ha])]
  split
  · rename_i e; exact absurd e (hr _)
  · rename_i e; exact absurd e (hf _)
  · rfl

theorem helperReply_table {q : LkpReq} (hp : (s.thr d n).pend = some p) (hs : (s.thr d n).st = .helper) (ha : p.arrived = false) (hq : p.kind = .fwt q) (he : p.err = 0) :
    helperReply s d n false = if s.unitDown d unitFwt then s else replyThread (tableNow s d q).2 d n { p with value := (tableNow s d q).1 } 0 := by
  unfold helperReply
  dsimp only
  rw [hp]
  dsimp only
  rw [if_neg (by simp [hs, ha])]
  split
  · rename_i e; rw [hq] at e; cases e
  · rename_i e
    rw [hq] at e
    cases e
    rw [he]
    rfl
  · rename_i e; exact absurd hq (e q)

/-- A timeout of a request that leaves nothing behind is error 1 and counts (R276, R277). -/
theorem helperTimeout_plain (hp : (s.thr d n).pend = some p) (hs : (s.thr d n).st = .helper) (ha : p.arrived = false) (hk : p.kind = .other ∨ p.kind = .tdx ∨ p.kind = .syu)
    (ht : s.rf .CRA_HELPER_TMO d [] 15 0 ≠ 0) : helperTimeout s d n = replyThread (s.bump .CRA_HELPER_TMO_CNT d) d n p 1 := by
  have hu : ∀ t : State, undoPend t d n p = t := by
    intro t
    unfold undoPend
    rcases hk with hk | hk | hk <;> rw [hk]
  unfold helperTimeout
  dsimp only
  rw [hp]
  dsimp only
  rw [if_pos ⟨Or.inl hs, by simp [ha], ht⟩, hu]

/-- A thread past its slot limit faults with its slots as DETAIL where the model has counted them all (R279), -/
theorem runaway_counted (hs : (s.thr d n).st = .run) (hl : (s.slotLimit d n).isSome = true) (hp : s.pastLimit d n = true) (hh : (s.thr d n).helped = false)
    (hb : s.psIsBad d (clusterOf n) (s.thr d n).pc = false) : runaway s d n = faultThread s d n 8 (s.thr d n).slots := by
  unfold runaway
  dsimp only
  rw [if_neg (by simp [hs, Option.isSome_iff_ne_none.mp hl]), if_pos (by simp [hp, hh, hb])]
  rfl

/-- and with a free value where it has not (log 9). -/
theorem runaway_free (hs : (s.thr d n).st = .run) (hl : (s.slotLimit d n).isSome = true) (hx : (s.thr d n).helped = true ∨ s.psIsBad d (clusterOf n) (s.thr d n).pc = true) :
    runaway s d n = faultThread s.takeFree.2 d n 8 (s.takeFree.1.toNat % 2 ^ 32) := by
  have hu : ((s.thr d n).helped || s.psIsBad d (clusterOf n) (s.thr d n).pc) = true := by simpa using hx
  unfold runaway
  dsimp only
  rw [if_neg (by simp [hs, Option.isSome_iff_ne_none.mp hl]), if_neg (by simp [hu]), if_pos hu]
  rfl

theorem run_of_bpMatch (h : s.bpMatch d n = true) : (s.thr d n).st = .run := by
  unfold State.bpMatch at h
  simp only [Bool.and_eq_true, decide_eq_true_eq] at h
  exact h.1.1

end

/-- Settles O46: replies, timeouts and runaways by the branch that their thread's request and count select. -/
theorem threadsReplyAndStop : Obligations.ThreadsReplyAndStop := by
  refine fun s d n hi hd => ⟨fun p hp hs ha => ⟨fun hr hf => ⟨fun he => ?_, fun uncorr e hee he => ⟨fun hu => ?_, fun hu => ?_⟩⟩,
    fun q hq he => ⟨fun hdown v t hv => ?_, fun hdown => ?_⟩, fun hk ht => ⟨fun hu => ?_, fun hu => ?_⟩⟩,
    fun hs hl => ⟨fun hp hh hb => ?_, fun hx => ⟨s.takeFree.1.toNat % 2 ^ 32, ?_⟩⟩, fun hb => ?_, fun he hc hs => ?_⟩
  · show onCra s d (helperReply s d n false) = _
    rw [onCra_live _ _ _ hd, helperReply_plain hp hs ha hr hf, if_neg (by decide), he, replyThread_value]
  · show onCra s d (helperReply s d n uncorr) = _
    rw [onCra_live _ _ _ hd, helperReply_plain hp hs ha hr hf, ← hee, replyThread_code he hu]
  · show onCra s d (helperReply s d n uncorr) = _
    rw [onCra_live _ _ _ hd, helperReply_plain hp hs ha hr hf, ← hee, replyThread_fault he hu (by simp [hs])]
  · show onCra s d (helperReply s d n false) = _
    have ht : (tableNow s d q).2.thr d n = s.thr d n := thr_of_cra (congrArg Cra.thr (tableNow_keeps.frame .cra (by decide))) d n
    rw [onCra_live _ _ _ hd, helperReply_table hp hs ha hq he, if_neg (by simp [hdown]), replyThread_value, ht, hv]
  · show onCra s d (helperReply s d n false) = _
    rw [onCra_live _ _ _ hd, helperReply_table hp hs ha hq he, if_pos hdown]
  · show onCra s d (helperTimeout s d n) = _
    rw [onCra_live _ _ _ hd, helperTimeout_plain hp hs ha hk ht, replyThread_code (by decide) hu]
    rfl
  · show onCra s d (helperTimeout s d n) = _
    have hh : ((s.bump .CRA_HELPER_TMO_CNT d).thr d n).st ≠ .halted := fun h => absurd (hs.symm.trans h) (by decide)
    rw [onCra_live _ _ _ hd, helperTimeout_plain hp hs ha hk ht, replyThread_fault (by decide) hu hh]
  · show onCra s d (runaway s d n) = _
    rw [onCra_live _ _ _ hd, runaway_counted hs hl hp hh hb]
  · show onCra s d (runaway s d n) = _
    rw [onCra_live _ _ _ hd, runaway_free hs hl hx]
  · refine ⟨_, onCra_live _ _ _ hd, ?_, ?_⟩
    · rw [lapse_thr, if_pos hb]
      refine (thr_of_cra (congrArg Cra.thr (State.bump_keeps.frame .cra (by decide))) d n).trans ?_
      rw [haltThread_thr (Or.inl (run_of_bpMatch hb)), run_of_bpMatch hb]
    · rw [if_pos hb]
      exact only_trans (only_mono (by simp) haltThread_keeps.frame) (only_trans (only_mono (by simp) State.bump_keeps.frame) (only_mono (by simp) lapse_keeps.frame))
  · refine ⟨_, onCra_live _ _ _ hd, ?_, ?_⟩
    · rw [lapse_thr, if_pos ⟨he, hc, hs⟩]
      exact restartThread_thr 2 (by simp [hs])
    · rw [lapse_cra, if_pos ⟨he, hc, hs⟩]
      exact restartThread_esc 2 (by simp [hs])

end Sys2Proof.Machine

/-! PROOFS. Program stores, the register window, DEBUG_EN and supervisors (spec/09 R268, R269, R284 to R296). -/

namespace Sys2Proof.Machine

/-! Fields that a store of another field leaves. -/

theorem bitsOf_setBitsOf_above (x lo k v : Nat) {hi m : Nat} (hk : 0 < k) (h : lo + k ≤ m) : bitsOf (setBitsOf x (lo + k - 1) lo v) hi m = bitsOf x hi m := by
  have hlow : v % 2 ^ k * 2 ^ lo + x % 2 ^ lo < 2 ^ (lo + k) := by
    have h1 : v % 2 ^ k + 1 ≤ 2 ^ k := Nat.mod_lt _ (by positivity)
    have h2 : x % 2 ^ lo < 2 ^ lo := Nat.mod_lt _ (by positivity)
    calc v % 2 ^ k * 2 ^ lo + x % 2 ^ lo < (v % 2 ^ k + 1) * 2 ^ lo := by rw [Nat.add_mul]; omega
      _ ≤ 2 ^ k * 2 ^ lo := Nat.mul_le_mul_right _ h1
      _ = 2 ^ (lo + k) := by rw [Nat.pow_add]; ring
  unfold bitsOf
  obtain ⟨j, rfl⟩ := Nat.exists_eq_add_of_le h
  rw [setBitsOf_eq _ _ _ _ hk, Nat.pow_add 2 (lo + k) j, ← Nat.div_div_eq_div_mul, ← Nat.div_div_eq_div_mul, Nat.add_assoc, Nat.mul_comm,
    Nat.mul_add_div (by positivity), Nat.div_eq_of_lt hlow, Nat.add_zero]

theorem bitsOf_setBitsOf_below (x lo k v : Nat) {hi m : Nat} (hk : 0 < k) (hm : m ≤ hi + 1) (h : hi < lo) : bitsOf (setBitsOf x (lo + k - 1) lo v) hi m = bitsOf x hi m := by
  have e : setBitsOf x (lo + k - 1) lo v % 2 ^ (hi + 1) = x % 2 ^ (hi + 1) := by
    obtain ⟨j, hj⟩ := Nat.exists_eq_add_of_le (show hi + 1 ≤ lo from h)
    have hd : ∀ a, a * 2 ^ lo % 2 ^ (hi + 1) = 0 := fun a => by
      rw [hj, Nat.pow_add, ← Nat.mul_assoc, Nat.mul_right_comm, Nat.mul_mod_left]
    have hq : x / 2 ^ (lo + k) * 2 ^ (lo + k) = x / 2 ^ (lo + k) * 2 ^ k * 2 ^ lo := by rw [Nat.pow_add]; ring
    rw [setBitsOf_eq _ _ _ _ hk, hq, Nat.add_mod, Nat.add_mod (_ * 2 ^ lo), hd, hd, Nat.zero_mod, Nat.zero_add, Nat.mod_mod,
      Nat.mod_mod_of_dvd _ (pow_dvd_pow 2 (show hi + 1 ≤ lo from h))]
  unfold bitsOf
  have hsplit : ∀ a, a / 2 ^ m % 2 ^ (hi + 1 - m) = a % 2 ^ (hi + 1) / 2 ^ m := fun a => by
    rw [← Nat.mod_mul_right_div_self, ← Nat.pow_add, Nat.add_sub_cancel' hm]
  rw [hsplit, hsplit, e]

theorem fld_setFld_above (w : Word) (lo k v : Nat) {hi m : Nat} (hk : 0 < k) (hl : lo + k ≤ 32) (h : lo + k ≤ m) : fld (setFld w (lo + k - 1) lo v) hi m = fld w hi m := by
  unfold fld setFld
  rw [BitVec.toNat_ofNat, Nat.mod_eq_of_lt (setBitsOf_lt _ _ _ _ hk w.isLt hl), bitsOf_setBitsOf_above _ _ _ _ hk h]

theorem fld_setFld_below (w : Word) (lo k v : Nat) {hi m : Nat} (hk : 0 < k) (hl : lo + k ≤ 32) (hm : m ≤ hi + 1) (h : hi < lo) :
    fld (setFld w (lo + k - 1) lo v) hi m = fld w hi m := by
  unfold fld setFld
  rw [BitVec.toNat_ofNat, Nat.mod_eq_of_lt (setBitsOf_lt _ _ _ _ hk w.isLt hl), bitsOf_setBitsOf_below _ _ _ _ hk hm h]

theorem maskOf_lt {k : Nat} {l : List Nat} (h : ∀ n ∈ l, n < k) : maskOf l < 2 ^ k := by
  unfold maskOf
  suffices ∀ (l : List Nat) (a : Nat), (∀ n ∈ l, n < k) → a < 2 ^ k → l.foldl (fun a n => Nat.lor a (2 ^ n)) a < 2 ^ k from this l 0 h (by positivity)
  intro l
  induction l with
  | nil => exact fun a _ ha => ha
  | cons n r ih =>
    intro a hl ha
    exact ih _ (fun m hm => hl m (List.mem_cons_of_mem _ hm)) (Nat.or_lt_two_pow ha (Nat.pow_lt_pow_right (by decide) (hl n List.mem_cons_self)))

/-! The check of the program stores. -/

section
variable {s : State} {d : Fin 8}

/-- What a completed check leaves: the field of the differing images, START clear, the CRC of the first image (R268). -/
def State.psChecked (s : State) (d : Nat) : State :=
  ((s.setRf .CRA_PS_CHECK d [] 30 30 0).setRf .CRA_PS_CHECK d [] 5 0 (maskOf ((List.range 6).filter (fun k => decide (s.psImage d k ≠ s.psImage d 0))))).setReg
    .CRA_PS_CRC d [] (BitVec.ofNat 32 (s.psCrc d 0))

theorem execPsCheckDone_live (hd : d < s.dies) (h : s.rf .CRA_PS_CHECK d [] 30 30 = 1) : exec (.psCheckDone d) s = .next (s.psChecked d) := by
  show onDie s d _ = _
  rw [onDie_live _ _ _ hd, if_pos h]
  rfl

theorem psCrc_ne_psCheck (d : Nat) : Reg.addr .CRA_PS_CHECK d [] ≠ Reg.addr .CRA_PS_CRC d [] := by
  simp [Reg.addr, Reg.info, dimSum]

theorem psChecked_check (hr : mrise 0 s.regs = true) :
    (s.psChecked d).rf .CRA_PS_CHECK d [] 5 0 = maskOf ((List.range 6).filter (fun k => decide (s.psImage d k ≠ s.psImage d 0))) ∧ (s.psChecked d).rf .CRA_PS_CHECK d [] 30 30 = 0 := by
  generalize hm : maskOf ((List.range 6).filter (fun k => decide (s.psImage d k ≠ s.psImage d 0))) = m
  have hlt : m < 2 ^ 6 := by
    rw [← hm]
    exact maskOf_lt fun n hn => List.mem_range.mp (List.mem_of_mem_filter hn)
  have hr1 : mrise 0 (s.setRf .CRA_PS_CHECK d [] 30 30 0).regs = true := State.setReg_rise _ _ _ _ _ hr
  have hr2 : mrise 0 ((s.setRf .CRA_PS_CHECK d [] 30 30 0).setRf .CRA_PS_CHECK d [] 5 0 m).regs = true := State.setReg_rise _ _ _ _ _ hr1
  have hreg : (s.psChecked d).reg .CRA_PS_CHECK d [] = ((s.setRf .CRA_PS_CHECK d [] 30 30 0).setRf .CRA_PS_CHECK d [] 5 0 m).reg .CRA_PS_CHECK d [] := by
    unfold State.psChecked
    rw [hm]
    exact State.reg_setReg_other _ _ _ _ _ _ _ _ hr2 (psCrc_ne_psCheck d)
  unfold State.rf
  rw [hreg]
  refine ⟨(State.rf_setRf_self _ _ _ _ 0 6 m hr1 (by decide) (by decide)).trans (Nat.mod_eq_of_lt hlt), ?_⟩
  have h30 : ((s.setRf .CRA_PS_CHECK d [] 30 30 0).setRf .CRA_PS_CHECK d [] 5 0 m).reg .CRA_PS_CHECK d [] = setFld ((s.setRf .CRA_PS_CHECK d [] 30 30 0).reg .CRA_PS_CHECK d []) 5 0 m :=
    State.reg_setReg_self _ _ _ _ _ hr1
  rw [h30]
  exact (fld_setFld_above _ 0 6 m (by decide) (by decide) (by decide)).trans (State.rf_setRf_self _ _ _ _ 30 1 0 hr (by decide) (by decide))

theorem psChecked_crc (hr : mrise 0 s.regs = true) : (s.psChecked d).reg .CRA_PS_CRC d [] = BitVec.ofNat 32 (s.psCrc d 0) := by
  refine State.reg_setReg_self _ _ _ _ _ ?_
  exact State.setReg_rise _ _ _ _ _ (State.setReg_rise _ _ _ _ _ hr)

theorem psChecked_only : only [.regs] s (s.psChecked d) :=
  Keeps.frame (State.setReg_keeps.after (State.setRf_keeps.after State.setRf_keeps))

/-! Fetch repairs. -/

theorem execPsFetchRepair_live (hd : d < s.dies) (k : Fin 6) (a : FetchWord) :
    exec (.psFetchRepair d k a) s = .next (lapse (if a.corrected then s.bump .CRA_PS_ECC_CORR d else psRepair s d k a.addr) d) := onCra_live _ _ _ hd

/-- From s to t threads are only marked, as having waited or with slots that count: no state, program counter or program store changes. -/
structure Marks (s t : State) : Prop where
  frame : only [.cra] s t
  rise : mrise 0 t.cra.thr = true
  ps : t.cra.ps = s.cra.ps
  psBad : t.cra.psBad = s.cra.psBad
  view : ∀ e m, (t.thr e m).st = (s.thr e m).st ∧ (t.thr e m).pc = (s.thr e m).pc

theorem Marks.modThr {t : State} (h : Marks s t) (n : Nat) {f : Thr → Thr} (hf : ∀ x, (f x).st = x.st ∧ (f x).pc = x.pc) : Marks s (t.modThr d n f) where
  frame := only_trans h.frame (t.modThr_only _ _ _)
  rise := State.modThr_rise _ _ _ h.rise
  ps := h.ps
  psBad := h.psBad
  view e m := by
    obtain ⟨hst, hpc⟩ := h.view e m
    by_cases hk : thrKey e m = thrKey d n
    · have hs : (t.modThr d n f).thr e m = f (t.thr e m) := by
        unfold State.thr
        rw [hk]
        exact State.thr_modThr_self d n f h.rise
      rw [hs]
      exact ⟨(hf _).1.trans hst, (hf _).2.trans hpc⟩
    · have ho : (t.modThr d n f).thr e m = t.thr e m := mget_mset_other_rise _ _ _ _ _ _ hk h.rise
      rw [ho]
      exact ⟨hst, hpc⟩

/-- The threads that wait for a word are marked (R269). -/
theorem markFetching_marks (l : List Nat) (hr : mrise 0 s.cra.thr = true) :
    Marks s (l.foldl (fun t n => t.modThr d n (fun x => { x with helped := x.helped || !s.exempt d n, waited := true })) s) :=
  foldl_keep (Marks s) (fun t n => t.modThr d n (fun x => { x with helped := x.helped || !s.exempt d n, waited := true })) (fun _ n h => h.modThr n fun _ => ⟨rfl, rfl⟩) l s ⟨only_refl _ _, hr, rfl, rfl, fun _ _ => ⟨rfl, rfl⟩⟩

/-- A bad word with a good copy is repaired (R269). -/
theorem psRepair_repairs {k a : Nat} {w : Word} (hr : mrise 0 s.cra.thr = true) (hb : s.psIsBad d k a = true) (hw : s.psGood d k a = some w) :
    (psRepair s d k a).cra.ps = mset 0 s.cra.ps (psKey d k a) w ∧ (psRepair s d k a).cra.psBad = lrem (psKey d k a) s.cra.psBad
      ∧ (∀ e m, ((psRepair s d k a).thr e m).st = (s.thr e m).st ∧ ((psRepair s d k a).thr e m).pc = (s.thr e m).pc) ∧ only [.regs, .cra] s (psRepair s d k a) := by
  unfold psRepair
  rw [if_pos hb]
  split
  · rename_i w' hw'
    have e : w' = w := Option.some.inj (hw'.symm.trans hw)
    subst e
    extract_lets t c
    generalize hu : ({ t with cra := { t.cra with ps := mset 0 t.cra.ps (psKey d k a) w', psBad := lrem (psKey d k a) t.cra.psBad } } : State) = u
    have hm : Marks s t := markFetching_marks _ hr
    have hc : (u.bump .CRA_PS_REPAIR d).cra = u.cra := State.bump_keeps.frame .cra (by decide)
    refine ⟨?_, ?_, fun e m => ?_, ?_⟩
    · rw [hc, ← hm.ps, ← hu]
    · rw [hc, ← hm.psBad, ← hu]
    · rw [thr_of_cra (congrArg Cra.thr hc) e m]
      rw [← hu]
      exact hm.view e m
    · exact only_trans (only_mono (by simp) (only_trans hm.frame (hu ▸ cra_only _ _))) (only_mono (by simp) State.bump_keeps.frame)
  · rename_i hn
    exact absurd (hn.symm.trans hw) (by simp)

/-- Without a good copy the fetches that wait for the word fault (R269). -/
theorem psRepair_faults {k a : Nat} (hb : s.psIsBad d k a = true) (hw : s.psGood d k a = none) :
    psRepair s d k a = (s.fetching d k a).foldl (fun t n => faultThread t d n 1 1) s := by
  unfold psRepair
  rw [if_pos hb]
  split
  · rename_i w' hw'
    exact absurd (hw'.symm.trans hw) (by simp)
  · rfl

end

/-! The register window. -/

section
variable {s : State} {d : Fin 8} (hd : d < s.dies) (hm : s.glb.mode.any = true) (hx : s.excluded d = false)
include hd hm hx

theorem execPsCheckStart_live : exec (.psCheckStart d) s = .next (wrResult (wrPsCheck s d 0x80000000)) := by
  show execPsCheckStart d s = _
  unfold execPsCheckStart
  rw [hostDieWr_live _ _ _ _ hd hm (Or.inl hx)]

theorem execDbgRegWrite_live (w : Word) : exec (.dbgRegWrite d w) s = .next (wrResult (wrDbgHi s d w)) := by
  show execDbgRegWrite d w s = _
  unfold execDbgRegWrite
  rw [hostDieWr_live _ _ _ _ hd hm (Or.inl hx)]

/-- A host write that acts on threads, by what its function answers. -/
theorem hostCraWr_eq {f : State → Ans} {e : Status} {u : State} (h : f s = (e, u)) : hostCraWr s d f = .next (wrResult (e, lapse u d)) := by
  rw [hostCraWr_live hd hm hx, h]

theorem execDebugEnClear_eq {w : Word} {e : Status} {u : State} (h : wrCraCfg s d w = (e, u)) : exec (.debugEnClear d w) s = .next (wrResult (e, lapse u d)) := by
  show execDebugEnClear d w s = _
  exact hostCraWr_eq hd hm hx h

theorem execSupervisorSet_eq {k : Fin 6} {w : Word} {e : Status} {u : State} (h : wrSuper s d k w = (e, u)) : exec (.supervisorSet d k w) s = .next (wrResult (e, lapse u d)) := by
  show execSupervisorSet d k w s = _
  exact hostCraWr_eq hd hm hx h

/-- A host read with a status of its own: data of a good one, none of another. -/
theorem hostDieRdSt_live {f : State → Status × Word × State} {st : Status} {w : Word} {u : State} (h : f s = (st, w, u)) :
    hostDieRdSt s d f = .next (u.answered 0x10 st (if st = .ok then beBytes 4 w.toNat else [])) := by
  unfold hostDieRdSt
  rw [h]
  dsimp only
  rw [if_neg (by simp [hm]), if_neg (by simp [hx, Nat.not_le.mpr hd])]
  split <;> rfl

theorem execDbgRegRead_eq {st : Status} {w : Word} {u : State} (h : rdDbgLo s d = (st, w, u)) :
    exec (.dbgRegRead d) s = .next (u.answered 0x10 st (if st = .ok then beBytes 4 w.toNat else [])) := by
  show execDbgRegRead d s = _
  exact hostDieRdSt_live hd hm hx h

end

section
variable {s : State} {d : Nat}

theorem rdDbgLo_open (hn : s.rf .CRA_DBG_SEL d [] 8 0 < 384) (ho : (s.thr d (s.rf .CRA_DBG_SEL d [] 8 0)).open_ = true) :
    rdDbgLo s d = (.ok, BitVec.ofNat 32 (s.dbgValue d (s.rf .CRA_DBG_SEL d [] 8 0) (s.rf .CRA_DBG_SEL d [] 14 9)).toNat,
      (s.setReg .CRA_DBG_LO d [] (BitVec.ofNat 32 (s.dbgValue d (s.rf .CRA_DBG_SEL d [] 8 0) (s.rf .CRA_DBG_SEL d [] 14 9)).toNat)).setReg .CRA_DBG_HI d []
        (BitVec.ofNat 32 ((s.dbgValue d (s.rf .CRA_DBG_SEL d [] 8 0) (s.rf .CRA_DBG_SEL d [] 14 9)).toNat / 2 ^ 32))) := by
  unfold rdDbgLo
  dsimp only
  rw [if_pos ⟨hn, ho⟩]
  rfl

theorem rdDbgLo_busy (h : ¬ (s.rf .CRA_DBG_SEL d [] 8 0 < 384 ∧ (s.thr d (s.rf .CRA_DBG_SEL d [] 8 0)).open_ = true)) : rdDbgLo s d = (.busy, 0, s) := by
  unfold rdDbgLo
  exact if_neg h

theorem wrDbgHi_denied {w : Word} (h : s.debugEn d = false) : wrDbgHi s d w = (.denied, s) := by
  unfold wrDbgHi
  exact if_pos (by simp [h])

theorem wrDbgHi_busy {w : Word} (hb : s.debugEn d = true) (h : ¬ (s.rf .CRA_DBG_SEL d [] 8 0 < 384 ∧ (s.thr d (s.rf .CRA_DBG_SEL d [] 8 0)).open_ = true)) :
    wrDbgHi s d w = (.busy, s) := by
  unfold wrDbgHi
  dsimp only
  rw [if_neg (by simp [hb])]
  exact if_pos h

theorem wrDbgHi_open {w : Word} (hb : s.debugEn d = true) (hn : s.rf .CRA_DBG_SEL d [] 8 0 < 384) (ho : (s.thr d (s.rf .CRA_DBG_SEL d [] 8 0)).open_ = true) :
    wrDbgHi s d w = (.ok, dbgSet (s.setReg .CRA_DBG_HI d [] w) d (s.rf .CRA_DBG_SEL d [] 8 0) (s.rf .CRA_DBG_SEL d [] 14 9) (BitVec.ofNat 64 (w.toNat * 2 ^ 32 + (s.reg .CRA_DBG_LO d []).toNat))) := by
  unfold wrDbgHi
  dsimp only
  rw [if_neg (by simp [hb])]
  exact if_neg (not_not_intro ⟨hn, ho⟩)

end

/-- What a good write of the window makes of its thread (R294). -/
theorem dbgSet_thr {s : State} {d n r : Nat} {v : DWord} (hr : mrise 0 s.cra.thr = true) :
    (r < 32 → (dbgSet s d n r v).thr d n = (s.thr d n).set r v)
      ∧ (r = 32 → (s.thr d n).st = .halted → (dbgSet s d n r v).thr d n = { s.thr d n with pc := v.toNat % 32768 })
      ∧ (r = 32 → (s.thr d n).st ≠ .halted → (dbgSet s d n r v).thr d n = s.thr d n) := by
  unfold dbgSet
  rw [State.thr_modThr_self d n _ hr]
  dsimp only
  refine ⟨fun h => if_neg (by omega), fun h hs => ?_, fun h hs => ?_⟩
  · rw [if_pos h, if_pos hs]
  · rw [if_pos h, if_neg hs]

/-- The program counter that a 64-bit value names is the low word's. -/
theorem windowPc (w lo : Word) : (BitVec.ofNat 64 (w.toNat * 2 ^ 32 + lo.toNat)).toNat % 32768 = lo.toNat % 32768 := by
  have h1 := w.isLt
  have h2 := lo.isLt
  rw [BitVec.toNat_ofNat]
  omega

/-- Settles O48: the check and the repair by their dies, the window by its thread, DEBUG_EN and the supervisor by the word written. -/
theorem programsAndDebug : Obligations.ProgramsAndDebug := by
  refine fun s d hi hd => ⟨fun h => ?_, fun k a => ⟨?_, fun hb => ⟨fun w hw => ?_, fun hw => ?_⟩⟩, fun hm hx => ⟨?_, ?window, fun w hb hc => ?_, fun k w hk => ?_⟩⟩
  case window =>
    rintro n r rfl rfl
    refine ⟨fun hn ho => ⟨?_, fun w hb => ?_⟩, fun hno => ⟨?_, fun w hb => ?_⟩, fun w hb => ?_⟩
    · refine ⟨_, execDbgRegRead_eq hd hm hx (rdDbgLo_open hn ho), ?_, ?_, ?_⟩
      · exact only_trans (only_mono (by simp) (Keeps.frame (State.setReg_keeps.after State.setReg_keeps))) (only_mono (by simp) (State.answered_only _ _ _ _))
      · rw [if_pos rfl, BitVec.toNat_ofNat]
        rfl
      · exact State.reg_setReg_self _ _ _ _ _ (State.setReg_rise _ _ _ _ _ hi.rise)
    · refine ⟨_, execDbgRegWrite_live hd hm hx w, ?_, ?_⟩
      · rw [wrDbgHi_open hb hn ho]
        exact only_trans (only_mono (by simp) (only_trans (only_mono (by simp) State.setReg_keeps.frame) (only_mono (by simp) ((State.setReg _ _ _ _ _).modThr_only _ _ _) : only [.regs, .cra] _ _)))
          (only_mono (by simp) (wrResult_only _ _))
      · rw [wrDbgHi_open hb hn ho, wrResult_thr]
        obtain ⟨hreg, hpc, hst⟩ := dbgSet_thr (s := s.setReg .CRA_DBG_HI d [] w) (d := d) (n := s.rf .CRA_DBG_SEL d [] 8 0) (r := s.rf .CRA_DBG_SEL d [] 14 9)
          (v := BitVec.ofNat 64 (w.toNat * 2 ^ 32 + (s.reg .CRA_DBG_LO d []).toNat)) hi.thrRise
        rw [windowPc] at hpc
        exact ⟨hreg, hpc, hst⟩
    · refine ⟨_, execDbgRegRead_eq hd hm hx (rdDbgLo_busy hno), State.answered_only _ _ _ _, ?_⟩
      rw [if_neg (by decide)]
      rfl
    · rw [execDbgRegWrite_live hd hm hx, wrDbgHi_busy hb hno]
    · rw [execDbgRegWrite_live hd hm hx, wrDbgHi_denied hb]
  · exact ⟨_, execPsCheckDone_live hd h, psChecked_only, psChecked_crc hi.rise, psChecked_check hi.rise⟩
  · rw [execPsFetchRepair_live hd, if_pos rfl]
  · obtain ⟨hps, hbad, hview, hf⟩ := psRepair_repairs hi.thrRise hb hw
    refine ⟨_, execPsFetchRepair_live hd k ⟨a, false⟩, ?_⟩
    rw [if_neg Bool.false_ne_true]
    refine ⟨by rw [lapse_cra]; exact hps, by rw [lapse_cra]; exact hbad, fun e m => by rw [lapse_thr]; exact hview e m, ?_⟩
    exact only_trans (only_mono (by simp) hf) (only_mono (by simp) lapse_keeps.frame)
  · rw [execPsFetchRepair_live hd, if_neg Bool.false_ne_true, psRepair_faults hb hw]
  · rw [execPsCheckStart_live hd hm hx]
    unfold wrPsCheck
    rw [if_pos (by decide)]
  · refine execDebugEnClear_eq hd hm hx ?_
    unfold wrCraCfg
    dsimp only
    rw [if_pos ⟨hb, by simp [hc]⟩]
  · refine execSupervisorSet_eq hd hm hx ?_
    unfold wrSuper
    exact if_neg hk

end Sys2Proof.Machine

/-! PROOFS. Ends of tickets: a state in which a trace record changes what the statement reads of the state before (spec/08 R234 to R237, spec/11 R345). -/

namespace Sys2Proof.Machine

/-- The frame of a skipped entry: its buffer in the one pool of die 1, its mirror in a pool of die 0. -/
def mirroredFrame : Frame := { handle := mkHandle 1 0 0, len := 64, port := 0, arr := 0, mirror := some (mkHandle 0 0 0) }

/-- The entry of that frame. -/
def skippedEntry : Rob := { st := .skipped, seq := 0, flow := 0, frame := mirroredFrame, dest := 0, edit := 0, force := false, reason := 0, code := 0, rule := 0, profile := 0, pflags := 0 }

/-- A register list out of order: TDX_TRC_CTL of die 1, listed before a word of die 0, hides it, and that word places the pool of the mirror. Thread 0 of die 1 stands at an EMIT; the next trace record ends the trace (R345). -/
def hiddenPool : State := { State.reset with
  glb := { State.reset.glb with mode := .run }
  regs := [(Reg.addr .TDX_TRC_CTL 1 [], 0x80001000), (Reg.addr .BPM_POOL_CNT 0 [0], 1), (Reg.addr .BPM_POOL_CNT 1 [0], 1)]
  bpm := { State.reset.bpm with alloc := [(hKey (mkHandle 0 0 0), true), (hKey (mkHandle 1 0 0), true)] }
  rsq := { State.reset.rsq with rob := [(robKey 1 0, skippedEntry)] }
  tdx := { State.reset.tdx with trc := [(1, { post := some 1 })] }
  cra := { State.reset.cra with thr := [(thrKey 1 0, { st := .run, ticket := some 0, g := [(1, BitVec.ofNat 64 (mkHandle 1 0 0)), (4, 0x80000000)] })], ps := [(psKey 1 0 0, 0xD8611100)] } }

/-- EMIT of format E with the operands g1, g2 and g4. -/
def plainEmit : RIns := { op := .emitx, d := 3, a := 1, b := 2, c := 4, u := false, immForm := false, imm := 0 }

theorem hiddenPool_issues : hiddenPool.issues (1 : Fin 8) (0 : Fin 384) .emitx plainEmit := by
  refine ⟨by decide, by decide +kernel, by decide +kernel, by decide +kernel, rfl, by decide +kernel⟩

/-- Whether the mirror's buffer is still allocated in a buffer store. -/
def mirrorKept (b : Bpm) : Bool := mget false b.alloc (hKey (mkHandle 0 0 0))

/-- The same after a command that answers. -/
def mirrorKeptAfter (r : Res) : Bool :=
  match r with
  | .next t => mirrorKept t.bpm
  | _ => false

/-- Refutes O43: the statement asks no invariant of its state. In a state whose register list is out of order the trace record of EMIT stops the trace, with that TDX_TRC_CTL leaves the list, and the pool that it hid is placed: the mirror of the skipped frame is freed, where the statement says by the state before that its buffer belongs to no pool and stays. -/
theorem not_ticketsEnd : ¬ Obligations.TicketsEnd := by
  intro h
  obtain ⟨hends, -⟩ := h hiddenPool 1 0 plainEmit _ _ rfl rfl
  have hnamed : hiddenPool.namedEntry 1 ((hiddenPool.thr 1 0).get plainEmit.b) = some (0, skippedEntry) := by decide +kernel
  have hchecked : (countSlot hiddenPool 1 0).destOk ((hiddenPool.thr 1 0).get plainEmit.c) false = true
      ∧ (countSlot hiddenPool 1 0).editValid 1 (bitsOf ((hiddenPool.thr 1 0).get plainEmit.c).toNat 39 32) = true := by decide +kernel
  obtain ⟨t, hrun, -, -, -, hbpm, -⟩ := hends 0 skippedEntry (.emit 1 0) _ hnamed (by decide +kernel) (by decide +kernel)
    (Or.inl ⟨rfl, hiddenPool_issues, by decide +kernel, hchecked.1, hchecked.2, rfl⟩)
  have hmodel : mirrorKeptAfter (exec (.emit 1 0) hiddenPool) = false := by decide +kernel
  have hkept : mirrorKept t.bpm = true := by
    rw [hbpm (by decide) rfl]
    decide +kernel
  rw [hrun] at hmodel
  exact absurd (hkept.symm.trans hmodel) (by decide)

end Sys2Proof.Machine

/-! PROOFS. A trap where a signalled event is listed twice (spec/09 R282, spec/12 R356). -/

namespace Sys2Proof.Machine

/-! A field beside one that is written. -/

section
variable {s : State}

/-- A field of a register written reads as before where another field was written above it. -/
theorem State.rf_setRf_below {q : Reg} {e : Nat} {jdx : List Nat} {lo k v hi m : Nat} (hr : mrise 0 s.regs = true) (hk : 0 < k) (hl : lo + k ≤ 32) (hm : m ≤ hi + 1) (h : hi < lo) :
    (s.setRf q e jdx (lo + k - 1) lo v).rf q e jdx hi m = s.rf q e jdx hi m := by
  unfold State.setRf State.rf
  rw [State.reg_setReg_self _ _ _ _ _ hr, fld_setFld_below _ _ _ _ hk hl hm h]

end

/-! A map that lists a key twice (R356): the invariant says nothing of the events. -/

/-- Event 1,023 of cluster 0 stands twice in its map: first with the supervisor waiting for it, then with a count, which the first hides. Thread 5 stands at a TRAP; thread 0 is the supervisor. -/
def hiddenCount : State := { State.reset with
  glb := { State.reset.glb with mode := .run }
  regs := [(0x104, 1), (Reg.addr .CRA_SUPER 0 [0], 0x80000000)]
  syu := { State.reset.syu with ev := [(evKey 0 0 1023, { waiters := [0] }), (evKey 0 0 1023, { count := 5 })] }
  cra := { State.reset.cra with thr := [(0, { st := .sync, wait := some (.event 1023) }), (5, { st := .run })], ps := [(psKey 0 0 0, 0xF8000000)] } }

/-- TRAP with the immediate 0. -/
def plainTrap : RIns := { op := .trapx, d := 0, a := 0, b := 0, c := 0, u := false, immForm := false, imm := 0 }

theorem hiddenCount_issues : hiddenCount.issues (0 : Fin 8) (5 : Fin 384) .trapx plainTrap := by
  refine ⟨by decide, by decide +kernel, by decide +kernel, by decide +kernel, rfl, by decide +kernel⟩

theorem hiddenCount_inv : hiddenCount.Inv := by
  unfold State.Inv State.memWf State.listsWf State.boundsOk
  decide

theorem hiddenCount_takesFault : hiddenCount.takesFault 0 5 0 := by
  unfold State.takesFault
  decide +kernel

/-- The count of event 1,023 of cluster 0 after a command that answers. -/
def countAfter (r : Res) : Nat :=
  match r with
  | .next t => (t.ev 0 0 1023).count
  | _ => 0

/-- Refutes O45: the invariant does not say that an event is listed once. The signal to the only waiter of an event with count 0 leaves what an unlisted event reads as, so the entry is removed, and an entry of the same event behind it shows its count. -/
theorem not_trapsFault : ¬ Obligations.TrapsFault := by
  intro h
  obtain ⟨t, hrun, -, -, -, -, htakes, -⟩ := h hiddenCount 0 5 plainTrap 0 _ hiddenCount_inv hiddenCount_issues rfl rfl
  obtain ⟨-, -, -, -, hwaiter, -⟩ := htakes 0 hiddenCount_takesFault
  obtain ⟨hev, -⟩ := hwaiter 0 [] (by decide +kernel) (by decide)
  have hmodel : countAfter (exec (.trap 0 5) hiddenCount) = 5 := by decide +kernel
  rw [hrun] at hmodel
  have hzero : (t.ev ((0 : Fin 8) : Nat) 0 1023).count = 0 := by
    rw [hev]
    decide +kernel
  exact absurd (hzero.symm.trans hmodel) (by decide)

end Sys2Proof.Machine

/-! PROOFS. The host at locks, events and channels, and the watch (spec/12 R355 to R370). -/

namespace Sys2Proof.Machine

section
variable {s : State} {d : Fin 8} (hd : d < s.dies) (hm : s.glb.mode.any = true) (hx : s.excluded d = false)
include hd hm hx

theorem execHostLockForce_eq {w : Tied Word} {e : Status} {u : State} (h : hostForce s d w.val w.same = (e, u)) : exec (.hostLockForce d w) s = .next (wrResult (e, lapse u d)) := by
  show execHostLockForce d w s = _
  exact hostCraWr_eq hd hm hx h

theorem execHostEventSignal_eq {w : Word} {e : Status} {u : State} (h : wrEvHsig s d w = (e, u)) : exec (.hostEventSignal d w) s = .next (wrResult (e, lapse u d)) := by
  show execHostEventSignal d w s = _
  exact hostCraWr_eq hd hm hx h

theorem execHostChannelPut_eq {w : Word} {e : Status} {u : State} (h : wrChHput s d w = (e, u)) : exec (.hostChannelPut d w) s = .next (wrResult (e, lapse u d)) := by
  show execHostChannelPut d w s = _
  exact hostCraWr_eq hd hm hx h

theorem execInspectSelect_eq {w : Word} {a : Ans} (h : wrInspSel s d w = a) : exec (.inspectSelect d w) s = .next (wrResult a) := by
  show execInspectSelect d w s = _
  unfold execInspectSelect
  rw [hostDieWr_live _ _ _ _ hd hm (Or.inl hx), h]

theorem execClearAbandon_eq {w : Word} {a : Ans} (h : wrSyuCfg s d w = a) : exec (.clearAbandon d w) s = .next (wrResult a) := by
  show execClearAbandon d w s = _
  unfold execClearAbandon
  rw [hostDieWr_live _ _ _ _ hd hm (Or.inl hx), h]

end

/-! The writes by their checks in order. -/

section
variable {s : State} {d : Nat} {w : Word}

theorem hostForce_current (hg : genOk (fld w 31 16) (s.gen .SYU_STATE d) = true) (same : Bool) : hostForce s d w same = (.ok, if same then s else forceLock s d (fld w 13 0)) :=
  if_neg (by simp [hg])

theorem hostForce_stale (hg : genOk (fld w 31 16) (s.gen .SYU_STATE d) = false) (same : Bool) : hostForce s d w same = (.stale, s) := if_pos (by simp [hg])

theorem wrEvHsig_signals (hk : fld w 12 10 ≤ 5) (he : fld w 9 0 ≠ 1023) : wrEvHsig s d w = (.ok, signalEv s d (fld w 12 10) (fld w 9 0)) := by
  unfold wrEvHsig
  exact if_neg (by omega)

theorem wrEvHsig_refused (h : 5 < fld w 12 10 ∨ fld w 9 0 = 1023) : wrEvHsig s d w = (.badaddr, s) := by
  unfold wrEvHsig
  exact if_pos h

theorem wrChHput_refused (h : 5 < fld w 18 16 ∨ fld w 11 8 = 0 ∨ 8 < fld w 11 8) : wrChHput s d w = (.badaddr, s) := by
  unfold wrChHput
  exact if_pos h

theorem wrChHput_full (hk : fld w 18 16 ≤ 5) (h1 : 1 ≤ fld w 11 8) (h8 : fld w 11 8 ≤ 8) (hf : s.chFull d (fld w 18 16) (fld w 7 0) (fld w 11 8) = true) :
    wrChHput s d w = (.noroom, s.bump .SYU_CH_FULL d) := by
  unfold wrChHput
  dsimp only
  rw [if_neg (by omega), if_pos hf]

theorem wrChHput_puts (hk : fld w 18 16 ≤ 5) (h1 : 1 ≤ fld w 11 8) (h8 : fld w 11 8 ≤ 8) (hf : s.chFull d (fld w 18 16) (fld w 7 0) (fld w 11 8) = false) :
    wrChHput s d w = (.ok, commitMsg s d (fld w 18 16) (fld w 7 0) (s.hputWords d (fld w 11 8))) := by
  unfold wrChHput
  dsimp only
  rw [if_neg (by omega), if_neg (by simp [hf])]

/-- A selection of an object that is not there (R369). -/
def badSelection (w : Word) : Prop := (fld w 31 30 = 2 ∧ (1023 < fld w 13 0 ∨ 5 < fld w 18 16)) ∨ (fld w 31 30 = 3 ∧ (255 < fld w 13 0 ∨ 5 < fld w 18 16))

theorem wrInspSel_refused (h : badSelection w) : wrInspSel s d w = (.badaddr, s) := by
  unfold wrInspSel
  exact if_pos h

theorem wrInspSel_selects (h : ¬ badSelection w) :
    wrInspSel s d w = (.ok, (s.setReg .SYU_INSP_SEL d [] (packWord [(30, fld w 31 30), (16, fld w 18 16), (0, fld w 13 0)])).setReg .SYU_INSP_DATA d [] (inspWord s d w)) := by
  unfold wrInspSel
  exact if_neg h

/-- The word that a selection latches, by the kind of its object (R370). -/
theorem inspWord_eq : inspWord s d w =
    (if fld w 31 30 = 1 then packWord [(31, b2n (s.lock d (fld w 13 0)).holder.isSome), (30, b2n (s.lock d (fld w 13 0)).abandoned), (21, (s.lock d (fld w 13 0)).holder.getD 0), (12, (s.lock d (fld w 13 0)).waiters.length)]
     else if fld w 31 30 = 2 then packWord [(16, (s.ev d (fld w 18 16) (fld w 13 0)).waiters.length), (0, (s.ev d (fld w 18 16) (fld w 13 0)).count)]
     else if fld w 31 30 = 3 then packWord [(31, b2n (s.chExt d (fld w 18 16) (fld w 13 0))), (25, (s.chan d (fld w 18 16) (fld w 13 0)).msgs.length),
       (16, (s.chan d (fld w 18 16) (fld w 13 0)).words % 512), (9, (s.chan d (fld w 18 16) (fld w 13 0)).waiters.length)]
     else 0) := by
  unfold inspWord
  dsimp only
  split
  · rename_i h; rw [if_pos h]
  · rename_i h; rw [if_neg (by omega), if_pos h]
  · rename_i h; rw [if_neg (by omega), if_neg (by omega), if_pos h]
  · rename_i h1 h2 h3; rw [if_neg h1, if_neg h2, if_neg h3]

theorem wrSyuCfg_clears (hb : bit w 31 = true) (hm : s.glb.mode = .provision) : wrSyuCfg s d w = (.ok, clearMarks s d) := by
  unfold wrSyuCfg
  rw [if_neg (by simp [hb]), if_pos hm]

theorem wrSyuCfg_refused (hb : bit w 31 = true) (hm : s.glb.mode ≠ .provision) : wrSyuCfg s d w = (.mode, s) := by
  unfold wrSyuCfg
  rw [if_neg (by simp [hb]), if_neg hm]

end

/-- Settles O51: each write by the first check that decides it, the watch by its condition. -/
theorem hostUsesTheSyu : Obligations.HostUsesTheSyu := by
  refine fun s d hd => ⟨fun w hm hx => ⟨fun hg => ⟨?_, ?_⟩, fun hg same => ?_, fun hk he => ?_, fun h => ?_, fun hk h1 h8 => ⟨fun hf => ?_, fun hf => ?_⟩, fun h => ?_, ?inspect, fun hb => ⟨fun hp => ?_, fun hp => ?_⟩⟩,
    fun k hw hs hr ht => ?_⟩
  case inspect =>
    rintro k i rfl rfl
    refine ⟨fun h => execInspectSelect_eq hd hm hx (wrInspSel_refused h), fun hi h => ⟨_, execInspectSelect_eq hd hm hx (wrInspSel_selects h), ?_, ?_⟩⟩
    · exact only_trans (only_mono (by simp) (Keeps.frame (State.setReg_keeps.after State.setReg_keeps))) (only_mono (by simp) (wrResult_only _ _))
    · rw [wrResult_reg, State.reg_setReg_self _ _ _ _ _ (State.setReg_rise _ _ _ _ _ hi.rise), inspWord_eq]
  · exact execHostLockForce_eq hd hm hx (hostForce_current hg false)
  · exact execHostLockForce_eq hd hm hx (hostForce_current hg true)
  · exact execHostLockForce_eq hd hm hx (hostForce_stale hg same)
  · exact execHostEventSignal_eq hd hm hx (wrEvHsig_signals hk he)
  · exact execHostEventSignal_eq hd hm hx (wrEvHsig_refused h)
  · exact execHostChannelPut_eq hd hm hx (wrChHput_puts hk h1 h8 hf)
  · exact execHostChannelPut_eq hd hm hx (wrChHput_full hk h1 h8 hf)
  · exact execHostChannelPut_eq hd hm hx (wrChHput_refused h)
  · exact execClearAbandon_eq hd hm hx (wrSyuCfg_clears hb hp)
  · exact execClearAbandon_eq hd hm hx (wrSyuCfg_refused hb hp)
  · show onCra s d _ = _
    rw [onCra_live _ _ _ hd, if_pos ⟨hw, hs, by simp [hr], ht⟩]

end Sys2Proof.Machine

/-! PROOFS. The trace's spill: a state whose trace state is listed twice (spec/11 R346). -/

namespace Sys2Proof.Machine

/-- The trace of die 0 in a spill mode with one record to be copied, at the end of the ring; its state stands twice in the map, and the first entry hides the count of the second. -/
def hiddenTrc : State := { State.reset with
  regs := [(0x104, 1), (Reg.addr .TDX_TRC_CTL 0 [], 0x40001000)]
  tdx := { State.reset.tdx with trc := [(0, { count := 1, nextSpill := 65535 }), (0, { count := 7 })] } }

theorem hiddenTrc_inv : hiddenTrc.Inv := by
  unfold State.Inv State.memWf State.listsWf State.boundsOk
  decide

/-- The records of die 0 that a command leaves to be copied. -/
def toCopyAfter (r : Res) : Nat :=
  match r with
  | .next t => (t.trc 0).count
  | _ => 0

/-- Refutes O50: the invariant does not say that the trace state of a die is listed once. The spill of the last record at the end of the ring leaves what an unlisted trace state reads as, so the entry is removed, and an entry of the same die behind it shows its count. -/
theorem not_traceRunsAndSpills : ¬ Obligations.TraceRunsAndSpills := by
  intro h
  obtain ⟨-, hspills⟩ := h hiddenTrc 0 hiddenTrc_inv (by decide)
  obtain ⟨-, hspill, -⟩ := hspills (by decide +kernel) (by decide)
  obtain ⟨t, hrun, -, -, hcount, -⟩ := hspill (by decide +kernel) (by decide)
  obtain ⟨-, -, hc⟩ := hcount (by decide)
  have hmodel : toCopyAfter (exec (.traceSpill 0) hiddenTrc) = 7 := by decide +kernel
  rw [hrun] at hmodel
  have hzero : (t.trc ((0 : Fin 8) : Nat)).count = 0 := by
    rw [hc]
    decide
  exact absurd (hzero.symm.trans hmodel) (by decide)

end Sys2Proof.Machine

/-! PROOFS. The task dispatcher: what its turn skips, what it delivers, and its other commands (spec/11 R324 to R337). -/

namespace Sys2Proof.Machine

/-! A trace record leaves the task lists. -/

/-- The ready and delay lists. -/
def State.taskLists (s : State) : SMap (List Task) × SMap (List DTask) := (s.tdx.ready, s.tdx.delay)

theorem Fixes.taskLists_of_keeps {l : List Piece} {s t : State} (h : Keeps l s t) (hl : Piece.tdx ∉ l) : Fixes State.taskLists s t := by
  unfold Fixes State.taskLists
  rw [h.frame .tdx hl]

section
variable {s : State} {d : Nat} {r : TrIn}

theorem modTrc_taskLists (s : State) (d : Nat) (f : Trc → Trc) : Fixes State.taskLists s (s.modTrc d f) := rfl

theorem setRf_taskLists (s : State) (r : Reg) (d hi lo v : Nat) (idx : List Nat) : Fixes State.taskLists s (s.setRf r d idx hi lo v) :=
  .taskLists_of_keeps State.setRf_keeps (by decide)

/-- A change of the ring leaves them. -/
theorem ring_taskLists (s : State) (f : Nat) (m : SMap (BitVec 128)) : Fixes State.taskLists s { s with free := f, tdx := { s.tdx with ring := m } } := rfl

theorem stopTrace_taskLists : Fixes State.taskLists s (stopTrace s d) := (modTrc_taskLists _ _ _).after (setRf_taskLists _ _ _ _ _ _ _)

theorem stopWriting_taskLists : Fixes State.taskLists s (stopWriting s d) := (setRf_taskLists _ _ _ _ _ _ _).after stopTrace_taskLists

theorem ringPut_taskLists : Fixes State.taskLists s (ringPut s d r) := by
  unfold ringPut
  dsimp -zeta only [State.takeFree]
  extract_lets i b _ t1 t2 t3 t4
  have h1 : Fixes State.taskLists s t1 := ring_taskLists s _ _
  have h2 : Fixes State.taskLists t1 t2 := setRf_taskLists _ _ _ _ _ _ _
  have h3 : Fixes State.taskLists t2 t3 := .ite (setRf_taskLists _ _ _ _ _ _ _) (.refl _)
  have h4 : Fixes State.taskLists s t4 := (modTrc_taskLists _ _ _).after (h3.after (h2.after h1))
  exact .ite (stopWriting_taskLists.after h4) h4

theorem countPost_taskLists : Fixes State.taskLists s (countPost s d) := by
  unfold countPost
  split
  · exact .ite stopTrace_taskLists (modTrc_taskLists _ _ _)
  · exact .refl s

theorem trigger_taskLists {i : Nat} : Fixes State.taskLists s (trigger s d i) := by
  unfold trigger
  extract_lets t1 t2 n
  have h2 : Fixes State.taskLists s t2 := (Fixes.taskLists_of_keeps State.raiseEv_keeps (by decide)).after
    ((Fixes.taskLists_of_keeps State.bumpGen_keeps (by decide)).after (setRf_taskLists _ _ _ _ _ _ _))
  exact .ite (.ite (stopTrace_taskLists.after h2) ((modTrc_taskLists _ _ _).after h2)) h2

theorem putRecord_taskLists : Fixes State.taskLists s (putRecord s d r) := by
  unfold putRecord
  exact .ite (trigger_taskLists.after ringPut_taskLists) (.ite (countPost_taskLists.after ringPut_taskLists) ringPut_taskLists)

theorem lostRecord_taskLists : Fixes State.taskLists s (lostRecord s d) := by
  unfold lostRecord
  exact .ite (.refl s) (.ite (putRecord_taskLists.after (modTrc_taskLists _ _ _)) (modTrc_taskLists _ _ _))

theorem trace_taskLists : Fixes State.taskLists s (trace s d r) := by
  have hl : ∀ t : State, Fixes State.taskLists t ((t.bump .TDX_TRC_LOST d).modTrc d (fun x => { x with lost := x.lost + 1 })) := fun _ =>
    (modTrc_taskLists _ _ _).after (.taskLists_of_keeps State.bump_keeps (by decide))
  unfold trace
  exact .ite (.refl s) (.ite (hl s) (.ite lostRecord_taskLists (.ite ((hl _).after lostRecord_taskLists) (putRecord_taskLists.after lostRecord_taskLists))))

theorem trace_ready : (trace s d r).tdx.ready = s.tdx.ready := congrArg Prod.fst trace_taskLists
theorem trace_delay : (trace s d r).tdx.delay = s.tdx.delay := congrArg Prod.snd trace_taskLists

end

/-! The turn of the dispatcher (R328, R332, R333). -/

section
variable {s u : State} {d l c : Nat} {t : Task}

theorem tryFallback_none (h : s.fallbackCore d t.list = none) : tryFallback s d t = (false, s) := by
  unfold tryFallback
  rw [h]

/-- A task that stays is passed over with nothing changed. -/
theorem considerTask_stays (h : s.taskStays d l t) : considerTask s d t = (false, s) := by
  obtain ⟨hl, ⟨hf, hw⟩ | ⟨hw, hcfg, c, hh, hc⟩⟩ := h
  · unfold considerTask
    rw [← hl] at hf
    rcases hw with hw | ⟨hh, ha⟩
    · rw [if_pos hw, tryFallback_none hf]
    · have hcore : s.waitCore d t = none := by
        unfold State.waitCore
        rw [hh, ha]
      rw [hcore]
      exact (apply_ite (· = (false, s)) _ _ _).mpr (by split <;> exact tryFallback_none hf)
  · have hcore : s.waitCore d t = some c := by
      unfold State.waitCore
      rw [hh]
    unfold considerTask
    rw [if_neg (by simp [hw]), hcore]
    dsimp only
    rw [hl, hc]
    dsimp only
    rw [if_neg hcfg, if_pos (by simp [hh])]

theorem considerList_skips {as r : List Task} (h : ∀ a ∈ as, s.taskStays d l a) : considerList s d (as ++ r) = considerList s d r := by
  induction as with
  | nil => rfl
  | cons a as ih =>
    have ha := considerTask_stays (h a List.mem_cons_self)
    rw [List.cons_append, considerList, ha]
    exact ih fun b hb => h b (List.mem_cons_of_mem _ hb)

theorem considerList_idle (h : s.listIdle d l) : considerList s d (s.readyList d l) = (false, s) := by
  have hs := considerList_skips (r := []) h
  rwa [List.append_nil] at hs

theorem tryLists_skips {p : Nat} {pre r : List Nat} (h : ∀ m ∈ pre, s.listIdle d m) : tryLists s d p (pre ++ r) = tryLists s d p r := by
  induction pre with
  | nil => rfl
  | cons m pre ih =>
    rw [List.cons_append, tryLists, considerList_idle (h m List.mem_cons_self)]
    exact ih fun b hb => h b (List.mem_cons_of_mem _ hb)

theorem tryPrios_skips {qs r : List Nat} (h : ∀ q ∈ qs, ∀ m ∈ s.turnOrder d q, s.listIdle d m) : tryPrios s d (qs ++ r) = tryPrios s d r := by
  induction qs with
  | nil => rfl
  | cons q qs ih =>
    have hq : tryLists s d q (s.turnOrder d q) = (false, s) := by
      have hs := tryLists_skips (p := q) (r := []) (h q List.mem_cons_self)
      rwa [List.append_nil] at hs
    rw [List.cons_append, tryPrios, hq]
    exact ih fun b hb => h b (List.mem_cons_of_mem _ hb)

/-- The first task that moves, on the first list that moves, is the one delivered, and its list passes the turn on. -/
theorem tryPrios_delivers {prio : Nat} {pre ls : List Nat} {as r : List Task} (hp : prio ≤ 3) (hq : ∀ q, q < prio → ∀ m ∈ s.turnOrder d q, s.listIdle d m)
    (ht : s.turnOrder d prio = pre ++ l :: ls) (hpre : ∀ m ∈ pre, s.listIdle d m) (hl : s.readyList d l = as ++ t :: r) (has : ∀ a ∈ as, s.taskStays d l a)
    (hd : considerTask s d t = (true, u)) : tryPrios s d [0, 1, 2, 3] = { u with tdx := { u.tdx with rr := mset 0 u.tdx.rr (d * 4 + prio) ((l + 1) % 64) } } := by
  have hsplit : ∃ r, [0, 1, 2, 3] = List.range prio ++ prio :: r := by
    obtain rfl | rfl | rfl | rfl : prio = 0 ∨ prio = 1 ∨ prio = 2 ∨ prio = 3 := by omega
    · exact ⟨[1, 2, 3], rfl⟩
    · exact ⟨[2, 3], rfl⟩
    · exact ⟨[3], rfl⟩
    · exact ⟨[], rfl⟩
  obtain ⟨ps, hps⟩ := hsplit
  have hc : considerList s d (s.readyList d l) = (true, u) := by
    rw [hl, considerList_skips has, considerList, hd]
    rfl
  rw [hps, tryPrios_skips fun q h => hq q (List.mem_range.mp h), tryPrios, ht, tryLists_skips hpre, tryLists, hc]
  rfl

theorem firstSlot_mem {r : Nat} {ws : List Nat} (h : ws ≠ []) : ∃ n, firstSlot r ws = some n ∧ n ∈ ws := by
  unfold firstSlot
  split
  · rename_i n hn
    exact ⟨n, rfl, List.mem_of_find?_eq_some hn⟩
  · cases ws with
    | nil => exact absurd rfl h
    | cons w ws => exact ⟨w, rfl, List.mem_cons_self⟩

/-- The fullest core is one in which a thread waits (R333). -/
theorem fallbackCore_waits (h : s.fallbackCore d l = some c) : s.waitersOf d l c ≠ [] := by
  have hfold : ∀ (cs : List Nat) (m : Option Nat), (∀ c, m = some c → s.waitersOf d l c ≠ []) → ∀ c, cs.foldl (fun m c =>
      let k := (s.waitersOf d l c).length
      match m with
      | some b => if (s.waitersOf d l b).length < k then some c else m
      | none => if 0 < k then some c else none) m = some c → s.waitersOf d l c ≠ [] := by
    intro cs
    induction cs with
    | nil => exact fun m hm => hm
    | cons b cs ih =>
      refine fun m hm => ih _ fun c hc => ?_
      dsimp only at hc
      cases m with
      | none =>
        dsimp only at hc
        split at hc
        · rename_i hk
          obtain rfl := Option.some.inj hc
          exact List.ne_nil_of_length_pos hk
        · cases hc
      | some a =>
        dsimp only at hc
        split at hc
        · rename_i hk
          obtain rfl := Option.some.inj hc
          exact List.ne_nil_of_length_pos (by omega)
        · exact hm c hc
  exact hfold _ none (fun c hc => by cases hc) c h

theorem tryFallback_delivers (h : s.fallbackCore d t.list = some c) : ∃ n, n ∈ s.waitersOf d t.list c ∧ tryFallback s d t = (true, deliver s.takeFree.2 d n t false) := by
  obtain ⟨n, hn, hm⟩ := firstSlot_mem (r := s.takeFree.1.toNat) (fallbackCore_waits h)
  refine ⟨n, hm, ?_⟩
  unfold tryFallback
  rw [h]
  dsimp only
  have hw : s.takeFree.2.waitersOf d t.list c = s.waitersOf d t.list c := rfl
  rw [hw, hn]

/-- A task that can move is delivered to a waiting thread of its affinity core, or of the fullest core (R332, R333). -/
theorem considerTask_delivers {hit : Bool} (hl : t.list = l)
    (h : (hit = false ∧ (t.waited = true ∨ (t.held = none ∧ s.affCore d t = none)) ∧ s.fallbackCore d l = some c) ∨ (hit = true ∧ t.waited = false ∧ s.waitCore d t = some c ∧ s.waitersOf d l c ≠ [])) :
    ∃ n, n ∈ s.waitersOf d l c ∧ considerTask s d t = (true, deliver s.takeFree.2 d n t hit) := by
  subst hl
  rcases h with ⟨rfl, hw, hf⟩ | ⟨rfl, hw, hc, hne⟩
  · obtain ⟨n, hn, ht⟩ := tryFallback_delivers hf
    refine ⟨n, hn, ?_⟩
    unfold considerTask
    rcases hw with hw | ⟨hh, ha⟩
    · rw [if_pos hw, ht]
    · have hcore : s.waitCore d t = none := by
        unfold State.waitCore
        rw [hh, ha]
      rw [hcore]
      split <;> exact ht
  · obtain ⟨n, hn, hm⟩ := firstSlot_mem (r := s.takeFree.1.toNat) hne
    refine ⟨n, hm, ?_⟩
    unfold considerTask
    rw [if_neg (by simp [hw]), hc]
    dsimp only
    split
    · rename_i e
      exact absurd e hne
    · rename_i w r e
      rw [← e, hn]

end

/-! A delivered task (R311, R329). -/

theorem Thr.get_set_self {x : Thr} {r : Nat} (v : DWord) (h : mrise 0 x.g = true) (hr : r ≠ 0) : (x.set r v).get r = v := by
  unfold Thr.get Thr.set
  rw [if_neg hr, if_neg hr]
  exact mget_mset_self_rise _ _ _ _ h

theorem Thr.get_set_other {x : Thr} {r q : Nat} (v : DWord) (h : mrise 0 x.g = true) (hr : q ≠ r) : (x.set r v).get q = x.get q := by
  unfold Thr.get Thr.set
  split
  · rfl
  · split
    · rfl
    · exact mget_mset_other_rise _ _ _ _ _ _ hr h

/-- The registers of a thread are listed in order where the invariant holds. -/
theorem State.Inv.thrG {s : State} (h : s.Inv) (d n : Nat) : mrise 0 (s.thr d n).g = true := by
  obtain ⟨-, ⟨-, -, hg, -⟩, -⟩ := h
  have hmem : ∀ (l : SMap Thr) k x, mfind l k = some x → (k, x) ∈ l := by
    intro l k x
    induction l with
    | nil => exact fun e => by cases e
    | cons e r ih =>
      obtain ⟨j, y⟩ := e
      unfold mfind
      intro hx
      split at hx
      · rename_i hj
        obtain rfl := Option.some.inj hx
        exact hj ▸ List.mem_cons_self
      · split at hx
        · cases hx
        · exact List.mem_cons_of_mem _ (ih hx)
  unfold State.thr mget
  cases hf : mfind s.cra.thr (thrKey d n) with
  | none => rfl
  | some x => exact List.all_eq_true.mp hg _ (hmem _ _ _ hf)

/-- The words of a task stand in the registers from g1 on. -/
theorem loadArgs_get {x : Thr} {a : List DWord} (h : mrise 0 x.g = true) {i : Nat} (h1 : 1 ≤ i) (h6 : i ≤ 6) : (loadArgs x a).get i = a.getD (i - 1) 0 := by
  have hfold : ∀ k, mrise 0 ((List.range k).foldl (fun t j => t.set (j + 1) (a.getD j 0)) x).g = true
      ∧ ∀ i, 1 ≤ i → i ≤ k → ((List.range k).foldl (fun t j => t.set (j + 1) (a.getD j 0)) x).get i = a.getD (i - 1) 0 := by
    intro k
    induction k with
    | zero => exact ⟨h, fun i h1 h0 => by omega⟩
    | succ k ih =>
      obtain ⟨hr, hg⟩ := ih
      rw [List.range_succ, List.foldl_append]
      rw [List.foldl_cons, List.foldl_nil]
      refine ⟨Thr.set_rise _ _ hr, fun i h1 hk => ?_⟩
      by_cases e : i = k + 1
      · subst e
        exact Thr.get_set_self _ hr (by omega)
      · exact (Thr.get_set_other _ hr e).trans (hg i h1 (by omega))
  exact (hfold 6).2 i h1 h6

theorem get_settle (x : Thr) (r : Nat) : x.settle.get r = x.get r := by
  unfold Thr.settle
  split <;> rfl

theorem settle_pc (x : Thr) : x.settle.pc = x.pc ∧ x.settle.ticket = x.ticket := by
  unfold Thr.settle
  split <;> exact ⟨rfl, rfl⟩

theorem settle_ne_idle {x : Thr} (h : x.st = .run) : x.settle ≠ {} := by
  unfold Thr.settle
  split
  · exact Thr.ne_idle_of_waited rfl
  · exact fun e => absurd (h.symm.trans (congrArg Thr.st e)) (by decide)

/-- The record of a thread to which a task is delivered. -/
def Thr.takes (x : Thr) (t : Task) : Thr :=
  Thr.settle { loadArgs x t.args with pc := t.entry, st := .run, ticket := t.ticket, task := t.ticket.isNone, list := t.list, slots := 0, helped := false, since := 0, waited := false }

section
variable {s : State} {d n : Nat} {t : Task} {hit : Bool}

/-- A delivery takes the task off its list and gives it to its thread. -/
theorem deliver_thr : (deliver s d n t hit).thr d n = (s.thr d n).takes t := by
  unfold deliver
  dsimp -zeta only [State.takeFree]
  extract_lets c on_ u1 u2 u3 u4 _ u5
  have h2 : u2.thr d n = (s.thr d n).takes t := State.thr_modThr_ne_idle (s := u1) d n (f := fun x => x.takes t) (settle_ne_idle rfl)
  have hb : ∀ (u : State) r, (u.bump r d).cra = u.cra := fun _ _ => State.bump_keeps.frame .cra (by decide)
  have h4 : u4.cra = u2.cra := by
    dsimp only [u4]
    split
    · rw [hb]
      exact hb u2 _
    · exact hb u2 _
  have h5 : u5.cra = u4.cra := by
    dsimp only [u5]
    split <;> rfl
  rw [trace_thr]
  exact (thr_of_cra (congrArg Cra.thr (h5.trans h4)) d n).trans h2

theorem deliver_ready : (deliver s d n t hit).tdx.ready = mset [] s.tdx.ready (d * 64 + t.list) (lrem t (s.readyList d t.list)) := by
  unfold deliver
  dsimp -zeta only [State.takeFree]
  extract_lets c on_ u1 u2 u3 u4 _ u5
  have hb : ∀ (u : State) r, (u.bump r d).tdx = u.tdx := fun _ _ => State.bump_keeps.frame .tdx (by decide)
  have h4 : u4.tdx = u2.tdx := by
    dsimp only [u4]
    split
    · rw [hb]
      exact hb u2 _
    · exact hb u2 _
  have h5 : u5.tdx.ready = u4.tdx.ready := by
    dsimp only [u5]
    split <;> rfl
  rw [trace_ready]
  exact h5.trans (congrArg Tdx.ready h4)

end

theorem lrem_first {t : Task} {as r : List Task} (h : t ∉ as) : lrem t (as ++ t :: r) = as ++ r := by
  induction as with
  | nil => exact if_pos rfl
  | cons a as ih =>
    obtain ⟨ha, has⟩ := not_or.mp (mt List.mem_cons.mpr h)
    rw [List.cons_append, lrem, if_neg (Ne.symm ha), ih has]
    rfl

/-! The other commands of the dispatcher. -/

section
variable {s : State} {d : Fin 8}

theorem execTaskDeliver_eq {u : State} (hd : d < s.dies) (hup : s.tdxUp d = true) (h : tryPrios s d [0, 1, 2, 3] = u) : exec (.taskDeliver d) s = .next (lapse u d) := by
  show onCra s d _ = _
  rw [onCra_live _ _ _ hd, if_pos hup, h]

theorem execAffinityWaitEnd_eq {l : Fin 64} {t : Task} {c : Nat} (hd : d < s.dies) (hup : s.tdxUp d = true) (hf : (s.readyList d l).find? (fun t => t.held.isSome) = some t)
    (hc : s.waitCore d t = some c) (hw : s.waitersOf d l c = []) :
    exec (.affinityWaitEnd d l) s = .next (lapse (tryFallback (waitUnserved s d t c) d { t with held := none, waited := true }).2 d) := by
  show onCra s d _ = _
  rw [onCra_live _ _ _ hd, if_pos hup]
  unfold affWaitEnd
  rw [hf]
  dsimp only
  rw [hc]
  dsimp only
  rw [hw]
  rfl

/-- An expired delayed task joins its ready list (R337). -/
theorem delayExpiry_moves {i : Nat} {x : DTask} (h : s.expired d = some (i, x)) :
    (delayExpiry s d).tdx.delay = mset [] s.tdx.delay (d * 8 + i) ((s.delayList d i).drop 1)
      ∧ (delayExpiry s d).tdx.ready = mset [] s.tdx.ready (d * 64 + x.task.list) (s.readyList d x.task.list ++ [x.task]) := by
  unfold delayExpiry
  rw [h]
  dsimp -zeta only
  extract_lets u v
  have hv : v.tdx = u.tdx := by
    dsimp only [v]
    split
    · exact State.bump_keeps.frame .tdx (by decide)
    · rfl
  exact ⟨trace_delay.trans (congrArg Tdx.delay hv), trace_ready.trans (congrArg Tdx.ready hv)⟩

/-- The post that arrives is placed, refused or answered with error 0x02 (R325, R341). -/
theorem remoteArrive_down {f : Flight} {v : State} (hf : s.tdx.flight.find? (fun f => f.dst = d.val) = some f) (hv : v = { s with tdx := { s.tdx with flight := lrem f s.tdx.flight } })
    (hu : s.unitDown d unitTdx = true) : remoteArrive s d = answerPost v f 2 := by
  subst hv
  unfold remoteArrive
  rw [hf]
  exact if_pos hu

theorem remoteArrive_up {f : Flight} {v u : State} {c : Nat} (hf : s.tdx.flight.find? (fun f => f.dst = d.val) = some f) (hv : v = { s with tdx := { s.tdx with flight := lrem f s.tdx.flight } })
    (hu : s.unitDown d unitTdx = false) (ht : tryPost v d f.task f.delay = (c, u)) :
    remoteArrive s d = answerPost (if c = 0 then (u.bump .TDX_REMOTE_IN d).bump .TDX_POSTED d else u) f c := by
  subst hv
  unfold remoteArrive
  rw [hf]
  dsimp only
  rw [if_neg (by simp [hu]), ht]

theorem execRemoteTaskArrive_eq {u : State} (hd : d < s.dies) (h : remoteArrive s d = u) : exec (.remoteTaskArrive d) s = .next (lapse u d) := by
  show onCra s d _ = _
  rw [onCra_live _ _ _ hd, h]

theorem execAffinityClear_live (hd : d < s.dies) (hm : s.glb.mode.any = true) (hx : s.excluded d = false) (w : Word) : exec (.affinityClear d w) s = .next (wrResult (wrTdxCfg s d w)) := by
  show execAffinityClear d w s = _
  unfold execAffinityClear
  rw [hostDieWr_live _ _ _ _ hd hm (Or.inl hx)]

end

theorem Mode.any_of_threads {m : Mode} (h : m.threads = true) : m.any = true := by
  unfold Mode.any
  rw [h, Bool.or_true]

section
variable {s u : State} {a : InjectArgs} {c : Nat}

/-- The task that an injection places (R326). -/
def injectedTask (a : InjectArgs) : Task :=
  { args := (List.range 6).map (fun i => a.args.getD i 0), entry := a.entry.toNat, list := a.ready, key := a.key, ticket := none, held := none, waited := false }

theorem injectTask_eq (hd : a.die ∈ s.liveDies) (hr : a.ready ≤ 63) (he : a.entry.toNat ≤ 32767) (hn : a.args.length ≤ 6) (hu : s.unitDown a.die unitTdx = false)
    (ht : tryPost s a.die (injectedTask a) a.delay.toNat = (c, u)) :
    injectTask s a = if c = 0 then (.ok, [], postRec (u.bump .TDX_INJECTED a.die) a.die a.die false none (injectedTask a) a.delay.toNat) else (.noroom, [], u) := by
  have hmod : a.entry.toNat % 32768 = a.entry.toNat := Nat.mod_eq_of_lt (by omega)
  unfold injectTask
  rw [if_neg (by simp [hd]; omega), if_neg (by simp [hu]), hmod]
  unfold injectedTask at ht
  rw [ht]
  rfl

theorem execTaskInject_eq {e : Status} {l : List Byte} (hm : s.glb.mode.threads = true) (h : injectTask s a = (e, l, u)) : exec (.taskInject a) s = .next (u.answered 0x60 e l) := by
  show Host.Outcome.next (hostOpRun s 0x60 (injectTask s a)) = _
  unfold hostOpRun
  rw [if_pos hm, h, hostOp_any _ _ _ (Mode.any_of_threads hm)]

end

/-- Settles O49: the first task that moves by the lists passed over before it, the other commands by the branch that their hypotheses select. -/
theorem tasksMove : Obligations.TasksMove := by
  refine fun s d hd => ⟨fun hup => ⟨?deliver, fun l t c hf hc hw => execAffinityWaitEnd_eq hd hup hf hc hw, fun i x hx => ?expire⟩, fun f v hf hv => ⟨fun hu => ?_, fun hu c u ht => ⟨fun hc => ?_, fun hc => ?_⟩⟩,
    fun w hm hx hb => ?clear, fun a task had hal hm hr he hn hu htask => ?inject⟩
  case deliver =>
    intro prio pre l ls as t r c hit hp hq ht hpre hl has hnot htl hmove
    obtain ⟨n, hn, hc⟩ := considerTask_delivers htl hmove
    refine ⟨n, _, hn, rfl, execTaskDeliver_eq hd hup (tryPrios_delivers hp hq ht hpre hl has hc), ?_⟩
    have hthr : (deliver s.takeFree.2 d n t hit).thr d n = (s.thr d n).takes t := deliver_thr
    rw [hthr]
    refine ⟨(settle_pc _).1, (settle_pc _).2, fun hi i h1 h6 => ?_, ?_⟩
    · have hg : mrise 0 (s.thr d n).g = true := hi.thrG d n
      exact (get_settle _ _).trans (loadArgs_get hg h1 h6)
    · rw [deliver_ready]
      show mset [] s.tdx.ready (d * 64 + t.list) (lrem t (s.readyList d t.list)) = _
      rw [htl, hl, lrem_first hnot]
  case expire =>
    refine ⟨_, onDie_live _ _ _ hd, ?_, ?_⟩
    · rw [if_pos hup]
      exact delayExpiry_keeps.frame
    · rw [if_pos hup]
      exact delayExpiry_moves hx
  case clear =>
    refine ⟨_, execAffinityClear_live hd hm hx w, ?_, ?_⟩
    · exact only_trans (only_mono (by simp) wrTdxCfg_keeps.frame) (only_mono (by simp) (wrResult_only _ _))
    · unfold wrTdxCfg
      dsimp only
      rw [if_pos hb]
      exact congrArg (fun x : Tdx => { x with aff := mdrop (fun k => k / 4096 = d.val) x.aff }) (State.setRf_keeps.frame .tdx (by decide) : (s.setRf .TDX_CFG d [] 7 0 (fld w 7 0)).tdx = s.tdx)
  case inject =>
    subst htask
    have hi := fun u c => injectTask_eq (u := u) (c := c) hal hr he hn hu
    refine ⟨fun u ht => execTaskInject_eq hm ((hi u 0 ht).trans (if_pos rfl)), fun c u ht hc => execTaskInject_eq hm ((hi u c ht).trans (if_neg hc))⟩
  · exact execRemoteTaskArrive_eq hd (remoteArrive_down hf hv hu)
  · subst hc
    exact execRemoteTaskArrive_eq hd ((remoteArrive_up hf hv hu ht).trans (by rw [if_pos rfl]))
  · exact execRemoteTaskArrive_eq hd ((remoteArrive_up hf hv hu ht).trans (by rw [if_neg hc]))

end Sys2Proof.Machine

/-! PROOFS. Parse engines, fragments, flow contexts and sequence numbers (spec/04 R105 to R131, spec/05 R144). -/

namespace Sys2Proof.Machine

section
variable {s : State} {d : Fin 8}

/-! Parse engines. -/

theorem startParse_starts {e r : Nat} {f : Frame} (he : mfind s.prs.eng (d * 16 + e) = none) (hu : s.unitDown d unitPrs = false) (ht : s.takeParse d (e / 8) = some (r, f))
    (hq : s.quayBad f.handle 128 (min 256 f.len) = false) :
    only [.regs, .prs] s (startParse s d e) ∧ (startParse s d e).prs = { s.prs with
      queue := mmod [] s.prs.queue (d * 2 + r) (fun l => l.drop 1)
      eng := minsert (d * 16 + e) { frame := f, vec := vectorOf (s.parse d f.port (s.quayBytes f.handle 128 f.len)).lastw f.port f.len (s.parse d f.port (s.quayBytes f.handle 128 f.len)), cross := decide (r ≠ e / 8), turn := s.nextTurn d } s.prs.eng } := by
  unfold startParse
  rw [if_neg (by simp [he, hu])]
  extract_lets r'
  rw [ht]
  dsimp -zeta only
  rw [if_neg (by simp [hq])]
  extract_lets l q v t
  have ht : only [.prs] s t := prs_only _ _
  split
  · exact ⟨only_mono (by simp) ht, rfl⟩
  · exact ⟨only_trans (only_mono (by simp) ht) (only_mono (by simp) State.bump_keeps.frame), State.bump_keeps.frame .prs (by decide)⟩

theorem execParseFrame_live (hd : d < s.dies) (e : Fin 16) : exec (.parseFrame d e) s = .next (startParse s d e) := onDie_live _ _ _ hd

theorem execParseEnd_live (hd : d < s.dies) (e : Fin 16) : exec (.parseEnd d e) s = .next (parseEnd s d e) := onDie_live _ _ _ hd

/-- What follows the vector at the end of a parse: counters, the search, the classifier. -/
theorem parseEnd_ends {e : Nat} {x : Parsing} (hx : mfind s.prs.eng (d * 16 + e) = some x) (hp : s.unitDown d unitPrs = false) (hc : s.unitDown d unitCls = false) :
    (parseEnd s d e).prs = { s.prs with eng := mremove (d * 16 + e) s.prs.eng } ∧ (parseEnd s d e).bpm = (s.putQuay x.frame.handle 0 x.vec).bpm
      ∧ only [.regs, .prs, .cls, .fwt, .bpm, .ssc, .free] s (parseEnd s d e) := by
  suffices h : (parseEnd s d e).prs = { s.prs with eng := mremove (d * 16 + e) s.prs.eng } ∧ (parseEnd s d e).bpm = (s.putQuay x.frame.handle 0 x.vec).bpm from
    ⟨h.1, h.2, parseEnd_keeps.frame⟩
  unfold parseEnd
  rw [hx]
  dsimp -zeta only
  rw [if_neg (by simp [hp, hc])]
  generalize ht : ({ s with prs := { s.prs with eng := mremove (d * 16 + e) s.prs.eng } } : State) = t
  dsimp only
  have hu : Keeps [.regs] (t.putQuay x.frame.handle 0 x.vec) (countParse (t.putQuay x.frame.handle 0 x.vec) d x.frame.port x.vec) := countParse_keeps
  generalize countParse (t.putQuay x.frame.handle 0 x.vec) d x.frame.port x.vec = u at hu
  have hy : Keeps [.cls] u (if (vecFlags x.vec).testBit 31 = true ∨ (vecFlags x.vec).testBit pfLater = true then ((none : Option (Nat × BitVec 128)), u) else tcSearch u d x.vec).2 := by
    split
    · exact .refl
    · exact tcSearch_keeps
  generalize (if (vecFlags x.vec).testBit 31 = true ∨ (vecFlags x.vec).testBit pfLater = true then ((none : Option (Nat × BitVec 128)), u) else tcSearch u d x.vec) = y at hy
  have hz : ∀ z, only [.regs, .cls, .fwt, .ssc, .free] y.2 z → z.prs = (t.putQuay x.frame.handle 0 x.vec).prs ∧ z.bpm = (t.putQuay x.frame.handle 0 x.vec).bpm := fun z h =>
    ⟨(h .prs (by decide)).trans ((hy.frame .prs (by decide)).trans (hu.frame .prs (by decide))), (h .bpm (by decide)).trans ((hy.frame .bpm (by decide)).trans (hu.frame .bpm (by decide)))⟩
  have hb : (t.putQuay x.frame.handle 0 x.vec).prs = { s.prs with eng := mremove (d * 16 + e) s.prs.eng } ∧ (t.putQuay x.frame.handle 0 x.vec).bpm = (s.putQuay x.frame.handle 0 x.vec).bpm := by
    subst ht
    exact ⟨rfl, rfl⟩
  rw [← hb.1, ← hb.2]
  split
  · exact hz _ (only_mono (by simp) (cls_only _ _))
  · exact hz _ classify_keeps.frame

end

/-- Settles O15: an idle engine by the frame it takes, a parse that ends by what leaves its vector alone. -/
theorem enginesParse : Obligations.EnginesParse := by
  refine fun s => ⟨fun d e r f hd he hu ht hq => ?_, fun d e x hd hx hp hc => ?_⟩
  · exact ⟨_, execParseFrame_live hd e, startParse_starts he hu ht hq⟩
  · obtain ⟨hprs, hbpm, hf⟩ := parseEnd_ends hx hp hc
    exact ⟨_, execParseEnd_live hd e, hprs, hbpm, hf⟩

/-! Fragments and flow contexts. -/

/-- Settles O16: each expiry by its entry, the fetch by its read. -/
theorem fragmentsAndContextsExpire : Obligations.FragmentsAndContextsExpire := by
  refine fun s d hd => ⟨fun i x hx hdec ht => ?_, fun i x hx hdec ht => ?_, fun c hc hr => ?_⟩
  · show onDie s d _ = _
    rw [onDie_live _ _ _ hd, hx]
    exact congrArg _ (if_pos ⟨by simp [hdec], ht⟩)
  · show onDie s d _ = _
    rw [onDie_live _ _ _ hd, hx]
    exact congrArg _ (if_pos ⟨hdec, ht⟩)
  · show onDie s d _ = _
    rw [onDie_live _ _ _ hd]
    unfold ctxFetched
    dsimp only
    rw [if_pos ⟨hc, by simp [hr]⟩]
    rfl

/-! Sequence numbers. -/

section
variable {s : State} {d : Nat} {c : CFrame} {k : Nat}

theorem cacheIn_ctx {e : Nat} : (cacheIn s d e).fwt.ctx = s.fwt.ctx := by
  unfold cacheIn
  extract_lets l _ t
  have ht : t.fwt.ctx = s.fwt.ctx := rfl
  split
  · exact (congrArg Fwt.ctx (writeBack_keeps.frame .fwt (by decide))).trans ht
  · exact ht

/-- The entry that a frame with its number leaves. -/
theorem giveNumber_ctx : (giveNumber s d c k).fwt.ctx = mmod {} s.fwt.ctx (ctxKey d c.dec.flow) (fun y => { y with nextSeq := (y.nextSeq + 1) % 2 ^ 32 }) := by
  unfold giveNumber
  extract_lets x u1 u2 r u3
  have h2 : u2.fwt.ctx = mmod {} s.fwt.ctx (ctxKey d c.dec.flow) (fun y => { y with nextSeq := (y.nextSeq + 1) % 2 ^ 32 }) := cacheIn_ctx
  have h3 : u3.fwt = u2.fwt := putRob_keeps.frame .fwt (by decide)
  rw [← h2, ← h3]
  split
  · exact congrArg Fwt.ctx (placeReady_keeps.frame .fwt (by decide))
  · exact congrArg Fwt.ctx (complete_keeps.frame .fwt (by decide))

/-- The entry and the ticket that a rule with KIND THREAD leaves (R131, R234). -/
theorem giveNumber_ticket (hk : c.dec.kind = 4) : only [.regs, .cls, .fwt, .ssc, .rsq, .tdx] s (giveNumber s d c k)
      ∧ (∃ r, (giveNumber s d c k).rob d k = some r ∧ r.st = .pending ∧ r.seq = (s.ctx d c.dec.flow).nextSeq ∧ r.flow = flowId d c.dec.flow ∧ r.frame = c.frame)
      ∧ ∃ t, (giveNumber s d c k).readyList d c.dec.ready = s.readyList d c.dec.ready ++ [t] ∧ t.ticket = some k ∧ t.entry = c.dec.entry
          ∧ t.args = ticketWords d c (s.ctx d c.dec.flow).nextSeq k := by
  unfold giveNumber
  extract_lets x u1 u2 r u3
  have h1 : only [.cls] s u1 := cls_only _ _
  have h2 : only [.fwt, .ssc] u1 u2 := only_trans (only_mono (by simp) (fwt_only _ _)) cacheIn_keeps.frame
  have h3 : only [.regs, .rsq] u2 u3 := putRob_keeps.frame
  have h : only [.regs, .cls, .fwt, .ssc, .rsq, .tdx] s u3 := only_trans (only_trans (only_mono (by simp) h1) (only_mono (by simp) h2)) (only_mono (by simp) h3)
  have hrob : u3.rob d k = some r := by
    have hn : u3.rsq = (u2.setRob d k r).rsq := noteRob_keeps.frame .rsq (by decide)
    unfold State.rob
    rw [hn]
    exact mfind_minsert_self _ _ _
  have htdx : u3.tdx = s.tdx := (h3 .tdx (by decide)).trans ((h2 .tdx (by decide)).trans (h1 .tdx (by decide)))
  rw [if_pos hk]
  refine ⟨only_trans h (only_mono (by simp) placeReady_keeps.frame), ⟨r, ?_, rfl, rfl, rfl, rfl⟩, ⟨{ args := ticketWords d c x.nextSeq k, entry := c.dec.entry, list := c.dec.ready, key := ticketKey (flowId d c.dec.flow), ticket := some k, held := none, waited := false }, ?_, rfl, rfl, rfl⟩⟩
  · unfold State.rob
    rw [placeReady_keeps.frame .rsq (by decide)]
    exact hrob
  · have hr : u3.readyList d c.dec.ready = s.readyList d c.dec.ready := by
      unfold State.readyList
      rw [htdx]
    rw [← hr]
    exact mget_mset_ne _ _ (by simp)

end

/-- Settles O17: the frame that may take its number takes it, with what `giveNumber` leaves of it. -/
theorem framesTakeSequenceNumbers : Obligations.FramesTakeSequenceNumbers := by
  intro s d c k hd hu hn hr
  have ha : assignNext s d = giveNumber s d c k := by
    unfold assignNext
    rw [if_neg (by simp [hu]), hn]
    dsimp only
    rw [hr]
  refine ⟨?_, fun hw => ?_, giveNumber_ctx, giveNumber_ticket⟩
  · show onDie s d _ = _
    rw [onDie_live _ _ _ hd, ha]
  · show onDie s d _ = _
    rw [onDie_live _ _ _ hd, hn]
    exact congrArg _ ((if_pos hw).trans ha)

end Sys2Proof.Machine

/-! PROOFS. The learn engine and the ager (spec/05 R146 to R167). -/

namespace Sys2Proof.Machine

/-! The learn queue. -/

section
variable {s : State} {d : Fin 8}

theorem popLearn_head {r : LearnReq} {l : List LearnReq} (hu : s.unitDown d unitFwt = false) (h : s.learnQ d = r :: l) : popLearn s d = (some r, s.setLearnQ d l) := by
  unfold popLearn
  rw [if_neg (by simp [hu]), h]

theorem execLearnApply_insert {slot : Nat} {dom : BitVec 12} {mac : BitVec 48} {p : BitVec 5} {l : List LearnReq} (hd : d < s.dies) (hu : s.unitDown d unitFwt = false)
    (h : s.learnQ d = .insert slot dom mac p :: l) : exec (.learnApply d) s = .next (applyInsert (s.setLearnQ d l) d slot dom.toNat mac.toNat p.toNat) := by
  show onDie s d _ = _
  rw [onDie_live _ _ _ hd, popLearn_head hu h]

theorem execMoveApply_move {dom : BitVec 12} {mac : BitVec 48} {p : BitVec 5} {l : List LearnReq} (hd : d < s.dies) (hu : s.unitDown d unitFwt = false)
    (h : s.learnQ d = .move dom mac p :: l) : exec (.moveApply d) s = .next (applyMove (s.setLearnQ d l) d dom.toNat mac.toNat p.toNat) := by
  show onDie s d _ = _
  rw [onDie_live _ _ _ hd, popLearn_head hu h]

theorem execLearnNoticeApply_notice {n : Notice} {l : List LearnReq} (hd : d < s.dies) (hu : s.unitDown d unitFwt = false) (h : s.learnQ d = .notice n :: l) :
    exec (.learnNoticeApply d) s = .next (applyNotice (s.setLearnQ d l) d n) := by
  show onDie s d _ = _
  rw [onDie_live _ _ _ hd, popLearn_head hu h]

end

/-! An entry written, and what stands behind it. -/

/-- The state t holds e in a slot of die d, its queue of learn requests is l, and only registers and tables changed since s. -/
structure Learned (s t : State) (d slot : Nat) (e : L2Ent) (l : List LearnReq) : Prop where
  entry : t.l2At d slot = some e
  queue : t.fwt.learnq = mset [] s.fwt.learnq d l
  frame : only [.regs, .fwt] s t

section
variable {s t : State} {d slot : Nat} {e : L2Ent} {l : List LearnReq}

theorem Learned.setL2 : Learned s ((s.setLearnQ d l).setL2 d slot e) d slot e l :=
  ⟨mfind_minsert_self _ _ _, rfl, only_mono (by simp) (fwt_only _ _)⟩

theorem Learned.after_regs (h : Learned s t d slot e l) {u : State} (k : only [.regs] t u) : Learned s u d slot e l := by
  have hf : u.fwt = t.fwt := k .fwt (by decide)
  refine ⟨?_, hf ▸ h.queue, only_trans h.frame (only_mono (by simp) k)⟩
  unfold State.l2At
  rw [hf]
  exact h.entry

theorem Learned.sendNotice (h : Learned s t d slot e l) (dom mac p : Nat) : Learned s (sendNotice t d dom mac p) d slot e l := by
  unfold Machine.sendNotice
  split
  · exact ⟨h.entry, h.queue, only_trans h.frame (only_mono (by simp) (fwt_only _ _))⟩
  · exact h

/-- An insert fills its reserved slot (R148). -/
theorem applyInsert_fills {dom mac p : Nat} {x : L2Ent} (hx : s.l2At d slot = some x) (hp : x.pend = true) (hk : x.keyIs dom mac = true) :
    Learned s (applyInsert (s.setLearnQ d l) d slot dom mac p) d slot { word := l2Make dom mac p (s.ldata p) false true false false, winTick := 0, pinTick := 0 } l := by
  have hx' : (s.setLearnQ d l).l2At d slot = some x := hx
  unfold applyInsert
  rw [hx']
  dsimp only
  rw [if_pos ⟨hp, hk⟩]
  exact ((Learned.setL2.after_regs State.bump_keeps.frame).after_regs bumpFwt_keeps.frame).sendNotice _ _ _

/-- A move within the limit changes port and data (R150). -/
theorem applyMove_moves {dom mac p n : Nat} {x : L2Ent} (hx : s.l2Match d dom mac = some (slot, x)) (hp : x.pend = false) (hst : x.isStatic = false) (hpin : x.pinned = false)
    (hn : n = (if x.moves = 0 ∨ s.rf .FWT_MOVE d [] 23 0 ≤ s.ticksOn d - x.winTick then 0 else x.moves)) (hl : s.moveLimit d = 0 ∨ n ≠ s.moveLimit d) :
    Learned s (applyMove (s.setLearnQ d l) d dom mac p) d slot { x with
      word := setM (setM (setM (setM (setM x.word 121 117 p) 47 24 (s.ldata p)) 116 112 (min 31 (n + 1))) 124 124 1) 123 123 0
      winTick := if x.moves = 0 ∨ s.rf .FWT_MOVE d [] 23 0 ≤ s.ticksOn d - x.winTick then s.ticksOn d else x.winTick } l := by
  have hx' : (s.setLearnQ d l).l2Match d dom mac = some (slot, x) := hx
  have hfresh : (decide (x.moves = 0) || decide ((s.setLearnQ d l).rf .FWT_MOVE d [] 23 0 ≤ (s.setLearnQ d l).ticksOn d - x.winTick))
      = decide (x.moves = 0 ∨ s.rf .FWT_MOVE d [] 23 0 ≤ s.ticksOn d - x.winTick) := (Bool.decide_or _ _).symm
  unfold applyMove
  rw [hx']
  dsimp only
  rw [hfresh]
  simp only [decide_eq_true_eq]
  rw [← hn, if_neg (by simp [hp]), if_neg (by simp [hst]), if_neg (by simp [hpin]), if_neg (fun h => hl.elim h.1 fun hne => hne h.2)]
  exact ((Learned.setL2.after_regs State.bump_keeps.frame).after_regs bumpFwt_keeps.frame).sendNotice _ _ _

/-- A notice for an address without entry makes one (R153). -/
theorem applyNotice_makes {n : Notice} (hm : s.l2Match d n.domain.toNat n.mac.toNat = none) (hp : s.l2Place d n.domain.toNat n.mac.toNat = some slot) :
    Learned s (applyNotice (s.setLearnQ d l) d n) d slot { word := l2Make n.domain.toNat n.mac.toNat n.port.toNat n.data.toNat false true true false, winTick := 0, pinTick := 0 } l := by
  have hm' : (s.setLearnQ d l).l2Match d n.domain.toNat n.mac.toNat = none := hm
  have hp' : (s.setLearnQ d l).l2Place d n.domain.toNat n.mac.toNat = some slot := hp
  unfold applyNotice
  rw [hm']
  dsimp only
  rw [hp']
  exact Learned.setL2.after_regs bumpFwt_keeps.frame

end

/-- Settles O18: each request of the learn queue by the entry that it finds. -/
theorem learnEngineApplies : Obligations.LearnEngineApplies := by
  refine fun s d hd hu => ⟨fun slot dom mac p rest e hq he hp hk => ?_, fun dom mac p rest slot e n hq he hp hst hpin hn hl => ?_, fun n rest slot hq hm hp => ?_, fun n hn hl => ?_⟩
  · obtain ⟨h1, h2, h3⟩ := applyInsert_fills (l := rest) (p := p.toNat) he hp hk
    exact ⟨_, execLearnApply_insert hd hu hq, h1, h2, h3⟩
  · obtain ⟨h1, h2, h3⟩ := applyMove_moves (l := rest) (p := p.toNat) he hp hst hpin hn hl
    exact ⟨_, execMoveApply_move hd hu hq, h1, h2, h3⟩
  · obtain ⟨h1, h2, h3⟩ := applyNotice_makes (l := rest) hm hp
    exact ⟨_, execLearnNoticeApply_notice hd hu hq, h1, h2, h3⟩
  · show onDie s d _ = _
    rw [onDie_live _ _ _ hd, if_pos hn]
    dsimp only
    exact congrArg _ (if_pos hl)

/-! The ager. -/

section
variable {s : State} {d : Fin 8} {i : Nat} {hit : Bool}

theorem execAgerVisit_live {t : Tbl} (hd : d < s.dies) (hv : s.visitDue d t i = true) : exec (.agerVisit d t ⟨i, hit⟩) s = .next (ageVisit s d t i hit) := by
  show onDie s d _ = _
  rw [onDie_live _ _ _ hd]
  exact congrArg _ (if_pos hv)

/-- The ticks that a die counts stand in its phase and one register (R43). -/
theorem ticksOn_of_phi {s t : State} (hp : t.phi = s.phi) (hr : t.regs = s.regs) (d : Nat) : t.ticksOn d = s.ticksOn d := by
  unfold State.ticksOn State.cntOn State.tickShift
  rw [hp, rf_of_regs hr]

/-- A slot visited in this period is not due (R154). -/
theorem visitDue_visited {t : State} {tb : Tbl} (hv : s.visitDue d tb i = true) (hpos : t.fwt.agePos = minsert (ageKey d tb i) (s.ticksOn d) s.fwt.agePos) (hf : only [.fwt] s t) :
    t.visitDue d tb i = false := by
  have hper : s.agePeriod d tb ≠ 0 := by
    unfold State.visitDue at hv
    simp only [Bool.and_eq_true, decide_eq_true_eq] at hv
    exact hv.1.1.2
  have hp : t.agePeriod d tb = s.agePeriod d tb := by
    have hr : t.regs = s.regs := hf .regs (by decide)
    cases tb
    · exact congrArg BitVec.toNat (reg_of_regs hr _ _ _)
    · exact congrArg BitVec.toNat (reg_of_regs hr _ _ _)
    · rfl
  have ht : t.ticksOn d = s.ticksOn d := ticksOn_of_phi (hf .phi (by decide)) (hf .regs (by decide)) d
  unfold State.visitDue
  rw [hpos, mfind_minsert_self, hp, ht]
  have hlate : decide (s.ticksOn d + s.agePeriod d tb ≤ s.ticksOn d) = false := decide_eq_false (by omega)
  dsimp only
  rw [hlate, Bool.and_false]

theorem ageVisit_l2_static {e : L2Ent} (he : s.l2At d i = some e) (h : e.isStatic = true) : ageVisit s d .l2 i hit = s := by
  unfold ageVisit
  dsimp only
  rw [he]
  exact if_pos (Or.inl h)

theorem ageVisit_l2_used {e : L2Ent} (he : s.l2At d i = some e) (hp : e.pend = false) (h : e.isStatic = false) (ha : e.act = true ∨ hit = true) :
    ageVisit s d .l2 i hit = ({ s with fwt := { s.fwt with agePos := minsert (ageKey d .l2 i) (s.ticksOn d) s.fwt.agePos } } : State).setL2 d i { e with word := setM e.word 124 124 (b2n hit) } := by
  unfold ageVisit
  dsimp only
  rw [he]
  dsimp only
  rw [if_neg (by simp [h, hp]), if_pos ha]

theorem ageVisit_l2_unused {e : L2Ent} (he : s.l2At d i = some e) (hp : e.pend = false) (h : e.isStatic = false) (ha : e.act = false) :
    (ageVisit s d .l2 i false).fwt.l2 = mremove (l2Key d i) s.fwt.l2 ∧ only [.regs, .fwt, .icu] s (ageVisit s d .l2 i false) := by
  unfold ageVisit
  extract_lets _ v
  dsimp -zeta only
  rw [he]
  dsimp only
  rw [if_neg (by simp [h, hp]), if_neg (by simp [ha])]
  have hv : only [.regs, .fwt, .icu] s (v.dropL2 d i) := only_trans (only_mono (by simp) (fwt_only _ _)) (Keeps.frame (State.dropL2_keeps).mono)
  have k : only [.regs] (v.dropL2 d i) (bumpFwt ((v.dropL2 d i).bump .FWT_AGED_L2 d) d) := Keeps.frame (bumpFwt_keeps.after State.bump_keeps)
  exact ⟨congrArg Fwt.l2 (k .fwt (by decide)), only_trans hv (only_mono (by simp) k)⟩

theorem ageVisit_flow_static {e : FlowEnt} (he : s.flowAt d i = some e) (h : e.isStatic = true) : ageVisit s d .flow i hit = s := by
  unfold ageVisit
  dsimp only
  rw [he]
  exact if_pos h

theorem ageVisit_flow_used {e : FlowEnt} (he : s.flowAt d i = some e) (h : e.isStatic = false) (ha : e.act = true ∨ hit = true) :
    ageVisit s d .flow i hit = ({ s with fwt := { s.fwt with agePos := minsert (ageKey d .flow i) (s.ticksOn d) s.fwt.agePos } } : State).setFlow d i { e with act := hit } := by
  unfold ageVisit
  dsimp only
  rw [he]
  dsimp only
  rw [if_neg (by simp [h]), if_pos ha]

theorem dropFlow_flow {v : State} {e : FlowEnt} (he : v.flowAt d i = some e) : (dropFlow v d i).fwt.flow = mremove (flowKey d i) v.fwt.flow := by
  unfold dropFlow
  rw [he]
  rfl

theorem ageVisit_flow_unused {e : FlowEnt} (he : s.flowAt d i = some e) (h : e.isStatic = false) (ha : e.act = false) :
    (ageVisit s d .flow i false).fwt.flow = mremove (flowKey d i) s.fwt.flow ∧ only [.regs, .fwt, .icu] s (ageVisit s d .flow i false) := by
  unfold ageVisit
  extract_lets _ v
  dsimp -zeta only
  rw [he]
  dsimp only
  rw [if_neg (by simp [h]), if_neg (by simp [ha])]
  have hv : only [.regs, .fwt, .icu] s (dropFlow v d i) := only_trans (only_mono (by simp) (fwt_only _ _)) (Keeps.frame dropFlow_keeps.mono)
  have k : only [.regs] (dropFlow v d i) (bumpFwt ((dropFlow v d i).bump .FWT_AGED_FLOW d) d) := Keeps.frame (bumpFwt_keeps.after State.bump_keeps)
  have hd : (dropFlow v d i).fwt.flow = mremove (flowKey d i) s.fwt.flow := dropFlow_flow (v := v) he
  exact ⟨(congrArg Fwt.flow (k .fwt (by decide))).trans hd, only_trans hv (only_mono (by simp) k)⟩

theorem execHashSeedWrite_eq {w : Word} {a : Ans} (hd : d < s.dies) (hm : s.glb.mode.any = true) (hx : s.excluded d = false) (h : wrHashSeed s d w = a) : exec (.hashSeedWrite d w) s = .next (wrResult a) := by
  show execHashSeedWrite d w s = _
  unfold execHashSeedWrite
  rw [hostDieWr_live _ _ _ _ hd hm (Or.inl hx), h]

end

/-- Settles O19: a visit by the entry it finds, a pin by its time, a seed by whether it differs and the mode. -/
theorem tablesAge : Obligations.TablesAge := by
  refine fun s d hd => ⟨fun i e hv he hp => ⟨fun h hit => ?_, fun h hit ha => ?_, fun h ha => ?_⟩, fun i e hv he => ⟨fun h hit => ?_, fun h hit ha => ?_, fun h ha => ?_⟩,
    fun i e he hpin ht => ?_, fun w hm hx => ⟨fun h => ?_, fun h hp => ?_, fun h hp => ?_⟩⟩
  · rw [execAgerVisit_live hd hv, ageVisit_l2_static he h]
  · have hf : only [.fwt] s (({ s with fwt := { s.fwt with agePos := minsert (ageKey d .l2 i) (s.ticksOn d) s.fwt.agePos } } : State).setL2 d i { e with word := setM e.word 124 124 (b2n hit) }) := fwt_only _ _
    refine ⟨_, (execAgerVisit_live hd hv).trans (congrArg _ (ageVisit_l2_used he hp h ha)), mfind_minsert_self _ _ _, visitDue_visited hv rfl hf, hf⟩
  · exact ⟨_, execAgerVisit_live hd hv, ageVisit_l2_unused he hp h ha⟩
  · rw [execAgerVisit_live hd hv, ageVisit_flow_static he h]
  · have hf : only [.fwt] s (({ s with fwt := { s.fwt with agePos := minsert (ageKey d .flow i) (s.ticksOn d) s.fwt.agePos } } : State).setFlow d i { e with act := hit }) := fwt_only _ _
    refine ⟨_, (execAgerVisit_live hd hv).trans (congrArg _ (ageVisit_flow_used he h ha)), mfind_minsert_self _ _ _, visitDue_visited hv rfl hf, hf⟩
  · exact ⟨_, execAgerVisit_live hd hv, ageVisit_flow_unused he h ha⟩
  · show onDie s d _ = _
    rw [onDie_live _ _ _ hd, he]
    exact congrArg _ (if_pos ⟨hpin, ht⟩)
  · refine execHashSeedWrite_eq hd hm hx ?_
    unfold wrHashSeed
    exact if_pos (decide_eq_true h)
  · refine execHashSeedWrite_eq hd hm hx ?_
    unfold wrHashSeed
    dsimp only
    rw [if_neg (by simp [h]), if_pos hp]
  · refine execHashSeedWrite_eq hd hm hx ?_
    unfold wrHashSeed
    dsimp only
    rw [if_neg (by simp [h]), if_neg hp]

end Sys2Proof.Machine

/-! PROOFS. Prefetch and departures (spec/03 R84 to R97). -/

namespace Sys2Proof.Machine

theorem satAdd_pos {w x n : Nat} (hn : 0 < n) (hw : 0 < w) : 0 < satAdd w x n :=
  Nat.lt_min.mpr ⟨Nat.sub_pos_of_lt (Nat.one_lt_two_pow (Nat.ne_of_gt hw)), by omega⟩

/-! Prefetch. -/

section
variable {s : State}

/-- A segment that is not present at its deadline is late, and its bank counts it (R92, R93). -/
theorem deadline_counts (q d seg : Nat) (t : State) (ht : t = ((s.modPf q seg (fun p => { p with late := true })).modBank (bankOf q) (fun x => { x with pfLate := satAdd 16 x.pfLate 1 })).bump .CTE_PF_LATE_CNT d) :
    t.cte.pf = (s.modPf q seg (fun p => { p with late := true })).cte.pf
      ∧ t.bank (bankOf q) = { s.bank (bankOf q) with pfLate := satAdd 16 (s.bank (bankOf q)).pfLate 1 } ∧ only [.regs, .cte] s t := by
  subst ht
  have hc := (State.bump_keeps (s := (s.modPf q seg (fun p => { p with late := true })).modBank (bankOf q) (fun x => { x with pfLate := satAdd 16 x.pfLate 1 })) (r := .CTE_PF_LATE_CNT) (d := d) (idx := [])).frame .cte (by decide)
  have hne : ({ s.bank (bankOf q) with pfLate := satAdd 16 (s.bank (bankOf q)).pfLate 1 } : BankSt) ≠ {} :=
    fun h => Nat.ne_of_gt (satAdd_pos Nat.one_pos (by decide)) (congrArg BankSt.pfLate h)
  refine ⟨(congrArg (fun c : Cte => c.pf) hc).trans rfl, ?_, only_trans (only_mono (by simp) (cte_only _ _)) (only_mono (by simp) State.bump_keeps.frame)⟩
  exact (congrArg (fun c : Cte => mget {} c.bank (bankOf q)) hc).trans (mget_mset_ne _ _ hne)

end

/-- A command on a die that is there leads to the state that its operation leaves. -/
theorem onDie_eq {s t u : State} {d : Nat} (hd : d < s.dies) (h : t = u) : onDie s d t = .next u := h ▸ onDie_live s t d hd

/-- Settles O11: each command of the prefetch at its enabled branch. -/
theorem prefetchGoesOn : Obligations.PrefetchGoesOn := by
  intro s
  refine ⟨fun b g hd ho n st hn hc hb => ?_, fun q seg p hd hp hs hr => ?_, fun q seg p hd hp hs hc hl hdl => ?_, fun q hd hq => onDie_eq hd (if_pos hq), fun d p hd hp hr hm => ?_, fun d hm => ?_⟩
  · refine onDie_eq hd ?_
    unfold prefetchAt
    rw [hn]
    exact if_pos ⟨ho, hc, by simp [hb]⟩
  · refine onDie_eq hd ?_
    rw [hp]
    exact if_pos ⟨hs, hr⟩
  · refine ⟨_, onDie_eq hd ?_, deadline_counts q (s.server (queueDie q)) seg _ rfl⟩
    rw [hp]
    exact if_pos ⟨hs, hc, by simp [hl], hdl⟩
  · refine onDie_eq hd ?_
    rw [hp]
    exact if_pos ⟨hm, hr⟩
  · show onDie s d _ = _
    unfold onDie
    split
    · split
      · exact congrArg _ (if_neg (by simp [hm]))
      · rfl
    · rfl

/-! What an operation keeps of every landing queue. -/

/-- From s to t the landing queues stay listed once, and each keeps what v shows of it. -/
structure KeepsLq {β : Type} (v : LQ → β) (s t : State) : Prop where
  rise : mrise 0 s.qba.lq = true → mrise 0 t.qba.lq = true
  same : mrise 0 s.qba.lq = true → ∀ q, v (t.lq q) = v (s.lq q)

namespace KeepsLq

variable {β : Type} {v : LQ → β} {s t u : State}

theorem of_qba (h : t.qba.lq = s.qba.lq) : KeepsLq v s t := ⟨fun hr => h ▸ hr, fun _ q => by unfold State.lq; rw [h]⟩

theorem of_keeps {l : List Piece} (h : Keeps l s t) (hl : Piece.qba ∉ l) : KeepsLq v s t := of_qba (congrArg Qba.lq (h.frame .qba hl))

theorem refl (s : State) : KeepsLq v s s := of_qba rfl

theorem after (h : KeepsLq v t u) (k : KeepsLq v s t) : KeepsLq v s u :=
  ⟨fun hr => h.rise (k.rise hr), fun hr q => (h.same (k.rise hr) q).trans (k.same hr q)⟩

theorem ite {c : Prop} [Decidable c] (h : KeepsLq v s t) (k : KeepsLq v s u) : KeepsLq v s (if c then t else u) := by
  split
  · exact h
  · exact k

theorem foldl {α : Type} {f : State → α → State} {xs : List α} (hf : ∀ t x, KeepsLq v t (f t x)) (s : State) : KeepsLq v s (xs.foldl f s) :=
  foldl_keep (KeepsLq v s) f (fun t x h => (hf t x).after h) xs s (refl s)

end KeepsLq

section
variable {β : Type} {v : LQ → β} {s : State}

theorem State.lq_setLq_self (hr : mrise 0 s.qba.lq = true) (q : Nat) (x : LQ) : (s.setLq q x).lq q = x := mget_mset_self_rise _ _ _ _ hr

theorem State.lq_setLq_other (hr : mrise 0 s.qba.lq = true) {q a : Nat} (h : a ≠ q) (x : LQ) : (s.setLq q x).lq a = s.lq a := mget_mset_other_rise _ _ _ _ _ _ h hr

theorem State.modLq_keepsLq (q : Nat) {f : LQ → LQ} (h : ∀ x, v (f x) = v x) : KeepsLq v s (s.modLq q f) := by
  refine ⟨fun hr => mset_rise _ _ _ _ hr, fun hr a => ?_⟩
  by_cases ha : a = q
  · exact ha ▸ (congrArg v (s.lq_setLq_self hr q _)).trans (h _)
  · exact congrArg v (s.lq_setLq_other hr ha _)

/-- What a landing queue shows of its frames and of those that aged. -/
def LQ.aging (l : LQ) : List LQItem × Nat := (l.items, l.ageDrop)

theorem freeSegment_aging (j : Nat) : KeepsLq LQ.aging s (freeSegment s j) := by
  unfold freeSegment
  split
  · exact .refl s
  · refine (KeepsLq.of_keeps relink_keeps (by decide)).after ((KeepsLq.of_keeps writeRecord_keeps (by decide)).after (.after (State.modLq_keepsLq _ ?_) (.of_qba rfl)))
    exact fun _ => rfl

theorem leaveSegment_aging (j : Nat) (aged : Bool) : KeepsLq LQ.aging s (leaveSegment s j aged) := by
  unfold leaveSegment
  split
  · exact .refl s
  · exact .ite (.ite (.after (.of_keeps State.bump_keeps (by decide)) ((freeSegment_aging j).after (.of_qba rfl))) ((freeSegment_aging j).after (.of_qba rfl))) (.of_qba rfl)

theorem releaseItem_aging (q : Nat) (i : LQItem) (aged : Bool) : KeepsLq LQ.aging s (releaseItem s q i aged) := by
  unfold releaseItem
  have hm : ∀ u : State, KeepsLq LQ.aging u (freeMirror u i.mirror) := fun _ => .of_keeps freeMirror_keeps (by decide)
  split
  · have h := (hm _).after (leaveSegment_aging (s := s) i.seg aged)
    exact .ite h ((KeepsLq.of_keeps dropPf_keeps (by decide)).after h)
  · exact (hm _).after (.ite (.of_keeps releaseShared_keeps (by decide)) (.of_keeps freeBuf_keeps (by decide)))

end

theorem drop_length_takeWhile {α : Type} (p : α → Bool) (l : List α) : l.drop (l.takeWhile p).length = l.dropWhile p := by
  have h := List.drop_left (l₁ := l.takeWhile p) (l₂ := l.dropWhile p)
  rwa [List.takeWhile_append_dropWhile] at h

/-- The frames at the head of a queue that are past the age limit leave it and count; the others stay (R97, R208). -/
theorem ageDrop_aging {s : State} {q : Nat} (hl : s.lqAge q ≠ 0) (hr : mrise 0 s.qba.lq = true) :
    ((ageDrop s q).lq q).aging = ((s.lq q).items.dropWhile (fun i => decide (s.lqAge q < s.ageOf i)),
      satAdd 32 (s.lq q).ageDrop ((s.lq q).items.takeWhile (fun i => decide (s.lqAge q < s.ageOf i))).length) := by
  unfold ageDrop
  rw [if_neg hl]
  extract_lets old _ t
  have ht : t.lq q = _ := s.lq_setLq_self hr q _
  have hk : KeepsLq LQ.aging t (old.foldl (fun t i => releaseItem t q i true) t) := .foldl (fun u i => releaseItem_aging q i true) t
  rw [hk.same (mset_rise _ _ _ _ hr) q, ht]
  exact Prod.ext (drop_length_takeWhile _ _) rfl

/-! Departures. -/

section
variable {s : State}

/-- The head i of queue q has left it for port p, the rest of its queue being rest, and the next segment is requested (R84, R91). -/
def State.headed (s : State) (p q bps : Nat) (i : LQItem) (rest : List LQItem) : State :=
  (requestNext (s.setLq q { s.lq q with items := rest, deficit := if rest = [] then 0 else (s.lq q).deficit - i.len }) q i bps).modPtx p
    (fun x => { x with backlog := x.backlog + i.len + s.itemGrow q i + 20 })

/-- What becomes of the head of a queue on its port (R84, R251, R462, R478). -/
theorem startFrame_eq {p q bps : Nat} {i : LQItem} {rest : List LQItem} (hi : (s.lq q).items = i :: rest) :
    startFrame s p q bps =
      let d := s.server (queueDie q)
      let v := s.headed p q bps i rest
      if s.noRoute d (p / 4) then (releaseItem v q i).bump .PFB_ROUTE_DROP d
      else if ¬ i.staged ∧ s.quayBad i.handle 128 i.len then (releaseItem v q i).bump .ICU_FRAME_DROP d
      else match s.runEdit d p i.edit (s.itemBytes i) with
      | none => (releaseItem v q i).bump .RSQ_EDIT_ERR d
      | some b => v.modPtx p (fun x => { x with wire := x.wire ++ [{ q := q, item := i, bytes := b, left := false, engine := v.freeEngine p }] }) := by
  unfold startFrame
  dsimp only
  rw [hi]
  rfl

theorem State.headed_qba (p q bps : Nat) (i : LQItem) (rest : List LQItem) :
    (s.headed p q bps i rest).qba = { s.qba with lq := mset {} s.qba.lq q { s.lq q with items := rest, deficit := if rest = [] then 0 else (s.lq q).deficit - i.len } } :=
  requestNext_keeps.frame .qba (by decide)

/-- A frame put on the wire of a port stands there. -/
theorem State.mem_wire_append (p : Nat) (w : WireFrame) : w ∈ ((s.modPtx p (fun x => { x with wire := x.wire ++ [w] })).ptx p).wire := by
  have h : ((s.modPtx p (fun x => { x with wire := x.wire ++ [w] })).ptx p) = { s.ptx p with wire := (s.ptx p).wire ++ [w] } :=
    mget_mset_ne _ _ fun h => by simpa using congrArg PortTx.wire h
  rw [h]
  exact List.mem_append_right _ (List.mem_singleton.mpr rfl)

theorem startOn_picked {p q : Nat} {u : State} (hf : s.portFree p = true)
    (h : portPick p (if (s.ptx p).backlog = 0 then 0 else 1) (s.bps p) (4 * (s.openBanks p).length + 8) false (settleRound s p) = (some q, u)) :
    startOn s p = startFrame u p q (s.bps p) := by
  unfold startOn
  rw [if_pos hf]
  dsimp only
  rw [h]

/-- The queue's counters of departures go up as its head leaves the quay (R253). -/
def LQ.departed (l : LQ) (n : Nat) : LQ :=
  { l with depFrames := satAdd 32 l.depFrames 1, depKb := satAdd 32 l.depKb ((l.depRem + n) / 1024), depRem := (l.depRem + n) % 1024 }

/-- The frame w, the first of a wire that has not left the quay, has left it (R253). -/
def PortTx.passed (x : PortTx) (w : WireFrame) : PortTx :=
  { x with wire := (x.wire.takeWhile (fun y => y.left)) ++ [{ w with left := true }] ++ (x.wire.dropWhile (fun y => y.left)).drop 1 }

theorem State.lq_modLq_departed (q n : Nat) : (s.modLq q (fun l => l.departed n)).lq q = (s.lq q).departed n :=
  mget_mset_ne _ _ fun h => Nat.ne_of_gt (satAdd_pos Nat.one_pos (by decide)) (congrArg LQ.depFrames h)

/-- The first frame w of the wire of port p has completed there, the frames behind it being rest (R494). -/
def State.transmitted (s : State) (p : Nat) (w : WireFrame) (rest : List WireFrame) : State :=
  let n := (macFrame w.bytes).length
  let t := { s with lineTx := s.lineTx ++ [LineTx.mk p (macFrame w.bytes)] }
  let t := (t.modPtx p (fun x => { x with wire := rest })).bump .LPX_TX_FRAMES (p / 4) [p % 4]
  let t := t.bumpN .LPX_TX_KB (p / 4) [p % 4] (((s.lnk p).txKb + n) / 1024)
  { t with lpx := { t.lpx with port := mmod {} t.lpx.port p (fun x => { x with txKb := (x.txKb + n) % 1024 }) } }

theorem State.transmitted_lineTx (p : Nat) (w : WireFrame) (rest : List WireFrame) : (s.transmitted p w rest).lineTx = s.lineTx ++ [LineTx.mk p (macFrame w.bytes)] := by
  unfold State.transmitted
  extract_lets n u v t
  have h : only [.regs] (u.modPtx p (fun x => { x with wire := rest })) t := Keeps.frame (State.bumpN_keeps.after State.bump_keeps)
  exact h .lineTx (by decide)

theorem State.transmitted_only (p : Nat) (w : WireFrame) (rest : List WireFrame) : only [.regs, .cte, .lpx, .lineTx] s (s.transmitted p w rest) := by
  unfold State.transmitted
  extract_lets n u v t
  have h : only [.regs] (u.modPtx p (fun x => { x with wire := rest })) t := Keeps.frame (State.bumpN_keeps.after State.bump_keeps)
  have h1 : only [.lineTx] s u := lineTx_only s _
  have h2 : only [.cte] u (u.modPtx p (fun x => { x with wire := rest })) := cte_only _ _
  exact only_trans (only_mono (by simp) h1) (only_trans (only_mono (by simp) h2) (only_trans (only_mono (by simp) h) (only_mono (by simp) (lpx_only _ _))))

end

/-- Settles O12: the selected head by the outcomes of `startFrame_eq`, the other commands each at its enabled branch. -/
theorem framesDepart : Obligations.FramesDepart := by
  intro s
  refine ⟨fun p q u i rest b hd hf hp hi hn hb he => ?_, fun p q u i rest d hd hf hp hi hsd v hv => ?_, fun p w hd hw he => ?_, fun p w rest hd ho hw hl hb => ?_, fun p e hd he => ?_, fun q hd hl hI => ?_⟩
  · have hb' : ¬ (¬ i.staged = true ∧ u.quayBad i.handle 128 i.len = true) := by simpa using hb
    have hs : startOn s p = _ := (startOn_picked hf hp).trans (startFrame_eq hi)
    dsimp only at hs
    rw [if_neg (by simp [hn]), if_neg hb', he] at hs
    refine ⟨_, _, onDie_eq hd hs, State.mem_wire_append (↑p) _, rfl, rfl, rfl, rfl, u.headed_qba p q _ i rest⟩
  · subst hsd hv
    have hs : startOn s p = _ := (startOn_picked hf hp).trans (startFrame_eq hi)
    dsimp only at hs
    refine ⟨fun hn => onDie_eq hd (hs.trans (if_pos hn)), fun hn hst hb => ?_, fun hn hb he => ?_⟩
    · rw [if_neg (by simp [hn]), if_pos ⟨by simp [hst], hb⟩] at hs
      exact onDie_eq hd hs
    · rw [if_neg (by simp [hn]), if_neg (by simpa using hb), he] at hs
      exact onDie_eq hd hs
  · refine ⟨_, _, onDie_eq hd (u := assignEngines (releaseItem (State.modLq (s.modPtx p (fun x => x.passed w)) w.q (fun l => l.departed (macFrame w.bytes).length)) w.q w.item)) ?_, rfl, State.lq_modLq_departed _ _, ?_⟩
    · rw [hw]
      exact if_neg (by simpa [Option.isSome_iff_ne_none] using he)
    · exact only_trans (only_mono (by simp) (cte_only _ _)) (only_mono (by simp) State.modLq_keeps.frame)
  · refine ⟨_, onDie_eq hd (u := s.transmitted p w rest) ?_, State.transmitted_lineTx _ _ _, State.transmitted_only _ _ _⟩
    rw [hw]
    exact if_pos ⟨ho, hl, hb⟩
  · refine onDie_eq hd ?_
    rw [he]
  · have hr := hI.2.1.2.2.2
    have h := ageDrop_aging hl hr
    exact ⟨_, onDie_eq hd rfl, congrArg Prod.fst h, congrArg Prod.snd h, ageDrop_keeps.frame⟩

end Sys2Proof.Machine

/-! PROOFS. The line ports (spec/17 R485 to R500). -/

namespace Sys2Proof.Machine

/-! The bits of a mask and of a register's view. -/

theorem testBit_maskOf (n : Nat) (l : List Nat) : (maskOf l).testBit n = true ↔ n ∈ l := by
  unfold maskOf
  suffices ∀ (l : List Nat) (a : Nat), (l.foldl (fun a n => Nat.lor a (2 ^ n)) a).testBit n = true ↔ a.testBit n = true ∨ n ∈ l by simpa using this l 0
  intro l
  induction l with
  | nil => simp
  | cons m r ih =>
    intro a
    have hb : (Nat.lor a (2 ^ m)).testBit n = (a.testBit n || (2 ^ m).testBit n) := Nat.testBit_or ..
    rw [List.foldl_cons, ih, hb, Nat.testBit_two_pow, Bool.or_eq_true, decide_eq_true_eq, List.mem_cons, or_assoc, eq_comm (a := m)]

theorem fld_bit (w : Word) (k : Nat) : fld w k k = 1 ↔ w.toNat.testBit k = true := by
  unfold fld bitsOf
  rw [Nat.add_sub_cancel_left, pow_one, Nat.testBit_eq_decide_div_mod_eq, decide_eq_true_eq]

theorem testBit_fld (w : Word) {hi k : Nat} (h : k ≤ hi) : (fld w hi 0).testBit k = w.toNat.testBit k := by
  unfold fld bitsOf
  rw [pow_zero, Nat.div_one, Nat.testBit_mod_two_pow, Nat.sub_zero, decide_eq_true (Nat.lt_succ_of_le h), Bool.true_and]

/-- LPX_STATE.LINK names the lanes of the die whose link is reported up (R499). -/
theorem State.view_lpxState (s : State) (d : Nat) {l : Nat} (h : l < 4) : fld (s.view .LPX_STATE d []) l l = 1 ↔ (s.lnk (d * 4 + l)).up = true := by
  have hv : s.view .LPX_STATE d [] = BitVec.ofNat 32 (Nat.land (setFld (s.reg .LPX_STATE d []) 3 0 (s.linkMask d)).toNat 0xFFFF000F) := rfl
  have hf : fld (setFld (s.reg .LPX_STATE d []) 3 0 (s.linkMask d)) 3 0 = s.linkMask d % 2 ^ 4 := fld_setFld _ 0 4 _ (by decide) (by decide)
  have hm : Nat.testBit 0xFFFF000F l = true := by interval_cases l <;> decide
  have hl : ∀ a b : Nat, (Nat.land a b).testBit l = (a.testBit l && b.testBit l) := fun a b => Nat.testBit_and a b l
  rw [fld_bit, hv, BitVec.toNat_ofNat, Nat.testBit_mod_two_pow, decide_eq_true (by omega : l < 32), Bool.true_and, hl, hm, Bool.and_true,
    ← testBit_fld _ (by omega : l ≤ 3), hf, Nat.testBit_mod_two_pow, decide_eq_true h, Bool.true_and]
  unfold State.linkMask
  rw [testBit_maskOf, List.mem_filter, List.mem_range]
  exact and_iff_right h

/-! Link reports. -/

/-- What the CTE keeps of the ports and of the link reports. -/
def State.portsAndReports (s : State) : SMap PortTx × List (Nat × Bool) := (s.cte.port, s.cte.linkRep)

theorem Fixes.ports_of_keeps {l : List Piece} {s t : State} (h : Keeps l s t) (hl : Piece.cte ∉ l) : Fixes State.portsAndReports s t :=
  congrArg (fun c : Cte => (c.port, c.linkRep)) (h.frame .cte hl)

section
variable {s : State}

theorem freeSegment_ports (j : Nat) : Fixes State.portsAndReports s (freeSegment s j) := by
  unfold freeSegment
  split
  · exact .refl s
  · exact (Fixes.ports_of_keeps relink_keeps (by decide)).after ((Fixes.ports_of_keeps writeRecord_keeps (by decide)).after (show Fixes _ _ _ from rfl))

theorem leaveSegment_ports (j : Nat) (aged : Bool) : Fixes State.portsAndReports s (leaveSegment s j aged) := by
  unfold leaveSegment
  split
  · exact .refl s
  · exact .ite (.ite (.after (.ports_of_keeps State.bump_keeps (by decide)) ((freeSegment_ports j).after (show Fixes _ _ _ from rfl))) ((freeSegment_ports j).after (show Fixes _ _ _ from rfl))) (show Fixes _ _ _ from rfl)

theorem releaseItem_ports (q : Nat) (i : LQItem) (aged : Bool) : Fixes State.portsAndReports s (releaseItem s q i aged) := by
  unfold releaseItem
  have hm : ∀ u : State, Fixes State.portsAndReports u (freeMirror u i.mirror) := fun _ => .ports_of_keeps freeMirror_keeps (by decide)
  split
  · have h := (hm _).after (leaveSegment_ports (s := s) i.seg aged)
    exact .ite h (Fixes.after (show Fixes _ _ _ from rfl) h)
  · exact (hm _).after (.ite (.ports_of_keeps releaseShared_keeps (by decide)) (.ports_of_keeps freeBuf_keeps (by decide)))

/-- The frames that port p has started are released and lost, and none of its banks is served any longer; the engines are not assigned anew yet (R96, R98). -/
def State.aborted (s : State) (p : Nat) : State :=
  ((s.ptx p).wire.foldl (fun t w =>
    let t := t.modLq w.q (fun l => { l with linkAbort := satAdd 32 l.linkAbort 1 })
    if w.left then t else releaseItem t w.q w.item) s).modPtx p (fun x => updateRound { x with wire := [], backlog := 0 } [])

theorem State.aborted_ports (p : Nat) :
    (s.aborted p).cte.port = mmod {} s.cte.port p (fun x => updateRound { x with wire := [], backlog := 0 } []) ∧ (s.aborted p).cte.linkRep = s.cte.linkRep := by
  unfold State.aborted
  have h : Fixes State.portsAndReports s ((s.ptx p).wire.foldl (fun t w =>
      let t := t.modLq w.q (fun l => { l with linkAbort := satAdd 32 l.linkAbort 1 })
      if w.left then t else releaseItem t w.q w.item) s) := by
    refine .foldl (fun t w => ?_) s
    exact .ite (show Fixes _ _ _ from rfl) ((releaseItem_ports _ _ _).after (show Fixes _ _ _ from rfl))
  generalize List.foldl _ s _ = t at h
  obtain ⟨hp, hl⟩ := Prod.mk.inj h
  refine ⟨?_, hl⟩
  rw [← hp]
  rfl

theorem State.aborted_only (p : Nat) : only [.regs, .cte, .bpm, .qba, .ssc] s (s.aborted p) :=
  Keeps.frame (State.modPtx_keeps.after (.foldl (fun _ _ => .ite State.modLq_keeps.mono (releaseItem_keeps.after State.modLq_keeps.mono)) .refl))

/-- The report of a link as it stands before a link that went down cuts the frames of its port (R496, R497, R500). -/
def State.reported (s : State) (p : Nat) (up : Bool) : State :=
  let t := (s.modLnk p (fun x => { x with up := up, upHold := false, downHold := false, turned := true })).bumpGen .LPX_STATE (p / 4)
  let t := if up then t else t.bump .LPX_LINK_DOWNS (p / 4) [p % 4]
  let t := t.raiseEv 0x0101 (p / 4) (t.gen .LPX_STATE (p / 4)) [p, b2n up, (t.portStat (p / 4) (p % 4)).toNat]
  { t with cte := { t.cte with linkRep := t.cte.linkRep ++ [(p, up)] } }

theorem reportLink_down (p : Nat) : reportLink s p false = assignEngines ((s.reported p false).aborted p) := rfl

theorem reportLink_up (p : Nat) : reportLink s p true = s.reported p true := rfl

theorem State.reported_frame (p : Nat) (up : Bool) : ∃ t : State, only [.regs, .gwe] (s.modLnk p (fun x => { x with up := up, upHold := false, downHold := false, turned := true })) t
    ∧ s.reported p up = { t with cte := { t.cte with linkRep := t.cte.linkRep ++ [(p, up)] } } :=
  ⟨_, Keeps.frame (State.raiseEv_keeps.after (.ite State.bumpGen_keeps.mono (State.bump_keeps.after State.bumpGen_keeps.mono))), rfl⟩

theorem State.reported_cte (p : Nat) (up : Bool) : (s.reported p up).cte = { s.cte with linkRep := s.cte.linkRep ++ [(p, up)] } := by
  obtain ⟨t, ht, hr⟩ := s.reported_frame p up
  have hc : t.cte = s.cte := ht .cte (by decide)
  rw [hr, ← hc]

theorem State.reported_only (p : Nat) (up : Bool) : only [.regs, .cte, .lpx, .gwe] s (s.reported p up) := by
  obtain ⟨t, ht, hr⟩ := s.reported_frame p up
  rw [hr]
  exact only_trans (only_mono (by simp) State.modLnk_keeps.frame) (only_trans (only_mono (by simp) ht) (only_mono (by simp) (cte_only _ _)))

theorem State.reported_lnk (p : Nat) : (s.reported p true).lnk p = { s.lnk p with up := true, upHold := false, downHold := false, turned := true } := by
  obtain ⟨t, ht, hr⟩ := s.reported_frame p true
  rw [hr]
  exact (congrArg (fun x : Lpx => mget {} x.port p) (ht .lpx (by decide))).trans (mget_mset_ne _ _ fun h => by simpa using congrArg LinkSt.up h)

end

/-- Settles O14: the reports by `reported`, the frames cut by `aborted`. -/
theorem linksComeAndGo : Obligations.LinksComeAndGo := by
  intro s p hd
  refine ⟨fun ho => onDie_eq hd (if_pos ho), fun c ho => onDie_eq hd (if_pos ho), fun c he => onDie_eq hd (if_pos he), fun hu hh => ?_, fun hu hg => ?_, ?_, ?_⟩
  · obtain ⟨hp, hl⟩ := (s.reported p false).aborted_ports p
    have hc := s.reported_cte p false
    refine ⟨_, onDie_eq hd ((if_pos ⟨hu, hh⟩).trans (reportLink_down _)), hl.trans (congrArg Cte.linkRep hc), hp.trans (congrArg (fun c : Cte => mmod {} c.port p _) hc), ?_⟩
    exact only_trans (only_mono (by simp) (s.reported_only p false)) (only_mono (by simp) (State.aborted_only _))
  · exact ⟨_, onDie_eq hd ((if_pos ⟨hu, hg⟩).trans (reportLink_up _)), s.reported_lnk p, s.reported_cte p true, s.reported_only p true⟩
  · unfold State.sendsRemoteFault
    rw [Bool.and_eq_true, Bool.not_eq_true']
  · have h := s.view_lpxState (p / 4) (Nat.mod_lt p (by decide : 4 > 0))
    rwa [show p.val / 4 * 4 + p.val % 4 = p by omega] at h

/-! Received frames and the port configuration. -/

section
variable {s : State}

/-- The codewords of a port counted, and its link no longer just reported (R493, R539; log 75). -/
def State.heard (s : State) (p c e : Nat) : State := (countFec s p c e).modLnk p (fun x => { x with turned := false })

theorem fecCorr_ne_uncorr (d : Nat) (l : Fin 4) : Reg.addr .LPX_FEC_CORR d [l] ≠ Reg.addr .LPX_FEC_UNCORR d [l] := by
  simp [Reg.addr, Reg.info, dimSum]

/-- Both counters of codewords go up where the lanes hold FEC lock, and no register changes elsewhere (R493). -/
theorem State.heard_counts (p : Fin 32) (c e : Nat) (h : s.Inv) :
    ((s.lnk p).fecLock = true → counts s (s.heard p c e) .LPX_FEC_CORR (p / 4) [p % 4] c ∧ counts s (s.heard p c e) .LPX_FEC_UNCORR (p / 4) [p % 4] e)
      ∧ ((s.lnk p).fecLock = false → (s.heard p c e).regs = s.regs) ∧ only [.regs, .lpx] s (s.heard p c e) := by
  have hr := h.rise
  have hne := fecCorr_ne_uncorr (p / 4) ⟨p % 4, Nat.mod_lt _ (by decide)⟩
  refine ⟨fun hl => ?_, fun hl => ?_, only_trans (only_mono (by simp) countFec_keeps.frame) (only_mono (by simp) State.modLnk_keeps.frame)⟩
  · have hc : countFec s p c e = (s.bumpN .LPX_FEC_CORR (p / 4) [p % 4] c).bumpN .LPX_FEC_UNCORR (p / 4) [p % 4] e := if_pos hl
    have hw := s.bumpN_writes .LPX_FEC_CORR (p / 4) [p % 4] c (A := [Reg.addr .LPX_FEC_CORR (p / 4) [p % 4]])
    have hw' := (s.bumpN .LPX_FEC_CORR (p / 4) [p % 4] c).bumpN_writes .LPX_FEC_UNCORR (p / 4) [p % 4] e (A := [Reg.addr .LPX_FEC_UNCORR (p / 4) [p % 4]])
    have h1 := (counts_bumpN s .LPX_FEC_CORR (p / 4) [p % 4] c hr).after hw' (hw.rise hr) (by simpa using hne)
    have h2 := (counts_bumpN _ .LPX_FEC_UNCORR (p / 4) [p % 4] e (hw.rise hr)).before hw hr (by simpa using hne.symm)
    rw [← hc] at h1 h2
    exact ⟨h1, h2⟩
  · have hc : countFec s p c e = s := if_neg (by simp [hl])
    exact (show (s.heard p c e).regs = (countFec s p c e).regs from rfl).trans (congrArg State.regs hc)

theorem execFrameReceive_on {p : Fin 32} {f : RxFrame} (hd : p.val / 4 < s.dies) (ho : s.portOn p = true) :
    exec (.frameReceive p f) s = .next (if s.upAtFirst p f then noteTail (checkFrame (s.heard p f.corrected f.uncorrectable) p f) p else s.heard p f.corrected f.uncorrectable) :=
  onDie_eq hd (if_pos ho)

theorem noRoute_of_icu {t : State} (hp : t.part = s.part) (hi : t.icu.link = s.icu.link) (a b : Nat) : t.noRoute a b = s.noRoute a b := by
  unfold State.noRoute State.partnerDown State.dies
  rw [hp, hi]

/-- The fabric carries frames as it did before one was heard and counted. -/
theorem noRoute_counted (p : Fin 32) (c e n a b : Nat) : (noteRx (countRx (s.heard p c e) p n) (p / 4)).noRoute a b = s.noRoute a b := by
  have h : only [.regs, .lpx] s (countRx (s.heard p c e) p n) :=
    only_trans (only_mono (by simp) countFec_keeps.frame) (only_trans (only_mono (by simp) State.modLnk_keeps.frame) (only_mono (by simp) countRx_keeps.frame))
  have hn : ∀ u : State, (noteRx u (p / 4)).part = u.part ∧ (noteRx u (p / 4)).icu.link = u.icu.link := fun u => by
    unfold noteRx
    split <;> exact ⟨rfl, rfl⟩
  exact noRoute_of_icu ((hn _).1.trans (h .part (by decide))) ((hn _).2.trans (congrArg Icu.link (h .icu (by decide)))) a b

section
variable {p : Fin 32} {f : RxFrame}

theorem checkFrame_code (h : f.codeErr = true ∨ s.linkGoodNow p = false ∨ (s.lnk p).up = false) : checkFrame s p f = rxError s p .LPX_RX_CODE := by
  unfold checkFrame
  exact if_pos (by simpa using h)

/-- The checks of a frame received without an error of its code (R489). -/
theorem checkFrame_noCode (hc : f.codeErr = false) (hg : s.linkGoodNow p = true) (hu : (s.lnk p).up = true) : checkFrame s p f =
    if s.rf .LPX_PORT_CFG (p / 4) [p % 4] 13 0 < f.bytes.length then rxError s p .LPX_RX_OVERSIZE
    else if f.bytes.length < 64 then rxError s p .LPX_RX_RUNT
    else if ¬ fcsGood f.bytes then rxError s p .LPX_RX_FCS
    else
      let t := countRx s p f.bytes.length
      if beNat ((f.bytes.drop 12).take 2) = 0x8808 then t.bump .LPX_RX_CTRL (p / 4) [p % 4]
      else if ¬ s.admits p f then t.bump .GLB_CLOSED_DROP 0 [p]
      else if s.glb.warm.isSome then { t.bump .GLB_WARM_LOST 0 [1] with glb := { t.glb with lostFlight := t.glb.lostFlight + 1 } }
      else if f.islandFull ∧ s.excluded (p / 4) then t.bump .PFB_TAKEOVER_DROP (p / 4)
      else receiveFrame (noteRx t (p / 4)) p f.bytes := by
  unfold checkFrame
  exact if_neg (by simp [hc, hg, hu])

/-- A frame that its port's island carries to a die without a route is lost (R478). -/
theorem receiveFrame_noRoute {q : Nat} {l : List Byte} {d region : Nat} (hi : s.ingressOf q l = (d, region)) (h : s.noRoute (q / 4) d = true) :
    receiveFrame s q l = s.bump .PFB_ROUTE_DROP (q / 4) := by
  unfold receiveFrame
  rw [hi]
  exact if_pos h

/-- A frame without a mirror joins its parse queue in a buffer of its class (R104, R106, R171). -/
theorem receiveFrame_buffer {q : Nat} {l : List Byte} {d region c h : Nat} {v : State} (hi : s.ingressOf q l = (d, region)) (hn : s.noRoute (q / 4) d = false)
    (hc : classFor l.length = some c) (ha : allocBuf (nextArrival s d).2 d region c = (some h, v))
    (ht : (v.putQuay h 128 l).twin q = false ∨ (v.putQuay h 128 l).unmirrored q = true) :
    receiveFrame s q l = joinParse (v.putQuay h 128 l) d region { handle := h, len := l.length, port := q, arr := mget 0 s.prs.arr d, mirror := none } := by
  unfold receiveFrame
  rw [hi]
  dsimp only
  rw [if_neg (by simp [hn]), hc]
  dsimp only
  rw [ha]
  exact if_pos (by simpa using ht)

theorem wrPortCfg_held {d l : Nat} {w : Word} (h : (s.heldLanes d l).contains l = true) : wrPortCfg s d l w = (.busy, s) := if_pos h

theorem wrPortCfg_bad {d l : Nat} {w : Word} (h : (s.heldLanes d l).contains l = false)
    (hb : fld w 13 0 < 64 ∨ 9216 < fld w 13 0 ∨ s.laneAllowed d l (fld w 19 16) = false ∨ s.laneClash d l (fld w 19 16) = true) : wrPortCfg s d l w = (.badaddr, s) := by
  unfold wrPortCfg
  dsimp only
  rw [if_neg (by rw [h]; decide)]
  split
  · rfl
  · next hm => exact if_pos (by
      rcases hb with hb | hb | hb | hb
      · exact absurd (Or.inl hb) hm
      · exact absurd (Or.inr hb) hm
      · exact Or.inl (by simp [hb])
      · exact Or.inr hb)

end

theorem execPortConfigWrite_eq {d : Fin 8} {l : Fin 4} {w : Word} {a : Ans} (hd : d < s.dies) (hm : s.glb.mode.any = true) (h : wrPortCfg s d l w = a) :
    exec (.portConfigWrite d l w) s = .next (wrResult a) := by
  show execPortConfigWrite d l w s = _
  unfold execPortConfigWrite
  rw [hostDieWr_live _ _ _ _ hd hm (Or.inr rfl), h]

end

/-- Settles O13: the outcomes of R489 one by one, and those of a write of the port configuration. -/
theorem portsReceiveAndConfigure : Obligations.PortsReceiveAndConfigure := by
  intro s
  refine ⟨fun p f hd ho => onDie_eq hd (if_neg (by simp [ho])), fun p f u hd ho hu => ?_, fun p f u hd ho hf hu => ?_, fun d l w hd hm hh hlo hhi ha hc hp => ?_, fun d l w hd hm => ?_⟩
  · subst hu
    refine ⟨s.heard_counts p _ _, fun hf => ?_⟩
    rw [execFrameReceive_on hd ho, if_neg (by simp [hf])]
    rfl
  · have hx : exec (.frameReceive p f) s = .next (noteTail (checkFrame u p f) p) := by
      rw [execFrameReceive_on hd ho, if_pos hf, hu]
      rfl
    rw [hx]
    refine ⟨fun hc => by rw [checkFrame_code hc], fun hc hg hup => ?_⟩
    rw [checkFrame_noCode hc hg hup]
    refine ⟨fun hov => by rw [if_pos hov], fun hov => ?_⟩
    rw [if_neg (Nat.not_lt.mpr hov)]
    refine ⟨fun hr => by rw [if_pos hr], fun hr hfc => ?_, fun hr hfc => ?_⟩
    · rw [if_neg (Nat.not_lt.mpr hr), if_pos (by simp [hfc])]
    · rw [if_neg (Nat.not_lt.mpr hr), if_neg (by simp [hfc])]
      refine ⟨fun hct => ?_, fun hct had => ?_, fun hct had hwm hisl d region hi => ?_⟩
      · exact congrArg (fun t => Host.Outcome.next (noteTail t p)) (if_pos hct)
      · exact congrArg (fun t => Host.Outcome.next (noteTail t p)) ((if_neg hct).trans (if_pos (by simp [had])))
      · have hrx : (let t := countRx u p f.bytes.length
            if beNat ((f.bytes.drop 12).take 2) = 0x8808 then t.bump .LPX_RX_CTRL (p / 4) [p % 4]
            else if ¬ u.admits p f then t.bump .GLB_CLOSED_DROP 0 [p]
            else if u.glb.warm.isSome then { t.bump .GLB_WARM_LOST 0 [1] with glb := { t.glb with lostFlight := t.glb.lostFlight + 1 } }
            else if f.islandFull ∧ u.excluded (p / 4) then t.bump .PFB_TAKEOVER_DROP (p / 4)
            else receiveFrame (noteRx t (p / 4)) p f.bytes) = receiveFrame (noteRx (countRx u p f.bytes.length) (p / 4)) p f.bytes := by
          dsimp only
          rw [if_neg hct, if_neg (by simp [had]), if_neg (by simp [hwm]), if_neg hisl]
        rw [hrx]
        have hroute : ∀ b, (noteRx (countRx u p f.bytes.length) (p / 4)).noRoute (p / 4) b = s.noRoute (p / 4) b := fun b => hu ▸ noRoute_counted p _ _ _ _ b
        refine ⟨fun hn => ?_, fun hn c h v hcl hal htw => ?_⟩
        · rw [receiveFrame_noRoute hi ((hroute d).trans hn)]
        · rw [receiveFrame_buffer hi ((hroute d).trans hn) hcl hal htw]
          have ha : (noteRx (countRx u p f.bytes.length) (p / 4)).prs = u.prs := (noteRx_keeps.frame .prs (by decide)).trans (countRx_keeps.frame .prs (by decide))
          rw [ha]
  · refine execPortConfigWrite_eq hd hm ?_
    have hmode : ¬ (fld w 19 16 ≠ fld (s.reg .LPX_PORT_CFG d [l]) 19 16 ∧ s.glb.mode ≠ .provision) := fun h => hp.elim h.1 h.2
    unfold wrPortCfg
    dsimp only
    rw [if_neg (by rw [hh]; decide), if_neg (by omega), if_neg (by simp [ha, hc]), if_neg hmode]
  · exact ⟨fun h => execPortConfigWrite_eq hd hm (wrPortCfg_held h), fun h hb => execPortConfigWrite_eq hd hm (wrPortCfg_bad h hb)⟩

end Sys2Proof.Machine

/-! PROOFS. The inputs of the phase receiver (spec/02 R36 to R46, spec/18 R535). -/

namespace Sys2Proof.Machine

/-! An address that an operation does not write. -/

/-- From s to t the registers stay listed once, and the word at address a stays. -/
structure Spares (a : Nat) (s t : State) : Prop where
  rise : mrise 0 s.regs = true → mrise 0 t.regs = true
  same : mrise 0 s.regs = true → mfind t.regs a = mfind s.regs a

theorem Writes.spares {A : List Nat} {a : Nat} {s t : State} (h : Writes A s t) (ha : a ∉ A) : Spares a s t := ⟨h.rise, fun hr => h.same hr a ha⟩

namespace Spares

variable {a : Nat} {s t u : State}

theorem of_eq (h : t.regs = s.regs) : Spares a s t := ⟨fun hr => h ▸ hr, fun _ => by rw [h]⟩

theorem of_keeps {l : List Piece} (h : Keeps l s t) (hl : Piece.regs ∉ l) : Spares a s t := of_eq (h.frame .regs hl)

theorem refl (s : State) : Spares a s s := of_eq rfl

theorem after (h : Spares a t u) (k : Spares a s t) : Spares a s u := ⟨fun hr => h.rise (k.rise hr), fun hr => (h.same (k.rise hr)).trans (k.same hr)⟩

theorem on (h : Spares a s t) (e : u.regs = t.regs) : Spares a s u := after (of_eq e) h

theorem ite {c : Prop} [Decidable c] (h : Spares a s t) (k : Spares a s u) : Spares a s (if c then t else u) := by
  split
  · exact h
  · exact k

theorem foldl {α : Type} {f : State → α → State} {xs : List α} (hf : ∀ t x, Spares a t (f t x)) (s : State) : Spares a s (xs.foldl f s) :=
  foldl_keep (Spares a s) f (fun t x h => (hf t x).after h) xs s (refl s)

theorem rf {r : Reg} {d hi lo : Nat} {idx : List Nat} (h : Spares (r.addr d idx) s t) (hr : mrise 0 s.regs = true) : t.rf r d idx hi lo = s.rf r d idx hi lo := by
  unfold State.rf State.reg mget
  rw [h.same hr]

end Spares

/-! What the phase receiver keeps of its inputs. -/

/-- Both inputs. -/
def State.inputs (s : State) : PhIn × PhIn := (s.phi.inA, s.phi.inB)

section
variable {s t : State}

theorem Fixes.inputs_of_phi (h : t.phi = s.phi) : Fixes State.inputs s t := by
  unfold Fixes State.inputs
  rw [h]

theorem Fixes.phIn (h : Fixes State.inputs s t) (i : PhInp) : t.phIn i = s.phIn i := by
  cases i
  · exact congrArg Prod.fst h
  · exact congrArg Prod.snd h

theorem phIn_setPhIn (s : State) (i : PhInp) (x : PhIn) : (s.setPhIn i x).phIn i = x ∧ (s.setPhIn i x).phIn (otherInp i) = s.phIn (otherInp i) := by
  cases i <;> exact ⟨rfl, rfl⟩

theorem setPhase_inputs (st : PhSt) (src : PhSrc) : Fixes State.inputs s (setPhase s st src) := by
  unfold Fixes State.inputs
  rw [setPhase_phi_ever]

theorem takePeriod_inputs (i : PhInp) : Fixes State.inputs s (takePeriod s i) := by
  unfold Fixes State.inputs
  rw [takePeriod_phi]

theorem phEvent_inputs (c : Nat) (l : List Nat) : Fixes State.inputs s (phEvent s c l) := .inputs_of_phi (phEvent_phi _ _ _)

theorem toHoldover_inputs : Fixes State.inputs s (toHoldover s) := by
  unfold toHoldover toLost
  exact .ite ((phEvent_inputs _ _).after (setPhase_inputs _ _)) ((phEvent_inputs _ _).after ((setPhase_inputs _ _).after (show Fixes _ _ _ from rfl)))

theorem switchTo_inputs (i : PhInp) : Fixes State.inputs s (switchTo s i) :=
  (phEvent_inputs _ _).after ((setPhase_inputs _ _).after (takePeriod_inputs _))

theorem becameHealthy_inputs (i : PhInp) : Fixes State.inputs s (becameHealthy s i) := by
  unfold becameHealthy
  split
  · exact .ite (.refl s) (phEvent_inputs _ _)
  · exact (show Fixes _ _ _ from rfl)
  · refine .ite ?_ (.ite (show Fixes _ _ _ from rfl) (.refl s))
    exact (Fixes.inputs_of_phi (State.setReg_keeps.frame .phi (by decide))).after ((phEvent_inputs _ _).after ((setPhase_inputs _ _).after ((takePeriod_inputs _).after (show Fixes _ _ _ from rfl))))
  · exact .ite (show Fixes _ _ _ from rfl) (.refl s)
  · exact .refl s

theorem inputFailed_inputs (i : PhInp) (c : Nat) : Fixes State.inputs s (inputFailed s i c) := by
  unfold inputFailed
  extract_lets was _ t
  have ht : Fixes State.inputs s t := .ite (show Fixes _ _ _ from rfl) (.refl s)
  split
  · exact Fixes.after (show Fixes _ _ _ from rfl) ht
  · exact .ite (.ite ((switchTo_inputs _).after ht) (toHoldover_inputs.after ht)) ((phEvent_inputs _ _).after ht)
  · exact .ite ((becameHealthy_inputs _).after ht) ht
  · exact .ite ((becameHealthy_inputs _).after ht) ht
  · exact ht

/-- A step of the phase leaves what is kept of the inputs. -/
theorem advance_inputs (lanes : List (Fin 8 × Nat)) : Fixes State.inputs s (advance s lanes) := by
  unfold Fixes State.inputs
  rw [advance_phi]

/-- The part of a failed check that concerns the input alone: one that was healthy is not, its numbering restarting after failed marks (R46; log 72). -/
def PhIn.failed (x : PhIn) (c : Nat) : PhIn := if x.healthy then if c = 3 then unnumber (failIn x) else failIn x else x

/-- A failed check leaves the other input (R46, R49). -/
theorem failCheck_input (i : PhInp) (c : Nat) :
    (failCheck s i c).phIn i = (s.phIn i).failed c ∧ (failCheck s i c).phIn (otherInp i) = s.phIn (otherInp i) := by
  unfold failCheck PhIn.failed
  extract_lets x guess t _
  split
  · have ht : Fixes State.inputs t (inputFailed { t with phi := { t.phi with estimated := t.phi.estimated || guess } } i c) := (inputFailed_inputs _ _).after (show Fixes _ _ _ from rfl)
    obtain ⟨hself, hother⟩ := phIn_setPhIn s i (if c = 3 then unnumber (failIn x) else failIn x)
    exact ⟨(ht.phIn i).trans hself, (ht.phIn _).trans hother⟩
  · exact ⟨rfl, rfl⟩

theorem PhIn.failed_healthy (x : PhIn) (c : Nat) : (x.failed c).healthy = false := by
  unfold PhIn.failed
  split
  · split <;> rfl
  · simpa using ‹¬ x.healthy = true›

theorem PhIn.failed_same (x : PhIn) (c : Nat) : (x.failed c).seen = x.seen ∧ (x.failed c).periods = x.periods ∧ (x.failed c).stepOk = x.stepOk ∧ (x.failed c).whole = x.whole
    ∧ (x.failed c).wordOk = x.wordOk ∧ (x.failed c).badWords = x.badWords := by
  unfold PhIn.failed
  split
  · split <;> exact ⟨rfl, rfl, rfl, rfl, rfl, rfl⟩
  · exact ⟨rfl, rfl, rfl, rfl, rfl, rfl⟩

end

/-! An edge. -/

/-- An input behind an edge: its measurement and numbering; the Bool tells a failed mark check (R46, R535). -/
def State.edged (s : State) (i : PhInp) (mark : Bool) (period : Nat) : Bool × PhIn :=
  numberStep s.xlen mark { measure (s.phIn i) period with stepOk := !rateFails (s.rf .PHI_TOL 0 [] 15 0) (measure (s.phIn i) period).periods }

/-- The check that an input fails at an edge, if one (R46). -/
def State.edgeFault (s : State) (i : PhInp) (mark : Bool) (period : Nat) : Option Nat :=
  if rateFails (s.rf .PHI_TOL 0 [] 15 0) (measure (s.phIn i) period).periods then some 2 else if 2 ≤ (takeBit mark (s.edged i mark period).2).badMarks then some 3 else none

section
variable {s : State} {i : PhInp} {mark : Bool} {period : Nat}

/-- An edge in terms of what it makes of its input. -/
theorem trackEdge_edged : trackEdge s i mark period = (s.edgeFault i mark period,
    if (s.edged i mark period).1 then (s.setPhIn i (takeBit mark (s.edged i mark period).2)).bumpF .PHI_ERR 0 [inpNo i] 31 16 1 else s.setPhIn i (takeBit mark (s.edged i mark period).2)) := rfl

theorem trackEdge_input : (trackEdge s i mark period).2.phIn i = takeBit mark (s.edged i mark period).2 ∧ (trackEdge s i mark period).2.phIn (otherInp i) = s.phIn (otherInp i) := by
  rw [trackEdge_edged]
  obtain ⟨hself, hother⟩ := phIn_setPhIn s i (takeBit mark (s.edged i mark period).2)
  have h : Fixes State.inputs (s.setPhIn i (takeBit mark (s.edged i mark period).2)) (if (s.edged i mark period).1 then (s.setPhIn i (takeBit mark (s.edged i mark period).2)).bumpF .PHI_ERR 0 [inpNo i] 31 16 1 else s.setPhIn i (takeBit mark (s.edged i mark period).2)) :=
    .ite (.inputs_of_phi (State.bumpF_phi _ _ _ _ _ _ _)) (.refl _)
  exact ⟨(h.phIn i).trans hself, (h.phIn _).trans hother⟩

theorem numberStep_same (xlen : Nat) (x : PhIn) :
    (numberStep xlen mark x).2.seen = x.seen ∧ (numberStep xlen mark x).2.periods = x.periods ∧ (numberStep xlen mark x).2.stepOk = x.stepOk
      ∧ (numberStep xlen mark x).2.healthy = x.healthy := by
  unfold numberStep
  split
  · split <;> exact ⟨rfl, rfl, rfl, rfl⟩
  · dsimp only
    split
    · split <;> exact ⟨rfl, rfl, rfl, rfl⟩
    · split
      · split <;> exact ⟨rfl, rfl, rfl, rfl⟩
      · exact ⟨rfl, rfl, rfl, rfl⟩

theorem takeBit_same (x : PhIn) :
    ∃ b w h, takeBit mark x = { x with bits := b, wstart := w, whole := h } := by
  unfold takeBit
  split
  · split
    · exact ⟨_, _, _, rfl⟩
    · exact ⟨_, _, _, rfl⟩
  · split <;> exact ⟨_, _, _, rfl⟩

end

/-! Which registers the changes of the phase write. -/

/-- The words that the changes of the phase state write. -/
def phaseRegs : List Nat := [Reg.addr .PHI_STATE 0 [], Reg.addr .PHI_JUMP 0 [], Reg.addr .PHI_SKEW_CNT 0 [], Reg.addr .GWE_EVT_LOST 0 []]

theorem phiState_mem : Reg.addr .PHI_STATE 0 [] ∈ phaseRegs := by simp [phaseRegs]
theorem phiJump_mem : Reg.addr .PHI_JUMP 0 [] ∈ phaseRegs := by simp [phaseRegs]
theorem skewCnt_mem : Reg.addr .PHI_SKEW_CNT 0 [] ∈ phaseRegs := by simp [phaseRegs]
theorem evtLost_mem : Reg.addr .GWE_EVT_LOST 0 [] ∈ phaseRegs := by simp [phaseRegs]

theorem Writes.after {A : List Nat} {s t u : State} (h : Writes A t u) (k : Writes A s t) : Writes A s u := k.trans h

section
variable {s : State}

theorem phEvent_writes (c : Nat) (l : List Nat) : Writes phaseRegs s (phEvent s c l) := State.raiseEv_writes _ _ _ _ _ evtLost_mem

theorem setPhase_writes (st : PhSt) (src : PhSrc) : Writes phaseRegs s (setPhase s st src) := by
  unfold setPhase
  exact .ite (.refl s) ((Writes.of_keeps settleRounds_keeps (by decide)).after ((State.bumpGen_writes _ .PHI_STATE 0 phiState_mem).after (.of_eq rfl)))

theorem takePeriod_writes (i : PhInp) : Writes phaseRegs s (takePeriod s i) := .of_keeps takePeriod_keeps (by decide)

theorem toHoldover_writes : Writes phaseRegs s (toHoldover s) := by
  unfold toHoldover toLost
  exact .ite ((phEvent_writes _ _).after (setPhase_writes _ _)) ((phEvent_writes _ _).after ((setPhase_writes _ _).after (.of_eq rfl)))

theorem switchTo_writes (i : PhInp) : Writes phaseRegs s (switchTo s i) :=
  (phEvent_writes _ _).after ((setPhase_writes _ _).after (takePeriod_writes _))

theorem becameHealthy_writes (i : PhInp) : Writes phaseRegs s (becameHealthy s i) := by
  unfold becameHealthy
  split
  · exact .ite (.refl s) (phEvent_writes _ _)
  · exact .of_eq rfl
  · refine .ite ?_ (.ite (.of_eq rfl) (.refl s))
    exact (State.setReg_writes _ .PHI_JUMP 0 [] _ phiJump_mem).after ((phEvent_writes _ _).after ((setPhase_writes _ _).after ((takePeriod_writes _).after (.of_eq rfl))))
  · exact .ite (.of_eq rfl) (.refl s)
  · exact .refl s

theorem inputFailed_writes (i : PhInp) (c : Nat) : Writes phaseRegs s (inputFailed s i c) := by
  unfold inputFailed
  extract_lets was _ t
  have ht : Writes phaseRegs s t := .ite (.of_eq rfl) (.refl s)
  split
  · exact ht.trans (.of_eq rfl)
  · exact .ite (.ite ((switchTo_writes _).after ht) (toHoldover_writes.after ht)) ((phEvent_writes _ _).after ht)
  · exact .ite ((becameHealthy_writes _).after ht) ht
  · exact .ite ((becameHealthy_writes _).after ht) ht
  · exact ht

theorem failCheck_writes (i : PhInp) (c : Nat) : Writes phaseRegs s (failCheck s i c) := by
  unfold failCheck
  exact .ite ((inputFailed_writes _ _).after (.of_eq (setPhIn_regs _ _ _))) (.refl s)

theorem phiErr_notMem_phaseRegs (i : PhInp) : Reg.addr .PHI_ERR 0 [inpNo i] ∉ phaseRegs := by
  cases i <;> simp [phaseRegs, Reg.addr, Reg.info, dimSum, inpNo]

theorem portStat_ne_phiErr (d k : Nat) (i : PhInp) : Reg.addr .PHI_ERR 0 [inpNo i] ≠ Reg.addr .CTE_PORT_STAT d [k] := by
  cases i <;> simp [Reg.addr, Reg.info, dimSum, inpNo, dieBase] <;> omega

/-- A step leaves the counters of the inputs. -/
theorem advance_spares_phiErr (lanes : List (Fin 8 × Nat)) (i : PhInp) : Spares (Reg.addr .PHI_ERR 0 [inpNo i]) s (advance s lanes) := by
  have hne := phiErr_notMem_phaseRegs i
  have hbps : ∀ u : State, Spares (Reg.addr .PHI_ERR 0 [inpNo i]) u (recomputeBps u) := fun u =>
    .foldl (fun t p => (t.setRf_writes .CTE_PORT_STAT (p / 4) [p % 4] 15 0 _ (A := [Reg.addr .CTE_PORT_STAT (p / 4) [p % 4]])).spares (by simpa using portStat_ne_phiErr _ _ i)) u
  have hskew : ∀ (u : State) (d : Nat), Writes phaseRegs u (skewDie d u) := fun u d => by
    unfold skewDie
    refine .ite ?_ (.refl u)
    exact (State.raiseEv_writes _ _ _ _ _ evtLost_mem).after ((u.bumpF_writes .PHI_SKEW_CNT 0 [] 23 0 1 skewCnt_mem).trans (.of_eq rfl))
  have hbegin : ∀ (u : State) was, Spares (Reg.addr .PHI_ERR 0 [inpNo i]) u (beginCrossing u was) := fun u was =>
    Spares.after (.foldl (fun t d => (hskew t d).spares hne) _) ((hbps _).after (.of_eq rfl))
  have hlanes : ∀ u x, u = laneStep (drainPorts s) lanes → Spares (Reg.addr .PHI_ERR 0 [inpNo i]) s { u with phi := x } := fun u x h =>
    
    ((Spares.of_eq (laneStep_only _ lanes .regs (by decide))).after (.of_keeps drainPorts_keeps (by decide))).on (h ▸ rfl)
  unfold advance
  exact (Spares.of_keeps stepBanks_keeps (by decide)).after (.ite ((hbegin _ _).after (hlanes _ _ rfl)) (hlanes _ _ rfl))

end

/-! The input behind an edge. -/

section
variable {s : State} {i : PhInp} {mark : Bool} {period : Nat}

theorem measure_eq (x : PhIn) : measure x period = { x with seen := true, periods := if x.seen then (period :: x.periods).take 4096 else [] } := by
  unfold measure
  split
  · next h => rw [← h]
  · rfl

/-- What an edge makes of its input (R46, R535). -/
def State.edgeIn (s : State) (i : PhInp) (mark : Bool) (period : Nat) : PhIn := takeBit mark (s.edged i mark period).2

theorem edgeIn_same : (s.edgeIn i mark period).seen = true ∧ (s.edgeIn i mark period).periods = (measure (s.phIn i) period).periods
    ∧ (s.edgeIn i mark period).stepOk = !rateFails (s.rf .PHI_TOL 0 [] 15 0) (measure (s.phIn i) period).periods ∧ (s.edgeIn i mark period).healthy = (s.phIn i).healthy := by
  obtain ⟨b, w, h, hb⟩ := takeBit_same (mark := mark) (s.edged i mark period).2
  obtain ⟨hs, hp, ho, hh⟩ := numberStep_same (mark := mark) s.xlen { measure (s.phIn i) period with stepOk := !rateFails (s.rf .PHI_TOL 0 [] 15 0) (measure (s.phIn i) period).periods }
  unfold State.edgeIn
  rw [hb]
  exact ⟨hs.trans (by rw [measure_eq]), hp, ho, hh.trans (by rw [measure_eq])⟩

theorem edgeIn_numbers : (s.edgeIn i mark period).stepNo = (s.edged i mark period).2.stepNo ∧ (s.edgeIn i mark period).xing = (s.edged i mark period).2.xing
    ∧ (s.edgeIn i mark period).badMarks = (s.edged i mark period).2.badMarks := by
  obtain ⟨b, w, h, hb⟩ := takeBit_same (mark := mark) (s.edged i mark period).2
  unfold State.edgeIn
  rw [hb]
  exact ⟨rfl, rfl, rfl⟩

/-- Of the words that an edge of the active input takes in, none of an input changes but its own edge. -/
theorem edgeTaken_inputs : Fixes State.inputs (trackEdge s i mark period).2 (s.edgeTaken i mark period) ∧ Writes phaseRegs (trackEdge s i mark period).2 (s.edgeTaken i mark period) := by
  unfold State.edgeTaken
  exact ⟨Fixes.after (show Fixes _ _ _ from rfl) (.ite (takePeriod_inputs _) (.refl _)), .trans (.ite (takePeriod_writes _) (.refl _)) (.of_eq rfl)⟩

/-- An edge in two parts: what it makes of its input, the phase moving on, and the check that failed (R55). -/
theorem stepEdge_settled (lag : Nat) (lanes : List (Fin 8 × Nat)) (hst : s.phi.st ≠ .self) (hp : s.pinsReset = false) :
    ∃ u, Fixes State.inputs (trackEdge s i mark period).2 u ∧ Spares (Reg.addr .PHI_ERR 0 [inpNo i]) (trackEdge s i mark period).2 u
      ∧ (s.isActive i = false → NoStep s u)
      ∧ stepEdge s i mark period lag lanes = (match s.edgeFault i mark period with
        | some c => failCheck u i c
        | none => u) := by
  by_cases ha : s.isActive i = true
  · have hx := stepEdge_of_active mark period lag lanes ha hp
    have hne := phiErr_notMem_phaseRegs i
    obtain ⟨hin, hw⟩ := edgeTaken_inputs (s := s) (i := i) (mark := mark) (period := period)
    unfold State.edgeSettled at hx
    refine ⟨_, ?_, ?_, fun h => absurd ha (by simp [h]), hx⟩
    · exact .ite (Fixes.after (show Fixes _ _ _ from rfl) (.ite hin ((advance_inputs _).after hin))) (.ite hin ((advance_inputs _).after hin))
    · have hsp := Spares.ite (c := s.phi.estimated = true ∧ 2 * lag ≤ s.phi.period) (hw.spares hne) ((advance_spares_phiErr lanes i).after (hw.spares hne))
      exact .ite (hsp.on rfl) hsp
  · refine ⟨(trackEdge s i mark period).2, .refl _, .refl _, fun _ => trackEdge_noStep _ _ _ _, ?_⟩
    unfold stepEdge
    rw [if_neg (by simp [hst, hp])]
    dsimp only
    rw [if_pos ha]
    rfl

/-- What an edge leaves of both inputs (R46). -/
theorem stepEdge_input (lag : Nat) (lanes : List (Fin 8 × Nat)) (hst : s.phi.st ≠ .self) (hp : s.pinsReset = false) :
    (stepEdge s i mark period lag lanes).phIn i = (match s.edgeFault i mark period with
        | some c => (s.edgeIn i mark period).failed c
        | none => s.edgeIn i mark period)
      ∧ (stepEdge s i mark period lag lanes).phIn (otherInp i) = s.phIn (otherInp i) := by
  obtain ⟨u, hin, -, -, hx⟩ := stepEdge_settled (i := i) (mark := mark) (period := period) lag lanes hst hp
  obtain ⟨hself, hother⟩ := trackEdge_input (s := s) (i := i) (mark := mark) (period := period)
  have h1 : u.phIn i = s.edgeIn i mark period := (hin.phIn i).trans hself
  have h2 : u.phIn (otherInp i) = s.phIn (otherInp i) := (hin.phIn _).trans hother
  rw [hx]
  split
  · next c _ =>
    obtain ⟨hf, ho⟩ := failCheck_input (s := u) i c
    exact ⟨hf.trans (congrArg (fun x => x.failed c) h1), ho.trans h2⟩
  · exact ⟨h1, h2⟩

/-- A failed mark check counts (R46). -/
theorem stepEdge_counts (lag : Nat) (lanes : List (Fin 8 × Nat)) (hst : s.phi.st ≠ .self) (hp : s.pinsReset = false) (he : (s.edged i mark period).1 = true)
    (hr : mrise 0 s.regs = true) : (stepEdge s i mark period lag lanes).rf .PHI_ERR 0 [inpNo i] 31 16 = min 65535 (s.rf .PHI_ERR 0 [inpNo i] 31 16 + 1) := by
  obtain ⟨u, -, hu, -, hx⟩ := stepEdge_settled (i := i) (mark := mark) (period := period) lag lanes hst hp
  have hsp : Spares (Reg.addr .PHI_ERR 0 [inpNo i]) (trackEdge s i mark period).2 (stepEdge s i mark period lag lanes) := by
    rw [hx]
    split
    · exact ((failCheck_writes _ _).spares (phiErr_notMem_phaseRegs i)).after hu
    · exact hu
  have hreg : (s.setPhIn i (takeBit mark (s.edged i mark period).2)).regs = s.regs := setPhIn_regs _ _ _
  have ht : (trackEdge s i mark period).2 = (s.setPhIn i (takeBit mark (s.edged i mark period).2)).bumpF .PHI_ERR 0 [inpNo i] 31 16 1 := by
    rw [trackEdge_edged]
    exact if_pos he
  have hb := (s.setPhIn i (takeBit mark (s.edged i mark period).2)).rf_bumpF_self .PHI_ERR 0 [inpNo i] 16 16 1 (hreg ▸ hr) (by decide) (by decide)
  rw [ht] at hsp
  rw [hsp.rf ((State.bumpF_writes (A := [Reg.addr .PHI_ERR 0 [inpNo i]]) _ _ _ _ _ _ _).rise (hreg ▸ hr))]
  rwa [rf_of_regs hreg] at hb

end

/-! The numbering of an input (R37, R40, R46). -/

section
variable {xlen : Nat} {mark : Bool} {x : PhIn}

theorem numberStep_first (h : x.stepNo = none) :
    (numberStep xlen true x).2.stepNo = some 0 ∧ (numberStep xlen true x).2.xing = (x.xing + 1) % 2 ^ 32 ∧ (numberStep xlen true x).2.badMarks = 0 := by
  unfold numberStep
  rw [h]
  exact ⟨rfl, rfl, rfl⟩

theorem numberStep_expected {n : Nat} (h : x.stepNo = some n) (hm : mark = decide ((n + 1) % xlen = 0)) :
    (numberStep xlen mark x).2.stepNo = some ((n + 1) % xlen) ∧ (x.badMarks < 2 → (numberStep xlen mark x).2.badMarks < 2) := by
  unfold numberStep
  rw [h]
  dsimp only
  split
  · next h0 =>
    rw [if_neg (by simp [hm, h0])]
    refine ⟨by simp [h0], fun hb => ?_⟩
    dsimp only
    split <;> omega
  · next h0 =>
    rw [if_neg (by simp [hm, h0])]
    exact ⟨rfl, id⟩

theorem numberStep_unexpected {n : Nat} (hx : x.healthy = true) (h : x.stepNo = some n) (hm : mark ≠ decide ((n + 1) % xlen = 0)) :
    (numberStep xlen mark x).1 = true ∧ (numberStep xlen mark x).2.stepNo = some ((n + 1) % xlen)
      ∧ (numberStep xlen mark x).2.badMarks = (if (n + 1) % xlen = 0 then (if x.markErr then x.badMarks else 0) + 1 else if x.markErr then x.badMarks else x.badMarks + 1) := by
  unfold numberStep
  rw [h]
  dsimp only
  split
  · next h0 =>
    rw [if_pos (by simpa [h0] using hm)]
    exact ⟨rfl, by simp [h0], rfl⟩
  · next h0 =>
    rw [if_pos (by simpa [h0] using hm), hx]
    refine ⟨rfl, rfl, ?_⟩
    dsimp only
    split <;> rfl

/-! The same for the edge of an input of the state. -/

variable {s : State} {i : PhInp} {period : Nat}

theorem edged_first (h : (s.phIn i).stepNo = none) :
    (s.edged i true period).2.stepNo = some 0 ∧ (s.edged i true period).2.xing = ((s.phIn i).xing + 1) % 2 ^ 32 ∧ (s.edged i true period).2.badMarks = 0 := by
  unfold State.edged
  rw [measure_eq]
  exact numberStep_first h

theorem edged_expected {n : Nat} (h : (s.phIn i).stepNo = some n) (hm : mark = decide ((n + 1) % s.xlen = 0)) :
    (s.edged i mark period).2.stepNo = some ((n + 1) % s.xlen) ∧ ((s.phIn i).badMarks < 2 → (s.edged i mark period).2.badMarks < 2) := by
  unfold State.edged
  rw [measure_eq]
  exact numberStep_expected h hm

theorem edged_unexpected {n : Nat} (hx : (s.phIn i).healthy = true) (h : (s.phIn i).stepNo = some n) (hm : mark ≠ decide ((n + 1) % s.xlen = 0)) :
    (s.edged i mark period).1 = true ∧ (s.edged i mark period).2.stepNo = some ((n + 1) % s.xlen)
      ∧ (s.edged i mark period).2.badMarks = (if (n + 1) % s.xlen = 0 then (if (s.phIn i).markErr then (s.phIn i).badMarks else 0) + 1
        else if (s.phIn i).markErr then (s.phIn i).badMarks else (s.phIn i).badMarks + 1) := by
  unfold State.edged
  rw [measure_eq]
  exact numberStep_unexpected hx h hm

end

/-! Phase words and the presence of steps (R38 to R41, R46). -/

section
variable {s : State} {i : PhInp}

/-- The input behind a word that passes its check (R40, R46). -/
def PhIn.heardGood (x : PhIn) (c : Nat) : PhIn :=
  { x with wordOk := true, badWords := 0, seeded := true, good := if x.healthy then x.good else x.good + 1,
           words := if x.healthy then x.words + 1 else 0, xing := if x.seeded then x.xing else (c + sub32 x.xing x.wstart) % 2 ^ 32 }

/-- A good word leaves its input as heard, healthy or not, and the other input. -/
theorem goodWord_input (w : BitVec 56) :
    (∃ h, (goodWord s i w).phIn i = { (s.phIn i).heardGood (bitsOf w.toNat 47 16) with healthy := h }) ∧ (goodWord s i w).phIn (otherInp i) = s.phIn (otherInp i) := by
  unfold goodWord
  extract_lets x c y
  split
  · obtain ⟨hself, hother⟩ := phIn_setPhIn s i { y with healthy := true }
    exact ⟨⟨true, ((becameHealthy_inputs i).phIn i).trans hself⟩, ((becameHealthy_inputs i).phIn _).trans hother⟩
  · obtain ⟨hself, hother⟩ := phIn_setPhIn s i y
    exact ⟨⟨y.healthy, hself⟩, hother⟩

/-- A good word of the active input leaves the registers, the phase state and the source (R49). -/
theorem goodWord_active {w : BitVec 56} (ha : s.isActive i = true) :
    (goodWord s i w).regs = s.regs ∧ (goodWord s i w).isActive i = true := by
  have hact : ∀ y, (s.setPhIn i y).isActive i = true := fun y => by
    rw [isActive_iff, setPhIn_st, setPhIn_src]
    exact (isActive_iff s i).mp ha
  have hb : ∀ y, becameHealthy (s.setPhIn i y) i = s.setPhIn i y := fun y => by
    unfold becameHealthy
    rw [((isActive_iff _ i).mp (hact y)).1]
    exact if_pos (hact y)
  unfold goodWord
  extract_lets x c y
  split
  · rw [hb]
    exact ⟨setPhIn_regs _ _ _, hact _⟩
  · exact ⟨setPhIn_regs _ _ _, hact _⟩

/-- The input behind a word that fails its check, before a second one in a row makes it fail (R40, R46). -/
def PhIn.heardBad (x : PhIn) : PhIn :=
  { x with wordOk := false, badWords := x.badWords + 1, good := 0, seeded := x.seeded && x.healthy, words := if x.healthy then x.words + 1 else 0 }

theorem badWord_input : (badWord s i).phIn i = (if (s.phIn i).healthy = true ∧ 2 ≤ (s.phIn i).badWords + 1 then (s.phIn i).heardBad.failed 4 else (s.phIn i).heardBad)
    ∧ (badWord s i).phIn (otherInp i) = s.phIn (otherInp i) := by
  unfold badWord
  extract_lets x y t
  obtain ⟨hself, hother⟩ := phIn_setPhIn s i y
  have ht : Fixes State.inputs (s.setPhIn i y) t := .inputs_of_phi (State.bumpF_phi _ _ _ _ _ _ _)
  have h1 : t.phIn i = y := (ht.phIn i).trans hself
  have h2 := (ht.phIn (otherInp i)).trans hother
  obtain ⟨hf, ho⟩ := failCheck_input (s := t) i 4
  by_cases hc : x.healthy = true ∧ 2 ≤ y.badWords
  · rw [if_pos hc, if_pos (show (s.phIn i).healthy = true ∧ 2 ≤ (s.phIn i).badWords + 1 from hc)]
    exact ⟨hf.trans (congrArg (fun x => x.failed 4) h1), ho.trans h2⟩
  · rw [if_neg hc, if_neg (show ¬ ((s.phIn i).healthy = true ∧ 2 ≤ (s.phIn i).badWords + 1) from hc)]
    exact ⟨h1, h2⟩

theorem PhIn.heardBad_failed_good (x : PhIn) (c : Nat) : (x.heardBad.failed c).good = 0 := by
  unfold PhIn.failed
  split
  · split <;> rfl
  · rfl

theorem selectCopy_inputs (w : BitVec 56) : Fixes State.inputs s (selectCopy s i w) := .inputs_of_phi (selectCopy_keeps.frame .phi (by decide))

theorem copySrc_of_active {t : State} (h : t.regs = s.regs) (ha : s.isActive i = true) (hb : t.isActive i = true) : t.copySrc = s.copySrc := by
  unfold State.copySrc
  rw [reg_of_regs h, ((isActive_iff s i).mp ha).2, ((isActive_iff t i).mp hb).2]

theorem selectCopy_selects {w : BitVec 56} (ha : s.isActive i = true) (hc : s.copySrc = true) : (selectCopy s i w).cte.nextCopy = some (bitsOf w.toNat 8 8, none) := by
  unfold selectCopy
  rw [if_pos ⟨ha, hc⟩]

theorem setPhIn_only (x : PhIn) : only [.phi] s (s.setPhIn i x) := by
  cases i <;> exact phi_only _ _

/-- The input of an absent step behind it, before it fails (R46, R535). -/
def PhIn.unseen (x : PhIn) : PhIn := { unnumber x with seen := false, periods := [], stepOk := false, seeded := false, good := 0, bits := 0, whole := false }

theorem PhIn.unseen_failed (x : PhIn) (c : Nat) : (x.unseen.failed c).seen = false ∧ (x.unseen.failed c).stepNo = none ∧ (x.unseen.failed c).periods = [] := by
  unfold PhIn.failed
  split
  · split <;> exact ⟨rfl, rfl, rfl⟩
  · exact ⟨rfl, rfl, rfl⟩

theorem failCheck_unseen : only [.regs, .phi, .cte, .gwe] s (failCheck (s.setPhIn i (s.phIn i).unseen) i 1)
    ∧ (failCheck (s.setPhIn i (s.phIn i).unseen) i 1).phIn i = (s.phIn i).unseen.failed 1
    ∧ (failCheck (s.setPhIn i (s.phIn i).unseen) i 1).phIn (otherInp i) = s.phIn (otherInp i) := by
  obtain ⟨hself, hother⟩ := phIn_setPhIn s i (s.phIn i).unseen
  obtain ⟨hf, ho⟩ := failCheck_input (s := s.setPhIn i (s.phIn i).unseen) i 1
  exact ⟨only_trans (only_mono (by simp) (setPhIn_only _)) (failCheck_keeps.frame), hf.trans (congrArg (fun x => x.failed 1) hself), ho.trans hother⟩

/-- What a whole word makes of the state: it passes its check, or fails it (R40). -/
theorem execPhaseWord_whole {w : BitVec 56} (hst : s.phi.st ≠ .self) (hp : s.pinsReset = false) (hw : (s.phIn i).whole = true) :
    exec (.phaseWord i w) s = .next (if wordGood w = true ∧ ((s.phIn i).seeded = true → bitsOf w.toNat 47 16 = (s.phIn i).wstart)
      then selectCopy (goodWord (s.setPhIn i { s.phIn i with whole := false }) i w) i w else badWord (s.setPhIn i { s.phIn i with whole := false }) i) := by
  refine congrArg Host.Outcome.next ((if_neg (by simp [hst, hp, hw])).trans ?_)
  simp only [imp_iff_not_or]

end

/-- A word that passes its check (R40, R41, R46). -/
theorem phaseWord_good {s : State} {i : PhInp} {w : BitVec 56} {t : State} (ht : t = selectCopy (goodWord (s.setPhIn i { s.phIn i with whole := false }) i w) i w) :
    t.phIn (otherInp i) = s.phIn (otherInp i) ∧ (t.phIn i).whole = false ∧ (t.phIn i).wordOk = true ∧ (t.phIn i).badWords = 0 ∧ (t.phIn i).seeded = true
      ∧ ((s.phIn i).seeded = false → (t.phIn i).xing = (bitsOf w.toNat 47 16 + sub32 (s.phIn i).xing (s.phIn i).wstart) % 2 ^ 32)
      ∧ (s.isActive i = true → s.copySrc = true → t.cte.nextCopy = some (bitsOf w.toNat 8 8, none)) := by
  subst ht
  obtain ⟨hself, hother⟩ := phIn_setPhIn s i { s.phIn i with whole := false }
  have hact : (s.setPhIn i { s.phIn i with whole := false }).isActive i = s.isActive i := by cases i <;> rfl
  have hregs := setPhIn_regs s i { s.phIn i with whole := false }
  generalize s.setPhIn i { s.phIn i with whole := false } = u at *
  obtain ⟨⟨h, hg⟩, ho⟩ := goodWord_input (s := u) (i := i) w
  have hs : (selectCopy (goodWord u i w) i w).phIn i = _ := ((selectCopy_inputs w).phIn i).trans hg
  refine ⟨((selectCopy_inputs w).phIn _).trans (ho.trans hother), ?_⟩
  rw [hs, hself]
  refine ⟨rfl, rfl, rfl, rfl, fun hsd => if_neg (by simp [hsd]), fun ha hc => ?_⟩
  obtain ⟨hr, hact'⟩ := goodWord_active (w := w) (hact.trans ha)
  exact selectCopy_selects hact' ((copySrc_of_active (hr.trans hregs) ha hact').trans hc)

/-- A word that fails its check (R40, R46). -/
theorem phaseWord_bad {s : State} {i : PhInp} {t : State} (ht : t = badWord (s.setPhIn i { s.phIn i with whole := false }) i) :
    t.phIn (otherInp i) = s.phIn (otherInp i) ∧ (t.phIn i).whole = false ∧ (t.phIn i).wordOk = false ∧ (t.phIn i).badWords = (s.phIn i).badWords + 1 ∧ (t.phIn i).good = 0
      ∧ (1 ≤ (s.phIn i).badWords → (t.phIn i).healthy = false) := by
  subst ht
  obtain ⟨hself, hother⟩ := phIn_setPhIn s i { s.phIn i with whole := false }
  generalize s.setPhIn i { s.phIn i with whole := false } = u at *
  obtain ⟨hb, ho⟩ := badWord_input (s := u) (i := i)
  refine ⟨ho.trans hother, ?_⟩
  rw [hb, hself]
  split
  · obtain ⟨-, -, -, hwh, hok, hbw⟩ := PhIn.failed_same ({ s.phIn i with whole := false } : PhIn).heardBad 4
    exact ⟨hwh, hok, hbw, PhIn.heardBad_failed_good _ _, fun _ => PhIn.failed_healthy _ _⟩
  · next hc =>
    refine ⟨rfl, rfl, rfl, rfl, fun h1 => ?_⟩
    by_contra hh
    exact hc ⟨by simpa [PhIn.heardBad] using hh, by dsimp only; omega⟩

/-- The checks of an edge that its input passes, or fails (R46, R535). -/
theorem stepEdge_checks {s : State} {i : PhInp} {mark : Bool} {period lag : Nat} {lanes : List (Fin 8 × Nat)} {l : List Nat} {t : State} (hst : s.phi.st ≠ .self) (hp : s.pinsReset = false)
    (hl : l = (measure (s.phIn i) period).periods) (ht : t = stepEdge s i mark period lag lanes) :
    (t.phIn i).seen = true ∧ (t.phIn i).periods = l
      ∧ (rateFails (s.rf .PHI_TOL 0 [] 15 0) l = true → (t.phIn i).healthy = false ∧ (t.phIn i).stepOk = false)
      ∧ (rateFails (s.rf .PHI_TOL 0 [] 15 0) l = false →
        (2 ≤ (s.edgeIn i mark period).badMarks → t.phIn i = (s.edgeIn i mark period).failed 3) ∧ ((s.edgeIn i mark period).badMarks < 2 → t.phIn i = s.edgeIn i mark period)) := by
  subst hl ht
  obtain ⟨hin, -⟩ := stepEdge_input (i := i) (mark := mark) (period := period) lag lanes hst hp
  obtain ⟨hseen, hper, hok, -⟩ := edgeIn_same (s := s) (i := i) (mark := mark) (period := period)
  have hfault : s.edgeFault i mark period = _ := rfl
  unfold State.edgeFault at hfault
  rw [hin]
  refine ⟨?_, ?_, fun hr => ?_, fun hr => ⟨fun h2 => ?_, fun h2 => ?_⟩⟩
  · split
    · exact (PhIn.failed_same _ _).1.trans hseen
    · exact hseen
  · split
    · exact (PhIn.failed_same _ _).2.1.trans hper
    · exact hper
  · have hf : s.edgeFault i mark period = some 2 := if_pos hr
    rw [hf]
    exact ⟨PhIn.failed_healthy _ _, (PhIn.failed_same _ _).2.2.1.trans (by rw [hok, hr]; rfl)⟩
  · have hf : s.edgeFault i mark period = some 3 := (if_neg (by simp [hr])).trans (if_pos h2)
    rw [hf]
  · have hf : s.edgeFault i mark period = none := (if_neg (by simp [hr])).trans (if_neg (Nat.not_le.mpr h2))
    rw [hf]

/-- The period of an edge outside 5 ns to 40 ns fails the rate check (R46). -/
theorem rateFails_single {tol period : Nat} {r : List Nat} (h : period < 5000000 ∨ 40000000 < period) : rateFails tol ((period :: r).take 4096) = true := by
  unfold rateFails
  rw [List.take_cons (by decide)]
  rcases h with h | h <;> simp [h]

/-- Settles O8: the edges by `stepEdge_checks`, the words by `phaseWord_good` and `phaseWord_bad`. -/
theorem phaseInputsKeepTheirChecks : Obligations.PhaseInputsKeepTheirChecks := by
  intro s inp
  refine ⟨fun hp => ⟨fun w => congrArg Host.Outcome.next (if_pos (by simp [hp])), fun mark period x => congrArg Host.Outcome.next (if_pos (by simp [hp])),
    congrArg Host.Outcome.next (if_pos (by simp [hp]))⟩, fun hst hp => ⟨fun mark period x l hl => ?_, fun w hw => ?_, fun hs => ?_⟩⟩
  · have hl' : l = (measure (s.phIn inp) period).periods := by rw [hl, measure_eq]
    obtain ⟨-, hother⟩ := stepEdge_input (i := inp) (mark := mark) (period := period) x.lag x.lanes hst hp
    obtain ⟨hseen, hper, hbad, hgood⟩ := stepEdge_checks (lag := x.lag) (lanes := x.lanes) (mark := mark) hst hp hl' rfl
    obtain ⟨hno, hxing, hbm⟩ := edgeIn_numbers (s := s) (i := inp) (mark := mark) (period := period)
    obtain ⟨-, -, -, hheal⟩ := edgeIn_same (s := s) (i := inp) (mark := mark) (period := period)
    refine ⟨_, rfl, hother, hseen, hper, fun ha => ?_, hbad, fun hs hpd => (hbad ?_).1, fun hr => ⟨fun hn hm => ?_, fun n e b hh hn he hb => ⟨fun hm h2 => ?_, fun hm => ⟨fun hI => ?_, fun h2 => ?_, fun h2 => ?_⟩⟩⟩⟩
    · obtain ⟨u, -, -, hu, hx⟩ := stepEdge_settled (i := inp) (mark := mark) (period := period) x.lag x.lanes hst hp
      have hns : NoStep s (stepEdge s inp mark period x.lag x.lanes) := by
        rw [hx]
        split
        · exact (hu ha).trans (failCheck_noStep _ _ _)
        · exact hu ha
      obtain ⟨h1, h2, h3, -⟩ := hns.numbers
      exact ⟨h1, h2, h3, hns.frame⟩
    · rw [hl, if_pos hs]
      exact rateFails_single hpd
    · subst hm
      obtain ⟨h1, h2, h3⟩ := edged_first (s := s) (i := inp) (period := period) hn
      rw [(hgood hr).2 (by rw [hbm, h3]; decide), hno, hxing]
      exact ⟨h1, h2⟩
    · subst he
      obtain ⟨h1, h3⟩ := edged_expected (period := period) hn hm
      rw [(hgood hr).2 (by rw [hbm]; exact h3 h2), hno, hheal]
      exact ⟨hh, h1⟩
    · exact stepEdge_counts x.lag x.lanes hst hp (edged_unexpected hh hn (he ▸ hm)).1 hI.rise
    · subst he
      obtain ⟨-, h1, h3⟩ := edged_unexpected (period := period) hh hn hm
      have h4 := h3.trans hb.symm
      rw [(hgood hr).2 (by rw [hbm, h4]; exact h2), hno, hheal, hbm]
      exact ⟨hh, h1, h4⟩
    · subst he
      obtain ⟨-, h1, h3⟩ := edged_unexpected (period := period) hh hn hm
      have h4 := h3.trans hb.symm
      rw [(hgood hr).1 (by rw [hbm, h4]; exact h2)]
      exact ⟨PhIn.failed_healthy _ _, by unfold PhIn.failed; rw [if_pos (hheal.trans hh)]; rfl⟩
  · rw [execPhaseWord_whole hst hp hw]
    split
    · next hc =>
      obtain ⟨ho, hwh, hok, hbw, hsd, hx, hcp⟩ := phaseWord_good (s := s) (i := inp) (w := w) rfl
      exact ⟨_, rfl, only_trans (only_mono (by simp) (setPhIn_only _)) (only_trans goodWord_keeps.frame (only_mono (by simp) selectCopy_keeps.frame)), ho, hwh,
        fun hg hs => ⟨hok, hbw, hsd, hx, hcp⟩, fun hn => absurd hc hn⟩
    · next hc =>
      obtain ⟨ho, hwh, hok, hbw, hgd, hh⟩ := phaseWord_bad (s := s) (i := inp) rfl
      exact ⟨_, rfl, only_trans (only_mono (by simp) (setPhIn_only _)) badWord_keeps.frame, ho, hwh, fun hg hs => absurd ⟨hg, hs⟩ hc, fun _ => ⟨hok, hbw, hgd, hh⟩⟩
  · obtain ⟨hk, hin, ho⟩ := failCheck_unseen (s := s) (i := inp)
    obtain ⟨h1, h2, h3⟩ := PhIn.unseen_failed (s.phIn inp) 1
    refine ⟨_, congrArg Host.Outcome.next (if_neg (by simp [hst, hp, hs])), hk, ?_, ?_, ?_, ?_, ho⟩
    · exact (congrArg PhIn.seen hin).trans h1
    · exact (congrArg PhIn.stepNo hin).trans h2
    · exact (congrArg PhIn.periods hin).trans h3
    · exact (congrArg PhIn.healthy hin).trans (PhIn.failed_healthy _ _)

end Sys2Proof.Machine

/-! PROOFS. The table commands (spec/05 R157 to R165, spec/13 R392). -/

namespace Sys2Proof.Machine

/-! Entries of a listed map without one key. -/

section
variable {α : Type} {Q : Nat × α → Bool} {key : Nat}

theorem filter_ne_of_rise : ∀ (m : SMap α) (lo : Nat), mrise lo m = true → key < lo → m.filter (fun e => decide (e.1 ≠ key)) = m
  | [], _, _, _ => rfl
  | (k, x) :: r, lo, w, h => by
    simp only [mrise, Bool.and_eq_true, decide_eq_true_eq] at w
    rw [List.filter_cons_of_pos (by simp; omega), filter_ne_of_rise r (k + 1) w.2 (by omega)]

/-- An entry removed from a listed map. -/
theorem mremove_eq_filter : ∀ (m : SMap α) (lo : Nat), mrise lo m = true → mremove key m = m.filter (fun e => decide (e.1 ≠ key))
  | [], _, _ => rfl
  | (k, x) :: r, lo, w => by
    simp only [mrise, Bool.and_eq_true, decide_eq_true_eq] at w
    simp only [mremove]
    split
    · next h => rw [List.filter_cons_of_neg (by simp [h]), filter_ne_of_rise r (k + 1) w.2 (by omega)]
    · next h =>
      rw [List.filter_cons_of_pos (by simp [h])]
      split
      · rw [filter_ne_of_rise r (k + 1) w.2 (by omega)]
      · rw [← mremove_eq_filter r (k + 1) w.2]

/-- An entry listed in place of one is not among those that satisfy what it does not. -/
theorem filter_minsert {v : α} (hv : Q (key, v) = false) : ∀ (m : SMap α) (lo : Nat), mrise lo m = true →
    (minsert key v m).filter Q = (m.filter (fun e => decide (e.1 ≠ key))).filter Q
  | [], _, _ => by simp [minsert, hv]
  | (k, x) :: r, lo, w => by
    have hne := filter_ne_of_rise (key := key) ((k, x) :: r) k
    simp only [mrise, Bool.and_eq_true, decide_eq_true_eq] at w hne
    simp only [minsert]
    split
    · next h => rw [List.filter_cons_of_neg (by simp [hv]), List.filter_cons_of_neg (by simp [h]), filter_ne_of_rise r (k + 1) w.2 (by omega)]
    · next h =>
      split
      · next h' => rw [List.filter_cons_of_neg (by simp [hv]), hne ⟨le_refl _, w.2⟩ h']
      · rw [List.filter_cons_of_pos (p := fun e : Nat × α => decide (e.1 ≠ key)) (by simp [h]), List.filter_cons, List.filter_cons, filter_minsert hv r (k + 1) w.2]

theorem filter_mset [DecidableEq α] {d v : α} (m : SMap α) (w : mrise 0 m = true) (hv : Q (key, v) = false) :
    (mset d m key v).filter Q = (m.filter (fun e => decide (e.1 ≠ key))).filter Q := by
  unfold mset
  split
  · rw [mremove_eq_filter m 0 w]
  · exact filter_minsert hv m 0 w

/-- A write at a key leaves the entries at keys of another kind, listed in whatever order. -/
theorem mpick_mset_other [DecidableEq α] {p : Nat → Bool} (hp : p key = false) (d v : α) (m : SMap α) : mpick p (mset d m key v) = mpick p m := by
  unfold mset mpick
  split
  · induction m with
    | nil => rfl
    | cons e r ih =>
      simp only [mremove]
      split
      · next h => rw [List.filter_cons_of_neg (by simp [h, hp])]
      · split
        · rfl
        · rw [List.filter_cons, List.filter_cons, ih]
  · induction m with
    | nil => simp [minsert, hp]
    | cons e r ih =>
      simp only [minsert]
      split
      · next h => rw [List.filter_cons_of_neg (by simp [hp]), List.filter_cons_of_neg (by simp [h, hp])]
      · split
        · rw [List.filter_cons_of_neg (by simp [hp])]
        · rw [List.filter_cons, List.filter_cons, ih]

end

/-! The part of a table that stands on one die. -/

/-- The entries of die d that satisfy q, by index, n to a die, in the layout g. -/
def tblView {α : Type} (n : Nat) (q : α → Bool) (g : α → List Byte) (d : Nat) (m : SMap α) : List (Nat × List Byte) :=
  ((mpick (fun k => decide (k / n = d)) m).filter (fun e => q e.2)).map (fun e => (e.1 % n, g e.2))

section
variable {α : Type} {n i d : Nat} {q : α → Bool} {g : α → List Byte} {m m' : SMap α}

theorem tblView_eq (e : Nat) : tblView n q g e m = ((m.filter (fun x => q x.2)).filter (fun x => decide (x.1 / n = e))).map (fun x => (x.1 % n, g x.2)) :=
  congrArg _ (List.filter_comm ..)

theorem key_eq_iff {k : Nat} (hk : k / n = d) : k = d * n + i ↔ k % n = i := by
  have hm := Nat.div_add_mod k n
  rw [hk, Nat.mul_comm] at hm
  omega

theorem key_div (hi : i < n) : (d * n + i) / n = d := by
  rw [Nat.mul_comm, Nat.mul_add_div (by omega), Nat.div_eq_of_lt hi, Nat.add_zero]

theorem tblView_drop_other {e : Nat} (h : m'.filter (fun e => q e.2) = (m.filter (fun e => decide (e.1 ≠ d * n + i))).filter (fun e => q e.2)) (hi : i < n) (he : e ≠ d) :
    tblView n q g e m' = tblView n q g e m := by
  rw [tblView_eq, tblView_eq, h, List.filter_filter, List.filter_filter, List.filter_filter]
  refine congrArg _ (List.filter_congr fun x _ => ?_)
  by_cases hx : x.1 / n = e
  · have hne : x.1 ≠ d * n + i := fun h' => he (by rw [← hx, h', key_div hi])
    simp [hx, hne]
  · simp [hx]

theorem tblView_drop_self (h : m'.filter (fun e => q e.2) = (m.filter (fun e => decide (e.1 ≠ d * n + i))).filter (fun e => q e.2)) :
    tblView n q g d m' = (tblView n q g d m).filter (fun x => decide (x.1 ≠ i)) := by
  rw [tblView_eq, tblView_eq, h, List.filter_map, List.filter_filter, List.filter_filter, List.filter_filter, List.filter_filter]
  refine congrArg _ (List.filter_congr fun x _ => ?_)
  by_cases hx : x.1 / n = d
  · have hk := key_eq_iff (i := i) hx
    by_cases hq : q x.2 = true <;> by_cases hm : x.1 % n = i <;> simp [hx, hq, hm, hk]
  · simp [hx]

/-- An index that stands in the view is one of its die, and its entry is listed. -/
theorem mem_tblView {x : Nat × List Byte} (hn : 0 < n) (h : x ∈ tblView n q g d m) : x.1 < n ∧ ∃ v, (d * n + x.1, v) ∈ m := by
  rw [tblView_eq] at h
  obtain ⟨e, he, rfl⟩ := List.mem_map.mp h
  obtain ⟨he, hd⟩ := List.mem_filter.mp he
  refine ⟨Nat.mod_lt _ hn, e.2, ?_⟩
  rw [← (key_eq_iff (i := e.1 % n) (of_decide_eq_true hd)).mpr rfl]
  exact List.mem_of_mem_filter he

end

/-- An entry that stands in a listed map is found there. -/
theorem mfind_of_mem {α : Type} {key : Nat} {v : α} : ∀ (m : SMap α) (lo : Nat), mrise lo m = true → (key, v) ∈ m → mfind m key = some v
  | (k, x) :: r, lo, w, h => by
    simp only [mrise, Bool.and_eq_true, decide_eq_true_eq] at w
    simp only [mfind]
    rcases List.mem_cons.mp h with h | h
    · obtain ⟨rfl, rfl⟩ := Prod.mk.inj h
      rw [if_pos rfl]
    · have hlt : k < key := by
        by_contra hk
        have hne := mfind_of_mem r (k + 1) w.2 h
        rw [mfind_below_rise r (k + 1) key w.2 (by omega)] at hne
        exact absurd hne (by simp)
      rw [if_neg (by omega), if_neg (by omega)]
      exact mfind_of_mem r (k + 1) w.2 h

section
variable {s : State} {d i : Nat}

theorem State.tblList_l2 (d : Nat) : s.tblList d 1 = tblView 32768 (fun e => e.valid && !e.pend) (fun e => beBytes 16 e.word.toNat) d s.fwt.l2 := rfl

theorem State.tblList_flow (d : Nat) : s.tblList d 2 = tblView 229376 (fun _ => true) flowBytes d s.fwt.flow := by
  unfold tblView
  rw [List.filter_true]
  rfl

theorem State.tblList_lpm (d : Nat) : s.tblList d 3 = tblView 65536 LpmEnt.valid lpmBytes d s.fwt.lpm := by
  show (s.lpmList d).map _ = _
  unfold State.lpmList
  rw [List.map_map]
  rfl

/-- The tables list every entry once. -/
def State.tablesRise (s : State) : Prop := mrise 0 s.fwt.l2 = true ∧ mrise 0 s.fwt.flow = true ∧ mrise 0 s.fwt.lpm = true

/-- An entry that is removed from a die's table leaves the other entries, and the other dies (R162). -/
structure TblDrops (s t : State) (table d i : Nat) : Prop where
  rise : t.tablesRise
  self : t.tblList d table = (s.tblList d table).filter (fun x => decide (x.1 ≠ i))
  other : ∀ e, e ≠ d → t.tblList e table = s.tblList e table

theorem tblRemove_l2 {x : List Byte} (hr : s.tablesRise) (h : (i, x) ∈ s.tblList d 1) : TblDrops s (tblRemove s 1 d i) 1 d i := by
  obtain ⟨hl, hf, hp⟩ := hr
  rw [State.tblList_l2] at h
  obtain ⟨hi, -⟩ := mem_tblView (by decide) h
  have hm : (tblRemove s 1 d i).fwt.l2 = s.fwt.l2.filter (fun e => decide (e.1 ≠ d * 32768 + i)) := mremove_eq_filter _ 0 hl
  refine ⟨⟨mremove_rise _ _ _ hl, hf, hp⟩, ?_, fun e he => ?_⟩
  · rw [State.tblList_l2, State.tblList_l2, tblView_drop_self (congrArg _ hm)]
  · rw [State.tblList_l2, State.tblList_l2, tblView_drop_other (congrArg _ hm) hi he]

theorem tblRemove_flow {x : List Byte} (hr : s.tablesRise) (h : (i, x) ∈ s.tblList d 2) : TblDrops s (tblRemove s 2 d i) 2 d i := by
  obtain ⟨hl, hf, hp⟩ := hr
  rw [State.tblList_flow] at h
  obtain ⟨hi, v, hv⟩ := mem_tblView (by decide) h
  have hat : s.flowAt d i = some v := by
    unfold State.flowAt flowKey
    exact mfind_of_mem _ 0 hf hv
  have hrm : tblRemove s 2 d i = dropFlow s d i := by
    unfold tblRemove
    rw [if_neg (by decide), if_pos rfl]
  obtain ⟨hfl, hl2, hlpm⟩ : (tblRemove s 2 d i).fwt.flow = mremove (flowKey d i) s.fwt.flow ∧ (tblRemove s 2 d i).fwt.l2 = s.fwt.l2 ∧ (tblRemove s 2 d i).fwt.lpm = s.fwt.lpm := by
    rw [hrm]
    unfold dropFlow
    rw [hat]
    exact ⟨rfl, rfl, rfl⟩
  have hm := hfl.trans (mremove_eq_filter _ 0 hf)
  refine ⟨⟨hl2 ▸ hl, hfl ▸ mremove_rise _ _ _ hf, hlpm ▸ hp⟩, ?_, fun e he => ?_⟩
  · rw [State.tblList_flow, State.tblList_flow, tblView_drop_self (congrArg _ hm)]
  · rw [State.tblList_flow, State.tblList_flow, tblView_drop_other (congrArg _ hm) hi he]

/-- An LPM entry that is removed loses its VALID bit (R157, R162). -/
theorem tblRemove_lpm_eq (s : State) (d i : Nat) : ∃ v : LpmEnt, v.valid = false ∧ tblRemove s 3 d i = s.setLpm d i v := by
  refine ⟨_, ?_, (if_neg (by decide)).trans (if_neg (by decide))⟩
  unfold LpmEnt.valid
  dsimp only
  generalize (s.lpmAt d i).key.toNat = k
  rw [BitVec.getLsbD_ofNat, Nat.testBit_mod_two_pow, decide_eq_false (Nat.lt_irrefl _), Bool.false_and, Bool.and_false]

theorem tblRemove_lpm {x : List Byte} (hr : s.tablesRise) (h : (i, x) ∈ s.tblList d 3) : TblDrops s (tblRemove s 3 d i) 3 d i := by
  obtain ⟨hl, hf, hp⟩ := hr
  rw [State.tblList_lpm] at h
  obtain ⟨hi, -⟩ := mem_tblView (by decide) h
  obtain ⟨v, hv, ht⟩ := tblRemove_lpm_eq s d i
  have hm := filter_mset (Q := fun e : Nat × LpmEnt => e.2.valid) (key := lpmKey d i) (d := {}) s.fwt.lpm hp hv
  rw [ht]
  refine ⟨⟨hl, hf, mset_rise _ _ _ _ hp⟩, ?_, fun e he => ?_⟩
  · rw [State.tblList_lpm, State.tblList_lpm]
    exact tblView_drop_self hm
  · rw [State.tblList_lpm, State.tblList_lpm]
    exact tblView_drop_other hm hi he

theorem tblRemove_drops {table : Nat} {x : List Byte} (h1 : 1 ≤ table) (h3 : table ≤ 3) (hr : s.tablesRise) (h : (i, x) ∈ s.tblList d table) :
    TblDrops s (tblRemove s table d i) table d i := by
  obtain rfl | rfl | rfl : table = 1 ∨ table = 2 ∨ table = 3 := by omega
  · exact tblRemove_l2 hr h
  · exact tblRemove_flow hr h
  · exact tblRemove_lpm hr h

/-- Die d lets go of its entry with a body's key, if it has one (R162). -/
def tblDrop (table : Nat) (body : List Byte) (d : Nat) (t : State) : State :=
  match t.tblFind d table body with
  | some (i, _) => tblRemove t table d i
  | none => t

/-- A table's entries without the one that a body's key names. -/
def withoutKey (table : Nat) (body : List Byte) (l : List (Nat × List Byte)) : List (Nat × List Byte) :=
  match l.find? (fun x => tblKey table x.2 = tblKey table body) with
  | some (i, _) => l.filter (fun x => decide (x.1 ≠ i))
  | none => l

theorem tblDrop_drops {table : Nat} {body : List Byte} (h1 : 1 ≤ table) (h3 : table ≤ 3) (hr : s.tablesRise) :
    (tblDrop table body d s).tablesRise ∧ (tblDrop table body d s).tblList d table = withoutKey table body (s.tblList d table)
      ∧ ∀ e, e ≠ d → (tblDrop table body d s).tblList e table = s.tblList e table := by
  unfold tblDrop withoutKey State.tblFind
  split
  · next i x h =>
    obtain ⟨hrise, hself, hother⟩ := tblRemove_drops h1 h3 hr (List.mem_of_find?_eq_some h)
    exact ⟨hrise, hself, hother⟩
  · next h => exact ⟨hr, rfl, fun _ _ => rfl⟩

/-- Every die of a list lets go of its entry with the key, and no other die does. -/
theorem overDies_tblDrop {table : Nat} {body : List Byte} (h1 : 1 ≤ table) (h3 : table ≤ 3) : ∀ (l : List Nat) (t : State), l.Nodup → t.tablesRise → ∀ d,
    (overDies (tblDrop table body) l t).tblList d table = if d ∈ l then withoutKey table body (t.tblList d table) else t.tblList d table
  | [], _, _, _, _ => rfl
  | e :: r, t, hn, hr, d => by
    obtain ⟨hrise, hself, hother⟩ := tblDrop_drops (d := e) (body := body) h1 h3 hr
    obtain ⟨he, hn⟩ := List.nodup_cons.mp hn
    have ih := overDies_tblDrop (body := body) h1 h3 r (tblDrop table body e t) hn hrise d
    show (overDies (tblDrop table body) r (tblDrop table body e t)).tblList d table = _
    rw [ih]
    by_cases hd : d = e
    · rw [hd, if_neg he, hself, if_pos List.mem_cons_self]
    · rw [hother d hd]
      simp [hd]

end

/-! An LPM insert that a reset interrupts stays on its dies (R159, R160). -/

section
variable {s : State} {d e i : Nat}

/-- From s to t no LPM entry of die e changed. -/
def KeepsLpm (e : Nat) (s t : State) : Prop := mpick (fun k => decide (k / 65536 = e)) t.fwt.lpm = mpick (fun k => decide (k / 65536 = e)) s.fwt.lpm

theorem KeepsLpm.list {t : State} (h : KeepsLpm e s t) : t.lpmList e = s.lpmList e := by
  unfold KeepsLpm at h
  unfold State.lpmList
  rw [h]

theorem setLpm_keepsLpm (he : e ≠ d) (hi : i < 65536) (x : LpmEnt) : KeepsLpm e s (s.setLpm d i x) := by
  refine mpick_mset_other (decide_eq_false ?_) _ _ _
  unfold lpmKey
  rw [key_div hi]
  exact he.symm

/-- A ripple over leaders of the die changes no other die. -/
theorem rippleTorn_keepsLpm (he : e ≠ d) : ∀ (l : List Nat) (n hole : Nat) (s : State), hole < 65536 → (∀ j ∈ l, j < 65536) → KeepsLpm e s (rippleTorn s d hole n l)
  | [], n, hole, s, _, _ => by cases n <;> rfl
  | i :: r, 0, hole, s, hh, _ => setLpm_keepsLpm he hh _
  | i :: r, n + 1, hole, s, hh, hl => by
    have hi := hl i List.mem_cons_self
    have ih := rippleTorn_keepsLpm he r n i (ripple s d hole [i]).2 hi (fun j hj => hl j (List.mem_cons_of_mem _ hj))
    have h1 : KeepsLpm e s (s.setLpm d hole (s.lpmAt d i)) := setLpm_keepsLpm he hh _
    have h2 : KeepsLpm e (s.setLpm d hole (s.lpmAt d i)) ((s.setLpm d hole (s.lpmAt d i)).setLpm d i { s.lpmAt d i with key := BitVec.ofNat 160 ((s.lpmAt d i).key.toNat % 2 ^ 159) }) :=
      setLpm_keepsLpm he hi _
    exact ih.trans (h2.trans h1)

theorem holeFrom_lt : ∀ (n i h : Nat), s.holeFrom d n i = some h → 0 < n ∧ h < i + n
  | 0, _, _, hh => by simp [State.holeFrom] at hh
  | n + 1, i, h, hh => by
    unfold State.holeFrom at hh
    split at hh
    · have := holeFrom_lt n (i + 1) h hh
      omega
    · obtain rfl : i = h := by simpa using hh
      omega

theorem mem_runStarts : ∀ (l : List (Nat × LpmEnt)) (p : Option Nat) (j : Nat), j ∈ runStarts p l → ∃ x ∈ l, x.1 = j
  | [], _, _, h => by simp [runStarts] at h
  | (i, e) :: r, p, j, h => by
    unfold runStarts at h
    split at h
    · obtain ⟨x, hx, hj⟩ := mem_runStarts r p j h
      exact ⟨x, List.mem_cons_of_mem _ hx, hj⟩
    · rcases List.mem_cons.mp h with rfl | h
      · exact ⟨_, List.mem_cons_self, rfl⟩
      · obtain ⟨x, hx, hj⟩ := mem_runStarts r _ j h
        exact ⟨x, List.mem_cons_of_mem _ hx, hj⟩

theorem lpmList_index {x : Nat × LpmEnt} (h : x ∈ s.lpmList d) : x.1 < 65536 := by
  unfold State.lpmList at h
  obtain ⟨y, -, rfl⟩ := List.mem_map.mp h
  exact Nat.mod_lt _ (by decide)

theorem lpmTorn_keepsLpm (he : e ≠ d) (body : List Byte) (n : Nat) : KeepsLpm e s (lpmTorn s d body n) := by
  unfold lpmTorn
  extract_lets x p
  split
  · rfl
  · split
    · rfl
    · next h hh =>
      have hlt := holeFrom_lt _ _ _ hh
      refine rippleTorn_keepsLpm he _ n h s (by omega) (fun j hj => ?_)
      obtain ⟨y, hy, rfl⟩ := mem_runStarts _ _ j (List.mem_reverse.mp hj)
      exact lpmList_index (List.mem_of_mem_filter hy)

/-- An interrupted insert leaves the dies that it has not reached (log 73). -/
theorem tornInsert_keepsLpm {a : TblArgs} (he : e ∉ a.cut.map (fun x => x.1.val)) : KeepsLpm e s (tornInsert s a) := by
  unfold tornInsert
  have h : ∀ (l : List (Fin 8 × Nat)) (t : State), e ∉ l.map (fun x => x.1.val) → KeepsLpm e t (l.foldl (fun t x => if x.1.val < t.dies then lpmTorn t x.1 a.body x.2 else t) t) := by
    intro l
    induction l with
    | nil => exact fun _ _ => rfl
    | cons x r ih =>
      intro t hx
      obtain ⟨hne, hr⟩ := not_or.mp (fun h => hx (List.mem_cons.mpr h))
      refine (ih _ hr).trans ?_
      dsimp only
      split
      · exact lpmTorn_keepsLpm hne _ _
      · rfl
  exact h a.cut _ he

theorem lpmTorn_gwe (body : List Byte) (n : Nat) : (lpmTorn s d body n).gwe = s.gwe := lpmTorn_keeps.frame .gwe (by decide)

theorem tornInsert_results {a : TblArgs} : (tornInsert s a).gwe.results = [] := by
  unfold tornInsert
  refine foldl_keep (fun t : State => t.gwe.results = []) _ (fun t x h => ?_) _ _ rfl
  split
  · rw [lpmTorn_gwe, h]
  · exact h

end

/-! The commands. -/

section
variable {s : State} {a : TblArgs}

theorem tblSearch_valid (h1 : 1 ≤ a.table) (h3 : a.table ≤ 3) (hf : a.flags = 0) (hb : a.body.length = bodyLen a.table) (hp : badProfile a.table a.body = false) (hd : a.die ∈ s.liveDies)
    (hg : genOk a.expGen.toNat (s.gen .FWT_STATE a.die) = true) : tblSearch s a = (match s.tblSeen a.die a.table a.body with
      | some (i, e) => (.ok, tblResult (s.gen .FWT_STATE a.die) 1 0 i e, s)
      | none => (.ok, tblResult (s.gen .FWT_STATE a.die) 0 0 0 [], s)) := by
  unfold tblSearch oneDie
  exact (if_neg (by simp [hf, hb, hp]; omega)).trans ((if_neg (by simpa using hd)).trans (if_neg (by simp [hg])))

theorem tblNext_valid (h1 : 1 ≤ a.table) (h3 : a.table ≤ 3) (hf : a.flags = 0) (hb : a.body.length = 4) (hd : a.die ∈ s.liveDies)
    (hg : genOk a.expGen.toNat (s.gen .FWT_STATE a.die) = true) {i : Nat} {e : List Byte}
    (h : (s.tblList a.die a.table).find? (fun x => decide ((if beNat a.body = 0xFFFFFFFF then 0 else beNat a.body + 1) ≤ x.1)) = some (i, e)) :
    tblNext s a = (.ok, tblResult (s.gen .FWT_STATE a.die) 1 0 i e, s) := by
  unfold tblNext oneDie
  rw [if_neg (by simp [hf, hb]; omega), if_neg (by simpa using hd), if_neg (by simp [hg])]
  dsimp only
  rw [h]

/-- The dies that DELETE finds the key on (R162). -/
def State.tblFound (s : State) (a : TblArgs) : List Nat := (if a.die = 0xFF then s.liveDies else [a.die]).filter (fun d => (s.tblFind d a.table a.body).isSome)

/-- DELETE with a body in the layout of its table (R162, R392). -/
theorem tblDelete_valid (h1 : 1 ≤ a.table) (h3 : a.table ≤ 3) (hf : a.flags = 0) (hb : a.body.length = bodyLen a.table) (hp : badProfile a.table a.body = false) :
    tblDelete s a = if a.die = 0xFF then
        if a.expGen ≠ 0xFFFF then (.badaddr, [], s)
        else if a.table = 3 ∧ (s.tblFound a).any (fun d => (s.tblFind d 3 a.body).any (fun x => s.lpmStuck d x.1)) then (.denied, [], s)
        else (.ok, tblResult 0xFFFF 0 (maskOf (s.tblFound a)) 0 [], overDies (tblDrop a.table a.body) (s.tblFound a) s)
      else if a.table = 3 then (.badaddr, [], s)
      else oneDie s a (.ok, tblResult (s.gen .FWT_STATE a.die) 0 (maskOf (s.tblFound a)) 0 [], overDies (tblDrop a.table a.body) (s.tblFound a) s) := by
  unfold tblDelete State.tblFound
  dsimp only
  rw [if_neg (by simp [hf, hb, hp]; omega)]
  simp only [decide_eq_true_eq]
  rfl

theorem tblFind_not_stuck {l : List Nat} (h : ∀ d ∈ l, ∀ i e, s.tblFind d 3 a.body = some (i, e) → s.lpmStuck d i = false) :
    (l.filter (fun d => (s.tblFind d 3 a.body).isSome)).any (fun d => (s.tblFind d 3 a.body).any (fun x => s.lpmStuck d x.1)) = false := by
  rw [List.any_eq_false]
  intro d hd
  cases hx : s.tblFind d 3 a.body with
  | none => simp
  | some x => simp [h d (List.mem_of_mem_filter hd) x.1 x.2 hx]

theorem tblFind_stuck {l : List Nat} (h : ∃ d ∈ l, ∃ i e, s.tblFind d 3 a.body = some (i, e) ∧ s.lpmStuck d i = true) :
    (l.filter (fun d => (s.tblFind d 3 a.body).isSome)).any (fun d => (s.tblFind d 3 a.body).any (fun x => s.lpmStuck d x.1)) = true := by
  obtain ⟨d, hd, i, e, hx, hs⟩ := h
  exact List.any_eq_true.mpr ⟨d, List.mem_filter.mpr ⟨hd, by rw [hx]; rfl⟩, by rw [hx]; exact hs⟩

theorem nodup_liveDies (s : State) : s.liveDies.Nodup := List.nodup_range.filter _

/-- DELETE on every live die takes the key's entry off each that has it (R162). -/
theorem tblDelete_lists (h1 : 1 ≤ a.table) (h3 : a.table ≤ 3) (hr : s.tablesRise) {d : Nat} (hd : d ∈ s.liveDies) :
    (overDies (tblDrop a.table a.body) (s.liveDies.filter (fun d => (s.tblFind d a.table a.body).isSome)) s).tblList d a.table = withoutKey a.table a.body (s.tblList d a.table) := by
  rw [overDies_tblDrop h1 h3 _ s ((nodup_liveDies s).filter _) hr d]
  split
  · rfl
  · next h =>
    have hn : s.tblFind d a.table a.body = none := by
      by_contra hx
      exact h (List.mem_filter.mpr ⟨hd, Option.isSome_iff_ne_none.mpr hx⟩)
    unfold withoutKey
    unfold State.tblFind at hn
    rw [hn]

theorem withoutKey_none {d : Nat} (h : s.tblFind d a.table a.body = none) : withoutKey a.table a.body (s.tblList d a.table) = s.tblList d a.table := by
  unfold withoutKey
  unfold State.tblFind at h
  rw [h]

theorem withoutKey_some {d i : Nat} {e : List Byte} (h : s.tblFind d a.table a.body = some (i, e)) :
    withoutKey a.table a.body (s.tblList d a.table) = (s.tblList d a.table).filter (fun x => decide (x.1 ≠ i)) := by
  unfold withoutKey
  unfold State.tblFind at h
  rw [h]

/-- INSERT of a body that breaks no rule (R162, R463). -/
theorem tblInsert_valid (h1 : 1 ≤ a.table) (h3 : a.table ≤ 3) (hd : a.die = 0xFF) (he : a.expGen = 0xFFFF) (hf : a.flags = 0) (hb : a.body.length = bodyLen a.table)
    (hp : s.badInsert a.table a.body = false) : tblInsert s a =
      if s.liveDies.filter (fun d => (tblWrite s a.table d a.body).isNone) ≠ [] then (.noroom, tblResult 0xFFFF 0 (maskOf (s.liveDies.filter (fun d => (tblWrite s a.table d a.body).isNone))) 0 [], s)
      else if a.table = 3 ∧ s.liveDies.any (fun d => (s.lpmPlaces d a.body).any (s.lpmStuck d)) then (.denied, [], s)
      else (.ok, tblResult 0xFFFF 0 0 0 [], overDies (fun d t => (tblWrite t a.table d a.body).getD t) s.liveDies s) := by
  unfold tblInsert
  exact if_neg (by simp [hd, he, hf, hb, hp]; omega)

theorem tblWrite_room (h : ∀ d ∈ s.liveDies, (tblWrite s a.table d a.body).isSome = true) : ¬ s.liveDies.filter (fun d => (tblWrite s a.table d a.body).isNone) ≠ [] := by
  rw [not_not, List.filter_eq_nil_iff]
  intro d hd
  simp [Option.isSome_iff_ne_none.mp (h d hd)]

/-- An insert that has room on every live die, and writes no stuck entry, is executed. -/
theorem tblInsert_room (h1 : 1 ≤ a.table) (h3 : a.table ≤ 3) (hd : a.die = 0xFF) (he : a.expGen = 0xFFFF) (hf : a.flags = 0) (hb : a.body.length = bodyLen a.table)
    (hp : s.badInsert a.table a.body = false) (hroom : ∀ d ∈ s.liveDies, (tblWrite s a.table d a.body).isSome = true)
    (hst : a.table = 3 → ∀ d ∈ s.liveDies, ∀ i ∈ s.lpmPlaces d a.body, s.lpmStuck d i = false) :
    tblInsert s a = (.ok, tblResult 0xFFFF 0 0 0 [], overDies (fun d t => (tblWrite t a.table d a.body).getD t) s.liveDies s) := by
  rw [tblInsert_valid h1 h3 hd he hf hb hp, if_neg (tblWrite_room hroom), if_neg]
  rintro ⟨ht, hany⟩
  obtain ⟨d, hd, hx⟩ := List.any_eq_true.mp hany
  obtain ⟨i, hi, hs⟩ := List.any_eq_true.mp hx
  rw [hst ht d hd i hi] at hs
  exact absurd hs (by decide)

theorem tblWrite_lack (h : ∃ d ∈ s.liveDies, (tblWrite s a.table d a.body).isSome = false) : s.liveDies.filter (fun d => (tblWrite s a.table d a.body).isNone) ≠ [] := by
  obtain ⟨d, hd, hn⟩ := h
  exact List.ne_nil_of_mem (List.mem_filter.mpr ⟨hd, by simpa using hn⟩)

theorem execTblInsert_whole (hm : s.glb.mode.any = true) (h : a.cut = [] ∨ a.table ≠ 3 ∨ (tblInsert s a).1 ≠ .ok) :
    exec (.tblInsert a) s = .next ((tblInsert s a).2.2.answered 0x30 (tblInsert s a).1 (tblInsert s a).2.1) := by
  refine congrArg Host.Outcome.next ((if_neg ?_).trans (hostOp_any _ _ _ hm))
  rintro ⟨hc, ht, -, ho⟩
  rcases h with h | h | h
  · exact hc h
  · exact h ht
  · exact h ho

theorem tblFlush_valid (ht : a.table = 1) (hd : a.die = 0xFF) (he : a.expGen = 0xFFFF) (hf : a.flags ≤ 1) (hb : a.body.length = 4) :
    (tblFlush s a).2.2 = { s with fwt := { s.fwt with l2 := s.fwt.l2.filter (fun x => !(decide (x.1 / 32768 ∈ s.liveDies)
      && flushHit (bitsOf (beNat a.body) 28 24) (if a.flags = 1 then some (bitsOf (beNat a.body) 11 0) else none) x.2)) } } := by
  have hfl : (a.flags % 2 = 1) = (a.flags = 1) := propext (by omega)
  unfold tblFlush
  dsimp only
  rw [if_neg (by simp [ht, hd, he, hb]; omega)]
  simp only [hfl]

end

/-- Settles O20: each command by its equation for valid arguments; what DELETE leaves by `overDies_tblDrop`, a torn insert by `tornInsert_keepsLpm`. -/
theorem tableCommandsAnswer : Obligations.TableCommandsAnswer := by
  intro s a hm h1 h3
  refine ⟨fun hf hb hp hd hg => ⟨fun i e h => ?_, fun h => ?_, fun i e ht hne h => ?_⟩, fun hf hb hd hg i e h => ?_, fun hf hb ht hne => ?_, fun hd he hf hb hp => ⟨fun hst hl2 hfl hlp => ?_, fun ht hst => ?_⟩,
    fun hd he => ⟨fun hf hb hp => ⟨fun hroom ht hst => ?_, fun hroom hst => ⟨fun hc => ?_, fun hc ht => ?_⟩, fun hlack => ?_⟩, fun ht hf hb => ?_⟩⟩
  · have hx : tblSearch s a = _ := tblSearch_valid h1 h3 hf hb hp hd hg
    rw [h] at hx
    refine ⟨?_, congrArg Host.Outcome.next ((hostOp_any _ _ _ hm).trans (by rw [hx]))⟩
    have := List.find?_some h
    simp only [Bool.and_eq_true] at this
    exact this.2
  · have hx : tblSearch s a = _ := tblSearch_valid h1 h3 hf hb hp hd hg
    rw [h] at hx
    exact congrArg Host.Outcome.next ((hostOp_any _ _ _ hm).trans (by rw [hx]))
  · have hfound : s.tblFound a = [a.die] := by
      unfold State.tblFound
      rw [if_neg hne, List.filter_cons_of_pos (by rw [h]; rfl)]
      rfl
    have hx : tblDelete s a = _ := tblDelete_valid h1 h3 hf hb hp
    unfold oneDie at hx
    rw [if_neg hne, if_neg ht, if_neg (by simpa using hd), if_neg (by simp [hg]), hfound] at hx
    have hdrop : overDies (tblDrop a.table a.body) [a.die] s = tblRemove s a.table a.die i := by
      show tblDrop a.table a.body a.die s = _
      unfold tblDrop
      rw [h]
    rw [hdrop] at hx
    exact congrArg Host.Outcome.next ((hostOp_any _ _ _ hm).trans (by rw [hx]))
  · have hx := tblNext_valid h1 h3 hf hb hd hg h
    exact congrArg Host.Outcome.next ((hostOp_any _ _ _ hm).trans (by rw [hx]))
  · have hx : tblDelete s a = _ := tblDelete_valid h1 h3 hf hb (by simp [badProfile, ht])
    rw [if_neg hne, if_pos ht] at hx
    exact congrArg Host.Outcome.next ((hostOp_any _ _ _ hm).trans (by rw [hx]))
  · have hfound : s.tblFound a = s.liveDies.filter (fun d => (s.tblFind d a.table a.body).isSome) := by
      unfold State.tblFound
      rw [if_pos hd]
    have hx : tblDelete s a = _ := tblDelete_valid h1 h3 hf hb hp
    have hns : ¬ (a.table = 3 ∧ (s.liveDies.filter (fun d => (s.tblFind d a.table a.body).isSome)).any (fun d => (s.tblFind d 3 a.body).any (fun x => s.lpmStuck d x.1)) = true) := by
      rintro ⟨ht, hany⟩
      rw [ht, tblFind_not_stuck (hst ht)] at hany
      exact absurd hany (by decide)
    rw [if_pos hd, if_neg (by simp [he]), hfound, if_neg hns] at hx
    refine ⟨_, congrArg Host.Outcome.next ((hostOp_any _ _ _ hm).trans (by rw [hx])), ?_, fun d hl => ?_⟩
    · have hk : Keeps [.fwt, .icu] s (tblDelete s a).2.2 := tblDelete_keeps
      rw [hx] at hk
      exact only_mono (by simp) hk.frame
    · rw [tblDelete_lists h1 h3 ⟨hl2, hfl, hlp⟩ hl]
      exact ⟨fun h => withoutKey_none h, fun i e h => withoutKey_some h⟩
  · have hx : tblDelete s a = _ := tblDelete_valid h1 h3 hf hb hp
    have hany := tblFind_stuck (a := a) hst
    rw [if_pos hd, if_neg (by simp [he])] at hx
    unfold State.tblFound at hx
    rw [if_pos hd, ht, if_pos ⟨rfl, hany⟩] at hx
    exact congrArg Host.Outcome.next ((hostOp_any _ _ _ hm).trans (by rw [hx]))
  · have hany : s.liveDies.any (fun d => (s.lpmPlaces d a.body).any (s.lpmStuck d)) = true := by
      obtain ⟨d, hd, i, hi, h⟩ := hst
      exact List.any_eq_true.mpr ⟨d, hd, List.any_eq_true.mpr ⟨i, hi, h⟩⟩
    have hx := tblInsert_valid h1 h3 hd he hf hb hp
    rw [if_neg (tblWrite_room hroom), if_pos ⟨ht, hany⟩] at hx
    rw [execTblInsert_whole hm (.inr (.inr (by rw [hx]; simp))), hx]
  · rw [execTblInsert_whole hm (hc.imp_right .inl), tblInsert_room h1 h3 hd he hf hb hp hroom hst]
  · have hok : (tblInsert s a).1 = .ok := by rw [tblInsert_room h1 h3 hd he hf hb hp hroom hst]
    exact ⟨_, congrArg Host.Outcome.next (if_pos ⟨hc, ht, hm, hok⟩), tornInsert_results, fun d hd => (tornInsert_keepsLpm hd).list, tornInsert_keeps.frame⟩
  · have hx := tblInsert_valid h1 h3 hd he hf hb hp
    rw [if_pos (tblWrite_lack hlack)] at hx
    have hrun := execTblInsert_whole hm (.inr (.inr (by rw [hx]; simp)))
    rw [hx] at hrun
    exact ⟨_, hrun⟩
  · have hx := tblFlush_valid (s := s) ht hd he hf hb
    refine ⟨_, congrArg Host.Outcome.next (hostOp_any _ _ _ hm), only_trans (only_mono (by simp) tblFlush_keeps.frame) (only_mono (by simp) (State.answered_only _ _ _ _)), ?_⟩
    rw [hx]
    rfl

end Sys2Proof.Machine

/-! PROOFS. Admission to the landing queues (spec/06 R185 to R196). -/

namespace Sys2Proof.Machine

/-! One frame by the first row of R186. -/

section
variable {s t u v : State} {a : Admit} {pick : Nat}

/-- Row 1 of R186 applies. -/
def State.keepsFrame (s : State) (a : Admit) : Bool := !a.force && s.underThreshold a.die a.q (classSize (hClass a.handle))

theorem keepsFrame_true (hf : a.force = false) (hu : s.underThreshold a.die a.q (classSize (hClass a.handle)) = true) : s.keepsFrame a = true := by
  unfold State.keepsFrame
  rw [hf, hu]
  rfl

theorem keepsFrame_false (h : a.force = true ∨ s.underThreshold a.die a.q (classSize (hClass a.handle)) = false) : s.keepsFrame a = false := by
  unfold State.keepsFrame
  rcases h with h | h <;> simp [h]

/-- A frame whose words are bad is dropped where they would be read (R462). -/
theorem admitOne_bad (hb : s.quayBad a.handle 0 (128 + a.len) = true) (hk : a.hand.isSome = true ∨ s.keepsFrame a = false) :
    admitOne s a pick = markCopied ((freeMirror (releaseCopy s a) a.mirror).bump .ICU_FRAME_DROP a.die) a.hand :=
  if_pos ⟨hb, hk.imp_right (fun h => by simpa [State.keepsFrame] using h)⟩

theorem admitOne_staged (hb : s.quayBad a.handle 0 (128 + a.len) = false) (hk : s.keepsFrame a = false) : admitOne s a pick = markCopied (admitStaged s a pick) a.hand :=
  (if_neg (by simp [hb])).trans (if_neg (by simpa [State.keepsFrame] using hk))

/-- A frame that stays in its own buffer needs no word read (R186, R462). -/
theorem admitOne_kept (hb : a.hand = none ∨ s.quayBad a.handle 0 (128 + a.len) = false) (hk : s.keepsFrame a = true) :
    admitOne s a pick = match landBuffer s a with
      | (none, t) => markCopied (admitStaged t a pick) a.hand
      | (some h, t) => match landMirror t a h with
        | (true, m, u) => markCopied ((enqueue u a.q (quayItem s a h m)).bump .QBA_KEPT a.die) a.hand
        | (false, _, u) => markCopied (admitStaged u { a with handle := h, hand := none } pick) a.hand := by
  refine (if_neg ?_).trans (if_pos hk)
  rintro ⟨hbad, hx⟩
  rcases hb with hb | hb
  · rcases hx with hx | hx
    · simp [hb] at hx
    · exact hx hk
  · simp [hb] at hbad

theorem landBuffer_own (h : a.hand = none) : landBuffer s a = (some a.handle, s) := by
  unfold landBuffer
  rw [h]

theorem landBuffer_copy {id h : Nat} (hi : a.hand = some id) (ha : allocBuf s a.die (portRegion (s.bankPort (bankOf a.q))) (hClass a.handle) = (some h, u)) :
    landBuffer s a = (some h, u.putQuay h 0 (u.quayBytes a.handle 0 (128 + a.len))) := by
  unfold landBuffer
  rw [hi]
  dsimp only
  rw [ha]

theorem landBuffer_none {id : Nat} (hi : a.hand = some id) (ha : allocBuf s a.die (portRegion (s.bankPort (bankOf a.q))) (hClass a.handle) = (none, u)) : landBuffer s a = (none, u) := by
  unfold landBuffer
  rw [hi]
  dsimp only
  rw [ha]

/-- An allocation that succeeds changes nothing but the pools (R171). -/
theorem allocBuf_some_only {d r c h : Nat} (ha : allocBuf s d r c = (some h, u)) : only [.bpm] s u := by
  unfold allocBuf at ha
  dsimp only at ha
  split at ha
  · simp at ha
  · split at ha
    · simp at ha
    · split at ha
      · simp at ha
      · obtain ⟨-, rfl⟩ := Prod.mk.inj ha
        exact Keeps.frame (State.noteLow_keeps.after (State.setAlloc_keeps.after State.setHead_keeps))

/-- The port of a frame's bank, and whether it is twinned, stand as before it was copied. -/
theorem landed_twin {d r c h : Nat} {b : List Byte} (ha : allocBuf s d r c = (some h, u)) :
    (u.putQuay h 0 b).twin ((u.putQuay h 0 b).bankPort (bankOf a.q)) = s.twin (s.bankPort (bankOf a.q)) := by
  have hk : only [.bpm] s (u.putQuay h 0 b) := only_trans (allocBuf_some_only ha) State.putQuay_keeps.frame
  have hr : (u.putQuay h 0 b).regs = s.regs := hk .regs (by decide)
  have hc : (u.putQuay h 0 b).cte = s.cte := hk .cte (by decide)
  have hp : (u.putQuay h 0 b).bankPort (bankOf a.q) = s.bankPort (bankOf a.q) := by
    unfold State.bankPort State.tt
    rw [hc]
  rw [hp]
  unfold State.twin
  rw [reg_of_regs hr]

theorem landMirror_plain {h : Nat} (ht : s.twin (s.bankPort (bankOf a.q)) = false) : landMirror s a h = (true, none, freeMirror s a.mirror) := if_pos (by simp [ht])

theorem landMirror_unmirrored {h : Nat} (ht : s.twin (s.bankPort (bankOf a.q)) = true) (hu : s.unmirrored (s.bankPort (bankOf a.q)) = true) :
    landMirror s a h = (true, none, (freeMirror s a.mirror).bump .QBA_UNMIRRORED a.die) :=
  (if_neg (by simp [ht])).trans (if_pos hu)

section
variable {h m : Nat} (ht : s.twin (s.bankPort (bankOf a.q)) = true) (hu : s.unmirrored (s.bankPort (bankOf a.q)) = false)
include ht hu

theorem landMirror_mirrored : landMirror s a h = match a.mirror.filter (fun m => !s.excluded (hDie m)) with
    | some m => (true, some m, s)
    | none => match makeMirror s h with
      | (some m, t) => (true, some m, t)
      | (none, t) => (false, none, t.bump .QBA_TWIN_FAIL (s.bankPort (bankOf a.q) / 4) [s.bankPort (bankOf a.q) % 4]) :=
  (if_neg (by simp [ht])).trans (if_neg (by simp [hu]))

theorem landMirror_held (hm : a.mirror = some m) (he : s.excluded (hDie m) = false) : landMirror s a h = (true, some m, s) := by
  have hf : a.mirror.filter (fun m => !s.excluded (hDie m)) = some m := by simp [hm, Option.filter, he]
  rw [landMirror_mirrored ht hu, hf]

theorem landMirror_made (hm : ∀ m, a.mirror = some m → s.excluded (hDie m) = true) (hx : makeMirror s h = (some m, t)) : landMirror s a h = (true, some m, t) := by
  have hf : a.mirror.filter (fun m => !s.excluded (hDie m)) = none := by
    rw [Option.filter_eq_none_iff]
    simpa using hm
  rw [landMirror_mirrored ht hu, hf]
  dsimp only
  rw [hx]

theorem landMirror_refused (hm : ∀ m, a.mirror = some m → s.excluded (hDie m) = true) (hx : makeMirror s h = (none, t)) :
    landMirror s a h = (false, none, t.bump .QBA_TWIN_FAIL (s.bankPort (bankOf a.q) / 4) [s.bankPort (bankOf a.q) % 4]) := by
  have hf : a.mirror.filter (fun m => !s.excluded (hDie m)) = none := by
    rw [Option.filter_eq_none_iff]
    simpa using hm
  rw [landMirror_mirrored ht hu, hf]
  dsimp only
  rw [hx]

end

theorem admitOne_landed {h : Nat} {m : Option Nat} (hb : a.hand = none ∨ s.quayBad a.handle 0 (128 + a.len) = false) (hk : s.keepsFrame a = true) (hl : landBuffer s a = (some h, t))
    (hm : landMirror t a h = (true, m, u)) : admitOne s a pick = markCopied ((enqueue u a.q (quayItem s a h m)).bump .QBA_KEPT a.die) a.hand := by
  rw [admitOne_kept hb hk, hl]
  dsimp only
  rw [hm]

theorem admitOne_noMirror {h : Nat} {m : Option Nat} (hb : a.hand = none ∨ s.quayBad a.handle 0 (128 + a.len) = false) (hk : s.keepsFrame a = true) (hl : landBuffer s a = (some h, t))
    (hm : landMirror t a h = (false, m, u)) : admitOne s a pick = markCopied (admitStaged u { a with handle := h, hand := none } pick) a.hand := by
  rw [admitOne_kept hb hk, hl]
  dsimp only
  rw [hm]

theorem admitOne_noBuffer (hb : a.hand = none ∨ s.quayBad a.handle 0 (128 + a.len) = false) (hk : s.keepsFrame a = true) (hl : landBuffer s a = (none, t)) :
    admitOne s a pick = markCopied (admitStaged t a pick) a.hand := by
  rw [admitOne_kept hb hk, hl]

/-- Row 2 of R186. -/
theorem admitStaged_packed {j o : Nat} (h : packFrame s a.die a.q a.len a.edit a.flow s.age32 pick (s.quayBytes a.handle 128 a.len) = (some (j, o), u)) :
    admitStaged s a pick = ((enqueue (freeMirror (releaseCopy u a) a.mirror) a.q (stagedItem s a j o)).modLq a.q (fun l => { l with qStaged := satAdd 32 l.qStaged 1 })).bump .QBA_STAGED a.die := by
  unfold admitStaged
  dsimp only
  rw [h]

/-- Row 3 of R186. -/
theorem admitStaged_refused (h : packFrame s a.die a.q a.len a.edit a.flow s.age32 pick (s.quayBytes a.handle 128 a.len) = (none, u)) :
    admitStaged s a pick = ((freeMirror (releaseCopy u a) a.mirror).modLq a.q (fun l => { l with admitDrop := satAdd 32 l.admitDrop 1 })).bump .QBA_STAGE_REFUSED a.die := by
  unfold admitStaged
  dsimp only
  rw [h]

/-! Admission, and the handoffs. -/

theorem releaseCopy_handoff {id : Nat} (h : a.hand = some id) : releaseCopy s a = s := if_pos (by rw [h]; rfl)

theorem cutOff_own (h : a.hand = none) : s.cutOff a = none := by
  unfold State.cutOff
  rw [h]

theorem admitNext_carried (h : s.cutOff a = none) : admitNext s a pick = admitOne s a pick := by
  unfold admitNext
  rw [h]

theorem admitNext_cut {h : Hand} (hc : s.cutOff a = some h) :
    admitNext s a pick = (if h.flood then s else settleSource { s with rsq := { s.rsq with hand := lrem h s.rsq.hand } } h.handle h.mirror).bump .PFB_ROUTE_DROP h.src := by
  unfold admitNext
  rw [hc]

theorem execAdmitFrame_eq {d : Fin 8} (hd : d < s.dies) (ha : s.qba.admitQ.find? (fun a => a.die == d.val) = some a) (hv : v = { s with qba := { s.qba with admitQ := lrem a s.qba.admitQ } })
    (h : admitNext v a pick = t) : exec (.admitFrame d pick) s = .next t := by
  subst hv
  refine onDie_eq hd ?_
  rw [ha]
  exact h

theorem mem_lrem {α : Type} [DecidableEq α] {x y : α} (h : x ≠ y) : ∀ {l : List α}, x ∈ l → x ∈ lrem y l
  | z :: r, hx => by
    unfold lrem
    split
    · next hz => exact (List.mem_cons.mp hx).resolve_left fun e => h (e.trans hz)
    · exact (List.mem_cons.mp hx).elim (fun e => e ▸ List.mem_cons_self) fun hr => List.mem_cons_of_mem _ (mem_lrem h hr)

/-- A handoff to another die stays listed as its copy is marked (R245). -/
theorem markCopied_listed {id : Nat} {h : Hand} (hf : u.rsq.hand.find? (fun h => h.id = id) = some h) (hne : h.src ≠ h.dst) : { h with copied := true } ∈ (markCopied u (some id)).rsq.hand := by
  have hid : h.id = id := by simpa using List.find?_some hf
  have hmem : ({ h with copied := true } : Hand) ∈ u.rsq.hand.map (fun h => if h.id = id then { h with copied := true } else h) :=
    List.mem_map.mpr ⟨h, List.mem_of_find?_eq_some hf, if_pos hid⟩
  show _ ∈ (settleLocal _ id).rsq.hand
  unfold settleLocal
  split
  · next x hx =>
    have hx' := List.find?_some hx
    simp only [Bool.and_eq_true, decide_eq_true_eq] at hx'
    split
    · exact hmem
    · rw [(show only [.bpm] _ _ from settleSource_keeps.frame) .rsq (by decide)]
      exact mem_lrem (fun e => hne (by rw [← e] at hx'; exact hx'.2)) hmem
  · exact hmem

/-! Dwell staging. -/

theorem offerItem_packed {q j o : Nat} {i : LQItem} (hb : s.quayBad i.handle 128 i.len = false) (hfl : i.flood = false)
    (h : packFrame s (s.server (queueDie q)) q i.len i.edit i.flow i.eage pick (s.quayBytes i.handle 128 i.len) = (some (j, o), u)) :
    offerItem s q pick i = ((freeBuf (u.modLq q (fun l => { l with items := l.items.map (fun x => if x = i then { i with staged := true, handle := 0, seg := j, off := o, flood := false } else x) })) i.handle).modLq q
      (fun l => { l with qDwell := satAdd 32 l.qDwell 1 })).bump .QBA_DWELL_STAGED (s.server (queueDie q)) := by
  unfold offerItem
  dsimp only
  rw [if_neg (by simp [hb]), h]
  dsimp only
  rw [if_neg (by simp [hfl])]

theorem offerItem_refused {q : Nat} {i : LQItem} (hb : s.quayBad i.handle 128 i.len = false)
    (h : packFrame s (s.server (queueDie q)) q i.len i.edit i.flow i.eage pick (s.quayBytes i.handle 128 i.len) = (none, u)) :
    offerItem s q pick i = (u.modLq q (fun l => { l with items := l.items.map (fun x => if x = i then { i with offer := s.ticksOn (s.server (queueDie q)) + 1 } else x) })).bump
      .QBA_DWELL_REFUSED (s.server (queueDie q)) := by
  unfold offerItem
  dsimp only
  rw [if_neg (by simp [hb]), h]

theorem execDwellStage_eq {q : Fin 262144} {i : LQItem} (hd : q.val / 32768 < s.dies) (hl : s.lqDwell q ≠ 0) (ho : s.queueOpen q = false) (hc : s.dwellCandidate q = some i)
    (h : offerItem s q pick i = t) : exec (.dwellStage q pick) s = .next t := by
  refine onDie_eq hd ((if_neg (by simp [hl, ho])).trans ?_)
  rw [hc]
  exact h

end

/-- Settles O23: the rows of R186 by `admitOne`, the mirrors by `landMirror`, the handoffs by `admitNext`. -/
theorem framesAreAdmitted : Obligations.FramesAreAdmitted := by
  intro s
  refine ⟨fun d pick a v hd ha hv => ⟨fun hh hk => ⟨fun hb => ?_, fun hb => ⟨fun j o u hp => ?_, fun u hp => ?_⟩⟩, fun hh hf hu p hp => ⟨fun ht => ?_, fun ht hun => ?_, fun ht hun => ⟨fun m hm he => ?_, fun hm => ⟨fun m u hx => ?_, fun u hx => ?_⟩⟩⟩,
    fun id hi => ⟨fun h hc => ⟨fun hfl => ?_, fun hfl => ?_⟩, fun hc hb => ⟨fun hf hu ht h u hal => ?_, fun hf hu h u m w hal => ⟨fun hm => ?_, fun hm => ?_⟩, fun hf hu u hal => ?_, fun hk => ?_⟩, fun hc hb => ?_⟩⟩,
    fun u id h hf hne => markCopied_listed hf hne, fun q pick i d hd hl ho hc hb hdd => ⟨fun j o u hp hfl => ?_, fun u hp => ?_⟩⟩
  · have hk' : v.keepsFrame a = false := hv ▸ keepsFrame_false hk
    refine execAdmitFrame_eq hd ha hv ((admitNext_carried (cutOff_own hh)).trans ?_)
    rw [admitOne_bad (hv ▸ hb) (.inr hk'), hh]
    rfl
  · have hk' : v.keepsFrame a = false := hv ▸ keepsFrame_false hk
    refine execAdmitFrame_eq hd ha hv ((admitNext_carried (cutOff_own hh)).trans ?_)
    rw [admitOne_staged (hv ▸ hb) hk', hh, admitStaged_packed (by subst hv; exact hp)]
    subst hv
    rfl
  · have hk' : v.keepsFrame a = false := hv ▸ keepsFrame_false hk
    refine execAdmitFrame_eq hd ha hv ((admitNext_carried (cutOff_own hh)).trans ?_)
    rw [admitOne_staged (hv ▸ hb) hk', hh, admitStaged_refused (by subst hv; exact hp)]
    rfl
  · have hk : v.keepsFrame a = true := hv ▸ keepsFrame_true hf hu
    refine execAdmitFrame_eq hd ha hv ((admitNext_carried (cutOff_own hh)).trans ?_)
    rw [admitOne_landed (.inl hh) hk (landBuffer_own hh) (landMirror_plain (by subst hv hp; exact ht)), hh]
    subst hv
    rfl
  · have hk : v.keepsFrame a = true := hv ▸ keepsFrame_true hf hu
    refine execAdmitFrame_eq hd ha hv ((admitNext_carried (cutOff_own hh)).trans ?_)
    rw [admitOne_landed (.inl hh) hk (landBuffer_own hh) (landMirror_unmirrored (by subst hv hp; exact ht) (by subst hv hp; exact hun)), hh]
    subst hv
    rfl
  · have hk : v.keepsFrame a = true := hv ▸ keepsFrame_true hf hu
    refine execAdmitFrame_eq hd ha hv ((admitNext_carried (cutOff_own hh)).trans ?_)
    rw [admitOne_landed (.inl hh) hk (landBuffer_own hh) (landMirror_held (by subst hv hp; exact ht) (by subst hv hp; exact hun) hm (by subst hv; exact he)), hh]
    subst hv
    rfl
  · have hk : v.keepsFrame a = true := hv ▸ keepsFrame_true hf hu
    refine execAdmitFrame_eq hd ha hv ((admitNext_carried (cutOff_own hh)).trans ?_)
    rw [admitOne_landed (.inl hh) hk (landBuffer_own hh) (landMirror_made (by subst hv hp; exact ht) (by subst hv hp; exact hun) (by subst hv; exact hm) hx), hh]
    subst hv
    rfl
  · have hk : v.keepsFrame a = true := hv ▸ keepsFrame_true hf hu
    have heta : ({ a with handle := a.handle, hand := none } : Admit) = a := by rw [← hh]
    refine execAdmitFrame_eq hd ha hv ((admitNext_carried (cutOff_own hh)).trans ?_)
    rw [admitOne_noMirror (.inl hh) hk (landBuffer_own hh) (landMirror_refused (by subst hv hp; exact ht) (by subst hv hp; exact hun) (by subst hv; exact hm) hx), heta, hh]
    subst hv hp
    rfl
  · refine execAdmitFrame_eq hd ha hv ((admitNext_cut (by subst hv; exact hc)).trans ?_)
    rw [if_neg (by simp [hfl])]
    subst hv
    rfl
  · refine execAdmitFrame_eq hd ha hv ((admitNext_cut (by subst hv; exact hc)).trans ?_)
    rw [if_pos hfl]
  · have hk : v.keepsFrame a = true := hv ▸ keepsFrame_true hf hu
    have hal' : allocBuf v a.die (portRegion (v.bankPort (bankOf a.q))) (hClass a.handle) = (some h, u) := by subst hv; exact hal
    refine execAdmitFrame_eq hd ha hv ((admitNext_carried (by subst hv; exact hc)).trans ?_)
    rw [admitOne_landed (.inr (hv ▸ hb)) hk (landBuffer_copy hi hal') (landMirror_plain ((landed_twin hal').trans (by subst hv; exact ht))), hi]
    subst hv
    rfl
  · have hk : v.keepsFrame a = true := hv ▸ keepsFrame_true hf hu
    have hal' : allocBuf v a.die (portRegion (v.bankPort (bankOf a.q))) (hClass a.handle) = (some h, u) := by subst hv; exact hal
    refine execAdmitFrame_eq hd ha hv ((admitNext_carried (by subst hv; exact hc)).trans ?_)
    rw [admitOne_landed (.inr (hv ▸ hb)) hk (landBuffer_copy hi hal') hm, hi]
    subst hv
    rfl
  · have hk : v.keepsFrame a = true := hv ▸ keepsFrame_true hf hu
    have hal' : allocBuf v a.die (portRegion (v.bankPort (bankOf a.q))) (hClass a.handle) = (some h, u) := by subst hv; exact hal
    refine execAdmitFrame_eq hd ha hv ((admitNext_carried (by subst hv; exact hc)).trans ?_)
    rw [admitOne_noMirror (.inr (hv ▸ hb)) hk (landBuffer_copy hi hal') hm, hi]
  · have hk : v.keepsFrame a = true := hv ▸ keepsFrame_true hf hu
    have hal' : allocBuf v a.die (portRegion (v.bankPort (bankOf a.q))) (hClass a.handle) = (none, u) := by subst hv; exact hal
    refine execAdmitFrame_eq hd ha hv ((admitNext_carried (by subst hv; exact hc)).trans ?_)
    rw [admitOne_noBuffer (.inr (hv ▸ hb)) hk (landBuffer_none hi hal'), hi]
  · have hk' : v.keepsFrame a = false := hv ▸ keepsFrame_false hk
    refine execAdmitFrame_eq hd ha hv ((admitNext_carried (by subst hv; exact hc)).trans ?_)
    rw [admitOne_staged (hv ▸ hb) hk', hi]
  · refine execAdmitFrame_eq hd ha hv ((admitNext_carried (by subst hv; exact hc)).trans ?_)
    rw [admitOne_bad (hv ▸ hb) (.inl (by rw [hi]; rfl)), hi, releaseCopy_handoff hi]
  · subst hdd
    exact execDwellStage_eq hd hl ho hc (offerItem_packed hb hfl hp)
  · subst hdd
    exact execDwellStage_eq hd hl ho hc (offerItem_refused hb hp)

end Sys2Proof.Machine

/-! PROOFS. Segments that close and are written (spec/07 R202 to R208). -/

namespace Sys2Proof.Machine

/-! Requests at the stacks. -/

/-- From s to t requests joined those that wait at the stacks; none left, the stacks that are lost and the slots of the open segments stay. -/
structure PushesReq (s t : State) : Prop where
  grow : ∀ r ∈ s.ssc.req, r ∈ t.ssc.req
  lost : t.ssc.lost = s.ssc.lost
  slots : t.ssc.slots = s.ssc.slots

namespace PushesReq

variable {s t u : State}

theorem of_ssc (h : t.ssc = s.ssc) : PushesReq s t := ⟨fun r hr => h ▸ hr, by rw [h], by rw [h]⟩

theorem of_keeps {l : List Piece} (h : Keeps l s t) (hl : Piece.ssc ∉ l) : PushesReq s t := of_ssc (h.frame .ssc hl)

theorem refl (s : State) : PushesReq s s := of_ssc rfl

theorem after (h : PushesReq t u) (k : PushesReq s t) : PushesReq s u := ⟨fun r hr => h.grow r (k.grow r hr), h.lost.trans k.lost, h.slots.trans k.slots⟩

theorem ite {c : Prop} [Decidable c] (h : PushesReq s t) (k : PushesReq s u) : PushesReq s (if c then t else u) := by
  split
  · exact h
  · exact k

theorem foldl {α : Type} {f : State → α → State} {xs : List α} (hf : ∀ t x, PushesReq t (f t x)) (s : State) : PushesReq s (xs.foldl f s) :=
  foldl_keep (PushesReq s) f (fun t x h => (hf t x).after h) xs s (refl s)

end PushesReq

/-- A write waits at the stack of die e, through a port. -/
def State.asksWrite (s : State) (port e : Nat) (w : ReqWhat) : Prop := ∃ r ∈ s.ssc.req, r.die = e ∧ r.what = w ∧ r.write = true ∧ r.port = port

theorem State.asksWrite.mono {s t : State} {port e : Nat} {w : ReqWhat} (h : s.asksWrite port e w) (k : PushesReq s t) : t.asksWrite port e w := by
  obtain ⟨r, hr, hx⟩ := h
  exact ⟨r, k.grow r hr, hx⟩

section
variable {s : State} {port j : Nat} {x : Seg}

theorem pushReq_pushes (d p : Nat) (wr : Bool) (w : ReqWhat) (m tgt : Nat) (dl : Option Nat) : PushesReq s (pushReq s d p wr w m tgt dl) := by
  unfold pushReq
  split
  · exact .refl s
  · exact ⟨fun r hr => List.mem_append_left _ hr, rfl, rfl⟩

theorem pushPort_pushes (d p : Nat) (wr : Bool) (w : ReqWhat) (m : Nat) : PushesReq s (pushPort s d p wr w m) := pushReq_pushes _ _ _ _ _ _ _

/-- A write asked for at a stack that is there waits there. -/
theorem pushPort_asks {d : Nat} (w : ReqWhat) (m : Nat) (h : nbit s.ssc.lost d = false) : (pushPort s d port true w m).asksWrite port d w := by
  unfold pushPort pushReq
  rw [if_neg (by simp [h])]
  exact ⟨_, List.mem_append_right _ (List.mem_singleton.mpr rfl), rfl, rfl, rfl, rfl⟩

theorem pushPort_seg (d p : Nat) (wr : Bool) (w : ReqWhat) (m : Nat) : (pushPort s d p wr w m).ssc.seg = s.ssc.seg := by
  unfold pushPort pushReq
  split <;> rfl

theorem writeChunks_pushes (mask : Nat) (ks : List Nat) : PushesReq s (writeChunks s port j mask ks) :=
  .after (.foldl (fun _ _ => pushPort_pushes _ _ _ _ _) _) ⟨fun _ h => h, rfl, rfl⟩

theorem writeRecord_pushes : PushesReq s (writeRecord s port j) :=
  .after (t := pushPort (pushPort s (s.homeDie j) port true (.record j) (pieceMask (recordPiece s j false))) (partner (s.homeDie j)) port true (.record j) (pieceMask (recordPiece s j true)))
    ⟨fun _ h => h, rfl, rfl⟩ ((pushPort_pushes _ _ _ _ _).after (pushPort_pushes _ _ _ _ _))

theorem writeRecord_seg : (writeRecord s port j).ssc.seg = s.ssc.seg := (pushPort_seg _ _ _ _ _).trans (pushPort_seg _ _ _ _ _)

/-- Both copies of a record are asked for (R202). -/
theorem writeRecord_asks {e : Nat} (he : e = s.homeDie j ∨ e = partner (s.homeDie j)) (h : nbit s.ssc.lost e = false) : (writeRecord s port j).asksWrite port e (.record j) := by
  rcases he with rfl | rfl
  · exact ((pushPort_asks _ _ h).mono (pushPort_pushes _ _ _ _ _)).mono ⟨fun _ h => h, rfl, rfl⟩
  · have hl := (pushPort_pushes (s := s) (s.homeDie j) port true (.record j) (pieceMask (recordPiece s j false))).lost
    exact (pushPort_asks _ _ (hl ▸ h)).mono ⟨fun _ h => h, rfl, rfl⟩

theorem recKey_ne {d e : Nat} (h : d ≠ e) : recKey d j ≠ recKey e j := by
  unfold recKey
  omega

/-- Both copies of a record hold its bytes (R202). -/
theorem writeRecord_recs {d : Nat} (hd : d = s.homeDie j ∨ d = partner (s.homeDie j)) : mfind (writeRecord s port j).ssc.recs (recKey d j) = some (s.recordBytes j) := by
  show mfind (minsert (recKey (partner (s.homeDie j)) j) (s.recordBytes j) (minsert (recKey (s.homeDie j) j) (s.recordBytes j) _)) _ = _
  by_cases h : d = partner (s.homeDie j)
  · rw [h, mfind_minsert_self]
  · rw [mfind_minsert_other _ _ _ (recKey_ne h), hd.resolve_right h, mfind_minsert_self]

/-- The record of a segment is made of its entry and of its queue's list (R202). -/
theorem recordBytes_of {t : State} (hs : t.seg j = s.seg j) (hq : ∀ q, (t.lq q).segs = (s.lq q).segs) : t.recordBytes j = s.recordBytes j := by
  unfold State.recordBytes State.nextSeg
  rw [hs]
  simp only [hq]

/-- The last chunk is zero-padded and asked for, the parity chunk too, and the entry says that the segment closes; its record is not yet written (R206). -/
def State.tailWritten (s : State) (port j : Nat) (x : Seg) : State :=
  let tail := (8192 - x.fill % 8192) % 8192
  let t := s.putSeg j x.fill (List.replicate tail 0)
  let t := if tail = 0 then t else writeChunks t port j x.smask [x.fill / 8192]
  match parityDie x.smask j with
    | some d => pushPort t d port true (.chunk j d) allPc
    | none => t

theorem finishSegment_eq : finishSegment s port j x = writeRecord ((s.tailWritten port j x).setSeg j { x with st := .closing }) port j := rfl

theorem tailWritten_pushes : PushesReq s (s.tailWritten port j x) := by
  unfold State.tailWritten
  extract_lets tail t u
  have ht : PushesReq s t := ⟨fun _ h => h, rfl, rfl⟩
  have hu : PushesReq s u := .ite ht ((writeChunks_pushes _ _).after ht)
  split
  · exact (pushPort_pushes _ _ _ _ _).after hu
  · exact hu

theorem writeChunks_asks {mask k : Nat} (h : nbit s.ssc.lost (chunkDie mask j k) = false) : (writeChunks s port j mask [k]).asksWrite port (chunkDie mask j k) (.chunk j (chunkDie mask j k)) :=
  pushPort_asks _ _ h

theorem tailWritten_asks {e : Nat} (he : x.fill % 8192 ≠ 0 ∧ e = chunkDie x.smask j (x.fill / 8192) ∨ parityDie x.smask j = some e) (h : nbit s.ssc.lost e = false) :
    (s.tailWritten port j x).asksWrite port e (.chunk j e) := by
  unfold State.tailWritten
  extract_lets tail t u
  have hu : PushesReq s u := .ite ⟨fun _ h => h, rfl, rfl⟩ ((writeChunks_pushes _ _).after ⟨fun _ h => h, rfl, rfl⟩)
  rcases he with ⟨hf, rfl⟩ | hp
  · have ha : u.asksWrite port (chunkDie x.smask j (x.fill / 8192)) (.chunk j (chunkDie x.smask j (x.fill / 8192))) := by
      have hx : u = writeChunks t port j x.smask [x.fill / 8192] := if_neg (by omega)
      rw [hx]
      exact writeChunks_asks h
    split
    · exact ha.mono (pushPort_pushes _ _ _ _ _)
    · exact ha
  · rw [hp]
    exact pushPort_asks _ _ (hu.lost ▸ h)

theorem tailWritten_only : only [.ssc] s (s.tailWritten port j x) := by
  unfold State.tailWritten
  extract_lets tail t u
  have hu : Keeps [.ssc] s u := .ite State.putSeg_keeps (writeChunks_keeps.after State.putSeg_keeps)
  split
  · exact Keeps.frame (pushPort_keeps.after hu)
  · exact hu.frame

theorem homeDie_of_part {t u : State} (h : u.part = t.part) {e : Seg} : (u.setSeg j e).homeDie j = t.homeDie j := by
  show j % u.dies = j % t.dies
  unfold State.dies
  rw [h]

theorem finishSegment_asks {e : Nat} {w : ReqWhat} (he : (x.fill % 8192 ≠ 0 ∧ e = chunkDie x.smask j (x.fill / 8192) ∧ w = .chunk j e) ∨ (parityDie x.smask j = some e ∧ w = .chunk j e)
    ∨ ((e = s.homeDie j ∨ e = partner (s.homeDie j)) ∧ w = .record j)) (h : nbit s.ssc.lost e = false) : (finishSegment s port j x).asksWrite port e w := by
  have hset : PushesReq (s.tailWritten port j x) ((s.tailWritten port j x).setSeg j { x with st := .closing }) := ⟨fun _ h => h, rfl, rfl⟩
  rw [finishSegment_eq]
  rcases he with ⟨hf, he, rfl⟩ | ⟨he, rfl⟩ | ⟨he, rfl⟩
  · exact ((tailWritten_asks (.inl ⟨hf, he⟩) h).mono hset).mono writeRecord_pushes
  · exact ((tailWritten_asks (.inr he) h).mono hset).mono writeRecord_pushes
  · refine writeRecord_asks ?_ ?_
    · rwa [homeDie_of_part (tailWritten_only .part (by decide))]
    · exact (hset.after tailWritten_pushes).lost ▸ h

theorem finishSegment_seg : (finishSegment s port j x).seg j = some { x with st := .closing } := by
  unfold State.seg
  rw [finishSegment_eq, writeRecord_seg]
  exact mfind_minsert_self _ _ _

theorem finishSegment_slots : (finishSegment s port j x).ssc.slots = s.ssc.slots := by
  rw [finishSegment_eq]
  exact writeRecord_pushes.slots.trans tailWritten_pushes.slots

theorem finishSegment_only : only [.ssc] s (finishSegment s port j x) := finishSegment_keeps.frame

/-- Both copies of the record of a segment that closes hold its bytes (R202, R206). -/
theorem finishSegment_recs {d : Nat} (hd : d = s.homeDie j ∨ d = partner (s.homeDie j)) :
    mfind (finishSegment s port j x).ssc.recs (recKey d j) = some ((finishSegment s port j x).recordBytes j) := by
  have hq : (finishSegment s port j x).qba = ((s.tailWritten port j x).setSeg j { x with st := .closing }).qba := writeRecord_keeps.frame .qba (by decide)
  have hb : (finishSegment s port j x).recordBytes j = ((s.tailWritten port j x).setSeg j { x with st := .closing }).recordBytes j :=
    recordBytes_of (congrArg (mfind · j) writeRecord_seg) (fun q => by unfold State.lq; rw [hq])
  rw [hb, finishSegment_eq]
  exact writeRecord_recs (by rwa [homeDie_of_part (tailWritten_only .part (by decide))])

/-! A segment closed. -/

theorem lq_of_qba {t : State} (h : t.qba = s.qba) (q : Nat) : t.lq q = s.lq q := by
  unfold State.lq
  rw [h]

theorem closeSegment_open {part : Bool} (hs : s.seg j = some x) (ho : x.st = .opened) : closeSegment s j part =
    let u := finishSegment s 1 j x
    let t := (({ u with ssc := { u.ssc with slots := u.ssc.slots.filter (fun e => e.2 ≠ j) } } : State).modLq x.q (fun l => { l with opened := if l.opened = some j then none else l.opened })).bump .SSC_SEG_WRITTEN x.owner
    if part then t.bump .SSC_SEG_PARTIAL x.owner else t := by
  unfold closeSegment
  rw [hs]
  exact if_neg (by simp [ho])

/-- What a segment leaves that closes partly filled (R202, R206, R207). -/
theorem closeSegment_closes {t : State} (hr : mrise 0 s.qba.lq = true) (hs : s.seg j = some x) (ho : x.st = .opened) (ht : t = closeSegment s j true) :
    t.seg j = some { x with st := .closing } ∧ t.ssc.slots = s.ssc.slots.filter (fun e => e.2 ≠ j)
      ∧ t.lq x.q = { s.lq x.q with opened := if (s.lq x.q).opened = some j then none else (s.lq x.q).opened } ∧ only [.regs, .qba, .ssc] s t
      ∧ (∀ r, r ∈ (finishSegment s 1 j x).ssc.req → r ∈ t.ssc.req) ∧ t.ssc.recs = (finishSegment s 1 j x).ssc.recs ∧ t.recordBytes j = (finishSegment s 1 j x).recordBytes j := by
  rw [closeSegment_open hs ho] at ht
  dsimp only at ht
  rw [if_pos rfl] at ht
  have hqu : (finishSegment s 1 j x).qba = s.qba := finishSegment_only .qba (by decide)
  have hsl := finishSegment_slots (s := s) (port := 1) (j := j) (x := x)
  have hsg := finishSegment_seg (s := s) (port := 1) (j := j) (x := x)
  have hou := finishSegment_only (s := s) (port := 1) (j := j) (x := x)
  generalize finishSegment s 1 j x = u at *
  have hk : only [.regs] _ t := ht ▸ Keeps.frame (State.bump_keeps.after State.bump_keeps)
  have hssc : t.ssc = { u.ssc with slots := u.ssc.slots.filter (fun e => e.2 ≠ j) } := hk .ssc (by decide)
  have hqba := hk .qba (by decide)
  have hlq : ∀ q, t.lq q = (u.modLq x.q (fun l => { l with opened := if l.opened = some j then none else l.opened })).lq q := fun q => lq_of_qba hqba q
  have hru : mrise 0 u.qba.lq = true := hqu ▸ hr
  have hul : ∀ q, u.lq q = s.lq q := lq_of_qba hqu
  refine ⟨?_, ?_, ?_, ?_, fun r h => ?_, ?_, recordBytes_of ?_ fun q => ?_⟩
  · exact (congrArg (fun c : Ssc => mfind c.seg j) hssc).trans hsg
  · rw [hssc, hsl]
  · rw [hlq, ← hul]
    exact State.lq_setLq_self hru _ _
  · exact only_trans (only_mono (by simp) hou) (only_trans (only_mono (by simp) (ssc_only _ _)) (only_trans (only_mono (by simp) State.modLq_keeps.frame) (only_mono (by simp) hk)))
  · rw [hssc]
    exact h
  · rw [hssc]
  · exact (congrArg (fun c : Ssc => mfind c.seg j) hssc).trans rfl
  · have hk' : KeepsLq LQ.segs u (u.modLq x.q (fun l => { l with opened := if l.opened = some j then none else l.opened })) := State.modLq_keepsLq _ fun _ => rfl
    rw [hlq]
    exact hk'.same hru q

end

/-! Buffers freed one after the other. -/

section
variable {s : State} {j : Nat} {x : Seg}

/-- Freeing a buffer does not look at the staging store. -/
theorem freeMirror_ssc (m : Option Nat) (y : Ssc) : freeMirror { s with ssc := y } m = { freeMirror s m with ssc := y } := by
  cases m with
  | none => rfl
  | some h =>
    show freeBuf { s with ssc := y } h = { freeBuf s h with ssc := y }
    have hp : ({ s with ssc := y } : State).poolOf h = s.poolOf h := rfl
    unfold freeBuf
    rw [hp]
    split
    · rfl
    · next i _ =>
      have hq : ({ s with ssc := y } : State).quarantined (hDie h) i = s.quarantined (hDie h) i := rfl
      dsimp only
      rw [hq]
      split <;> rfl

theorem freeMirrors_ssc (l : List LQItem) (y : Ssc) : ∀ s : State, l.foldl (fun t i => freeMirror t i.mirror) { s with ssc := y } = { l.foldl (fun t i => freeMirror t i.mirror) s with ssc := y } := by
  induction l with
  | nil => exact fun _ => rfl
  | cons i r ih =>
    intro s
    show List.foldl _ (freeMirror { s with ssc := y } i.mirror) r = _
    rw [freeMirror_ssc]
    exact ih _

/-- A pool is told by the registers and the part (R169). -/
theorem poolOf_of {t : State} (hr : t.regs = s.regs) (hp : t.part = s.part) (h : Nat) : t.poolOf h = s.poolOf h := by
  unfold State.poolOf State.inPool State.poolBase State.poolCount State.dies
  simp only [rf_of_regs hr, hp]

/-- Whether a buffer is free; no bit of the bitmap is listed twice. -/
def State.freed (s : State) (m : Nat) : Prop := mrise 0 s.bpm.alloc = true ∧ s.allocated m = false

/-- The bitmap after a free: the buffer's bit is cleared, if it is of a pool. -/
theorem freeBuf_alloc (h : Nat) : (freeBuf s h).bpm.alloc = if (s.poolOf h).isSome then mset false s.bpm.alloc (hKey h) false else s.bpm.alloc := by
  unfold freeBuf
  split
  next hp => rw [hp]; rfl
  next i hp =>
    rw [hp]
    dsimp only
    split <;> rfl

theorem freeBuf_rise (h : Nat) (hr : mrise 0 s.bpm.alloc = true) : mrise 0 (freeBuf s h).bpm.alloc = true := by
  rw [freeBuf_alloc]
  split
  · exact mset_rise _ _ _ _ hr
  · exact hr

/-- A buffer of a pool is free once it is freed (R174). -/
theorem freeBuf_freed {h : Nat} (hr : mrise 0 s.bpm.alloc = true) (hp : (s.poolOf h).isSome = true) : (freeBuf s h).allocated h = false := by
  show mget false (freeBuf s h).bpm.alloc (hKey h) = false
  rw [freeBuf_alloc, if_pos hp]
  exact mget_mset_self_rise _ _ _ _ hr

/-- A free buffer stays free as another is freed. -/
theorem freeBuf_freed_other {m : Nat} (h : Nat) (hr : mrise 0 s.bpm.alloc = true) (hm : s.allocated m = false) : (freeBuf s h).allocated m = false := by
  show mget false (freeBuf s h).bpm.alloc (hKey m) = false
  rw [freeBuf_alloc]
  split
  · by_cases hk : hKey m = hKey h
    · exact (congrArg (mget false _) hk).trans (mget_mset_self_rise _ _ _ _ hr)
    · exact (mget_mset_other_rise _ _ _ _ _ _ hk hr).trans hm
  · exact hm

theorem freeMirror_freed {m : Nat} (o : Option Nat) (h : s.freed m) : (freeMirror s o).freed m := by
  cases o with
  | none => exact h
  | some k => exact ⟨freeBuf_rise k h.1, freeBuf_freed_other k h.1 h.2⟩

theorem freeMirrors_freed {m : Nat} : ∀ (l : List LQItem) (s : State), mrise 0 s.bpm.alloc = true → (s.poolOf m).isSome = true → (∃ i ∈ l, i.mirror = some m) →
    (l.foldl (fun t i => freeMirror t i.mirror) s).allocated m = false
  | [], _, _, _, h => by simp at h
  | i :: r, s, hr, hp, h => by
    have hk : only [.bpm] s (freeMirror s i.mirror) := freeMirror_keeps.frame
    by_cases hi : i.mirror = some m
    · have h1 : (freeMirror s i.mirror).freed m := by
        rw [hi]
        exact ⟨freeBuf_rise m hr, freeBuf_freed hr hp⟩
      exact (foldl_keep (fun t : State => t.freed m) (fun t i => freeMirror t i.mirror) (fun t i h => freeMirror_freed _ h) r _ h1).2
    · obtain ⟨k, hk', hkm⟩ := h
      have hmem : ∃ i ∈ r, i.mirror = some m := ⟨k, (List.mem_cons.mp hk').resolve_left fun e => hi (e ▸ hkm), hkm⟩
      have hrise : mrise 0 (freeMirror s i.mirror).bpm.alloc = true := by
        cases i.mirror with
        | none => exact hr
        | some k => exact freeBuf_rise k hr
      exact freeMirrors_freed r _ hrise (by rw [poolOf_of (hk .regs (by decide)) (hk .part (by decide))]; exact hp) hmem

/-! A segment whose writes are acknowledged. -/

/-- The frame waits for its segment to be written, and has a mirror of its admission (R192). -/
def LQItem.mirrorOf (j : Nat) (i : LQItem) : Bool := i.staged && decide (i.seg = j) && i.mirror.isSome

/-- The segment is written and the mirrors of its frames are freed; frames that it holds no more do not count yet (R192, R206). -/
def State.segStaged (s : State) (j : Nat) (x : Seg) : State := dropStagedMirrors (s.setSeg j { x with st := .written }) x.q j

theorem segStaged_eq (s : State) (j : Nat) (x : Seg) : s.segStaged j x =
    ({ ((s.lq x.q).items.filter (LQItem.mirrorOf j)).foldl (fun t i => freeMirror t i.mirror) s with ssc := { s.ssc with seg := minsert j { x with st := .written } s.ssc.seg } } : State).modLq x.q
      (fun l => { l with items := l.items.map (fun i => if i.mirrorOf j then { i with mirror := none } else i) }) :=
  congrArg (fun t : State => t.modLq x.q fun l => { l with items := l.items.map (fun i => if i.mirrorOf j then { i with mirror := none } else i) }) (freeMirrors_ssc _ _ _)

theorem segStaged_only : only [.bpm, .qba, .ssc] s (s.segStaged j x) := by
  rw [segStaged_eq]
  have hf : Keeps [.bpm] s (((s.lq x.q).items.filter (LQItem.mirrorOf j)).foldl (fun t i => freeMirror t i.mirror) s) := .foldl (fun _ _ => freeMirror_keeps) .refl
  exact only_trans (only_mono (by simp) hf.frame) (only_trans (only_mono (by simp) (ssc_only _ _)) (only_mono (by simp) State.modLq_keeps.frame))

theorem segStaged_bpm : (s.segStaged j x).bpm = (((s.lq x.q).items.filter (LQItem.mirrorOf j)).foldl (fun t i => freeMirror t i.mirror) s).bpm := by
  rw [segStaged_eq]
  rfl

theorem segStaged_ssc : (s.segStaged j x).ssc = { s.ssc with seg := minsert j { x with st := .written } s.ssc.seg } := by
  rw [segStaged_eq]
  rfl

/-- A frame of the segment has no mirror any more (R192). -/
theorem segStaged_unmirrored (hr : mrise 0 s.qba.lq = true) : ∀ i ∈ ((s.segStaged j x).lq x.q).items, i.staged = true → i.seg = j → i.mirror = none := by
  have hf : (((s.lq x.q).items.filter (LQItem.mirrorOf j)).foldl (fun t i => freeMirror t i.mirror) s).qba = s.qba :=
    (show Keeps [.bpm] s _ from .foldl (fun _ _ => freeMirror_keeps) .refl).frame .qba (by decide)
  rw [segStaged_eq]
  generalize List.foldl _ s _ = u at hf
  intro i hi hs hj
  have hl : ({ u with ssc := { s.ssc with seg := minsert j { x with st := .written } s.ssc.seg } } : State).qba.lq = s.qba.lq := congrArg Qba.lq hf
  unfold State.modLq at hi
  rw [State.lq_setLq_self (hl ▸ hr)] at hi
  obtain ⟨k, -, rfl⟩ := List.mem_map.mp hi
  by_cases hm : k.mirrorOf j = true
  · rw [if_pos hm]
  · rw [if_neg hm] at hs hj ⊢
    simpa [LQItem.mirrorOf, hs, hj] using hm

/-! A segment freed. -/

theorem relink_pushes (q : Nat) (o : Option Nat) : PushesReq s (relink s port q o) := by
  unfold relink
  split
  · split
    · exact .ite writeRecord_pushes (.refl s)
    · exact .refl s
  · exact .refl s

theorem relink_seg (q : Nat) (o : Option Nat) : (relink s port q o).ssc.seg = s.ssc.seg := by
  unfold relink
  split
  · split
    · split
      · exact writeRecord_seg
      · rfl
    · rfl
  · rfl

/-- The segment is off every list; the records that name it are not yet written (R202, R204, R208). -/
def State.segGone (s : State) (j : Nat) (x : Seg) : State :=
  ({ s with
    ssc := { s.ssc with seg := mremove j s.ssc.seg, req := s.ssc.req.filter (fun r => r.what.seg ≠ some j), slots := s.ssc.slots.filter (fun e => e.2 ≠ j) }
    cte := { s.cte with pf := s.cte.pf.filter (fun p => p.seg ≠ j) } } : State).modLq x.q
      (fun l => { l with segs := l.segs.filter (· ≠ j), opened := if l.opened = some j then none else l.opened })

theorem freeSegment_eq (hs : s.seg j = some x) : freeSegment s j = relink (writeRecord (s.segGone j x) 1 j) 1 x.q (s.prevSeg x.q j) := by
  unfold freeSegment
  rw [hs]
  rfl

/-- A segment that is freed has no entry, no slot and no prefetch request any more, and its queue lists it no more (R204, R208). -/
theorem freeSegment_frees {t : State} (hr : mrise 0 s.qba.lq = true) (hs : s.seg j = some x) (ht : t = freeSegment s j) :
    t.ssc.seg = mremove j s.ssc.seg ∧ j ∉ (t.lq x.q).segs ∧ (∀ p ∈ t.cte.pf, p.seg ≠ j) ∧ ∀ e ∈ t.ssc.slots, e.2 ≠ j := by
  rw [freeSegment_eq hs] at ht
  subst ht
  have hk := (relink_keeps (s := writeRecord (s.segGone j x) 1 j) (port := 1) (q := x.q) (before := s.prevSeg x.q j)).after writeRecord_keeps
  have hv : ((s.segGone j x).lq x.q).segs = (s.lq x.q).segs.filter (· ≠ j) :=
    congrArg LQ.segs (mget_mset_self_rise _ s.qba.lq x.q _ hr)
  refine ⟨(relink_seg _ _).trans writeRecord_seg, ?_, ?_, ?_⟩
  · rw [lq_of_qba (hk.frame .qba (by decide)), hv]
    simp
  · rw [hk.frame .cte (by decide), show (s.segGone j x).cte.pf = s.cte.pf.filter (fun p => p.seg ≠ j) from rfl]
    simp
  · rw [(relink_pushes _ _).slots, writeRecord_pushes.slots, show (s.segGone j x).ssc.slots = s.ssc.slots.filter (fun e => e.2 ≠ j) from rfl]
    simp

/-! What the acknowledged writes of a segment leave (R206, R208). -/

theorem execSegmentWritten_eq (hs : s.seg j = some x) (hc : x.st = .closing) (hw : s.writesDone j = true) :
    exec (.segmentWritten j) s = .next (if x.left = 0 then
      if x.aged then (freeSegment (s.segStaged j x) j).bump .SSC_AGED_FREE (s.server (queueDie x.q)) else freeSegment (s.segStaged j x) j
      else s.segStaged j x) := by
  show execSegmentWritten j s = _
  unfold execSegmentWritten
  rw [hs]
  exact congrArg Host.Outcome.next (if_pos ⟨hc, hw⟩)

theorem segStaged_seg : (s.segStaged j x).seg j = some { x with st := .written } :=
  (congrArg (fun c : Ssc => mfind c.seg j) segStaged_ssc).trans (mfind_minsert_self _ _ _)

theorem segStaged_rise (hr : mrise 0 s.qba.lq = true) : mrise 0 (s.segStaged j x).qba.lq = true := by
  rw [segStaged_eq]
  refine mset_rise _ _ _ _ ?_
  show mrise 0 (List.foldl _ s _).qba.lq = true
  rwa [(show Keeps [.bpm] s _ from .foldl (fun _ _ => freeMirror_keeps) .refl).frame .qba (by decide)]

/-- The mirrors of the frames of a segment are free once it is written. -/
theorem segStaged_freed (hr : mrise 0 s.bpm.alloc = true) {i : LQItem} (hi : i ∈ (s.lq x.q).items) (hst : i.staged = true) (hj : i.seg = j) {m : Nat} (hm : i.mirror = some m)
    (hp : (s.poolOf m).isSome = true) : (s.segStaged j x).allocated m = false := by
  show mget false (s.segStaged j x).bpm.alloc (hKey m) = false
  rw [segStaged_bpm]
  exact freeMirrors_freed _ s hr hp ⟨i, List.mem_filter.mpr ⟨hi, by simp [LQItem.mirrorOf, hst, hj, hm]⟩, hm⟩

end

/-- Settles O25: segments close and are written. -/
theorem segmentsCloseAndAreWritten : Obligations.SegmentsCloseAndAreWritten := by
  intro s j x hinv hs
  have hr : mrise 0 s.qba.lq = true := hinv.2.1.2.2.2
  refine ⟨fun ho hf h0 ht => ?_, fun hc hw => ?_⟩
  · obtain ⟨hseg, hslots, hlq, honly, hreq, hrecs, hbytes⟩ := closeSegment_closes hr hs ho rfl
    refine ⟨closeSegment s j true, ?_, hseg, hslots, hlq, honly, fun e w he hl => ?_, ?_, ?_⟩
    · show execSegFlushExpiry j s = _
      unfold execSegFlushExpiry
      rw [hs]
      exact congrArg Host.Outcome.next (if_pos ⟨ho, hf, h0, ht⟩)
    · obtain ⟨r, hr, h⟩ := finishSegment_asks he hl
      exact ⟨r, hreq r hr, h⟩
    · rw [hrecs, hbytes, finishSegment_recs (.inl rfl)]
    · rw [hrecs, hbytes, finishSegment_recs (.inr rfl)]
  · have hun := segStaged_unmirrored (x := x) (j := j) hr
    have hfr (h : mrise 0 s.bpm.alloc = true) := fun i hi hst hj m hm hp => segStaged_freed (s := s) (j := j) (x := x) h (i := i) hi hst hj (m := m) hm hp
    have honly := segStaged_only (s := s) (j := j) (x := x)
    by_cases h0 : x.left = 0
    · obtain ⟨hseg, hq, hpf, hsl⟩ := freeSegment_frees (segStaged_rise (j := j) (x := x) hr) segStaged_seg rfl
      have hag := freeSegment_aging (s := s.segStaged j x) j
      have hfk := freeSegment_keeps (s := s.segStaged j x) (j := j)
      have hrun := execSegmentWritten_eq hs hc hw
      rw [if_pos h0] at hrun
      have hbm : Keeps [.regs] (freeSegment (s.segStaged j x) j)
          (if x.aged then (freeSegment (s.segStaged j x) j).bump .SSC_AGED_FREE (s.server (queueDie x.q)) else freeSegment (s.segStaged j x) j) := .ite State.bump_keeps .refl
      generalize (if x.aged then (freeSegment (s.segStaged j x) j).bump .SSC_AGED_FREE (s.server (queueDie x.q)) else freeSegment (s.segStaged j x) j) = t at hrun hbm
      generalize freeSegment (s.segStaged j x) j = v at hseg hq hpf hsl hag hfk hbm
      have hbpm : t.bpm = (s.segStaged j x).bpm := (hbm.frame .bpm (by decide)).trans (hfk.frame .bpm (by decide))
      have hssc := hbm.frame .ssc (by decide)
      have hlq := lq_of_qba (hbm.frame .qba (by decide)) x.q
      have hcte := hbm.frame .cte (by decide)
      have hitems : (t.lq x.q).items = ((s.segStaged j x).lq x.q).items := (congrArg LQ.items hlq).trans (congrArg Prod.fst (hag.same (segStaged_rise hr) x.q))
      refine ⟨t, hrun, only_trans (only_mono (by simp) honly) (only_trans (only_mono (by simp) hfk.frame) (only_mono (by simp) hbm.frame)), ?_, hbpm.trans segStaged_bpm, ?_,
        fun h => absurd h0 h, fun _ => ⟨?_, ?_, ?_, ?_⟩⟩
      · rwa [hitems]
      · intro h i hi hst hj m hm hp
        show mget false t.bpm.alloc (hKey m) = false
        rw [hbpm]
        exact hfr h i hi hst hj m hm hp
      · rw [hssc, hseg, segStaged_ssc]
      · rwa [hlq]
      · rwa [hcte]
      · rwa [hssc]
    · refine ⟨s.segStaged j x, (execSegmentWritten_eq hs hc hw).trans (congrArg Host.Outcome.next (if_neg h0)), only_mono (by simp) honly, hun, segStaged_bpm, hfr,
        fun _ => segStaged_ssc, fun h => absurd h h0⟩

end Sys2Proof.Machine

/-! PROOFS. Requests at the stacks, rows and refresh (spec/07 R211 to R216). -/

namespace Sys2Proof.Machine

section
variable {s : State} {d pc : Nat} {r : HbmReq}

/-- The order of R212 puts urgency first. -/
theorem urgencyAt_of_before {a b : HbmReq} (h : s.before d pc b a = true) : s.urgencyAt d pc a ≤ s.urgencyAt d pc b := by
  unfold State.before at h
  by_cases hu : s.urgencyAt d pc b = s.urgencyAt d pc a
  · exact hu.ge
  · rw [if_pos hu] at h
    exact (of_decide_eq_true h).le

theorem urgencyAt_of_not_before {a b : HbmReq} (h : s.before d pc b a = false) : s.urgencyAt d pc b ≤ s.urgencyAt d pc a := by
  unfold State.before at h
  by_cases hu : s.urgencyAt d pc b = s.urgencyAt d pc a
  · exact hu.le
  · rw [if_pos hu] at h
    exact not_lt.mp (of_decide_eq_false h)

/-- The choice of a pseudo-channel is not less urgent than what it was chosen from. -/
theorem urgencyAt_le_choice : ∀ (l : List HbmReq) (a : HbmReq), ∀ x ∈ a :: l, s.urgencyAt d pc x ≤ s.urgencyAt d pc (l.foldl (fun a b => if s.before d pc b a then b else a) a)
  | [], a, x, hx => by rw [List.mem_singleton.mp hx]; exact le_rfl
  | b :: l, a, x, hx => by
    have ih := urgencyAt_le_choice l (if s.before d pc b a then b else a)
    have hbest : s.urgencyAt d pc a ≤ s.urgencyAt d pc (if s.before d pc b a then b else a) ∧ s.urgencyAt d pc b ≤ s.urgencyAt d pc (if s.before d pc b a then b else a) := by
      cases hb : s.before d pc b a
      · exact ⟨le_rfl, urgencyAt_of_not_before hb⟩
      · exact ⟨urgencyAt_of_before hb, le_rfl⟩
    have hhead := ih _ (List.mem_cons_self ..)
    rcases List.mem_cons.mp hx with rfl | hx
    · exact hbest.1.trans hhead
    · rcases List.mem_cons.mp hx with rfl | hx
      · exact hbest.2.trans hhead
      · exact ih x (List.mem_cons_of_mem _ hx)

/-- No request that waits unhindered is more urgent than the one that is served (R212, R214). -/
theorem urgencyAt_le_nextReq (h : s.nextReq d pc = some r) {x : HbmReq} (hx : x ∈ s.pcReqs d pc) (hh : s.heldUp d pc x = false) : s.urgencyAt d pc x ≤ s.urgencyAt d pc r := by
  have hmem : x ∈ (s.pcReqs d pc).filter (fun r => !s.heldUp d pc r) := List.mem_filter.mpr ⟨hx, by rw [hh]; rfl⟩
  unfold State.nextReq at h
  generalize (s.pcReqs d pc).filter (fun r => !s.heldUp d pc r) = l at h hmem
  cases l with
  | nil => simp at hmem
  | cons a l =>
    rw [← Option.some.inj h]
    exact urgencyAt_le_choice l a x hmem

theorem issueNext_eq {bad : Nat} (h : (countRaw s d pc).nextReq d pc = some r) : issueNext s d pc bad =
    reconstruct (if r.write then (countRaw s d pc).servedReq d pc r else readOutcome ((countRaw s d pc).servedReq d pc r) d (pieceOf (countRaw s d pc) r pc) bad) r pc := by
  unfold issueNext
  dsimp only
  rw [h]
  rfl

end

/-- Settles O26: each command of the stacks at its enabled branch. -/
theorem stacksServeRequests : Obligations.StacksServeRequests := by
  intro s d hd
  refine ⟨fun pc now r v hv hn => ?_, fun id now r hr hl hu => ?_, fun pc bank hw => onDie_eq hd (if_neg (by simp [hw])), fun pc bank => ⟨fun hp hc => ?_, fun hp hc => ?_, fun hp => ?_⟩, fun hot hinv => ?_⟩
  · subst hv
    have hi (bad : Nat) := issueNext_eq (bad := bad) hn
    refine ⟨fun bad hb => onDie_eq hd ((hi bad).trans ?_), fun hw => onDie_eq hd ((hi 1).trans ?_), fun bad hw hb => onDie_eq hd ((hi bad).trans ?_), fun x hx hh => urgencyAt_le_nextReq hn hx hh⟩
    · congr 1
      by_cases hw : r.write = true
      · exact if_pos hw
      · exact (if_neg hw).trans (if_pos (hb.resolve_left hw))
    · rw [hw]
      rfl
    · congr 1
      exact (if_neg (by simp [hw])).trans ((if_neg (by omega)).trans (if_neg (by omega)))
  · refine ⟨_, ?_, (State.bump_keeps (s := { s with ssc := { s.ssc with now := max s.ssc.now now, req := s.ssc.req.map (fun x => if x.id = id then { x with late := true } else x) } })
      (r := .SSC_LATE) (d := r.die) (idx := [r.port])).frame .ssc (by decide), only_trans (only_mono (by simp) (ssc_only _ _)) (only_mono (by simp) State.bump_keeps.frame)⟩
    show execUrgencyLate id now s = _
    unfold execUrgencyLate
    dsimp only
    rw [show (s.at_ now).ssc.req = s.ssc.req from rfl, hr]
    exact congrArg Host.Outcome.next (if_pos ⟨by simp [hl], hu⟩)
  · exact ⟨_, onDie_eq hd ((if_pos hp).trans (if_pos hc)), State.bump_keeps.frame .ssc (by decide), only_trans (only_mono (by simp) (ssc_only _ _)) (only_mono (by simp) State.bump_keeps.frame)⟩
  · exact ⟨_, onDie_eq hd ((if_pos hp).trans (if_neg (by omega))), State.bump_keeps.frame .ssc (by decide), only_trans (only_mono (by simp) (ssc_only _ _)) (only_mono (by simp) State.bump_keeps.frame)⟩
  · exact ⟨_, onDie_eq hd (if_neg (by simp [hp])), ssc_only _ _, rfl⟩
  · exact ⟨_, onDie_live _ _ _ hd, State.reg_setReg_self _ _ _ _ _ hinv.rise, State.setRf_keeps.frame⟩

end Sys2Proof.Machine

/-! PROOFS. Stacks that are trained, spared and lost, and the rebuild (spec/07 R219 to R228). -/

namespace Sys2Proof.Machine

-- Many short proofs follow that each wait for the one before: elaborated in turn, they hold no thread each.
set_option Elab.async false

/-- The registers that the bookkeeping of the stacks writes, on any die. -/
def stackRegs : List Reg :=
  [.SSC_STATE, .SSC_SEG_LOST, .SSC_FRAMES_LOST, .GWE_EVT_LOST, .SSC_PARITY_READS, .TDX_TRC_CTL, .TDX_TRC_WR, .SSC_SEG_WRITTEN, .SSC_SEG_PARTIAL, .SSC_REB_CUR, .SSC_REB_DONE]

/-- An address at which the bookkeeping of the stacks writes. -/
def Booked (a : Nat) : Prop := ∃ r ∈ stackRegs, ∃ d, r.addr d [] = a

theorem booked_of_mem {r : Reg} {d : Nat} (h : r ∈ stackRegs) : Booked (r.addr d []) := ⟨r, h, d, rfl⟩

/-- From s to t the stacks were booked: registers of that bookkeeping alone changed, the group and the lost stacks are the same, and new requests wait at stacks that are there. -/
structure Books (s t : State) : Prop where
  rise : mrise 0 s.regs = true → mrise 0 t.regs = true
  same : mrise 0 s.regs = true → ∀ a, ¬ Booked a → mfind t.regs a = mfind s.regs a
  smask : t.ssc.smask = s.ssc.smask
  lost : t.ssc.lost = s.ssc.lost
  asked : ∀ r ∈ t.ssc.req, r ∈ s.ssc.req ∨ nbit s.ssc.lost r.die = false

namespace Books

variable {s t u : State}

theorem of_writes {A : List Nat} (h : Writes A s t) (hA : ∀ a ∈ A, Booked a) (hs : t.ssc = s.ssc) : Books s t :=
  ⟨h.rise, fun hr a ha => h.same hr a fun hm => ha (hA a hm), by rw [hs], by rw [hs], fun r hr => .inl (hs ▸ hr)⟩

/-- The staging store's own record changed, not the group, the lost stacks and the requests. -/
theorem of_ssc (h : t.regs = s.regs) (h1 : t.ssc.smask = s.ssc.smask) (h2 : t.ssc.lost = s.ssc.lost) (h3 : ∀ r ∈ t.ssc.req, r ∈ s.ssc.req) : Books s t :=
  ⟨fun hr => h ▸ hr, fun _ _ _ => by rw [h], h1, h2, fun r hr => .inl (h3 r hr)⟩

theorem of_keeps {l : List Piece} (h : Keeps l s t) (hl : Piece.regs ∉ l) (hs : Piece.ssc ∉ l) : Books s t :=
  have hx := h.frame .ssc hs
  of_ssc (h.frame .regs hl) (by rw [hx]) (by rw [hx]) fun r hr => hx ▸ hr

theorem refl (s : State) : Books s s := of_ssc rfl rfl rfl fun _ h => h

theorem after (h : Books t u) (k : Books s t) : Books s u :=
  ⟨fun hr => h.rise (k.rise hr), fun hr a ha => (h.same (k.rise hr) a ha).trans (k.same hr a ha), h.smask.trans k.smask, h.lost.trans k.lost,
    fun r hr => (h.asked r hr).elim (k.asked r) fun hn => .inr (k.lost ▸ hn)⟩

theorem seg (h : Books s t) (h0 : u.regs = t.regs) (h1 : u.ssc.smask = t.ssc.smask) (h2 : u.ssc.lost = t.ssc.lost) (h3 : u.ssc.req = t.ssc.req) : Books s u :=
  (of_ssc h0 h1 h2 fun _ hr => h3 ▸ hr).after h

theorem ite {c : Prop} [Decidable c] (h : Books s t) (k : Books s u) : Books s (if c then t else u) := by
  split
  · exact h
  · exact k

theorem foldl {α : Type} {f : State → α → State} {xs : List α} (hf : ∀ t x, Books t (f t x)) (s : State) : Books s (xs.foldl f s) :=
  foldl_keep (Books s) f (fun t x h => (hf t x).after h) xs s (refl s)

theorem reg (h : Books s t) (hr : mrise 0 s.regs = true) {q : Reg} {e : Nat} {jdx : List Nat} (hq : ¬ Booked (q.addr e jdx)) : t.reg q e jdx = s.reg q e jdx := by
  unfold State.reg mget
  rw [h.same hr _ hq]

theorem rf (h : Books s t) (hr : mrise 0 s.regs = true) {q : Reg} {e hi lo : Nat} {jdx : List Nat} (hq : ¬ Booked (q.addr e jdx)) : t.rf q e jdx hi lo = s.rf q e jdx hi lo := by
  unfold State.rf
  rw [h.reg hr hq]

end Books

/-- The address of a register that stands once per die, or once, tells its base. -/
theorem addr_mod {r : Reg} (d : Nat) (h : r.info.base < 0x1000000) : r.addr d [] % 0x1000000 = r.info.base := by
  have hd : dimSum r.info.dims [] = 0 := by cases r.info.dims <;> rfl
  unfold Reg.addr dieBase
  rw [hd]
  split <;> omega

theorem notBooked {r : Reg} (d : Nat) (h : r.info.base < 0x1000000) (hb : ∀ q ∈ stackRegs, q.info.base < 0x1000000 ∧ q.info.base ≠ r.info.base) : ¬ Booked (r.addr d []) := by
  rintro ⟨q, hq, e, he⟩
  obtain ⟨hl, hne⟩ := hb q hq
  exact hne (by rw [← addr_mod e hl, he, addr_mod d h])

theorem notBooked_stack (d : Nat) : ¬ Booked (Reg.addr .SSC_STACK d []) := notBooked d (by decide) (by decide)

theorem notBooked_cfg (d : Nat) : ¬ Booked (Reg.addr .SSC_CFG d []) := notBooked d (by decide) (by decide)

theorem notBooked_limit (d : Nat) : ¬ Booked (Reg.addr .ICU_LIMIT d []) := notBooked d (by decide) (by decide)

section
variable {s : State}

theorem setReg_books (r : Reg) (d : Nat) (w : Word) (h : r ∈ stackRegs) : Books s (s.setReg r d [] w) :=
  .of_writes (A := [r.addr d []]) (s.setReg_writes r d [] w) (by simpa using booked_of_mem h) rfl

theorem setRf_books (r : Reg) (d hi lo v : Nat) (h : r ∈ stackRegs) : Books s (s.setRf r d [] hi lo v) := setReg_books r d _ h

theorem bumpN_books (r : Reg) (d n : Nat) (h : r ∈ stackRegs) : Books s (s.bumpN r d [] n) := setRf_books r d _ _ _ h

theorem bump_books (r : Reg) (d : Nat) (h : r ∈ stackRegs) : Books s (s.bump r d) := bumpN_books r d 1 h

theorem raiseEv_books (code die gen : Nat) (args : List Nat) : Books s (s.raiseEv code die gen args) :=
  .of_writes (A := [Reg.addr .GWE_EVT_LOST 0 []]) (s.raiseEv_writes _ _ _ _) (by simpa using booked_of_mem (by decide)) (State.raiseEv_keeps.frame .ssc (by decide))

theorem bumpSsc_books : Books s (bumpSsc s) := .foldl (fun _ d => setRf_books .SSC_STATE d _ _ _ (by decide)) s

theorem setSsc_books (hi lo v : Nat) : Books s (setSsc s hi lo v) := .foldl (fun _ d => setRf_books .SSC_STATE d _ _ _ (by decide)) s

theorem evRebuild_books (stage : Nat) : Books s (evRebuild s stage) := raiseEv_books _ _ _ _

theorem setRebuild_books (r : Option Rebuild) : Books s (s.setRebuild r) := .of_ssc rfl rfl rfl fun _ h => h

theorem startRebuild_books : Books s (startRebuild s) := by
  have ht : Books s (overDies (fun d t => (t.setReg .SSC_REB_CUR d [] 0).setReg .SSC_REB_DONE d [] 0) s.allDies s) :=
    .foldl (fun _ d => (setReg_books .SSC_REB_DONE d 0 (by decide)).after (setReg_books .SSC_REB_CUR d 0 (by decide))) s
  exact (evRebuild_books 0).after (bumpSsc_books.after ((setRebuild_books _).after ht))

theorem pushReq_books (d p : Nat) (wr : Bool) (w : ReqWhat) (m tgt : Nat) (dl : Option Nat) : Books s (pushReq s d p wr w m tgt dl) := by
  unfold pushReq
  by_cases h : nbit s.ssc.lost d = true
  · rw [if_pos h]
    exact .refl s
  · rw [if_neg h]
    refine ⟨id, fun _ _ _ => rfl, rfl, rfl, fun r hr => ?_⟩
    rcases List.mem_append.mp hr with hr | hr
    · exact .inl hr
    · rw [List.mem_singleton.mp hr]
      exact .inr (by simpa using h)

theorem pushPort_books (d p : Nat) (wr : Bool) (w : ReqWhat) (m : Nat) : Books s (pushPort s d p wr w m) := pushReq_books _ _ _ _ _ _ _

theorem writeRecord_books (port j : Nat) : Books s (writeRecord s port j) :=
  .after (t := pushPort (pushPort s (s.homeDie j) port true (.record j) (pieceMask (recordPiece s j false))) (partner (s.homeDie j)) port true (.record j) (pieceMask (recordPiece s j true)))
    (.of_ssc rfl rfl rfl fun _ h => h) ((pushPort_books _ _ _ _ _).after (pushPort_books _ _ _ _ _))

theorem relink_books (port q : Nat) (o : Option Nat) : Books s (relink s port q o) := by
  unfold relink
  split
  · split
    · exact .ite (writeRecord_books _ _) (.refl s)
    · exact .refl s
  · exact .refl s

theorem writeChunks_books (port j mask : Nat) (ks : List Nat) : Books s (writeChunks s port j mask ks) :=
  .after (.foldl (fun _ _ => pushPort_books _ _ _ _ _) _) (.of_ssc rfl rfl rfl fun _ h => h)

theorem finishSegment_books (port j : Nat) (x : Seg) : Books s (finishSegment s port j x) := by
  have ht : Books s (s.tailWritten port j x) := by
    unfold State.tailWritten
    extract_lets tail t u
    have hp : Books s t := .of_ssc rfl rfl rfl fun _ h => h
    have hu : Books s u := .ite hp ((writeChunks_books _ _ _ _).after hp)
    split
    · exact (pushPort_books _ _ _ _ _).after hu
    · exact hu
  rw [finishSegment_eq]
  exact (writeRecord_books _ _).after (ht.seg rfl rfl rfl rfl)

theorem closeFresh_books (part : Bool) : Books s (closeFresh s part) := by
  unfold closeFresh
  split
  · exact .refl s
  · split
    · exact .refl s
    next j _ =>
      extract_lets t
      have ht : Books s t := setRebuild_books _
      split
      · next x _ =>
        have hx : Books s ((finishSegment t 5 j x).bump .SSC_SEG_WRITTEN x.owner) := (bump_books .SSC_SEG_WRITTEN _ (by decide)).after ((finishSegment_books _ _ _).after ht)
        exact .ite (.ite ((bump_books .SSC_SEG_PARTIAL _ (by decide)).after hx) hx) ht
      · exact ht

theorem freeSegment_books (j : Nat) : Books s (freeSegment s j) := by
  cases h : s.seg j with
  | none =>
    unfold freeSegment
    rw [h]
    exact .refl s
  | some x =>
    rw [freeSegment_eq h]
    exact (relink_books _ _ _).after ((writeRecord_books _ _).after (.of_ssc rfl rfl rfl fun _ h => (List.mem_filter.mp h).1))

theorem dropSegments_books (gone : List Nat) : Books s (dropSegments s gone) := by
  unfold dropSegments
  refine .ite (.refl s) ((raiseEv_books _ _ _ _).after (.foldl (fun t j => ?_) s))
  split
  · exact .refl t
  · exact (freeSegment_books j).after (.after (.of_keeps State.takeStaged_keeps (by decide) (by decide)) ((bumpN_books .SSC_FRAMES_LOST _ _ (by decide)).after (bump_books .SSC_SEG_LOST _ (by decide))))

theorem stageLoss_books (now : Nat) : Books s (stageLoss s now) := dropSegments_books _

theorem checkRecords_books (js : List Nat) : Books s (checkRecords s js) := by
  unfold checkRecords
  exact .ite (.refl s) ((dropSegments_books _).after bumpSsc_books)

theorem readParity_books (by_ j m port mask target : Nat) (deadline : Option Nat) : Books s (readParity s by_ j m port mask target deadline) := by
  unfold readParity
  split
  · exact .refl s
  · exact .after (.foldl (fun _ _ => pushReq_books _ _ _ _ _ _ _) _) (bumpN_books .SSC_PARITY_READS _ _ (by decide))

theorem moveRead_books (r : HbmReq) : Books s (moveRead s r) := by
  unfold moveRead
  split
  · exact readParity_books _ _ _ _ _ _ _
  · exact .ite (pushReq_books _ _ _ _ _ _ _) (.refl s)
  · exact .refl s

theorem loseSpill_books (d : Nat) : Books s (loseSpill s d) := by
  unfold loseSpill
  extract_lets _ t
  have ht : Books s t := .of_ssc rfl rfl rfl fun _ h => h
  refine .ite (.after ?_ ht) ht
  have hs : Books t (stopTrace t d) := .after (.of_keeps State.modTrc_keeps (by decide) (by decide)) (setRf_books .TDX_TRC_CTL d 31 31 0 (by decide))
  exact (setRf_books .TDX_TRC_WR d 30 30 1 (by decide)).after hs

end

/-! A stack that leaves the group (R223). -/

section
variable {s : State} {d : Nat}

/-- The stack is off the group and marked lost, and nothing waits there; what follows from it is not yet done (R223). -/
def State.stackOff (s : State) (d : Nat) : State :=
  { s.setRf .SSC_STACK d [] 30 30 1 with ssc := { s.ssc with smask := removeBit s.ssc.smask d, lost := Nat.lor s.ssc.lost (2 ^ d), req := s.ssc.req.filter (fun r => r.die ≠ d) } }

theorem setRf_ssc (r : Reg) (d hi lo v : Nat) (y : Ssc) : ({ s with ssc := y } : State).setRf r d [] hi lo v = { s.setRf r d [] hi lo v with ssc := y } := rfl

theorem loseStack_books (cause : StackCause) (h : nbit s.ssc.lost d = false) : Books (s.stackOff d) (loseStack s d cause) := by
  unfold loseStack
  rw [if_neg (by simp [h])]
  extract_lets _ _ t0 t1 t2 t3 t4 t5 n t6 t7 t8 t9
  have h2 : Books t0 t2 := (raiseEv_books _ _ _ _).after bumpSsc_books
  have h4 : Books t0 t4 := (loseSpill_books _).after ((checkRecords_books _).after ((stageLoss_books _).after h2))
  have h5 : Books t0 t5 := .after (.foldl (fun _ _ => moveRead_books _) _) h4
  have h7 : Books t0 t7 := (setSsc_books _ _ _).after ((setSsc_books _ _ _).after ((setSsc_books _ _ _).after h5))
  have h9 : Books t0 t9 := (closeFresh_books _).after (.ite ((setSsc_books _ _ _).after h7) h7)
  have h0 : t0 = s.stackOff d := setRf_ssc _ _ _ _ _ _
  rw [← h0]
  exact .ite (startRebuild_books.after h9) ((setRebuild_books _).after h9)

theorem stackOff_lost : nbit (s.stackOff d).ssc.lost d = true := by
  show (s.ssc.lost ||| 2 ^ d).testBit d = true
  rw [Nat.testBit_or, Nat.testBit_two_pow_self, Bool.or_true]

/-- Nothing waits at a stack that was lost (R223). -/
theorem loseStack_idle (cause : StackCause) (h : nbit s.ssc.lost d = false) : ∀ r ∈ (loseStack s d cause).ssc.req, r.die ≠ d := by
  intro r hr he
  rcases (loseStack_books cause h).asked r hr with hm | hl
  · simpa [he] using (List.mem_filter.mp hm).2
  · rw [he, stackOff_lost] at hl
    exact absurd hl (by simp)

theorem loseStack_lost (cause : StackCause) : nbit (loseStack s d cause).ssc.lost d = true := by
  by_cases h : nbit s.ssc.lost d = true
  · unfold loseStack
    rw [if_pos h, h]
  · rw [(loseStack_books cause (by simpa using h)).lost, stackOff_lost]

/-- Bit k of a word is its field of one bit. -/
theorem bit_iff_fld (w : Word) (k : Nat) : bit w k = true ↔ fld w k k = 1 := (fld_bit w k).symm

theorem bit_setFld_self (w : Word) (k v : Nat) (hk : k < 32) : bit (setFld w k k v) k = decide (v % 2 = 1) := by
  rw [Bool.eq_iff_iff, bit_iff_fld, decide_eq_true_iff]
  have h := fld_setFld w k 1 v (by omega) (by omega)
  rw [Nat.add_sub_cancel, pow_one] at h
  rw [h]

theorem bit_setFld_below (w : Word) (hi lo v : Nat) {k : Nat} (hl : lo ≤ hi) (hh : hi < 32) (h : k < lo) : bit (setFld w hi lo v) k = bit w k := by
  rw [Bool.eq_iff_iff, bit_iff_fld, bit_iff_fld]
  have h := fld_setFld_below w lo (hi + 1 - lo) v (hi := k) (m := k) (by omega) (by omega) (by omega) h
  rw [show lo + (hi + 1 - lo) - 1 = hi by omega] at h
  rw [h]

/-- The channels of a stack are not marked anew as it is lost. -/
theorem loseStack_channel (cause : StackCause) (hr : mrise 0 s.regs = true) {c : Nat} (hc : c < 30) : bit ((loseStack s d cause).reg .SSC_STACK d []) c = bit (s.reg .SSC_STACK d []) c := by
  by_cases h : nbit s.ssc.lost d = true
  · unfold loseStack
    rw [if_pos h]
  · have hregs : (s.stackOff d).regs = (s.setRf .SSC_STACK d [] 30 30 1).regs := by simp only [State.stackOff]
    have hrise : mrise 0 (s.setRf .SSC_STACK d [] 30 30 1).regs = true := s.setReg_rise _ _ _ _ hr
    have hb : Books (s.stackOff d) (loseStack s d cause) := loseStack_books cause (by simpa using h)
    generalize s.stackOff d = u at hregs hb
    rw [hb.reg (by rw [hregs]; exact hrise) (notBooked_stack d), reg_of_regs hregs, State.setRf, State.reg_setReg_self _ _ _ _ _ hr]
    exact bit_setFld_below _ _ _ _ (by omega) (by omega) hc

/-! A channel that is lost (R222). -/

/-- The channel is marked lost, under a new generation, and reported; what it takes with it is not yet done. -/
def State.channelOff (s : State) (d c : Nat) : State :=
  let t := bumpSsc (setSsc (s.setRf .SSC_STACK d [] c c 1) 5 5 1)
  t.raiseEv 0x0B01 d t.sscGen [d, c]

theorem loseChannel_eq {c : Nat} (h : bit (s.reg .SSC_STACK d []) c = false) : loseChannel s d c =
    let t := checkRecords (s.channelOff d c) ((s.channelOff d c).homeOf d)
    if bit (t.reg .SSC_CFG d []) 31 ∨ max 1 (t.rf .ICU_LIMIT d [] 19 16) ≤ t.lostChannels d then loseStack t d .controller else t :=
  if_neg (by simp [h])

theorem channelOff_books (c : Nat) : Books (s.setRf .SSC_STACK d [] c c 1) (s.channelOff d c) := (raiseEv_books _ _ _ _).after (bumpSsc_books.after (setSsc_books _ _ _))

theorem channelOff_keeps (c : Nat) : Keeps [.regs, .gwe] s (s.channelOff d c) :=
  State.raiseEv_keeps.after (bumpSsc_keeps.after (setSsc_keeps.after State.setRf_keeps.mono))

/-- What is read of a stack once one of its channels is marked lost, and behind the bookkeeping of that. -/
theorem channel_read {c : Nat} {t : State} (hr : mrise 0 s.regs = true) (hc : c < 16) (hb : Books (s.setRf .SSC_STACK d [] c c 1) t) :
    bit (t.reg .SSC_STACK d []) c = true ∧ t.lostChannels d = (s.setRf .SSC_STACK d [] c c 1).lostChannels d ∧ t.reg .SSC_CFG d [] = s.reg .SSC_CFG d [] ∧ t.rf .ICU_LIMIT d [] 19 16 = s.rf .ICU_LIMIT d [] 19 16 := by
  have hrise : mrise 0 (s.setRf .SSC_STACK d [] c c 1).regs = true := s.setReg_rise _ _ _ _ hr
  have hst : t.reg .SSC_STACK d [] = (s.setRf .SSC_STACK d [] c c 1).reg .SSC_STACK d [] := hb.reg hrise (notBooked_stack d)
  have hne {q : Reg} (hq : q.info.base < 0x1000000) (hb : q.info.base ≠ (Reg.info .SSC_STACK).base) : q.addr d [] ≠ Reg.addr .SSC_STACK d [] :=
    fun h => hb (by rw [← addr_mod d hq, h, addr_mod d (by decide)])
  refine ⟨?_, ?_, ?_, ?_⟩
  · rw [hst, State.setRf, State.reg_setReg_self _ _ _ _ _ hr, bit_setFld_self _ _ _ (by omega)]
    rfl
  · unfold State.lostChannels
    rw [hst]
  · rw [hb.reg hrise (notBooked_cfg d)]
    exact (s.setRf_writes .SSC_STACK d [] c c 1 (A := [Reg.addr .SSC_STACK d []])).reg hr (by simpa using hne (by decide) (by decide))
  · rw [hb.rf hrise (notBooked_limit d)]
    exact (s.setRf_writes .SSC_STACK d [] c c 1 (A := [Reg.addr .SSC_STACK d []])).rf hr (by simpa using hne (by decide) (by decide))

/-- Whether a record is gone is told by the staging store, the part, and the channels that are lost. -/
theorem recordGone_of {t : State} (hs : t.ssc = s.ssc) (hp : t.part = s.part) (hr : ∀ e, t.reg .SSC_STACK e [] = s.reg .SSC_STACK e []) (j : Nat) : t.recordGone j = s.recordGone j := by
  unfold State.recordGone State.recordBad State.pieceGone State.homeDie recordPiece State.dies
  simp only [hs, hp, hr]

/-- Nothing is lost with a channel that takes no record's last copy (R202, R222). -/
theorem checkRecords_channelOff {c : Nat} (hr : mrise 0 s.regs = true) (h : ∀ j ∈ s.homeOf d, (s.setRf .SSC_STACK d [] c c 1).recordGone j = false) :
    checkRecords (s.channelOff d c) ((s.channelOff d c).homeOf d) = s.channelOff d c := by
  have hk := channelOff_keeps (s := s) (d := d) c
  have hssc := hk.frame .ssc (by decide)
  have hpart := hk.frame .part (by decide)
  have hst (e : Nat) := (channelOff_books (s := s) (d := d) c).reg (State.setReg_rise _ _ _ _ _ hr) (notBooked_stack e)
  have hg := recordGone_of (t := s.channelOff d c) (s := s.setRf .SSC_STACK d [] c c 1) hssc hpart hst
  have hh : (s.channelOff d c).homeOf d = s.homeOf d := by
    unfold State.homeOf State.homeDie State.dies
    rw [hssc, hpart]
  refine if_pos (List.filter_eq_nil_iff.mpr fun j hj => ?_)
  rw [hg, h j (hh ▸ hj)]
  exact Bool.false_ne_true

end

/-! Training, and a unit that moves to a spare (R219, R221). -/

section
variable {s : State}

/-- What a stack's spare units are told by: the pieces marked bad and the units that moved. -/
def State.spared (s : State) : List (Nat × Nat) × List (Nat × Nat) := (s.ssc.bad, s.ssc.remap)

theorem pushPort_spared (d p : Nat) (wr : Bool) (w : ReqWhat) (m : Nat) : Fixes State.spared s (pushPort s d p wr w m) := by
  unfold pushPort pushReq
  exact .ite (.refl s) rfl

/-- The reads from which a unit's pieces are rebuilt, and the write of the spare unit (R221). -/
def State.spareAsked (s : State) (d unit mask : Nat) : State :=
  let t := match s.seg unit with
    | some x => (parityDies x unit d).foldl (fun t k => pushPort t k 5 false (.parity unit k) mask) s
    | none => s
  pushPort t d 5 true (.unit unit) allPc

theorem spareAsked_spared (d unit mask : Nat) : Fixes State.spared s (s.spareAsked d unit mask) := by
  unfold State.spareAsked
  refine .after (pushPort_spared _ _ _ _ _) ?_
  split
  · exact .foldl (fun _ _ => pushPort_spared _ _ _ _ _) s
  · exact .refl s

theorem spareAsked_asks {d unit mask : Nat} (h : nbit s.ssc.lost d = false) : (s.spareAsked d unit mask).asksWrite 5 d (.unit unit) := by
  unfold State.spareAsked
  refine pushPort_asks _ _ ?_
  split
  · rw [PushesReq.lost (.foldl (fun _ _ => pushPort_pushes _ _ _ _ _) s)]
    exact h
  · exact h

theorem spareAsked_keeps (d unit mask : Nat) : Keeps [.ssc] s (s.spareAsked d unit mask) := by
  unfold State.spareAsked
  refine pushPort_keeps.after ?_
  split
  · exact .foldl (fun _ _ => pushPort_keeps.mono) .refl
  · exact .refl

/-- The bad pieces of a unit. -/
def State.unitBad (s : State) (d unit : Nat) : List (Nat × Nat) := s.ssc.bad.filter (fun x => decide (x.1 = d) && decide (x.2 / 32 = unit))

theorem unitBad_ne {d piece : Nat} (h : (d, piece) ∈ s.ssc.bad) : s.unitBad d (piece / 32) ≠ [] :=
  List.ne_nil_of_mem (a := (d, piece)) (List.mem_filter.mpr ⟨h, by simp⟩)

/-- What is left of the bad pieces once those of a unit have moved. -/
theorem filter_unitBad (d unit : Nat) : s.ssc.bad.filter (fun x => !(s.unitBad d unit).contains x) = s.ssc.bad.filter (fun e => !(decide (e.1 = d) && decide (e.2 / 32 = unit))) := by
  refine List.filter_congr fun x hx => ?_
  rw [Bool.eq_iff_iff]
  simp [State.unitBad, hx]

/-- The unit has moved and its pieces are good; a spare unit is not yet taken off the count (R221). -/
def State.unitMoved (s : State) (d unit : Nat) : State :=
  let t := s.spareAsked d unit (maskOf ((s.unitBad d unit).map (fun x => x.2 % 32)))
  { t with ssc := { t.ssc with bad := t.ssc.bad.filter (fun x => !(s.unitBad d unit).contains x), remap := t.ssc.remap ++ [(d, unit)] } }

theorem spareRemap_eq {d unit : Nat} (hb : s.unitBad d unit ≠ []) (hn : s.rf .SSC_SPARE d [] 17 0 ≠ 0) : spareRemap s d unit =
    let t := (s.unitMoved d unit).setRf .SSC_SPARE d [] 17 0 (s.rf .SSC_SPARE d [] 17 0 - 1)
    if s.rf .SSC_SPARE d [] 17 0 = 1 then t.raiseEv 0x0B05 d t.sscGen [d] else t :=
  (if_neg hb).trans (if_neg hn)

theorem spareRemap_moves {d unit : Nat} (hb : s.unitBad d unit ≠ []) (hn : s.rf .SSC_SPARE d [] 17 0 ≠ 0) :
    (spareRemap s d unit).ssc = (s.unitMoved d unit).ssc ∧ only [.regs, .ssc, .gwe] s (spareRemap s d unit)
      ∧ (mrise 0 s.regs = true → (spareRemap s d unit).rf .SSC_SPARE d [] 17 0 = s.rf .SSC_SPARE d [] 17 0 - 1) := by
  rw [spareRemap_eq hb hn]
  dsimp only
  have hm : Keeps [.ssc] s (s.unitMoved d unit) := (keeps_ssc).after (spareAsked_keeps _ _ _)
  have hreg := hm.frame .regs (by decide)
  have hs : Keeps [.regs] (s.unitMoved d unit) ((s.unitMoved d unit).setRf .SSC_SPARE d [] 17 0 (s.rf .SSC_SPARE d [] 17 0 - 1)) := State.setRf_keeps
  have hx (hr : mrise 0 s.regs = true) : ((s.unitMoved d unit).setRf .SSC_SPARE d [] 17 0 (s.rf .SSC_SPARE d [] 17 0 - 1)).rf .SSC_SPARE d [] 17 0 = s.rf .SSC_SPARE d [] 17 0 - 1 := by
    have hlt : s.rf .SSC_SPARE d [] 17 0 < 2 ^ 18 := Nat.mod_lt _ (by decide)
    rw [(s.unitMoved d unit).rf_setRf_self .SSC_SPARE d [] 0 18 _ (hreg ▸ hr) (by decide) (by decide), Nat.mod_eq_of_lt (by omega)]
  have hrise (hr : mrise 0 s.regs = true) : mrise 0 ((s.unitMoved d unit).setRf .SSC_SPARE d [] 17 0 (s.rf .SSC_SPARE d [] 17 0 - 1)).regs = true := State.setReg_rise _ _ _ _ _ (hreg ▸ hr)
  generalize (s.unitMoved d unit).setRf .SSC_SPARE d [] 17 0 (s.rf .SSC_SPARE d [] 17 0 - 1) = t at hs hx hrise
  split
  · refine ⟨(State.raiseEv_keeps.frame .ssc (by decide)).trans (hs.frame .ssc (by decide)), Keeps.frame (State.raiseEv_keeps.after (hs.after hm.mono)), fun hr => ?_⟩
    rw [(raiseEv_books _ _ _ _).rf (hrise hr) (notBooked d (by decide) (by decide)), hx hr]
  · exact ⟨hs.frame .ssc (by decide), Keeps.frame (hs.after hm.mono), hx⟩

end

/-! Training (R219). -/

section
variable {s : State}

theorem allDies_filter_filter (l : List Nat) (p q : Nat → Bool) : (l.filter p).filter q = l.filter (fun d => p d && q d) := by
  rw [List.filter_filter]
  exact List.filter_congr fun d _ => Bool.and_comm _ _

theorem trainingDone_ssc {t : State} {passed : BitVec 8} (hb : s.ssc.begun = true) (hy : s.ssc.busy = true) (h : exec (.trainingDone passed) s = .next t) :
    t.ssc = { s.ssc with
      busy := false
      smask := maskOf (s.allDies.filter (fun d => !nbit s.ssc.lost d && passed.getLsbD d))
      lost := Nat.lor s.ssc.lost (maskOf (s.allDies.filter (fun d => !nbit s.ssc.lost d && !passed.getLsbD d))) } := by
  have hx : execTrainingDone passed s = .next t := h
  unfold execTrainingDone at hx
  rw [if_neg (by simp [hb, hy])] at hx
  extract_lets cand good bad _ t0 t1 t2 at hx
  have h1 : Keeps [.regs] t0 t1 := .overDies (fun _ _ => State.setRf_keeps.mono) .refl
  have h2 : Keeps [.regs] { t1 with ssc := { t1.ssc with smask := maskOf good } } t2 := bumpSsc_keeps.after (setSsc_keeps.after (setSsc_keeps.after setSsc_keeps))
  have h3 : Keeps [.regs, .gwe] t2 t := by
    rw [← Host.Outcome.next.inj hx]
    exact .overDies (fun _ _ => State.raiseEv_keeps.after State.setRf_keeps.mono) .refl
  rw [h3.frame .ssc (by decide), h2.frame .ssc (by decide)]
  show { t1.ssc with smask := maskOf good } = _
  rw [h1.frame .ssc (by decide), ← allDies_filter_filter, ← allDies_filter_filter]

end

/-- Settles O27: training, spare units, channels and stacks that are lost. -/
theorem stacksTrainAndFail : Obligations.StacksTrainAndFail := by
  intro s
  refine ⟨fun passed hb hy => ⟨_, rfl, ?_, trainingDone_ssc hb hy rfl⟩, fun d hd => ⟨fun piece hp => ⟨fun hn => ?_, fun hn => ?_⟩, fun c hinv hc => ⟨fun hcfg hlim => ?_, fun hor => ?_⟩, fun cause hl => ?_⟩⟩
  · obtain ⟨t, ht, hk⟩ := execTrainingDone_keeps (passed := passed) (s := s)
    exact Host.Outcome.next.inj ht ▸ hk.frame
  · exact onDie_eq hd ((if_neg (unitBad_ne hp)).trans (if_pos hn))
  · obtain ⟨hssc, honly, hrf⟩ := spareRemap_moves (unitBad_ne hp) hn
    have hsp := spareAsked_spared (s := s) d (piece / 32) (maskOf ((s.unitBad d (piece / 32)).map (fun x => x.2 % 32)))
    refine ⟨_, onDie_live _ _ _ hd, ?_, ?_, fun hl => ?_, fun hinv => hrf hinv.rise, honly⟩
    · rw [hssc, ← filter_unitBad]
      exact congrArg (fun b : List (Nat × Nat) => b.filter (fun x => !(s.unitBad d (piece / 32)).contains x)) (congrArg Prod.fst hsp)
    · rw [hssc]
      exact congrArg (· ++ [(d.val, piece / 32)]) (congrArg Prod.snd hsp)
    · obtain ⟨r, hr, hdie, hwhat, hwr, hport⟩ := spareAsked_asks (unit := piece / 32) (mask := maskOf ((s.unitBad d (piece / 32)).map (fun x => x.2 % 32))) hl
      exact ⟨r, by rw [hssc]; exact hr, hdie, hport, hwr, hwhat⟩
  · have hx := loseChannel_eq hc
    have hb := (checkRecords_books ((s.channelOff d c).homeOf d)).after (channelOff_books (s := s) (d := d) c)
    have hk : Keeps [.regs, .cte, .bpm, .qba, .ssc, .gwe] s _ := (checkRecords_keeps (js := (s.channelOff d c).homeOf d)).after (channelOff_keeps (s := s) (d := d) c).mono
    obtain ⟨hbit, hlost, hc, hl⟩ := channel_read hinv.rise c.isLt hb
    rw [if_neg (by rw [hc, hl, hlost, hcfg]; exact fun h => h.elim Bool.false_ne_true (not_le.mpr hlim))] at hx
    refine ⟨_, onDie_eq hd hx, hbit, hk.frame, fun hgone => ?_⟩
    rw [checkRecords_channelOff hinv.rise hgone]
    exact (channelOff_keeps _).frame
  · have hx := loseChannel_eq hc
    have hb := (checkRecords_books ((s.channelOff d c).homeOf d)).after (channelOff_books (s := s) (d := d) c)
    obtain ⟨hbit, hlost, hc, hl⟩ := channel_read hinv.rise c.isLt hb
    rw [if_pos (by rwa [hc, hl, hlost])] at hx
    refine ⟨_, onDie_eq hd hx, ?_, loseStack_lost _, ?_⟩
    · rw [loseStack_channel _ (hb.rise (State.setReg_rise _ _ _ _ _ hinv.rise)) (by omega)]
      exact hbit
    · exact hx ▸ loseChannel_keeps.frame
  · have hb := loseStack_books cause hl
    exact ⟨_, onDie_live _ _ _ hd, hb.smask, hb.lost, loseStack_idle cause hl, loseStack_keeps.frame⟩

end Sys2Proof.Machine

/-! PROOFS. The rebuild of the staging store (spec/07 R225, R226). -/

namespace Sys2Proof.Machine

-- As in the stacks' part: elaborated in turn, the many short proofs hold no thread each.
set_option Elab.async false

section
variable {s : State}

/-- What holds behind a run over a list: kept by every element, and set by one of them. -/
theorem foldl_sets {α : Type} {P I : State → Prop} {f : State → α → State} {x : α} (hI : ∀ t y, I t → I (f t y)) (hk : ∀ t y, I t → P t → P (f t y)) (hs : ∀ t, I t → P (f t x)) :
    ∀ (l : List α) (s : State), x ∈ l → I s → P (l.foldl f s) := by
  intro l
  induction l with
  | nil => exact fun _ h => absurd h (by simp)
  | cons y l ih =>
    intro s hm hi
    rcases List.mem_cons.mp hm with hx | hm
    · exact (foldl_keep (fun t => I t ∧ P t) f (fun t y h => ⟨hI t y h.1, hk t y h.1 h.2⟩) l _ ⟨hI s y hi, hx ▸ hs s hi⟩).2
    · exact ih _ hm (hI s y hi)

/-- The rebuild, and the segments. -/
def State.rebuilding (s : State) : Option Rebuild × SMap Seg := (s.ssc.rebuild, s.ssc.seg)

theorem pushReq_rebuilding (d p : Nat) (wr : Bool) (w : ReqWhat) (m tgt : Nat) (dl : Option Nat) : Fixes State.rebuilding s (pushReq s d p wr w m tgt dl) := by
  unfold pushReq
  exact .ite (.refl s) rfl

theorem readParity_rebuilding (by_ j m port mask target : Nat) (deadline : Option Nat) : Fixes State.rebuilding s (readParity s by_ j m port mask target deadline) := by
  unfold readParity
  split
  · exact .refl s
  · exact .after (.foldl (fun _ _ => pushReq_rebuilding _ _ _ _ _ _ _) _) rfl

theorem readChunk_rebuilding (j smask k port target : Nat) (deadline : Option Nat) : Fixes State.rebuilding s (readChunk s j smask k port target deadline) := by
  unfold readChunk
  exact .ite (readParity_rebuilding _ _ _ _ _ _ _) (pushReq_rebuilding _ _ _ _ _ _ _)

theorem readParity_pushes (by_ j m port mask target : Nat) (deadline : Option Nat) : PushesReq s (readParity s by_ j m port mask target deadline) := by
  unfold readParity
  split
  · exact .refl s
  · exact .after (.foldl (fun _ _ => pushReq_pushes _ _ _ _ _ _ _) _) (.of_ssc rfl)

theorem readChunk_pushes (j smask k port target : Nat) (deadline : Option Nat) : PushesReq s (readChunk s j smask k port target deadline) := by
  unfold readChunk
  exact .ite (readParity_pushes _ _ _ _ _ _ _) (pushReq_pushes _ _ _ _ _ _ _)

/-- Reads from parity count at their die and change no other register (R221). -/
theorem readChunk_spares {a : Nat} (ha : ∀ e, a ≠ Reg.addr .SSC_PARITY_READS e []) (j smask k port target : Nat) (deadline : Option Nat) : Spares a s (readChunk s j smask k port target deadline) := by
  have hp (t : State) (d m tgt : Nat) (w : ReqWhat) : Spares a t (pushReq t d port false w m tgt deadline) := .of_keeps pushReq_keeps (by decide)
  unfold readChunk
  refine .ite ?_ (hp _ _ _ _ _)
  unfold readParity
  split
  · exact .refl s
  · exact .after (.foldl (fun t _ => hp t _ _ _ _) _) ((s.bumpN_writes .SSC_PARITY_READS (s.server (chunkDie smask j k)) [] _ (A := [Reg.addr .SSC_PARITY_READS (s.server (chunkDie smask j k)) []])).spares (by simpa using ha _))

/-- The chunks of a segment are asked for through P5. -/
def State.askChunks (s : State) (j : Nat) : State :=
  match s.seg j with
  | some x => (List.range x.chunks).foldl (fun u k => readChunk u j x.smask k 5 (u.portTarget (chunkDie x.smask j k) 5) none) s
  | none => s

/-- The cursor stands at a queue, on every die (R225). -/
def State.cursorAt (s : State) (q : Nat) : State := overDies (fun d t => t.setRf .SSC_REB_CUR d [] 17 0 q) s.allDies s

theorem rebuildReads_eq (q j : Nat) : rebuildReads s q j = ((s.cursorAt q).setRebuild ((s.cursorAt q).ssc.rebuild.map (fun r => { r with reads := some j }))).askChunks j := rfl

theorem cursorAt_keeps (q : Nat) : Keeps [.regs] s (s.cursorAt q) := .overDies (fun _ _ => State.setRf_keeps.mono) .refl

theorem askChunks_rebuilding (j : Nat) : Fixes State.rebuilding s (s.askChunks j) ∧ PushesReq s (s.askChunks j) := by
  unfold State.askChunks
  split
  · exact ⟨.foldl (fun _ _ => readChunk_rebuilding _ _ _ _ _ _) s, .foldl (fun _ _ => readChunk_pushes _ _ _ _ _ _) s⟩
  · exact ⟨.refl s, .refl s⟩

theorem addr_ne {q r : Reg} (d e : Nat) (hq : q.info.base < 0x1000000) (hr : r.info.base < 0x1000000) (h : q.info.base ≠ r.info.base) : q.addr d [] ≠ r.addr e [] :=
  fun he => h (by rw [← addr_mod d hq, he, addr_mod e hr])

theorem askChunks_spares (j d : Nat) : Spares (Reg.addr .SSC_REB_CUR d []) s (s.askChunks j) := by
  unfold State.askChunks
  split
  · exact .foldl (fun _ _ => readChunk_spares (fun e => addr_ne d e (by decide) (by decide) (by decide)) _ _ _ _ _ _) s
  · exact .refl s

theorem addr_die_ne {r : Reg} {d e : Nat} (hg : r.info.glob = false) (h : d ≠ e) : r.addr d [] ≠ r.addr e [] := by
  unfold Reg.addr dieBase
  rw [hg, if_neg Bool.false_ne_true, if_neg Bool.false_ne_true]
  omega

/-- A field of a register is written on every die. -/
theorem rf_overDies {r : Reg} {d lo k v : Nat} (hr : mrise 0 s.regs = true) (hd : d < s.dies) (hg : r.info.glob = false) (hk : 0 < k) (hw : lo + k ≤ 32) :
    (overDies (fun d t => t.setRf r d [] (lo + k - 1) lo v) s.allDies s).rf r d [] (lo + k - 1) lo = v % 2 ^ k := by
  have hset (t : State) (ht : mrise 0 t.regs = true) := t.rf_setRf_self r d [] lo k v ht hk hw
  refine foldl_sets (P := fun t => t.rf r d [] (lo + k - 1) lo = v % 2 ^ k) (I := fun t => mrise 0 t.regs = true) (f := fun t d => t.setRf r d [] (lo + k - 1) lo v) (x := d) (fun t y h => State.setReg_rise _ _ _ _ _ h) (fun t y ht hp => ?_) hset s.allDies s
    (List.mem_range.mpr hd) hr
  by_cases hy : y = d
  · subst hy
    exact hset t ht
  · exact ((t.setRf_writes r y [] _ _ _ (A := [r.addr y []])).rf ht (by simpa using addr_die_ne hg (Ne.symm hy))).trans hp

theorem mem_of_mfind {α : Type} {key : Nat} {v : α} : ∀ {m : SMap α}, mfind m key = some v → (key, v) ∈ m
  | (k, x) :: r, h => by
    unfold mfind at h
    split at h
    next hk => rw [← hk, ← Option.some.inj h]; exact List.mem_cons_self ..
    next =>
      split at h
      · exact absurd h (by simp)
      · exact List.mem_cons_of_mem _ (mem_of_mfind h)

/-- A segment of a queue's old ones is one that is not of the group's geometry. -/
theorem oldGeometry_of_oldSegs {q : Nat} (h : s.oldSegs q ≠ []) : s.oldGeometry = true := by
  obtain ⟨j, hj⟩ := List.exists_mem_of_ne_nil _ h
  obtain ⟨-, hx⟩ := List.mem_filter.mp hj
  obtain ⟨-, hx⟩ := Bool.and_eq_true_iff.mp hx
  cases hs : s.seg j with
  | none => rw [hs] at hx; exact absurd hx (by simp)
  | some x =>
    rw [hs] at hx
    obtain ⟨-, hm⟩ := Bool.and_eq_true_iff.mp hx
    exact List.any_eq_true.mpr ⟨(j, x), mem_of_mfind hs, hm⟩

theorem rebuildQueue_none (h : s.oldGeometry = false) : s.rebuildQueue = none := by
  have hq : s.oldQueues = [] := List.filter_eq_nil_iff.mpr fun q _ hq => by
    have := oldGeometry_of_oldSegs (s := s) (q := q) (by simpa using hq)
    rw [h] at this
    exact absurd this (by simp)
  unfold State.rebuildQueue
  rw [hq]
  rfl

theorem rebuildDone_frame : (rebuildDone s).ssc = { s.ssc with rebuild := none } ∧ only [.regs, .ssc, .gwe] s (rebuildDone s) := by
  have hk : Keeps [.regs, .gwe] (s.setRebuild none) (rebuildDone s) := evRebuild_keeps.after (bumpSsc_keeps.after setSsc_keeps.mono)
  exact ⟨hk.frame .ssc (by decide), (hk.after State.setRebuild_keeps.mono).frame⟩

/-- DEGRADED clears on every die (R225). -/
theorem rebuildDone_degraded {d : Nat} (hr : mrise 0 s.regs = true) (hd : d < s.dies) : bit ((rebuildDone s).reg .SSC_STATE d []) 5 = false := by
  have h5 : (setSsc (s.setRebuild none) 5 5 0).rf .SSC_STATE d [] 5 5 = 0 := rf_overDies (s := s.setRebuild none) (lo := 5) (k := 1) (v := 0) hr hd rfl (by decide) (by decide)
  have hrise : mrise 0 (setSsc (s.setRebuild none) 5 5 0).regs = true := (setSsc_books 5 5 0).rise hr
  have hgen : (bumpSsc (setSsc (s.setRebuild none) 5 5 0)).rf .SSC_STATE d [] 5 5 = 0 := by
    refine (foldl_keep (fun t : State => mrise 0 t.regs = true ∧ t.rf .SSC_STATE d [] 5 5 = 0) (fun t d => t.bumpGen .SSC_STATE d) (fun t e h => ?_) _ _ ⟨hrise, h5⟩).2
    refine ⟨State.setReg_rise _ _ _ _ _ h.1, ?_⟩
    by_cases he : e = d
    · subst he
      exact (State.rf_setRf_below (lo := 16) (k := 16) h.1 (by decide) (by decide) (by decide) (by decide)).trans h.2
    · exact ((t.bumpGen_writes .SSC_STATE e (A := [Reg.addr .SSC_STATE e []])).rf h.1 (by simpa using addr_die_ne rfl (Ne.symm he))).trans h.2
  have hev : Writes [Reg.addr .GWE_EVT_LOST 0 []] (bumpSsc (setSsc (s.setRebuild none) 5 5 0)) (rebuildDone s) := State.raiseEv_writes _ _ _ _ _
  have h0 : (rebuildDone s).rf .SSC_STATE d [] 5 5 = 0 := (hev.rf (bumpSsc_books.rise hrise) (by simpa using addr_ne d 0 (by decide) (by decide) (by decide))).trans hgen
  rw [Bool.eq_false_iff, Ne, bit_iff_fld]
  exact fun h => absurd (h0.symm.trans h) (by decide)

/-- What the reads of an old segment leave (R225). -/
theorem rebuildReads_asks {q j : Nat} {r : Rebuild} (hr : s.ssc.rebuild = some r) :
    (rebuildReads s q j).ssc.rebuild = some { r with reads := some j } ∧ (rebuildReads s q j).ssc.seg = s.ssc.seg ∧ ∀ x ∈ s.ssc.req, x ∈ (rebuildReads s q j).ssc.req := by
  have hssc := (cursorAt_keeps (s := s) q).frame .ssc (by decide)
  rw [rebuildReads_eq]
  obtain ⟨hv, hp⟩ := askChunks_rebuilding (s := (s.cursorAt q).setRebuild ((s.cursorAt q).ssc.rebuild.map (fun r => { r with reads := some j }))) j
  refine ⟨(congrArg Prod.fst hv).trans ?_, (congrArg Prod.snd hv).trans ?_, fun x hx => hp.grow x ?_⟩
  · show (s.cursorAt q).ssc.rebuild.map _ = _
    rw [hssc, hr]
    rfl
  · exact (show (State.setRebuild _ _).ssc.seg = (s.cursorAt q).ssc.seg from rfl).trans (congrArg Ssc.seg hssc)
  · exact (congrArg Ssc.req hssc).symm ▸ hx

/-- The cursor stands at the queue whose segment is read (R225). -/
theorem rebuildReads_cursor {q j d : Nat} (hr : mrise 0 s.regs = true) (hd : d < s.dies) : (rebuildReads s q j).rf .SSC_REB_CUR d [] 17 0 = q % 2 ^ 18 := by
  have hc : (s.cursorAt q).rf .SSC_REB_CUR d [] 17 0 = q % 2 ^ 18 := rf_overDies (lo := 0) (k := 18) hr hd rfl (by decide) (by decide)
  have hrise : mrise 0 (s.cursorAt q).regs = true := (Books.foldl (fun _ d => setRf_books .SSC_REB_CUR d 17 0 q (by decide)) s).rise hr
  rw [rebuildReads_eq]
  exact (((askChunks_spares j d).after (.of_keeps State.setRebuild_keeps (by decide))).rf hrise).trans hc

/-- The rebuild goes on with a queue, if one is left (R225). -/
def State.rebuildStep (s : State) (r : Rebuild) (picks : List Nat) : State :=
  match s.rebuildQueue with
  | none => if s.oldGeometry then s else rebuildDone s
  | some q =>
    if s.rf .SSC_CFG (s.server (queueDie q)) [] 15 0 = 0 then s
    else match s.oldSegs q with
      | [] => s
      | j :: _ =>
        if r.reads ≠ some j then rebuildReads s q j
        else if s.readsWait j then s
        else rebuildOne s q j picks

theorem execRebuildSegment_eq {r : Rebuild} {picks : List Nat} (hr : s.ssc.rebuild = some r) (hw : r.wait = false) (hb : s.rebuilds = true) (hf : s.freshLeft s.rebuildQueue = false) :
    exec (.rebuildSegment picks) s = .next (s.rebuildStep r picks) := by
  show execRebuildSegment picks s = _
  unfold execRebuildSegment
  rw [hr]
  dsimp only
  rw [if_neg (by simp [hw, hb]), if_neg (by simp [hf])]
  rfl

theorem rebuildStep_of_queue {r : Rebuild} {picks : List Nat} {q j : Nat} {l : List Nat} (hq : s.rebuildQueue = some q) (hc : s.rf .SSC_CFG (s.server (queueDie q)) [] 15 0 ≠ 0)
    (ho : s.oldSegs q = j :: l) : s.rebuildStep r picks = if r.reads ≠ some j then rebuildReads s q j else if s.readsWait j then s else rebuildOne s q j picks := by
  unfold State.rebuildStep
  rw [hq]
  dsimp only
  rw [if_neg hc, ho]

theorem rebuildStep_of_none {r : Rebuild} {picks : List Nat} (hq : s.rebuildQueue = none) : s.rebuildStep r picks = if s.oldGeometry then s else rebuildDone s := by
  unfold State.rebuildStep
  rw [hq]

/-- The rebuild stands still in the modes before PROVISION (R452, R455). -/
theorem execRebuildSegment_still {picks : List Nat} (hb : s.rebuilds = false) : exec (.rebuildSegment picks) s = .next s := by
  show execRebuildSegment picks s = _
  unfold execRebuildSegment
  refine congrArg Host.Outcome.next ?_
  split
  · rfl
  · exact if_pos (.inr (by simp [hb]))

theorem execRebuildResume_eq {r : Rebuild} (hr : s.ssc.rebuild = some r) :
    exec .rebuildResume s = .next (if r.wait ∧ s.anySegFree ∧ s.rebuilds then evRebuild (bumpSsc (s.setRebuild (some { r with wait := false }))) 2 else s) := by
  show execRebuildResume s = _
  unfold execRebuildResume
  rw [hr]

end

/-- Settles O28: the rebuild at each of its commands. -/
theorem rebuildGoesOn : Obligations.RebuildGoesOn := by
  intro s r hinv hr
  refine ⟨fun picks hw hb hf => ⟨fun q j l hq hcfg ho => ?_, fun hg => ?_, fun hg hq => ?_⟩, fun hb => ⟨fun picks => execRebuildSegment_still hb, ?_⟩, fun hw hb ha => ?_⟩
  · have hx := (execRebuildSegment_eq (picks := picks) hr hw hb hf).trans (congrArg Host.Outcome.next (rebuildStep_of_queue hq hcfg ho))
    refine ⟨fun hn => ?_, fun hj hwait => ?_, fun hj hwait => ?_⟩
    · obtain ⟨hreb, hseg, hreq⟩ := rebuildReads_asks (q := q) (j := j) hr
      exact ⟨_, hx.trans (congrArg Host.Outcome.next (if_pos hn)), hreb, fun d hd => rebuildReads_cursor hinv.rise hd, hseg, hreq, rebuildReads_keeps.frame⟩
    · exact hx.trans (congrArg Host.Outcome.next ((if_neg (not_not.mpr hj)).trans (if_pos hwait)))
    · exact hx.trans (congrArg Host.Outcome.next ((if_neg (not_not.mpr hj)).trans (if_neg (by simp [hwait]))))
  · have hx := (execRebuildSegment_eq (picks := picks) hr hw hb hf).trans (congrArg Host.Outcome.next (rebuildStep_of_none (rebuildQueue_none hg)))
    obtain ⟨hssc, honly⟩ := rebuildDone_frame (s := s)
    exact ⟨_, hx.trans (congrArg Host.Outcome.next (if_neg (by simp [hg]))), hssc, fun d hd => rebuildDone_degraded hinv.rise hd, honly⟩
  · exact ((execRebuildSegment_eq hr hw hb hf).trans (congrArg Host.Outcome.next (rebuildStep_of_none hq))).trans (congrArg Host.Outcome.next (if_pos hg))
  · exact (execRebuildResume_eq hr).trans (congrArg Host.Outcome.next (if_neg (by simp [hb])))
  · have hk : Keeps [.regs, .gwe] (s.setRebuild (some { r with wait := false })) (evRebuild (bumpSsc (s.setRebuild (some { r with wait := false }))) 2) := evRebuild_keeps.after bumpSsc_keeps.mono
    exact ⟨_, (execRebuildResume_eq hr).trans (congrArg Host.Outcome.next (if_pos ⟨hw, ha, hb⟩)), hk.frame .ssc (by decide), (hk.after State.setRebuild_keeps.mono).frame⟩

end Sys2Proof.Machine

/-! PROOFS. The release of flows, gaps and handoffs (spec/08 R240 to R246). -/

namespace Sys2Proof.Machine

-- As in the stacks' part: elaborated in turn, the many short proofs hold no thread each.
set_option Elab.async false

section
variable {s : State} {d c k : Nat} {r : Rob}

/-! The head of a flow leaves the reorder buffer. -/

/-- The registers that a release writes before its frame goes on. -/
def releaseRegs (d : Nat) : List Nat := [Reg.addr .RSQ_ROB d [], Reg.addr .RSQ_STATE d [], Reg.addr .FWT_FCACHE_MISS d [], Reg.addr .RSQ_RELEASED d []]

theorem noteRob_writes (n : Nat) : Writes (releaseRegs d) s (noteRob s d n) := by
  unfold noteRob
  extract_lets m t
  have ht : Writes (releaseRegs d) s t := s.setRf_writes .RSQ_ROB d [] _ _ _ (by simp [releaseRegs])
  refine .ite ht ((ht.trans (t.setRf_writes .RSQ_STATE d [] 0 0 _ (by simp [releaseRegs]))).trans (State.bumpGen_writes _ .RSQ_STATE d (by simp [releaseRegs])))

theorem touchCtx_writes : Writes (releaseRegs d) s (touchCtx s d c).2 := by
  unfold touchCtx
  split
  · exact .of_keeps cacheIn_keeps (by decide)
  · have hm : Writes (releaseRegs d) s (s.bump .FWT_FCACHE_MISS d) := s.bump_writes .FWT_FCACHE_MISS d [] (by simp [releaseRegs])
    dsimp only
    split
    · exact hm
    · exact hm.trans (.of_keeps (l := [.fwt, .ssc]) (fetchCtx_keeps.after (keeps_fwt).mono) (by decide))

/-- The entry of a flow's head is free and the flow told, before its frame goes on (R240, R241). -/
def State.headGone (s : State) (d c k : Nat) : State := retireNotice (dropRob s d k) d c

theorem retireNotice_writes : Writes (releaseRegs d) s (retireNotice s d c) :=
  touchCtx_writes.trans (.of_keeps (l := [.fwt]) State.modCtx_keeps (by decide))

theorem dropRob_writes : Writes (releaseRegs d) s (dropRob s d k) :=
  .trans (t := { s with rsq := { s.rsq with rob := mremove (robKey d k) s.rsq.rob } }) (.of_eq rfl) (noteRob_writes _)

theorem headGone_writes : Writes (releaseRegs d) s (s.headGone d c k) := dropRob_writes.trans retireNotice_writes

theorem headGone_rsq : (s.headGone d c k).rsq = { s.rsq with rob := mremove (robKey d k) s.rsq.rob } := by
  have hk : Keeps [.regs, .fwt, .ssc] { s with rsq := { s.rsq with rob := mremove (robKey d k) s.rsq.rob } } (s.headGone d c k) := retireNotice_keeps.after noteRob_keeps.mono
  exact hk.frame .rsq (by decide)

theorem headGone_keeps : Keeps [.regs, .fwt, .ssc, .rsq] s (s.headGone d c k) := retireNotice_keeps.after dropRob_keeps.mono

theorem regap_rsq (a : Bool) : (regap s d c a).rsq.rob = s.rsq.rob ∧ (regap s d c a).rsq.hand = s.rsq.hand := by
  unfold regap
  dsimp only
  split
  · split <;> exact ⟨rfl, rfl⟩
  · exact ⟨rfl, rfl⟩

theorem rsqRelease_eq (h : s.flowHead d c = some (k, r)) (he : r.st.ended = true) : rsqRelease s d c = regap (releaseHead s d c k r false) d c true := by
  unfold rsqRelease
  rw [h]
  exact if_pos he

/-- The released head counted; its frame not yet sent on. -/
def State.released (s : State) (d c k : Nat) : State := (s.headGone d c k).bump .RSQ_RELEASED d

theorem releaseHead_emitted (he : r.st = .emitted) (hb : bit r.dest 31 = false) : releaseHead s d c k r false = sendOne (s.released d c k) d r (fld r.dest 17 0) := by
  unfold releaseHead
  dsimp only
  rw [he]
  exact if_neg (by simp [hb])

theorem releaseHead_retired (he : r.st = .retired) : releaseHead s d c k r false = s.headGone d c k := by
  unfold releaseHead
  dsimp only
  rw [he]
  rfl

theorem released_writes : Writes (releaseRegs d) s (s.released d c k) := headGone_writes.trans (State.bump_writes _ .RSQ_RELEASED d [] (by simp [releaseRegs]))

theorem released_rsq : (s.released d c k).rsq = { s.rsq with rob := mremove (robKey d k) s.rsq.rob } :=
  (State.bump_keeps.frame .rsq (by decide)).trans headGone_rsq

theorem released_keeps : Keeps [.regs, .fwt, .ssc, .rsq] s (s.released d c k) := State.bump_keeps.after headGone_keeps

/-- A release tells the time, the owner of a queue and the fabric as before. -/
theorem released_tells (hr : mrise 0 s.regs = true) : (s.released d c k).ticksOn d = s.ticksOn d ∧ (∀ q, (s.released d c k).owner q = s.owner q)
    ∧ (∀ o, (s.released d c k).noRoute d o = s.noRoute d o) ∧ (s.released d c k).qba = s.qba := by
  have hk := released_keeps (s := s) (d := d) (c := c) (k := k)
  have hphi := hk.frame .phi (by decide)
  have hicu := hk.frame .icu (by decide)
  have hpart := hk.frame .part (by decide)
  have htick : (s.released d c k).tickShift = s.tickShift := released_writes.rf hr (by
    simp only [releaseRegs, List.mem_cons, List.not_mem_nil, or_false, not_or]
    exact ⟨addr_ne _ _ (by decide) (by decide) (by decide), addr_ne _ _ (by decide) (by decide) (by decide), addr_ne _ _ (by decide) (by decide) (by decide), addr_ne _ _ (by decide) (by decide) (by decide)⟩)
  refine ⟨?_, fun q => ?_, fun o => ?_, hk.frame .qba (by decide)⟩
  · unfold State.ticksOn State.cntOn
    rw [hphi, htick]
  · unfold State.owner State.server State.excluded
    rw [hicu]
  · unfold State.noRoute State.partnerDown State.dies
    rw [hicu, hpart]

/-! The frame of the released head is sent on (R245). -/

/-- The released frame as it waits for admission at queue q of die o; tick: when it was released. -/
def Rob.admitAt (r : Rob) (o q : Nat) (hand mirror : Option Nat) (tick : Nat) : Admit :=
  { die := o, hand := hand, q := q, handle := r.frame.handle, len := r.frame.len, edit := r.edit, flow := r.flow, force := r.force, flood := false, mirror := mirror, tick := tick, arr := r.frame.arr }

/-- The handoff of the released frame. -/
def Rob.handTo (r : Rob) (id d o : Nat) : Hand :=
  { id := id, src := d, dst := o, handle := r.frame.handle, mirror := r.frame.mirror, copied := false, flood := false, arr := r.frame.arr, force := r.force }

theorem sendOne_local {q : Nat} (h : s.owner q = d) : sendOne s d r q = pushAdmit s (r.admitAt d q none r.frame.mirror (s.ticksOn d)) := by
  unfold sendOne
  dsimp only
  rw [if_pos h, h]
  rfl

theorem sendOne_cut {q : Nat} (h : s.owner q ≠ d) (hn : s.noRoute d (s.owner q) = true) : sendOne s d r q = (dropFrame s r.frame).bump .PFB_ROUTE_DROP d :=
  (if_neg h).trans (if_pos hn)

/-- The handoff of the released head is recorded, and its copy waits for admission; not yet counted (R245). -/
def State.handed (s : State) (d o q : Nat) (r : Rob) : State :=
  pushAdmit { s with qba := { s.qba with nextId := s.qba.nextId + 1 }, rsq := { s.rsq with hand := s.rsq.hand ++ [r.handTo s.qba.nextId d o] } }
    (r.admitAt o q (some s.qba.nextId) none (s.ticksOn d))

theorem handed_keeps (o q : Nat) : Keeps [.qba, .rsq] s (s.handed d o q r) := by
  unfold State.handed
  have hr : Keeps [.qba, .rsq] s { s with rsq := { s.rsq with hand := s.rsq.hand ++ [r.handTo s.qba.nextId d o] } } := (keeps_rsq).mono
  exact pushAdmit_keeps.after ((keeps_qba).after hr)

theorem sendOne_handed {q : Nat} (h : s.owner q ≠ d) (hn : s.noRoute d (s.owner q) = false) : sendOne s d r q =
    (s.handed d (s.owner q) q r).bump .RSQ_HANDOFF d :=
  (if_neg h).trans (if_neg (by simp [hn]))

theorem notMem_releaseRegs {q : Reg} (hq : q.info.base < 0x1000000) (h : q.info.base ∉ [0xd0008, 0xd0000, 0x40128, 0xd0040]) : q.addr d [] ∉ releaseRegs d := by
  simp only [List.mem_cons, List.not_mem_nil, or_false, not_or] at h
  obtain ⟨h1, h2, h3, h4⟩ := h
  simp only [releaseRegs, List.mem_cons, List.not_mem_nil, or_false, not_or]
  exact ⟨addr_ne _ _ hq (by decide) h1, addr_ne _ _ hq (by decide) h2, addr_ne _ _ hq (by decide) h3, addr_ne _ _ hq (by decide) h4⟩

end

/-! An acknowledged handoff (R246). -/

section
variable {s : State}

theorem handAck_eq {id : Nat} {h : Hand} (hf : s.rsq.hand.find? (fun h => h.id = id) = some h) :
    handAck s id = if h.copied ∧ ¬ s.handWaits id then settleSource { s with rsq := { s.rsq with hand := lrem h s.rsq.hand } } h.handle h.mirror else s := by
  unfold handAck
  rw [hf]

/-- Buffer and mirror are free behind the free of both (R174, R192). -/
theorem freeBoth_freed {h : Nat} {m : Option Nat} (hr : mrise 0 s.bpm.alloc = true) :
    ((s.poolOf h).isSome = true → (freeBoth s h m).allocated h = false) ∧ ∀ k, m = some k → (s.poolOf k).isSome = true → (freeBoth s h m).allocated k = false := by
  unfold freeBoth
  have hk : Keeps [.bpm] s (if s.allocated h then freeBuf s h else s) := .ite freeBuf_keeps .refl
  have hrise : mrise 0 (if s.allocated h then freeBuf s h else s).bpm.alloc = true := by
    split
    · exact freeBuf_rise h hr
    · exact hr
  refine ⟨fun hp => (freeMirror_freed m ⟨hrise, ?_⟩).2, fun k hm hp => ?_⟩
  · split
    · exact freeBuf_freed hr hp
    next ha => exact Bool.eq_false_iff.mpr ha
  · subst hm
    exact freeBuf_freed hrise (by rw [poolOf_of (hk.frame .regs (by decide)) (hk.frame .part (by decide))]; exact hp)

end

/-- Settles O29: releases, gaps and handoffs. -/
theorem flowsRelease : Obligations.FlowsRelease := by
  intro s
  refine ⟨fun d c k r hinv hd hf he => ?_, fun d c t0 hd hg hn hb ht => onDie_eq hd ?_, fun id h hf hc hw => ?_, fun id h hf hor => ?_⟩
  · have hx := onDie_eq hd (rsqRelease_eq hf he)
    obtain ⟨htick, hown, hroute, hqba⟩ := released_tells (c := c) (k := k) (d := d) hinv.rise
    have hrsq := released_rsq (s := s) (d := d) (c := c) (k := k)
    have hkv := released_keeps (s := s) (d := d) (c := c) (k := k)
    have hwv := released_writes (s := s) (d := d) (c := c) (k := k)
    refine ⟨hx, fun hst hb ho => ?_, fun hst hb o ho hne => ⟨fun hroute' => ?_, fun hroute' => ?_⟩, fun hst => ?_⟩
    · rw [releaseHead_emitted hst hb, sendOne_local ((hown _).trans ho), htick] at hx
      have hk : Keeps [.rsq] _ _ := regap_keeps (s := pushAdmit (s.released d c k) (r.admitAt d (fld r.dest 17 0) none r.frame.mirror (s.ticksOn d))) (d := d) (c := c) (advanced := true)
      refine ⟨_, hx, (hk.after (pushAdmit_keeps.after hkv.mono)).frame, (regap_rsq _).1.trans (congrArg Rsq.rob hrsq), (hk.frame .qba (by decide)).trans ?_⟩
      rw [← hqba]
      rfl
    · rw [releaseHead_emitted hst hb, sendOne_handed (by rw [hown, ho]; exact hne) (by rw [hroute, hown, ho]; exact hroute'), hown, ho] at hx
      have hk : Keeps [.regs] ((s.released d c k).handed d o (fld r.dest 17 0) r) _ := State.bump_keeps (r := .RSQ_HANDOFF) (d := d) (idx := [])
      have hg : Keeps [.rsq] _ _ := regap_keeps (s := ((s.released d c k).handed d o (fld r.dest 17 0) r).bump .RSQ_HANDOFF d) (d := d) (c := c) (advanced := true)
      have hh := handed_keeps (s := s.released d c k) (d := d) (r := r) o (fld r.dest 17 0)
      have hwh : Writes (releaseRegs d) s ((s.released d c k).handed d o (fld r.dest 17 0) r) := hwv.trans (.of_keeps hh (by decide))
      refine ⟨_, hx, (hg.after (hk.after (hh.after hkv.mono))).frame, ?_, ?_, ?_, ?_⟩
      · exact counts.after (.before hwh (counts_bump _ .RSQ_HANDOFF d [] (hwh.rise hinv.rise)) hinv.rise (notMem_releaseRegs (by decide) (by decide))) (A := [])
          (.of_keeps hg (by decide)) (State.setReg_rise _ _ _ _ _ (hwh.rise hinv.rise)) (by simp)
      · exact (regap_rsq _).1.trans ((congrArg Rsq.rob (hk.frame .rsq (by decide))).trans (congrArg Rsq.rob hrsq))
      · refine (regap_rsq _).2.trans ((congrArg Rsq.hand (hk.frame .rsq (by decide))).trans ?_)
        show (s.released d c k).rsq.hand ++ [r.handTo (s.released d c k).qba.nextId d o] = _
        rw [hrsq, hqba]
        rfl
      · refine (hg.frame .qba (by decide)).trans ((hk.frame .qba (by decide)).trans ?_)
        rw [← hqba, ← htick]
        rfl
    · rw [releaseHead_emitted hst hb, sendOne_cut (by rw [hown, ho]; exact hne) (by rw [hroute, hown, ho]; exact hroute')] at hx
      have hdr : Keeps [.bpm] (s.released d c k) (dropFrame (s.released d c k) r.frame) := dropFrame_keeps
      have hk : Keeps [.regs] (dropFrame (s.released d c k) r.frame) _ := State.bump_keeps (r := .PFB_ROUTE_DROP) (d := d) (idx := [])
      have hg : Keeps [.rsq] _ _ := regap_keeps (s := (dropFrame (s.released d c k) r.frame).bump .PFB_ROUTE_DROP d) (d := d) (c := c) (advanced := true)
      have hwd : Writes (releaseRegs d) s (dropFrame (s.released d c k) r.frame) := hwv.trans (.of_keeps hdr (by decide))
      refine ⟨_, hx, (hg.after (hk.after (hdr.after hkv.mono))).frame, ?_, ?_⟩
      · exact counts.after (.before hwd (counts_bump _ .PFB_ROUTE_DROP d [] (hwd.rise hinv.rise)) hinv.rise (notMem_releaseRegs (by decide) (by decide))) (A := [])
          (.of_keeps hg (by decide)) (State.setReg_rise _ _ _ _ _ (hwd.rise hinv.rise)) (by simp)
      · exact (regap_rsq _).1.trans ((congrArg Rsq.rob (hk.frame .rsq (by decide))).trans ((congrArg Rsq.rob (hdr.frame .rsq (by decide))).trans (congrArg Rsq.rob hrsq)))
    · rw [releaseHead_retired hst] at hx
      refine ⟨_, hx, (regap_keeps.after headGone_keeps).frame, (regap_rsq _).1.trans (congrArg Rsq.rob headGone_rsq)⟩
  · unfold gapTimeout
    rw [hg]
    exact if_pos ⟨hn, hb, ht⟩
  · have hx : exec (.handoffAck id) s = .next (settleSource { s with rsq := { s.rsq with hand := lrem h s.rsq.hand } } h.handle h.mirror) :=
      congrArg Host.Outcome.next ((handAck_eq hf).trans (if_pos ⟨hc, by simp [hw]⟩))
    refine ⟨_, hx, settleSource_keeps.frame .rsq (by decide), (settleSource_keeps.after (keeps_rsq).mono).frame, fun hno => ?_, fun hyes => ?_⟩
    · have hs : settleSource { s with rsq := { s.rsq with hand := lrem h s.rsq.hand } } h.handle h.mirror = freeBoth { s with rsq := { s.rsq with hand := lrem h s.rsq.hand } } h.handle h.mirror := if_neg hno
      rw [hs]
      exact ⟨rfl, fun hr => freeBoth_freed (s := { s with rsq := { s.rsq with hand := lrem h s.rsq.hand } }) hr⟩
    · unfold settleSource
      rw [if_pos hyes]
  · refine congrArg Host.Outcome.next ((handAck_eq hf).trans (if_neg fun hcw => ?_))
    rcases hor with h0 | h1
    · simp [h0] at hcw
    · simp [h1] at hcw

end Sys2Proof.Machine

/-! PROOFS. Command frames, identity, claims and sessions (spec/13 R371 to R385). -/

namespace Sys2Proof.Machine

-- As in the stacks' part: elaborated in turn, the many short proofs hold no thread each.
set_option Elab.async false

section
variable {s u : State} {f : GwFrame} {m : GwReq}

/-! Arrival (R371 to R373). -/

theorem arrive_addressed (hp : s.hostPortOn = true) (hl : frameLen f ≤ 9600) (ha : f.attB = s.gwe.active) (hd : f.dst = Config.factoryAddress) :
    arrive s f = if f.prot then
        match verifyFrame (s.bump .GWE_RX_FRAMES 0) f with
        | none => (s.bump .GWE_RX_FRAMES 0).bump .GWE_MACSEC_DROP 0
        | some u => if s.carries f then takeFrame (noteHost u (encapPeer f.encap)) f else { s with gwe := u.gwe }
      else if s.carries f then takeFrame (s.bump .GWE_RX_FRAMES 0) f else s := by
  exact (if_neg (by simp [hp, hl])).trans ((if_neg (not_not.mpr ha)).trans (if_neg (not_not.mpr hd)))

/-- A frame in the form in use is taken up: an unprotected one as it is, a protected one once it verifies (R372, R373). -/
theorem arrive_carried (hp : s.hostPortOn = true) (hl : frameLen f ≤ 9600) (ha : f.attB = s.gwe.active) (hd : f.dst = Config.factoryAddress) (hc : s.carries f = true)
    (hu : (f.prot = false ∧ u = s.bump .GWE_RX_FRAMES 0) ∨ (f.prot = true ∧ ∃ v, verifyFrame (s.bump .GWE_RX_FRAMES 0) f = some v ∧ u = noteHost v (encapPeer f.encap))) :
    arrive s f = takeFrame u f := by
  rw [arrive_addressed hp hl ha hd]
  rcases hu with ⟨hf, rfl⟩ | ⟨hf, v, hv, rfl⟩
  · rw [if_neg (by simp [hf]), if_pos hc]
  · rw [if_pos hf, hv]
    exact if_pos hc

theorem takeFrame_held (h : u.holds = true) : takeFrame u f = { u with gwe := { u.gwe with held := u.gwe.held ++ [f] } } := if_pos h

theorem takeFrame_read (h : u.holds = false) : takeFrame u f = processFrame u f := if_neg (by simp [h])

theorem processFrame_malformed (h : frameReq f = none) : processFrame u f = refuse (u.bump .GWE_MALFORMED 0) (frameHead f) .badaddr := by
  unfold processFrame
  rw [h]

theorem processFrame_read (h : frameReq f = some m) : processFrame u f = checkFrameReq u m := by
  unfold processFrame
  rw [h]

/-! The cases of R377 in their order. -/

/-- A frame whose number is not asked any more: it is executed unless it asks for too much (R377). -/
def runOrRefuse (u : State) (m : GwReq) : State := if 64 < m.cmds.length ∨ 9600 < replySize m then refuse u m .noroom else executeFrame u m

theorem runOrRefuse_run (h1 : m.cmds.length ≤ 64) (h2 : replySize m ≤ 9600) : runOrRefuse u m = executeFrame u m := if_neg (by omega)

theorem checkFrameReq_loose (h : looseFrame m = true) : checkFrameReq u m = runOrRefuse u m := by
  unfold checkFrameReq
  rw [if_neg (by simp [h]), if_pos h]
  exact (if_neg (by simp [h])).trans (if_neg (by simp [h]))

theorem checkFrameReq_unprotected (h : looseFrame m = false) (hp : m.prot = false) : checkFrameReq u m = refuse (u.bump .GWE_AUTH_FAIL 0) m .auth :=
  if_pos (by simp [h, hp])

theorem checkFrameReq_cached {r : GwTx} (h : looseFrame m = false) (hp : m.prot = true) (hc : u.cachedReply m = some r) :
    checkFrameReq u m = answerFrame (u.bump .GWE_DUP 0) m { r with form := u.form m.peer, dst := m.src } := by
  unfold checkFrameReq
  rw [if_neg (by simp [hp]), if_neg (by simp [h]), hc]

theorem checkFrameReq_new (h : looseFrame m = false) (hp : m.prot = true) (hc : u.cachedReply m = none) : checkFrameReq u m =
    if ¬ looseFrame m ∧ ¬ opensFirst m ∧ ¬ (u.sess m.session).opened then refuse u m .denied
    else if ¬ looseFrame m ∧ ¬ opensFirst m ∧ ¬ (u.sess m.session).inWindow m.seq.toNat then refuse (u.bump .GWE_BADSEQ 0) m .badseq
    else runOrRefuse u m := by
  unfold checkFrameReq
  rw [if_neg (by simp [hp]), if_neg (by simp [h]), hc]
  rfl

theorem checkFrameReq_numbered (h : looseFrame m = false) (hp : m.prot = true) (hc : u.cachedReply m = none)
    (ho : opensFirst m = true ∨ ((u.sess m.session).opened = true ∧ (u.sess m.session).inWindow m.seq.toNat = true)) : checkFrameReq u m = runOrRefuse u m := by
  rw [checkFrameReq_new h hp hc]
  rcases ho with ho | ⟨hop, hw⟩
  · exact (if_neg (by simp [ho])).trans (if_neg (by simp [ho]))
  · exact (if_neg (by simp [hop])).trans (if_neg (by simp [hw]))

/-- Every command gets one result with its tag (R375). -/
theorem runCmds_results (m : GwReq) : ∀ (l : List GwCmd) (first failed : Bool) (s : State), (runCmds m first failed l s).1.map (fun r => (r.opcode, r.tag)) = l.map (fun c => (opCode c.op, c.tag))
  | [], _, _, _ => rfl
  | c :: l, first, failed, s => by
    unfold runCmds
    exact congrArg (_ :: ·) (runCmds_results m l false _ _)

/-- Under STOP the commands behind a failure are skipped (R379). -/
theorem runCmds_stopped {m : GwReq} (hs : m.stop = true) : ∀ (l : List GwCmd) (first : Bool) (s : State),
    (runCmds m first true l s).2.2 = s ∧ ∀ r ∈ (runCmds m first true l s).1, r.status = .aborted ∧ r.data = []
  | [], _, _ => ⟨rfl, by simp [runCmds]⟩
  | c :: l, first, s => by
    obtain ⟨hst, hres⟩ := runCmds_stopped hs l false s
    unfold runCmds
    rw [hs]
    refine ⟨hst, fun r hr => ?_⟩
    rcases List.mem_cons.mp hr with rfl | hr
    · exact ⟨rfl, rfl⟩
    · exact hres r hr

end

/-! A CLAIM accepted (R385). -/

section
variable {s : State} {a : ClaimArgs}

/-- What a CLAIM sets in the Gangway, but for the answer. -/
def State.claimed (s : State) : Option (List Byte) × BitVec 48 × List Byte × List Sess := (s.gwe.owner, s.gwe.hostMac, s.gwe.ukey, s.gwe.sess)

theorem queueEv_claimed (at_ code die gen : Nat) (args : List Nat) : Fixes State.claimed s (s.queueEv at_ code die gen args) := by
  unfold State.queueEv
  exact .ite rfl rfl

theorem raiseEv_claimed (code die gen : Nat) (args : List Nat) : Fixes State.claimed s (s.raiseEv code die gen args) := by
  unfold State.raiseEv State.raiseAt
  refine .ite (queueEv_claimed _ _ _ _ _) ?_
  exact .after (queueEv_claimed _ _ _ _ _) (.after (queueEv_claimed _ _ _ _ _) rfl)

theorem claimed_of_keeps {t : State} {l : List Piece} (h : Keeps l s t) (hl : Piece.gwe ∉ l) : Fixes State.claimed s t := by
  have hg := h.frame .gwe hl
  unfold Fixes State.claimed
  rw [hg]

theorem setMode_claimed (m : Mode) (cause : Nat) : Fixes State.claimed s (s.setMode m cause) := by
  unfold State.setMode
  extract_lets old _ t0 t1 t2
  have h0 : Keeps [.regs, .glb, .lpx] s t2 := State.bumpGen_keeps.after (State.setRf_keeps.after (State.setRf_keeps.after (State.closeTails_keeps.after (keeps_glb).mono)))
  exact (raiseEv_claimed _ _ _ _).after (claimed_of_keeps h0 (by decide))

theorem setMode_mode (m : Mode) (cause : Nat) : (s.setMode m cause).glb.mode = m := by
  unfold State.setMode
  extract_lets old _ t0 t1 t2
  have h0 : Keeps [.regs, .lpx, .gwe] { s with glb := { s.glb with mode := m, drainedSent := false, wdogMoored := false } } (t2.raiseEv 0x8001 pkg (t2.gen .GLB_MODE 0) [old.code, m.code, cause]) :=
    State.raiseEv_keeps.after (State.bumpGen_keeps.after (State.setRf_keeps.after (State.setRf_keeps.after State.closeTails_keeps.mono)))
  exact congrArg Glb.mode (h0.frame .glb (by decide))

/-- The associations, the key and the sessions that a CLAIM leaves; the owner is not yet set (R385). -/
def State.enrolled (s : State) (a : ClaimArgs) : State :=
  let t := enrolKey (newAssoc s a).2 (padTo 48 a.ukey)
  if s.gwe.owner.isSome && !a.prot then dropSessions t else t

theorem enrolKey_ukey (k : List Byte) : (enrolKey s k).gwe.ukey = k := rfl

theorem dropSessions_gwe : (dropSessions s).gwe = { s.gwe with sess := [{}, {}, {}, {}] } :=
  (show Keeps [.regs] { s with gwe := { s.gwe with sess := [{}, {}, {}, {}] } } (dropSessions s) from .foldl (fun _ _ => State.bumpGen_keeps.mono) .refl).frame .gwe (by decide)

theorem enrolled_ukey : (s.enrolled a).gwe.ukey = padTo 48 a.ukey := by
  unfold State.enrolled
  dsimp only
  split
  · rw [dropSessions_gwe]
    exact enrolKey_ukey (s := (newAssoc s a).2) _
  · exact enrolKey_ukey _

theorem enrolled_sess (ho : s.gwe.owner.isSome = true) (hp : a.prot = false) : (s.enrolled a).gwe.sess = [{}, {}, {}, {}] := by
  unfold State.enrolled
  dsimp only
  rw [if_pos (by simp [ho, hp]), dropSessions_gwe]

theorem enrolled_keeps : Keeps [.regs, .gwe, .plt, .free] s (s.enrolled a) :=
  .ite (dropSessions_keeps.after (enrolKey_keeps.after newAssoc_keeps.mono)) (enrolKey_keeps.after newAssoc_keeps.mono)

/-- The owner is set under a new generation; the mode is not yet entered (R385). -/
def State.owned (s : State) (a : ClaimArgs) : State :=
  ({ s.enrolled a with gwe := { (s.enrolled a).gwe with
    owner := some (padTo 96 a.owner), hostMac := a.src, draws := (s.enrolled a).gwe.draws + 1, assoc := some (newAssoc s a).1, lastClaim := some (a, s.claimReply a) } } : State).bumpGen .GWE_STATE 0

theorem acceptClaim_eq : (acceptClaim s a).2 = if (s.owned a).glb.mode = .listen then startTraining ((s.owned a).setMode .provision 1) else s.owned a := rfl

theorem owned_mode : (s.owned a).glb.mode = s.glb.mode := by
  unfold State.owned
  rw [State.bumpGen_glb]
  exact congrArg Glb.mode (enrolled_keeps.frame .glb (by decide))

theorem owned_claimed : (s.owned a).claimed = (some (padTo 96 a.owner), a.src, padTo 48 a.ukey, (s.enrolled a).gwe.sess) := by
  unfold State.owned State.claimed
  rw [State.bumpGen_gwe]
  exact congrArg (fun k => (some (padTo 96 a.owner), a.src, k, (s.enrolled a).gwe.sess)) enrolled_ukey

theorem acceptClaim_claimed : (acceptClaim s a).2.claimed = (some (padTo 96 a.owner), a.src, padTo 48 a.ukey, (s.enrolled a).gwe.sess) := by
  rw [acceptClaim_eq, ← owned_claimed]
  split
  · exact Eq.trans (claimed_of_keeps startTraining_keeps (by decide)) (setMode_claimed _ _)
  · rfl

theorem acceptClaim_mode : (acceptClaim s a).2.glb.mode = if s.glb.mode = .listen then .provision else s.glb.mode := by
  rw [acceptClaim_eq, owned_mode]
  split
  · exact (congrArg Glb.mode (startTraining_keeps.frame .glb (by decide))).trans (setMode_mode _ _)
  · exact owned_mode

theorem claimOp_repeated {b : ClaimArgs} {r : List Byte} (h : s.gwe.lastClaim = some (b, r)) (hs : sameClaim a b = true) : claimOp s a = (.ok, r, s) := by
  unfold claimOp
  rw [h]
  exact if_pos hs

theorem claimOp_new (h : ∀ b r, s.gwe.lastClaim = some (b, r) → sameClaim a b = false) :
    claimOp s a = match s.claimFault a with
      | some e => (e, [], s)
      | none => (.ok, (acceptClaim s a).1, (acceptClaim s a).2) := by
  unfold claimOp
  split
  next b r hl => exact if_neg (by simp [h b r hl])
  next => rfl

theorem execClaim_eq (hm : s.glb.mode.claims = true) : exec (.claim a) s = .next ((claimOp s a).2.2.answered 0x02 (claimOp s a).1 (claimOp s a).2.1) := by
  show execClaim a s = _
  unfold execClaim
  rw [hm]
  rfl

end

/-! Sessions (R380). -/

section
variable {s : State} {i : Nat}

theorem sess_modSess_self (f : Sess → Sess) (hi : i < s.gwe.sess.length) : (s.modSess i f).sess i = f (s.sess i) := by
  unfold State.modSess
  show (setNth s.gwe.sess i _).getD i {} = _
  unfold setNth
  rw [List.getD_eq_getElem?_getD, List.getElem?_set_self hi]
  rfl

theorem sess_modSess_other (f : Sess → Sess) {j : Nat} (h : j ≠ i) : (s.modSess i f).sess j = s.sess j := by
  show (setNth s.gwe.sess i _).getD j {} = _
  unfold setNth State.sess
  rw [List.getD_eq_getElem?_getD, List.getElem?_set_ne h.symm, ← List.getD_eq_getElem?_getD]

theorem sess_answered {t : State} {r : Reg} {d op : Nat} {st : Status} {l : List Byte} (j : Nat) : ((t.bumpGen r d).answered op st l).sess j = t.sess j := by
  unfold State.answered State.sess
  rw [State.bumpGen_gwe]

/-- A session changed under a new generation, as a command answers it. -/
theorem answered_sess {f : Sess → Sess} {op : Nat} {st : Status} {l : List Byte} (hi : i < s.gwe.sess.length) :
    ((((s.modSess i f).bumpGen .GWE_STATE 0).answered op st l).sess i = f (s.sess i)) ∧ (∀ j, j ≠ i → (((s.modSess i f).bumpGen .GWE_STATE 0).answered op st l).sess j = s.sess j)
      ∧ only [.regs, .gwe] s (((s.modSess i f).bumpGen .GWE_STATE 0).answered op st l) :=
  ⟨(sess_answered i).trans (sess_modSess_self f hi), fun _ h => (sess_answered _).trans (sess_modSess_other f h),
    only_trans (only_mono (by simp) (gwe_only s _)) (only_trans (only_mono (by simp) State.bumpGen_keeps.frame) (only_mono (by simp) (State.answered_only _ _ _ _)))⟩

theorem execOpenSession_eq {i : Fin 4} {seq : Word} {evt : Bool} (hm : s.glb.mode.any = true) : exec (.openSession i seq evt) s =
    .next (((s.modSess i (fun _ => { opened := true, evt := evt, kept := true, h := seq.toNat })).bumpGen .GWE_STATE 0).answered 0x03 .ok (beBytes 4 (b2n evt))) :=
  congrArg Host.Outcome.next (hostOp_any _ _ _ hm)

theorem execClose_eq {i : Fin 4} (hm : s.glb.mode.any = true) : exec (.close i) s =
    .next (if (s.sess i).opened then ((s.modSess i (fun x => { x with opened := false, evt := false })).bumpGen .GWE_STATE 0).answered 0x04 .ok [] else s.answered 0x04 .denied []) := by
  show execClose i s = _
  unfold execClose hostSess
  rw [hostOp_any _ _ _ hm]
  split
  next h =>
    unfold closeSess
    rw [if_pos h]
  next => rfl

end

/-- Settles O52: frames, identity, claims and sessions. -/
theorem sessionsAndFrames : Obligations.SessionsAndFrames := by
  refine ⟨fun s t f ht => ?_, fun m first failed l s => ⟨runCmds_results m l first failed s, fun hs hf => ?_⟩, fun s h hm => ?_, fun s a hm => ⟨fun b r hl hs => ?_, fun hn => ⟨fun e he => ?_, fun hf => ?_⟩⟩, fun s i seq evt hinv hm => ⟨?_, fun ho => ?_, fun ho => ?_⟩⟩
  · subst ht
    refine ⟨fun h => congrArg Host.Outcome.next (if_pos (by simpa using h)), fun hp hl ha => ?_, fun hp hl ha hd => ?_, fun hp hl ha hd => ?_⟩
    · exact congrArg Host.Outcome.next ((if_neg (by simp [hp, hl])).trans (if_pos ha))
    · exact congrArg Host.Outcome.next ((if_neg (by simp [hp, hl])).trans ((if_neg (not_not.mpr ha)).trans (if_pos hd)))
    · have hx := arrive_addressed hp hl ha hd
      refine ⟨fun hf hv => ?_, fun hf hc => ?_, fun v hf hv hc => ?_, fun hc u hu => ?_⟩
      · rw [if_pos hf, hv] at hx
        exact congrArg Host.Outcome.next hx
      · exact congrArg Host.Outcome.next (hx.trans ((if_neg (by simp [hf])).trans (if_neg (by simp [hc]))))
      · rw [if_pos hf, hv] at hx
        exact congrArg Host.Outcome.next (hx.trans (if_neg (by simp [hc])))
      · have hy : exec (.commandFrame f) s = .next (takeFrame u f) := congrArg Host.Outcome.next (arrive_carried hp hl ha hd hc hu)
        refine ⟨fun hh => hy.trans (congrArg Host.Outcome.next (takeFrame_held hh)), fun hh hr => ?_, fun hh m hr => ?_⟩
        · rw [takeFrame_read hh, processFrame_malformed hr] at hy
          exact hy
        · rw [takeFrame_read hh, processFrame_read hr] at hy
          refine ⟨fun hlo h1 h2 => ?_, fun hlo h => ?_, fun hlo hpr => ?_, fun hlo hpr => ⟨fun r hc => ?_, fun hc ho hs => ?_, fun hc ho hs hw => ?_, fun hc ho => ⟨fun h1 h2 => ?_, fun h => ?_⟩⟩⟩
          · rwa [checkFrameReq_loose hlo, runOrRefuse_run h1 h2] at hy
          · rw [checkFrameReq_loose hlo] at hy
            exact hy.trans (congrArg Host.Outcome.next (if_pos h))
          · rwa [checkFrameReq_unprotected hlo hpr] at hy
          · rwa [checkFrameReq_cached hlo hpr hc] at hy
          · rw [checkFrameReq_new hlo hpr hc] at hy
            exact hy.trans (congrArg Host.Outcome.next (if_pos (by simp [hlo, ho, hs])))
          · rw [checkFrameReq_new hlo hpr hc] at hy
            exact hy.trans (congrArg Host.Outcome.next ((if_neg (by simp [hs])).trans (if_pos (by simp [hlo, ho, hw]))))
          · rwa [checkFrameReq_numbered hlo hpr hc ho, runOrRefuse_run h1 h2] at hy
          · rw [checkFrameReq_numbered hlo hpr hc ho] at hy
            exact hy.trans (congrArg Host.Outcome.next (if_pos h))
  · subst hf
    exact runCmds_stopped hs l first s
  · show execIdentify h s = _
    unfold execIdentify
    rw [decide_eq_true hm]
    rfl
  · rw [execClaim_eq hm, claimOp_repeated hl hs]
  · have hc := claimOp_new hn
    rw [he] at hc
    rw [execClaim_eq hm, hc]
  · have hc := claimOp_new hn
    rw [hf] at hc
    have hx := execClaim_eq (a := a) hm
    rw [hc] at hx
    have hcl := acceptClaim_claimed (s := s) (a := a)
    refine ⟨_, hx, rfl, ?_, ?_, ?_, acceptClaim_mode, fun ho hp => ?_, ?_⟩
    · exact congrArg Prod.fst hcl
    · exact congrArg (fun x => x.2.1) hcl
    · exact congrArg (fun x => x.2.2.1) hcl
    · exact (congrArg (fun x => x.2.2.2) hcl).trans (enrolled_sess ho hp)
    · exact only_trans acceptClaim_keeps.frame (only_mono (by simp) (State.answered_only _ _ _ _))
  · obtain ⟨hself, hother, honly⟩ := answered_sess (s := s) (i := i) (f := fun _ => { opened := true, evt := evt, kept := true, h := seq.toNat }) (op := 0x03) (st := .ok) (l := beBytes 4 (b2n evt))
      (by rw [hinv.2.2.1]; exact i.isLt)
    exact ⟨_, execOpenSession_eq hm, hself, hother, honly⟩
  · obtain ⟨hself, hother, honly⟩ := answered_sess (s := s) (i := i) (f := fun x => { x with opened := false, evt := false }) (op := 0x04) (st := .ok) (l := [])
      (by rw [hinv.2.2.1]; exact i.isLt)
    exact ⟨_, (execClose_eq hm).trans (congrArg Host.Outcome.next (if_pos ho)), hself, hother, honly⟩
  · exact (execClose_eq hm).trans (congrArg Host.Outcome.next (if_neg (by simp [ho])))

end Sys2Proof.Machine

/-! PROOFS. Register writes, RD, WR, RMW, data windows and DBG (spec/13 R388 to R399, spec/19). -/

namespace Sys2Proof.Machine

-- As in the stacks' part: elaborated in turn, the many short proofs hold no thread each.
set_option Elab.async false

section
variable {s : State}

/-! A plain write by the access codes (R6). -/

/-- The word that a plain write stores: the written value in the fields of a mask, the old one elsewhere. -/
def mergedWord (m old new : Nat) : Nat := Nat.lor (Nat.land new m) (Nat.land old (2 ^ 32 - 1 - m))

theorem mergedWord_lt (m : Nat) {old new : Nat} (ho : old < 2 ^ 32) (hn : new < 2 ^ 32) : mergedWord m old new < 2 ^ 32 :=
  Nat.or_lt_two_pow (lt_of_le_of_lt Nat.and_le_left hn) (lt_of_le_of_lt Nat.and_le_left ho)

/-- Without writable bits the word is the old one. -/
theorem mergedWord_zero {old new : Nat} (ho : old < 2 ^ 32) : mergedWord 0 old new = old := by
  show (new &&& 0) ||| (old &&& (2 ^ 32 - 1)) = old
  rw [Nat.and_zero, Nat.zero_or, Nat.and_two_pow_sub_one_eq_mod, Nat.mod_eq_of_lt ho]

theorem wrPlain_ok {r : Reg} {d : Nat} {idx : List Nat} {w : Word} (hr : mrise 0 s.regs = true) (hm : s.glb.mode = .provision) (ht : r ≠ .PHI_TICK) (hb : s.badValue r d idx w = false) :
    (wrPlain s r d idx w).1 = .ok ∧ only [.regs] s (wrPlain s r d idx w).2
      ∧ ((wrPlain s r d idx w).2.reg r d idx).toNat = mergedWord (r.maskWhere (fun a => a == .rwp || a == .rw)) (s.reg r d idx).toNat (shaped r idx w).toNat := by
  unfold wrPlain
  extract_lets old new p m t
  rw [if_neg (by simp [hb]), if_neg (by simp [hm])]
  by_cases h0 : m = 0
  · rw [if_pos h0]
    refine ⟨rfl, only_refl _ _, ?_⟩
    show old = mergedWord m old new
    rw [h0, mergedWord_zero (s.reg r d idx).isLt]
  · rw [if_neg h0, if_neg ht]
    refine ⟨rfl, State.setReg_keeps.frame, ?_⟩
    rw [State.reg_setReg_self _ _ _ _ _ hr, BitVec.toNat_ofNat]
    exact Nat.mod_eq_of_lt (mergedWord_lt m (s.reg r d idx).isLt (shaped r idx w).isLt)

/-! The broadcast block (R529, R530). -/

theorem execBroadcastWrite_eq {off : Nat} {w : Word} (hm : s.glb.mode.any = true) (ho : off < 0x100000) : exec (.broadcastWrite off w) s = .next (wrResult (bcastWrite s off w)) := by
  show execBroadcastWrite off w s = _
  unfold execBroadcastWrite
  rw [hostWr_any _ _ hm, if_pos ho]

theorem bcastWrite_eq {off : Nat} {w : Word} {r : Reg} {idx : List Nat} (ha : off % 4 = 0) (hr : regIn false off Reg.all = some (r, idx)) (hg : r.hasGen = false ∨ fld w 31 16 = 0xFFFF) :
    bcastWrite s off w = match ((s.bcastDies r).map (fun d => (writeReg s ⟨r, d, idx⟩ w).1)).find? (· ≠ .ok) with
      | some e => (e, s)
      | none => (.ok, overDies (fun d t => (writeReg t ⟨r, d, idx⟩ w).2) (s.bcastDies r) s) := by
  unfold bcastWrite
  rw [if_neg (by simp [ha]), hr]
  exact if_neg fun h => hg.elim (fun hn => by simp [hn] at h) h.2

theorem bcastWrite_generation {off : Nat} {w : Word} {r : Reg} {idx : List Nat} (ha : off % 4 = 0) (hr : regIn false off Reg.all = some (r, idx)) (hg : r.hasGen = true) (hw : fld w 31 16 ≠ 0xFFFF) :
    bcastWrite s off w = (.badaddr, s) := by
  unfold bcastWrite
  rw [if_neg (by simp [ha]), hr]
  exact if_pos ⟨hg, hw⟩

/-- A broadcast that every die takes changes every die. -/
theorem bcastWrite_taken {off : Nat} {w : Word} {r : Reg} {idx : List Nat} (ha : off % 4 = 0) (hr : regIn false off Reg.all = some (r, idx)) (hg : r.hasGen = false ∨ fld w 31 16 = 0xFFFF)
    (hd : ∀ d ∈ s.bcastDies r, (writeReg s ⟨r, d, idx⟩ w).1 = .ok) : bcastWrite s off w = (.ok, overDies (fun d t => (writeReg t ⟨r, d, idx⟩ w).2) (s.bcastDies r) s) := by
  have hn : ((s.bcastDies r).map (fun d => (writeReg s ⟨r, d, idx⟩ w).1)).find? (· ≠ .ok) = none := by
    rw [List.find?_eq_none]
    intro e he
    obtain ⟨d, hm, rfl⟩ := List.mem_map.mp he
    simp [hd d hm]
  rw [bcastWrite_eq ha hr hg, hn]

/-- A broadcast that one die refuses changes none. -/
theorem bcastWrite_refused {off : Nat} {w : Word} {r : Reg} {idx : List Nat} (ha : off % 4 = 0) (hr : regIn false off Reg.all = some (r, idx)) (hg : r.hasGen = false ∨ fld w 31 16 = 0xFFFF)
    (hd : ∃ d ∈ s.bcastDies r, (writeReg s ⟨r, d, idx⟩ w).1 ≠ .ok) : ∃ e, e ≠ .ok ∧ bcastWrite s off w = (e, s) := by
  obtain ⟨d, hm, hne⟩ := hd
  rw [bcastWrite_eq ha hr hg]
  cases hf : ((s.bcastDies r).map (fun d => (writeReg s ⟨r, d, idx⟩ w).1)).find? (· ≠ .ok) with
  | some e => exact ⟨e, by simpa using List.find?_some hf, rfl⟩
  | none => exact absurd (List.find?_eq_none.mp hf _ (List.mem_map_of_mem hm)) (by simpa using hne)

theorem execRegisterWrite_eq {a w : Word} (hm : s.glb.mode.any = true) : exec (.registerWrite a w) s = .next (wrResult (writeAddr s a.toNat w)) := hostWr_any s (fun s => writeAddr s a.toNat w) hm

/-! RD, WR and RMW (R388). -/

theorem execRd_eq {a : Word} {n : Nat} (h : s.readsNow a.toNat n = true) : exec (.rd a n) s = .next ((rdOp s a.toNat n).2.2.answered 0x10 (rdOp s a.toNat n).1 (rdOp s a.toNat n).2.1) := by
  show execRd a n s = _
  unfold execRd
  rw [h]
  rfl

theorem rdOp_eq {a n : Nat} (h1 : 1 ≤ n) (h2 : n ≤ 2048) (ha : a % 4 = 0) : rdOp s a n = match s.reachAll a n with
    | none => (.badaddr, [], s)
    | some l => readAll l s := by
  unfold rdOp
  exact (if_neg (by omega)).trans rfl

theorem readsNow_of_any {a n : Nat} (h : s.glb.mode.any = true) : s.readsNow a n = true := by
  unfold State.readsNow
  rw [h]
  rfl

/-- In LISTEN an RD reads one to 2,048 words (R532). -/
theorem readsNow_listen {a n : Nat} (hm : s.glb.mode = .listen) (h : s.readsNow a n = true) : 1 ≤ n ∧ n ≤ 2048 := by
  unfold State.readsNow at h
  rw [hm] at h
  simp [Mode.any, Mode.threads] at h
  omega

theorem execWr_eq {a : Word} {ws : List Word} {e : Status} {n : Nat} {t : State} (hm : s.glb.mode.any = true) (h0 : ws ≠ []) (hl : ws.length ≤ 2047) (hw : writeAll a.toNat 0 ws s = (e, n, t)) :
    exec (.wr a ws) s = .next (t.answered 0x11 e (beBytes 4 n)) := by
  show execWr a ws s = _
  unfold execWr
  rw [hostOp_any _ _ _ hm]
  unfold wrOp
  rw [if_neg (by simp [h0, hl]), hw]

theorem execRmw_eq {a m v : Word} (hm : s.glb.mode.any = true) : exec (.rmw a m v) s = .next ((rmwOp s a.toNat m v).2.2.answered 0x12 (rmwOp s a.toNat m v).1 (rmwOp s a.toNat m v).2.1) :=
  congrArg Host.Outcome.next (hostOp_any _ _ _ hm)

theorem rmwOp_denied {a : Nat} {m v : Word} {x : RegRef} (hx : s.reach a = some x) (hn : x.reg.noRmw x.idx = true) : rmwOp s a m v = (.denied, [], s) := by
  unfold rmwOp
  rw [hx]
  exact if_pos hn

theorem rmwOp_done {a : Nat} {m v old : Word} {x : RegRef} {e : Status} {t u : State} (hx : s.reach a = some x) (hn : x.reg.noRmw x.idx = false) (hr : readReg s x.reg x.die x.idx = (.ok, old, t))
    (hw : writeReg t x ((old &&& ~~~m) ||| (v &&& m)) = (e, u)) : rmwOp s a m v = (e, if e = .ok then beBytes 4 old.toNat else [], u) := by
  unfold rmwOp
  rw [hx]
  dsimp only
  rw [if_neg (by simp [hn]), hr]
  dsimp only
  rw [hw]
  dsimp only
  split
  next h => rw [h]
  next => rfl

/-- No register lies in the broadcast block (R529). -/
theorem reach_bcast {a : Nat} (h : (bcastOffset a).isSome = true) : s.reach a = none := by
  have hl : locate a = none := by
    unfold bcastOffset at h
    unfold locate
    split at h
    next hb =>
      split
      · rfl
      · rw [if_neg (by omega), if_neg (by omega)]
    next => exact absurd h (by simp)
  unfold State.reach
  rw [hl]

/-! Data windows (R389, R391). -/

theorem hostSess_open {op i : Nat} {f : TblAns} (hm : s.glb.mode.any = true) (ho : (s.sess i).opened = true) : hostSess s op i f = f.2.2.answered op f.1 f.2.1 := by
  unfold hostSess
  rw [hostOp_any _ _ _ hm, if_pos ho]

theorem winRdOp_eq {i count n : Nat} {e : Status} {l : List Byte} {t : State} (hl : (s.sess i).lengthOk count = true)
    (hr : readUnits (s.sess i).space (s.sess i).unit (count / (s.sess i).unit) (s.sess i).off s = (e, l, n, t)) : winRdOp s i count = (e, beBytes 8 (s.sess i).off ++ l, moveWindow t i n) := by
  unfold winRdOp
  dsimp only
  rw [if_neg (by simp [hl]), hr]

theorem winWrOp_eq {i n : Nat} {data : List Byte} {e : Status} {t : State} (hl : (s.sess i).lengthOk data.length = true)
    (hw : writeUnits (s.sess i).space (s.sess i).unit (s.sess i).off (chunksOf (s.sess i).unit (data.length / (s.sess i).unit) data) s = (e, n, t)) :
    winWrOp s i data = (e, beBytes 8 (s.sess i).off ++ beBytes 4 (n * (s.sess i).unit) ++ [0, 0, 0, 0], moveWindow t i n) := by
  unfold winWrOp
  dsimp only
  rw [if_neg (by simp [hl]), hw]

/-! DBG (R399). -/

theorem execDbg_eq {a : DbgArgs} (hm : s.glb.mode.any = true) : exec (.dbg a) s = .next ((dbgOp s a).2.2.answered 0x70 (dbgOp s a).1 (dbgOp s a).2.1) :=
  congrArg Host.Outcome.next (hostOp_any _ _ _ hm)

theorem dbgOp_control {a : DbgArgs} {e : Status} {t : State} (hl : s.isLive a.die = true) (h1 : 1 ≤ a.op) (h5 : a.op ≤ 5) (hc : threadCtl s a.die a.op a.thread a.expGen.toNat = (e, t)) :
    dbgOp s a = if e = .ok then (.ok, dbgBytes t a.die 0, lapse t a.die) else (e, [], t) := by
  unfold dbgOp
  rw [if_neg (by simp [hl]), if_pos ⟨h1, h5⟩, hc]

theorem dbgOp_access {a : DbgArgs} (hl : s.isLive a.die = true) (hg : genOk a.expGen.toNat (s.gen .CRA_STATE a.die) = true) (ht : a.thread ≤ 383) (hr : a.reg ≤ 32) (ho : a.op = 6 ∨ a.op = 7) :
    dbgOp s a = if a.op = 7 ∧ ¬ s.debugEn a.die then (.denied, [], s)
      else if ¬ (s.thr a.die a.thread).open_ then (.busy, [], s)
      else if a.op = 6 then (.ok, dbgBytes s a.die (s.dbgValue a.die a.thread a.reg), s)
      else (.ok, dbgBytes (dbgSet s a.die a.thread a.reg a.value) a.die 0, dbgSet s a.die a.thread a.reg a.value) := by
  unfold dbgOp
  rw [if_neg (by simp [hl]), if_neg (by omega), if_neg (by simp [hg]), if_neg (by omega)]

end

/-- Settles O53: each form of access. -/
theorem registersAndWindows : Obligations.RegistersAndWindows := by
  refine ⟨fun s a n hm ha => ⟨fun hnow l e b t hl hr => ?_, fun hnow => ?_⟩, fun s hm => ⟨fun a w => ⟨fun off ho => ?_, fun x ho hx => ?_, fun ho hx => ?_⟩, fun r d idx w hinv hp ht hb => wrPlain_ok hinv.rise hp ht hb,
    fun off w r idx ho ha hr hg => ⟨fun hd => ?_, fun hd => ?_⟩, fun off w r idx ho ha hr hg hw => ?_, fun a m v hb => ?_, fun a n h1 h2 ha => ⟨fun l e b t hl hr => ?_, fun hl => ?_⟩,
    fun a ws e n t h0 hl hw => execWr_eq hm h0 hl hw, fun a m v x hx => ⟨fun hn => ?_, fun hn old t e u hr hw => ?_⟩,
    fun i ho => ⟨fun space unit off hinv hu h48 hmod => ?_, fun count e l n t hl hr => ?_, fun data e n t hl hw => ?_⟩,
    fun a hl => ⟨fun e t h1 h5 hc => ⟨fun he => ?_, fun he => ?_⟩, fun hg hth hreg => ⟨fun hop hde => ?_, fun hop hopen => ?_, fun hop hopen => ?_, fun hop hde hopen => ?_⟩⟩⟩⟩
  · obtain ⟨h1, h2⟩ := readsNow_listen hm hnow
    rw [execRd_eq hnow, rdOp_eq h1 h2 ha, hl]
    dsimp only
    rw [hr]
  · show execRd a n s = _
    unfold execRd
    rw [hnow]
    rfl
  · rw [execRegisterWrite_eq hm]
    unfold writeAddr
    rw [ho]
  · rw [execRegisterWrite_eq hm]
    unfold writeAddr
    rw [ho]
    dsimp only
    rw [hx]
  · rw [execRegisterWrite_eq hm]
    unfold writeAddr
    rw [ho]
    dsimp only
    rw [hx]
  · rw [execBroadcastWrite_eq hm ho, bcastWrite_taken ha hr hg hd]
  · obtain ⟨e, he, hx⟩ := bcastWrite_refused ha hr hg hd
    exact ⟨e, he, by rw [execBroadcastWrite_eq hm ho, hx]⟩
  · rw [execBroadcastWrite_eq hm ho, bcastWrite_generation ha hr hg hw]
  · have hx : rmwOp s a.toNat m v = (.badaddr, [], s) := by
      unfold rmwOp
      rw [reach_bcast hb]
    rw [execRmw_eq hm, hx]
  · rw [execRd_eq (readsNow_of_any hm), rdOp_eq h1 h2 ha, hl]
    dsimp only
    rw [hr]
  · rw [execRd_eq (readsNow_of_any hm), rdOp_eq h1 h2 ha, hl]
  · rw [execRmw_eq hm, rmwOp_denied hx hn]
  · rw [execRmw_eq hm, rmwOp_done hx hn hr hw]
  · have hw : winSetOp s i space unit off.toNat = (.ok, [], s.modSess i (fun x => { x with space := space, unit := unit, off := off.toNat })) :=
      if_neg (by simp [hu, hmod]; omega)
    have hx : exec (.winSet i space unit off) s = .next ((s.modSess i (fun x => { x with space := space, unit := unit, off := off.toNat })).answered 0x20 .ok []) :=
      congrArg Host.Outcome.next ((hostSess_open hm ho).trans (by rw [hw]))
    exact ⟨_, hx, sess_modSess_self (fun x => { x with space := space, unit := unit, off := off.toNat }) (by rw [hinv.2.2.1]; exact i.isLt), only_trans (gwe_only s _) (State.answered_only _ _ _ _)⟩
  · exact congrArg Host.Outcome.next ((hostSess_open hm ho).trans (by rw [winRdOp_eq hl hr]))
  · exact congrArg Host.Outcome.next ((hostSess_open hm ho).trans (by rw [winWrOp_eq hl hw]))
  · rw [execDbg_eq hm, dbgOp_control hl h1 h5 hc, if_pos he]
    have hz : dbgBytes t a.die 0 = beBytes 2 (t.gen .CRA_STATE a.die) ++ [0, 0] ++ beBytes 8 0 := rfl
    rw [hz]
  · rw [execDbg_eq hm, dbgOp_control hl h1 h5 hc, if_neg he]
  · rw [execDbg_eq hm, dbgOp_access hl hg hth hreg (.inr hop), if_pos ⟨hop, by simp [hde]⟩]
  · rw [execDbg_eq hm, dbgOp_access hl hg hth hreg (hop.imp_right And.left), if_neg (by rintro ⟨h7, hn⟩; rcases hop with h6 | ⟨-, h⟩; omega; exact hn h), if_pos (by simp [hopen])]
  · rw [execDbg_eq hm, dbgOp_access hl hg hth hreg (.inl hop), if_neg (by omega), if_neg (by simp [hopen]), if_pos hop]
    rfl
  · rw [execDbg_eq hm, dbgOp_access hl hg hth hreg (.inr hop), if_neg (by simp [hde]), if_neg (by simp [hopen]), if_neg (by omega)]
    unfold dbgBytes
    rw [gen_of_regs (dbgSet_keeps.frame .regs (by decide))]
    rfl

end Sys2Proof.Machine

/-! PROOFS. Long operations and patch containers (spec/13 R393 to R400, spec/14 R414 to R428). -/

namespace Sys2Proof.Machine

-- As in the stacks' part: elaborated in turn, the many short proofs hold no thread each.
set_option Elab.async false

section
variable {s : State} {i : Nat}

/-! Records (R394). -/

/-- The slots of the completion records. -/
def State.opRecs (s : State) : List (Option OpRec) := s.plt.ops

theorem op_of_recs {t : State} (h : Fixes State.opRecs s t) (j : Nat) : t.op j = s.op j := congrArg (fun l : List (Option OpRec) => l.getD j none) h

theorem opRecs_of_keeps {t : State} {l : List Piece} (h : Keeps l s t) (hl : Piece.plt ∉ l) : Fixes State.opRecs s t := congrArg Plt.ops (h.frame .plt hl)

theorem op_setOp_self (o : Option OpRec) (hi : i < s.plt.ops.length) : (s.setOp i o).op i = o := by
  show (setNth s.plt.ops i o).getD i none = o
  unfold setNth
  rw [List.getD_eq_getElem?_getD, List.getElem?_set_self hi]
  rfl

theorem op_setOp_other (o : Option OpRec) {j : Nat} (h : j ≠ i) : (s.setOp i o).op j = s.op j := by
  show (setNth s.plt.ops i o).getD j none = _
  unfold setNth State.op
  rw [List.getD_eq_getElem?_getD, List.getElem?_set_ne h.symm, ← List.getD_eq_getElem?_getD]

/-- A slot that holds a record is one of those there are. -/
theorem op_lt {r : OpRec} (h : s.op i = some r) : i < s.plt.ops.length := by
  by_contra hn
  unfold State.op at h
  rw [List.getD_eq_default _ _ (not_lt.mp hn)] at h
  exact absurd h (by simp)

theorem freeOp_lt (h : s.freeOp = some i) : i < 16 := List.mem_range.mp (List.mem_of_find?_eq_some h)

/-! An operation starts (R393). -/

/-- The record of an operation that starts. -/
def OpRec.start (n : Nat) (kind : OpKind) : OpRec :=
  { opid := n, ended := false, status := .ok, kind := kind, progress := 0, result := 0, xing := 0, step := 0, mark := 0, acc := 0xFFFFFFFF }

theorem takeOp_free {kind : OpKind} (h : s.freeOp = some i) : takeOp s kind = (.ok, beBytes 2 s.plt.nextOpid ++ [0, 0], (startOp s i kind).2) := by
  unfold takeOp
  rw [h]
  rfl

theorem takeOp_busy {kind : OpKind} (h : s.freeOp = none) : takeOp s kind = (.busy, [], s) := by
  unfold takeOp
  rw [h]

theorem startOp_op {kind : OpKind} (hi : i < s.plt.ops.length) : (startOp s i kind).2.op i = some (.start s.plt.nextOpid kind) := op_setOp_self (s := s) _ hi

/-- What LONG answers and leaves with a record free. -/
theorem takeOp_starts {kind : OpKind} {c : Instr} (hm : s.glb.mode.any = true) (hI : s.Inv) (h : s.freeOp = some i) (hx : exec c s = .next (hostOp s 0x40 (takeOp s kind))) :
    ∃ t, exec c s = .next t ∧ only [.gwe, .plt] s t ∧ t.plt.nextOpid = opidAfter s.plt.nextOpid ∧ t.op i = some (.start s.plt.nextOpid kind)
      ∧ t.gwe.results = [{ opcode := 0x40, tag := 0, status := .ok, data := beBytes 2 s.plt.nextOpid ++ [0, 0] }] := by
  rw [hostOp_any _ _ _ hm, takeOp_free h] at hx
  refine ⟨_, hx, only_trans (only_mono (by simp) startOp_keeps.frame) (only_mono (by simp) (State.answered_only _ _ _ _)), rfl, ?_, rfl⟩
  exact startOp_op (by rw [hI.2.2.2.1]; exact freeOp_lt h)

theorem execLongFill_eq {a : LongArgs} (h : longRange a = true) : exec (.longFill a) s = .next (hostOp s 0x40 (takeOp s (.fill a))) :=
  congrArg (fun f => Host.Outcome.next (hostOp s 0x40 f)) (if_pos h)

theorem execLongCrc_eq {a : LongArgs} (h : longRange a = true) : exec (.longCrc a) s = .next (hostOp s 0x40 (takeOp s (.crc a))) :=
  congrArg (fun f => Host.Outcome.next (hostOp s 0x40 f)) (if_pos h)

theorem execLongTblClear_eq {a : LongArgs} (h : s.clearOk a = true) (h3 : a.space ≠ 3 ∨ s.glb.mode = .provision) : exec (.longTblClear a) s = .next (hostOp s 0x40 (takeOp s (.tblClear a))) :=
  congrArg (fun f => Host.Outcome.next (hostOp s 0x40 f)) ((if_neg (by simp [h])).trans (if_neg fun hx => h3.elim (fun h => h hx.1) hx.2))

/-! An operation goes on (R414, R416). -/

theorem runOp_on {r : OpRec} {units entries : Nat} {x : OpRec} {t : State} (ho : s.op i = some r) (hl : s.plt.leadMove = none) (ht : s.opTurn i = true)
    (hs : opSome s r units entries = (none, x, t)) : runOp s i units entries = t.setOp i (some x) := by
  unfold runOp
  rw [ho]
  dsimp only
  rw [if_neg (by simp [hl, ht]), hs]

theorem runOp_ends {r : OpRec} {units entries : Nat} {st : Status} {x : OpRec} {t : State} (ho : s.op i = some r) (hl : s.plt.leadMove = none) (ht : s.opTurn i = true)
    (hs : opSome s r units entries = (some st, x, t)) : runOp s i units entries = endOp (t.setOp i (some x)) i st := by
  unfold runOp
  rw [ho]
  dsimp only
  rw [if_neg (by simp [hl, ht]), hs]

/-! The end of an operation (R394). -/

/-- The record of an operation as it ends. -/
def OpRec.closed (r : OpRec) (s : State) (st : Status) : OpRec := { r with ended := true, status := st, xing := s.phi.xing, step := s.phi.step }

theorem endOp_recs {r : OpRec} {st : Status} (ho : s.op i = some r) (he : r.ended = false) : (endOp s i st).plt.ops = setNth s.plt.ops i (some (r.closed s st)) := by
  have ho' : s.plt.ops.getD i none = some r := ho
  unfold endOp
  rw [ho']
  dsimp only
  rw [if_neg (by simp [he])]
  rw [(State.raiseEv_keeps).frame .plt (by decide)]
  split <;> rfl

theorem endOp_op {r : OpRec} {st : Status} (ho : s.op i = some r) (he : r.ended = false) : (endOp s i st).op i = some (r.closed s st) := by
  have hx : Fixes State.opRecs (s.setOp i (some (r.closed s st))) (endOp s i st) := endOp_recs ho he
  rw [op_of_recs hx, op_setOp_self _ (op_lt ho)]

theorem endOp_op_other {r : OpRec} {st : Status} (ho : s.op i = some r) (he : r.ended = false) {j : Nat} (h : j ≠ i) : (endOp s i st).op j = s.op j := by
  have hx : Fixes State.opRecs (s.setOp i (some (r.closed s st))) (endOp s i st) := endOp_recs ho he
  rw [op_of_recs hx, op_setOp_other _ h]

/-! ABORT and STATUS (R395, R396). -/

theorem execAbort_eq {n : BitVec 16} (hm : s.glb.mode.any = true) : exec (.abort n) s = .next ((abortOp s n.toNat).2.2.answered 0x41 (abortOp s n.toNat).1 (abortOp s n.toNat).2.1) :=
  congrArg Host.Outcome.next (hostOp_any _ _ _ hm)

theorem execStatus_eq {n : BitVec 16} {b : Bool} (hm : s.glb.mode.any = true) : exec (.status n b) s = .next ((statusOp s n.toNat b).2.2.answered 0x42 (statusOp s n.toNat b).1 (statusOp s n.toNat b).2.1) :=
  congrArg Host.Outcome.next (hostOp_any _ _ _ hm)

theorem abortOp_eq {n : Nat} {r : OpRec} (hs : s.opSlot n = some i) (ho : s.op i = some r) : abortOp s n = if r.ended then (.alreadyDone, [], s) else (.ok, [], endOp s i .aborted) := by
  unfold abortOp
  rw [hs]
  dsimp only
  rw [ho]

theorem statusOp_eq {n : Nat} {r : OpRec} {b : Bool} (hn : n ≠ 0xFFFF) (hs : s.opSlot n = some i) (ho : s.op i = some r) :
    statusOp s n b = if ¬ b then (.ok, r.bytes, s) else if ¬ r.ended then (.busy, [], s) else (.ok, r.bytes, s.setOp i none) := by
  unfold statusOp
  rw [if_neg hn, hs]
  dsimp only
  rw [ho]

/-! Patch containers (R400, R426, R427). -/

theorem execPatch_eq {a : PatchArgs} (hp : s.glb.mode = .provision) : exec (.patch a) s = .next ((patchOp s a).2.2.answered 0x80 (patchOp s a).1 (patchOp s a).2.1) := by
  show execPatch a s = _
  unfold execPatch
  rw [if_pos hp, hostOp_any _ _ _ (Mode.any_of_provision hp)]

/-- A piece that may be placed. -/
theorem patchOp_placed {a : PatchArgs} (h1 : a.total ≤ 0x400000) (h2 : a.offset + a.data.length ≤ a.total) (h3 : a.data.length ≤ 8176) (h4 : a.data.length % 4 = 0) (hs : s.patchSlot = none) :
    patchOp s a = if (putPiece s a).plt.patchLast ∧ (putPiece s a).plt.patchBuf.length = a.total then
        match s.freeOp with
        | none => (.busy, [], s)
        | some i => (.ok, beBytes 4 (putPiece s a).plt.patchBuf.length ++ beBytes 2 s.plt.nextOpid ++ [0, 0],
            if (startPatch (putPiece s a) i).opTurn i then verifyPatch (startPatch (putPiece s a) i) i else startPatch (putPiece s a) i)
      else (.ok, beBytes 4 (putPiece s a).plt.patchBuf.length ++ beBytes 2 0xFFFF ++ [0, 0], putPiece s a) := by
  unfold patchOp
  rw [if_neg (by omega), if_neg (by simp [hs])]
  rfl

theorem patchApply_eq (hs : s.patchSlot = some i) (hl : s.plt.leadMove = none) (ht : s.opTurn i = true) :
    patchApply s = if (if s.plt.verified then s else verifyPatch s i).plt.verified then applyPatch (if s.plt.verified then s else verifyPatch s i) i else (if s.plt.verified then s else verifyPatch s i) := by
  unfold patchApply
  rw [hs]
  dsimp only
  rw [if_neg (by simp [hl, ht])]

/-- A verified container on every die; its operation has not yet ended (R427). -/
def State.patched (s : State) (p : Payload) : State :=
  let t := p.code.foldl (fun t x => storeCode t x.1 x.2) (p.words.foldl (fun t x => storeMcs t x.1 x.2) s)
  (keepPatch (logPatch t (cnum s.container 5 1) (cnum s.container 12 4) p) (cnum s.container 5 1) (cnum s.container 12 4) p).setRf .MCS_CTRL 0 [] 0 0 0

theorem applyPatch_eq {p : Payload} (h : records s.container = some p) : applyPatch s i = endOp (s.patched p) i .ok := by
  unfold applyPatch
  dsimp only
  rw [h]
  rfl

theorem storeMcs_recs (w : Nat) (v : BitVec 128) : Fixes State.opRecs s (storeMcs s w v) := rfl

theorem storeCode_recs (a : Nat) (w : Word) : Fixes State.opRecs s (storeCode s a w) := rfl

theorem patched_recs (p : Payload) : Fixes State.opRecs s (s.patched p) := by
  have hw : Fixes State.opRecs s (p.words.foldl (fun t x => storeMcs t x.1 x.2) s) := .foldl (fun _ _ => storeMcs_recs _ _) s
  have hc : Fixes State.opRecs _ (p.code.foldl (fun t x => storeCode t x.1 x.2) (p.words.foldl (fun t x => storeMcs t x.1 x.2) s)) := .foldl (fun _ _ => storeCode_recs _ _) _
  unfold State.patched
  generalize p.code.foldl _ _ = t at hc
  have hl : Fixes State.opRecs t (logPatch t (cnum s.container 5 1) (cnum s.container 12 4) p) := opRecs_of_keeps logPatch_keeps (by decide)
  have hk (u : State) (a b : Nat) : Fixes State.opRecs u (keepPatch u a b p) := by
    unfold keepPatch
    exact .ite (.ite rfl rfl) rfl
  exact .after (show Fixes _ _ _ from rfl) ((hk _ _ _).after (hl.after (hc.after hw)))

/-- The slot of a number is told by the numbers of the records. -/
theorem opSlot_of {t : State} (n : Nat) (h : ∀ j, (t.op j).map (·.opid) = (s.op j).map (·.opid)) : t.opSlot n = s.opSlot n := by
  unfold State.opSlot
  congr 1
  funext j
  have hj := h j
  cases hs : s.op j with
  | none =>
    rw [hs] at hj
    rw [Option.map_eq_none_iff.mp hj]
  | some r =>
    rw [hs] at hj
    obtain ⟨x, hx, hid⟩ := Option.map_eq_some_iff.mp hj
    rw [hx]
    dsimp only
    rw [hid]

/-- An operation whose turn it is has not ended. -/
theorem ended_of_opTurn {r : OpRec} (ho : s.op i = some r) (ht : s.opTurn i = true) : r.ended = false := by
  unfold State.opTurn at ht
  rw [ho] at ht
  simp only [Bool.and_eq_true, Bool.not_eq_true'] at ht
  exact ht.1

/-- Behind the application its operation has ended under its number (R427, R428). -/
theorem applyPatch_ended {r : OpRec} {n : Nat} (hr : (records s.container).isSome = true) (ho : s.op i = some r) (ht : s.opTurn i = true) (hs : s.opSlot n = some i) :
    (applyPatch s i).opSlot n = some i ∧ (∃ x, (applyPatch s i).op i = some x ∧ x.ended = true) ∧ (applyPatch s i).glb = s.glb := by
  obtain ⟨p, hp⟩ := Option.isSome_iff_exists.mp hr
  have he := ended_of_opTurn ho ht
  have hop : (s.patched p).op i = some r := (op_of_recs (patched_recs p) i).trans ho
  have hglb : (applyPatch s i).glb = s.glb := applyPatch_keeps.frame .glb (by decide)
  rw [applyPatch_eq hp] at hglb ⊢
  refine ⟨(opSlot_of n fun j => ?_).trans hs, ⟨_, endOp_op hop he, rfl⟩, hglb⟩
  by_cases hj : j = i
  · subst hj
    rw [endOp_op hop he, ho]
    rfl
  · rw [endOp_op_other hop he hj, op_of_recs (patched_recs p)]

end

/-- Settles O54: each command of the long operations. -/
theorem longOperationsRun : Obligations.LongOperationsRun := by
  intro s hinv hm
  refine ⟨fun a => ⟨fun i hi => ⟨fun hr => ?_, fun hr => ?_, fun hc h3 => ?_⟩, fun hi => ⟨fun hr => ⟨?_, ?_⟩, fun hc h3 => ?_⟩, fun hr => ⟨?_, ?_⟩, fun hc => ?_, fun hc h3 hp => ?_⟩,
    fun i r ho hl ht => ⟨fun e x t hs => ⟨fun he => ?_, fun st he => ?_⟩, fun e x t hs => ⟨fun he => ?_, fun st he => ?_⟩⟩, fun n hn => ?_,
    fun n i r hs ho => ⟨fun he => ?_, fun he => ?_, fun hn => ?_, fun hn he => ?_, fun hn he => ?_⟩, fun release => ?_, fun a hp => ⟨fun hb => ?_, fun h1 h2 h3 h4 hs => ⟨fun hno => ?_, fun i u hlast hall hi hu => ?_⟩⟩,
    fun i hs hl ht => ⟨fun hv => ?_, fun hv => ?_, fun r n hv hr ho hn hsl => ?_⟩⟩
  · exact takeOp_starts hm hinv hi (execLongFill_eq hr)
  · obtain ⟨t, hx, honly, hnext, hop, -⟩ := takeOp_starts hm hinv hi (execLongCrc_eq hr)
    exact ⟨t, hx, honly, hnext, by rw [hop]; rfl⟩
  · obtain ⟨t, hx, honly, hnext, hop, -⟩ := takeOp_starts hm hinv hi (execLongTblClear_eq hc h3)
    exact ⟨t, hx, honly, hnext, by rw [hop]; rfl⟩
  · rw [execLongFill_eq hr, hostOp_any _ _ _ hm, takeOp_busy hi]
  · rw [execLongCrc_eq hr, hostOp_any _ _ _ hm, takeOp_busy hi]
  · rw [execLongTblClear_eq hc h3, hostOp_any _ _ _ hm, takeOp_busy hi]
  · exact (congrArg Host.Outcome.next (hostOp_any _ _ _ hm)).trans (by rw [longFill, if_neg (by simp [hr])])
  · exact (congrArg Host.Outcome.next (hostOp_any _ _ _ hm)).trans (by rw [longCrc, if_neg (by simp [hr])])
  · exact (congrArg Host.Outcome.next (hostOp_any _ _ _ hm)).trans (by rw [longClear, if_pos (by simp [hc])])
  · exact (congrArg Host.Outcome.next (hostOp_any _ _ _ hm)).trans (by rw [longClear, if_neg (by simp [hc]), if_pos ⟨h3, hp⟩])
  · subst he
    exact congrArg Host.Outcome.next (runOp_on ho hl ht hs)
  · subst he
    exact congrArg Host.Outcome.next (runOp_ends ho hl ht hs)
  · subst he
    exact congrArg Host.Outcome.next (runOp_on ho hl ht hs)
  · subst he
    exact congrArg Host.Outcome.next (runOp_ends ho hl ht hs)
  · have ha : abortOp s n.toNat = (.badaddr, [], s) := by
      unfold abortOp
      rw [hn]
    rw [execAbort_eq hm, ha]
  · rw [execAbort_eq hm, abortOp_eq hs ho, if_pos he]
  · have hx := execAbort_eq (n := n) hm
    rw [abortOp_eq hs ho, if_neg (by simp [he])] at hx
    exact ⟨_, hx, endOp_op ho he, rfl, only_trans endOp_keeps.frame (only_mono (by simp) (State.answered_only _ _ _ _))⟩
  · rw [execStatus_eq hm, statusOp_eq (fun h => hn (BitVec.eq_of_toNat_eq h)) hs ho, if_pos (by simp)]
  · have hx := execStatus_eq (n := n) (b := true) hm
    rw [statusOp_eq (fun h => hn (BitVec.eq_of_toNat_eq h)) hs ho, if_neg (by simp), if_neg (by simp [he])] at hx
    exact ⟨_, hx, op_setOp_self (s := s) _ (op_lt ho), only_trans (only_mono (by simp) (plt_only s _)) (only_mono (by simp) (State.answered_only _ _ _ _))⟩
  · rw [execStatus_eq hm, statusOp_eq (fun h => hn (BitVec.eq_of_toNat_eq h)) hs ho, if_neg (by simp), if_pos (by simp [he])]
  · exact execStatus_eq hm
  · have hb' : patchOp s a = (.badaddr, [], s) := if_pos hb
    rw [execPatch_eq hp, hb']
  · rw [execPatch_eq hp, patchOp_placed h1 h2 h3 h4 hs, if_neg (by rintro ⟨h, h'⟩; rcases hno with hn | hn; simp [hn] at h; exact hn h')]
  · rw [execPatch_eq hp, patchOp_placed h1 h2 h3 h4 hs, if_pos ⟨hlast, hall⟩, hi, hall, hu]
  · rw [show exec .patchApply s = .next (patchApply s) from rfl, patchApply_eq hs hl ht, if_pos hv, if_pos hv]
  · rw [show exec .patchApply s = .next (patchApply s) from rfl, patchApply_eq hs hl ht, show (if s.plt.verified then s else verifyPatch s i) = verifyPatch s i from if_neg (by simp [hv])]
  · obtain ⟨hslot, ⟨x, hx, hend⟩, hglb⟩ := applyPatch_ended hr ho ht hsl
    refine ⟨applyPatch s i, ?_, ?_⟩
    · rw [show exec .patchApply s = .next (patchApply s) from rfl, patchApply_eq hs hl ht, if_pos hv, if_pos hv]
    · rw [execAbort_eq (by rw [hglb]; exact hm), abortOp_eq hslot hx, if_pos hend]

end Sys2Proof.Machine

/-! PROOFS. What the host is told: events, exception frames, the attachments and the watchdog (spec/13 R371 to R374, R402 to R407). -/

namespace Sys2Proof.Machine

-- As in the stacks' part: elaborated in turn, the many short proofs hold no thread each.
set_option Elab.async false

section
variable {s : State}

/-! Events and frames that leave (R386, R403). -/

/-- From s to t events were queued, and nothing else of the Gangway changed; none left the queue. -/
structure QueuesEvents (s t : State) : Prop where
  rest : t.gwe = { s.gwe with evq := t.gwe.evq, evNext := t.gwe.evNext, evLost := t.gwe.evLost }
  grow : ∀ e ∈ s.gwe.evq, e ∈ t.gwe.evq

theorem QueuesEvents.after {t u : State} (h : QueuesEvents t u) (k : QueuesEvents s t) : QueuesEvents s u :=
  ⟨h.rest.trans (by rw [k.rest]), fun e he => h.grow e (k.grow e he)⟩

theorem QueuesEvents.of_keeps {t : State} {l : List Piece} (h : Keeps l s t) (hl : Piece.gwe ∉ l) : QueuesEvents s t :=
  have hg := h.frame .gwe hl
  ⟨by rw [hg], fun e he => by rw [hg]; exact he⟩

theorem queueEv_queues (at_ code die gen : Nat) (args : List Nat) : QueuesEvents s (s.queueEv at_ code die gen args) := by
  unfold State.queueEv
  split
  · exact ⟨rfl, fun e he => List.mem_append_left _ he⟩
  · exact ⟨rfl, fun e he => he⟩

theorem raiseEv_queues (code die gen : Nat) (args : List Nat) : QueuesEvents s (s.raiseEv code die gen args) := by
  unfold State.raiseEv State.raiseAt
  split
  · exact queueEv_queues _ _ _ _ _
  · exact (queueEv_queues _ _ _ _ _).after ((queueEv_queues _ _ _ _ _).after ⟨rfl, fun e he => he⟩)

/-- What the Gangway shows beside the association, the events and the frames sent. -/
def State.gwShown (s : State) : Bool × List Exc × Nat × List GwTx := (s.gwe.active, s.gwe.excq, s.gwe.excCnt, s.gwe.tx)

theorem QueuesEvents.shown {t : State} (h : QueuesEvents s t) : t.gwShown = s.gwShown := by
  unfold State.gwShown
  rw [h.rest]

/-- A packet number used leaves what is shown; events may be queued (R386). -/
theorem usePn_shown : (usePn s).gwShown = s.gwShown ∧ ∀ e ∈ s.gwe.evq, e ∈ (usePn s).gwe.evq := by
  unfold usePn
  split
  · exact ⟨rfl, fun e he => he⟩
  next a _ =>
    extract_lets _ t
    have ht : t.gwShown = s.gwShown ∧ ∀ e ∈ s.gwe.evq, e ∈ t.gwe.evq := ⟨rfl, fun e he => he⟩
    have hq : QueuesEvents t (t.raiseEv 0x8102 pkg (t.gen .GWE_STATE 0) []) := raiseEv_queues _ _ _ _
    split
    · exact ⟨hq.shown.trans ht.1, fun e he => hq.grow e (ht.2 e he)⟩
    · exact ht

/-- A frame as it left, with its tag. -/
def GwTx.sentOn (x : GwTx) (b : Bool) (tag : Option SecTag) : GwTx := { x with attB := b, tag := tag, wire := x.frame }

/-- A protected frame leaves while a packet number is left (R373, R386). -/
theorem transmit_sends {x : GwTx} (hs : s.silent = false) (hp : x.prot = true) :
    ∃ tag, (transmit s x).gwShown = (s.gwe.active, s.gwe.excq, s.gwe.excCnt, s.gwe.tx ++ [x.sentOn s.gwe.active tag]) ∧ ∀ e ∈ s.gwe.evq, e ∈ (transmit s x).gwe.evq := by
  obtain ⟨hu, hq⟩ := usePn_shown (s := s)
  have ht : transmit s x = putTx (usePn s) x (tagFor (usePn s) x.prot) := by
    unfold transmit
    rw [if_neg (by simp [hs]), if_pos hp]
  rw [ht]
  refine ⟨tagFor (usePn s) x.prot, ?_, hq⟩
  exact congrArg (fun v : Bool × List Exc × Nat × List GwTx => (v.1, v.2.1, v.2.2.1, v.2.2.2 ++ [x.sentOn v.1 (tagFor (usePn s) x.prot)])) hu

theorem silent_of_canTell (h : s.canTell = true) : s.silent = false ∧ s.evSession ≠ none := by
  unfold State.canTell at h
  simp only [Bool.and_eq_true, Bool.not_eq_true'] at h
  exact ⟨h.1.2, fun hn => by simp [hn] at h⟩

/-- The records that leave in one frame are records of the queue. -/
theorem mem_of_fitting : ∀ {n : Nat} {l : List EvRec} {e : EvRec}, e ∈ fitting n l → e ∈ l
  | _, [], _, h => by simp [fitting] at h
  | n, x :: l, e, h => by
    unfold fitting at h
    split at h
    · rcases List.mem_cons.mp h with rfl | h
      · exact List.mem_cons_self ..
      · exact List.mem_cons_of_mem _ (mem_of_fitting h)
    · simp at h

theorem eventSend_eq {n : Nat} {l : List EvRec} (hc : s.canTell = true) (hl : l = fitting (9600 - 12) ((s.gwe.evq.filter (fun e => !e.sent)).take (min n (s.evWindow - s.unacked)))) (hne : l ≠ []) :
    eventSend s n = markSent l (transmit s (eventFrame s l)) := by
  subst hl
  exact if_neg (by simp [hc, hne])

theorem execEventRetransmit_eq (hc : s.canTell = true) : exec .eventRetransmit s = .next (sendAgain (s.gwe.evq.filter (fun e => e.sent)).length (s.gwe.evq.filter (fun e => e.sent)) s) :=
  congrArg Host.Outcome.next (if_neg (by simp [hc]))

/-! Exception frames (R405). -/

/-- The exception frame that is sent, and the state in which it has left its queue (R405). -/
def State.excFrame (s : State) (e : Exc) : GwTx :=
  { typ := 3, session := 0, seq := s.gwe.excCnt % 2 ^ 32, count := 1, status := .ok, results := [], body := e.info ++ s.excBytes e, prot := true, form := s.form s.gwe.hostUdp, dst := s.gwe.hostMac }

theorem exceptionSend_eq {e : Exc} {r : List Exc} (hq : s.gwe.excq = e :: r) : exceptionSend s =
    if s.evSession = none then (freeExc { s with gwe := { s.gwe with excq := r } } e).bump .GWE_EXC_DROP 0
    else if s.noRoute e.die s.hostDie then (freeExc { s with gwe := { s.gwe with excq := r } } e).bump .PFB_ROUTE_DROP e.die
    else if ¬ s.canTell ∨ s.eventsWait then s
    else if s.quayBad e.handle 0 (128 + cnum e.info 20 2) then (freeExc { s with gwe := { s.gwe with excq := r } } e).bump .ICU_FRAME_DROP e.die
    else (freeExc (transmit { s with gwe := { s.gwe with excq := r, excCnt := s.gwe.excCnt + 1 } } (s.excFrame e)) e).bump .GWE_EXC_SENT 0 := by
  unfold exceptionSend
  rw [hq]
  rfl

/-- The host port has moved to attachment B, under a new generation; not yet reported (R374). -/
def State.failedOver (s : State) : State := ({ s with gwe := { s.gwe with active := true } } : State).bumpGen .GWE_STATE 0

/-! The host watchdog (R406). -/

theorem setMode_glb (m : Mode) (cause : Nat) : (s.setMode m cause).glb = { s.glb with mode := m, drainedSent := false, wdogMoored := false } := by
  unfold State.setMode
  extract_lets old _ t0 t1 t2
  have h0 : Keeps [.regs, .lpx, .gwe] { s with glb := { s.glb with mode := m, drainedSent := false, wdogMoored := false } } (t2.raiseEv 0x8001 pkg (t2.gen .GLB_MODE 0) [old.code, m.code, cause]) :=
    State.raiseEv_keeps.after (State.bumpGen_keeps.after (State.setRf_keeps.after (State.setRf_keeps.after State.closeTails_keeps.mono)))
  exact h0.frame .glb (by decide)

/-- The package is moored by the watchdog; not yet reported (R406). -/
def State.wdogMoor (s : State) : State :=
  let t := settleRounds (s.setMode .moored 3)
  { t with glb := { t.glb with wdogMoored := true } }

theorem execHostWdogExpiry_eq (hh : s.heardNow = false) (hd : s.glb.mode.departs = true) (hw : s.rf .GWE_WDOG 0 [] 15 0 ≠ 0) :
    exec .hostWdogExpiry s = .next ((s.wdogMoor.bumpGen .GWE_STATE 0).raiseEv 0x8103 pkg ((s.wdogMoor.bumpGen .GWE_STATE 0).gen .GWE_STATE 0) []) :=
  congrArg Host.Outcome.next ((if_neg (by simp [hh])).trans (if_pos ⟨hd, hw⟩))

theorem wdogMoor_glb : s.wdogMoor.glb = { s.glb with mode := .moored, drainedSent := false, wdogMoored := true } := by
  unfold State.wdogMoor
  dsimp only
  rw [settleRounds_keeps.frame .glb (by decide), setMode_glb]

/-- What an EVENT frame leaves (R402, R403). -/
theorem eventSend_leaves {n : Nat} {l : List EvRec} (hc : s.canTell = true) (hl : l = fitting (9600 - 12) ((s.gwe.evq.filter (fun e => !e.sent)).take (min n (s.evWindow - s.unacked)))) (hne : l ≠ []) :
    ∃ x, (eventSend s n).gwe.tx = s.gwe.tx ++ [x] ∧ (∃ tag, x = (eventFrame s l).sentOn s.gwe.active tag) ∧ ∀ e ∈ l, { e with sent := true } ∈ (eventSend s n).gwe.evq := by
  obtain ⟨tag, hsh, hq⟩ := transmit_sends (s := s) (x := eventFrame s l) (silent_of_canTell hc).1 rfl
  rw [eventSend_eq hc hl hne]
  refine ⟨_, congrArg (fun v : Bool × List Exc × Nat × List GwTx => v.2.2.2) hsh, ⟨tag, rfl⟩, fun e he => ?_⟩
  have hmem : e ∈ s.gwe.evq := by
    rw [hl] at he
    exact (List.mem_filter.mp (List.mem_of_mem_take (mem_of_fitting he))).1
  exact List.mem_map.mpr ⟨e, hq e hmem, if_pos he⟩

/-- What a sent exception frame leaves (R405). -/
theorem exceptionSend_leaves {e : Exc} {r : List Exc} (hq : s.gwe.excq = e :: r) (hc : s.canTell = true) (hn : s.noRoute e.die s.hostDie = false) (hw : s.eventsWait = false)
    (hb : s.quayBad e.handle 0 (128 + cnum e.info 20 2) = false) :
    ∃ tag, (exceptionSend s).gwShown = (s.gwe.active, r, s.gwe.excCnt + 1, s.gwe.tx ++ [(s.excFrame e).sentOn s.gwe.active tag]) := by
  obtain ⟨hs, hev⟩ := silent_of_canTell hc
  obtain ⟨tag, hsh, -⟩ := transmit_sends (s := { s with gwe := { s.gwe with excq := r, excCnt := s.gwe.excCnt + 1 } }) (x := s.excFrame e) hs rfl
  rw [exceptionSend_eq hq, if_neg hev, if_neg (by simp [hn]), if_neg (by simp [hc, hw]), if_neg (by simp [hb])]
  generalize transmit { s with gwe := { s.gwe with excq := r, excCnt := s.gwe.excCnt + 1 } } (s.excFrame e) = t at hsh ⊢
  have hk : Keeps [.regs, .bpm] t ((freeExc t e).bump .GWE_EXC_SENT 0) := State.bump_keeps.after freeExc_keeps.mono
  refine ⟨tag, Eq.trans ?_ hsh⟩
  unfold State.gwShown
  rw [hk.frame .gwe (by decide)]

end

/-- Settles O55: each command that tells the host, and those of the attachments and the watchdog. -/
theorem hostIsTold : Obligations.HostIsTold := by
  intro s
  refine ⟨fun n hm => ⟨fun m hs hg => ?_, fun m hs hg => ?_, fun hs => ?_⟩, fun hc => ⟨fun n l hl hne => ?_, execEventRetransmit_eq hc⟩,
    fun hc => ⟨fun n => congrArg Host.Outcome.next (if_pos (.inl (by simp [hc]))), congrArg Host.Outcome.next (if_pos (by simp [hc]))⟩,
    fun e r hq => ⟨fun hev => ?_, fun hev hn => ?_, fun hev hn hor => ?_, fun hc hn hw => ⟨fun hb => ?_, fun hb => ?_⟩⟩,
    fun b v6 target hp => ⟨fun hb hs ho => ?_, fun hb => ?_⟩, fun b up kr4 on hp hon => ?_, fun hp ha h1 hor => ?_, fun ha => ?_, fun hm hw hh => ?_,
    fun hh hm hw hg => congrArg Host.Outcome.next ((if_neg (by simp [hh])).trans (if_pos ⟨hm, hw, hg⟩)),
    fun hh => ⟨congrArg Host.Outcome.next (if_pos hh), congrArg Host.Outcome.next (if_pos hh)⟩, fun f t hv => ?_⟩
  · refine (congrArg Host.Outcome.next (hostOp_any _ _ _ hm)).trans ?_
    unfold evackOp
    rw [hs]
    dsimp only
    rw [if_pos hg]
  · refine (congrArg Host.Outcome.next (hostOp_any _ _ _ hm)).trans ?_
    unfold evackOp
    rw [hs]
    dsimp only
    rw [if_neg (by simp [hg])]
  · refine (congrArg Host.Outcome.next (hostOp_any _ _ _ hm)).trans ?_
    unfold evackOp
    rw [hs]
  · obtain ⟨x, htx, ⟨tag, rfl⟩, hev⟩ := eventSend_leaves hc hl hne
    exact ⟨eventSend s n, _, rfl, eventSend_keeps.frame, htx, rfl, rfl, rfl, rfl, rfl, rfl, rfl, rfl, hev⟩
  · exact congrArg Host.Outcome.next ((exceptionSend_eq hq).trans (if_pos hev))
  · exact congrArg Host.Outcome.next ((exceptionSend_eq hq).trans ((if_neg hev).trans (if_pos hn)))
  · exact congrArg Host.Outcome.next ((exceptionSend_eq hq).trans ((if_neg hev).trans ((if_neg (by simp [hn])).trans (if_pos (hor.imp_left (by simp [·]))))))
  · exact congrArg Host.Outcome.next ((exceptionSend_eq hq).trans ((if_neg (silent_of_canTell hc).2).trans ((if_neg (by simp [hn])).trans ((if_neg (by simp [hc, hw])).trans (if_pos hb)))))
  · obtain ⟨tag, hsh⟩ := exceptionSend_leaves hq hc hn hw hb
    exact ⟨exceptionSend s, rfl, exceptionSend_keeps.frame, congrArg (fun v : Bool × List Exc × Nat × List GwTx => v.2.1) hsh, congrArg (fun v : Bool × List Exc × Nat × List GwTx => v.2.2.1) hsh, _,
      congrArg (fun v : Bool × List Exc × Nat × List GwTx => v.2.2.2) hsh, rfl, rfl, rfl, rfl⟩
  · exact congrArg Host.Outcome.next ((if_neg (by simp [hp])).trans ((if_neg (not_not.mpr hb)).trans (if_pos ⟨by simp [hs], ho⟩)))
  · exact congrArg Host.Outcome.next ((if_neg (by simp [hp])).trans (if_pos hb))
  · subst hon
    refine (congrArg Host.Outcome.next (if_pos hp)).trans ?_
    cases kr4 <;> rfl
  · refine ⟨_, congrArg Host.Outcome.next (if_pos ⟨hp, by simp [ha], h1, hor.imp_right fun ⟨hA, hB, hr⟩ => by simp [State.failRun, hA, hB, hr]⟩), ?_, ?_⟩
    · exact congrArg Prod.fst (raiseEv_queues (s := s.failedOver) 0x8104 pkg (s.failedOver.gen .GWE_STATE 0) []).shown
    · exact only_trans (only_mono (by simp) (gwe_only s _)) (only_trans (only_mono (by simp) State.bumpGen_keeps.frame) State.raiseEv_keeps.frame)
  · exact congrArg Host.Outcome.next (if_neg (by simp [ha]))
  · have hd : s.glb.mode.departs = true := by rcases hm with h | h <;> rw [h] <;> rfl
    have hk : Keeps [.regs, .gwe] s.wdogMoor ((s.wdogMoor.bumpGen .GWE_STATE 0).raiseEv 0x8103 pkg ((s.wdogMoor.bumpGen .GWE_STATE 0).gen .GWE_STATE 0) []) := State.raiseEv_keeps.after State.bumpGen_keeps.mono
    have hm : Keeps [.regs, .glb, .cte, .lpx, .gwe] s s.wdogMoor := (keeps_glb).after (settleRounds_keeps.after State.setMode_keeps.mono)
    exact ⟨_, execHostWdogExpiry_eq hh hd hw, (hk.frame .glb (by decide)).trans wdogMoor_glb, (hk.after hm).frame⟩
  · unfold verifyFrame at hv
    split at hv
    · exact absurd hv (by simp)
    · split at hv
      · exact absurd hv (by simp)
      · obtain ⟨b, -, rfl⟩ := Option.map_eq_some_iff.mp hv
        rfl

end Sys2Proof.Machine

/-! PROOFS. The package mode, unit restarts, DRAINED and the flush of the quay (spec/13 R397, spec/15 R434 to R448, R457). -/

namespace Sys2Proof.Machine

-- As in the stacks' part: elaborated in turn, the many short proofs hold no thread each.
set_option Elab.async false

section
variable {s : State} {exp : BitVec 16}

/-! A MODE command with a current generation (R397). -/

/-- The answer of a MODE command whose operation gives x. -/
def modeAns (x : Status × State) : TblAns := (x.1, x.2.modeBytes, x.2)

/-- What each operation of MODE does. -/
def modeRes (s : State) (target die unit : Nat) (ports : Word) : Nat → Status × State
  | 0 => modeSet s target
  | 1 => orderReset s 4
  | 2 => orderReset s 3
  | 3 => modeUnit s die unit
  | _ => portDrain s ports

theorem modeOp_current {op n d u e : Nat} {w : Word} (ho : op ≤ 4) (hg : genOk e (s.gen .GLB_MODE 0) = true) : modeOp s op n d u e w = modeAns (modeRes s n d u w op) := by
  unfold modeOp
  rw [if_neg (Nat.not_lt.mpr ho), if_neg (not_not.mpr hg)]
  rfl

theorem modeOp_stale {op n d u e : Nat} {w : Word} (ho : op ≤ 4) (hg : genOk e (s.gen .GLB_MODE 0) = false) : modeOp s op n d u e w = modeAns (.stale, s) := by
  unfold modeOp
  rw [if_neg (Nat.not_lt.mpr ho), if_pos (by simp [hg])]
  rfl

theorem execModeSet_eq {n : Nat} (hm : s.glb.mode.any = true) (hg : genOk exp.toNat (s.gen .GLB_MODE 0) = true) :
    exec (.modeSet n exp) s = .next ((modeSet s n).2.answered 0x50 (modeSet s n).1 (modeSet s n).2.modeBytes) :=
  congrArg Host.Outcome.next ((hostOp_any _ _ _ hm).trans (by rw [modeOp_current (by decide) hg]; rfl))

theorem modeSet_code {m : Mode} : modeSet s m.code = if m = s.glb.mode then (.ok, s)
    else if s.glb.mode = .provision ∧ m = .run then enterRun s
    else if setAllowed s.glb.mode m then (.ok, enterMode s m 2) else (.mode, s) := by
  cases m <;> rfl

theorem modeSet_allowed {m : Mode} (ha : setAllowed s.glb.mode m = true) : modeSet s m.code = (.ok, enterMode s m 2) := by
  have hne : m ≠ s.glb.mode := by
    rintro rfl
    revert ha
    cases s.glb.mode <;> decide
  have hp : ¬ (s.glb.mode = .provision ∧ m = .run) := by
    rintro ⟨h, rfl⟩
    rw [h] at ha
    exact absurd ha (by decide)
  rw [modeSet_code, if_neg hne, if_neg hp, if_pos ha]

theorem execModeSet_run (hm : s.glb.mode.any = true) (hg : genOk exp.toNat (s.gen .GLB_MODE 0) = true) (hp : s.glb.mode = .provision) :
    exec (.modeSet 3 exp) s = .next ((enterRun s).2.answered 0x50 (enterRun s).1 (enterRun s).2.modeBytes) := by
  have h : modeSet s 3 = enterRun s := by
    refine (modeSet_code (m := .run)).trans ?_
    rw [if_neg (by simp [hp]), if_pos ⟨hp, rfl⟩]
  rw [execModeSet_eq hm hg, h]

theorem enterRun_free (hb : s.ssc.busy = false) (ho : s.opRunning OpKind.isPatch = false) (hf : s.opRunning OpKind.isFill = false) :
    enterRun s = if (sealStore s).1 = true then (.ok, enterMode (sealStore s).2 .run 2) else (.denied, (sealStore s).2) := by
  unfold enterRun
  rw [if_neg (by simp [hb, ho, hf])]
  split
  next t h => rw [h]; rfl
  next t h => rw [h]; rfl

theorem execModeWarm_eq (hm : s.glb.mode.any = true) (hg : genOk exp.toNat (s.gen .GLB_MODE 0) = true) :
    exec (.modeWarm exp) s = .next ((orderReset s 4).2.answered 0x50 (orderReset s 4).1 (orderReset s 4).2.modeBytes) :=
  congrArg Host.Outcome.next ((hostOp_any _ _ _ hm).trans (by rw [modeOp_current (by decide) hg]; rfl))

theorem execModeCold_eq (hm : s.glb.mode.any = true) (hg : genOk exp.toNat (s.gen .GLB_MODE 0) = true) :
    exec (.modeCold exp) s = .next ((orderReset s 3).2.answered 0x50 (orderReset s 3).1 (orderReset s 3).2.modeBytes) :=
  congrArg Host.Outcome.next ((hostOp_any _ _ _ hm).trans (by rw [modeOp_current (by decide) hg]; rfl))

theorem execModeUnit_eq {d u : Nat} (hm : s.glb.mode.any = true) (hg : genOk exp.toNat (s.gen .GLB_MODE 0) = true) :
    exec (.modeUnit d u exp) s = .next ((modeUnit s d u).2.answered 0x50 (modeUnit s d u).1 (modeUnit s d u).2.modeBytes) :=
  congrArg Host.Outcome.next ((hostOp_any _ _ _ hm).trans (by rw [modeOp_current (by decide) hg]; rfl))

theorem execPortDrain_eq {w : Word} (hm : s.glb.mode.any = true) (hg : genOk exp.toNat (s.gen .GLB_MODE 0) = true) :
    exec (.portDrain w exp) s = .next ((portDrain s w).2.answered 0x50 (portDrain s w).1 (portDrain s w).2.modeBytes) :=
  congrArg Host.Outcome.next ((hostOp_any _ _ _ hm).trans (by rw [modeOp_current (by decide) hg]; rfl))

theorem execModeSet_stale {n : Nat} (hm : s.glb.mode.any = true) (hg : genOk exp.toNat (s.gen .GLB_MODE 0) = false) :
    exec (.modeSet n exp) s = .next (s.answered 0x50 .stale s.modeBytes) :=
  congrArg Host.Outcome.next ((hostOp_any _ _ _ hm).trans (by rw [modeOp_stale (by decide) hg]; rfl))

/-! The mode changes (R435, R438). -/

theorem State.rf_setRf_above {q : Reg} {e : Nat} {jdx : List Nat} {lo k v hi m : Nat} (hr : mrise 0 s.regs = true) (hk : 0 < k) (hl : lo + k ≤ 32) (h : lo + k ≤ m) :
    (s.setRf q e jdx (lo + k - 1) lo v).rf q e jdx hi m = s.rf q e jdx hi m := by
  unfold State.setRf State.rf
  rw [State.reg_setReg_self _ _ _ _ _ hr, fld_setFld_above _ _ _ _ hk hl h]

theorem Mode.code_lt (m : Mode) : m.code < 8 := by cases m <;> decide

/-- What GLB_MODE shows once the mode has changed: the generation, the mode before and the cause (R438). -/
theorem setMode_shown (m : Mode) (cause : Nat) (hr : mrise 0 s.regs = true) :
    (s.setMode m cause).gen .GLB_MODE 0 = (s.gen .GLB_MODE 0 + 1) % 2 ^ 16 ∧ (s.setMode m cause).rf .GLB_MODE 0 [] 10 8 = s.glb.mode.code
      ∧ (s.setMode m cause).rf .GLB_MODE 0 [] 7 4 = cause % 2 ^ 4 := by
  unfold State.setMode
  extract_lets old _ t0 t1 t2
  have hr0 : mrise 0 t0.regs = true := hr
  have hr1 : mrise 0 (t0.setRf .GLB_MODE 0 [] 10 8 old.code).regs = true := t0.setRf_rise _ _ _ _ _ _ hr0
  have hr2 : mrise 0 t1.regs = true := State.setRf_rise _ _ _ _ _ _ _ hr1
  have hr3 : mrise 0 t2.regs = true := t1.bumpGen_rise _ _ hr2
  have hw : Writes [Reg.addr .GWE_EVT_LOST 0 []] t2 (t2.raiseEv 0x8001 pkg (t2.gen .GLB_MODE 0) [old.code, m.code, cause]) := t2.raiseEv_writes _ _ _ _
  have hn : Reg.addr .GLB_MODE 0 [] ∉ [Reg.addr .GWE_EVT_LOST 0 []] := by decide
  refine ⟨(hw.gen hr3 hn).trans ((t1.gen_bumpGen _ _ hr2).trans ?_), (hw.rf hr3 hn).trans ?_, (hw.rf hr3 hn).trans ?_⟩
  · have h1 : t1.gen .GLB_MODE 0 = (t0.setRf .GLB_MODE 0 [] 10 8 old.code).gen .GLB_MODE 0 := State.rf_setRf_above (lo := 4) (k := 4) hr1 (by decide) (by decide) (by decide)
    have h0 : (t0.setRf .GLB_MODE 0 [] 10 8 old.code).gen .GLB_MODE 0 = t0.gen .GLB_MODE 0 := State.rf_setRf_above (lo := 8) (k := 3) hr0 (by decide) (by decide) (by decide)
    rw [h1, h0]
    rfl
  · have h2 : t2.rf .GLB_MODE 0 [] 10 8 = t1.rf .GLB_MODE 0 [] 10 8 := State.rf_setRf_below (lo := 16) (k := 16) hr2 (by decide) (by decide) (by decide) (by decide)
    have h1 : t1.rf .GLB_MODE 0 [] 10 8 = (t0.setRf .GLB_MODE 0 [] 10 8 old.code).rf .GLB_MODE 0 [] 10 8 := State.rf_setRf_above (lo := 4) (k := 4) hr1 (by decide) (by decide) (by decide)
    rw [h2, h1, t0.rf_setRf_self _ _ _ 8 3 _ hr0 (by decide) (by decide)]
    exact Nat.mod_eq_of_lt s.glb.mode.code_lt
  · have h2 : t2.rf .GLB_MODE 0 [] 7 4 = t1.rf .GLB_MODE 0 [] 7 4 := State.rf_setRf_below (lo := 16) (k := 16) hr2 (by decide) (by decide) (by decide) (by decide)
    rw [h2]
    exact State.rf_setRf_self _ _ _ _ 4 4 _ hr1 (by decide) (by decide)

theorem enterMode_mode (m : Mode) (cause : Nat) : (enterMode s m cause).glb.mode = m := by
  have h : Keeps [.cte, .cra] (s.setMode m cause) (enterMode s m cause) := by
    unfold enterMode
    exact .ite (.overDies (fun _ _ => startIdle_keeps.mono) settleRounds_keeps.mono) settleRounds_keeps.mono
  rw [h.frame .glb (by decide), setMode_glb]

theorem enterMode_writes (m : Mode) (cause : Nat) : Writes [] (s.setMode m cause) (enterMode s m cause) := by
  have h : Keeps [.cte, .cra] (s.setMode m cause) (enterMode s m cause) := by
    unfold enterMode
    exact .ite (.overDies (fun _ _ => startIdle_keeps.mono) settleRounds_keeps.mono) settleRounds_keeps.mono
  exact .of_keeps h (by decide)

end

/-! Unit restarts (R457). -/

section
variable {s t : State} {d u : Nat}

/-- Unit u of die d is in its restart in t. -/
def State.down (t : State) (s : State) (d u : Nat) : State := { t with icu := { t.icu with unit := ladd (d, u) s.icu.unit } }

theorem mem_ladd {α : Type} [DecidableEq α] (x : α) (l : List α) : x ∈ ladd x l := by
  unfold ladd
  split
  · assumption
  · exact List.mem_append_right _ (List.mem_singleton_self x)

theorem down_unitDown : (t.down s d u).unitDown d u = true := decide_eq_true (mem_ladd _ _)

theorem down_keeps : Keeps [.icu] t (t.down s d u) := keeps_icu

/-- What a restart of a unit does to the rest of the package. -/
def unitEffect (s : State) (d u : Nat) : State :=
  if u = unitPrs then prsRestart s d else if u = unitCls then clsRestart s d else if u = unitFwt then fwtRestart s d else if u = unitTdx then tdxRestart s d
  else bumpSyu (syuReset s d) d

theorem modeUnit_eq (hd : d ∈ s.liveDies) (hu : u = unitPrs ∨ u = unitCls ∨ u = unitFwt ∨ u = unitTdx ∨ (u = unitSyu ∧ s.syuInUse d = false)) :
    modeUnit s d u = (.ok, (unitEffect s d u).down s d u) := by
  unfold modeUnit
  rw [if_neg (not_not.mpr hd)]
  rcases hu with rfl | rfl | rfl | rfl | ⟨rfl, hs⟩
  · rfl
  · rfl
  · rfl
  · rfl
  · rw [hs]
    rfl

theorem unitEffect_keeps : Keeps [.regs, .prs, .cls, .fwt, .bpm, .ssc, .rsq, .cra, .tdx, .syu] s (unitEffect s d u) := by
  unfold unitEffect
  exact .ite prsRestart_keeps.mono (.ite clsRestart_keeps.mono (.ite fwtRestart_keeps.mono (.ite tdxRestart_keeps.mono (bumpSyu_keeps.after syuReset_keeps.mono))))

/-! The PRS: the frames of its engines go back to their parse queues. -/

theorem insertTurn_perm (x : Nat × Parsing) : ∀ l, (insertTurn x l).Perm (x :: l)
  | [] => .refl _
  | y :: r => by
    unfold insertTurn
    split
    · exact .refl _
    · exact ((insertTurn_perm x r).cons y).trans (.swap x y r)

theorem mem_insertTurns (e : Nat × Parsing) : ∀ l : List (Nat × Parsing), e ∈ l.foldr insertTurn [] ↔ e ∈ l
  | [] => .rfl
  | x :: r => by
    rw [List.foldr_cons, (insertTurn_perm x _).mem_iff, List.mem_cons, List.mem_cons, mem_insertTurns e r]

/-- The parse queue that takes a frame back. -/
def parseQueueOf (d : Nat) (x : Nat × Parsing) : Nat := d * 2 + (if x.2.cross then 1 - x.1 % 16 / 8 else x.1 % 16 / 8)

theorem mget_abandonParse (x : Nat × Parsing) (q : Nat) :
    mget [] (abandonParse d s x).prs.queue q = if q = parseQueueOf d x then x.2.frame :: mget [] s.prs.queue q else mget [] s.prs.queue q := by
  show mget [] (mset [] s.prs.queue (parseQueueOf d x) (x.2.frame :: mget [] s.prs.queue (parseQueueOf d x))) q = _
  unfold mset
  rw [if_neg (List.cons_ne_nil _ _)]
  split
  next h => rw [h]; unfold mget; rw [mfind_minsert_self]; rfl
  next h => unfold mget; rw [mfind_minsert_other _ _ _ h]

theorem abandonParse_keeps_queued {f : Frame} (x : Nat × Parsing) {q : Nat} (h : f ∈ mget [] s.prs.queue q) : f ∈ mget [] (abandonParse d s x).prs.queue q := by
  rw [mget_abandonParse]
  split
  · exact List.mem_cons_of_mem _ h
  · exact h

theorem abandonParse_queues (x : Nat × Parsing) : x.2.frame ∈ mget [] (abandonParse d s x).prs.queue (parseQueueOf d x) := by
  rw [mget_abandonParse, if_pos rfl]
  exact List.mem_cons_self

theorem prsRestart_queues {x : Nat × Parsing} (hx : x ∈ s.prs.eng) (hd : x.1 / 16 = d) : ∃ r, x.2.frame ∈ mget [] (prsRestart s d).prs.queue (d * 2 + r) :=
  ⟨_, foldl_sets (P := fun t => x.2.frame ∈ mget [] t.prs.queue (parseQueueOf d x)) (I := fun _ => True) (fun _ _ _ => trivial)
    (fun _ y _ h => abandonParse_keeps_queued y h) (fun _ _ => abandonParse_queues x) _ s ((mem_insertTurns x _).mpr (List.mem_filter.mpr ⟨hx, decide_eq_true hd⟩)) trivial⟩

theorem abandonParse_eng (hr : mrise 0 s.prs.eng = true) (x : Nat × Parsing) :
    mrise 0 (abandonParse d s x).prs.eng = true ∧ ∀ e ∈ (abandonParse d s x).prs.eng, e ∈ s.prs.eng ∧ e.1 ≠ x.1 := by
  have he : (abandonParse d s x).prs.eng = s.prs.eng.filter (fun e => decide (e.1 ≠ x.1)) := mremove_eq_filter _ 0 hr
  exact ⟨mremove_rise _ _ _ hr, fun e h => by
    rw [he] at h
    simpa using h⟩

theorem abandonParses_eng : ∀ (l : List (Nat × Parsing)) (s : State), mrise 0 s.prs.eng = true →
    ∀ e ∈ (l.foldl (abandonParse d) s).prs.eng, e ∈ s.prs.eng ∧ e ∉ l
  | [], _, _ => fun e h => ⟨h, by simp⟩
  | x :: r, s, hr => fun e h => by
    obtain ⟨hr', ha⟩ := abandonParse_eng (d := d) hr x
    obtain ⟨h1, h2⟩ := abandonParses_eng r _ hr' e h
    obtain ⟨h3, h4⟩ := ha e h1
    exact ⟨h3, fun hm => (List.mem_cons.mp hm).elim (fun e => h4 (congrArg Prod.fst e)) h2⟩

theorem prsRestart_eng (hr : mrise 0 s.prs.eng = true) : ∀ e ∈ (prsRestart s d).prs.eng, e.1 / 16 ≠ d := by
  intro e h hd
  obtain ⟨hm, hn⟩ := abandonParses_eng _ s hr e h
  exact hn ((mem_insertTurns e _).mpr (List.mem_filter.mpr ⟨hm, decide_eq_true hd⟩))

/-! The CLS: the fragment table is emptied, and the frames held take the default action. -/

theorem takeDefault_kind (p : Nat) : (takeDefault s d p).1.dec.kind < 5 := by
  show (if 4 < _ then 0 else _) < 5
  split <;> omega

theorem addr_default (i k : Nat) : Reg.addr .CLS_DEFAULT d [i, k] = dieBase d + 0x30200 + (32 * i + (4 * k + 0)) := rfl

theorem addr_expired : Reg.addr .CLS_FRAG_EXPIRED d [] = dieBase d + 0x30300 + 0 := rfl

theorem expired_ne_default {i k : Nat} (hi : i < 4) (hk : k < 5) : Reg.addr .CLS_FRAG_EXPIRED d [] ≠ Reg.addr .CLS_DEFAULT d [i, k] := by
  rw [addr_default, addr_expired]
  omega

/-- The counters that a frame writes as it takes the default action of its port. -/
def defaultRegs (s : State) (d p : Nat) : List Nat := Reg.addr .CLS_DEFAULT d [p % 4, (takeDefault s d p).1.dec.kind] :: releaseRegs d

theorem joinDefault_writes (f : Frame) (v : List Byte) : Writes (defaultRegs s d f.port) s (joinDefault s d f v) := by
  have hd : Writes (defaultRegs s d f.port) s (takeDefault s d f.port).2 := s.setReg_writes _ _ _ _ (List.mem_cons_self)
  have ht : ∀ c, Writes (defaultRegs s d f.port) (takeDefault s d f.port).2 (touchCtx (takeDefault s d f.port).2 d c).2 :=
    fun _ => touchCtx_writes.mono (List.subset_cons_self _ _)
  exact hd.trans ((ht _).trans (.of_eq rfl))

theorem notMem_defaultRegs (p : Nat) : Reg.addr .CLS_FRAG_EXPIRED d [] ∉ defaultRegs s d p := by
  intro h
  rcases List.mem_cons.mp h with h | h
  · exact expired_ne_default (Nat.mod_lt _ (by decide)) (takeDefault_kind p) h
  · exact notMem_releaseRegs (by decide) (by decide) h

theorem counts_add {u : State} {r : Reg} {idx : List Nat} {n m : Nat} (h : counts s t r d idx n) (k : counts t u r d idx m) : counts s u r d idx (n + m) := by
  unfold counts at *
  omega

theorem defaultOne_counts (hr : mrise 0 s.regs = true) (h : Frame × List Byte) :
    mrise 0 (joinDefault (s.bump .CLS_FRAG_EXPIRED d) d h.1 h.2).regs = true ∧ counts s (joinDefault (s.bump .CLS_FRAG_EXPIRED d) d h.1 h.2) .CLS_FRAG_EXPIRED d [] 1 := by
  have hb : mrise 0 (s.bump .CLS_FRAG_EXPIRED d).regs = true := (s.bump_writes .CLS_FRAG_EXPIRED d [] (A := [Reg.addr .CLS_FRAG_EXPIRED d []])).rise hr
  have hw := joinDefault_writes (s := s.bump .CLS_FRAG_EXPIRED d) (d := d) h.1 h.2
  exact ⟨hw.rise hb, (counts_bump s _ d [] hr).after hw hb (notMem_defaultRegs _)⟩

theorem counts_zero {r : Reg} {idx : List Nat} : counts s s r d idx 0 := by
  unfold counts
  have := (s.reg r d idx).isLt
  omega

theorem defaultAll_counts : ∀ (l : List (Frame × List Byte)) (s : State), mrise 0 s.regs = true →
    mrise 0 (l.foldl (fun t h => joinDefault (t.bump .CLS_FRAG_EXPIRED d) d h.1 h.2) s).regs = true
      ∧ counts s (l.foldl (fun t h => joinDefault (t.bump .CLS_FRAG_EXPIRED d) d h.1 h.2) s) .CLS_FRAG_EXPIRED d [] l.length
  | [], _, hr => ⟨hr, counts_zero⟩
  | x :: l, s, hr => by
    obtain ⟨h1, h2⟩ := defaultOne_counts (d := d) hr x
    obtain ⟨h3, h4⟩ := defaultAll_counts l _ h1
    refine ⟨h3, ?_⟩
    rw [List.length_cons, Nat.add_comm]
    exact counts_add h2 h4

theorem expireHeld_counts (i : Nat) (x : Frag) (hr : mrise 0 s.regs = true) :
    mrise 0 (expireHeld s d i x).regs = true ∧ counts s (expireHeld s d i x) .CLS_FRAG_EXPIRED d [] x.held.length :=
  defaultAll_counts x.held (s.dropFrag d i) hr

theorem expireAll_counts : ∀ (l : List (Nat × Frag)) (s : State) (n : Nat), mrise 0 s.regs = true → ∀ s0, counts s0 s .CLS_FRAG_EXPIRED d [] n →
    counts s0 (l.foldl (fun t x => expireHeld t d (x.1 % 4096) x.2) s) .CLS_FRAG_EXPIRED d [] (l.foldl (fun a x => a + x.2.held.length) n)
  | [], _, _, _, _, h => h
  | x :: l, s, n, hr, s0, h => by
    obtain ⟨h1, h2⟩ := expireHeld_counts (d := d) (x.1 % 4096) x.2 hr
    exact expireAll_counts l _ _ h1 s0 (counts_add h h2)

theorem clsRestart_counts (hr : mrise 0 s.regs = true) :
    counts s (clsRestart s d) .CLS_FRAG_EXPIRED d [] ((mpick (fun k => k / 4096 = d) s.cls.frag).foldl (fun a x => a + x.2.held.length) 0) :=
  expireAll_counts _ s 0 hr s counts_zero

theorem joinDefault_frag (f : Frame) (v : List Byte) : (joinDefault s d f v).cls.frag = s.cls.frag := by
  have ht : ∀ c, Keeps [.regs, .fwt, .ssc] s (touchCtx (takeDefault s d f.port).2 d c).2 := fun _ => touchCtx_keeps.after takeDefault_keeps.mono
  show (touchCtx (takeDefault s d f.port).2 d (takeDefault s d f.port).1.dec.flow).2.cls.frag = _
  exact congrArg Cls.frag ((ht _).frame .cls (by decide))

theorem defaultAll_frag (l : List (Frame × List Byte)) : (l.foldl (fun t h => joinDefault (t.bump .CLS_FRAG_EXPIRED d) d h.1 h.2) s).cls.frag = s.cls.frag :=
  foldl_keep (fun t => t.cls.frag = s.cls.frag) (fun t (h : Frame × List Byte) => joinDefault (t.bump .CLS_FRAG_EXPIRED d) d h.1 h.2)
    (fun t _ h => (joinDefault_frag (s := t.bump .CLS_FRAG_EXPIRED d) _ _).trans h) l s rfl

theorem expireHeld_frag (i : Nat) (x : Frag) : (expireHeld s d i x).cls.frag = mremove (d * 4096 + i) s.cls.frag := defaultAll_frag (s := s.dropFrag d i) x.held

theorem expireAll_frag : ∀ (l : List (Nat × Frag)) (s : State), mrise 0 s.cls.frag = true → (∀ x ∈ l, x.1 / 4096 = d) →
    ∀ e ∈ (l.foldl (fun t x => expireHeld t d (x.1 % 4096) x.2) s).cls.frag, e ∈ s.cls.frag ∧ e ∉ l
  | [], _, _, _ => fun e h => ⟨h, by simp⟩
  | x :: l, s, hr, hl => fun e h => by
    have hx : d * 4096 + x.1 % 4096 = x.1 := by have := hl x List.mem_cons_self; omega
    have hf : (expireHeld s d (x.1 % 4096) x.2).cls.frag = s.cls.frag.filter (fun e => decide (e.1 ≠ x.1)) := by rw [expireHeld_frag, hx, mremove_eq_filter _ 0 hr]
    obtain ⟨h1, h2⟩ := expireAll_frag l _ (by rw [expireHeld_frag]; exact mremove_rise _ _ _ hr) (fun y hy => hl y (List.mem_cons_of_mem _ hy)) e h
    rw [hf] at h1
    obtain ⟨h3, h4⟩ := List.mem_filter.mp h1
    exact ⟨h3, fun hm => (List.mem_cons.mp hm).elim (fun he => absurd (congrArg Prod.fst he) (of_decide_eq_true h4)) h2⟩

theorem clsRestart_frag (hr : mrise 0 s.cls.frag = true) : ∀ e ∈ (clsRestart s d).cls.frag, e.1 / 4096 ≠ d := by
  intro e h hd
  obtain ⟨hm, hn⟩ := expireAll_frag _ s hr (fun x hx => of_decide_eq_true (List.mem_filter.mp hx).2) e h
  exact hn (List.mem_filter.mpr ⟨hm, decide_eq_true hd⟩)

/-! The FWT: the learn queue and the pending slots go. -/

theorem fwtRestart_learnQ (hr : mrise 0 s.fwt.learnq = true) : (fwtRestart s d).learnQ d = [] := by
  show mget [] (mset [] s.fwt.learnq d []) d = []
  exact mget_mset_self_rise _ _ _ _ hr

theorem fwtRestart_l2 : ∀ e ∈ (fwtRestart s d).fwt.l2, e.1 / 32768 = d → e.2.pend = false := by
  intro e h hd
  have hp := (List.mem_filter.mp (show e ∈ List.filter (fun x => decide (x.1 / 32768 ≠ d) || !x.2.pend) s.fwt.l2 from h)).2
  simpa [hd] using hp

theorem fwtRestart_counts (hr : mrise 0 s.regs = true) : counts s (fwtRestart s d) .FWT_LQ_DROP d [] (s.learnQ d).length
    ∧ (fwtRestart s d).gen .FWT_STATE d = (s.gen .FWT_STATE d + 1) % 2 ^ 16 := by
  have hw : Writes [Reg.addr .FWT_LQ_DROP d []] s (s.bumpN .FWT_LQ_DROP d [] (s.learnQ d).length) := s.bumpN_writes .FWT_LQ_DROP d [] _
  have hc := counts_bumpN s .FWT_LQ_DROP d [] (s.learnQ d).length hr
  obtain ⟨v, he, hv⟩ : ∃ v : State, fwtRestart s d = bumpFwt v d ∧ v.regs = (s.bumpN .FWT_LQ_DROP d [] (s.learnQ d).length).regs := ⟨_, rfl, rfl⟩
  rw [he]
  unfold bumpFwt
  generalize s.bumpN .FWT_LQ_DROP d [] (s.learnQ d).length = t at hw hc hv
  have hrt : mrise 0 t.regs = true := hw.rise hr
  have hu : Writes [Reg.addr .FWT_STATE d []] t (v.bumpGen .FWT_STATE d) := (Writes.of_eq hv).trans (v.bumpGen_writes .FWT_STATE d)
  have hne : Reg.addr .FWT_LQ_DROP d [] ≠ Reg.addr .FWT_STATE d [] := addr_ne d d (by decide) (by decide) (by decide)
  have hg : v.gen .FWT_STATE d = s.gen .FWT_STATE d := (gen_of_regs hv _ _).trans (hw.gen hr fun h => hne (List.mem_singleton.mp h).symm)
  exact ⟨hc.after hu hrt fun h => hne (List.mem_singleton.mp h), hg ▸ v.gen_bumpGen _ _ (hv ▸ hrt)⟩

/-! The TDX: its lists are empty, and the requests outstanding there fail (R341). -/

/-- The states and the requests of all threads. -/
def State.stands (s : State) : List (Nat × ThSt × Option Pend) := s.cra.thr.map (fun e => (e.1, e.2.st, e.2.pend))

theorem stands_of_keeps {l : List Piece} (h : Keeps l s t) (hl : Piece.cra ∉ l) : Fixes State.stands s t := by
  have hc : t.cra = s.cra := h.frame .cra hl
  unfold Fixes State.stands
  rw [hc]

theorem unhold_stands (k : Nat) : Fixes State.stands s (unhold s d k) := by
  show List.map _ (List.map _ _) = _
  rw [List.map_map]
  refine List.map_congr_left fun e _ => ?_
  show (fun x : Nat × Thr => (x.1, x.2.st, x.2.pend)) (if _ then _ else _) = _
  split <;> rfl

theorem endTicket_stands (k : Nat) (e : Ending) : Fixes State.stands s (endTicket s d k e) := by
  have hu : Fixes State.stands s (unhold s d k) := unhold_stands k
  have hr : ∀ (u : State) x, Fixes State.stands u (u.setRob d k x) := fun _ _ => stands_of_keeps State.setRob_keeps (by decide)
  unfold endTicket
  split
  · exact .refl s
  · extract_lets freed lose u
    have hl : Fixes State.stands s (lose u) := Fixes.after (.ite (stands_of_keeps freeMirror_keeps (by decide)) (stands_of_keeps dropFrame_keeps (by decide))) hu
    have hb : ∀ r, Fixes State.stands s ((lose u).bump r d) := fun _ => (stands_of_keeps State.bump_keeps (by decide)).after hl
    split
    · exact (stands_of_keeps dropRob_keeps (by decide)).after (hb _)
    · refine (stands_of_keeps regap_keeps (by decide)).after ?_
      cases e with
      | emit => exact (hr _ _).after hu
      | retire => exact (hr _ _).after (hb _)
      | host => exact (hr _ _).after hu
    · exact .refl s

theorem retireTicket_stands (k : Nat) : Fixes State.stands s (retireTicket s d k) := by
  unfold retireTicket
  split
  · exact .ite ((endTicket_stands k _).after (stands_of_keeps bfreeQuiet_keeps (by decide))) (.refl s)
  · exact .refl s

theorem mfind_map {α β : Type} (f : α → β) (k : Nat) : ∀ m : SMap α, mfind (m.map (fun e => (e.1, f e.2))) k = (mfind m k).map f
  | [] => rfl
  | (i, x) :: r => by
    simp only [List.map_cons, mfind]
    split
    · rfl
    · split
      · rfl
      · exact mfind_map f k r

/-- A thread's state and request. -/
theorem thr_stands (n : Nat) : (mfind s.stands (thrKey d n)).getD (.idle, none) = ((s.thr d n).st, (s.thr d n).pend) := by
  unfold State.stands State.thr mget
  rw [mfind_map (fun x : Thr => (x.st, x.pend))]
  cases mfind s.cra.thr (thrKey d n) <;> rfl

theorem thr_of_stands (h : Fixes State.stands s t) (n : Nat) : (t.thr d n).st = (s.thr d n).st ∧ (t.thr d n).pend = (s.thr d n).pend := by
  have he : ((t.thr d n).st, (t.thr d n).pend) = ((s.thr d n).st, (s.thr d n).pend) := by rw [← thr_stands, ← thr_stands, h]
  exact ⟨congrArg Prod.fst he, congrArg Prod.snd he⟩

/-- The threads of a die changed alike. -/
theorem mfind_mapDie (g : Thr → Thr) (p : Nat → Prop) [DecidablePred p] {k : Nat} (hk : p k) : ∀ m : SMap Thr,
    mfind (m.map (fun x => if p x.1 then (x.1, g x.2) else x)) k = (mfind m k).map g
  | [] => rfl
  | (i, x) :: r => by
    have hi : (if p i then (i, g x) else (i, x)).1 = i := by split <;> rfl
    simp only [List.map_cons, mfind]
    rw [hi]
    split
    next h => subst h; rw [if_pos hk]; rfl
    next h =>
      split
      · rfl
      · exact mfind_mapDie g p hk r

theorem thrKey_die (n : Fin 384) : thrKey d n / 384 = d := by
  unfold thrKey
  omega

theorem failRequest_st (l : List Nat) (x : Thr) : (failRequest l x).st = x.st := by
  unfold failRequest
  split
  · split
    · rfl
    · rfl
    · split <;> rfl
    · rfl
  · rfl

theorem failRequest_pend {l : List Nat} {x : Thr} {p : Pend} (hp : (failRequest l x).pend = some p) (hk : p.kind = .tdx) : p.err = 2 := by
  unfold failRequest at hp
  split at hp
  next q hq =>
    split at hp
    next => rw [← Option.some.inj hp]
    next => rw [← Option.some.inj hp]
    next k hqk =>
      split at hp
      · rw [← Option.some.inj hp]
      · rw [hq] at hp
        rw [← Option.some.inj hp, hqk] at hk
        cases hk
    next hne _ _ =>
      rw [hq] at hp
      rw [Option.some.inj hp] at hne
      exact absurd hk hne
  next hq => rw [hq] at hp; cases hp

/-- A counter of the die at another place of the register space is written. -/
theorem bump_spares {r q : Reg} (hr : r.info.base < 0x1000000) (hq : q.info.base < 0x1000000) (h : q.info.base ≠ r.info.base) : Spares (q.addr d []) s (s.bump r d) :=
  (s.bump_writes r d [] (A := [r.addr d []])).spares fun hm => addr_ne d d hq hr h (List.mem_singleton.mp hm)

theorem bfreeQuiet_spares (h : Nat) : Spares (Reg.addr .TDX_STATE d []) s (bfreeQuiet s d h) := by
  have hf : ∀ u : State, Spares (Reg.addr .TDX_STATE d []) u (freeBuf u h) := fun _ => .of_keeps freeBuf_keeps (by decide)
  have hd : Spares (Reg.addr .TDX_STATE d []) s (freeBuf (s.dropShare h) h) := (hf _).after (.of_keeps State.dropShare_keeps (by decide))
  have hb : Spares (Reg.addr .TDX_STATE d []) s (bfree s d h noCloser).2 := by
    unfold bfree
    split
    · exact bump_spares (by decide) (by decide) (by decide)
    · split
      · exact bump_spares (by decide) (by decide) (by decide)
      · split
        · exact hf s
        · split
          · split
            · exact hd
            · exact .refl s
          · split
            · exact .of_keeps State.setShare_keeps (by decide)
            · split
              · exact (bump_spares (by decide) (by decide) (by decide)).after hd
              · exact .refl s
  unfold bfreeQuiet
  split
  next t ht => rw [ht] at hb; exact hb
  next => exact .refl s

theorem endTicket_spares (k : Nat) (e : Ending) : Spares (Reg.addr .TDX_STATE d []) s (endTicket s d k e) := by
  have hu : Spares (Reg.addr .TDX_STATE d []) s (unhold s d k) := .of_keeps unhold_keeps (by decide)
  have hr : ∀ (u : State) x, Spares (Reg.addr .TDX_STATE d []) u (u.setRob d k x) := fun _ _ => .of_keeps State.setRob_keeps (by decide)
  have hn : Reg.addr .TDX_STATE d [] ∉ releaseRegs d := notMem_releaseRegs (by decide) (by decide)
  unfold endTicket
  split
  · exact .refl s
  · extract_lets freed lose u
    have hl : Spares (Reg.addr .TDX_STATE d []) s (lose u) := Spares.after (.ite (.of_keeps freeMirror_keeps (by decide)) (.of_keeps dropFrame_keeps (by decide))) hu
    split
    · exact (dropRob_writes.spares hn).after ((bump_spares (by decide) (by decide) (by decide)).after hl)
    · refine Spares.after (.of_keeps regap_keeps (by decide)) ?_
      cases e with
      | emit => exact (hr _ _).after hu
      | retire => exact (hr _ _).after ((bump_spares (by decide) (by decide) (by decide)).after hl)
      | host => exact (hr _ _).after hu
    · exact .refl s

theorem retireTicket_spares (k : Nat) : Spares (Reg.addr .TDX_STATE d []) s (retireTicket s d k) := by
  unfold retireTicket
  split
  · exact .ite ((endTicket_spares k _).after (bfreeQuiet_spares _)) (.refl s)
  · exact .refl s

/-- The requests of a die's threads outstanding at the TDX fail. -/
def State.failAll (s : State) (d : Nat) (back : List Nat) : State :=
  { s with cra := { s.cra with thr := s.cra.thr.map (fun x => if x.1 / 384 = d then (x.1, failRequest back x.2) else x) } }

/-- The tickets of the tasks end over the emptied lists, then the requests fail. -/
theorem tdxRestart_parts : ∃ u back, tdxRestart s d = (u.failAll d back).bumpGen .TDX_STATE d
    ∧ Keeps [.regs, .bpm, .rsq, .cra] (emptyLists s d) u ∧ Fixes State.stands s u ∧ Spares (Reg.addr .TDX_STATE d []) s u := by
  refine ⟨_, _, rfl, ?_, ?_, ?_⟩
  · refine .foldl (fun t x => ?_) .refl
    split
    · exact .ite .refl (State.bump_keeps.after retireTicket_keeps.mono)
    · exact State.bump_keeps.mono
  · refine Fixes.foldl (fun t x => ?_) _
    split
    · exact .ite (.refl t) ((stands_of_keeps State.bump_keeps (by decide)).after (retireTicket_stands _))
    · exact stands_of_keeps State.bump_keeps (by decide)
  · refine Spares.after (t := emptyLists s d) (.foldl (fun t x => ?_) _) (.of_eq rfl)
    split
    · exact .ite (.refl t) ((bump_spares (by decide) (by decide) (by decide)).after (retireTicket_spares _))
    · exact bump_spares (by decide) (by decide) (by decide)

theorem thr_failAll (back : List Nat) (n : Fin 384) : ((s.failAll d back).thr d n) = failRequest back (s.thr d n) := by
  unfold State.failAll State.thr mget
  rw [mfind_mapDie (failRequest back) (fun k => k / 384 = d) (thrKey_die n)]
  cases mfind s.cra.thr (thrKey d n) <;> rfl

theorem emptyLists_ready {l : Nat} (hl : l < 64) : (emptyLists s d).readyList d l = [] :=
  mget_mdrop [] (fun k => k / 64 = d) s.tdx.ready _ (decide_eq_true (by omega))

theorem emptyLists_delay {i : Nat} (hi : i < 8) : (emptyLists s d).delayList d i = [] :=
  mget_mdrop [] (fun k => k / 8 = d) s.tdx.delay _ (decide_eq_true (by omega))

/-- A restart of the TDX: the lists are empty, the requests at the unit fail and no thread changes its state (R341). -/
theorem tdxRestart_spec : (∀ l, l < 64 → (tdxRestart s d).readyList d l = []) ∧ (∀ i, i < 8 → (tdxRestart s d).delayList d i = [])
    ∧ (∀ n : Fin 384, ∀ p, ((tdxRestart s d).thr d n).pend = some p → p.kind = .tdx → p.err = 2) ∧ (∀ n : Fin 384, ((tdxRestart s d).thr d n).st = (s.thr d n).st)
    ∧ (mrise 0 s.regs = true → (tdxRestart s d).gen .TDX_STATE d = (s.gen .TDX_STATE d + 1) % 2 ^ 16) := by
  obtain ⟨u, back, he, hk, hs, hp⟩ := tdxRestart_parts (s := s) (d := d)
  have ht : (tdxRestart s d).tdx = (emptyLists s d).tdx := by rw [he, State.bumpGen_tdx]; exact hk.frame .tdx (by decide)
  have hthr : ∀ n : Fin 384, (tdxRestart s d).thr d n = failRequest back (u.thr d n) := fun n => by
    rw [he, ← thr_failAll]
    exact thr_of_cra (congrArg Cra.thr (State.bumpGen_cra _ _ _)) d n
  refine ⟨fun l hl => ?_, fun i hi => ?_, fun n p h hkd => ?_, fun n => ?_, fun hr => ?_⟩
  · exact (congrArg (fun x : Tdx => mget [] x.ready (d * 64 + l)) ht).trans (emptyLists_ready hl)
  · exact (congrArg (fun x : Tdx => mget [] x.delay (d * 8 + i)) ht).trans (emptyLists_delay hi)
  · rw [hthr] at h
    exact failRequest_pend h hkd
  · rw [hthr, failRequest_st]
    exact (thr_of_stands hs n).1
  · rw [he, State.gen_bumpGen _ _ _ (show mrise 0 (u.failAll d back).regs = true from hp.rise hr)]
    exact congrArg (fun g => (g + 1) % 2 ^ 16) (hp.rf hr)

/-! The SYU: locks, counters and channels (R366). -/

theorem syuReset_lock {l : Nat} (hl : l < 16384) : (syuReset s d).lock d l = { abandoned := true } := by
  refine (mget_mdrop _ (fun k => k / 16384 = d) s.syu.lock (lockKey d l) (decide_eq_true (by unfold lockKey; omega))).trans ?_
  show ({ abandoned := decide (d ∈ ladd d s.syu.marked) } : Lock) = _
  rw [decide_eq_true (mem_ladd d s.syu.marked)]

theorem syuReset_ev {k e : Nat} (hk : k < 6) (he : e < 1024) : (syuReset s d).ev d k e = {} :=
  mget_mdrop ({} : Ev) (fun k => k / 6144 = d) s.syu.ev (evKey d k e) (decide_eq_true (by unfold evKey; omega))

theorem syuReset_chan {k c : Nat} (hk : k < 6) (hc : c < 256) : (syuReset s d).chan d k c = {} :=
  mget_mdrop ({} : Chan) (fun k => k / 1536 = d) s.syu.ch (chKey d k c) (decide_eq_true (by unfold chKey; omega))

end

section
variable {s : State} {d u : Nat} {l : List Byte}

/-- MODE UNIT has been answered. -/
def State.unitShown (s : State) (d u : Nat) : State := ((unitEffect s d u).down s d u).answered 0x50 .ok ((unitEffect s d u).down s d u).modeBytes

theorem execModeUnit_ok {exp : BitVec 16} (hm : s.glb.mode.any = true) (hg : genOk exp.toNat (s.gen .GLB_MODE 0) = true) (hd : d ∈ s.liveDies)
    (hu : u = unitPrs ∨ u = unitCls ∨ u = unitFwt ∨ u = unitTdx ∨ (u = unitSyu ∧ s.syuInUse d = false)) : exec (.modeUnit d u exp) s = .next (s.unitShown d u) := by
  rw [execModeUnit_eq hm hg, modeUnit_eq hd hu]
  rfl

/-- The answer and the mark of the restart leave every unit as the restart did. -/
theorem unitShown_of {t : State} (he : unitEffect s d u = t) : (s.unitShown d u).regs = t.regs ∧ (s.unitShown d u).prs = t.prs ∧ (s.unitShown d u).cls = t.cls ∧ (s.unitShown d u).fwt = t.fwt
    ∧ (s.unitShown d u).cra = t.cra ∧ (s.unitShown d u).tdx = t.tdx ∧ (s.unitShown d u).syu = t.syu := by
  unfold State.unitShown
  rw [he]
  exact ⟨rfl, rfl, rfl, rfl, rfl, rfl, rfl⟩

theorem unitShown_only {m n : List Piece} (h : Keeps m s (unitEffect s d u)) (hn : m ++ [.icu, .gwe] ⊆ n) : only n s (s.unitShown d u) := by
  have hk : only [.icu, .gwe] (unitEffect s d u) (s.unitShown d u) := only_trans (only_mono (by simp) down_keeps.frame) (only_mono (by simp) (State.answered_only _ _ _ _))
  exact only_trans (only_mono (fun p hp => hn (List.mem_append_left _ hp)) h.frame) (only_mono (fun p hp => hn (List.mem_append_right _ hp)) hk)

theorem unitShown_glb : (s.unitShown d u).glb = s.glb := unitEffect_keeps.frame .glb (by decide)

theorem unitShown_prs (hr : mrise 0 s.prs.eng = true) : (∀ x ∈ (s.unitShown d unitPrs).prs.eng, x.1 / 16 ≠ d)
    ∧ (∀ x ∈ s.prs.eng, x.1 / 16 = d → ∃ r, x.2.frame ∈ mget [] (s.unitShown d unitPrs).prs.queue (d * 2 + r)) ∧ only [.prs, .gwe, .icu] s (s.unitShown d unitPrs) :=
  ⟨prsRestart_eng hr, fun _ hx => prsRestart_queues hx, unitShown_only (u := unitPrs) prsRestart_keeps (within rfl)⟩

theorem unitShown_cls (hr : mrise 0 s.cls.frag = true) : (∀ x ∈ (s.unitShown d unitCls).cls.frag, x.1 / 4096 ≠ d) ∧ only [.regs, .cls, .fwt, .ssc, .gwe, .icu, .free] s (s.unitShown d unitCls)
    ∧ (s.Inv → counts s (s.unitShown d unitCls) .CLS_FRAG_EXPIRED d [] ((mpick (fun k => k / 4096 = d) s.cls.frag).foldl (fun a x => a + x.2.held.length) 0)) := by
  obtain ⟨hregs, -, hcls, -⟩ := unitShown_of (show unitEffect s d unitCls = clsRestart s d from rfl)
  refine ⟨by rw [hcls]; exact clsRestart_frag hr, unitShown_only (u := unitCls) clsRestart_keeps (within rfl), fun hinv => ?_⟩
  unfold counts
  rw [reg_of_regs hregs]
  exact clsRestart_counts hinv.rise

theorem unitShown_fwt (hr : mrise 0 s.fwt.learnq = true) : (s.unitShown d unitFwt).learnQ d = [] ∧ (∀ x ∈ (s.unitShown d unitFwt).fwt.l2, x.1 / 32768 = d → x.2.pend = false)
    ∧ only [.regs, .fwt, .gwe, .icu] s (s.unitShown d unitFwt)
    ∧ (s.Inv → counts s (s.unitShown d unitFwt) .FWT_LQ_DROP d [] (s.learnQ d).length ∧ (s.unitShown d unitFwt).gen .FWT_STATE d = (s.gen .FWT_STATE d + 1) % 2 ^ 16) := by
  obtain ⟨hregs, -, -, hfwt, -⟩ := unitShown_of (show unitEffect s d unitFwt = fwtRestart s d from rfl)
  refine ⟨?_, by rw [hfwt]; exact fwtRestart_l2, unitShown_only (u := unitFwt) fwtRestart_keeps (within rfl), fun hinv => ?_⟩
  · unfold State.learnQ
    rw [hfwt]
    exact fwtRestart_learnQ hr
  · rw [gen_of_regs hregs]
    unfold counts
    rw [reg_of_regs hregs]
    exact fwtRestart_counts hinv.rise

theorem unitShown_tdx : (∀ l, l < 64 → (s.unitShown d unitTdx).readyList d l = []) ∧ (∀ i, i < 8 → (s.unitShown d unitTdx).delayList d i = [])
    ∧ (∀ n : Fin 384, ∀ p, ((s.unitShown d unitTdx).thr d n).pend = some p → p.kind = .tdx → p.err = 2) ∧ (∀ n : Fin 384, ((s.unitShown d unitTdx).thr d n).st = (s.thr d n).st)
    ∧ (s.Inv → (s.unitShown d unitTdx).gen .TDX_STATE d = (s.gen .TDX_STATE d + 1) % 2 ^ 16) := by
  obtain ⟨hregs, -, -, -, hcra, htdx, -⟩ := unitShown_of (show unitEffect s d unitTdx = tdxRestart s d from rfl)
  have ht : ∀ n, (s.unitShown d unitTdx).thr d n = (tdxRestart s d).thr d n := thr_of_cra (congrArg Cra.thr hcra) d
  obtain ⟨h1, h2, h3, h4, h5⟩ := tdxRestart_spec (s := s) (d := d)
  refine ⟨fun l hl => ?_, fun i hi => ?_, fun n p hp hk => h3 n p ((congrArg Thr.pend (ht n)).symm.trans hp) hk, fun n => (congrArg Thr.st (ht n)).trans (h4 n), fun hinv => ?_⟩
  · unfold State.readyList
    rw [htdx]
    exact h1 l hl
  · unfold State.delayList
    rw [htdx]
    exact h2 i hi
  · rw [gen_of_regs hregs]
    exact h5 hinv.rise

theorem unitShown_syu : (∀ l, l < 16384 → ((s.unitShown d unitSyu).lock d l).holder = none ∧ ((s.unitShown d unitSyu).lock d l).waiters = [] ∧ ((s.unitShown d unitSyu).lock d l).abandoned = true)
    ∧ (∀ k e, k < 6 → e < 1024 → (s.unitShown d unitSyu).ev d k e = {}) ∧ (∀ k c, k < 6 → c < 256 → (s.unitShown d unitSyu).chan d k c = {})
    ∧ only [.regs, .cra, .syu, .gwe, .icu] s (s.unitShown d unitSyu) := by
  have ho : only [.regs, .cra, .syu, .gwe, .icu] s (s.unitShown d unitSyu) := unitShown_only (m := [.regs, .cra, .syu]) (u := unitSyu) (bumpSyu_keeps.after syuReset_keeps.mono) (within rfl)
  obtain ⟨-, -, -, -, -, -, hsyu⟩ := unitShown_of (show unitEffect s d unitSyu = bumpSyu (syuReset s d) d from rfl)
  have hs : (s.unitShown d unitSyu).syu = (syuReset s d).syu := hsyu.trans (bumpSyu_keeps.frame .syu (by decide))
  have hl : ∀ l, (s.unitShown d unitSyu).lock d l = (syuReset s d).lock d l := fun l => by
    unfold State.lock State.lockDef
    rw [hs]
  have hv : ∀ k e, (s.unitShown d unitSyu).ev d k e = (syuReset s d).ev d k e := fun k e => by
    unfold State.ev
    rw [hs]
  have hc : ∀ k c, (s.unitShown d unitSyu).chan d k c = (syuReset s d).chan d k c := fun k c => by
    unfold State.chan
    rw [hs]
  refine ⟨fun l h => ?_, fun k e hk h => (hv k e).trans (syuReset_ev hk h), fun k c hk h => (hc k c).trans (syuReset_chan hk h), ho⟩
  rw [hl, syuReset_lock h]
  exact ⟨rfl, rfl, rfl⟩

end

section
variable {s : State}

/-! Closed ingress, the end of a restart and DRAINED (R443, R444). -/

/-- Ingress is closed at the ports of w. -/
def State.ingressSet (s : State) (w : Word) : State := (State.closeTails s (s.setReg .GLB_INGRESS 0 [] w)).bumpGen .GLB_MODE 0

theorem portDrain_sets {ports : Word} (hm : s.glb.mode = .run ∨ s.glb.mode = .drain) (hw : BitVec.ofNat 32 (ports.toNat % 2 ^ (4 * s.dies)) ≠ s.reg .GLB_INGRESS 0 []) :
    portDrain s ports = (.ok, s.ingressSet (BitVec.ofNat 32 (ports.toNat % 2 ^ (4 * s.dies)))) :=
  (if_pos hm).trans (if_neg hw)

theorem ingressSet_keeps {w : Word} : Keeps [.regs, .lpx] s (s.ingressSet w) := State.bumpGen_keeps.after (State.closeTails_keeps.after State.setReg_keeps.mono)

theorem answered_reg {r : Reg} {d op : Nat} {idx : List Nat} {st : Status} {l : List Byte} : (s.answered op st l).reg r d idx = s.reg r d idx :=
  reg_of_regs (s := s) rfl r d idx

theorem ingressSet_reg (w : Word) (hr : mrise 0 s.regs = true) : (s.ingressSet w).reg .GLB_INGRESS 0 [] = w := by
  have hu : mrise 0 (State.closeTails s (s.setReg .GLB_INGRESS 0 [] w)).regs = true := s.setReg_rise _ _ _ _ hr
  exact (((State.closeTails s (s.setReg .GLB_INGRESS 0 [] w)).bumpGen_writes .GLB_MODE 0 (A := [Reg.addr .GLB_MODE 0 []])).reg hu (by decide)).trans (s.reg_setReg_self _ _ _ _ hr)

theorem unitDone_unitDown (d u : Nat) : (unitDone s d u).unitDown d u = false := by
  unfold unitDone
  split
  · have hx : ∀ t : State, t.icu.unit = s.icu.unit.filter (fun x => x ≠ (d, u)) → t.unitDown d u = false := fun t ht => by
      unfold State.unitDown
      rw [ht]
      simp
    dsimp only
    split
    · refine hx _ ?_
      exact congrArg Icu.unit ((show Keeps [.regs, .fwt, .ssc, .cra, .cls, .free] _ _ from serveLate_keeps.after resumeLate_keeps.mono).frame .icu (by decide))
    · exact hx _ rfl
  next h => simpa using h

/-- DRAINED has been reported. -/
def State.drainTold (s : State) : State :=
  ({ s with glb := { s.glb with drainedSent := true } } : State).raiseEv 0x8002 pkg (s.gen .GLB_MODE 0) [s.phi.xing, s.phi.step]

theorem drainTold_keeps : Keeps [.regs, .gwe] { s with glb := { s.glb with drainedSent := true } } s.drainTold := State.raiseEv_keeps

theorem drained_told (h : s.glb.drainedSent = true) : exec .drained s = .next s := congrArg Host.Outcome.next (if_neg fun hc => hc.2.1 h)

end

/-- Settles O56: MODE, its operations and what they refuse, the end of a restart, DRAINED and the flush. -/
theorem modesChange : Obligations.ModesChange := by
  intro s hm
  refine ⟨fun exp hg => ⟨fun m ha => ?_, ?_, fun t hp hb ho hf hseal => ?_, fun t hp hb ho hf hseal => ?_, fun hp hor => ?_, fun m hne ha hn => ?_, fun ho => ?_, fun ho => ?_, fun d hd u hu => ?_,
    fun d hd hu => ?_, fun ports hmode hw => ?_, fun ports h1 h2 => ?_⟩, fun exp n hg => execModeSet_stale hm hg, fun d u hd hu => ?_, fun hmode hs h1 h2 h3 => ?_, fun hor => ?_, fun w picks hb hmode hg => ?_⟩
  · refine ⟨(enterMode s m 2).answered 0x50 .ok (enterMode s m 2).modeBytes, (execModeSet_eq hm hg).trans (by rw [modeSet_allowed ha]), enterMode_mode m 2, fun hinv => ?_, ?_⟩
    · obtain ⟨h1, h2, h3⟩ := setMode_shown (s := s) m 2 hinv.rise
      have hr := (State.setMode_keeps (s := s) (m := m) (cause := 2)).inv hinv
      have hw := enterMode_writes (s := s) m 2
      exact ⟨(hw.gen hr.rise (by simp)).trans h1, (hw.rf hr.rise (by simp)).trans h2, (hw.rf hr.rise (by simp)).trans h3⟩
    · exact only_trans enterMode_keeps.frame (only_mono (by simp) (State.answered_only _ _ _ _))
  · rw [execModeSet_eq hm hg, modeSet_code, if_pos rfl]
  · rw [execModeSet_run hm hg hp, enterRun_free hb ho hf, hseal]
    rfl
  · rw [execModeSet_run hm hg hp, enterRun_free hb ho hf, hseal]
    rfl
  · rw [execModeSet_run hm hg hp]
    unfold enterRun
    rw [if_pos hor]
  · rw [execModeSet_eq hm hg, modeSet_code, if_neg hne, if_neg hn, if_neg (by simp [ha])]
  · rw [execModeWarm_eq hm hg]
    unfold orderReset
    rw [ho]
    rfl
  · rw [execModeCold_eq hm hg]
    unfold orderReset
    rw [ho]
    rfl
  · exact ⟨s.unitShown d u, execModeUnit_ok hm hg hd hu, down_unitDown, unitShown_glb, fun h hr => h ▸ unitShown_prs hr, fun h hr => h ▸ unitShown_cls hr, fun h hr => h ▸ unitShown_fwt hr,
      fun h => h ▸ unitShown_tdx, fun h => h ▸ unitShown_syu⟩
  · rw [execModeUnit_eq hm hg]
    unfold modeUnit
    rw [if_neg (not_not.mpr hd), hu]
    rfl
  · generalize hx : BitVec.ofNat 32 (ports.toNat % 2 ^ (4 * s.dies)) = x at hw ⊢
    refine ⟨(s.ingressSet x).answered 0x50 .ok (s.ingressSet x).modeBytes, (execPortDrain_eq hm hg).trans (by rw [portDrain_sets hmode (hx ▸ hw), hx]), fun hinv => ?_, ?_⟩
    · rw [answered_reg]
      exact ingressSet_reg x hinv.rise
    exact only_trans (only_mono (by simp) ingressSet_keeps.frame) (only_mono (by simp) (State.answered_only _ _ _ _))
  · rw [execPortDrain_eq hm hg]
    unfold portDrain
    rw [if_neg (by simp [h1, h2])]
  · exact ⟨_, onDie_live _ _ _ hd, unitDone_unitDown _ _⟩
  · have hg : s.drainTold.glb = { s.glb with drainedSent := true } := drainTold_keeps.frame .glb (by decide)
    refine ⟨s.drainTold, congrArg Host.Outcome.next (if_pos ⟨hmode, by simp [hs], h1, h2, h3⟩), hg, (drainTold_keeps.after (keeps_glb).mono).frame, ?_, drained_told (by rw [hg])⟩
    exact tells_raiseEv { s with glb := { s.glb with drainedSent := true } } 0x8002 0xFF _ _
  · refine congrArg Host.Outcome.next (if_neg fun ⟨a1, a2, a3, a4, a5⟩ => ?_)
    simp_all
  · have hw : wrGlbCtrl s w picks = (.ok, quayFlush s picks) := by
      unfold wrGlbCtrl
      rw [if_neg (by rcases hmode with h | h <;> simp [h]), if_neg (by simp [hg]), if_pos hb]
    exact (hostWr_any s (fun s => wrGlbCtrl s w picks) hm).trans (congrArg (fun a => Host.Outcome.next (wrResult a)) hw)

end Sys2Proof.Machine

/-! PROOFS. Which dies an exclusion excludes (spec/16 R468, R471). -/

namespace Sys2Proof.Machine

-- As in the stacks' part: elaborated in turn, the many short proofs hold no thread each.
set_option Elab.async false

section
variable {s t u : State} {d e : Nat}

theorem nbit_lor (a b n : Nat) : nbit (Nat.lor a b) n = (nbit a n || nbit b n) := Nat.testBit_lor a b n

theorem nbit_two_pow (d n : Nat) : nbit (2 ^ d) n = decide (d = n) := by
  unfold nbit
  rw [Nat.testBit_two_pow]

theorem Fixes.excl_of_keeps {l : List Piece} (h : Keeps l s t) (hl : Piece.icu ∉ l) : Fixes (fun s => s.icu.excl) s t := congrArg Icu.excl (h.frame .icu hl)

theorem fenceDie_excl (c : DieCause) : (fenceDie s d c).icu.excl = Nat.lor s.icu.excl (2 ^ d) := by
  unfold fenceDie
  extract_lets _ t0 t1 t2
  have h0 : t0.icu = { s.icu with excl := Nat.lor s.icu.excl (2 ^ d) } := fenceHands_keeps.frame .icu (by decide)
  have h1 : t1.icu = t0.icu := State.bumpN_icu _ _ _ _ _
  have h2 : t2.icu = t1.icu := State.setRf_icu _ _ _ _ _ _ _
  rw [State.bumpGen_icu, State.bumpGen_icu, h2, h1, h0]

theorem fenceDies_excluded : ∀ (l : List (Nat × DieCause)) (s : State), (l.foldl (fun t x => fenceDie t x.1 x.2) s).excluded e = true ↔ s.excluded e = true ∨ e ∈ l.map (·.1)
  | [], s => by simp
  | x :: l, s => by
    have hx : (fenceDie s x.1 x.2).excluded e = (s.excluded e || decide (x.1 = e)) := by
      unfold State.excluded
      rw [fenceDie_excl, nbit_lor, nbit_two_pow]
    rw [List.foldl_cons, fenceDies_excluded l, hx, List.map_cons, List.mem_cons]
    rw [Bool.or_eq_true, decide_eq_true_eq, or_assoc, eq_comm (a := x.1)]

/-- The die's region is left: what becomes of its quay, and the hands that go on. -/
def State.quayLeft (s t : State) (d : Nat) : State :=
  let live : Bool := !t.excluded (partner d)
  let takes : Bool := live && !t.partnerDown d
  let again := if takes then s.mirrored d else []
  let free := (s.mirrorsOf d).filter (fun m => !again.any (fun f => decide (f.mirror = some m)))
  dropPrefetch (dropOpen (adoptQueues (free.foldl (fun t m => freeMirror t (some m)) (answerPosts t d)) takes ((free.foldl (fun t m => freeMirror t (some m)) (answerPosts t d)).resent d (fun _ => live)) (partner d) (s.queuesOn d)).2 d (partner d)) (s.queuesOn d)

/-- The handoffs that go on are made again once the region is purged. -/
def State.purged (s t : State) (d : Nat) : State :=
  redirectHands (purgeDie (s.quayLeft t d) d) d ((t.arriving d).filter (fun a => !t.excluded (partner d) || a.hand.isSome))

/-- The partner goes on with the die, or its ports idle. -/
def State.carriedOn (s t : State) (d : Nat) : State :=
  if !t.excluded (partner d) && !t.partnerDown d then (adoptDie (s.purged t d) d (s.mirrored d) (s.plainTasks d)).2 else loseDie (s.purged t d) d

theorem settleDie_eq : (settleDie s t d).2 = moveReceiver (loseStack (s.carriedOn t d) d .exclusion) d := by
  unfold settleDie State.carriedOn State.purged State.quayLeft
  by_cases h : (!t.excluded (partner d) && !t.partnerDown d) = true
  · simp only [h, if_true]
  · simp only [h, Bool.false_eq_true, if_false]

theorem quayLeft_keeps : Keeps [.regs, .cte, .bpm, .qba, .ssc, .cra, .tdx] t (s.quayLeft t d) := by
  unfold State.quayLeft
  exact dropPrefetch_keeps.after (dropOpen_keeps.after (adoptQueues_keeps.after (.foldl (fun _ _ => freeMirror_keeps.mono) answerPosts_keeps.mono)))

theorem carriedOn_keeps : Keeps [.regs, .cte, .lpx, .prs, .fwt, .bpm, .qba, .ssc, .tdx, .gwe] (s.purged t d) (s.carriedOn t d) := by
  unfold State.carriedOn
  exact .ite adoptDie_keeps.mono loseDie_keeps.mono

theorem purgeDie_excl : Fixes (fun s => s.icu.excl) s (purgeDie s d) := rfl

theorem settleDie_excl : Fixes (fun s => s.icu.excl) t (settleDie s t d).2 := by
  rw [settleDie_eq]
  have hp : Fixes (fun s => s.icu.excl) (s.quayLeft t d) (s.purged t d) := (Fixes.excl_of_keeps redirectHands_keeps (by decide)).after purgeDie_excl
  exact (Fixes.excl_of_keeps moveReceiver_keeps (by decide)).after ((Fixes.excl_of_keeps loseStack_keeps (by decide)).after
    ((Fixes.excl_of_keeps carriedOn_keeps (by decide)).after (hp.after (Fixes.excl_of_keeps quayLeft_keeps (by decide)))))

/-- The dies of a list, settled one after another; s: the state at the fences, before them. -/
def settleDies (s : State) : List (Nat × DieCause) → State → State
  | [], t => t
  | x :: l, t => settleDies s l (settleDie s t x.1).2

theorem settleFold_snd : ∀ (l : List (Nat × DieCause)) (evs : List (Nat × DieCause × List Nat)) (t : State),
    (l.foldl (fun (a : List (Nat × DieCause × List Nat) × State) x => (a.1 ++ [(x.1, x.2, (settleDie s a.2 x.1).1)], (settleDie s a.2 x.1).2)) (evs, t)).2 = settleDies s l t
  | [], _, _ => rfl
  | _ :: l, _, _ => settleFold_snd l _ _

/-- The dies fenced together, in the state that an exclusion settles. -/
def State.fenced (s : State) (l : List (Nat × DieCause)) : State := l.foldl (fun t x => fenceDie t x.1 x.2) (l.foldl (fun t x => returnStarted t x.1 (t.queuesOn x.1)) s)

/-- An exclusion fences, settles each die, elects and reports. -/
theorem excludeAll_parts (l : List (Nat × DieCause)) : ∃ s0, Keeps [.regs, .plt, .gwe] (settleDies s0 l (s.fenced l)) (excludeAll s l) := by
  refine ⟨l.foldl (fun t x => returnStarted t x.1 (t.queuesOn x.1)) s, ?_⟩
  rw [← settleFold_snd l []]
  exact .foldl (fun _ _ => State.raiseEv_keeps.mono) elect_keeps.mono

theorem settleDies_excl : ∀ (l : List (Nat × DieCause)) (t : State), Fixes (fun s => s.icu.excl) t (settleDies s l t)
  | [], t => .refl t
  | _ :: l, _ => (settleDies_excl l _).after settleDie_excl

theorem fenced_excluded (l : List (Nat × DieCause)) : (s.fenced l).excluded e = true ↔ s.excluded e = true ∨ e ∈ l.map (·.1) := by
  unfold State.fenced
  rw [fenceDies_excluded]
  have h : Keeps [.cte, .qba] s (l.foldl (fun t x => returnStarted t x.1 (t.queuesOn x.1)) s) := .foldl (fun _ _ => returnStarted_keeps) .refl
  unfold State.excluded
  rw [show (l.foldl (fun t x => returnStarted t x.1 (t.queuesOn x.1)) s).icu = s.icu from h.frame .icu (by decide)]

/-- An exclusion excludes the dies of its list and no other. -/
theorem excludeAll_excluded (l : List (Nat × DieCause)) : (excludeAll s l).excluded e = true ↔ s.excluded e = true ∨ e ∈ l.map (·.1) := by
  obtain ⟨s0, hk⟩ := excludeAll_parts (s := s) l
  rw [← fenced_excluded]
  unfold State.excluded
  rw [show (excludeAll s l).icu.excl = (s.fenced l).icu.excl from (Fixes.excl_of_keeps hk (by decide)).trans (settleDies_excl l _)]

/-! What falls in one cycle (R480, R517). -/

theorem mem_falling {x : Nat × DieCause} : ∀ l : List (Nat × DieCause), x ∈ l → x.1 < s.dies → s.excluded x.1 = false → x.1 ∈ (s.falling l).map (·.1)
  | y :: l, hm, hd, hx => by
    unfold State.falling
    by_cases hy : y.1 < s.dies ∧ ¬ s.excluded y.1
    · rw [if_pos hy, List.map_cons, List.mem_cons]
      by_cases he : x.1 = y.1
      · exact .inl he
      · refine .inr ?_
        have hr : x ∈ l := (List.mem_cons.mp hm).resolve_left fun h => he (congrArg Prod.fst h)
        obtain ⟨z, hz, hzx⟩ := List.mem_map.mp (mem_falling l hr hd hx)
        exact List.mem_map.mpr ⟨z, List.mem_filter.mpr ⟨hz, by simpa [hzx] using he⟩, hzx⟩
    · rw [if_neg hy]
      rcases List.mem_cons.mp hm with h | h
      · exact absurd ⟨h ▸ hd, by simp [← h, hx]⟩ hy
      · exact mem_falling l h hd hx

/-- The trips of a cycle, reported. -/
def State.tripped (s : State) (x : SameCycle) : State := (s.tripping x.trips).foldl noteTrip s

/-- The dies that fall in a cycle, with the causes given first. -/
def State.fallen (s : State) (first : List (Nat × DieCause)) (x : SameCycle) : List (Nat × DieCause) :=
  s.falling (first ++ x.also.map (fun y => (y.1.val, fallCause y.2)) ++ ((s.tripping x.trips).filter (fun y => y.sensor == .compute)).map (fun y => (y.die.val, .thermal)))

/-- The dies have been excluded, their trips reported. -/
def State.felled (s : State) (first : List (Nat × DieCause)) (x : SameCycle) : State :=
  if s.fallen first x = [] ∨ ¬ s.isUp then s.tripped x else excludeAll (s.tripped x) (s.fallen first x)

theorem fallTogether_eq (first : List (Nat × DieCause)) (x : SameCycle) :
    fallTogether s first x = ((s.tripping x.trips).filter (fun y => y.sensor == .hbm)).foldl (fun t y => loseStack t y.die .controller) (s.felled first x) := rfl

theorem noteTrip_pin (x : DieTrip) : (noteTrip s x).glb.tripPin = true := by
  unfold noteTrip
  extract_lets t0 _ t1 t2
  have h : (t2.raiseAt x.die 0x8007 pkg (t2.gen .GLB_THERM_STAT 0) [x.die, sensorCode x.sensor, arg32 x.temp]).glb = t2.glb := State.raiseAt_keeps.frame .glb (by decide)
  have h2 : t2.glb = t1.glb := (State.bumpGen_glb _ _ _).trans (State.setRf_glb _ _ _ _ _ _ _)
  rw [h, h2]

theorem tripped_pin {x : SameCycle} {y : DieTrip} (hy : y ∈ s.tripping x.trips) : (s.tripped x).glb.tripPin = true :=
  foldl_sets (P := fun t => t.glb.tripPin = true) (I := fun _ => True) (x := y) (fun _ _ _ => trivial) (fun _ z _ _ => noteTrip_pin z) (fun _ _ => noteTrip_pin y) _ s hy trivial

theorem felled_keeps (first : List (Nat × DieCause)) (x : SameCycle) :
    Keeps [.regs, .phi, .cte, .lpx, .prs, .cls, .fwt, .bpm, .qba, .ssc, .rsq, .cra, .tdx, .syu, .gwe, .plt, .icu] (s.tripped x) (s.felled first x) :=
  .ite .refl excludeAll_keeps

theorem fallTogether_pin {first : List (Nat × DieCause)} {x : SameCycle} {y : DieTrip} (hy : y ∈ s.tripping x.trips) : (fallTogether s first x).glb.tripPin = true := by
  have h : Keeps [.regs, .phi, .cte, .lpx, .prs, .cls, .fwt, .bpm, .qba, .ssc, .rsq, .cra, .tdx, .syu, .gwe, .plt, .icu] (s.tripped x) (fallTogether s first x) :=
    .foldl (fun _ _ => loseStack_keeps.mono) (felled_keeps first x)
  rw [show (fallTogether s first x).glb = (s.tripped x).glb from h.frame .glb (by decide)]
  exact tripped_pin hy

theorem fallTogether_excluded {first : List (Nat × DieCause)} {x : SameCycle} {c : DieCause} (hm : (e, c) ∈ first ++ x.also.map (fun y => (y.1.val, fallCause y.2)) ++ ((s.tripping x.trips).filter (fun y => y.sensor == .compute)).map (fun y => (y.die.val, .thermal)))
    (hd : e < s.dies) (hx : s.excluded e = false) (hu : s.isUp = true) : (fallTogether s first x).excluded e = true := by
  have hf : e ∈ (s.fallen first x).map (·.1) := mem_falling _ hm hd hx
  have hl : Fixes (fun s => s.icu.excl) (s.felled first x) (fallTogether s first x) := .foldl (fun _ _ => .excl_of_keeps loseStack_keeps (by decide)) _
  have he : (s.felled first x).excluded e = true := by
    unfold State.felled
    rw [if_neg (by rintro (h | h); rw [h] at hf; simp at hf; exact h hu)]
    exact (excludeAll_excluded _).mpr (.inr hf)
  unfold State.excluded at he ⊢
  rwa [show (fallTogether s first x).icu.excl = _ from hl]

end

end Sys2Proof.Machine

/-! PROOFS. Cold resets, and what supplies, RESET_N, clocks, temperatures and the test access port do (spec/15 R449 to R451, spec/18 R506 to R522). -/

namespace Sys2Proof.Machine

-- As in the stacks' part: elaborated in turn, the many short proofs hold no thread each.
set_option Elab.async false

section
variable {s : State} {cause : Nat}

/-! Cold resets (R450). -/

/-- The registers that a cold reset leaves. -/
def coldRegs (s : State) (cause : Nat) : SMap Word := mset 0 (mset 0 [] 0x400 (if s.glb.clkA then 0 else 1)) 0x104 (BitVec.ofNat 32 cause)

theorem coldRegs_cause : mget 0 (coldRegs s cause) 0x104 = BitVec.ofNat 32 cause := mget_mset_self_rise _ _ _ _ (mset_rise _ _ _ _ rfl)

theorem coldRegs_clock : mget 0 (coldRegs s cause) 0x400 = if s.glb.clkA then 0 else 1 :=
  (mget_mset_other_rise _ _ _ _ _ _ (by decide) (mset_rise _ _ _ _ rfl)).trans (mget_mset_self_rise _ _ _ _ rfl)

theorem mfind_mset_other {α : Type} [DecidableEq α] {x v : α} {m : SMap α} {k a : Nat} (h : a ≠ k) (hr : mrise 0 m = true) : mfind (mset x m k v) a = mfind m a := by
  unfold mset
  split
  · exact mfind_mremove_other_rise _ _ h m 0 hr
  · exact mfind_minsert_other _ _ _ h m

theorem coldRegs_other {a : Nat} (h1 : a ≠ 0x104) (h4 : a ≠ 0x400) : mfind (coldRegs s cause) a = none := by
  unfold coldRegs
  rw [mfind_mset_other h1 (mset_rise _ _ _ _ rfl), mfind_mset_other h4 rfl]
  rfl

theorem coldReset_from : s.coldFrom (coldReset s cause) cause := by
  refine ⟨rfl, rfl, coldRegs_cause, ?_, fun a => coldRegs_other⟩
  have h : (coldReset s cause).reg .GLB_CLK_STAT 0 [] = if s.glb.clkA then 0 else 1 := coldRegs_clock
  unfold State.rf
  rw [h]
  cases s.glb.clkA <;> rfl

theorem coldReset_cause : (coldReset s cause).reg .GLB_RESET_CAUSE 0 [] = BitVec.ofNat 32 cause := coldRegs_cause

theorem heldInReset_supply (h : s.glb.supplyBad = true) : s.heldInReset = true := by
  unfold State.heldInReset
  simp [h]

/-! The pins and the clocks (R506 to R511). -/

theorem execSupplyValid_eq (h : s.glb.supplyBad = true) : exec .supplyValid s = .next (coldReset (loadIr { s with glb := { s.glb with supplyBad := false, tripPin := false } } 0x01) 1) :=
  congrArg Host.Outcome.next (if_pos h)

theorem execSupplyExcursion_eq (h : s.glb.supplyBad = false) : exec .supplyExcursion s = .next (coldReset (loadIr { s with glb := { s.glb with supplyBad := true, tripPin := false } } 0x01) 1) :=
  congrArg Host.Outcome.next (if_neg (by simp [h]))

theorem execResetNAssert_eq (h : s.glb.supplyBad = false) : exec .resetNAssert s = .next (coldReset { s with glb := { s.glb with rstLow := true, tripPin := false } } 2) :=
  congrArg Host.Outcome.next (if_neg (by simp [h]))

/-- REFCLK_B is in use since A has failed. -/
def State.toB (s : State) : State := ({ s with glb := { s.glb with clkA := false } } : State).setRf .GLB_CLK_STAT 0 [] 1 0 1

/-- The change to REFCLK_B is told where the package is up, every SerDes relocking. -/
def State.toldB (s : State) : State := if s.toB.isUp then clockEvent (relock s.toB) false else s.toB

theorem execRefclkLoss_toB (ha : s.glb.clkA = true) (hl : s.glb.clocksLost = false) (hb : s.onB = false) (hc : s.glb.clkB = true) : exec (.refclkLoss false) s = .next s.toldB := by
  show Host.Outcome.next (if ¬ s.glb.clkA ∨ s.glb.clocksLost then _ else if false ≠ s.onB then _ else if ¬ false ∧ s.glb.clkB then s.toldB else _) = _
  rw [if_neg (by simp [ha, hl]), if_neg (by simp [hb]), if_pos (by simp [hc])]

theorem toB_onB (hr : mrise 0 s.regs = true) : s.toB.onB = true := by
  have h : s.toB.rf .GLB_CLK_STAT 0 [] 1 0 = 1 := State.rf_setRf_self { s with glb := { s.glb with clkA := false } } .GLB_CLK_STAT 0 [] 0 2 1 hr (by decide) (by decide)
  have ht := testBit_fld (s.toB.reg .GLB_CLK_STAT 0 []) (hi := 1) (k := 0) (by decide)
  unfold State.rf at h
  rw [h] at ht
  exact ht.symm

theorem bumpGen_onB (hr : mrise 0 s.regs = true) : (s.bumpGen .GLB_CLK_STAT 0).onB = s.onB := by
  unfold State.onB State.bumpGen State.setRf
  rw [State.reg_setReg_self _ _ _ _ _ hr, bit_setFld_below _ _ _ _ (by decide) (by decide) (by decide)]

theorem toldB_onB (hr : mrise 0 s.regs = true) : s.toldB.onB = true := by
  have hb := toB_onB hr
  have hrb : mrise 0 s.toB.regs = true := State.setRf_rise _ _ _ _ _ _ _ hr
  unfold State.toldB
  generalize s.toB = t at hb hrb ⊢
  split
  · have hk := (relock_keeps (s := t)).frame .regs (by decide)
    generalize relock t = u at hk ⊢
    have hu : mrise 0 u.regs = true := hk ▸ hrb
    have hw : Writes [Reg.addr .GWE_EVT_LOST 0 []] (u.bumpGen .GLB_CLK_STAT 0) (clockEvent u false) := State.raiseEv_writes _ _ _ _ _
    unfold State.onB
    rw [hw.reg (u.bumpGen_rise _ _ hu) (by decide)]
    refine (bumpGen_onB hu).trans ?_
    unfold State.onB
    rw [reg_of_regs hk]
    exact hb
  · exact hb

theorem toldB_glb : s.toldB.glb = { s.glb with clkA := false } := by
  have h : Keeps [.regs, .lpx, .gwe] s.toB s.toldB := .ite (clockEvent_keeps.after relock_keeps.mono) .refl
  exact (h.frame .glb (by decide)).trans (State.setRf_glb _ _ _ _ _ _ _)

end

/-! Temperatures (R516, R517). -/

section
variable {s : State} {d : Fin 8} {x : Sensor} {temp : Int}

/-- A warning is due: the reading is kept and the sensor marked. -/
def State.warm (s : State) (d : Nat) (x : Sensor) (temp : Int) : State :=
  let t := noteTemp s d x temp
  { t with glb := { t.glb with warned := ladd (d * 3 + sensorCode x) t.glb.warned } }

theorem thermWarn_due (hw : ((s.rf .GLB_THERM_CFG 0 [] 7 0 : Nat) : Int) ≤ temp) (hn : (d.val * 3 + sensorCode x) ∉ s.glb.warned) :
    thermWarn s d x temp = ((s.warm d x temp).bumpGen .GLB_THERM_STAT 0).raiseAt d 0x8006 pkg (((s.warm d x temp).bumpGen .GLB_THERM_STAT 0).gen .GLB_THERM_STAT 0) [d, sensorCode x, arg32 temp] :=
  if_pos ⟨hw, hn⟩

theorem noteTemp_glb : (noteTemp s d x temp).glb = { s.glb with temps := mset 0 s.glb.temps (d * 3 + sensorCode x) temp } := by
  unfold noteTemp
  dsimp only
  split
  · exact State.setRf_glb _ _ _ _ _ _ _
  · rfl

theorem warm_glb (hn : (d.val * 3 + sensorCode x) ∉ s.glb.warned) :
    (s.warm d x temp).glb = { s.glb with temps := mset 0 s.glb.temps (d * 3 + sensorCode x) temp, warned := s.glb.warned ++ [d.val * 3 + sensorCode x] } := by
  unfold State.warm ladd
  dsimp only
  rw [noteTemp_glb]
  dsimp only
  rw [if_neg hn]

theorem thermWarn_glb (hw : ((s.rf .GLB_THERM_CFG 0 [] 7 0 : Nat) : Int) ≤ temp) (hn : (d.val * 3 + sensorCode x) ∉ s.glb.warned) :
    (thermWarn s d x temp).glb = { s.glb with temps := mset 0 s.glb.temps (d * 3 + sensorCode x) temp, warned := s.glb.warned ++ [d.val * 3 + sensorCode x] } := by
  rw [thermWarn_due hw hn, ← warm_glb hn]
  exact (State.raiseAt_keeps.frame .glb (by decide)).trans (State.bumpGen_glb _ _ _)

/-- What falls with a trip. -/
def tripCycle (d : Fin 8) (x : Sensor) (t : TripTemp) : SameCycle := { t.toSameCycle with trips := { die := d, sensor := x, temp := t.temp } :: t.trips }

theorem execThermtrip_eq {t : TripTemp} (hd : d.val < s.dies) : exec (.thermtrip d x t) s = .next (fallTogether s [] (tripCycle d x t)) := onDie_live _ _ _ hd

theorem mem_tripping {same : SameCycle} (hd : d.val < s.dies) (hx : s.senses d x = true) (ht : tripLevel x < temp) :
    { die := d, sensor := x, temp := temp } ∈ s.tripping (tripCycle d x ⟨same, temp⟩).trips :=
  List.mem_filter.mpr ⟨List.mem_cons_self, by simp [hd, hx, ht]⟩

theorem tripping_none (ht : temp ≤ tripLevel x) : s.tripping (tripCycle d x ⟨{}, temp⟩).trips = [] :=
  List.filter_eq_nil_iff.mpr fun y hy => by
    rw [List.mem_singleton.mp hy]
    simp [ht]

theorem senses_up (hx : s.senses d x = true) : s.isUp = true := by
  unfold State.senses at hx
  exact (Bool.and_eq_true_iff.mp hx).1

theorem senses_compute (hx : s.senses d .compute = true) : s.excluded d = false := by
  unfold State.senses at hx
  simpa using (Bool.and_eq_true_iff.mp hx).2

/-- A lost stack stays lost. -/
theorem loseStack_keepsLost {e k : Nat} (cause : StackCause) (h : nbit s.ssc.lost e = true) : nbit (loseStack s k cause).ssc.lost e = true := by
  by_cases hk : nbit s.ssc.lost k = true
  · unfold loseStack
    rw [if_pos hk, h]
  · rw [(loseStack_books cause (by simpa using hk)).lost]
    refine (nbit_lor s.ssc.lost (2 ^ k) e).trans ?_
    rw [h, Bool.true_or]

theorem fallTogether_lost {first : List (Nat × DieCause)} {c : SameCycle} {y : DieTrip} (hy : y ∈ s.tripping c.trips) (hs : y.sensor = .hbm) : nbit (fallTogether s first c).ssc.lost y.die = true := by
  rw [fallTogether_eq]
  have hm : y ∈ (s.tripping c.trips).filter (fun y => y.sensor == .hbm) := List.mem_filter.mpr ⟨hy, by rw [hs]; rfl⟩
  exact foldl_sets (f := fun t (y : DieTrip) => loseStack t y.die .controller) (P := fun t => nbit t.ssc.lost y.die = true) (I := fun _ => True) (fun _ _ _ => trivial)
    (fun _ _ _ h => loseStack_keepsLost _ h) (fun _ _ => loseStack_lost _) _ _ hm trivial

theorem fallTogether_none (ht : temp ≤ tripLevel x) : fallTogether s [] (tripCycle d x ⟨{}, temp⟩) = s := by
  rw [fallTogether_eq, tripping_none ht]
  show s.felled [] (tripCycle d x ⟨{}, temp⟩) = s
  unfold State.felled State.fallen State.tripped
  rw [tripping_none ht]
  exact if_pos (.inl rfl)

end

/-! The test access port (R519, R520). -/

section
variable {s : State} {c : BitVec 8}

/-- A code that no row names selects BYPASS. -/
theorem ofCode_bypass (hc : c ∉ ([0x00, 0x01, 0x02, 0x04, 0x05, 0x0A, 0x0B] : List (BitVec 8))) : TapIns.ofCode c = .bypass := by
  have h : ∀ c : BitVec 8, c ∉ ([0x00, 0x01, 0x02, 0x04, 0x05, 0x0A, 0x0B] : List (BitVec 8)) → TapIns.ofCode c = .bypass := by decide
  exact h c hc

theorem loadIr_tap : (loadIr s c).tap = TapIns.ofCode c := rfl

theorem setTap_same (hb : s.glb.supplyBad = false) (h : (TapIns.ofCode c).holds = s.tap.holds) : setTap s c = loadIr s c := by
  unfold setTap
  rw [if_neg (by simp [hb])]
  exact if_neg (by rw [loadIr_tap, h]; simp)

theorem setTap_other (hb : s.glb.supplyBad = false) (h : (TapIns.ofCode c).holds ≠ s.tap.holds) : setTap s c = coldReset (loadIr s c) 1 := by
  unfold setTap
  rw [if_neg (by simp [hb])]
  exact if_pos (by rw [loadIr_tap]; simpa using h)

/-- A code that holds no part becomes current, and nothing but the port changes. -/
theorem setTap_passive (hb : s.glb.supplyBad = false) (hh : s.tap.holds = false) (hc : (TapIns.ofCode c).holds = false) :
    (setTap s c).glb.ir = c ∧ (setTap s c).glb.dr = (setTap s c).captureDr ∧ setTap s c = { s with glb := { s.glb with ir := (setTap s c).glb.ir, dr := (setTap s c).glb.dr, shift := false } } := by
  rw [setTap_same hb (hc.trans hh.symm)]
  exact ⟨rfl, rfl, rfl⟩

/-- A code that holds the part begins its RESET. -/
theorem setTap_holds (hb : s.glb.supplyBad = false) (hh : s.tap.holds = false) (hc : (TapIns.ofCode c).holds = true) :
    (loadIr s c).coldFrom (setTap s c) 1 ∧ (setTap s c).glb.mode = .reset ∧ (setTap s c).glb.ir = c ∧ (setTap s c).tap = TapIns.ofCode c ∧ (setTap s c).heldInReset = true := by
  rw [setTap_other hb (by rw [hc, hh]; decide)]
  refine ⟨coldReset_from, rfl, rfl, rfl, ?_⟩
  show (_ || _ || _ || (TapIns.ofCode c).holds) = true
  rw [hc, Bool.or_true]

end

/-- Settles O60: each command of the pins, the sensors and the test access port. -/
theorem pinsAndTestAccess : Obligations.PinsAndTestAccess := by
  intro s
  refine ⟨fun hb => ⟨_, execSupplyValid_eq hb, rfl, rfl, rfl, rfl, rfl, coldReset_cause⟩, fun hb => ⟨_, execSupplyExcursion_eq hb, rfl, rfl, ?_, rfl⟩,
    fun hb => ⟨_, execResetNAssert_eq hb, rfl, rfl, rfl, coldReset_cause⟩, rfl, fun hinv ha hl hb => ⟨fun hc => ⟨_, execRefclkLoss_toB ha hl hb hc, toldB_onB hinv.rise, toldB_glb⟩, fun hc => ?_⟩,
    fun hl b => ?_, fun hl => ⟨_, congrArg Host.Outcome.next (if_neg (by simp [hl])), rfl⟩, fun d x temp hd hx => ⟨fun hw hn => ?_, fun same ht => ?_, fun ht => ?_⟩,
    fun hb => ⟨fun hh => ⟨fun c i hm => ?_, ?_, ?_, fun c i k hm => ?_⟩, fun hh => ?_⟩, fun c hc => ?_, fun hp p => ?_⟩
  · exact heldInReset_supply rfl
  · refine ⟨coldReset { s with glb := { s.glb with clkA := false, clocksLost := true } } 1, ?_, rfl, rfl, ?_⟩
    · show Host.Outcome.next (if ¬ s.glb.clkA ∨ s.glb.clocksLost then _ else if false ≠ s.onB then _ else if ¬ false ∧ s.glb.clkB then _ else _) = _
      rw [if_neg (by simp [ha, hl]), if_neg (by simp [hb]), if_neg (by simp [hc])]
      rfl
    · show (_ || _ || true || _) = true
      simp
  · cases b
    · exact ⟨_, congrArg Host.Outcome.next (if_pos hl), rfl, rfl⟩
    · exact ⟨_, congrArg Host.Outcome.next (if_pos hl), rfl, rfl⟩
  · exact ⟨thermWarn s d x temp, onDie_eq hd (if_pos hx), thermWarn_glb hw hn, thermWarn_keeps.frame⟩
  · have hm := mem_tripping (same := same) hd hx ht
    refine ⟨_, execThermtrip_eq hd, fallTogether_pin hm, fun hc => ?_, fun hh => fallTogether_lost hm hh⟩
    subst hc
    refine fallTogether_excluded (c := .thermal) (List.mem_append_right _ ?_) hd (senses_compute hx) (senses_up hx)
    exact List.mem_map.mpr ⟨_, List.mem_filter.mpr ⟨hm, rfl⟩, rfl⟩
  · rw [execThermtrip_eq hd, fallTogether_none ht]
  · simp only [List.mem_cons, Prod.mk.injEq, List.not_mem_nil, or_false] at hm
    rcases hm with ⟨rfl, rfl⟩ | ⟨rfl, rfl⟩ | ⟨rfl, rfl⟩ | ⟨rfl, rfl⟩
    · exact ⟨_, rfl, setTap_passive hb hh rfl⟩
    · exact ⟨_, rfl, setTap_passive hb hh rfl⟩
    · exact ⟨_, rfl, setTap_passive hb hh rfl⟩
    · exact ⟨_, rfl, setTap_passive hb hh rfl⟩
  · exact ⟨_, rfl, by rw [setTap_same (c := 0x01) hb hh.symm]; rfl⟩
  · exact ⟨_, rfl, by rw [setTap_same (c := 0xFF) hb hh.symm]; rfl⟩
  · simp only [List.mem_cons, Prod.mk.injEq, List.not_mem_nil, or_false] at hm
    rcases hm with ⟨rfl, rfl, rfl⟩ | ⟨rfl, rfl, rfl⟩ | ⟨rfl, rfl, rfl⟩ | ⟨rfl, rfl, rfl⟩ | ⟨rfl, rfl, rfl⟩
    · exact ⟨_, rfl, setTap_holds hb hh rfl⟩
    · exact ⟨_, rfl, setTap_holds hb hh rfl⟩
    · exact ⟨_, rfl, setTap_holds hb hh rfl⟩
    · exact ⟨_, rfl, setTap_holds hb hh rfl⟩
    · exact ⟨_, rfl, setTap_holds hb hh rfl⟩
  · exact ⟨_, congrArg Host.Outcome.next (if_pos hh), by rw [setTap_other hb (by rw [hh]; decide)]; rfl, by rw [setTap_other hb (by rw [hh]; decide)]; rfl⟩
  · exact ofCode_bypass hc
  · have hl : s.linesOn = false := by
      obtain ⟨hm, hw⟩ := Bool.and_eq_true_iff.mp hp
      unfold State.linesOn
      rw [of_decide_eq_true hm, Option.isNone_iff_eq_none.mp hw]
      rfl
    unfold State.lineTxPin State.lineRxPin State.hostPin State.clockPin
    unfold State.portOn
    rw [hl, hp]
    exact ⟨rfl, rfl, rfl, rfl⟩

end Sys2Proof.Machine

/-! PROOFS. Scrubs and repairs: the microcode store, SRAM words, pieces of a stack, table entries and the timetable (spec/14 R422, spec/16 R462 to R467). -/

namespace Sys2Proof.Machine

-- As in the stacks' part: elaborated in turn, the many short proofs hold no thread each.
set_option Elab.async false

section
variable {s : State} {d : Nat}

/-! The report of an uncorrectable error (R462). -/

/-- The registers that the report of an uncorrectable error writes. -/
def errorRegs (d : Nat) : List Nat := [Reg.addr .ICU_LAST_UE d [], Reg.addr .ICU_STATE d [], Reg.addr .GWE_EVT_LOST 0 []]

theorem eccNote_writes (mem a : Nat) : Writes (errorRegs d) s (eccNote s d mem a) :=
  (State.setReg_writes s .ICU_LAST_UE d [] _ (by simp [errorRegs])).trans (State.bumpGen_writes _ .ICU_STATE d (by simp [errorRegs]))

theorem eccReport_writes (mem a outcome : Nat) : Writes (errorRegs d) s (eccReport s d mem a outcome) :=
  (eccNote_writes mem a).trans (State.raiseEv_writes _ _ _ _ _ (by simp [errorRegs]))

theorem eccReport_tells (mem a outcome : Nat) : tells s (eccReport s d mem a outcome) 0x0E01 d [d, mem, a, outcome] :=
  (tells_raiseEv (eccNote s d mem a) _ _ _ _).of_gwe (eccNote_keeps.frame .gwe (by decide)) rfl

theorem notMem_errorRegs {r : Reg} (h : r.info.base < 0x1000000) (hr : r.info.base ∉ [0xe0050, 0xe0000, 0x100a0]) : r.addr d [] ∉ errorRegs d := by
  obtain ⟨h1, h2, h3⟩ : r.info.base ≠ 0xe0050 ∧ r.info.base ≠ 0xe0000 ∧ r.info.base ≠ 0x100a0 := by simpa using hr
  simp only [errorRegs, List.mem_cons, List.not_mem_nil, or_false, not_or]
  exact ⟨addr_ne d d h (by decide) h1, addr_ne d d h (by decide) h2, addr_ne d 0 h (by decide) h3⟩

/-! The microcode store (R422). -/

variable {a : Nat}

theorem mcsFound_one (h : s.mcsIsBad d a = false) : mcsFound s d a 1 = mcsLast (s.bump .MCS_ECC1 d) d 1 a := by
  unfold mcsFound
  rw [if_neg (by simp [h]), if_pos rfl]

theorem mcsFound_two (h : s.mcsIsBad d a = false) : mcsFound s d a 2 = mcsLast (s.bump .MCS_ECC2 d) d 2 a := by
  unfold mcsFound
  rw [if_neg (by simp [h]), if_neg (by decide), if_pos rfl]

/-- The microcode word a of die d is bad. -/
def State.withMcsBad (s : State) (d a : Nat) : State := { s with plt := { s.plt with mcsBad := s.plt.mcsBad ++ [(d, a)] } }

theorem mcsFound_more {bits : Nat} (h : s.mcsIsBad d a = false) (hb : 3 ≤ bits) :
    mcsFound s d a bits = eccReport (mcsLast ((s.withMcsBad d a).bump .MCS_UNCORR d) d 3 a) d 4 a (if s.mcsCopy d a then 0 else 1) := by
  unfold mcsFound
  rw [if_neg (by simp [h]; omega), if_neg (by omega), if_neg (by omega)]
  rfl

/-- A word with more wrong bits than two (R422). -/
theorem mcsFound_bad {bits : Nat} (h : s.mcsIsBad d a = false) (hb : 3 ≤ bits) {t : State} (ht : mcsFound s d a bits = t) :
    t.plt = { s.plt with mcsBad := s.plt.mcsBad ++ [(d, a)] } ∧ only [.regs, .gwe, .plt] s t
      ∧ (s.Inv → counts s t .MCS_UNCORR d [] 1) ∧ tells s t 0x0E01 d [d, 4, a, if s.mcsCopy d a = true then 0 else 1] := by
  subst ht
  have hp : (mcsFound s d a bits).plt = (s.withMcsBad d a).plt := by
    rw [mcsFound_more h hb]
    have hk : Keeps [.regs] (s.withMcsBad d a) (mcsLast ((s.withMcsBad d a).bump .MCS_UNCORR d) d 3 a) := mcsLast_keeps.after State.bump_keeps.mono
    exact (eccReport_keeps.frame .plt (by decide)).trans (hk.frame .plt (by decide))
  refine ⟨hp, mcsFound_keeps.frame, fun hi => ?_, ?_⟩
  · rw [mcsFound_more h hb]
    have hw : Writes (Reg.addr .MCS_LAST_ERR d [] :: errorRegs d) ((s.withMcsBad d a).bump .MCS_UNCORR d) (eccReport (mcsLast ((s.withMcsBad d a).bump .MCS_UNCORR d) d 3 a) d 4 a (if s.mcsCopy d a then 0 else 1)) :=
      (State.setReg_writes _ .MCS_LAST_ERR d [] _ (by simp)).trans ((eccReport_writes _ _ _).mono (List.subset_cons_self _ _))
    refine (counts_bump (s.withMcsBad d a) .MCS_UNCORR d [] hi.rise).after hw ?_ ?_
    · exact State.setRf_rise _ _ _ _ _ _ _ hi.rise
    · exact List.not_mem_cons_of_ne_of_not_mem (addr_ne d d (by decide) (by decide) (by decide)) (notMem_errorRegs (by decide) (by decide))
  · rw [mcsFound_more h hb]
    exact (eccReport_tells _ _ _).of_gwe ((mcsLast_keeps.after State.bump_keeps.mono : Keeps [.regs] (s.withMcsBad d a) _).frame .gwe (by decide)) rfl

theorem mcsRepair_good (h : s.mcsIsBad d a = true) (hc : s.mcsCopy d a = true) :
    mcsRepair s d a = ({ s with plt := { s.plt with mcsBad := lrem (d, a) s.plt.mcsBad } } : State).bump .MCS_REPAIR d := by
  unfold mcsRepair
  rw [if_pos h, if_pos hc]

theorem mcsRepair_none (h : s.mcsIsBad d a = true) (hc : s.mcsCopy d a = false) : mcsRepair s d a = s.raiseAt d 0x8202 pkg (s.gen .PLT_STATE 0) [d, a] := by
  unfold mcsRepair
  rw [if_pos h, if_neg (by simp [hc])]

/-! SRAM words (R462, R465). -/

/-- The quay word a of die d is bad. -/
def State.withQuayBad (s : State) (d a : Nat) : State := { s with bpm := { s.bpm with bad := s.bpm.bad ++ [d * 0x400000 + a] } }

/-- A bad quay word in a frame is marked (R462). -/
theorem sramError_quay {i h : Nat} (hb : s.bufferAt d (a * 8) = some (i, h)) (ha : s.allocated h = true) (hn : d * 0x400000 + a ∉ s.bpm.bad) :
    sramError s d 1 a = eccReport ((s.withQuayBad d a).bump .ICU_SRAM_UNCORR d) d 1 a 2 := by
  have he : eccEffect s d 1 a = (2, s.withQuayBad d a) := by
    change eccQuay s d a = _
    unfold eccQuay
    rw [hb]
    dsimp only
    rw [if_pos ha]
    unfold ladd
    rw [if_neg hn]
    rfl
  unfold sramError
  rw [if_neg (by simpa [State.eccKnown] using hn), he]

theorem sramScrub_pass : sramScrub s d { mem := 0, addr := 0, corrected := false } = s.bump .ICU_SCRUB_PASSES d := by
  unfold sramScrub
  rw [if_pos rfl]

theorem sramScrub_corrected {m : Nat} (h1 : 1 ≤ m) (h13 : m ≤ 13) (h4 : m ≠ 4) : sramScrub s d { mem := m, addr := a, corrected := true } = s.bump .ICU_SRAM_CORR d := by
  unfold sramScrub
  dsimp only
  rw [if_neg (by omega), if_neg h4, if_neg (by omega), if_pos rfl]

theorem sramScrub_quay {i h : Nat} (hb : s.bufferAt d (a * 8) = some (i, h)) (ha : s.allocated h = true) (hn : d * 0x400000 + a ∉ s.bpm.bad)
    {t : State} (ht : lapse (sramScrub s d { mem := 1, addr := a, corrected := false }) d = t) :
    t.bpm = { s.bpm with bad := s.bpm.bad ++ [d * 0x400000 + a] } ∧ only [.regs, .bpm, .syu, .gwe] s t := by
  have he : sramScrub s d { mem := 1, addr := a, corrected := false } = eccReport ((s.withQuayBad d a).bump .ICU_SRAM_UNCORR d) d 1 a 2 := sramError_quay hb ha hn
  have hk : Keeps [.regs, .syu, .gwe] (s.withQuayBad d a) t := by
    rw [← ht, he]
    exact lapse_keeps.after (eccReport_keeps.after (l := [.regs, .gwe]) (State.bump_keeps.mono)).mono
  exact ⟨hk.frame .bpm (by decide), only_trans (only_mono (by simp) (bpm_only s _)) (only_mono (by simp) hk.frame)⟩

/-! Pieces of a stack (R465, R467). -/

theorem chanUe_addr (c : Nat) : Reg.addr .ICU_CHAN_UE d [c] = dieBase d + 0xe0010 + 4 * c := by
  simp [Reg.addr, Reg.info, dimSum]

theorem chanUe_ne {c : Nat} (hc : c < 16) {q : Reg} (e : Nat) (h : q.info.base < 0x1000000) (hq : q.info.base < 0xe0010 ∨ 0xe0050 ≤ q.info.base) :
    Reg.addr .ICU_CHAN_UE d [c] ≠ q.addr e [] := by
  have hm := addr_mod e h
  intro he
  rw [← he, chanUe_addr] at hm
  unfold dieBase at hm
  omega

theorem chanUe_notMem {c : Nat} (hc : c < 16) : Reg.addr .ICU_CHAN_UE d [c] ∉ errorRegs d := by
  simp only [errorRegs, List.mem_cons, List.not_mem_nil, or_false, not_or]
  exact ⟨chanUe_ne hc d (by decide) (by decide), chanUe_ne hc d (by decide) (by decide), chanUe_ne hc 0 (by decide) (by decide)⟩

/-- Parity serves by the segments, the group and the pieces that are gone. -/
theorem parityServes_congr {t : State} {piece : Nat} (hseg : t.ssc.seg = s.ssc.seg) (hm : t.ssc.smask = s.ssc.smask) (hg : ∀ k, t.pieceGone k piece = s.pieceGone k piece) :
    t.parityServes d piece = s.parityServes d piece := by
  have hs : ∀ j, t.seg j = s.seg j := fun j => by unfold State.seg; rw [hseg]
  unfold State.parityServes State.segMask
  simp only [hs, hm, hg]

theorem hbmScrub_zero (s : State) (d piece : Nat) :
    hbmScrub s d piece 0 = if piece = 100663295 then passDone (pushPort s d 4 false (.scrub piece) (pieceMask piece)) d else pushPort s d 4 false (.scrub piece) (pieceMask piece) := by
  unfold hbmScrub readOutcome
  dsimp only
  rw [if_pos (Nat.zero_le 1), if_pos rfl, if_pos (Or.inl (Nat.zero_le 1))]
  rfl

theorem hbmScrub_one (s : State) (d piece : Nat) :
    hbmScrub s d piece 1 = if piece = 100663295 then passDone ((pushPort s d 4 false (.scrub piece) (pieceMask piece)).bump .SSC_ECC_CORR d) d
      else (pushPort s d 4 false (.scrub piece) (pieceMask piece)).bump .SSC_ECC_CORR d := by
  unfold hbmScrub readOutcome
  dsimp only
  rw [if_pos (Nat.le_refl 1), if_neg Nat.one_ne_zero, if_pos rfl, if_pos (Or.inl (Nat.le_refl 1))]
  rfl

/-- What the staging store knows of its segments, its group and the pieces that are gone. -/
def State.stackMap (s : State) : SMap Seg × Nat × Nat × List (Nat × Nat) := (s.ssc.seg, s.ssc.smask, s.ssc.lost, s.ssc.bad)

theorem pushReq_stackMap (e p : Nat) (wr : Bool) (w : ReqWhat) (m tgt : Nat) (dl : Option Nat) : Fixes State.stackMap s (pushReq s e p wr w m tgt dl) := by
  unfold pushReq
  exact .ite (.refl s) rfl

theorem Fixes.bad {t : State} (h : Fixes State.stackMap s t) : t.ssc.bad = s.ssc.bad := congrArg (fun x : SMap Seg × Nat × Nat × List (Nat × Nat) => x.2.2.2) h

theorem Fixes.stackMap_of_ssc {t : State} (h : t.ssc = s.ssc) : Fixes State.stackMap s t := congrArg (fun x : Ssc => (x.seg, x.smask, x.lost, x.bad)) h

theorem readParity_stackMap (by_ j m port mask target : Nat) (deadline : Option Nat) : Fixes State.stackMap s (readParity s by_ j m port mask target deadline) := by
  unfold readParity
  split
  · exact .refl s
  · exact .after (.foldl (fun _ _ => pushReq_stackMap _ _ _ _ _ _ _) _) rfl

theorem readParity_writes {j m port mask target : Nat} {deadline : Option Nat} : Writes [Reg.addr .SSC_PARITY_READS d []] s (readParity s d j m port mask target deadline) := by
  unfold readParity
  split
  · exact .refl s
  · exact (State.bumpN_writes s .SSC_PARITY_READS d [] _).trans (.foldl (fun _ _ => .of_keeps pushReq_keeps (by decide)) _)

/-- Die d's scrub pass has found an uncorrectable piece in a channel, and reads on (R465, R467). -/
def State.foundBad (s : State) (d piece : Nat) : State :=
  pushPort { s with icu := { s.icu with passUe := ladd (d, piece % 32 / 2) s.icu.passUe } } d 4 false (.scrub piece) (pieceMask piece)

/-- The count of a piece's channel goes up. -/
def State.channelUe (s : State) (d piece : Nat) : State := s.bumpF .ICU_CHAN_UE d [piece % 32 / 2] 15 0 1

theorem foundBad_keeps {piece : Nat} : Keeps [.ssc, .icu] s (s.foundBad d piece) := by
  unfold State.foundBad
  exact pushPort_keeps.after keeps_icu.mono

theorem foundBad_icu {piece : Nat} : (s.foundBad d piece).icu = { s.icu with passUe := ladd (d, piece % 32 / 2) s.icu.passUe } := by
  unfold State.foundBad
  exact pushPort_keeps.frame .icu (by decide)

theorem foundBad_stackMap {piece : Nat} : Fixes State.stackMap s (s.foundBad d piece) := by
  unfold State.foundBad
  exact pushReq_stackMap _ _ _ _ _ _ _

theorem channelUe_keeps {piece : Nat} : Keeps [.regs] s (s.channelUe d piece) := State.bumpF_keeps

theorem foundBad_channelUe_stackMap {piece : Nat} : Fixes State.stackMap s ((s.foundBad d piece).channelUe d piece) :=
  Fixes.after (.stackMap_of_ssc (channelUe_keeps.frame .ssc (by decide))) foundBad_stackMap

/-- The piece is marked, with a report where no parity serves it (R462). -/
def State.markedPiece (s : State) (d piece : Nat) : State := { s with ssc := { s.ssc with bad := s.ssc.bad ++ [(d, piece)] } }

theorem markedPiece_icu (s : State) (d piece : Nat) : (s.markedPiece d piece).icu = s.icu := rfl

theorem markedPiece_keeps {piece : Nat} : Keeps [.ssc] s (s.markedPiece d piece) := keeps_ssc

theorem pieceLost_chunk {piece : Nat} (hp : piece < segTotal * 32) (hn : (d, piece) ∉ s.ssc.bad) :
    pieceLost s d piece = if s.parityServes d piece then eccNote (s.markedPiece d piece) d 15 piece else eccReport (s.markedPiece d piece) d 15 piece 1 := by
  unfold pieceLost
  dsimp only
  rw [if_pos hp]
  unfold ladd
  rw [if_neg hn]
  rfl

theorem pieceLost_writes {piece : Nat} (hp : piece < segTotal * 32) (hn : (d, piece) ∉ s.ssc.bad) : Writes (errorRegs d) s (pieceLost s d piece) := by
  rw [pieceLost_chunk hp hn]
  have hm : Writes (errorRegs d) s (s.markedPiece d piece) := .of_eq rfl
  exact .ite (hm.trans (eccNote_writes _ _)) (hm.trans (eccReport_writes _ _ _))

theorem pieceLost_chunk_keeps {piece : Nat} (hp : piece < segTotal * 32) (hn : (d, piece) ∉ s.ssc.bad) : Keeps [.regs, .gwe] (s.markedPiece d piece) (pieceLost s d piece) := by
  rw [pieceLost_chunk hp hn]
  exact .ite eccNote_keeps.mono eccReport_keeps

theorem parityServes_foundBad {piece : Nat} (hr : mrise 0 s.regs = true) : ((s.foundBad d piece).channelUe d piece).parityServes d piece = s.parityServes d piece := by
  have hm : Fixes State.stackMap s ((s.foundBad d piece).channelUe d piece) :=
    foundBad_channelUe_stackMap
  have hw : Writes [Reg.addr .ICU_CHAN_UE d [piece % 32 / 2]] s ((s.foundBad d piece).channelUe d piece) :=
    (Writes.of_keeps foundBad_keeps (by decide)).trans (State.bumpF_writes _ .ICU_CHAN_UE d [piece % 32 / 2] _ _ _)
  injection hm with h1 h2
  injection h2 with h2 h3
  injection h3 with h3 h4
  refine parityServes_congr h1 h2 fun k => ?_
  unfold State.pieceGone
  rw [h3, h4, hw.reg hr (q := .SSC_STACK) (e := k) (jdx := []) ?_]
  rw [List.mem_singleton]
  exact (chanUe_ne (by omega) k (by decide) (by decide)).symm

theorem channelUe_rf {piece : Nat} (hr : mrise 0 s.regs = true) :
    (s.channelUe d piece).rf .ICU_CHAN_UE d [piece % 32 / 2] 15 0 = min (2 ^ 16 - 1) (s.rf .ICU_CHAN_UE d [piece % 32 / 2] 15 0 + 1) :=
  State.rf_bumpF_self s .ICU_CHAN_UE d [piece % 32 / 2] 0 16 1 hr (by decide) (by decide)

/-- The counts and the limit once an uncorrectable piece is lost. -/
theorem pieceLost_counts {piece : Nat} (hp : piece < segTotal * 32) (hn : (d, piece) ∉ s.ssc.bad) (hr : mrise 0 s.regs = true) :
    (pieceLost (s.channelUe d piece) d piece).rf .ICU_CHAN_UE d [piece % 32 / 2] 15 0 = min (2 ^ 16 - 1) (s.rf .ICU_CHAN_UE d [piece % 32 / 2] 15 0 + 1)
      ∧ (pieceLost (s.channelUe d piece) d piece).rf .ICU_LIMIT d [] 15 0 = s.rf .ICU_LIMIT d [] 15 0 := by
  have hb : (s.channelUe d piece).ssc.bad = s.ssc.bad := congrArg Ssc.bad (channelUe_keeps.frame .ssc (by decide))
  have hu : Writes [Reg.addr .ICU_CHAN_UE d [piece % 32 / 2]] s (s.channelUe d piece) := State.bumpF_writes s .ICU_CHAN_UE d [piece % 32 / 2] _ _ _
  have hw := pieceLost_writes hp (hb.symm ▸ hn : (d, piece) ∉ (s.channelUe d piece).ssc.bad)
  constructor
  · rw [hw.rf (hu.rise hr) (chanUe_notMem (by omega)), channelUe_rf hr]
  · rw [hw.rf (hu.rise hr) (notMem_errorRegs (by decide) (by decide)), hu.rf hr]
    rw [List.mem_singleton]
    exact (chanUe_ne (by omega) d (by decide) (by decide)).symm

theorem pieceError_counted {piece : Nat} (hp : piece < segTotal * 32) (hn : (d, piece) ∉ s.ssc.bad) (hr : mrise 0 s.regs = true)
    (hl : s.rf .ICU_CHAN_UE d [piece % 32 / 2] 15 0 + 1 < max 1 (s.rf .ICU_LIMIT d [] 15 0)) :
    pieceError s d piece = pieceLost (s.channelUe d piece) d piece := by
  obtain ⟨hc, hm⟩ := pieceLost_counts hp hn hr
  unfold pieceError
  dsimp only
  rw [if_neg (by simpa using hn)]
  refine if_neg ?_
  change ¬ max 1 ((pieceLost (s.channelUe d piece) d piece).rf .ICU_LIMIT d [] 15 0) ≤ (pieceLost (s.channelUe d piece) d piece).rf .ICU_CHAN_UE d [piece % 32 / 2] 15 0
  rw [hc, hm]
  omega

/-- An uncorrectable piece that the scrubber has found, as lost. -/
def State.scrubbedBad (s : State) (d piece : Nat) : State := pieceLost ((s.foundBad d piece).channelUe d piece) d piece

/-- An uncorrectable piece of a chunk, below the limit of its channel: it is marked and counted, and read from parity (R462, R465, R467). -/
theorem hbmScrub_bad {piece bad : Nat} (hb : 2 ≤ bad) (hp : piece < segTotal * 32) (hn : (d, piece) ∉ s.ssc.bad) (hr : mrise 0 s.regs = true)
    (hl : s.rf .ICU_CHAN_UE d [piece % 32 / 2] 15 0 + 1 < max 1 (s.rf .ICU_LIMIT d [] 15 0)) :
    hbmScrub s d piece bad = readParity (s.scrubbedBad d piece) d (piece / 32) d 4 (pieceMask piece) ((s.scrubbedBad d piece).portTarget d 4) none := by
  have hw : Writes [] s (s.foundBad d piece) := .of_keeps foundBad_keeps (by decide)
  have hbad : (s.foundBad d piece).ssc.bad = s.ssc.bad := foundBad_stackMap.bad
  have he : readOutcome (s.foundBad d piece) d piece bad = s.scrubbedBad d piece := by
    unfold readOutcome
    rw [if_neg (by omega), if_neg (by omega)]
    refine pieceError_counted hp (by rw [hbad]; exact hn) (hw.rise hr) ?_
    rw [hw.rf hr (by simp), hw.rf hr (by simp)]
    exact hl
  have hlast : piece ≠ lastPiece := by
    unfold segTotal at hp
    unfold lastPiece
    omega
  unfold hbmScrub
  dsimp only
  rw [if_neg (show ¬ bad ≤ 1 by omega), if_neg hlast, if_neg (by omega)]
  change readParity (readOutcome (s.foundBad d piece) d piece bad) d _ _ _ _ ((readOutcome (s.foundBad d piece) d piece bad).portTarget d 4) _ = _
  rw [he]

theorem scrubbedBad_keeps {piece : Nat} (hp : piece < segTotal * 32) (hn : (d, piece) ∉ s.ssc.bad) :
    Keeps [.regs, .gwe] (((s.foundBad d piece).channelUe d piece).markedPiece d piece) (s.scrubbedBad d piece) := by
  refine pieceLost_chunk_keeps hp ?_
  rw [foundBad_channelUe_stackMap.bad]
  exact hn

theorem foundBad_channelUe_keeps {piece : Nat} : Keeps [.regs, .ssc, .icu] s ((s.foundBad d piece).channelUe d piece) :=
  channelUe_keeps.after foundBad_keeps.mono

/-- What such a piece leaves (R462, R465, R467). -/
theorem hbmScrub_bad_leaves {piece bad : Nat} (hi : s.Inv) (hb : 2 ≤ bad) (hp : piece < segTotal * 32) (hn : (d, piece) ∉ s.ssc.bad)
    (hl : s.rf .ICU_CHAN_UE d [piece % 32 / 2] 15 0 + 1 < max 1 (s.rf .ICU_LIMIT d [] 15 0)) {t : State} (ht : hbmScrub s d piece bad = t) :
    t.ssc.bad = s.ssc.bad ++ [(d, piece)] ∧ (d, piece % 32 / 2) ∈ t.icu.passUe
      ∧ t.rf .ICU_CHAN_UE d [piece % 32 / 2] 15 0 = s.rf .ICU_CHAN_UE d [piece % 32 / 2] 15 0 + 1 ∧ only [.regs, .ssc, .icu, .gwe] s t
      ∧ (s.parityServes d piece = true → t.gwe = s.gwe) ∧ (s.parityServes d piece = false → tells s t 0x0E01 d [d, 15, piece, 1]) := by
  have hr := hi.rise
  rw [hbmScrub_bad hb hp hn hr hl] at ht
  have hsm : Fixes State.stackMap (s.scrubbedBad d piece) t := ht ▸ readParity_stackMap _ _ _ _ _ _ _
  have hk : Keeps [.regs, .ssc] (s.scrubbedBad d piece) t := ht ▸ readParity_keeps
  have hm := scrubbedBad_keeps (s := s) (d := d) hp hn
  have hf := foundBad_channelUe_keeps (s := s) (d := d) (piece := piece)
  have hnc : (d, piece) ∉ ((s.foundBad d piece).channelUe d piece).ssc.bad := foundBad_channelUe_stackMap.bad.symm ▸ hn
  have hicu : t.icu = { s.icu with passUe := ladd (d, piece % 32 / 2) s.icu.passUe } := by
    have h1 : ((s.foundBad d piece).channelUe d piece).icu = (s.foundBad d piece).icu := channelUe_keeps.frame .icu (by decide)
    have h2 : (s.scrubbedBad d piece).icu = (((s.foundBad d piece).channelUe d piece).markedPiece d piece).icu := hm.frame .icu (by decide)
    exact (hk.frame .icu (by decide)).trans (h2.trans ((markedPiece_icu _ _ _).trans (h1.trans foundBad_icu)))
  have hgwe : t.gwe = (s.scrubbedBad d piece).gwe := hk.frame .gwe (by decide)
  have hg : ((s.foundBad d piece).channelUe d piece).gwe = s.gwe := hf.frame .gwe (by decide)
  have hw : Writes [Reg.addr .SSC_PARITY_READS d []] (s.scrubbedBad d piece) t := ht ▸ readParity_writes
  have hwf : Writes [] s (s.foundBad d piece) := .of_keeps foundBad_keeps (by decide)
  have hwl : Writes (Reg.addr .ICU_CHAN_UE d [piece % 32 / 2] :: errorRegs d) s (s.scrubbedBad d piece) :=
    ((hwf.mono (by simp)).trans (State.bumpF_writes _ .ICU_CHAN_UE d [piece % 32 / 2] _ _ _ (by simp))).trans ((pieceLost_writes hp hnc).mono (List.subset_cons_self _ _))
  refine ⟨?_, ?_, ?_, ?_, fun hs => ?_, fun hs => ?_⟩
  · calc t.ssc.bad = (s.scrubbedBad d piece).ssc.bad := hsm.bad
      _ = ((s.foundBad d piece).channelUe d piece).ssc.bad ++ [(d, piece)] := congrArg Ssc.bad (hm.frame .ssc (by decide))
      _ = s.ssc.bad ++ [(d, piece)] := by rw [foundBad_channelUe_stackMap.bad]
  · rw [hicu]
    exact mem_ladd _ _
  · rw [hw.rf (hwl.rise hr) (by rw [List.mem_singleton]; exact chanUe_ne (by omega) d (by decide) (by decide))]
    refine (pieceLost_counts hp (foundBad_stackMap.bad.symm ▸ hn) (hwf.rise hr)).1.trans ?_
    have hmax : s.rf .ICU_LIMIT d [] 15 0 < 2 ^ 16 := Nat.mod_lt _ (by decide)
    rw [hwf.rf hr (by simp)]
    omega
  · refine only_trans (only_mono ?_ hf.frame) (only_trans (only_mono ?_ (markedPiece_keeps (d := d) (piece := piece)).frame) (only_trans (only_mono ?_ hm.frame) (only_mono ?_ hk.frame))) <;> simp
  · rw [hgwe, ← hg]
    unfold State.scrubbedBad
    rw [pieceLost_chunk hp hnc, if_pos (by rw [parityServes_foundBad hr, hs])]
    exact eccNote_keeps.frame .gwe (by decide)
  · refine tells.of_gwe (s := ((s.foundBad d piece).channelUe d piece).markedPiece d piece) (t := s.scrubbedBad d piece) ?_ hg hgwe
    unfold State.scrubbedBad
    rw [pieceLost_chunk hp hnc, if_neg (by simp [parityServes_foundBad hr, hs])]
    exact eccReport_tells _ _ _

/-! Table and timetable entries (R462 to R464). -/

variable {lpm : Bool} {i : Nat}

theorem failEntry_restoring {n : Nat} (h : (d, n) ∉ s.icu.stuck) : failEntry s d n = { s with icu := { s.icu with restoring := ladd (d, n) s.icu.restoring } } := if_neg h

/-- The entry counts as restored. -/
def State.restored (s : State) (d n : Nat) : State := ({ s with icu := { s.icu with restoring := lrem (d, n) s.icu.restoring } } : State).bump .ICU_TABLE_RESTORE d

theorem restored_icu (n : Nat) : (s.restored d n).icu = { s.icu with restoring := lrem (d, n) s.icu.restoring } := by
  unfold State.restored
  exact State.bump_keeps.frame .icu (by decide)

theorem tableRestore_good (h : (d, entryNo lpm i) ∈ s.icu.restoring) : tableRestore s d lpm i true = s.restored d (entryNo lpm i) := by
  unfold tableRestore
  dsimp only
  rw [if_pos h, if_pos rfl]
  rfl

theorem restored_keeps (n : Nat) : Keeps [.regs, .icu] s (s.restored d n) := by
  unfold State.restored
  exact State.bump_keeps.after keeps_icu.mono

/-- The restored entry reads back differently (R463). -/
def State.stuckAt (s : State) (d n : Nat) : State := { s with icu := { s.icu with stuck := ladd (d, n) s.icu.stuck } }

theorem tableRestore_stuck (h : (d, entryNo lpm i) ∈ s.icu.restoring) : Keeps [.regs, .gwe] ((s.restored d (entryNo lpm i)).stuckAt d (entryNo lpm i)) (tableRestore s d lpm i false) := by
  unfold tableRestore
  dsimp only
  rw [if_pos h, if_neg (by decide)]
  exact State.raiseEv_keeps.after (State.bumpGen_keeps.after (l := [.regs]) State.bumpF_keeps).mono

theorem tableRestore_stuck_icu (h : (d, entryNo lpm i) ∈ s.icu.restoring) :
    (tableRestore s d lpm i false).icu = { s.icu with restoring := lrem (d, entryNo lpm i) s.icu.restoring, stuck := ladd (d, entryNo lpm i) s.icu.stuck } := by
  rw [(tableRestore_stuck h).frame .icu (by decide)]
  unfold State.stuckAt
  dsimp only
  rw [restored_icu]

/-- A static L2 entry is copied from another die (R464). -/
theorem staticRepair_l2 {e x : L2Ent} (hb : (d, i) ∈ s.icu.staticBad) (he : s.l2At d i = some e) (hx : s.staticCopyL2 d e = some x) {t : State} (ht : staticRepair s d .l2 i = t) :
    t.l2At d i = some { e with word := x.word } ∧ t.icu = { s.icu with staticBad := lrem (d, i) s.icu.staticBad } ∧ only [.regs, .fwt, .icu] s t := by
  have hs : staticRepair s d .l2 i = (State.setL2 { s with icu := { s.icu with staticBad := lrem (d, i) s.icu.staticBad } } d i { e with word := x.word }).bump .ICU_REPAIRED d := by
    unfold staticRepair
    dsimp only
    rw [if_neg (not_not_intro hb), he]
    dsimp only
    rw [hx]
  rw [hs] at ht
  subst ht
  have hk := State.bump_keeps (s := State.setL2 { s with icu := { s.icu with staticBad := lrem (d, i) s.icu.staticBad } } d i { e with word := x.word }) (r := .ICU_REPAIRED) (d := d) (idx := [])
  refine ⟨?_, hk.frame .icu (by decide), ?_⟩
  · unfold State.l2At
    rw [hk.frame .fwt (by decide)]
    exact mfind_minsert_self _ _ _
  · exact only_trans (only_mono (by simp) (icu_only s _)) (only_trans (only_mono (by simp) (fwt_only _ _)) (only_mono (by simp) hk.frame))

end

/-- Settles O58. -/
theorem errorsAreRepaired : Obligations.ErrorsAreRepaired := by
  intro s d hd hx
  have hl {t : State} : onDie s d (if s.excluded d then s else t) = .next t := onDie_eq hd (if_neg (by simp [hx]))
  have hc {t : State} : onCra s d (if s.excluded d then s else t) = .next (lapse t d) := onDie_eq hd (congrArg (fun u => lapse u d) (if_neg (by simp [hx])))
  refine ⟨fun a hb => ⟨⟨_, hl, mcsFound_one hb⟩, ⟨_, hl, mcsFound_two hb⟩, fun bits h3 => ⟨_, hl, mcsFound_bad hb h3 rfl⟩⟩, fun a hb hg => hl.trans (congrArg _ (mcsRepair_good hb hg)),
    fun a hb hg => ⟨_, hl.trans (congrArg _ (mcsRepair_none hb hg)), State.raiseAt_keeps.frame, tells_raiseAt _ _ _ _ _ _⟩, hc.trans (congrArg (fun u => Host.Outcome.next (lapse u d)) sramScrub_pass),
    fun m a h1 h13 h4 => hc.trans (congrArg (fun u => Host.Outcome.next (lapse u d)) (sramScrub_corrected h1 h13 h4)),
    fun a i h hb ha hn => ⟨_, hc, sramScrub_quay hb ha hn rfl⟩, ?_, ?_, ?_, ?_, ?_⟩
  · intro piece u hlost hp hu
    have hlast (k : Nat) : exec (.hbmScrub d piece k) s = .next (hbmScrub s d piece k) := onDie_eq hd (if_neg (by unfold lastPiece; simp [hx, hlost]; omega))
    subst hu
    refine ⟨(hlast 0).trans ?_, (hlast 1).trans ?_, fun bad hi hb hps hn hl => ⟨_, hlast bad, hbmScrub_bad_leaves hi hb hps hn hl rfl⟩⟩
    · exact congrArg Host.Outcome.next (hbmScrub_zero s d piece)
    · exact congrArg Host.Outcome.next (hbmScrub_one s d piece)
  · intro lpm i hn
    exact onDie_eq hd ((if_neg (by simp [hx])).trans (failEntry_restoring hn))
  · intro lpm i hm
    refine ⟨⟨_, hl.trans (congrArg _ (tableRestore_good hm)), restored_icu _, (restored_keeps _).frame⟩, ⟨_, hl, tableRestore_stuck_icu hm, ?_⟩⟩
    exact only_mono (by simp) tableRestore_keeps.frame
  · intro i e x hb he hc'
    exact ⟨_, hl, staticRepair_l2 hb he hc' rfl⟩
  · exact fun _ => rfl

end Sys2Proof.Machine

/-! PROOFS. What an exclusion leaves of a die: its stack out of the group, its threads, reorder buffer and tables gone (spec/16 R430, R468 to R476, R480). -/

namespace Sys2Proof.Machine

-- As in the stacks' part: elaborated in turn, the many short proofs hold no thread each.
set_option Elab.async false

section
variable {s t u : State} {d e : Nat}

/-! The stacks of the group and those that have left it: what moves frames and segments leaves them as they are (R223). -/

/-- The stacks of the package that are lost, and those of the group, as masks. -/
def State.stacks (s : State) : Nat × Nat := (s.ssc.lost, s.ssc.smask)

theorem Fixes.stacks_of_keeps {l : List Piece} (h : Keeps l s t) (hl : Piece.ssc ∉ l) : Fixes State.stacks s t := congrArg (fun x : Ssc => (x.lost, x.smask)) (h.frame .ssc hl)

theorem Fixes.stacks_of_books (h : Books s t) : Fixes State.stacks s t := Prod.ext h.lost h.smask

theorem Fixes.of_eq {α β : Type} {view : State → α} {x : β} {p : β × State} (he : p = (x, t)) (h : Fixes view s p.2) : Fixes view s t := by
  rwa [he] at h

theorem Fixes.snd {α β : Type} {view : State → α} {x : β} (h : Fixes view s t) : Fixes view s (x, t).2 := h

theorem leaveSegment_stacks (j : Nat) (aged : Bool) : Fixes State.stacks s (leaveSegment s j aged) := by
  unfold leaveSegment
  split
  · exact .refl s
  next x =>
    extract_lets t
    have ht : Fixes State.stacks s t := rfl
    have hf : Fixes State.stacks s (freeSegment t j) := .after (.stacks_of_books (freeSegment_books j)) ht
    exact .ite (.ite (.after (.stacks_of_keeps State.bump_keeps (by decide)) hf) hf) ht

theorem dropPf_stacks (q j : Nat) : Fixes State.stacks s (dropPf s q j) := rfl

theorem releaseItem_stacks (q : Nat) (i : LQItem) (aged : Bool) : Fixes State.stacks s (releaseItem s q i aged) := by
  unfold releaseItem
  refine .ite ?_ (.stacks_of_keeps (l := [.bpm]) (freeMirror_keeps.after (.ite releaseShared_keeps freeBuf_keeps)) (by decide))
  extract_lets t
  have ht : Fixes State.stacks s t := .after (.stacks_of_keeps freeMirror_keeps (by decide)) (leaveSegment_stacks _ _)
  exact .ite ht (.after (dropPf_stacks q i.seg) ht)

theorem abortPort_stacks (p : Nat) : Fixes State.stacks s (abortPort s p) := by
  unfold abortPort
  extract_lets t
  have ht : Fixes State.stacks s t := .foldl (fun t w => by
    extract_lets u
    have hu : Fixes State.stacks t u := .stacks_of_keeps State.modLq_keeps (by decide)
    exact .ite hu (.after (releaseItem_stacks _ _ _) hu)) s
  exact .after (.stacks_of_keeps (assignEngines_keeps.after (State.modPtx_keeps (s := t))) (by decide)) ht

theorem reportLink_stacks (p : Nat) (up : Bool) : Fixes State.stacks s (reportLink s p up) := by
  unfold reportLink
  extract_lets d t0 t1 t2 t3 c t4
  have h2 : Keeps [.regs, .lpx] s t2 := .ite (State.bumpGen_keeps.after State.modLnk_keeps.mono) (State.bump_keeps.after (State.bumpGen_keeps.after State.modLnk_keeps.mono))
  have h3 : Keeps [.regs, .lpx, .gwe] s t3 := State.raiseEv_keeps.after h2.mono
  have h34 : Fixes State.stacks t3 t4 := rfl
  have h4 : Fixes State.stacks s t4 := h34.after (.stacks_of_keeps h3 (by decide))
  exact .ite h4 (.after (abortPort_stacks p) h4)

theorem idlePorts_stacks : Fixes State.stacks s (idlePorts s d) :=
  .foldl (fun _ _ => .ite (reportLink_stacks _ _) (.stacks_of_keeps State.modPtx_keeps (by decide))) s

theorem loseDie_stacks : Fixes State.stacks s (loseDie s d) := by
  unfold loseDie
  exact .after idlePorts_stacks (.ite (.after idlePorts_stacks (.stacks_of_keeps State.setRf_keeps (by decide))) (.refl s))

theorem dropOpen_stacks (p : Nat) : Fixes State.stacks s (dropOpen s d p) := by
  unfold dropOpen
  extract_lets gone t
  have ht : Fixes State.stacks s t := .foldl (fun t j => by
    split
    · exact .refl t
    next x he =>
      extract_lets u
      have hu : Keeps [.regs, .bpm, .qba] t (u.takeStaged x.q j) := State.takeStaged_keeps.after (s := t) (t := u) State.bumpN_keeps.mono
      exact .after (.stacks_of_books (freeSegment_books j)) (.stacks_of_keeps hu (by decide))) s
  exact .after rfl ht

theorem dropPrefetch_stacks (qs : List Nat) : Fixes State.stacks s (dropPrefetch s qs) := by
  unfold dropPrefetch
  exact .after (.stacks_of_keeps assignEngines_keeps (by decide)) (.foldl (fun _ (x : Pf) => dropPf_stacks x.q x.seg) s)

theorem closeSegment_stacks (j : Nat) (part : Bool) : Fixes State.stacks s (closeSegment s j part) := by
  unfold closeSegment
  split
  · exact .refl s
  next x he =>
    refine .ite (.refl s) ?_
    extract_lets t0 c t1 t2 t3
    have h0 : Fixes State.stacks s t0 := .stacks_of_books (finishSegment_books 1 j x)
    have h2 : Fixes State.stacks s t2 := .after rfl h0
    have h3 : Fixes State.stacks s t3 := .after (.stacks_of_keeps State.bump_keeps (by decide)) h2
    exact .ite (.after (.stacks_of_keeps State.bump_keeps (by decide)) h3) h3

theorem claimSlot_stacks : Fixes State.stacks s (claimSlot s d) := by
  unfold claimSlot
  extract_lets mine
  refine .ite (.refl s) ?_
  split
  · exact .after (.stacks_of_keeps State.bump_keeps (by decide)) (closeSegment_stacks _ _)
  · exact .refl s

theorem openSegment_stacks (q j : Nat) : Fixes State.stacks s (openSegment s d q j) := by
  unfold openSegment
  extract_lets t0 x t1 t2 t3
  have h3 : Fixes State.stacks t0 t3 := rfl
  exact .after (.stacks_of_books ((relink_books _ _ _).after (writeRecord_books _ _))) (.after h3 claimSlot_stacks)

theorem appendTo_stacks (port j : Nat) (x : Seg) (l : List Byte) : Fixes State.stacks s (appendTo s port j x l) := by
  unfold appendTo
  extract_lets fill
  exact .after (.stacks_of_books (writeChunks_books _ _ _ _)) rfl

theorem packInto_stacks (j len edit flow etick : Nat) (frame : List Byte) : Fixes State.stacks s (packInto s j len edit flow etick frame).2 := by
  unfold packInto
  split
  · exact .refl s
  next x =>
    extract_lets n t0 c t1
    have h1 : Fixes State.stacks s t1 := .after (t := t0) rfl (appendTo_stacks _ _ _ _)
    exact .ite (.after (closeSegment_stacks _ _) h1) h1

theorem borrowBatch_stacks : Fixes State.stacks s (borrowBatch s d) := by
  unfold borrowBatch
  split
  · exact .refl s
  · rfl

theorem takeSegment_stacks (pick : Nat) : Fixes State.stacks s (takeSegment s d pick).2 := by
  unfold takeSegment
  extract_lets t
  have ht : Fixes State.stacks s t := .ite borrowBatch_stacks (.refl s)
  split
  · exact ht
  · exact ht

theorem packFrame_stacks (q len edit flow etick pick : Nat) (frame : List Byte) : Fixes State.stacks s (packFrame s d q len edit flow etick pick frame).2 := by
  have ht := takeSegment_stacks (s := s) (d := d) pick
  unfold packFrame
  dsimp -proj only
  split
  · exact .refl s
  split
  · exact packInto_stacks _ _ _ _ _ _
  split
  · exact .after (.stacks_of_keeps (State.bump_keeps (s := (takeSegment s d pick).2) (r := .SSC_NOFREE) (d := d) (idx := [])) (by decide)) ht
  · refine .snd (.after (packInto_stacks _ _ _ _ _ _) (.after (openSegment_stacks _ _) ?_))
    split
    · exact .after (closeSegment_stacks _ _) ht
    · exact ht

theorem admitStaged_stacks (a : Admit) (pick : Nat) : Fixes State.stacks s (admitStaged s a pick) := by
  unfold admitStaged
  extract_lets frame
  split
  next j o t he =>
    refine .after (.stacks_of_keeps (l := [.regs, .bpm, .qba]) ?_ (by decide)) (.of_eq he (packFrame_stacks _ _ _ _ _ _ _))
    exact State.bump_keeps.after (State.modLq_keeps.after (enqueue_keeps.after (freeMirror_keeps.after releaseCopy_keeps.mono)))
  next t he =>
    refine .after (.stacks_of_keeps (l := [.regs, .bpm, .qba]) ?_ (by decide)) (.of_eq he (packFrame_stacks _ _ _ _ _ _ _))
    exact State.bump_keeps.after (State.modLq_keeps.after (freeMirror_keeps.after releaseCopy_keeps.mono))

/-! Handoffs made again leave the stacks and the reorder buffers (R471). -/

/-- The stacks and the reorder buffers. -/
def State.held (s : State) : (Nat × Nat) × SMap Rob := (s.stacks, s.rsq.rob)

theorem Fixes.held_of_keeps {l : List Piece} (h : Keeps l s t) (hs : Piece.ssc ∉ l) (hr : Piece.rsq ∉ l) : Fixes State.held s t :=
  Prod.ext (Fixes.stacks_of_keeps h hs) (congrArg Rsq.rob (h.frame .rsq hr))

theorem Fixes.held_of_stacks {l : List Piece} (h : Fixes State.stacks s t) (k : Keeps l s t) (hr : Piece.rsq ∉ l) : Fixes State.held s t :=
  Prod.ext h (congrArg Rsq.rob (k.frame .rsq hr))

theorem Fixes.stacks_of_held (h : Fixes State.held s t) : Fixes State.stacks s t := congrArg Prod.fst h

theorem settleLocal_held (id : Nat) : Fixes State.held s (settleLocal s id) := by
  unfold settleLocal
  split
  · exact .ite (.refl s) (.after (.held_of_keeps settleSource_keeps (by decide) (by decide)) rfl)
  · exact .refl s

theorem markCopied_held (h : Option Nat) : Fixes State.held s (markCopied s h) := by
  unfold markCopied
  split
  · exact .refl s
  · exact .after (settleLocal_held _) rfl

theorem admitStaged_held (a : Admit) (pick : Nat) : Fixes State.held s (admitStaged s a pick) := .held_of_stacks (admitStaged_stacks a pick) admitStaged_keeps (by decide)

theorem admitOne_held (a : Admit) (pick : Nat) : Fixes State.held s (admitOne s a pick) := by
  have hb {x : Option Nat} {t : State} (he : landBuffer s a = (x, t)) : Fixes State.held s t := .held_of_keeps (landBuffer_keeps.of_eq he) (by decide) (by decide)
  unfold admitOne
  extract_lets keep
  refine .ite ?_ (.ite ?_ (.after (markCopied_held _) (admitStaged_held a pick)))
  · have hk : Keeps [.regs, .bpm] s ((freeMirror (releaseCopy s a) a.mirror).bump .ICU_FRAME_DROP a.die) := State.bump_keeps.after (freeMirror_keeps.after releaseCopy_keeps.mono)
    exact .after (markCopied_held _) (.held_of_keeps hk (by decide) (by decide))
  split
  next t he => exact .after (markCopied_held _) (.after (admitStaged_held a pick) (hb he))
  next h t he =>
    have hm {b : Bool} {m : Option Nat} {u : State} (k : landMirror t a h = (b, m, u)) : Fixes State.held s u :=
      .after (.held_of_keeps (landMirror_keeps.of_eq₂ k) (by decide) (by decide)) (hb he)
    split
    next m u k =>
      have hq : Keeps [.regs, .qba] u ((enqueue u a.q (quayItem s a h m)).bump .QBA_KEPT a.die) := State.bump_keeps.after enqueue_keeps.mono
      exact .after (markCopied_held _) (.after (.held_of_keeps hq (by decide) (by decide)) (hm k))
    next m u k => exact .after (markCopied_held _) (.after (admitStaged_held _ pick) (hm k))

theorem readmit_held (a : Admit) (i : LQItem) : Fixes State.held s (readmit s a i) := by
  unfold readmit
  extract_lets l n t m
  have ht : Fixes State.held s t := .after (admitOne_held a _) (.held_of_keeps State.modLq_keeps (by decide) (by decide))
  exact .ite (.after (.held_of_keeps State.modLq_keeps (by decide) (by decide)) ht) ht

theorem refloodTo_held (p : Nat) (h : Hand) (places : List (Nat × LQItem)) (ws : List Admit) : Fixes State.held s (refloodTo p h places ws s) := by
  unfold refloodTo
  extract_lets as n
  clear_value as
  split
  · exact .refl s
  · extract_lets f t fresh c v
    have ht : Fixes State.held s t := .held_of_keeps floodCopies_keeps (by decide) (by decide)
    have hv : Fixes State.held s v := .after rfl ht
    exact .after (.foldl (fun _ _ => readmit_held _ _) v) hv

theorem resend_held (p : Nat) (ws : List Admit) (h : Hand) : Fixes State.held s (resend p ws s h) := by
  unfold resend
  extract_lets places mine b _ t u
  refine .ite (.refl s) (.after (settleLocal_held _) ?_)
  have ht : Fixes State.held s t := .after (t := b) rfl (.held_of_keeps State.bump_keeps (by decide) (by decide))
  refine .after (.ite (refloodTo_held _ _ _ _) (.after (.foldl (fun _ _ => .held_of_keeps pushAdmit_keeps (by decide) (by decide)) _) (.foldl (fun _ _ => readmit_held _ _) t))) ht

theorem redirectHands_held (ws : List Admit) : Fixes State.held s (redirectHands s d ws) := by
  unfold redirectHands
  extract_lets _ t
  exact .after (.foldl (fun _ _ => resend_held _ _ _) t) rfl

/-! Threads, reorder buffers and tables of a die that is purged stay gone (R471, R474). -/

theorem mem_mremove {α : Type} {key : Nat} {x : Nat × α} : ∀ {m : SMap α}, x ∈ mremove key m → x ∈ m
  | (k, y) :: r, h => by
    unfold mremove at h
    split at h
    · exact List.mem_cons_of_mem _ h
    split at h
    · exact h
    · rcases List.mem_cons.mp h with h | h
      · exact h ▸ List.mem_cons_self ..
      · exact List.mem_cons_of_mem _ (mem_mremove h)

theorem mem_minsert {α : Type} {key : Nat} {v : α} {x : Nat × α} : ∀ {m : SMap α}, x ∈ minsert key v m → x = (key, v) ∨ x ∈ m
  | [], h => .inl (List.mem_singleton.mp h)
  | (k, y) :: r, h => by
    unfold minsert at h
    split at h
    · exact (List.mem_cons.mp h).imp_right (List.mem_cons_of_mem _)
    split at h
    · exact List.mem_cons.mp h
    · rcases List.mem_cons.mp h with h | h
      · exact .inr (h ▸ List.mem_cons_self ..)
      · exact (mem_minsert h).imp_right (List.mem_cons_of_mem _)

/-- A change that leaves an unlisted value as it is lists no key of a die that has none. -/
theorem mmod_lacks {α : Type} [DecidableEq α] {x0 : α} {m : SMap α} {k n : Nat} {f : α → α} (hf : f x0 = x0) (h : ∀ x ∈ m, x.1 / n ≠ e) : ∀ x ∈ mmod x0 m k f, x.1 / n ≠ e := by
  intro x hx
  unfold mmod mset at hx
  split at hx
  · exact h x (mem_mremove hx)
  next hv =>
    rcases mem_minsert hx with he | hm
    · cases hk : mfind m k with
      | some v => exact he ▸ h (k, v) (mem_of_mfind hk)
      | none =>
        unfold mget at hv
        rw [hk] at hv
        exact absurd hf hv
    · exact h x hm

theorem mdrop_die_lacks {α : Type} (m : SMap α) (n : Nat) : ∀ x ∈ mdrop (fun k => k / n = d) m, x.1 / n ≠ d :=
  fun x hx => by simpa using (List.mem_filter.mp hx).2

theorem State.lacks.congr (h : s.lacks e) (hc : t.cra = s.cra) (hr : t.rsq.rob = s.rsq.rob) (hf : t.fwt = s.fwt) : t.lacks e := by
  unfold State.lacks
  rw [hc, hr, hf]
  exact h

theorem State.lacks.keeps {l : List Piece} (h : s.lacks e) (k : Keeps l s t) (hc : Piece.cra ∉ l) (hr : Piece.rsq ∉ l) (hf : Piece.fwt ∉ l) : t.lacks e :=
  h.congr (k.frame .cra hc) (congrArg Rsq.rob (k.frame .rsq hr)) (k.frame .fwt hf)

theorem State.lacks.modThr {n : Nat} {f : Thr → Thr} (h : s.lacks e) (hf : f {} = {}) : (s.modThr d n f).lacks e :=
  ⟨fun x hx => mmod_lacks hf h.1 x hx, h.2⟩

theorem State.lacks.modCtx {c : Nat} {f : FCtx → FCtx} (h : s.lacks e) (hf : f {} = {}) : (s.modCtx d c f).lacks e := by
  obtain ⟨h1, h2, h3, h4, h5, h6⟩ := h
  exact ⟨h1, h2, h3, h4, h5, fun x hx => mmod_lacks hf h6 x hx⟩

/-- An answered post lists no thread of a die that has none. -/
theorem answerPost_lacks (f : Flight) (c : Nat) (h : s.lacks e) : (answerPost s f c).lacks e :=
  h.modThr rfl

theorem answerPosts_lacks (h : s.lacks e) : (answerPosts s d).lacks e :=
  (foldl_keep (fun t => State.lacks t e) _ (fun _ f => answerPost_lacks f _) _ s h).congr rfl rfl rfl

theorem quayLeft_lacks (h : t.lacks e) : (s.quayLeft t d).lacks e := by
  have hk : Keeps [.regs, .cte, .bpm, .qba, .ssc] (answerPosts t d) (s.quayLeft t d) :=
    dropPrefetch_keeps.after (dropOpen_keeps.after (adoptQueues_keeps.after (.foldl (fun _ _ => freeMirror_keeps.mono) .refl)))
  exact (answerPosts_lacks h).keeps hk (by decide) (by decide) (by decide)

theorem purgeDie_lacks_self : (purgeDie s d).lacks d :=
  ⟨mdrop_die_lacks _ _, mdrop_die_lacks _ _, mdrop_die_lacks _ _, mdrop_die_lacks _ _, mdrop_die_lacks _ _, mdrop_die_lacks _ _⟩

theorem purgeDie_lacks (h : s.lacks e) : (purgeDie s d).lacks e := by
  obtain ⟨h1, h2, h3, h4, h5, h6⟩ := h
  exact ⟨fun x hx => h1 x (List.mem_of_mem_filter hx), fun x hx => h2 x (List.mem_of_mem_filter hx), fun x hx => h3 x (List.mem_of_mem_filter hx),
    fun x hx => h4 x (List.mem_of_mem_filter hx), fun x hx => h5 x (List.mem_of_mem_filter hx), fun x hx => h6 x (List.mem_of_mem_filter hx)⟩

theorem redirectHands_lacks (ws : List Admit) (h : s.lacks e) : (redirectHands s d ws).lacks e :=
  h.congr (redirectHands_keeps.frame .cra (by decide)) (congrArg Prod.snd (redirectHands_held ws)) (redirectHands_keeps.frame .fwt (by decide))

theorem bindFallback_lacks (p : Nat) (h : s.lacks e) : (bindFallback s d p).lacks e := by
  unfold bindFallback
  refine foldl_keep (fun t => State.lacks t e) _ (fun t l ht => ?_) _ s h
  split
  · exact ht.modCtx (f := fun _ => {}) rfl
  · exact ht

theorem adoptDie_lacks (again : List Frame) (tasks : List (Task × Option Nat)) (h : s.lacks e) : (adoptDie s d again tasks).2.lacks e := by
  unfold adoptDie
  dsimp -proj only
  refine bindFallback_lacks _ (h.keeps (l := [.regs, .prs, .tdx]) ?_ (by decide) (by decide) (by decide))
  exact rehome_keeps.after (State.bumpN_keeps.after (reinject_keeps.after takeOver_keeps.mono))

theorem carriedOn_lacks (h : (s.purged t d).lacks e) : (s.carriedOn t d).lacks e := by
  unfold State.carriedOn
  split
  · exact adoptDie_lacks _ _ h
  · exact h.keeps loseDie_keeps (by decide) (by decide) (by decide)

theorem settled_lacks (h : (s.purged t d).lacks e) : (settleDie s t d).2.lacks e := by
  rw [settleDie_eq]
  exact ((carriedOn_lacks h).keeps loseStack_keeps (by decide) (by decide) (by decide)).keeps moveReceiver_keeps (by decide) (by decide) (by decide)

theorem settleDie_lacks_self : (settleDie s t d).2.lacks d := settled_lacks (redirectHands_lacks _ purgeDie_lacks_self)

theorem settleDie_lacks (h : t.lacks e) : (settleDie s t d).2.lacks e := settled_lacks (redirectHands_lacks _ (purgeDie_lacks (quayLeft_lacks h)))

/-! The stack of an excluded die leaves the group (R471). -/

theorem quayLeft_stacks : Fixes State.stacks t (s.quayLeft t d) := by
  unfold State.quayLeft
  extract_lets live takes again free
  have hk : Keeps [.regs, .bpm, .qba, .cra, .tdx] t (adoptQueues (free.foldl (fun t m => freeMirror t (some m)) (answerPosts t d)) takes ((free.foldl (fun t m => freeMirror t (some m)) (answerPosts t d)).resent d (fun _ => live)) (partner d) (s.queuesOn d)).2 :=
    adoptQueues_keeps.after (.foldl (fun _ _ => freeMirror_keeps.mono) answerPosts_keeps.mono)
  exact .after (dropPrefetch_stacks _) (.after (dropOpen_stacks _) (.stacks_of_keeps hk (by decide)))

theorem purgeDie_stacks : Fixes State.stacks s (purgeDie s d) := rfl

theorem carriedOn_stacks : Fixes State.stacks t (s.carriedOn t d) := by
  have hq : Fixes State.stacks t (purgeDie (s.quayLeft t d) d) := .after purgeDie_stacks quayLeft_stacks
  have hp : Fixes State.stacks t (s.purged t d) := .after (Fixes.stacks_of_held (redirectHands_held _)) hq
  unfold State.carriedOn
  exact .ite (.after (.stacks_of_keeps adoptDie_keeps (by decide)) hp) (.after loseDie_stacks hp)

theorem settleDie_lost_self : nbit (settleDie s t d).2.ssc.lost d = true := by
  rw [settleDie_eq, show (moveReceiver (loseStack (s.carriedOn t d) d .exclusion) d).ssc = _ from moveReceiver_keeps.frame .ssc (by decide)]
  exact loseStack_lost _

theorem settleDie_lost (h : nbit t.ssc.lost e = true) : nbit (settleDie s t d).2.ssc.lost e = true := by
  rw [settleDie_eq, show (moveReceiver (loseStack (s.carriedOn t d) d .exclusion) d).ssc = _ from moveReceiver_keeps.frame .ssc (by decide)]
  refine loseStack_keepsLost _ ?_
  rw [show (s.carriedOn t d).ssc.lost = t.ssc.lost from congrArg Prod.fst carriedOn_stacks]
  exact h

/-- A die that has been settled: its stack out of the group, and nothing of its region left. -/
def State.gone (s : State) (e : Nat) : Prop := nbit s.ssc.lost e = true ∧ s.lacks e

theorem settleDie_gone_self : (settleDie s t d).2.gone d := ⟨settleDie_lost_self, settleDie_lacks_self⟩

theorem settleDie_gone (h : t.gone e) : (settleDie s t d).2.gone e := ⟨settleDie_lost h.1, settleDie_lacks h.2⟩

theorem settleDies_keeps_gone : ∀ (l : List (Nat × DieCause)) (t : State), t.gone e → (settleDies s l t).gone e
  | [], _, h => h
  | _ :: l, _, h => settleDies_keeps_gone l _ (settleDie_gone h)

theorem settleDies_gone : ∀ (l : List (Nat × DieCause)) (t : State), e ∈ l.map (·.1) → (settleDies s l t).gone e
  | [], _, h => absurd h List.not_mem_nil
  | x :: l, t, h => by
    rcases List.mem_cons.mp h with rfl | h
    · exact settleDies_keeps_gone l _ settleDie_gone_self
    · exact settleDies_gone l _ h

/-- Every die of an exclusion is gone behind it. -/
theorem excludeAll_gone {l : List (Nat × DieCause)} (h : e ∈ l.map (·.1)) : (excludeAll s l).gone e := by
  obtain ⟨s0, hk⟩ := excludeAll_parts (s := s) l
  obtain ⟨hl, hg⟩ := settleDies_gone (s := s0) l (s.fenced l) h
  exact ⟨(congrArg (fun x : Ssc => nbit x.lost e) (hk.frame .ssc (by decide))).trans hl, hg.keeps hk (by decide) (by decide) (by decide)⟩

/-! What falls in one cycle (R430, R480, R517). -/

theorem fallTogether_gone {first : List (Nat × DieCause)} {x : SameCycle} {c : DieCause}
    (hm : (e, c) ∈ first ++ x.also.map (fun y => (y.1.val, fallCause y.2)) ++ ((s.tripping x.trips).filter (fun y => y.sensor == .compute)).map (fun y => (y.die.val, .thermal)))
    (hd : e < s.dies) (hx : s.excluded e = false) (hu : s.isUp = true) : (fallTogether s first x).gone e := by
  have hf : e ∈ (s.fallen first x).map (·.1) := mem_falling _ hm hd hx
  rw [fallTogether_eq]
  refine foldl_keep (fun t => State.gone t e) _ (fun t y h => ⟨loseStack_keepsLost _ h.1, h.2.keeps loseStack_keeps (by decide) (by decide) (by decide)⟩) _ _ ?_
  unfold State.felled
  rw [if_neg (by rintro (h | h); rw [h] at hf; simp at hf; exact h hu)]
  exact excludeAll_gone hf

/-- The losses of a die's cycle: it and those that fall with it are gone, and a compute trip is shown and excludes its die (R468, R480, R517). -/
theorem loseDies_gone {x : DieLoss} {c : DieCause} (hd : x.die.val < s.dies) (hx : s.excluded x.die = false) (hu : s.isUp = true)
    (he : e = x.die.val ∨ (∃ y ∈ x.also, y.1.val = e ∧ e < s.dies ∧ s.excluded e = false)) :
    (loseDies s x c).excluded e = true ∧ (loseDies s x c).gone e := by
  have key {f : DieCause} (hm : (e, f) ∈ [(x.die.val, c)] ++ x.also.map (fun y => (y.1.val, fallCause y.2)) ++ ((s.tripping x.trips).filter (fun y => y.sensor == .compute)).map (fun y => (y.die.val, .thermal)))
      (h1 : e < s.dies) (h2 : s.excluded e = false) : (loseDies s x c).excluded e = true ∧ (loseDies s x c).gone e :=
    ⟨fallTogether_excluded hm h1 h2 hu, fallTogether_gone hm h1 h2 hu⟩
  rcases he with rfl | ⟨y, hy, rfl, h1, h2⟩
  · exact key (f := c) (by simp) hd hx
  · refine key (f := fallCause y.2) ?_ h1 h2
    exact List.mem_append_left _ (List.mem_append_right _ (List.mem_map.mpr ⟨y, hy, rfl⟩))

theorem loseDies_trip {x : DieLoss} {c : DieCause} {y : DieTrip} (hy : y ∈ x.trips) (hs : y.sensor = .compute) (hd : y.die.val < s.dies) (hw : s.senses y.die .compute = true)
    (ht : tripLevel .compute < y.temp) : (loseDies s x c).glb.tripPin = true ∧ (loseDies s x c).excluded y.die = true := by
  have hm : y ∈ s.tripping x.trips := List.mem_filter.mpr ⟨hy, by simp [hd, hs, hw, ht]⟩
  have hw' : s.isUp = true ∧ s.excluded y.die = false := by simpa [State.senses] using hw
  refine ⟨fallTogether_pin hm, fallTogether_excluded (c := .thermal) ?_ hd hw'.2 hw'.1⟩
  exact List.mem_append_right _ (List.mem_map.mpr ⟨y, List.mem_filter.mpr ⟨hm, by simp [hs]⟩, rfl⟩)

/-- A die that is excluded falls no more (R480). -/
theorem loseDies_excluded {x : DieLoss} {c : DieCause} (hx : s.excluded x.die = true) (ha : x.also = []) (ht : x.trips = []) : loseDies s x c = s := by
  have hf : s.falling [(x.die.val, c)] = [] := if_neg (by simp [hx])
  have hn : s.tripping [] = [] := rfl
  unfold loseDies
  rw [fallTogether_eq]
  unfold State.felled State.fallen State.tripped
  rw [ha, ht, hn]
  exact if_pos (.inl hf)

/-! An exclusion by the host (R470, R480). -/

theorem mem_liveDies : e ∈ s.liveDies ↔ e < s.dies ∧ s.excluded e = false := by
  simp [State.liveDies]

theorem liveDies_single (hd : d < s.dies) (hx : s.excluded d = false) (hl : s.liveDies.length ≤ 1) : s.liveDies = [d] := by
  have hm : d ∈ s.liveDies := mem_liveDies.mpr ⟨hd, hx⟩
  match h : s.liveDies with
  | [] => simp [h] at hm
  | [x] => rw [h] at hm; rw [List.mem_singleton.mp hm]
  | x :: y :: r => simp [h] at hl

variable {w : Word} {same : Bool}

/-- A write that excludes a die, by the dies that remain. -/
theorem hostExclude_eq (hs : same = true → s.excluded d = false) (hg : genOk (fld w 31 16) (s.gen .DIE_HEALTH 0) = true) (hw : fld w 2 0 = d) (hb : bit w 3 = true) (hd : d < s.dies) :
    hostExclude s w same = if s.excluded (partner d) = true ∨ s.liveDies = [d] then (.denied, s) else if s.excluded d = true then (.ok, s) else (.ok, excludeDie s d .host) := by
  unfold hostExclude wrDieCtl
  dsimp only
  rw [hw, if_neg (fun h => by simp [hs h.1] at h), if_neg (by simp [hg]), if_neg (by simp [hb]), if_neg (by omega)]

theorem excludeNow_gone : (excludeNow s d .host).excluded d = true ∧ (excludeNow s d .host).gone d :=
  ⟨(excludeAll_excluded _).mpr (.inr (by simp)), excludeAll_gone (by simp)⟩

/-! Die links and port islands (R478, R479, R484). -/

/-- A lane of a die link lost, a spare in its place while there is one. -/
def laneGone (x : DieLink) : DieLink := { x with lost := x.lost + 1, spares := min 2 (x.spares + 1) }

/-- The link of a die with one lane less. -/
def State.laneLost (s : State) (d l : Nat) : State := { s with icu := { s.icu with link := mmod {} s.icu.link (linkKey d l) laneGone } }

theorem laneLost_lanes (l : Nat) : (s.laneLost d l).linkLanes d l = s.linkLanes d l - 1 := by
  have hm : mget {} (s.laneLost d l).icu.link (linkKey d l) = laneGone (mget {} s.icu.link (linkKey d l)) :=
    mget_mset_ne (v := laneGone (mget {} s.icu.link (linkKey d l))) s.icu.link (linkKey d l) fun h => Nat.succ_ne_zero _ (congrArg DieLink.lost h)
  unfold State.linkLanes
  rw [hm]
  exact Nat.sub_succ _ _

theorem laneFail_lanes {l : Nat} (he : (s.linkEnd d l).isSome = true) (hl : s.linkLanes d l ≠ 0) : (laneFail s d l).linkLanes d l = s.linkLanes d l - 1 := by
  obtain ⟨e, he⟩ := Option.isSome_iff_exists.mp he
  have hk : Keeps [.regs, .gwe] (s.laneLost d l) (laneFail s d l) := by
    unfold laneFail
    rw [he]
    dsimp -proj only
    rw [if_neg hl]
    exact .ite .refl (State.raiseEv_keeps.after (State.bumpGen_keeps.after (l := [.regs]) State.bumpGen_keeps).mono)
  exact (congrArg (fun x : Icu => 34 - (mget {} x.link (linkKey d l)).lost) (hk.frame .icu (by decide))).trans (laneLost_lanes l)

/-- The port island of a die is lost. -/
def State.islandLost (s : State) (d : Nat) : State := { s with lpx := { s.lpx with lost := ladd d s.lpx.lost } }

theorem reportLink_islands (p : Nat) : Fixes (fun s => s.lpx.lost) s (reportLink s p false) := by
  obtain ⟨t, ht, hr⟩ := s.reported_frame p false
  rw [reportLink_down]
  have ha : (assignEngines ((s.reported p false).aborted p)).lpx = (s.reported p false).lpx :=
    (assignEngines_keeps.frame .lpx (by decide)).trans (State.aborted_only p .lpx (by decide))
  have hm : (s.reported p false).lpx.lost = s.lpx.lost := by
    rw [hr]
    change t.lpx.lost = _
    rw [show t.lpx = _ from ht .lpx (by decide)]
    rfl
  exact (congrArg Lpx.lost ha).trans hm

theorem idlePorts_islands : Fixes (fun s => s.lpx.lost) s (idlePorts s d) :=
  .foldl (fun _ _ => .ite (reportLink_islands _) (congrArg Lpx.lost (State.modPtx_keeps.frame .lpx (by decide)))) s

end

/-- Settles O59. -/
theorem failuresAreContained : Obligations.FailuresAreContained := by
  intro s d hd
  refine ⟨fun hx => onDie_eq hd (if_neg (by simp [hx])), fun hx hu => ⟨?_, ?_⟩, fun w same hm => hostWr_refused s (fun s => hostExclude s w same) hm, ?_, ?_, ?_, ?_,
    fun l hl => onDie_eq hd (if_pos hl), fun l he hl => ⟨_, onDie_live _ _ _ hd, laneFail_lanes he hl, laneFail_keeps.frame⟩, ?_⟩
  · intro x c hxd hc
    subst hxd
    have hl {c' : DieCause} : onDie s x.die (loseDies s x c') = .next (loseDies s x c') := onDie_live _ _ _ hd
    obtain ⟨c', he⟩ : ∃ c', exec c s = .next (loseDies s x c') := by
      rcases hc with rfl | rfl | rfl
      · exact ⟨_, hl⟩
      · exact ⟨_, hl⟩
      · exact ⟨_, hl⟩
    refine ⟨_, he, fun e hm => ?_⟩
    obtain ⟨h1, h2, h3⟩ := loseDies_gone (c := c') hd hx hu (hm.imp (congrArg Fin.val) fun ⟨y, hy, hye, h1, h2⟩ => ⟨y, hy, congrArg Fin.val hye, h1, h2⟩)
    exact ⟨h1, h2, h3, fun y hy hs hyd hw ht => loseDies_trip hy hs hyd hw ht⟩
  · intro w same hm hw hb hg
    have he := hostExclude_eq (s := s) (w := w) (same := same) (fun _ => hx) hg hw hb hd
    have hex : exec (.hostDieExclude ⟨w, same⟩) s = .next (wrResult (hostExclude s w same)) := hostWr_any s (fun s => hostExclude s w same) hm
    refine ⟨fun hp hl => ?_, fun hp => ?_⟩
    · obtain ⟨h1, h2, h3⟩ := excludeNow_gone (s := s) (d := d)
      refine ⟨?_, h1, h2, h3⟩
      rw [hex, he, if_neg, if_neg (by simp [hx])]
      · unfold excludeDie
        rw [if_neg (by simp [hx, hu])]
      · rintro (h | h)
        · simp [hp] at h
        · simp [h] at hl
    · rw [hex, he, if_pos (hp.imp_right (liveDies_single hd hx))]
  · intro w hm hg
    refine (hostWr_any s (fun s => hostExclude s w false) hm).trans ?_
    unfold hostExclude wrDieCtl
    rw [if_neg (by simp), if_pos (by simp [hg])]
  · intro w hm hw hx
    refine (hostWr_any s (fun s => hostExclude s w true) hm).trans ?_
    unfold hostExclude
    rw [if_pos (by simp [hw, hx])]
  · intro w hm hw hb hx hg
    have he := hostExclude_eq (s := s) (w := w) (same := false) (fun h => nomatch h) hg hw hb hd
    have hex : exec (.hostDieExclude ⟨w, false⟩) s = .next (wrResult (hostExclude s w false)) := hostWr_any s (fun s => hostExclude s w false) hm
    have hn : s.liveDies ≠ [d.val] := fun h => by
      have := (mem_liveDies (s := s) (e := d)).mp (h ▸ List.mem_singleton.mpr rfl)
      simp [hx] at this
    refine ⟨fun hp => ?_, fun hp => ?_⟩
    · rw [hex, he, if_pos (.inl hp)]
    · rw [hex, he, if_neg (by simp [hp, hn]), if_pos hx]
  · intro hx x hxd ha ht
    have hl {c : DieCause} : onDie s x.die (loseDies s x c) = .next s := onDie_eq (hxd ▸ hd) (loseDies_excluded (hxd ▸ hx) ha ht)
    exact ⟨hl, hl, hl⟩
  · refine ⟨_, onDie_live _ _ _ hd, ?_, ?_⟩
    · have hi : (idlePorts (s.islandLost d) d).lpx.lost = ladd d.val s.lpx.lost := idlePorts_islands
      exact (congrArg (fun l => d.val ∈ l) hi).mpr (mem_ladd d.val s.lpx.lost)
    · exact only_trans (only_mono (by simp) (lpx_only s _)) (only_mono (by simp) (idlePorts_keeps (s := s.islandLost d) (d := d)).frame)

end Sys2Proof.Machine

/-! PROOFS. What a warm reset does on each die: the scan of an LPM memory whose insert was interrupted, threads and buffers (spec/05 R160, spec/15 R412, R451). -/

namespace Sys2Proof.Machine

-- As in the stacks' part: elaborated in turn, the many short proofs hold no thread each.
set_option Elab.async false

section
variable {s t : State} {d e : Nat}

/-! The LPM memory (R160). -/

/-- The LPM memory, and the dies whose insert a reset interrupted. -/
def State.lpmMem (s : State) : SMap LpmEnt × List Nat := (s.fwt.lpm, s.fwt.ripple)

theorem Fixes.lpmMem_of_keeps {l : List Piece} (h : Keeps l s t) (hl : Piece.fwt ∉ l) : Fixes State.lpmMem s t :=
  congrArg (fun x : Fwt => (x.lpm, x.ripple)) (h.frame .fwt hl)

theorem dropFlow_lpmMem (i : Nat) : Fixes State.lpmMem s (dropFlow s d i) := by
  unfold dropFlow
  split
  · rfl
  · exact .refl s

theorem dropLearned_lpmMem : Fixes State.lpmMem s (dropLearned s d) := by
  unfold dropLearned
  exact .after (.foldl (fun _ _ => dropFlow_lpmMem _) _) rfl

/-- Entries of die d's LPM memory that are cleared leave the other valid ones, and every other die's. -/
structure LpmDrops (d : Nat) (gone : List Nat) (s t : State) : Prop where
  rise : mrise 0 t.fwt.lpm = true
  list : t.lpmList d = (s.lpmList d).filter (fun x => decide (x.1 ∉ gone))
  other : ∀ e, e ≠ d → KeepsLpm e s t
  ripple : t.fwt.ripple = s.fwt.ripple

theorem LpmDrops.after {g h : List Nat} {u : State} (k : LpmDrops d h t u) (j : LpmDrops d g s t) : LpmDrops d (g ++ h) s u := by
  refine ⟨k.rise, ?_, fun e he => (k.other e he).trans (j.other e he), k.ripple.trans j.ripple⟩
  rw [k.list, j.list, List.filter_filter]
  refine List.filter_congr fun x _ => ?_
  by_cases hg : x.1 ∈ g <;> by_cases hh : x.1 ∈ h <;> simp [hg, hh]

theorem LpmDrops.of_fwt {g : List Nat} {u : State} (j : LpmDrops d g s t) (hu : u.fwt = t.fwt) : LpmDrops d g s u := by
  obtain ⟨h1, h2, h3, h4⟩ := j
  unfold KeepsLpm at h3
  unfold State.lpmList at h2
  refine ⟨?_, ?_, fun e he => ?_, ?_⟩
  · rw [hu, h1]
  · unfold State.lpmList
    rw [hu, h2]
  · unfold KeepsLpm
    rw [hu, h3 e he]
  · rw [hu, h4]

theorem tblRemove_lpmDrops {i : Nat} (hi : i < 65536) (hr : mrise 0 s.fwt.lpm = true) : LpmDrops d [i] s (tblRemove s 3 d i) := by
  obtain ⟨v, hv, ht⟩ := tblRemove_lpm_eq s d i
  rw [ht]
  refine ⟨mset_rise _ _ _ _ hr, ?_, fun e he => setLpm_keepsLpm he hi v, rfl⟩
  have hm := filter_mset (Q := fun e : Nat × LpmEnt => e.2.valid && decide (e.1 / 65536 = d)) (key := lpmKey d i) (d := {}) s.fwt.lpm hr (v := v) (by simp [hv])
  have hs (u : State) : u.lpmList d = (u.fwt.lpm.filter (fun e => e.2.valid && decide (e.1 / 65536 = d))).map (fun x => (x.1 % 65536, x.2)) :=
    congrArg (List.map _) (List.filter_filter ..)
  rw [hs, hs, List.filter_map]
  refine congrArg (List.map _) (hm.trans ?_)
  rw [List.filter_filter, List.filter_filter]
  refine List.filter_congr fun x _ => ?_
  by_cases hx : x.1 / 65536 = d
  · have hk := key_eq_iff (i := i) hx
    simp [hx, lpmKey, hk, Bool.and_comm]
  · simp [hx]

/-- Of two entries of an LPM memory with equal keys the lower one (R160). -/
def State.lpmLower (s : State) (d : Nat) : List (Nat × LpmEnt) :=
  (s.lpmList d).filter (fun x => (s.lpmList d).any (fun y => decide (x.1 < y.1) && decide (tblKey 3 (beBytes 20 x.2.key.toNat) = tblKey 3 (beBytes 20 y.2.key.toNat))))

theorem mem_lpmList {x : Nat × LpmEnt} (h : x ∈ s.lpmList d) : x.1 < 65536 := by
  obtain ⟨y, -, rfl⟩ := List.mem_map.mp h
  exact Nat.mod_lt _ (by decide)

/-- Entries cleared one after another. -/
theorem clearEntries_lpmDrops : ∀ (l : List (Nat × LpmEnt)) (s : State), (∀ x ∈ l, x.1 < 65536) → mrise 0 s.fwt.lpm = true →
    LpmDrops d (l.map (·.1)) s (l.foldl (fun t x => (tblRemove t 3 d x.1).bump .FWT_LPM_DUP_FIXED d) s)
  | [], s, _, hr => ⟨hr, by simp, fun _ _ => rfl, rfl⟩
  | x :: l, s, hl, hr => by
    have h1 : LpmDrops d [x.1] s ((tblRemove s 3 d x.1).bump .FWT_LPM_DUP_FIXED d) :=
      (tblRemove_lpmDrops (hl x List.mem_cons_self) hr).of_fwt (State.bump_keeps.frame .fwt (by decide))
    exact (clearEntries_lpmDrops l _ (fun y hy => hl y (List.mem_cons_of_mem _ hy)) h1.rise).after h1

/-- No two valid entries of a die's LPM memory have equal keys (R160). -/
def State.lpmSingle (s : State) (d : Nat) : Prop :=
  ∀ x ∈ s.lpmList d, ∀ y ∈ s.lpmList d, tblKey 3 (beBytes 20 x.2.key.toNat) = tblKey 3 (beBytes 20 y.2.key.toNat) → x.1 = y.1

theorem lpmScan_lpmDrops (hr : mrise 0 s.fwt.lpm = true) : LpmDrops d ((s.lpmLower d).map (·.1)) s (lpmScan s d) :=
  clearEntries_lpmDrops _ s (fun _ hx => mem_lpmList (List.mem_of_mem_filter hx)) hr

/-- Behind the scan of a memory every key stands once: an entry that another of its key lies above is gone (R160). -/
theorem lpmScan_single (hr : mrise 0 s.fwt.lpm = true) : (lpmScan s d).lpmSingle d := by
  have hlow : ∀ x ∈ (lpmScan s d).lpmList d, ∀ y ∈ (lpmScan s d).lpmList d, tblKey 3 (beBytes 20 x.2.key.toNat) = tblKey 3 (beBytes 20 y.2.key.toNat) → ¬ x.1 < y.1 := by
    intro x hx y hy hk hlt
    rw [(lpmScan_lpmDrops hr).list] at hx hy
    obtain ⟨hxs, hxl⟩ := List.mem_filter.mp hx
    refine of_decide_eq_true hxl (List.mem_map.mpr ⟨x, List.mem_filter.mpr ⟨hxs, ?_⟩, rfl⟩)
    exact List.any_eq_true.mpr ⟨y, List.mem_of_mem_filter hy, by simp [hlt, hk]⟩
  intro x hx y hy hk
  have h1 := hlow x hx y hy hk
  have h2 := hlow y hy x hx hk.symm
  omega

/-! The dies in turn. -/

theorem mem_of_lrem {α : Type} [DecidableEq α] {x y : α} : ∀ {l : List α}, y ∈ lrem x l → y ∈ l
  | z :: r, h => by
    unfold lrem at h
    split at h
    · exact List.mem_cons_of_mem _ h
    · exact (List.mem_cons.mp h).elim (fun e => e ▸ List.mem_cons_self) fun hr => List.mem_cons_of_mem _ (mem_of_lrem hr)

/-- Taken out of a list without repeats, an element is gone. -/
theorem lrem_nodup {α : Type} [DecidableEq α] {x : α} : ∀ {l : List α}, l.Nodup → (lrem x l).Nodup ∧ x ∉ lrem x l
  | [], _ => ⟨List.nodup_nil, List.not_mem_nil⟩
  | z :: r, h => by
    obtain ⟨hz, hr⟩ := List.nodup_cons.mp h
    unfold lrem
    split
    next he => exact ⟨hr, he ▸ hz⟩
    next he =>
      obtain ⟨h1, h2⟩ := lrem_nodup (x := x) hr
      exact ⟨List.nodup_cons.mpr ⟨fun hm => hz (mem_of_lrem hm), h1⟩, fun hm => (List.mem_cons.mp hm).elim (fun e => he e.symm) h2⟩

/-- From s to t the LPM part of a warm reset went over the dies of a list: an interrupted memory is scanned, another stays (R160). -/
structure LpmWarmed (l : List Nat) (s t : State) : Prop where
  rise : mrise 0 t.fwt.lpm = true
  nodup : t.fwt.ripple.Nodup
  ripple : ∀ e, e ∈ t.fwt.ripple ↔ e ∈ s.fwt.ripple ∧ e ∉ l
  stays : ∀ e, (e ∉ l ∨ e ∉ s.fwt.ripple) → KeepsLpm e s t
  single : ∀ e, e ∈ l → e ∈ s.fwt.ripple → t.lpmSingle e

namespace LpmWarmed

variable {l m : List Nat} {u : State}

theorem trans (h : LpmWarmed l s t) (k : LpmWarmed m t u) : LpmWarmed (l ++ m) s u := by
  refine ⟨k.rise, k.nodup, fun e => ?_, fun e he => ?_, fun e he hs => ?_⟩
  · rw [k.ripple, h.ripple, List.mem_append, not_or, and_assoc]
  · have h1 : e ∉ l ∨ e ∉ s.fwt.ripple := he.imp_left fun hn hm => hn (List.mem_append_left _ hm)
    have h2 : e ∉ m ∨ e ∉ t.fwt.ripple := he.imp (fun hn hm => hn (List.mem_append_right _ hm)) fun hn hm => hn ((h.ripple e).mp hm).1
    exact (k.stays e h2).trans (h.stays e h1)
  · by_cases hl : e ∈ l
    · have hk : KeepsLpm e t u := k.stays e (.inr fun hm => ((h.ripple e).mp hm).2 hl)
      unfold State.lpmSingle
      rw [hk.list]
      exact h.single e hl hs
    · exact k.single e ((List.mem_append.mp he).resolve_left hl) ((h.ripple e).mpr ⟨hs, hl⟩)

theorem of_lpmMem (h : LpmWarmed l s t) (hu : Fixes State.lpmMem t u) : LpmWarmed l s u := by
  injection hu with hl hp
  have hk (e : Nat) : KeepsLpm e t u := congrArg (mpick (fun k => decide (k / 65536 = e))) hl
  refine ⟨hl ▸ h.rise, hp ▸ h.nodup, fun e => hp ▸ h.ripple e, fun e he => (hk e).trans (h.stays e he), fun e he hs => ?_⟩
  unfold State.lpmSingle
  rw [(hk e).list]
  exact h.single e he hs

theorem of_start (h : LpmWarmed l t u) (hs : Fixes State.lpmMem s t) : LpmWarmed l s u := by
  injection hs with hl hp
  have hk (e : Nat) : KeepsLpm e s t := congrArg (mpick (fun k => decide (k / 65536 = e))) hl
  exact ⟨h.rise, h.nodup, fun e => hp ▸ h.ripple e, fun e he => (h.stays e (hp ▸ he)).trans (hk e), fun e he hs => h.single e he (hp ▸ hs)⟩

end LpmWarmed

/-- The interrupted insert of a die is no longer waited for. -/
def State.rippled (s : State) (d : Nat) : State := { s with fwt := { s.fwt with ripple := lrem d s.fwt.ripple } }

theorem lpmScan_lpmWarmed (hr : mrise 0 s.fwt.lpm = true) (hn : s.fwt.ripple.Nodup) (hd : d ∈ s.fwt.ripple) : LpmWarmed [d] s (lpmScan (s.rippled d) d) := by
  obtain ⟨h1, h2⟩ := lrem_nodup (x := d) hn
  have hs : LpmDrops d _ (s.rippled d) (lpmScan (s.rippled d) d) := lpmScan_lpmDrops hr
  refine ⟨hs.rise, hs.ripple ▸ h1, fun e => ?_, fun e he => hs.other e ?_, fun e he _ => ?_⟩
  · rw [hs.ripple, List.mem_singleton]
    exact ⟨fun hm => ⟨mem_of_lrem hm, fun he => h2 (he ▸ hm)⟩, fun hm => mem_lrem hm.2 hm.1⟩
  · rintro rfl
    exact he.elim (fun h => h (List.mem_singleton.mpr rfl)) fun h => h hd
  · rw [List.mem_singleton.mp he]
    exact lpmScan_single (s := s.rippled d) hr

theorem fwtWarm_lpmWarmed (hr : mrise 0 s.fwt.lpm = true) (hn : s.fwt.ripple.Nodup) : LpmWarmed [d] s (fwtWarm s d) := by
  unfold fwtWarm
  extract_lets t0 keep ctx c t1
  have h1 : Fixes State.lpmMem s t1 := .after (t := t0) rfl dropLearned_lpmMem
  have hl : t1.fwt.lpm = s.fwt.lpm := congrArg Prod.fst h1
  have hp : t1.fwt.ripple = s.fwt.ripple := congrArg Prod.snd h1
  clear_value t1
  split
  next hd => exact (lpmScan_lpmWarmed (hl ▸ hr) (hp ▸ hn) hd).of_start h1
  next hd =>
    refine LpmWarmed.of_start ⟨hl ▸ hr, hp ▸ hn, fun e => ?_, fun _ _ => rfl, fun e he hs => ?_⟩ h1
    · exact ⟨fun hm => ⟨hm, fun he => hd (List.mem_singleton.mp he ▸ hm)⟩, fun hm => hm.1⟩
    · exact absurd (List.mem_singleton.mp he ▸ hs) hd

theorem clearDie_lpmWarmed (hr : mrise 0 s.fwt.lpm = true) (hn : s.fwt.ripple.Nodup) : LpmWarmed [d] s (clearDie s d) := by
  have hk : Keeps [.bpm, .cra, .tdx, .syu] (fwtWarm s d) (clearDie s d) :=
    .foldl (fun _ _ => clearPool_keeps.mono) (clearAff_keeps.after (syuReset_keeps.after (State.modTrc_keeps.after emptyLists_keeps.mono)))
  exact (fwtWarm_lpmWarmed hr hn).of_lpmMem (.lpmMem_of_keeps hk (by decide))

theorem overDies_lpmWarmed : ∀ (l : List Nat) (s : State), mrise 0 s.fwt.lpm = true → s.fwt.ripple.Nodup → LpmWarmed l s (overDies (fun d t => clearDie t d) l s)
  | [], _, hr, hn => ⟨hr, hn, fun e => by simp [overDies], fun _ _ => rfl, fun e he => absurd he List.not_mem_nil⟩
  | d :: l, s, hr, hn => by
    have h1 := clearDie_lpmWarmed (d := d) hr hn
    exact h1.trans (overDies_lpmWarmed l _ h1.rise h1.nodup)

/-! Threads and buffers (R412, R451, R454). -/

/-- Without threads, all buffers free and none shared. -/
def State.bare (s : State) : Prop := s.cra.thr = [] ∧ s.bpm.alloc = [] ∧ s.bpm.share = []

/-- The bitmap and the share table. -/
def State.taken (s : State) : SMap Bool × SMap Share := (s.bpm.alloc, s.bpm.share)

theorem threadList_taken (i : Nat) : ∀ l : List Nat, Fixes State.taken s (threadList s d i l)
  | [] => rfl
  | h :: r => by
    unfold threadList
    exact .after (t := threadList s d i r) rfl (threadList_taken i r)

theorem clearPool_bare (i : Nat) (h : s.bare) : (clearPool s d i).bare ∧ (clearPool s d i).cra.ps = s.cra.ps := by
  obtain ⟨ht, ha, hs⟩ := h
  have hc : (clearPool s d i).cra = s.cra := clearPool_keeps.frame .cra (by decide)
  have hb : (clearPool s d i).taken = ([], []) := by
    unfold clearPool rebuildPool
    refine Eq.trans (threadList_taken i _) ?_
    exact Prod.ext (congrArg (mdrop fun k => decide (k / 0x2000000 = d ∧ s.inPool d i (k % 0x2000000) = true)) ha) hs
  exact ⟨⟨hc ▸ ht, congrArg Prod.fst hb, congrArg Prod.snd hb⟩, congrArg Cra.ps hc⟩

theorem clearDie_bare (h : s.bare) : (clearDie s d).bare ∧ (clearDie s d).cra.ps = s.cra.ps := by
  unfold clearDie
  extract_lets t u
  have ht : Keeps [.regs, .fwt, .tdx, .icu] s t := State.modTrc_keeps.after (emptyLists_keeps.after fwtWarm_keeps.mono)
  have hc : t.cra = s.cra := ht.frame .cra (by decide)
  have hb : u.bpm = s.bpm := (clearAff_keeps.frame .bpm (by decide)).trans ((syuReset_keeps.frame .bpm (by decide)).trans (ht.frame .bpm (by decide)))
  clear_value t
  have hu : u.bare ∧ u.cra.ps = s.cra.ps := by
    obtain ⟨h1, h2, h3⟩ := h
    refine ⟨⟨?_, hb ▸ h2, hb ▸ h3⟩, (show u.cra.ps = t.cra.ps from rfl).trans (congrArg Cra.ps hc)⟩
    change (t.cra.thr.map _).filter _ = []
    rw [hc, h1]
    rfl
  exact foldl_keep (fun v => State.bare v ∧ v.cra.ps = s.cra.ps) _ (fun v i hv => ⟨(clearPool_bare i hv.1).1, (clearPool_bare i hv.1).2.trans hv.2⟩) _ u hu

theorem overDies_bare (l : List Nat) (h : s.bare) : (overDies (fun d t => clearDie t d) l s).bare ∧ (overDies (fun d t => clearDie t d) l s).cra.ps = s.cra.ps :=
  foldl_keep (fun v => State.bare v ∧ v.cra.ps = s.cra.ps) _ (fun _ _ hv => ⟨(clearDie_bare hv.1).1, (clearDie_bare hv.1).2.trans hv.2⟩) l s ⟨h, rfl⟩

end

end Sys2Proof.Machine

/-! PROOFS. What a warm reset leaves of the landing queues and of the segments (spec/15 R451 to R455). -/

namespace Sys2Proof.Machine

-- As in the stacks' part: elaborated in turn, the many short proofs hold no thread each.
set_option Elab.async false

section
variable {s t : State}

/-! The staged frames stay in their order (R454). -/

/-- The staged frames of a list, without their mirrors. -/
def shelve (l : List LQItem) : List LQItem := (l.filter (fun i => i.staged)).map (fun i => { i with mirror := none })

/-- The staged frames of a landing queue, without their mirrors. -/
def LQ.shelved (l : LQ) : List LQItem := shelve l.items

theorem KeepsLq.shelved (h : KeepsLq LQ.aging s t) : KeepsLq LQ.shelved s t :=
  ⟨h.rise, fun hr q => congrArg (fun x : List LQItem × Nat => shelve x.1) (h.same hr q)⟩

theorem shelved_map {f : LQItem → LQItem} (hf : ∀ i, (f i).staged = i.staged ∧ (i.staged = true → { f i with mirror := none } = { i with mirror := none })) (l : LQ) :
    LQ.shelved { l with items := l.items.map f } = l.shelved := by
  unfold LQ.shelved shelve
  dsimp only
  rw [List.filter_map, List.map_map, show (fun i : LQItem => i.staged) ∘ f = fun i => i.staged from funext fun i => (hf i).1]
  exact List.map_congr_left fun i hi => (hf i).2 (List.mem_filter.mp hi).2

theorem dropStagedMirrors_shelved (q j : Nat) : KeepsLq LQ.shelved s (dropStagedMirrors s q j) := by
  unfold dropStagedMirrors
  refine .after (State.modLq_keepsLq q (shelved_map fun i => ?_)) (.foldl (fun _ _ => .of_keeps freeMirror_keeps (by decide)) s)
  split
  · exact ⟨rfl, fun _ => rfl⟩
  · exact ⟨rfl, fun _ => rfl⟩

theorem finishWire_shelved (p : Nat) : KeepsLq LQ.shelved s (finishWire s p) := by
  unfold finishWire
  refine .after (.of_keeps State.modPtx_keeps (by decide)) (.foldl (fun t w => ?_) s)
  extract_lets n
  generalize hu : State.modLq t w.q _ = u
  have hm : KeepsLq LQ.shelved t u := hu ▸ State.modLq_keepsLq _ fun _ => rfl
  exact .after (KeepsLq.shelved (releaseItem_aging _ _ _)) hm

theorem closeSegment_shelved (j : Nat) (part : Bool) : KeepsLq LQ.shelved s (closeSegment s j part) := by
  unfold closeSegment
  split
  · exact .refl s
  next x he =>
    refine .ite (.refl s) ?_
    extract_lets t0 c t1 t2 t3
    have h1 : KeepsLq LQ.shelved s t1 := .after (t := t0) (.of_qba rfl) (.of_keeps finishSegment_keeps (by decide))
    have h2 : KeepsLq LQ.shelved s t2 := .after (State.modLq_keepsLq _ fun _ => rfl) h1
    have h3 : KeepsLq LQ.shelved s t3 := .after (.of_keeps State.bump_keeps (by decide)) h2
    exact .ite (.after (.of_keeps State.bump_keeps (by decide)) h3) h3

/-- A segment that is being written is written. -/
def State.segDone (s : State) (j : Nat) (x : Seg) : State :=
  if x.left = 0 then freeSegment (dropStagedMirrors (s.setSeg j { x with st := .written }) x.q j) j else dropStagedMirrors (s.setSeg j { x with st := .written }) x.q j

theorem segDone_shelved (j : Nat) (x : Seg) : KeepsLq LQ.shelved s (s.segDone j x) := by
  have h : KeepsLq LQ.shelved s (dropStagedMirrors (s.setSeg j { x with st := .written }) x.q j) := .after (dropStagedMirrors_shelved _ _) (.of_qba rfl)
  exact .ite (.after (KeepsLq.shelved (freeSegment_aging j)) h) h

/-- The segments that are being written. -/
def State.closings (s : State) : List Nat := (s.ssc.seg.filter (fun e => e.2.st = .closing)).map (·.1)

/-- One segment of a list is written, if it is still there. -/
def segNext (t : State) (j : Nat) : State :=
  match t.seg j with
  | some x => t.segDone j x
  | none => t

/-- The segments of a list are written. -/
def segsDone (js : List Nat) (s : State) : State := js.foldl segNext s

theorem settleWrites_eq : ∃ x : Ssc, settleWrites s = { segsDone s.closings s with ssc := x } ∧ x.seg = (segsDone s.closings s).ssc.seg ∧ x.data = (segsDone s.closings s).ssc.data
    ∧ x.smask = (segsDone s.closings s).ssc.smask := ⟨_, rfl, rfl, rfl, rfl⟩

theorem segsDone_shelved (js : List Nat) : KeepsLq LQ.shelved s (segsDone js s) :=
  .foldl (fun t j => by
    unfold segNext
    split
    · exact segDone_shelved _ _
    · exact .refl t) s

theorem settleWrites_shelved : KeepsLq LQ.shelved s (settleWrites s) := .after (t := segsDone s.closings s) (.of_qba rfl) (segsDone_shelved _)

theorem closeAll_shelved : KeepsLq LQ.shelved s (closeAll s) := by
  unfold closeAll
  exact .after settleWrites_shelved (.after (.foldl (fun _ _ => closeSegment_shelved _ _) _) (.of_keeps closeFresh_keeps (by decide)))

/-! The segments are written (R207, R452). -/

/-- What a segment holds: frames left, frames, queue, group and bytes. -/
def Seg.load (x : Seg) : Nat × Nat × Nat × Nat × Nat := (x.left, x.frames, x.q, x.smask, x.fill)

/-- From s to t the segments stay listed once, those that hold frames keep what they hold, and none opens. -/
structure SegsGo (s t : State) : Prop where
  rise : mrise 0 s.ssc.seg = true → mrise 0 t.ssc.seg = true
  kept : mrise 0 s.ssc.seg = true → ∀ j x, s.seg j = some x → x.left ≠ 0 → ∃ y, t.seg j = some y ∧ y.load = x.load
  shut : mrise 0 s.ssc.seg = true → ∀ j, (∀ x, s.seg j = some x → x.st ≠ .opened) → ∀ y, t.seg j = some y → y.st ≠ .opened

namespace SegsGo

variable {u : State}

theorem of_seg (h : t.ssc.seg = s.ssc.seg) : SegsGo s t := by
  have hs (j : Nat) : t.seg j = s.seg j := congrArg (fun m => mfind m j) h
  exact ⟨fun hr => h ▸ hr, fun _ j x hx _ => ⟨x, (hs j).trans hx, rfl⟩, fun _ j hj y hy => hj y ((hs j).symm.trans hy)⟩

theorem of_keeps {l : List Piece} (h : Keeps l s t) (hl : Piece.ssc ∉ l) : SegsGo s t := of_seg (congrArg Ssc.seg (h.frame .ssc hl))

theorem refl (s : State) : SegsGo s s := of_seg rfl

theorem after (h : SegsGo t u) (k : SegsGo s t) : SegsGo s u := by
  refine ⟨fun hr => h.rise (k.rise hr), fun hr j x hx hl => ?_, fun hr j hj => h.shut (k.rise hr) j (k.shut hr j hj)⟩
  obtain ⟨y, hy, hyx⟩ := k.kept hr j x hx hl
  have hyl : y.left ≠ 0 := fun h0 => hl ((congrArg Prod.fst hyx).symm.trans h0)
  obtain ⟨z, hz, hzy⟩ := h.kept (k.rise hr) j y hy hyl
  exact ⟨z, hz, hzy.trans hyx⟩

theorem ite {c : Prop} [Decidable c] (h : SegsGo s t) (k : SegsGo s u) : SegsGo s (if c then t else u) := by
  split
  · exact h
  · exact k

theorem foldl {α : Type} {f : State → α → State} {xs : List α} (hf : ∀ t x, SegsGo t (f t x)) (s : State) : SegsGo s (xs.foldl f s) :=
  foldl_keep (SegsGo s) f (fun t x h => (hf t x).after h) xs s (refl s)

/-- A segment's record written anew, with the same load and not opened. -/
theorem of_insert {j : Nat} {x y : Seg} (hx : s.seg j = some x) (hy : y.load = x.load) (hst : y.st ≠ .opened) (h : t.ssc.seg = minsert j y s.ssc.seg) : SegsGo s t := by
  have hself : t.seg j = some y := (congrArg (fun m => mfind m j) h).trans (mfind_minsert_self _ _ _)
  have hother {k : Nat} (hk : k ≠ j) : t.seg k = s.seg k := (congrArg (fun m => mfind m k) h).trans (mfind_minsert_other _ _ _ hk _)
  refine ⟨fun hr => h ▸ minsert_rise _ _ _ 0 (Nat.zero_le _) hr, fun _ k z hz _ => ?_, fun _ k hk z hz => ?_⟩
  · by_cases hkj : k = j
    · subst hkj
      exact ⟨y, hself, Option.some.inj (hx.symm.trans hz) ▸ hy⟩
    · exact ⟨z, (hother hkj).trans hz, rfl⟩
  · by_cases hkj : k = j
    · subst hkj
      exact Option.some.inj (hself.symm.trans hz) ▸ hst
    · exact hk z ((hother hkj).symm.trans hz)

/-- A segment without frames goes. -/
theorem of_remove {j : Nat} {x : Seg} (hx : s.seg j = some x) (hl : x.left = 0) (h : t.ssc.seg = mremove j s.ssc.seg) : SegsGo s t := by
  have hother {k : Nat} (hr : mrise 0 s.ssc.seg = true) (hk : k ≠ j) : t.seg k = s.seg k :=
    (congrArg (fun m => mfind m k) h).trans (mfind_mremove_other_rise _ _ hk _ 0 hr)
  refine ⟨fun hr => h ▸ mremove_rise _ _ _ hr, fun hr k z hz hzl => ?_, fun hr k hk z hz => ?_⟩
  · by_cases hkj : k = j
    · subst hkj
      exact absurd (Option.some.inj (hx.symm.trans hz) ▸ hl) hzl
    · exact ⟨z, (hother hr hkj).trans hz, rfl⟩
  · by_cases hkj : k = j
    · subst hkj
      have hn : t.seg k = none := (congrArg (fun m => mfind m k) h).trans (mfind_mremove_self_rise _ _ 0 hr)
      exact absurd (hn.symm.trans hz) nofun
    · exact hk z ((hother hr hkj).symm.trans hz)

end SegsGo

theorem tailWritten_stackMap (port j : Nat) (x : Seg) : Fixes State.stackMap s (s.tailWritten port j x) := by
  unfold State.tailWritten
  extract_lets tail t u
  have hw : Fixes State.stackMap t (writeChunks t port j x.smask [x.fill / 8192]) := .after (.foldl (fun _ _ => pushReq_stackMap _ _ _ _ _ _ _) _) rfl
  have hu : Fixes State.stackMap s u := .after (t := t) (.ite (.refl t) hw) rfl
  split
  · exact .after (pushReq_stackMap _ _ _ _ _ _ _) hu
  · exact hu

theorem finishSegment_ssc_seg (port j : Nat) (x : Seg) : (finishSegment s port j x).ssc.seg = minsert j { x with st := .closing } s.ssc.seg := by
  rw [finishSegment_eq, writeRecord_seg]
  exact congrArg (fun y : SMap Seg × Nat × Nat × List (Nat × Nat) => minsert j { x with st := .closing } y.1) (tailWritten_stackMap port j x)

theorem finishSegment_go {j : Nat} {x : Seg} (port : Nat) (hx : s.seg j = some x) : SegsGo s (finishSegment s port j x) :=
  .of_insert (y := { x with st := .closing }) hx rfl (fun h => nomatch h) (finishSegment_ssc_seg port j x)

/-- A segment is closed: it is not open any more. -/
theorem closeSegment_go (j : Nat) (part : Bool) : SegsGo s (closeSegment s j part) ∧ (mrise 0 s.ssc.seg = true → ∀ x, (closeSegment s j part).seg j = some x → x.st ≠ .opened) := by
  unfold closeSegment
  split
  next hn => exact ⟨.refl s, fun _ x hx => absurd (hn.symm.trans hx) nofun⟩
  next x he =>
    split
    next hst => exact ⟨.refl s, fun _ y hy => Option.some.inj (he.symm.trans hy) ▸ hst⟩
    extract_lets t0 c t1 t2 t3
    have h0 : SegsGo s t0 := finishSegment_go 1 he
    have h1 : SegsGo t0 t1 := .of_seg rfl
    have h2 : SegsGo t1 t2 := .of_keeps State.modLq_keeps (by decide)
    have h3 : SegsGo t2 t3 := .of_keeps State.bump_keeps (by decide)
    have h4 : SegsGo t3 (if part then t3.bump .SSC_SEG_PARTIAL x.owner else t3) := .ite (.of_keeps State.bump_keeps (by decide)) (.refl t3)
    have hlast : SegsGo t0 (if part then t3.bump .SSC_SEG_PARTIAL x.owner else t3) := h4.after (h3.after (h2.after h1))
    refine ⟨hlast.after h0, fun hr => hlast.shut (h0.rise hr) j fun y hy => ?_⟩
    rw [show t0.seg j = _ from finishSegment_seg] at hy
    exact Option.some.inj hy ▸ nofun

theorem closeFresh_go (part : Bool) : SegsGo s (closeFresh s part) := by
  unfold closeFresh
  split
  · exact .refl s
  next r hr =>
    split
    · exact .refl s
    next j hj =>
      extract_lets t
      have ht : SegsGo s t := .of_seg rfl
      split
      next x hx =>
        refine .ite ?_ ht
        extract_lets u
        have hu : SegsGo s u := .after (.of_keeps State.bump_keeps (by decide)) ((finishSegment_go 5 (s := t) (j := j) hx).after ht)
        exact .ite (.after (.of_keeps State.bump_keeps (by decide)) hu) hu
      · exact ht

theorem freeSegment_ssc_seg {j : Nat} {x : Seg} (hx : s.seg j = some x) : (freeSegment s j).ssc.seg = mremove j s.ssc.seg := by
  rw [freeSegment_eq hx, relink_seg, writeRecord_seg]
  rfl

/-- A segment is not being written. -/
def State.atRest (s : State) (j : Nat) : Prop := ∀ x, s.seg j = some x → x.st ≠ .closing

theorem segDone_seg {j : Nat} {x : Seg} : (s.segDone j x).ssc.seg = if x.left = 0 then mremove j (minsert j { x with st := .written } s.ssc.seg) else minsert j { x with st := .written } s.ssc.seg := by
  have hd : (dropStagedMirrors (s.setSeg j { x with st := .written }) x.q j).ssc.seg = minsert j { x with st := .written } s.ssc.seg :=
    congrArg Ssc.seg (dropStagedMirrors_keeps.frame .ssc (by decide))
  unfold State.segDone
  split
  · rw [freeSegment_ssc_seg (x := { x with st := .written }) ((congrArg (fun m => mfind m j) hd).trans (mfind_minsert_self _ _ _)), hd]
  · exact hd

theorem segDone_go {j : Nat} {x : Seg} (hx : s.seg j = some x) : SegsGo s (s.segDone j x) := by
  have h1 : SegsGo s (s.setSeg j { x with st := .written }) := .of_insert (y := { x with st := .written }) hx rfl (fun h => nomatch h) rfl
  have hs : (s.setSeg j { x with st := .written }).seg j = some { x with st := .written } := mfind_minsert_self _ _ _
  by_cases hl : x.left = 0
  · exact SegsGo.after (.of_remove hs hl (segDone_seg.trans (if_pos hl))) h1
  · exact SegsGo.after (.of_seg (segDone_seg.trans (if_neg hl))) h1

/-- Behind it the segment is at rest, and every other that was. -/
theorem segDone_atRest {j k : Nat} {x : Seg} (hr : mrise 0 s.ssc.seg = true) (hk : k = j ∨ s.atRest k) : (s.segDone j x).atRest k := by
  intro y hy
  unfold State.seg at hy
  rw [segDone_seg] at hy
  by_cases hkj : k = j
  · subst hkj
    split at hy
    · rw [mfind_mremove_self_rise _ _ 0 (minsert_rise _ _ _ 0 (Nat.zero_le _) hr)] at hy
      exact nomatch hy
    · rw [mfind_minsert_self] at hy
      exact Option.some.inj hy ▸ fun h => nomatch h
  · have hs : s.seg k = some y := by
      split at hy
      · rwa [mfind_mremove_other_rise _ _ hkj _ 0 (minsert_rise _ _ _ 0 (Nat.zero_le _) hr), mfind_minsert_other _ _ _ hkj] at hy
      · rwa [mfind_minsert_other _ _ _ hkj] at hy
    exact hk.resolve_left hkj y hs

theorem segNext_go (j : Nat) : SegsGo s (segNext s j) := by
  unfold segNext
  split
  next x hx => exact segDone_go hx
  · exact .refl s

theorem segNext_atRest {j k : Nat} (hr : mrise 0 s.ssc.seg = true) (hk : k = j ∨ s.atRest k) : (segNext s j).atRest k := by
  unfold segNext
  split
  · exact segDone_atRest hr hk
  next hn =>
    rcases hk with rfl | hk
    · exact fun x hx => absurd (hn.symm.trans hx) nofun
    · exact hk

theorem settleWrites_go : SegsGo s (settleWrites s) := by
  obtain ⟨x, hx, hseg, -⟩ := settleWrites_eq (s := s)
  rw [hx]
  exact SegsGo.after (.of_seg hseg) (.foldl (fun _ j => segNext_go j) s)

theorem settleWrites_atRest (hr : mrise 0 s.ssc.seg = true) (k : Nat) : (settleWrites s).atRest k := by
  obtain ⟨x, hx, hseg, -⟩ := settleWrites_eq (s := s)
  have h : (s.closings.foldl segNext s).atRest k := by
    by_cases hk : k ∈ s.closings
    · exact foldl_sets (f := segNext) (P := fun t => t.atRest k) (I := fun t => mrise 0 t.ssc.seg = true) (x := k) (fun t j ht => (segNext_go j).rise ht)
        (fun t j ht hp => segNext_atRest ht (.inr hp)) (fun t ht => segNext_atRest ht (.inl rfl)) _ s hk hr
    · have hs : s.atRest k := fun y hy hst => hk (List.mem_map.mpr ⟨(k, y), List.mem_filter.mpr ⟨mem_of_mfind hy, by simp [hst]⟩, rfl⟩)
      exact (foldl_keep (fun t => mrise 0 t.ssc.seg = true ∧ State.atRest t k) _ (fun t j ht => ⟨(segNext_go j).rise ht.1, segNext_atRest ht.1 (.inr ht.2)⟩) _ s ⟨hr, hs⟩).2
  intro y hy
  rw [hx] at hy
  exact h y ((congrArg (fun m => mfind m k) hseg).symm.trans hy)

/-- Every open segment is closed. -/
def State.allClosed (s : State) : State := (s.ssc.seg.filter (fun e => e.2.st = .opened)).foldl (fun t e => closeSegment t e.1 true) s

theorem closeAll_eq : closeAll s = settleWrites (closeFresh s true).allClosed := rfl

theorem allClosed_go : SegsGo s s.allClosed := by
  unfold State.allClosed
  exact .foldl (fun _ (e : Nat × Seg) => (closeSegment_go e.1 true).1) s

theorem allClosed_shut (hr : mrise 0 s.ssc.seg = true) (j : Nat) : ∀ x, s.allClosed.seg j = some x → x.st ≠ .opened := by
  by_cases ho : ∃ x, s.seg j = some x ∧ x.st = .opened
  · obtain ⟨x, hx, hst⟩ := ho
    exact foldl_sets (f := fun (t : State) (e : Nat × Seg) => closeSegment t e.1 true) (P := fun t => ∀ x, t.seg j = some x → x.st ≠ .opened) (I := fun t => mrise 0 t.ssc.seg = true) (x := (j, x))
      (fun t e ht => (closeSegment_go e.1 true).1.rise ht) (fun t e ht hp => (closeSegment_go e.1 true).1.shut ht j hp) (fun t ht => (closeSegment_go j true).2 ht) _ s
      (List.mem_filter.mpr ⟨mem_of_mfind hx, by simp [hst]⟩) hr
  · exact allClosed_go.shut hr j fun x hx hst => ho ⟨x, hx, hst⟩

/-- Behind it every segment is written, those with frames with what they held. -/
theorem closeAll_go : SegsGo s (closeAll s) := SegsGo.after settleWrites_go (allClosed_go.after (closeFresh_go true))

theorem closeAll_written (hr : mrise 0 s.ssc.seg = true) {j : Nat} {y : Seg} (hy : (closeAll s).seg j = some y) : y.st = .written := by
  have h1 := (closeFresh_go (s := s) true).rise hr
  have h2 := allClosed_go.rise h1
  have ho : y.st ≠ .opened := settleWrites_go.shut h2 j (allClosed_shut h1 j) y hy
  have hc : y.st ≠ .closing := settleWrites_atRest h2 j y hy
  cases hst : y.st
  · exact absurd hst ho
  · exact absurd hst hc
  · rfl

/-! The stacks and the bytes of the staging store. -/

theorem segsDone_stacks (js : List Nat) : Fixes State.stacks s (segsDone js s) :=
  .foldl (fun t j => by
    unfold segNext
    split
    next x hx =>
      have h : Fixes State.stacks t (dropStagedMirrors (t.setSeg j { x with st := .written }) x.q j) := .after (.stacks_of_keeps dropStagedMirrors_keeps (by decide)) rfl
      exact .ite (.after (.stacks_of_books (freeSegment_books j)) h) h
    · exact .refl t) s

theorem closeFresh_smask (part : Bool) : (closeFresh s part).ssc.smask = s.ssc.smask := (closeFresh_books part).smask

theorem closeAll_smask : (closeAll s).ssc.smask = s.ssc.smask := by
  obtain ⟨x, hx, -, -, hm⟩ := settleWrites_eq (s := (closeFresh s true).allClosed)
  have h1 : Fixes State.stacks (closeFresh s true) (closeFresh s true).allClosed := by
    unfold State.allClosed
    exact .foldl (fun _ (e : Nat × Seg) => closeSegment_stacks e.1 true) _
  rw [closeAll_eq, hx]
  exact hm.trans ((congrArg Prod.snd (segsDone_stacks _)).trans ((congrArg Prod.snd h1).trans (closeFresh_smask true)))

theorem finishWire_stacks (p : Nat) : Fixes State.stacks s (finishWire s p) := by
  unfold finishWire
  refine .after (.stacks_of_keeps State.modPtx_keeps (by decide)) (.foldl (fun t w => ?_) s)
  extract_lets n
  exact .after (releaseItem_stacks _ _ _) (.stacks_of_keeps State.modLq_keeps (by decide))

/-- The bytes that the stacks hold. -/
def State.stored (s : State) : Mem := s.ssc.data

theorem Fixes.stored_of_keeps {l : List Piece} (h : Keeps l s t) (hl : Piece.ssc ∉ l) : Fixes State.stored s t := congrArg Ssc.data (h.frame .ssc hl)

theorem pushPort_stored (d p : Nat) (wr : Bool) (w : ReqWhat) (m : Nat) : Fixes State.stored s (pushPort s d p wr w m) := by
  unfold pushPort pushReq
  exact .ite (.refl s) rfl

theorem writeRecord_stored (port j : Nat) : Fixes State.stored s (writeRecord s port j) := by
  unfold writeRecord
  extract_lets h l t u c
  have ht : Fixes State.stored s t := pushPort_stored _ _ _ _ _
  have hu : Fixes State.stored s u := .after (pushPort_stored _ _ _ _ _) ht
  exact .after (t := u) rfl hu

theorem relink_stored (port q : Nat) (o : Option Nat) : Fixes State.stored s (relink s port q o) := by
  unfold relink
  split
  · split
    · exact .ite (writeRecord_stored _ _) (.refl s)
    · exact .refl s
  · exact .refl s

theorem freeSegment_stored (j : Nat) : Fixes State.stored s (freeSegment s j) := by
  cases h : s.seg j with
  | none =>
    unfold freeSegment
    rw [h]
    exact .refl s
  | some x =>
    rw [freeSegment_eq h]
    exact .after (relink_stored _ _ _) (.after (writeRecord_stored _ _) rfl)

theorem segsDone_stored (js : List Nat) : Fixes State.stored s (segsDone js s) :=
  .foldl (fun t j => by
    unfold segNext
    split
    next x hx =>
      have h : Fixes State.stored t (dropStagedMirrors (t.setSeg j { x with st := .written }) x.q j) := .after (.stored_of_keeps dropStagedMirrors_keeps (by decide)) rfl
      exact .ite (.after (freeSegment_stored j) h) h
    · exact .refl t) s

/-- Where no segment is open no byte is written. -/
theorem closeAll_stored (h : ∀ e ∈ s.ssc.seg, e.2.st ≠ .opened) : (closeAll s).ssc.data = s.ssc.data := by
  have hf : (closeFresh s true).ssc.seg = s.ssc.seg ∧ (closeFresh s true).ssc.data = s.ssc.data := by
    unfold closeFresh
    split
    · exact ⟨rfl, rfl⟩
    next r hr =>
      split
      · exact ⟨rfl, rfl⟩
      next j hj =>
        split
        next x hx =>
          rw [if_neg (h (j, x) (mem_of_mfind hx))]
          exact ⟨rfl, rfl⟩
        · exact ⟨rfl, rfl⟩
  have ho : (closeFresh s true).ssc.seg.filter (fun e => e.2.st = .opened) = [] := by
    rw [hf.1]
    exact List.filter_eq_nil_iff.mpr fun e he => by simp [h e he]
  have ha : (closeFresh s true).allClosed = closeFresh s true := by
    unfold State.allClosed
    rw [ho]
    rfl
  obtain ⟨x, hx, -, hd, -⟩ := settleWrites_eq (s := closeFresh s true)
  rw [closeAll_eq, ha, hx]
  exact hd.trans ((segsDone_stored _).trans hf.2)

end

end Sys2Proof.Machine

/-! PROOFS. Warm and cold resets, the start and the takeover of the lead (spec/14 R410 to R416, spec/15 R449 to R456). -/

namespace Sys2Proof.Machine

-- As in the stacks' part: elaborated in turn, the many short proofs hold no thread each.
set_option Elab.async false

section
variable {s : State} {cause : Nat}

/-! The warm reset, by its stages (R412, R452). -/

/-- RESET is entered, traces stopped. -/
def State.warmOff (s : State) (cause : Nat) : State :=
  State.setMode { overDies (fun d t => stopTrace t d) s.allDies s with
    glb := { (overDies (fun d t => stopTrace t d) s.allDies s).glb with warm := some cause, ordered := (overDies (fun d t => stopTrace t d) s.allDies s).glb.ordered.filter (fun c => c = 3) } } .reset cause

/-- The frames on the wires complete. -/
def finishWires (s : State) : State := (s.cte.port.map (·.1)).foldl finishWire s

/-- Frames on the wires complete and segments are written. -/
def State.warmClosed (s : State) (cause : Nat) : State := closeAll (finishWires (s.warmOff cause))

/-- The frames that the reset loses are counted and running operations end. -/
def State.warmAborted (s : State) (cause : Nat) : State :=
  abortOps (((s.warmClosed cause).bumpN .GLB_WARM_LOST 0 [0] (s.warmClosed cause).occQuay).bumpN .GLB_WARM_LOST 0 [1] (s.warmClosed cause).occInflight)

/-- What a warm reset clears for the whole package. -/
def State.warmCleared (t : State) (quay flight : Nat) : State := { t with
    regs := keepCold t.regs
    glb := { t.glb with lostQuay := quay, lostFlight := flight }
    bpm := { t.bpm with quay := [], bad := [], alloc := [], share := [], quar := [], low := zeroLow t }
    prs := {}
    cls := { t.cls with wait := [], late := [], frag := [] }
    fwt := { t.fwt with cache := [], fetch := [] }
    qba := { t.qba with lq := (t.qba.lq.map (fun e => (e.1, keepStaged e.2))).filter (fun (e : Nat × LQ) => decide (e.2 ≠ {})), admitQ := [] }
    rsq := { t.rsq with rob := [], gap := [], gapWas := [], hand := [] }
    cra := { t.cra with thr := [], faultQ := [], esc := [], slotRem := [], waitMark := [], late := [] }
    tdx := { t.tdx with flight := [], rr := [] }
    syu := { t.syu with watch := [] }
    cte := { t.cte with pf := [] }
    gwe := { t.gwe with excq := [] }
    icu := { t.icu with unit := [] }
    ssc := { t.ssc with borrowed := [] } }

/-- The state before the dies are cleared. -/
def State.warmBare (s : State) (cause : Nat) : State := (s.warmAborted cause).warmCleared (s.warmClosed cause).occQuay (s.warmClosed cause).occInflight

theorem warmStart_eq (s : State) (cause : Nat) : warmStart s cause = overDies (fun d t => clearDie t d) (s.warmBare cause).allDies (s.warmBare cause) := by
  unfold warmStart
  extract_lets a _ b c d quay flight e f _ _ _ _ _ _ _ _ _ _ _ _ _ g
  have hd : d = s.warmClosed cause := rfl
  have hf : f = s.warmAborted cause := by
    unfold State.warmAborted
    rw [← hd]
  have hg : g = s.warmBare cause := by
    unfold State.warmBare
    rw [← hd, ← hf]
    rfl
  rw [hg]

theorem warmOff_keeps : Keeps [.regs, .glb, .lpx, .tdx, .gwe] s (s.warmOff cause) := by
  have h : Keeps [.regs, .tdx] s (overDies (fun d t => stopTrace t d) s.allDies s) := .overDies (fun _ _ => stopTrace_keeps) .refl
  exact State.setMode_keeps.after (keeps_glb.after h.mono)

theorem warmOff_glb : (s.warmOff cause).glb = { s.glb with warm := some cause, ordered := s.glb.ordered.filter (fun c => c = 3), mode := .reset, drainedSent := false, wdogMoored := false } := by
  have h : (overDies (fun d t => stopTrace t d) s.allDies s).glb = s.glb :=
    (Keeps.overDies (l := [.regs, .tdx]) (fun _ _ => stopTrace_keeps) .refl).frame .glb (by decide)
  unfold State.warmOff
  rw [setMode_glb]
  dsimp only
  rw [h]

theorem warmOff_claimed : Fixes State.claimed s (s.warmOff cause) := by
  have h : (overDies (fun d t => stopTrace t d) s.allDies s).gwe = s.gwe :=
    (Keeps.overDies (l := [.regs, .tdx]) (fun _ _ => stopTrace_keeps) .refl).frame .gwe (by decide)
  exact (setMode_claimed _ _).after (congrArg (fun x : Gwe => (x.owner, x.hostMac, x.ukey, x.sess)) h)

theorem finishWires_keeps : Keeps [.regs, .cte, .bpm, .qba, .ssc] s (finishWires s) := .foldl (fun _ _ => finishWire_keeps) .refl

theorem warmClosed_keeps : Keeps [.regs, .cte, .bpm, .qba, .ssc] (s.warmOff cause) (s.warmClosed cause) := closeAll_keeps.comp finishWires_keeps

theorem warmAborted_keeps : Keeps [.regs, .gwe, .plt] (s.warmClosed cause) (s.warmAborted cause) := abortOps_keeps.comp (State.bumpN_keeps.after State.bumpN_keeps.mono)

theorem endOp_claimed (i : Nat) (st : Status) : Fixes State.claimed s (endOp s i st) := by
  unfold endOp
  split
  next r hr =>
    refine .ite (.refl s) (.after (raiseEv_claimed _ _ _ _) ?_)
    refine .ite (.after (claimed_of_keeps State.setRf_keeps (by decide)) ?_) ?_
    · exact .ite rfl rfl
    · exact .ite rfl rfl
  · exact .refl s

theorem abortOps_claimed : Fixes State.claimed s (abortOps s) := .foldl (fun _ i => endOp_claimed i _) s

theorem warmAborted_claimed : Fixes State.claimed (s.warmClosed cause) (s.warmAborted cause) :=
  abortOps_claimed.after (claimed_of_keeps (l := [.regs]) (State.bumpN_keeps.after State.bumpN_keeps) (by decide))

theorem claimed_parts {t : State} (h : Fixes State.claimed s t) : t.gwe.owner = s.gwe.owner ∧ t.gwe.sess = s.gwe.sess :=
  ⟨congrArg Prod.fst h, congrArg (fun x : Option (List Byte) × BitVec 48 × List Byte × List Sess => x.2.2.2) h⟩

/-! What the clearing leaves of a state. -/

section
variable (t : State) (quay flight : Nat)

theorem warmCleared_glb : (t.warmCleared quay flight).glb = { t.glb with lostQuay := quay, lostFlight := flight } := rfl

theorem warmCleared_bare : (t.warmCleared quay flight).bare ∧ (t.warmCleared quay flight).cra.ps = t.cra.ps := ⟨⟨rfl, rfl, rfl⟩, rfl⟩

theorem warmCleared_claimed : Fixes State.claimed t (t.warmCleared quay flight) := rfl

theorem warmCleared_empty : (t.warmCleared quay flight).rsq.rob = [] ∧ (t.warmCleared quay flight).gwe.excq = [] ∧ (t.warmCleared quay flight).qba.admitQ = [] := ⟨rfl, rfl, rfl⟩

theorem warmCleared_lpmMem : Fixes State.lpmMem t (t.warmCleared quay flight) := rfl

theorem warmCleared_part : (t.warmCleared quay flight).part = t.part := rfl

theorem warmCleared_ssc : (t.warmCleared quay flight).ssc = { t.ssc with borrowed := [] } := rfl

/-- The frames that stand in the landing queues are staged ones (R451). -/
theorem warmCleared_staged : ∀ e ∈ (t.warmCleared quay flight).qba.lq, ∀ i ∈ e.2.items, i.staged = true := by
  intro e he i hi
  obtain ⟨x, -, rfl⟩ := List.mem_map.mp (List.mem_of_mem_filter he)
  obtain ⟨y, hy, rfl⟩ := List.mem_map.mp hi
  exact (List.mem_filter.mp hy).2

/-- A key is looked for behind another that is not it. -/
theorem mfind_cons_ne {α : Type} {i k : Nat} {x : α} {r : SMap α} (hr : mrise (i + 1) r = true) (hk : i ≠ k) : mfind ((i, x) :: r) k = mfind r k := by
  rw [mfind, if_neg hk]
  split
  next h => exact (mfind_below_rise r (i + 1) k hr (by omega)).symm
  · rfl

/-- A map without its unlisted values reads as before. -/
theorem mget_filter_ne {α : Type} [DecidableEq α] (d : α) (k : Nat) : ∀ (m : SMap α) (lo : Nat), mrise lo m = true → mget d (m.filter (fun e => decide (e.2 ≠ d))) k = mget d m k
  | [], _, _ => rfl
  | (i, x) :: r, lo, w => by
    simp only [mrise, Bool.and_eq_true, decide_eq_true_eq] at w
    have ih := mget_filter_ne d k r (i + 1) w.2
    unfold mget at ih ⊢
    by_cases hx : x = d
    · rw [List.filter_cons_of_neg (by simp [hx]), ih]
      by_cases hk : i = k
      · rw [mfind_below_rise r (i + 1) k w.2 (by omega), hk]
        simp [mfind, hx]
      · rw [mfind_cons_ne w.2 hk]
    · rw [List.filter_cons_of_pos (by simp [hx])]
      by_cases hk : i = k
      · simp [mfind, hk]
      · rw [mfind_cons_ne w.2 hk, mfind_cons_ne (mfilter_rise _ _ _ w.2) hk, ih]

/-- The staged frames of a queue stay in their order, without mirrors (R454). -/
theorem warmCleared_items (hr : mrise 0 t.qba.lq = true) (q : Nat) : ((t.warmCleared quay flight).lq q).items = (t.lq q).shelved := by
  have hq : (t.warmCleared quay flight).lq q = keepStaged (t.lq q) := by
    change mget {} ((t.qba.lq.map (fun e => (e.1, keepStaged e.2))).filter (fun e => decide (e.2 ≠ {}))) q = _
    rw [mget_filter_ne {} q (t.qba.lq.map (fun e => (e.1, keepStaged e.2))) 0 (mmap_rise (fun e : Nat × LQ => (e.1, keepStaged e.2)) (fun _ => rfl) _ _ hr)]
    unfold mget State.lq mget
    rw [mfind_map]
    cases mfind t.qba.lq q with
    | none => rfl
    | some x => rfl
  rw [hq]
  rfl

end

theorem foldl_add_zero {α : Type} {f : α → Nat} : ∀ {l : List α}, (∀ x ∈ l, f x = 0) → l.foldl (fun a x => a + f x) 0 = 0
  | [], _ => rfl
  | x :: r, h => by
    rw [List.foldl_cons, h x List.mem_cons_self]
    exact foldl_add_zero fun y hy => h y (List.mem_cons_of_mem _ hy)

theorem occQuay_zero (h : ∀ e ∈ s.qba.lq, ∀ i ∈ e.2.items, i.staged = true) : s.occQuay = 0 :=
  foldl_add_zero fun e he => List.length_eq_zero_iff.mpr (List.filter_eq_nil_iff.mpr fun i hi => by simp [h e he i hi])

theorem warmAborted_lq (q : Nat) (hr : mrise 0 s.qba.lq = true) : mrise 0 (s.warmAborted cause).qba.lq = true ∧ ((s.warmAborted cause).lq q).shelved = (s.lq q).shelved := by
  have h0 : KeepsLq LQ.shelved s (s.warmOff cause) := .of_keeps warmOff_keeps (by decide)
  have h1 : KeepsLq LQ.shelved (s.warmOff cause) (s.warmClosed cause) := closeAll_shelved.after (.foldl (fun _ p => finishWire_shelved p) _)
  have h2 : KeepsLq LQ.shelved (s.warmClosed cause) (s.warmAborted cause) := .of_keeps warmAborted_keeps (by decide)
  have h := h2.after (h1.after h0)
  exact ⟨h.rise hr, h.same hr q⟩

theorem warmAborted_smask : (s.warmAborted cause).ssc.smask = s.ssc.smask := by
  have h0 : (s.warmOff cause).ssc = s.ssc := warmOff_keeps.frame .ssc (by decide)
  have h1 : Fixes State.stacks (s.warmOff cause) (finishWires (s.warmOff cause)) := .foldl (fun _ p => finishWire_stacks p) _
  have h2 : (s.warmAborted cause).ssc = (s.warmClosed cause).ssc := warmAborted_keeps.frame .ssc (by decide)
  calc (s.warmAborted cause).ssc.smask = (s.warmClosed cause).ssc.smask := congrArg Ssc.smask h2
    _ = (finishWires (s.warmOff cause)).ssc.smask := closeAll_smask
    _ = (s.warmOff cause).ssc.smask := congrArg Prod.snd h1
    _ = s.ssc.smask := congrArg Ssc.smask h0

theorem warmAborted_kept : Keeps [.regs, .glb, .cte, .lpx, .bpm, .qba, .ssc, .tdx, .gwe, .plt] s (s.warmAborted cause) :=
  warmAborted_keeps.mono.comp (warmClosed_keeps.mono.comp warmOff_keeps.mono)

/-! Segments, where no frame is on a wire (R452, R454). -/

theorem finishWire_idle {p : Nat} (h : ∀ e ∈ s.cte.port, e.2.wire = []) : Keeps [.cte] s (finishWire s p) ∧ ∀ e ∈ (finishWire s p).cte.port, e.2.wire = [] := by
  have hw : (s.ptx p).wire = [] := by
    unfold State.ptx mget
    cases hp : mfind s.cte.port p with
    | none => rfl
    | some x => exact h _ (mem_of_mfind hp)
  have he : finishWire s p = s.modPtx p (fun x => { x with wire := x.wire.map (fun w => { w with left := true, engine := none }), turn := none, started := 0, weight := 1, round := [], served := [], held := [] }) := by
    unfold finishWire
    rw [hw]
    rfl
  rw [he]
  refine ⟨State.modPtx_keeps, fun e hm => ?_⟩
  unfold State.modPtx mmod mset at hm
  dsimp only at hm
  split at hm
  · exact h e (mem_mremove hm)
  · rcases mem_minsert hm with rfl | hm
    · exact congrArg (List.map _) hw
    · exact h e hm

theorem finishWires_idle (h : ∀ e ∈ s.cte.port, e.2.wire = []) : Keeps [.cte] s (finishWires s) :=
  (foldl_keep (fun t => Keeps [.cte] s t ∧ ∀ e ∈ t.cte.port, e.2.wire = []) _ (fun _ _ ht => ⟨(finishWire_idle ht.2).1.comp ht.1, (finishWire_idle ht.2).2⟩) _ s ⟨.refl, h⟩).1

theorem warmAborted_ssc (h : ∀ e ∈ s.cte.port, e.2.wire = []) : ∃ u : State, u.ssc = s.ssc ∧ (s.warmAborted cause).ssc = (closeAll u).ssc := by
  have hc : (s.warmOff cause).cte = s.cte := warmOff_keeps.frame .cte (by decide)
  have h1 := finishWires_idle (s := s.warmOff cause) (hc ▸ h)
  exact ⟨finishWires (s.warmOff cause), (h1.frame .ssc (by decide)).trans (warmOff_keeps.frame .ssc (by decide)), warmAborted_keeps.frame .ssc (by decide)⟩

/-! The whole warm reset. -/

theorem clearDies_keeps : Keeps [.regs, .fwt, .bpm, .cra, .tdx, .syu, .icu] (s.warmBare cause) (warmStart s cause) := by
  rw [warmStart_eq]
  exact .overDies (fun _ _ => clearDie_keeps) .refl

theorem warmStart_glb : (warmStart s cause).glb.mode = .reset ∧ (warmStart s cause).glb.warm = some cause ∧ (warmStart s cause).glb.ordered = s.glb.ordered.filter (fun c => c = 3) := by
  have h : (s.warmAborted cause).glb = (s.warmOff cause).glb := (warmAborted_keeps.frame .glb (by decide)).trans (warmClosed_keeps.frame .glb (by decide))
  have hb : (warmStart s cause).glb = { (s.warmAborted cause).glb with lostQuay := (s.warmClosed cause).occQuay, lostFlight := (s.warmClosed cause).occInflight } :=
    (clearDies_keeps.frame .glb (by decide)).trans (warmCleared_glb _ _ _)
  rw [hb, h, warmOff_glb]
  exact ⟨rfl, rfl, rfl⟩

theorem warmStart_bare : (warmStart s cause).bare ∧ (warmStart s cause).cra.ps = s.cra.ps := by
  obtain ⟨h1, h2⟩ := warmCleared_bare (s.warmAborted cause) (s.warmClosed cause).occQuay (s.warmClosed cause).occInflight
  obtain ⟨h3, h4⟩ := overDies_bare (s.warmBare cause).allDies (s := s.warmBare cause) h1
  rw [warmStart_eq]
  exact ⟨h3, h4.trans (h2.trans (congrArg Cra.ps (warmAborted_kept.frame .cra (by decide))))⟩

theorem warmStart_claimed : Fixes State.claimed s (warmStart s cause) := by
  have h1 : Fixes State.claimed (s.warmOff cause) (s.warmClosed cause) := claimed_of_keeps warmClosed_keeps (by decide)
  have h3 : Fixes State.claimed (s.warmAborted cause) (s.warmBare cause) := warmCleared_claimed _ _ _
  exact (claimed_of_keeps clearDies_keeps (by decide)).after (h3.after (warmAborted_claimed.after (h1.after warmOff_claimed)))

theorem warmStart_qba : (warmStart s cause).qba = (s.warmBare cause).qba := clearDies_keeps.frame .qba (by decide)

theorem warmStart_staged : ∀ e ∈ (warmStart s cause).qba.lq, ∀ i ∈ e.2.items, i.staged = true := by
  rw [warmStart_qba]
  exact warmCleared_staged _ _ _

theorem warmStart_items (hr : mrise 0 s.qba.lq = true) (q : Nat) : ((warmStart s cause).lq q).items = (s.lq q).shelved := by
  obtain ⟨h1, h2⟩ := warmAborted_lq (cause := cause) q hr
  rw [lq_of_qba warmStart_qba]
  exact (warmCleared_items _ _ _ h1 q).trans h2

theorem unborrowed {x y : Ssc} (h : y = { x with borrowed := [] }) : y.seg = x.seg ∧ y.data = x.data ∧ y.smask = x.smask := by
  subst h
  exact ⟨rfl, rfl, rfl⟩

theorem warmStart_ssc : (warmStart s cause).ssc.seg = (s.warmAborted cause).ssc.seg ∧ (warmStart s cause).ssc.data = (s.warmAborted cause).ssc.data
    ∧ (warmStart s cause).ssc.smask = (s.warmAborted cause).ssc.smask :=
  unborrowed ((clearDies_keeps.frame .ssc (by decide)).trans (warmCleared_ssc _ _ _))

/-- Segments with frames are written with what they held (R452). -/
theorem warmStart_segs (hr : mrise 0 s.ssc.seg = true) (hw : ∀ e ∈ s.cte.port, e.2.wire = []) :
    (∀ j x, s.seg j = some x → x.left ≠ 0 → ∃ y, (warmStart s cause).seg j = some y ∧ y.st = .written ∧ y.load = x.load)
      ∧ ((∀ e ∈ s.ssc.seg, e.2.st ≠ .opened) → (warmStart s cause).ssc.data = s.ssc.data) := by
  obtain ⟨u, hu, hc⟩ := warmAborted_ssc (cause := cause) hw
  have hseg (j : Nat) : (warmStart s cause).seg j = (closeAll u).seg j := by
    unfold State.seg
    rw [warmStart_ssc.1, hc]
  have hs (j : Nat) : u.seg j = s.seg j := by
    unfold State.seg
    rw [hu]
  have hur : mrise 0 u.ssc.seg = true := hu ▸ hr
  refine ⟨fun j x hx hl => ?_, fun ho => ?_⟩
  · obtain ⟨y, hy, hyx⟩ := closeAll_go.kept hur j x ((hs j).trans hx) hl
    exact ⟨y, (hseg j).trans hy, closeAll_written hur hy, hyx⟩
  · rw [warmStart_ssc.2.1, hc, closeAll_stored (hu.symm ▸ ho), hu]

theorem warmBare_lpmMem : Fixes State.lpmMem s (s.warmBare cause) := by
  have ha : Fixes State.lpmMem s (s.warmAborted cause) := .lpmMem_of_keeps warmAborted_kept (by decide)
  have hc : Fixes State.lpmMem (s.warmAborted cause) (s.warmBare cause) := warmCleared_lpmMem _ _ _
  exact hc.after ha

theorem warmBare_dies : (s.warmBare cause).dies = s.dies := by
  have hp : (s.warmBare cause).part = s.part := (warmCleared_part _ _ _).trans (warmAborted_kept.frame .part (by decide))
  unfold State.dies
  rw [hp]

/-- Each die's LPM memory, scanned where an insert was interrupted (R160). -/
theorem warmStart_lpm (hr : mrise 0 s.fwt.lpm = true) (hn : s.fwt.ripple.Nodup) : LpmWarmed (List.range s.dies) s (warmStart s cause) := by
  have hb := warmBare_lpmMem (s := s) (cause := cause)
  rw [warmStart_eq, show (s.warmBare cause).allDies = List.range s.dies from congrArg List.range warmBare_dies]
  generalize s.warmBare cause = b at hb
  have hl : b.fwt.lpm = s.fwt.lpm := congrArg Prod.fst hb
  have hp : b.fwt.ripple = s.fwt.ripple := congrArg Prod.snd hb
  exact (overDies_lpmWarmed _ b (hl ▸ hr) (hp ▸ hn)).of_start hb

/-- What an ordered warm reset leaves, besides the frames and tables that stay (R451, R452). -/
theorem warmStart_gone : (warmStart s cause).cra.thr = [] ∧ (warmStart s cause).rsq.rob = [] ∧ (warmStart s cause).gwe.excq = [] ∧ (warmStart s cause).qba.admitQ = []
    ∧ (∀ h, (warmStart s cause).allocated h = false) ∧ (warmStart s cause).bpm.share = [] := by
  obtain ⟨hrob, hexc, hadm⟩ := warmCleared_empty (s.warmAborted cause) (s.warmClosed cause).occQuay (s.warmClosed cause).occInflight
  obtain ⟨⟨hthr, halloc, hshare⟩, -⟩ := warmStart_bare (s := s) (cause := cause)
  refine ⟨hthr, ?_, ?_, ?_, fun h => ?_, hshare⟩
  · exact (congrArg Rsq.rob (clearDies_keeps.frame .rsq (by decide))).trans hrob
  · exact (congrArg Gwe.excq (clearDies_keeps.frame .gwe (by decide))).trans hexc
  · exact (congrArg Qba.admitQ warmStart_qba).trans hadm
  · unfold State.allocated
    rw [halloc]
    rfl

/-! The end of a warm reset (R452). -/

theorem warmFinish_glb (hw : s.glb.warm = some cause) : (warmFinish s).glb.mode = .provision ∧ (warmFinish s).glb.warm = none := by
  unfold warmFinish
  rw [hw]
  dsimp -proj only
  generalize startDone _ _ _ = u
  rw [show ∀ (t : State) (args : List Nat) (gen : Nat), (t.raiseEv 0x8003 pkg gen args).glb = t.glb from fun t _ _ => State.raiseEv_keeps.frame .glb (by decide), setMode_glb]
  exact ⟨rfl, rfl⟩

/-! The start sequence (R410, R411). -/

/-- The dies that do not pass are excluded, PLT_START is written, and LISTEN is entered. -/
theorem coldStart_ends {passed : Nat} {steps : List Nat} (h : (s.allDies.filter (fun d => passed.testBit d)).isEmpty = false) :
    ∃ t, Keeps [.regs, .free] (excludeAll (overDies (startFail steps) (s.allDies.filter (fun d => !passed.testBit d)) s) ((s.allDies.filter (fun d => !passed.testBit d)).map (fun d => (d, .start)))) t
      ∧ coldStart s passed steps = State.setMode { t with glb := { t.glb with started := true }, plt := { t.plt with leadMove := none } } .listen 0 := by
  unfold coldStart
  dsimp -proj only
  rw [if_neg (by simp [h])]
  exact ⟨_, startDone_keeps.after State.setRf_keeps.mono, rfl⟩

/-- The state in which the start ends. -/
theorem startEnd_state (t : State) : ∃ u, State.setMode { t with glb := { t.glb with started := true }, plt := { t.plt with leadMove := none } } .listen 0 = u
    ∧ u.glb.mode = .listen ∧ u.glb.started = true ∧ u.plt.leadMove = none ∧ u.icu = t.icu := by
  refine ⟨_, rfl, ?_, ?_, ?_, ?_⟩
  · rw [setMode_glb]
  · rw [setMode_glb]
  · exact congrArg Plt.leadMove (State.setMode_keeps.frame .plt (by decide))
  · exact State.setMode_keeps.frame .icu (by decide)

theorem startFails_icu {steps l : List Nat} : (overDies (startFail steps) l s).icu = s.icu :=
  (Keeps.overDies (l := [.regs]) (fun _ _ => startFail_keeps) .refl).frame .icu (by decide)

/-- A start that some die passes ends in LISTEN, with the dies that do not pass excluded. -/
theorem coldStart_state {passed : Nat} {steps : List Nat} (h : (s.allDies.filter (fun d => passed.testBit d)).isEmpty = false) :
    (coldStart s passed steps).glb.mode = .listen ∧ (coldStart s passed steps).glb.started = true ∧ (coldStart s passed steps).plt.leadMove = none
      ∧ ∀ d, (coldStart s passed steps).excluded d = true ↔ s.excluded d = true ∨ d < s.dies ∧ passed.testBit d = false := by
  obtain ⟨t, ht, he⟩ := coldStart_ends (steps := steps) h
  obtain ⟨u, hu, hm, hs, hl, hi⟩ := startEnd_state t
  rw [he, hu]
  refine ⟨hm, hs, hl, fun d => ?_⟩
  have hx : u.icu.excl = _ := congrArg Icu.excl (hi.trans (ht.frame .icu (by decide)))
  unfold State.excluded
  rw [hx]
  refine (excludeAll_excluded _).trans (or_congr (iff_of_eq (congrArg (fun x : Icu => nbit x.excl d = true) startFails_icu)) ?_)
  simp [State.allDies]

theorem start_passes {d : Nat} {passed : BitVec 8} (hd : d < s.dies) (hp : passed.getLsbD d = true) : (s.allDies.filter (fun d => passed.toNat.testBit d)).isEmpty = false := by
  have hm : d ∈ s.allDies.filter (fun d => passed.toNat.testBit d) := List.mem_filter.mpr ⟨List.mem_range.mpr hd, hp⟩
  exact Bool.eq_false_iff.mpr fun h => absurd (List.isEmpty_iff.mp h ▸ hm) List.not_mem_nil

/-- A start that no die passes does nothing. -/
theorem coldStart_none {passed : BitVec 8} {steps : List Nat} (h : ∀ d, d < s.dies → passed.getLsbD d = false) : coldStart s passed.toNat steps = s := by
  have hn : s.allDies.filter (fun d => passed.toNat.testBit d) = [] := List.filter_eq_nil_iff.mpr fun d hd => by
    have := h d (List.mem_range.mp hd)
    exact Bool.eq_false_iff.mp this
  unfold coldStart
  dsimp -proj only
  rw [hn]
  rfl

/-! The takeover of the lead (R416). -/

theorem unheld {g : Gwe} (h : g.held = []) : { g with held := [] } = g := by
  cases g
  cases h
  rfl

theorem runHeld_none (hh : s.holds = false) (h : s.gwe.held = []) : runHeld s = s := by
  unfold runHeld
  rw [if_neg (by simp [hh]), h]
  exact congrArg (fun g : Gwe => ({ s with gwe := g } : State)) (unheld h)

theorem patchSlot_runs {i : Nat} {r : OpRec} (hi : s.patchSlot = some i) (hr : s.op i = some r) : r.ended = false := by
  have h := List.find?_some hi
  simp only [hr] at h
  simpa using (Bool.and_eq_true_iff.mp h).1

/-- The patch that ran is lost, with its record closed (R416). -/
theorem losePatch_op {i : Nat} {r : OpRec} (hi : s.patchSlot = some i) (hr : s.op i = some r) : (losePatch s).op i = some (r.closed s .aborted) := by
  unfold losePatch
  rw [hi]
  exact endOp_op hr (patchSlot_runs hi hr)

theorem losePatch_plt : (losePatch s).plt.patchBuf = [] ∧ (losePatch s).plt.patchTotal = 0 ∧ (losePatch s).plt.verified = false := ⟨rfl, rfl, rfl⟩

/-- The die that leads, and the frames held for the next. -/
def State.leading (s : State) : Nat × List GwFrame := (s.plt.lead, s.gwe.held)

theorem raiseEv_leading (code die gen : Nat) (args : List Nat) : Fixes State.leading s (s.raiseEv code die gen args) := by
  have hp : (s.raiseEv code die gen args).plt = s.plt := State.raiseEv_keeps.frame .plt (by decide)
  have hg : (s.raiseEv code die gen args).gwe.held = s.gwe.held := (congrArg Gwe.held (raiseEv_queues code die gen args).rest :)
  exact congrArg₂ (fun (p : Plt) (l : List GwFrame) => (p.lead, l)) hp hg

theorem leading_of_keeps {t : State} (h : Keeps [.regs] s t) : Fixes State.leading s t :=
  congrArg₂ (fun (p : Plt) (g : Gwe) => (p.lead, g.held)) (h.frame .plt (by decide)) (h.frame .gwe (by decide))

theorem endOp_leading (i : Nat) (st : Status) : Fixes State.leading s (endOp s i st) := by
  unfold endOp
  split
  next r hr =>
    refine .ite (.refl s) (.after (raiseEv_leading _ _ _ _) ?_)
    refine .ite (.after (leading_of_keeps State.setRf_keeps) ?_) ?_
    · exact .ite rfl rfl
    · exact .ite rfl rfl
  · exact .refl s

theorem losePatch_leading : Fixes State.leading s (losePatch s) := by
  unfold losePatch
  split
  · exact endOp_leading _ _
  · rfl

/-- The takeover, counted, by a new lead. -/
def State.leadTaken (s : State) : State :=
  { ((losePatch s).bump .PLT_HANDOVERS 0).bumpGen .PLT_STATE 0 with plt := { (((losePatch s).bump .PLT_HANDOVERS 0).bumpGen .PLT_STATE 0).plt with leadMove := none } }

theorem leadTaken_keeps : Keeps [.regs, .gwe, .plt] s s.leadTaken :=
  (keeps_plt).after (State.bumpGen_keeps.after (State.bump_keeps.after losePatch_keeps.mono))

theorem leadTaken_plt : s.leadTaken.plt = { (losePatch s).plt with leadMove := none } := by
  have h : Keeps [.regs] (losePatch s) (((losePatch s).bump .PLT_HANDOVERS 0).bumpGen .PLT_STATE 0) := State.bumpGen_keeps.after State.bump_keeps
  unfold State.leadTaken
  rw [h.frame .plt (by decide)]

theorem leadTaken_held : s.leadTaken.gwe.held = s.gwe.held := by
  have h : Keeps [.regs] (losePatch s) (((losePatch s).bump .PLT_HANDOVERS 0).bumpGen .PLT_STATE 0) := State.bumpGen_keeps.after State.bump_keeps
  have hl : (losePatch s).gwe.held = s.gwe.held := congrArg Prod.snd (losePatch_leading (s := s))
  unfold State.leadTaken
  dsimp only
  rw [h.frame .gwe (by decide), hl]

/-- A takeover without frames held: the change of the lead is reported (R416). -/
theorem takeover_state {old : Nat} (ho : s.plt.leadMove = some old) (hw : s.glb.warm = none) (hh : s.gwe.held = []) :
    Keeps [.regs, .gwe] s.leadTaken (takeover s) := by
  unfold takeover
  rw [ho]
  change Keeps _ _ (runHeld (s.leadTaken.raiseEv 0x8201 pkg (s.leadTaken.gen .PLT_STATE 0) [old, s.plt.lead, s.running false, s.running true]))
  generalize [old, s.plt.lead, s.running false, s.running true] = args
  generalize s.leadTaken.gen .PLT_STATE 0 = gen
  have hk : Keeps [.regs, .gwe] s.leadTaken (s.leadTaken.raiseEv 0x8201 pkg gen args) := State.raiseEv_keeps
  have hheld : (s.leadTaken.raiseEv 0x8201 pkg gen args).gwe.held = [] := by
    rw [(raiseEv_queues _ _ _ _).rest]
    exact leadTaken_held.trans hh
  have hholds : (s.leadTaken.raiseEv 0x8201 pkg gen args).holds = false := by
    unfold State.holds
    rw [hk.frame .glb (by decide), hk.frame .plt (by decide), leadTaken_plt, leadTaken_keeps.frame .glb (by decide), hw]
    rfl
  rwa [runHeld_none hholds hheld]

end

/-- Settles O57. -/
theorem resetsAndStart : Obligations.ResetsAndStart := by
  intro s
  refine ⟨fun hm ho => ?_, fun cause hw => ?_, fun ho => ?_, fun cause h => ?_, fun hb => ?_, fun hb => ?_, fun passed steps hm hw hh => ?_, fun old ho hw hh => ?_⟩
  · obtain ⟨hmode, hwarm, hord⟩ := warmStart_glb (s := s) (cause := 4)
    obtain ⟨hthr, hrob, hexc, hadm, halloc, hshare⟩ := warmStart_gone (s := s) (cause := 4)
    obtain ⟨howner, hsess⟩ := claimed_parts (warmStart_claimed (s := s) (cause := 4))
    refine ⟨warmStart s 4, congrArg Host.Outcome.next (if_pos ⟨hm, ho⟩), hmode, hwarm, ?_, hthr, hrob, hexc, hadm, occQuay_zero warmStart_staged, halloc, hshare, warmStart_staged,
      fun hinv q => warmStart_items ?_ q, fun _ hr hw => ?_, fun hr hn d hd => ?_, howner, hsess, warmStart_ssc.2.2.trans warmAborted_smask, warmStart_bare.2⟩
    · rw [hord, ho]
      rfl
    · obtain ⟨-, ⟨_, _, _, hl⟩, -⟩ := hinv
      exact hl
    · obtain ⟨hs, hdata⟩ := warmStart_segs (cause := 4) hr hw
      refine ⟨fun j x hx hl => ?_, hdata⟩
      obtain ⟨y, hy, hst, hload⟩ := hs j x hx hl
      exact ⟨y, hy, hst, congrArg (·.1) hload, congrArg (·.2.1) hload, congrArg (·.2.2.1) hload, congrArg (·.2.2.2.1) hload, congrArg (·.2.2.2.2) hload⟩
    · have h := warmStart_lpm (s := s) (cause := 4) hr hn
      exact ⟨fun hm => ((h.ripple d).mp hm).2 (List.mem_range.mpr hd), fun hnr => (h.stays d (.inr hnr)).list, fun hr => h.single d (List.mem_range.mpr hd) hr⟩
  · obtain ⟨hm, hn⟩ := warmFinish_glb hw
    exact ⟨congrArg Host.Outcome.next (if_pos (by simp [hw])), hm, hn⟩
  · exact ⟨coldReset s 3, congrArg Host.Outcome.next (if_pos ⟨rfl, ho⟩), coldReset_from⟩
  · exact congrArg Host.Outcome.next (if_neg fun hc => h.elim (fun hne => hne hc.1) (fun hne => hne hc.2))
  · exact ⟨_, execSupplyValid_eq hb, coldReset_from⟩
  · exact ⟨_, execResetNAssert_eq hb, coldReset_from⟩
  · have he : exec (.coldStart passed steps) s = .next (coldStart s passed.toNat steps) := congrArg Host.Outcome.next (if_pos ⟨hm, by simp [hw], by simp [hh]⟩)
    refine ⟨fun ⟨d, hd, hp⟩ => ?_, fun hall => ?_⟩
    · obtain ⟨hmode, hst, hlead, hex⟩ := coldStart_state (s := s) (passed := passed.toNat) (steps := steps) (start_passes hd hp)
      refine ⟨_, he, hmode, hst, hlead, fun e he hf => (hex e).mpr (.inr ⟨he, hf⟩), fun h0 e _ hp => ?_⟩
      refine Bool.eq_false_iff.mpr fun hx => ((hex e).mp hx).elim (fun h => ?_) (fun h => absurd (hp.symm.trans h.2) (by simp))
      unfold State.excluded at h
      rw [h0] at h
      simp [nbit] at h
    · rw [he, coldStart_none hall]
  · have hk := takeover_state ho hw hh
    have hplt : (takeover s).plt = { (losePatch s).plt with leadMove := none } := (hk.frame .plt (by decide)).trans leadTaken_plt
    obtain ⟨hbuf, htot, hver⟩ := losePatch_plt (s := s)
    refine ⟨takeover s, rfl, ?_⟩
    have hall : Keeps [.regs, .gwe, .plt] s (takeover s) := hk.mono.comp leadTaken_keeps
    rw [hplt]
    refine ⟨rfl, congrArg Prod.fst (losePatch_leading (s := s)), hbuf, htot, hver, hall.frame, fun _ i r hi hr => ?_⟩
    have hrec : (takeover s).plt.ops = (losePatch s).plt.ops := by rw [hplt]
    exact (op_of_recs (s := losePatch s) hrec i).trans (losePatch_op hi hr)

end Sys2Proof.Machine
